-- ==== Sys2Proof/Word.lean ====
section
/-! DEFINITION. The words of the module (spec/00_scope.md R11, R14): cycle counts, sequences and bytes that wrap. -/
namespace Sys2Proof

/-- One byte. -/
abbrev Byte := BitVec 8

/-- A 32-bit count that wraps: a cycle count (R11), an event or record sequence. -/
abbrev Word := BitVec 32

/-- A 16-bit count that wraps: a command sequence (R23), a LOG_INDEX (R466). -/
abbrev Half := BitVec 16

end Sys2Proof
end

