-- ==== Sys2Proof/Syntax.lean ====
section
/-! DEFINITION. The commands of the module: the rows of spec/opcode_table.json with the data that comes with them from
outside (a request's bytes, a received frame's fields, a sampled or measured value, a choice the spec leaves to the
module). What the module itself holds is in State, never in an operand. -/
namespace Sys2Proof

/-- Feed A is 0, feed B is 1. -/
abbrev Feed := Fin 2
abbrev Rail := Fin 8
abbrev Stream := Fin 8
abbrev Lane := Fin 4
abbrev Die := Fin 4
abbrev Plane := Fin 4
/-- A node of the cascade less 1: node k is k - 1 here. -/
abbrev NodeIx := Fin 64
/-- Pad bits of Table PK-6: 0-7 EN0-EN7, 8 PFW#, 9 HOST_RST#, 10 FAULT#, 11 POUR#. -/
abbrev Pad := Fin 12
/-- Source j of spec/18_events_and_faults.md R478: 0 the link, 1 the USB port, 2 unattributed CAN, else CAN address j - 2. -/
abbrev Src := Fin 129

/-- What the pins and the converters read at one tick's start (R499). Voltages in mV, currents in mA, temperatures in
0.1 degrees C, as the parameters that carry them. -/
structure Sample where
  feedA : Nat := 0
  feedB : Nat := 0
  srcA : Nat := 0
  srcB : Nat := 0
  iA : Int := 0
  iB : Int := 0
  /-- Seating pins closed: bit 0 and 1 of feed A, bit 2 and 3 of feed B. -/
  seat : BitVec 4 := 0
  /-- The feeds' NTCs: 12-bit ratio to the bias. -/
  ntcA : Nat := 0
  ntcB : Nat := 0
  vbus : Nat := 0
  vbusIn : Nat := 0
  stack : Nat := 0
  /-- The holdup's input current. -/
  huI : Int := 0
  share : Nat := 0
  /-- The charger's output current. -/
  chgI : Nat := 0
  /-- The mains sense sample. -/
  mains : Int := 0
  /-- The die sensors of the HV and the logic die, and VDRV's output power in mW. -/
  hvTemp : Int := 0
  logicTemp : Int := 0
  vdrv : Nat := 0
  viso : Nat := 0
  vlog : Nat := 0
  usb : Nat := 0
  logicI : Nat := 0
  /-- VS0-VS7 in mV at the pad. -/
  vs : List Nat := []
  /-- PG0-PG7 levels. -/
  pg : BitVec 8 := 0
  /-- Pad levels by pad bit: 1 at 2.0 V or above; and 1 at 0.8 V or below. -/
  pads : BitVec 12 := 0xFFF
  padsLow : BitVec 12 := 0
  /-- Queued CAN frames whose sending was completed since the last tick. -/
  canSent : Nat := 0
  /-- The CAN controller is error passive (ISO 11898-1, R447). -/
  canPassive : Bool := false
  /-- Code errors of each lane in the tick, and SKP symbols added or removed (R265, R268); of the errors, those that are violations of
  the partner: a special code group that is never sent, an elastic buffer overrun for want of a SKP set (Table LP-11). -/
  codeErrs : List Nat := []
  skpAdj : List Nat := []
  codeViols : List Nat := []
  /-- The DFE taps that adaptation has reached on each lane, five bytes; none where the sample names none (R285). -/
  taps : List (List Nat) := []
  /-- A memory error in a frame while it is sent (R312); an uncorrectable one in the retry buffer (R325). -/
  txErr : Bool := false
  retryErr : Bool := false
  deriving DecidableEq, Repr

/-- The source that powers the logic side (spec/01_architecture.md R24, 0x1000:20). -/
inductive Source where
  | off | iso | vlog | usb
  deriving DecidableEq, Repr

/-- A parameter-service request body without its opcode, which the command names (spec/02_object_dictionary.md Table OD-6). -/
structure Req where
  src : Src
  tag : Byte := 0
  flags : Byte := 0
  index : BitVec 16
  sub : Byte
  data : List Byte := []
  deriving DecidableEq, Repr


/-- How a training set came on a lane: whether no code error fell into it, how many sets the module has sent on the lane since the last
one received there, and whether the partner left electrical idle earlier than R279 allows. -/
structure SetRx where
  clean : Bool := true
  sent : Nat := 0
  early : Bool := false
  deriving DecidableEq, Repr

/-- The commands the block takes: one constructor per row of the table of operations and events. -/
inductive Instr where
  /-- TICK (R499). At each tick start the module samples every tick-counted condition and runs its per-tick work. -/
  | tick (x : Sample)
  /-- CYCLE_START (R143). At 0 au the follower increments the cycle count and the per-cycle work runs. -/
  | cycleStart
  /-- ADMISSION_OPEN (R342). ADM_STATE reopens after ADM_OPEN_RUN consecutive ticks of non-negative margin. -/
  | admissionOpen
  /-- STATUS_FRAME_RX (R19). The logic die receives a B1 status frame and takes its values. -/
  | statusFrameRx (crcOk : Bool)
  /-- STATUS_STREAM_LOST (R19). No valid B1 frame for 4 ticks: the status stream is declared lost and the estimate is zeroed. -/
  | statusStreamLost
  /-- HEARTBEAT_ARM (R20). The HV die arms its heartbeat check at the first B5 toggle after its main supply starts. -/
  | heartbeatArm
  /-- HEARTBEAT_LOST (R20). No B5 toggle for 4 HV ticks: the HV die declares the heartbeat lost and stops the charger. -/
  | heartbeatLost
  /-- HW_WATCHDOG_EXPIRY (R21). The hardware watchdog runs 50 000 µs without a restart and the logic die takes a warm reset. -/
  | hwWatchdogExpiry
  /-- BARRIER_RESET (R22). The status stream or the command path has been lost for 64 cycles, so the logic die resets its barrier half. -/
  | barrierReset
  /-- COMMAND_FRAME_RX (R23). The HV die applies or discards a B3 command frame by its CRC and sequence. -/
  | commandFrameRx (crcOk : Bool) (seq : BitVec 16)
  /-- COMMAND_RESEND (R23). The reported sequence has not advanced for 2 ticks, so the logic die resends every unapplied command frame. -/
  | commandResend
  /-- SOURCE_SWITCH (R26). The selector changes between the integrated supply and VLOG without a reset. -/
  | sourceSwitch
  /-- POWER_ON_RESET (R98). The logic supply rises from below its window, including entry to or exit from cold read, and the logic side boots. -/
  | powerOnReset
  /-- LOGIC_SUPPLY_LOSS (R27). The last logic-side source is lost, so the logic side goes off or resets into cold read. -/
  | logicSupplyLoss
  /-- USB_ATTACH (R122). USB_VBUS enters its window and the device attaches and enumerates. -/
  | usbAttach
  /-- USB_DETACH (R62). The USB session ends and its shadows, unlock and cursor are discarded. -/
  | usbDetach
  /-- WAKE_STAGE_START (R116). A feed reaches 16.0 V and the wake stage starts. -/
  | wakeStageStart
  /-- WAKE_STAGE_STOP (R116). Both feeds fall below 14.0 V and the wake stage stops. -/
  | wakeStageStop
  /-- MAIN_SUPPLY_START (R117). VBUS_IN rises to 9.0 V and the HV main supply starts; the power side runs. -/
  | mainSupplyStart
  /-- MAIN_SUPPLY_STOP (R117). VBUS_IN falls below 6.5 V and the main supply stops; the time base goes OFF. -/
  | mainSupplyStop
  /-- VISO_REDUCED (R119). VBUS_IN falls below 9 V and VISO capability is cut to 0.6 W. -/
  | visoReduced
  /-- VISO_CURRENT_LIMIT (R119). VISO enters current limit, which is counted, flagged and logged at once. -/
  | visoCurrentLimit
  /-- READ (R50). A READ request returns a parameter's value, or an abort. -/
  | read (r : Req)
  /-- WRITE (R52). A WRITE request to a parameter without behaviour of its own is checked in full and applied in one tick. -/
  | write (r : Req)
  /-- FLAG_WRITE (R69). A WRITE to a flag parameter clears the bits written as 1, unless the module sets them in that tick. -/
  | flagWrite (r : Req)
  /-- READ_LOW (R61). READ_LOW returns bits 31–0 and stores the high half in the source's shadow. -/
  | readLow (r : Req)
  /-- READ_HIGH (R61). READ_HIGH returns the shadowed or the live high half. -/
  | readHigh (r : Req)
  /-- CLEAR_IF_EQUAL (R70). A flag is cleared only if it equals the seen value; otherwise the current value is returned with an abort. -/
  | clearIfEqual (r : Req)
  /-- DESCRIBE (R54). A DESCRIBE request returns the parameter's 8-byte descriptor. -/
  | describe (r : Req)
  /-- SEG_READ_INIT (R80). A segmented read opens with a snapshot and its total length. -/
  | segReadInit (r : Req)
  /-- SEG_WRITE_INIT (R81). A segmented write opens with its stated total length. -/
  | segWriteInit (r : Req)
  /-- SEG_DATA (R81). A segment of an open transfer is served or acknowledged; the last write segment applies the value. -/
  | segData (r : Req)
  /-- SEG_ABORT (R82). SEG_ABORT ends the open transfer at once without applying it. -/
  | segAbort (r : Req)
  /-- SEG_TIMEOUT (R82). No SEG_DATA arrives for 64 cycles and the open transfer ends. -/
  | segTimeout (src : Src)
  /-- SHADOW_EXPIRY (R61). A half-read shadow expires after 12 800 ticks. -/
  | shadowExpiry (src : Src)
  /-- USB_FRAME_RX (R87). A USB frame is received and its body is passed on, or it is answered with a NAK. -/
  | usbFrameRx (bytes : List Byte)
  /-- USB_FRAME_TIMEOUT (R87). A USB frame incomplete 2 cycles after its first byte is discarded. -/
  | usbFrameTimeout
  /-- QUARANTINE_END (R480). A source's quarantine runs out and its window count is reset. -/
  | quarantineEnd (src : Src)
  /-- UNLOCK_TIMEOUT (R63). 3 000 cycles pass without a request from an unlocked source, and its unlock ends. -/
  | unlockTimeout (src : Src)
  /-- CONFIG_COMMIT (R56). CONFIG_COMMIT 1 snapshots the persisted parameters and begins writing the older bank. -/
  | configCommit (src : Src) (tag : Byte)
  /-- COMMIT_DONE (R410). The commit's header word is programmed; CONFIG_SEQ and CONFIG_STAMP update. -/
  | commitDone (ok : Bool)
  /-- CONFIG_DEFAULTS (R51). CONFIG_COMMIT 2 puts every persisted parameter back to its default. -/
  | configDefaults (src : Src) (tag : Byte)
  /-- CONFIG_RELOAD (R59). CONFIG_COMMIT 3 reloads the persisted parameters from the copy named under R412. -/
  | configReload (src : Src) (tag : Byte)
  /-- OEM_UNLOCK (R63). A password write unlocks the writing source, or counts a wrong attempt. -/
  | oemUnlock (src : Src) (tag : Byte) (password : BitVec 64)
  /-- OEM_LOCK (R63). OEM_LOCK 1 relocks the writing source. -/
  | oemLock (src : Src) (tag : Byte)
  /-- OEM_PW_CHANGE (R65). A new OEM password is stored in the protection area before the write is answered. -/
  | oemPwChange (src : Src) (tag : Byte) (password : BitVec 64)
  /-- IDLE_HOLD (R66). An IDLE_HOLD write requests or releases block holds; clearing the last start hold makes the takeover tick. -/
  | idleHold (src : Src) (tag : Byte) (holds : BitVec 16)
  /-- RESTART (R68). RESTART 1 answers and then resets the logic side. -/
  | restart (src : Src) (tag : Byte)
  /-- RESTART_HELD (R68). RESTART 2 resets the logic side into a held start. -/
  | restartHeld (src : Src) (tag : Byte)
  /-- PAD_LIMIT (R108). A readback mismatch counts and the pad enters Limited drive. -/
  | padLimit (p : Pad)
  /-- PAD_NORMAL (R108). After 8 clean ticks in Limited the pad returns to Normal. -/
  | padNormal (p : Pad)
  /-- PAD_OFF (R108). CONT_OFF_DELAY expires in Limited and the pad goes Off. -/
  | padOff (p : Pad)
  /-- CONT_REARM (R108). A CONT_REARM mask returns the named pads from Off to Normal. -/
  | contRearm (src : Src) (tag : Byte) (mask : BitVec 16)
  /-- ZERO_CROSSING (R135). A positive-going zero crossing is accepted after 8 ticks on the new side. -/
  | zeroCrossing (us ampPos ampNeg : Nat) (err : Int)
  /-- QUALIFICATION_FAIL (R136). Qualification fails for 2 cycles in ACQUIRING and the time base enters LOST. -/
  | qualificationFail
  /-- LOCK_ACQUIRED (R137). PHASE_ERR has stayed within 64 au for a whole cycle and lock is declared. -/
  | lockAcquired
  /-- LOCK_LEFT (R138). The phase or frequency stays out of bounds and the time base returns to ACQUIRING without loss. -/
  | lockLeft
  /-- MAINS_LOSS_DECLARED (R151). The failing count reaches LOSS_RUN, B2 is asserted and the time base enters LOST. -/
  | mainsLossDeclared
  /-- SEEK_LIMIT_EXPIRY (R140). LOCKED is not reached within SEEK_LIMIT, so the sense-absent event is raised. -/
  | seekLimitExpiry
  /-- B0_PULSE (R141). The follower receives a tick strobe pulse and takes its tick from it, or slews toward it. -/
  | b0Pulse (double : Bool)
  /-- FOLLOWER_FREE (R141). No B0 pulse for 2 tick periods, so the follower runs virtual mains. -/
  | followerFree
  /-- FOLLOWER_ALIGNED (R141). A double pulse falls within 64 au of the follower's 0 au and alignment is counted. -/
  | followerAligned
  /-- LOGIC_BOOT (R157). On release of reset the die samples its straps, sets the cycle count and starts firmware. -/
  | logicBoot (straps : BitVec 6) (tmode : Bool)
  /-- POWER_WAKE_DONE (R158). The barrier is up and the follower aligned, so POWER_WAKE completes. -/
  | powerWakeDone
  /-- CONFIG_LOAD (R159). The module loads the newer valid config copy and sends the HV share. -/
  | configLoad
  /-- POWER_SIDE_REAPPLY (R500). After a power-side restart the HV share of the working set is sent and applied. -/
  | powerSideReapply
  /-- CHARGE_PERMIT (R167). The member's charge slot arrives and charging is permitted. -/
  | chargePermit
  /-- GUARD_BEGIN (R168). The reserve has been held for 2 cycles with the scan done: guard begins and PFW# goes high. -/
  | guardBegin
  /-- START_RETRY (R173). START_RETRY 1 resumes start from STOPPED at the step its cause names. -/
  | startRetry (src : Src) (tag : Byte)
  /-- SEAT_QUALIFY (R176). Both seat pins have stayed closed for SEAT_QUAL ticks and the feed qualifies. -/
  | seatQualify (f : Feed)
  /-- SEAT_RELEASE (R177). A seat pin reads open for SEAT_REL ticks; the gate turns off and the release may trigger a pour. -/
  | seatRelease (f : Feed)
  /-- SOFT_START_BEGIN (R179). A seated feed whose conditions all hold begins its soft-start ramp. -/
  | softStartBegin (f : Feed)
  /-- SOFT_START_DONE (R180). VBUS stays within 1000 mV of the feed for 8 ticks and the feed is ON. -/
  | softStartDone (f : Feed)
  /-- SOFT_START_TIMEOUT (R180). The soft start does not finish within 2 × SS_TIME, and the feed latches. -/
  | softStartTimeout (f : Feed)
  /-- FAST_TRIP (R181). The shunt reaches FAST_TRIP and the gate is off within 2 µs. -/
  | fastTrip (f : Feed) (uv : Nat)
  /-- IT_TRIP (R182). An I-t breakpoint timer reaches its time and the feed trips. -/
  | itTrip (f : Feed) (ma us : Nat)
  /-- FET_TEMP_STEP (R183). The FET thermal model is stepped every 10 µs, with warning and trip checks. -/
  | fetTempStep (f : Feed)
  /-- GATE_DRIVE_TRIP (R184). The gate-source voltage stays below 7 V for 20 µs and the feed trips. -/
  | gateDriveTrip (f : Feed) (mv us : Nat)
  /-- BACKFEED_BLOCK (R186). A back-feed condition lasts 1 µs and the feed is blocked. -/
  | backfeedBlock (f : Feed) (feedMv busMv : Nat) (shuntUv : Int)
  /-- OV_BLOCK (R187). FEED_x stays above FEED_OV for 10 µs and the feed is blocked. -/
  | ovBlock (f : Feed) (mv us : Nat)
  /-- BLOCK_EXIT (R188). The exit condition of a blocked feed has held, and the feed goes ON, to SOFT_START or to SEATED. -/
  | blockExit (f : Feed)
  /-- FEED_EN_OFF (R189). FEED_EN 0 moves the feed to SEATED, unless it is the last conducting feed. -/
  | feedEnOff (src : Src) (tag : Byte) (f : Feed)
  /-- FEED_EN_ON (R189). FEED_EN 1 enables the feed and clears its latch and BUS_LATCH. -/
  | feedEnOn (src : Src) (tag : Byte) (f : Feed)
  /-- FET_DAMAGE_FINDING (R192). A damaged-FET test has been positive for 8 ticks, so the feed enters DAMAGED and the reaction applies. -/
  | fetDamageFinding (f : Feed)
  /-- FET_CHECK_START (R191). A FET check falls due and turns one feed off to test it. -/
  | fetCheckStart
  /-- FET_CHECK_END (R191). The 2048-tick FET check ends and the feed is taken back on. -/
  | fetCheckEnd
  /-- FET_DMG_CLEAR (R193). FET_DMG_CLEAR returns a damaged feed to SEATED and releases the other feed and the holdup. -/
  | fetDmgClear (src : Src) (tag : Byte) (f : Feed)
  /-- SHARE_FAULT (R194). The sharing bound is missed for 64 cycles and the event is flagged. -/
  | shareFault
  /-- VBUS_SAG_DECLARED (R195). VBUS stays low, or the holdup carries, for SAG_RUN ticks and a sag is declared on B2. -/
  | vbusSagDeclared
  /-- TAP_SCAN (R200). The scheduled P1 tap scan converts all taps and STACK_S. -/
  | tapScan (taps : List Nat) (stack : Nat) (lt1 lt2 : Nat)
  /-- CELL_TARGET_WRITE (R204). A CELL_TARGET write opens a pending target and supersedes any earlier one. -/
  | cellTargetWrite (src : Src) (tag : Byte) (mv : BitVec 16)
  /-- TARGET_COMPLETE (R204). V_cmd and the cells have held the target for 2 cycles and the completion event is raised. -/
  | targetComplete
  /-- CHARGER_DONE (R206). CHG_I_MEAS stays below CHG_TERM for 64 cycles in CV and the charger enters DONE. -/
  | chargerDone
  /-- CHARGER_FAULT (R208). The current limit acts in 8 windows, or the current stays low for 64 cycles, and a charger fault latches. -/
  | chargerFault
  /-- CAP_TEST_START (R211). A due capacitance test starts its draw once its conditions hold. -/
  | capTestStart
  /-- CAP_TEST_END (R211). The draw stops at the voltage dip or at CAP_TEST_MAX, and capacitances are computed. -/
  | capTestEnd
  /-- CAP_TEST_DEFER (R211). A test not started within 1024 cycles is skipped and deferred. -/
  | capTestDefer
  /-- ESR_PULSE (R214). The scheduled N2 ESR pulse draws ESR_PULSE_I and measures the ESR. -/
  | esrPulse (before after : List Nat) (st0 st1 ma : Nat)
  /-- TAP_RESPONSE_TEST (R219). The N1 tap response test drives each tap and gives open, damp or intact verdicts. -/
  | tapResponseTest (resp : List Nat) (stack : Nat)
  /-- DAMP_LEARN (R222). DAMP_LEARN runs the test and stores each response as TAP_REF. -/
  | dampLearn (resp : List Nat) (stack : Nat)
  /-- LADLE_CLEAR (R224). LADLE_CLEAR clears every latch whose condition no longer holds. -/
  | ladleClear (src : Src) (tag : Byte)
  /-- HOLDUP_ARM (R229). The arming conditions have held for 8 ticks and the holdup goes ARMED. -/
  | holdupArm
  /-- HOLDUP_TRIP (R233). The holdup I-t curve or thermal model trips, which latches it and releases SHARE. -/
  | holdupTrip (ma us : Nat)
  /-- HU_CLEAR (R234). HU_CLEAR 1 clears the latch, the self-test failure and the droop fallback. -/
  | huClear (src : Src) (tag : Byte)
  /-- HU_CLEAR_GROUP (R234). HU_CLEAR 2 clears as HU_CLEAR 1 does and also drops the load peaks of absent members. -/
  | huClearGroup (src : Src) (tag : Byte)
  /-- HU_SELF_TEST (R236). The due holdup self-test runs in N2 and records a pass or a failure. -/
  | huSelfTest (gateMv : Nat) (vdrv : Bool) (avgMa movedMv : Nat)
  /-- DROOP_FALLBACK (R239). The trim is pinned, or SHARE reads high, for 64 ticks and the member falls back to droop. -/
  | droopFallback (pinned : Bool)
  /-- ON_SLOT (R246). A rail's on-slot is reached and its EN turns on if every earlier rail is good. -/
  | onSlot (n : Rail)
  /-- RAIL_GOOD (R247). A rising rail holds its judgement for GOOD_FILTER ticks and enters RUNNING. -/
  | railGood (n : Rail)
  /-- RAIL_FAIL_UP (R248). A rail is not good within ON_TIMEOUT or is overvoltage while rising; reverse shutdown begins. -/
  | railFailUp (n : Rail)
  /-- RUNNING_RAIL_FAULT (R249). A running rail's fault condition holds for FAULT_FILTER ticks and RAIL_ACTION acts. -/
  | runningRailFault (n : Rail)
  /-- RF_GRACE_EXPIRY (R250). RF_GRACE expires before the seal's off release, which forces the release. -/
  | rfGraceExpiry
  /-- OFF_SLOT (R252). A rail's off-slot is reached after the off common start and its EN turns off once earlier rails have fallen. -/
  | offSlot (n : Rail)
  /-- RAIL_FALLEN (R253). A falling rail is judged fallen and enters OFF. -/
  | railFallen (n : Rail)
  /-- OFF_WAIT_EXPIRY (R253). A rail has not fallen within OFF_WAIT_MAX and is taken as OFF with a slow-fall event. -/
  | offWaitExpiry (n : Rail)
  /-- RAIL_WARNING (R251). A running rail stays between its fault and warning levels for WARN_FILTER ticks. -/
  | railWarning (n : Rail)
  /-- SEQ_CLEAR (R255). SEQ_CLEAR clears the sequencer latch and the failed rails and rearms the EN pads. -/
  | seqClear (src : Src) (tag : Byte)
  /-- FAULT_PULSE_END (R256). A FAULT# pulse has run FAULT_PULSE ticks and the line is released. -/
  | faultPulseEnd
  /-- FAULT_IN_TRIGGER (R257). FAULT# is read low for FAULT_IN_FILTER ticks while armed, which is a pour trigger. -/
  | faultInTrigger
  /-- FAULT_STUCK (R258). FAULT# stays low, not driven by this module, for 2560 ticks and is declared stuck. -/
  | faultStuck
  /-- FAULT_REARM (R258). FAULT# has read high for the required run and the input is armed again. -/
  | faultRearm
  /-- HOST_RST_RELEASE (R259). HOST_RST# is released HOST_RST_DELAY after the host rail runs or ON_SLOTS completes. -/
  | hostRstRelease
  /-- RAIL_ALIVE_IN_REST (R260). A rail reads above OFF_LEVEL for 1024 ticks in rest and is reported. -/
  | railAliveInRest (n : Rail)
  /-- SYMBOL_LOCK (R269). A lane gains symbol lock on 4 aligned COMs. -/
  | symbolLock (p : Lane)
  /-- LOCK_LOSS (R269). A lane loses lock on 8 code errors in 256 symbols, which may drop the link. -/
  | lockLoss (p : Lane)
  /-- TRAINING_SET_RX (R271). A received TS1 or TS2 is validated, with polarity and mapping taken from it. -/
  | trainingSetRx (p : Lane) (set : List Byte) (rx : SetRx)
  /-- ALIGN_COMPLETE (R275). Reversal is decided and enough acked TS1 are exchanged, so rate and width are agreed. -/
  | alignComplete
  /-- ALIGN_TIMEOUT (R275). T_ALIGN expires in ALIGN and the link returns to DETECT. -/
  | alignTimeout
  /-- RATE_IDLE_EXPIRY (R279). T_RATE_IDLE ends in RATE_CHANGE and the link enters EQ. -/
  | rateIdleExpiry
  /-- EQ_DONE (R280). The receivers are equalised and the link enters CONFIRM. -/
  | eqDone (ctle : List Nat) (taps : List (List Nat))
  /-- CONFIRM_COMPLETE (R281). 16 valid TS2 are received and sent with the lanes deskewed, and the link enters ACTIVE. -/
  | confirmComplete (skew : List Nat) (us : BitVec 32)
  /-- CONFIRM_TIMEOUT (R282). CONFIRM does not complete within T_CONFIRM and training falls back. -/
  | confirmTimeout
  /-- IDLE_ENTRY (R287). Nothing to send for IDLE_ENTRY µs: the transmitter sends EIOS and idles. -/
  | idleEntry
  /-- IDLE_EXIT (R287). The link layer has something to send and the transmitter leaves Idle with FTS. -/
  | idleExit
  /-- EIOS_RX (R287). A receiver gets an EIOS and sets RX_IDLE. -/
  | eiosRx
  /-- BANK_START (R288). Both directions have idled for BANK_ENTRY µs in guard and the module starts the Banked handshake. -/
  | bankStart
  /-- BNK_RX (R288). BNK sets are received and answered or refused; the link enters BANKED if both sides have sent them. -/
  | bnkRx
  /-- BANK_NO_ANSWER (R288). No answer comes within 100 µs, which counts as a refusal. -/
  | bankNoAnswer
  /-- BANK_WAKE (R289). Traffic, B4 or squelch wakes the link from BANKED and FTS is sent. -/
  | bankWake (signal : Bool)
  /-- WAKE_COMPLETE (R289). The receivers are locked and SKP sets exchanged, so the link returns to ACTIVE. -/
  | wakeComplete
  /-- WAKE_FAIL (R289). The link is not ACTIVE within T_WAKE_FAIL and a full training follows. -/
  | wakeFail
  /-- CODE_ERROR_RETRAIN (R291). Code errors reach ERR_RETRAIN within T_ERR_WINDOW and a fast retrain starts. -/
  | codeErrorRetrain (errs : Nat)
  /-- SILENCE_TIMEOUT (R291). Squelch on every lane without EIOS for T_SILENCE causes a full training. -/
  | silenceTimeout
  /-- REFCLK_FAULT (R294). REFCLK is absent or off frequency for 10 µs and the link is disabled. -/
  | refclkFault
  /-- REFCLK_GOOD (R294). REFCLK has been good for 1 ms and the link returns to DETECT. -/
  | refclkGood
  /-- LINK_RETRAIN_FAST (R291). LINK_RETRAIN 1 starts a fast retrain. -/
  | linkRetrainFast (src : Src) (tag : Byte)
  /-- LINK_RETRAIN_FULL (R291). LINK_RETRAIN 2 starts a full training. -/
  | linkRetrainFull (src : Src) (tag : Byte)
  /-- EYE_START (R296). EYE_CMD 1 fixes the scan points and starts an eye scan on a lane. -/
  | eyeStart (src : Src) (tag : Byte) (p : Lane)
  /-- EYE_STOP (R300). EYE_CMD 2 stops a running scan. -/
  | eyeStop (src : Src) (tag : Byte) (p : Lane)
  /-- EYE_STEP (R297). An eye-scan step starts at the first tick of an N2 window. -/
  | eyeStep (p : Lane)
  /-- EYE_STEP_END (R297). A step's dwell has been counted and its error count is stored. -/
  | eyeStepEnd (p : Lane) (errs : BitVec 32)
  /-- FRAME_RX (R307). A frame is checked by CRC and SEQ, then accepted, dropped as a duplicate, or NAKed. -/
  | frameRx (bytes : List Byte) (ending : Fin 3)
  /-- ACK_TIMER (R308). An ACK naming the last accepted SEQ is sent within 2 µs or at ACK_COALESCE frames. -/
  | ackTimer
  /-- ACK_RX (R309). A valid ACK frees the acknowledged frames. -/
  | ackRx
  /-- NAK_RX (R309). A valid NAK frees acknowledged frames and starts a replay. -/
  | nakRx
  /-- REPLAY_TIMEOUT (R310). REPLAY_TIMEOUT passes without progress and the unacknowledged frames are replayed. -/
  | replayTimeout
  /-- DATA_RX (R318). A DATA record is accepted into the crucible, dropped as a duplicate, or stalls its stream. -/
  | dataRx
  /-- CLOSE_RX (R318). A CLOSE record is accepted and closes its epoch, or is refused. -/
  | closeRx
  /-- RETIRE_RX (R335). A RETIRE frame retires the stream's epochs up to the one named, or is ignored. -/
  | retireRx
  /-- DIRTY_RX (R337). A DIRTY frame sets DECLARED_DIRTY and resets RX_SINCE_DECL. -/
  | dirtyRx
  /-- SHUTDOWN_RX (R347). A SHUTDOWN frame of kind 1 is the orderly-shutdown trigger, or ends DRAIN. -/
  | shutdownRx
  /-- CTRL_REQ_RX (R323). A CTRL_REQ body is passed to the parameter service and its fate recorded. -/
  | ctrlReqRx
  /-- RESUME_SEND (R315). Once the scan has finished and the crucible is free of old records, RESUME is sent. -/
  | resumeSend
  /-- PAGE_PROGRAM_DONE (R386). A page program completes with pass and, where required, verified read-back. -/
  | pageProgramDone (d : Die) (bits : Nat)
  /-- PROGRAM_FAIL (R388). A page fails to program; its position is dropped and its contents are placed again. -/
  | programFail (d : Die) (q : Plane)
  /-- PAGE_WAIT_EXPIRY (R384). PAGE_WAIT passes since a page's first slot and the padded page is programmed. -/
  | pageWaitExpiry
  /-- DRAIN_WINDOW_EXPIRY (R351). DRAIN_WINDOW ticks pass since acceptance and DRAIN ends. -/
  | drainWindowExpiry
  /-- PWD_DRAIN_EXPIRY (R351). The PWD_DRAIN watchdog expires and DRAIN ends. -/
  | pwdDrainExpiry
  /-- PWD_SEAL_EXPIRY (R353). PWD_SEAL expires in FLUSH and the pour seals with records left uncommitted. -/
  | pwdSealExpiry
  /-- SUMMARY_WRITTEN (R358). The casting summary write ends and the off release goes to the sequencer. -/
  | summaryWritten (ok : Bool)
  /-- OFF_START (R252). The off common start is taken at the first 0 au after the off release. -/
  | offStart
  /-- PWD_OFF_EXPIRY (R360). PWD_OFF expires before the off release, which forces it and abandons the seal and summary. -/
  | pwdOffExpiry
  /-- REST_SUPPLY_PRESENT (R365). Supply has been present for REST_RETURN ticks after an enabled cause, and rest ends. -/
  | restSupplyPresent
  /-- REST_WAKE (R365). REST_WAKE 1 ends rest. -/
  | restWake (src : Src) (tag : Byte)
  /-- SHAKE_START (R368). SHAKE_CTL 1 starts or resumes sending each unreleased stream from its position. -/
  | shakeStart
  /-- SHAKE_PAUSE (R368). SHAKE_CTL 2 stops queuing shakeout frames. -/
  | shakePause
  /-- SHAKE_CONFIRM (R371). SHAKE_CTL 3 confirms the heat, releases the streams and writes a confirmation record. -/
  | shakeConfirm
  /-- SHAKE_ABANDON (R371). SHAKE_ABANDON 1 from an unlocked source ends the shakeout as a confirmation does. -/
  | shakeAbandon (src : Src) (tag : Byte)
  /-- SHAKEOUT_READ_DONE (R401). A shakeout page read completes; the record is queued, retried or marked unreadable. -/
  | shakeoutReadDone (d : Die) (bits : Nat) (crcOk : Bool)
  /-- ERASE_START (R392). A block erase starts after its intent record is durable. -/
  | eraseStart
  /-- ERASE_DONE (R392). The erase ends; the block is blank-checked and its completion record written. -/
  | eraseDone (outcome : Fin 3)
  /-- ERASE_SUSPEND (R393). The erase has run 400 µs with a program waiting or a pour accepted, so it is suspended. -/
  | eraseSuspend
  /-- ERASE_RESUME (R393). No program waits for the die and the suspended erase resumes. -/
  | eraseResume
  /-- SCAN_DONE (R396). The start-up scan ends with the state rebuilt and a row opened, or the store unusable. -/
  | scanDone (dies : BitVec 4) (maps half : Bool) (outcome : Fin 3) (us : Nat)
  /-- DF_ERASE_START (R418). A queued data-flash sector erase starts. -/
  | dfEraseStart
  /-- DF_ERASE_SUSPEND (R406). A data-flash erase is suspended after its 1 ms minimum run. -/
  | dfEraseSuspend
  /-- DF_ERASE_DONE (R406). A data-flash sector erase completes. -/
  | dfEraseDone (ok : Bool)
  /-- BUSY_BANK_FAULT (R405). A firmware read of a busy bank is a bus fault that forces a warm reset. -/
  | busyBankFault (bank : Fin 4)
  /-- FW_ERASE (R422). FW_CMD 1 begins erasing the inactive slot. -/
  | fwErase (src : Src) (tag : Byte)
  /-- FW_ERASE_DONE (R422). Every sector of the slot is erased and blank-checked; FW_STATE reads ERASED. -/
  | fwEraseDone (ok : Bool)
  /-- WINDOW_WRITE (R423). A closed segmented window write is checked and programs words into the inactive slot. -/
  | windowWrite (r : Req)
  /-- WINDOW_WRITE_DONE (R423). The words are programmed and the last segment is answered. -/
  | windowWriteDone (ok : Bool)
  /-- WINDOW_READ (R428). A segmented window read returns memory, or a busy, range or execute-only abort. -/
  | windowRead (r : Req) (ecc : Fin 3)
  /-- FW_VERIFY (R424). FW_CMD 2 starts verifying the slot against the supplied digest. -/
  | fwVerify (src : Src) (tag : Byte)
  /-- FW_VERIFY_DONE (R424). Verification ends in VERIFIED or FAILED with its result. -/
  | fwVerifyDone
  /-- FW_ACTIVATE (R425). FW_CMD 3 makes the inactive slot preferred, on trial. -/
  | fwActivate (src : Src) (tag : Byte)
  /-- FW_ACCEPT_TRIAL (R425). FW_CMD 4 accepts the running trial image. -/
  | fwAcceptTrial (src : Src) (tag : Byte)
  /-- FW_CANCEL (R422). FW_CMD 5 cancels the update and restores BOOT_PREF. -/
  | fwCancel (src : Src) (tag : Byte)
  /-- PROT_CODE_SET (R430). PROT_CODE_SET stores a new code-protection map from an unlocked source. -/
  | protCodeSet (src : Src) (tag : Byte) (map : BitVec 32)
  /-- DEBUG_CLOSE (R431). DEBUG_CLOSE 1 sets the debug-closed flag. -/
  | debugClose (src : Src) (tag : Byte)
  /-- DEBUG_OPEN (R431). DEBUG_CLOSE 2 clears the debug-closed flag. -/
  | debugOpen (src : Src) (tag : Byte)
  /-- DEBUG_PASSWORD_ENTRY (R431). A password entered at the debug port opens it or counts a wrong attempt. -/
  | debugPasswordEntry (password : BitVec 64)
  /-- BOOT_ANNOUNCEMENT (R170). The boot announcement is sent once in cycle 10. -/
  | bootAnnouncement
  /-- HEARTBEAT_TX (R437). The member queues its heartbeat at its node's slot. -/
  | heartbeatTx
  /-- HEARTBEAT_RX (R439). A heartbeat updates presence, group data and the master's member table. -/
  | heartbeatRx (node : Fin 128) (payload : List Byte)
  /-- BOOT_ANNOUNCEMENT_RX (R439). A received boot announcement marks its sender heard and offers its HEAT_LAST. -/
  | bootAnnouncementRx (node : Fin 128) (payload : List Byte)
  /-- MEMBER_ABSENT (R439). No heartbeat from a member for 3 of its periods, so it becomes absent. -/
  | memberAbsent (k : NodeIx)
  /-- POUR_COMMAND_RX (R444). A kind 1 pour command from another member is the cascade pour trigger. -/
  | pourCommandRx (node : Fin 128) (payload : List Byte)
  /-- FAULT_RELAY_RX (R448). A kind 2 pour command is taken as the FAULT# trigger. -/
  | faultRelayRx (node : Fin 128) (payload : List Byte)
  /-- POUR_PULSE_END (R442). The POUR# pulse has run POUR_PULSE ticks and the line is released. -/
  | pourPulseEnd
  /-- POUR_COMMAND_ABANDON (R443). A pour command not sent within 2048 ticks is abandoned. -/
  | pourCommandAbandon
  /-- POUR_IN_TRIGGER (R445). POUR# is read low for POUR_IN_FILTER ticks while armed, which is a pour trigger. -/
  | pourInTrigger
  /-- POUR_STUCK (R446). POUR# stays low for 2560 ticks and is declared stuck. -/
  | pourStuck
  /-- BUS_DOMINANT (R447). The CAN bus reads dominant for 1024 bit times and is declared held dominant. -/
  | busDominant
  /-- BUS_DOMINANT_END (R447). The bus reads recessive for 1024 bit times and the episode ends. -/
  | busDominantEnd
  /-- STAGGER_REFERENCE_RX (R449). A kind 1 broadcast fixes the cycle r for the charge stagger. -/
  | staggerReferenceRx (node : Fin 128) (payload : List Byte)
  /-- HEAT_ASSIGNMENT_RX (R451). A kind 2 broadcast supplies the heat number for this pour. -/
  | heatAssignmentRx (node : Fin 128) (payload : List Byte)
  /-- HEAT_BROADCAST_ABANDON (R450). A heat broadcast unsent after 2048 ticks is abandoned. -/
  | heatBroadcastAbandon
  /-- STAMP_SYNC_TX (R452). Node 1 queues a stamp sync at its phase of the period. -/
  | stampSyncTx
  /-- STAMP_SYNC_RX (R453). A stamp sync is paired with the receiver's count and may add a pending step. -/
  | stampSyncRx (node : Fin 128) (payload : List Byte)
  /-- EVENT_FRAME_RX (R456). Node 1 appends a received event as a member entry and counts any gap. -/
  | eventFrameRx (node : Fin 128) (payload : List Byte)
  /-- FW_DIST_START (R460). FW_DIST 1 starts a firmware distribution at node 1. -/
  | fwDistStart (src : Src) (tag : Byte)
  /-- FW_DIST_STEP (R461). The awaited member response arrives and node 1 takes the next distribution step. -/
  | fwDistStep (abort : BitVec 32) (data : List Byte)
  /-- FW_DIST_GUARD_TIMEOUT (R461). A restarted member does not report guard within 4096 cycles and the distribution stops. -/
  | fwDistGuardTimeout
  /-- FW_DIST_STOP (R462). FW_DIST 2 stops the distribution. -/
  | fwDistStop (src : Src) (tag : Byte)
  /-- LOG_FLUSH (R471). Queued log records are written to the ring in the flush window. -/
  | logFlush
  /-- LOG_SEEK_OLDEST (R474). LOG_CMD 1 places the source's cursor at the oldest valid slot. -/
  | logSeekOldest (src : Src) (tag : Byte)
  /-- LOG_SEEK_SEQ (R474). LOG_CMD 2 places the cursor at the record with LOG_SEEK_SEQ. -/
  | logSeekSeq (src : Src) (tag : Byte)
  /-- LOG_SEEK_NEWEST (R474). LOG_CMD 3 places the cursor at the newest valid slot. -/
  | logSeekNewest (src : Src) (tag : Byte)
  /-- LOG_CLOSE (R474). LOG_CMD 4 closes the source's cursor. -/
  | logClose (src : Src) (tag : Byte)
  /-- LOG_BATCH (R475). A LOG_BATCH read returns up to 16 filtered records and advances the cursor. -/
  | logBatch (src : Src) (tag : Byte)
  /-- SVC_LADLE_HEALTH (R490). SVC_REPORT_CMD 1 assembles the ladle-health report. -/
  | svcLadleHealth (src : Src) (tag : Byte)
  /-- SVC_HOT_PANEL (R490). SVC_REPORT_CMD 2 assembles the hot-panel report. -/
  | svcHotPanel (src : Src) (tag : Byte)
  /-- SVC_WASHDOWN (R490). SVC_REPORT_CMD 3 requests a tap response test for the wash-down report. -/
  | svcWashdown (src : Src) (tag : Byte)
  /-- SVC_WASHDOWN_ABANDON (R490). No test runs within 16 cycles and the wash-down report is abandoned. -/
  | svcWashdownAbandon
  /-- SVC_LINK (R490). SVC_REPORT_CMD 4 starts scans on every lane of the width for the link report. -/
  | svcLink (src : Src) (tag : Byte)
  /-- HEARTBEAT_RETURN (R20). The HV die sees a B5 toggle again after a declared heartbeat loss and ends the loss state. -/
  | heartbeatReturn
  /-- DESKEW_LOSS (R291). In ACTIVE a lane's SKP COMs move by more than one symbol time against logical lane 0, and a fast retrain starts with cause 3. -/
  | deskewLoss (p : Lane)
  /-- IDLE_EXIT_LOCK_TIMEOUT (R291). After Idle exit a receiver lane sees signal but is not locked within 2 × T_IDLE_EXIT, and a fast retrain starts with cause 9. -/
  | idleExitLockTimeout (p : Lane)
  /-- RX_IDLE_EXIT (R287). A receiver in RX_IDLE sees signal and resynchronises on the partner's FTS, clearing RX_IDLE. -/
  | rxIdleExit
  /-- BANK_REFUSAL_RX (R288). The starting side receives a SKP set followed by traffic or an EIOS in answer to its BNK sets, and it returns to ACTIVE. -/
  | bankRefusalRx (eios : Bool)
  /-- DFE_TAP_AT_LIMIT (R285). An adaptive DFE tap stays at a range limit for 50 000 µs, which sets PHY_FLAGS bit 6 and logs event 0x3004. -/
  | dfeTapAtLimit (p : Lane) (tap : Fin 5) (low : Bool)
  /-- COMMIT_GAP_EXPIRY (R322). COMMIT_GAP runs out after the last COMMIT frame, so a waiting COMMIT frame may be sent. -/
  | commitGapExpiry
  /-- CONFIRMATION_WRITTEN (R371). The confirmation record is programmed in the summary ring; SHAKE_STAMP is set, CONFIRMS increments and the sealed-casting bits clear. -/
  | confirmationWritten
  /-- PROTECTION_RECORD_WRITTEN (R429). A protection record becomes durable in the information array, and the write that caused it is answered. -/
  | protectionRecordWritten (ok : Bool)
  /-- BUS_OFF (R447). The CAN controller enters bus-off under ISO 11898-1; CAN_BUS_STATE reads 2 and BUS_OFF_COUNT increments. -/
  | busOff
  /-- BUS_OFF_RECOVERY (R447). The CAN controller recovers automatically from bus-off and event 0x5007 is logged with detail 0. -/
  | busOffRecovery
  /-- DEBUG_HALT (R431). The open debug port halts the control core, which stops the hardware watchdog and the barrier heartbeat. -/
  | debugHalt
  /-- DEBUG_RESUME (R431). The debug port releases the halted control core, and the watchdog and heartbeat run again. -/
  | debugResume
  /-- CAN_REQUEST_RX (R84). A CAN FD parameter-request frame is received and ignored, dropped as a violation, refused for an unknown opcode, or passed to the parameter service. -/
  | canRequestRx (addr : BitVec 7) (fd : Bool) (bytes : List Byte)
  deriving DecidableEq, Repr

end Sys2Proof
end

