-- ==== Sys2Proof/Decode.lean ====
section
/-! DEFINITION. The command that a word spells by the table of operations and events. The table gives no row any bits: its
commands are requests, frames and events, which their carriers bring whole. So no word spells a command. -/
namespace Sys2Proof

/-- The command that `nbits` bits with value `w` spell: none, for no row of the table has bits. -/
def decodeTableWord (_nbits _w : Nat) : Option Instr := none

end Sys2Proof
end

