-- ==== Sys2Proof/Machine/Bytes.lean ====
section
/-! DEFINITION. Byte order, check codes and the digest the module uses: little-endian fields (spec/00_scope.md R14),
CRC-16 (spec/18_events_and_faults.md Table EV-1), CRC-32 (spec/02_object_dictionary.md Table OD-8), SHA-256
(spec/16_onchip_flash.md R419; FIPS 180-4, log entry 5). Bytes are Nat below 256. -/
namespace Sys2Proof.Machine

/-- `n` bytes of a value, least significant first (R14). -/
def leBytes : Nat → Nat → List Nat
  | 0, _ => []
  | n + 1, v => v % 256 :: leBytes n (v / 256)

/-- The value of bytes, least significant first (R14). -/
def leValue : List Nat → Nat
  | [] => 0
  | b :: bs => b % 256 + 256 * leValue bs

/-- Bytes padded with `b` to a length, or cut to it. -/
def padTo (n b : Nat) (l : List Nat) : List Nat := (l ++ List.replicate (n - l.length) b).take n

/-- A Bool as a bit of weight 2^i. -/
def bitIf (c : Bool) (i : Nat) : Nat := if c then 2 ^ i else 0

/-- A value of `n` bytes read as two's complement. -/
def asSigned (n v : Nat) : Int := if v < 2 ^ (8 * n - 1) then (v : Int) else (v : Int) - 2 ^ (8 * n)

/-- The two's complement encoding of an integer in `n` bytes. -/
def ofSigned (n : Nat) (i : Int) : Nat := (i % (2 ^ (8 * n) : Int)).toNat

/-- An integer held between two bounds. -/
def clampInt (lo hi i : Int) : Int := max lo (min hi i)

/-- One bit of the CRC-16 of Table EV-1: polynomial 0x1021, not reflected. -/
def crc16Bit (c : Nat) : Nat := if c ≥ 0x8000 then ((c * 2) % 0x10000) ^^^ 0x1021 else c * 2

/-- One byte of the CRC-16. -/
def crc16Byte (c b : Nat) : Nat :=
  (List.range 8).foldl (fun c _ => crc16Bit c) (c ^^^ (b % 256 * 256))

/-- CRC-16: polynomial 0x1021, initial value 0xFFFF, not reflected, not inverted (Table EV-1). -/
def crc16 (l : List Nat) : Nat := l.foldl crc16Byte 0xFFFF

/-- One bit of the CRC-32 of Table OD-8, reflected as in IEEE 802.3. -/
def crc32Bit (c : Nat) : Nat := if c % 2 = 1 then (c / 2) ^^^ 0xEDB88320 else c / 2

/-- One byte of the CRC-32. -/
def crc32Byte (c b : Nat) : Nat := (List.range 8).foldl (fun c _ => crc32Bit c) (c ^^^ (b % 256))

/-- CRC-32: polynomial as in IEEE 802.3, initial value 0xFFFFFFFF, result inverted (Table OD-8). -/
def crc32 (l : List Nat) : Nat := (l.foldl crc32Byte 0xFFFFFFFF) ^^^ 0xFFFFFFFF

/-- The greatest whole number whose `e`-th power is at most `x`, among those below 2^`n`: its bits are found from the top. -/
def rootBits (e x : Nat) : Nat → Nat → Nat
  | 0, r => r
  | n + 1, r => rootBits e x n (if (r + 2 ^ n) ^ e ≤ x then r + 2 ^ n else r)

/-- The primes below 312, of which there are 64. -/
def smallPrimes : List Nat :=
  (List.range 312).filter (fun p => 2 ≤ p && (List.range 16).all (fun d => p ≤ d + 2 || p % (d + 2) ≠ 0))

/-- The first 32 bits of the fraction of a prime's `e`-th root: what SHA-256's constants are defined as (FIPS 180-4). -/
def rootFraction (e p : Nat) : Nat := rootBits e (p * 2 ^ (32 * e)) 37 0 % 2 ^ 32

/-- SHA-256's round constants: the cube roots of the first 64 primes. -/
def shaK : List Nat := smallPrimes.map (rootFraction 3)

/-- SHA-256's starting words: the square roots of the first eight primes. -/
def shaStart : List Nat := (smallPrimes.take 8).map (rootFraction 2)

/-- Rotate a 32-bit word right. -/
def rotr32 (n x : Nat) : Nat := (x >>> n) ||| (x <<< (32 - n) % 2 ^ 32) % 2 ^ 32

/-- One more word of SHA-256's message schedule; the newest word first. -/
def shaExtend (w : List Nat) : List Nat :=
  let w15 := w.getD 14 0
  let w2 := w.getD 1 0
  let s0 := rotr32 7 w15 ^^^ rotr32 18 w15 ^^^ (w15 >>> 3)
  let s1 := rotr32 17 w2 ^^^ rotr32 19 w2 ^^^ (w2 >>> 10)
  ((w.getD 15 0 + s0 + w.getD 6 0 + s1) % 2 ^ 32) :: w

/-- One round of SHA-256 over its eight working words. -/
def shaRound (h : List Nat) (kw : Nat × Nat) : List Nat :=
  let e := h.getD 4 0
  let a := h.getD 0 0
  let t1 := h.getD 7 0 + (rotr32 6 e ^^^ rotr32 11 e ^^^ rotr32 25 e)
    + ((e &&& h.getD 5 0) ^^^ ((0xFFFFFFFF ^^^ e) &&& h.getD 6 0)) + kw.1 + kw.2
  let t2 := (rotr32 2 a ^^^ rotr32 13 a ^^^ rotr32 22 a)
    + ((a &&& h.getD 1 0) ^^^ (a &&& h.getD 2 0) ^^^ (h.getD 1 0 &&& h.getD 2 0))
  [(t1 + t2) % 2 ^ 32, a, h.getD 1 0, h.getD 2 0, (h.getD 3 0 + t1) % 2 ^ 32, e, h.getD 5 0, h.getD 6 0]

/-- Big-endian 32-bit words of bytes, `n` of them. -/
def beWords : Nat → List Nat → List Nat
  | 0, _ => []
  | n + 1, l =>
    (l.getD 0 0 * 2 ^ 24 + l.getD 1 0 * 2 ^ 16 + l.getD 2 0 * 2 ^ 8 + l.getD 3 0) :: beWords n (l.drop 4)

/-- One 64-byte block of SHA-256. -/
def shaBlock (h blk : List Nat) : List Nat :=
  let w := ((List.range 48).foldl (fun w _ => shaExtend w) (beWords 16 blk).reverse).reverse
  List.zipWith (fun a b => (a + b) % 2 ^ 32) h ((shaK.zip w).foldl shaRound h)

/-- SHA-256 over whole blocks, `n` of them. -/
def shaBlocks : Nat → List Nat → List Nat → List Nat
  | 0, h, _ => h
  | n + 1, h, l => shaBlocks n (shaBlock h (l.take 64)) (l.drop 64)

/-- SHA-256's padding: 0x80, zeros to 56 modulo 64, the length in bits as eight big-endian bytes. -/
def shaPad (l : List Nat) : List Nat :=
  l ++ [0x80] ++ List.replicate ((119 - l.length % 64) % 64) 0 ++ (leBytes 8 (l.length * 8)).reverse

/-- SHA-256 of bytes, as the 32 bytes of the digest. -/
def sha256 (l : List Nat) : List Nat :=
  let p := shaPad l
  let h := shaBlocks (p.length / 64) shaStart p
  h.flatMap (fun w => (leBytes 4 w).reverse)

end Sys2Proof.Machine
end

