-- ==== Sys2Proof/Config.lean ====
section
/-! DEFINITION. What the spec leaves open or sets at manufacture: constants with no body, so that no proof sees a value. -/
namespace Sys2Proof.Config

/-- The order of two stamps whose cycle counts differ by 2^31 (spec/00_scope.md R11: "the order is undefined"):
whether the second is taken as later. A free value (log entry 1). -/
opaque laterAtHalf : BitVec 32 → BitVec 32 → Bool

/-- Of two breakpoints of an I-t curve whose timers reach their times together, whether the second is the one recorded
(spec/07_feeds_and_efuse.md R182 names neither). A free value (log entry 21). -/
opaque tiedBreakpoint : Nat → Nat → Bool

/-- HW_ISSUE, set at test (spec/00_scope.md Table SC-4; log entry 2). -/
opaque hwIssueWord : BitVec 16

/-- SERIAL_NO, set at test: 16 bytes, little-endian (spec/00_scope.md Table SC-4; log entry 2). -/
opaque serialWord : BitVec 128

/-- EYE_CODE_UV of a lane, set at test (spec/11_link_phy.md Table LP-14; log entry 2). -/
opaque eyeCodeWord : Nat → BitVec 16

/-- The bytes of the image a module is shipped with in slot 0, by slot offset (spec/16_onchip_flash.md Table OF-6; log entry
30). -/
opaque factoryByte : Nat → BitVec 8

/-- What a byte reads as where a program or an erase was cut off, by address (spec/16_onchip_flash.md R406; log entry 31). -/
opaque tornByte : Nat → BitVec 8

/-- The verdict of ECDSA P-256 over a digest and a 64-byte signature under the Lummoras key, which the spec does not
give (spec/16_onchip_flash.md R419, R420; log entry 3). -/
opaque signatureVerifies : Nat → Nat → Bool

/-- A fresh open value, applied to the plain counter `free` of State (log entry 4). -/
opaque freeWord : Nat → BitVec 32

/-- HW_ISSUE as a register value. -/
def hwIssue : Nat := hwIssueWord.toNat

/-- SERIAL_NO as a register value. -/
def serialNo : Nat := serialWord.toNat

/-- EYE_CODE_UV as a register value. -/
def eyeCodeUv (lane : Nat) : Nat := (eyeCodeWord lane).toNat

end Sys2Proof.Config
end

