-- ==== Sys2Proof/Machine/Params.lean ====
section
/-! DEFINITION. The names of the dictionary's parameters (spec/02_object_dictionary.md R47, R91): each is the
register number `index * 256 + sub-index`, as the chapter tables give it. -/
namespace Sys2Proof.Machine

/-- The register number of a parameter: its index and sub-index (R47). -/
def rkey (index sub : Nat) : Nat := index * 256 + sub

namespace Reg

/-- DEVICE_NAME (spec/00_scope.md, 0x1000:01). -/
def deviceName : Nat := rkey 0x1000 0x01
/-- FAMILY_NAME (spec/00_scope.md, 0x1000:02). -/
def familyName : Nat := rkey 0x1000 0x02
/-- HW_ISSUE (spec/00_scope.md, 0x1000:03). -/
def hwIssue : Nat := rkey 0x1000 0x03
/-- SERIAL_NO (spec/00_scope.md, 0x1000:04). -/
def serialNo : Nat := rkey 0x1000 0x04
/-- FW_VERSION (spec/00_scope.md, 0x1000:05). -/
def fwVersion : Nat := rkey 0x1000 0x05
/-- ACTIVITY (spec/00_scope.md, 0x1000:10). -/
def activity : Nat := rkey 0x1000 0x10
/-- PROTECTED (spec/00_scope.md, 0x1000:11). -/
def protectedFlag : Nat := rkey 0x1000 0x11
/-- LOGIC_SOURCE (spec/01_architecture.md, 0x1000:20). -/
def logicSource : Nat := rkey 0x1000 0x20
/-- SOURCES_PRESENT (spec/01_architecture.md, 0x1000:21). -/
def sourcesPresent : Nat := rkey 0x1000 0x21
/-- SOURCE_SWITCHES (spec/01_architecture.md, 0x1000:22). -/
def sourceSwitches : Nat := rkey 0x1000 0x22
/-- START_STEP (spec/06_start_up.md, 0x1000:30). -/
def startStep : Nat := rkey 0x1000 0x30
/-- START_STOP (spec/06_start_up.md, 0x1000:31). -/
def startStop : Nat := rkey 0x1000 0x31
/-- START_BOOT_STAMP (spec/06_start_up.md, 0x1000:32). -/
def startBootStamp : Nat := rkey 0x1000 0x32
/-- START_GUARD_STAMP (spec/06_start_up.md, 0x1000:33). -/
def startGuardStamp : Nat := rkey 0x1000 0x33
/-- START_FLAGS (spec/06_start_up.md, 0x1000:34). -/
def startFlags : Nat := rkey 0x1000 0x34
/-- CHG_STAGGER (spec/06_start_up.md, 0x1000:35). -/
def chgStagger : Nat := rkey 0x1000 0x35
/-- CHG_WAIT (spec/06_start_up.md, 0x1000:36). -/
def chgWait : Nat := rkey 0x1000 0x36
/-- START_ELAPSED (spec/06_start_up.md, 0x1000:37). -/
def startElapsed : Nat := rkey 0x1000 0x37
/-- START_RETRY (spec/06_start_up.md, 0x1000:38). -/
def startRetry : Nat := rkey 0x1000 0x38
/-- START_LOG_DROPS (spec/06_start_up.md, 0x1000:3A). -/
def startLogDrops : Nat := rkey 0x1000 0x3A
/-- CONFIG_COMMIT (spec/02_object_dictionary.md, 0x1100:01). -/
def configCommit : Nat := rkey 0x1100 0x01
/-- CONFIG_BANK (spec/02_object_dictionary.md, 0x1100:02). -/
def configBank : Nat := rkey 0x1100 0x02
/-- CONFIG_SEQ (spec/02_object_dictionary.md, 0x1100:03). -/
def configSeq : Nat := rkey 0x1100 0x03
/-- CONFIG_LOAD_RESULT (spec/02_object_dictionary.md, 0x1100:04). -/
def configLoadResult : Nat := rkey 0x1100 0x04
/-- CONFIG_STAMP (spec/02_object_dictionary.md, 0x1100:05). -/
def configStamp : Nat := rkey 0x1100 0x05
/-- SERVICE_FLAGS (spec/02_object_dictionary.md, 0x1100:06). -/
def serviceFlags : Nat := rkey 0x1100 0x06
/-- RELOAD_SKIPPED (spec/02_object_dictionary.md, 0x1100:07). -/
def reloadSkipped : Nat := rkey 0x1100 0x07
/-- CAN_NOM_RATE (spec/02_object_dictionary.md, 0x1100:10). -/
def canNomRate : Nat := rkey 0x1100 0x10
/-- CAN_DATA_RATE (spec/02_object_dictionary.md, 0x1100:11). -/
def canDataRate : Nat := rkey 0x1100 0x11
/-- RATE_BUCKET (spec/02_object_dictionary.md, 0x1100:20). -/
def rateBucket : Nat := rkey 0x1100 0x20
/-- RATE_REFILL (spec/02_object_dictionary.md, 0x1100:21). -/
def rateRefill : Nat := rkey 0x1100 0x21
/-- START_BUCKET (spec/02_object_dictionary.md, 0x1100:22). -/
def startBucket : Nat := rkey 0x1100 0x22
/-- START_REFILL (spec/02_object_dictionary.md, 0x1100:23). -/
def startRefill : Nat := rkey 0x1100 0x23
/-- OPEN_TRANSFERS (spec/02_object_dictionary.md, 0x1100:30). -/
def openTransfers : Nat := rkey 0x1100 0x30
/-- TB_STATE (spec/05_mains_angle.md, 0x1200:01). -/
def tbState : Nat := rkey 0x1200 0x01
/-- MAINS_SENSE (spec/05_mains_angle.md, 0x1200:02). -/
def mainsSense : Nat := rkey 0x1200 0x02
/-- NOMINAL_FREQ (spec/05_mains_angle.md, 0x1200:03). -/
def nominalFreq : Nat := rkey 0x1200 0x03
/-- FREQ_MEAS (spec/05_mains_angle.md, 0x1200:04). -/
def freqMeas : Nat := rkey 0x1200 0x04
/-- PHASE_ERR (spec/05_mains_angle.md, 0x1200:05). -/
def phaseErr : Nat := rkey 0x1200 0x05
/-- AMPLITUDE (spec/05_mains_angle.md, 0x1200:06). -/
def amplitude : Nat := rkey 0x1200 0x06
/-- STAMP_NOW (spec/05_mains_angle.md, 0x1200:07). -/
def stampNow : Nat := rkey 0x1200 0x07
/-- ANGLE_NOW (spec/05_mains_angle.md, 0x1200:08). -/
def angleNow : Nat := rkey 0x1200 0x08
/-- LOSS_FRACTION (spec/05_mains_angle.md, 0x1200:10). -/
def lossFraction : Nat := rkey 0x1200 0x10
/-- LOSS_RUN (spec/05_mains_angle.md, 0x1200:11). -/
def lossRun : Nat := rkey 0x1200 0x11
/-- QUAL_MIN (spec/05_mains_angle.md, 0x1200:12). -/
def qualMin : Nat := rkey 0x1200 0x12
/-- SCHED_SHIFT (spec/05_mains_angle.md, 0x1200:13). -/
def schedShift : Nat := rkey 0x1200 0x13
/-- SEEK_LIMIT (spec/05_mains_angle.md, 0x1200:14). -/
def seekLimit : Nat := rkey 0x1200 0x14
/-- LOSS_COUNT (spec/05_mains_angle.md, 0x1200:15). -/
def lossCount : Nat := rkey 0x1200 0x15
/-- LOCK_COUNT (spec/05_mains_angle.md, 0x1200:16). -/
def lockCount : Nat := rkey 0x1200 0x16
/-- LAST_LOSS (spec/05_mains_angle.md, 0x1200:17). -/
def lastLoss : Nat := rkey 0x1200 0x17
/-- TB_FLAGS (spec/05_mains_angle.md, 0x1200:18). -/
def tbFlags : Nat := rkey 0x1200 0x18
/-- STAMP_STEPS (spec/05_mains_angle.md, 0x1200:19). -/
def stampSteps : Nat := rkey 0x1200 0x19
/-- LOSS_DETECT (spec/05_mains_angle.md, 0x1200:1A). -/
def lossDetect : Nat := rkey 0x1200 0x1A
/-- WIN_SKIP (spec/05_mains_angle.md, 0x1200:20). -/
def winSkip (i : Nat) : Nat := rkey 0x1200 (0x20 + i)
/-- FOLLOWER (spec/05_mains_angle.md, 0x1200:30). -/
def follower : Nat := rkey 0x1200 0x30
/-- OEM_UNLOCK (spec/02_object_dictionary.md, 0x1300:01). -/
def oemUnlock : Nat := rkey 0x1300 0x01
/-- OEM_LOCK (spec/02_object_dictionary.md, 0x1300:02). -/
def oemLock : Nat := rkey 0x1300 0x02
/-- PW_ATTEMPTS_LEFT (spec/02_object_dictionary.md, 0x1300:03). -/
def pwAttemptsLeft : Nat := rkey 0x1300 0x03
/-- OEM_PW_CHANGE (spec/02_object_dictionary.md, 0x1300:04). -/
def oemPwChange : Nat := rkey 0x1300 0x04
/-- OEM_STATE (spec/02_object_dictionary.md, 0x1300:05). -/
def oemState : Nat := rkey 0x1300 0x05
/-- IDLE_HOLD (spec/02_object_dictionary.md, 0x1300:10). -/
def idleHold : Nat := rkey 0x1300 0x10
/-- IDLE_STATE (spec/02_object_dictionary.md, 0x1300:11). -/
def idleState : Nat := rkey 0x1300 0x11
/-- RESTART (spec/02_object_dictionary.md, 0x1300:12). -/
def restart : Nat := rkey 0x1300 0x12
/-- FEED_EN (spec/07_feeds_and_efuse.md, 0x2000+0x40·f:01). -/
def feedEn (f : Nat) : Nat := rkey (0x2000 + 0x40 * f) 0x01
/-- FEED_STATE (spec/07_feeds_and_efuse.md, 0x2000+0x40·f:02). -/
def feedState (f : Nat) : Nat := rkey (0x2000 + 0x40 * f) 0x02
/-- FEED_WAIT (spec/07_feeds_and_efuse.md, 0x2000+0x40·f:03). -/
def feedWait (f : Nat) : Nat := rkey (0x2000 + 0x40 * f) 0x03
/-- TRIP_CAUSE (spec/07_feeds_and_efuse.md, 0x2000+0x40·f:04). -/
def tripCause (f : Nat) : Nat := rkey (0x2000 + 0x40 * f) 0x04
/-- TRIP_STAMP (spec/07_feeds_and_efuse.md, 0x2000+0x40·f:05). -/
def tripStamp (f : Nat) : Nat := rkey (0x2000 + 0x40 * f) 0x05
/-- TRIP_DETAIL (spec/07_feeds_and_efuse.md, 0x2000+0x40·f:06). -/
def tripDetail (f : Nat) : Nat := rkey (0x2000 + 0x40 * f) 0x06
/-- DAMAGE (spec/07_feeds_and_efuse.md, 0x2000+0x40·f:07). -/
def damage (f : Nat) : Nat := rkey (0x2000 + 0x40 * f) 0x07
/-- FET_DMG_CLEAR (spec/07_feeds_and_efuse.md, 0x2000+0x40·f:08). -/
def fetDmgClear (f : Nat) : Nat := rkey (0x2000 + 0x40 * f) 0x08
/-- FEED_FLAGS (spec/07_feeds_and_efuse.md, 0x2000+0x40·f:09). -/
def feedFlags (f : Nat) : Nat := rkey (0x2000 + 0x40 * f) 0x09
/-- FEED_V (spec/07_feeds_and_efuse.md, 0x2000+0x40·f:10). -/
def feedV (f : Nat) : Nat := rkey (0x2000 + 0x40 * f) 0x10
/-- SRC_V (spec/07_feeds_and_efuse.md, 0x2000+0x40·f:11). -/
def srcV (f : Nat) : Nat := rkey (0x2000 + 0x40 * f) 0x11
/-- FEED_I (spec/07_feeds_and_efuse.md, 0x2000+0x40·f:12). -/
def feedI (f : Nat) : Nat := rkey (0x2000 + 0x40 * f) 0x12
/-- FET_TEMP (spec/07_feeds_and_efuse.md, 0x2000+0x40·f:13). -/
def fetTemp (f : Nat) : Nat := rkey (0x2000 + 0x40 * f) 0x13
/-- NTC_TEMP (spec/07_feeds_and_efuse.md, 0x2000+0x40·f:14). -/
def ntcTemp (f : Nat) : Nat := rkey (0x2000 + 0x40 * f) 0x14
/-- SHUNT_R (spec/07_feeds_and_efuse.md, 0x2001+0x40·f:01). -/
def shuntR (f : Nat) : Nat := rkey (0x2001 + 0x40 * f) 0x01
/-- FAST_TRIP (spec/07_feeds_and_efuse.md, 0x2001+0x40·f:02). -/
def fastTrip (f : Nat) : Nat := rkey (0x2001 + 0x40 * f) 0x02
/-- IT_CURVE (spec/07_feeds_and_efuse.md, 0x2001+0x40·f:03). -/
def itCurve (f : Nat) : Nat := rkey (0x2001 + 0x40 * f) 0x03
/-- IT_I (spec/07_feeds_and_efuse.md, 0x2001+0x40·f:10). -/
def itI (f : Nat) (i : Nat) : Nat := rkey (0x2001 + 0x40 * f) (0x10 + i)
/-- IT_T (spec/07_feeds_and_efuse.md, 0x2001+0x40·f:18). -/
def itT (f : Nat) (i : Nat) : Nat := rkey (0x2001 + 0x40 * f) (0x18 + i)
/-- FEED_OV (spec/07_feeds_and_efuse.md, 0x2001+0x40·f:20). -/
def feedOv (f : Nat) : Nat := rkey (0x2001 + 0x40 * f) 0x20
/-- FEED_UV (spec/07_feeds_and_efuse.md, 0x2001+0x40·f:21). -/
def feedUv (f : Nat) : Nat := rkey (0x2001 + 0x40 * f) 0x21
/-- FEED_RATED (spec/07_feeds_and_efuse.md, 0x2001+0x40·f:22). -/
def feedRated (f : Nat) : Nat := rkey (0x2001 + 0x40 * f) 0x22
/-- FET_TEMP_SRC (spec/07_feeds_and_efuse.md, 0x2002+0x40·f:01). -/
def fetTempSrc (f : Nat) : Nat := rkey (0x2002 + 0x40 * f) 0x01
/-- RDS_ON (spec/07_feeds_and_efuse.md, 0x2002+0x40·f:02). -/
def rdsOn (f : Nat) : Nat := rkey (0x2002 + 0x40 * f) 0x02
/-- FET_RTH (spec/07_feeds_and_efuse.md, 0x2002+0x40·f:03). -/
def fetRth (f : Nat) : Nat := rkey (0x2002 + 0x40 * f) 0x03
/-- FET_TAU (spec/07_feeds_and_efuse.md, 0x2002+0x40·f:04). -/
def fetTau (f : Nat) : Nat := rkey (0x2002 + 0x40 * f) 0x04
/-- FET_TMAX (spec/07_feeds_and_efuse.md, 0x2002+0x40·f:05). -/
def fetTmax (f : Nat) : Nat := rkey (0x2002 + 0x40 * f) 0x05
/-- FET_TWARN (spec/07_feeds_and_efuse.md, 0x2002+0x40·f:06). -/
def fetTwarn (f : Nat) : Nat := rkey (0x2002 + 0x40 * f) 0x06
/-- NTC_BETA (spec/07_feeds_and_efuse.md, 0x2002+0x40·f:07). -/
def ntcBeta (f : Nat) : Nat := rkey (0x2002 + 0x40 * f) 0x07
/-- SEAT_QUAL (spec/07_feeds_and_efuse.md, 0x2003+0x40·f:01). -/
def seatQual (f : Nat) : Nat := rkey (0x2003 + 0x40 * f) 0x01
/-- SEAT_REL (spec/07_feeds_and_efuse.md, 0x2003+0x40·f:02). -/
def seatRel (f : Nat) : Nat := rkey (0x2003 + 0x40 * f) 0x02
/-- SEAT_STATE (spec/07_feeds_and_efuse.md, 0x2003+0x40·f:03). -/
def seatState (f : Nat) : Nat := rkey (0x2003 + 0x40 * f) 0x03
/-- SS_TIME (spec/07_feeds_and_efuse.md, 0x2003+0x40·f:04). -/
def ssTime (f : Nat) : Nat := rkey (0x2003 + 0x40 * f) 0x04
/-- SS_ILIM (spec/07_feeds_and_efuse.md, 0x2003+0x40·f:05). -/
def ssIlim (f : Nat) : Nat := rkey (0x2003 + 0x40 * f) 0x05
/-- TRIPS_FAST (spec/07_feeds_and_efuse.md, 0x2004+0x40·f:01). -/
def tripsFast (f : Nat) : Nat := rkey (0x2004 + 0x40 * f) 0x01
/-- TRIPS_IT (spec/07_feeds_and_efuse.md, 0x2004+0x40·f:02). -/
def tripsIt (f : Nat) : Nat := rkey (0x2004 + 0x40 * f) 0x02
/-- TRIPS_TEMP (spec/07_feeds_and_efuse.md, 0x2004+0x40·f:03). -/
def tripsTemp (f : Nat) : Nat := rkey (0x2004 + 0x40 * f) 0x03
/-- TRIPS_SS (spec/07_feeds_and_efuse.md, 0x2004+0x40·f:04). -/
def tripsSs (f : Nat) : Nat := rkey (0x2004 + 0x40 * f) 0x04
/-- TRIPS_GATE (spec/07_feeds_and_efuse.md, 0x2004+0x40·f:05). -/
def tripsGate (f : Nat) : Nat := rkey (0x2004 + 0x40 * f) 0x05
/-- SOFT_STARTS (spec/07_feeds_and_efuse.md, 0x2004+0x40·f:06). -/
def softStarts (f : Nat) : Nat := rkey (0x2004 + 0x40 * f) 0x06
/-- SEAT_RELEASES (spec/07_feeds_and_efuse.md, 0x2004+0x40·f:07). -/
def seatReleases (f : Nat) : Nat := rkey (0x2004 + 0x40 * f) 0x07
/-- BACKFEED_BLOCKS (spec/07_feeds_and_efuse.md, 0x2004+0x40·f:08). -/
def backfeedBlocks (f : Nat) : Nat := rkey (0x2004 + 0x40 * f) 0x08
/-- OV_EVENTS (spec/07_feeds_and_efuse.md, 0x2004+0x40·f:09). -/
def ovEvents (f : Nat) : Nat := rkey (0x2004 + 0x40 * f) 0x09
/-- DAMAGE_FINDINGS (spec/07_feeds_and_efuse.md, 0x2004+0x40·f:0A). -/
def damageFindings (f : Nat) : Nat := rkey (0x2004 + 0x40 * f) 0x0A
/-- VBUS_V (spec/07_feeds_and_efuse.md, 0x2030:01). -/
def vbusV : Nat := rkey 0x2030 0x01
/-- VBUS_AVG (spec/07_feeds_and_efuse.md, 0x2030:02). -/
def vbusAvg : Nat := rkey 0x2030 0x02
/-- SAG_ABS (spec/07_feeds_and_efuse.md, 0x2030:03). -/
def sagAbs : Nat := rkey 0x2030 0x03
/-- SAG_REL (spec/07_feeds_and_efuse.md, 0x2030:04). -/
def sagRel : Nat := rkey 0x2030 0x04
/-- SAG_RUN (spec/07_feeds_and_efuse.md, 0x2030:05). -/
def sagRun : Nat := rkey 0x2030 0x05
/-- SEAT_POUR (spec/07_feeds_and_efuse.md, 0x2030:06). -/
def seatPour : Nat := rkey 0x2030 0x06
/-- BUS_LATCH (spec/07_feeds_and_efuse.md, 0x2030:07). -/
def busLatch : Nat := rkey 0x2030 0x07
/-- SHARE_MODE (spec/07_feeds_and_efuse.md, 0x2030:08). -/
def shareMode : Nat := rkey 0x2030 0x08
/-- SHARE_RATIO_A (spec/07_feeds_and_efuse.md, 0x2030:09). -/
def shareRatioA : Nat := rkey 0x2030 0x09
/-- SHARE_MAX_DROP (spec/07_feeds_and_efuse.md, 0x2030:0A). -/
def shareMaxDrop : Nat := rkey 0x2030 0x0A
/-- SHARE_ERR (spec/07_feeds_and_efuse.md, 0x2030:0B). -/
def shareErr : Nat := rkey 0x2030 0x0B
/-- FET_CHECK_PERIOD (spec/07_feeds_and_efuse.md, 0x2030:0C). -/
def fetCheckPeriod : Nat := rkey 0x2030 0x0C
/-- HOLDUP_BARRED (spec/07_feeds_and_efuse.md, 0x2030:0D). -/
def holdupBarred : Nat := rkey 0x2030 0x0D
/-- SAG_COUNT (spec/07_feeds_and_efuse.md, 0x2030:0E). -/
def sagCount : Nat := rkey 0x2030 0x0E
/-- LADLE_CELLS (spec/08_ladle.md, 0x2100:01). -/
def ladleCells : Nat := rkey 0x2100 0x01
/-- CELL_TARGET (spec/08_ladle.md, 0x2100:02). -/
def cellTarget : Nat := rkey 0x2100 0x02
/-- TARGET_EFF (spec/08_ladle.md, 0x2100:03). -/
def targetEff : Nat := rkey 0x2100 0x03
/-- TARGET_CMD (spec/08_ladle.md, 0x2100:04). -/
def targetCmd : Nat := rkey 0x2100 0x04
/-- TARGET_SLEW (spec/08_ladle.md, 0x2100:05). -/
def targetSlew : Nat := rkey 0x2100 0x05
/-- CHILL_TEMP (spec/08_ladle.md, 0x2100:06). -/
def chillTemp : Nat := rkey 0x2100 0x06
/-- CHILL_SLOPE (spec/08_ladle.md, 0x2100:07). -/
def chillSlope : Nat := rkey 0x2100 0x07
/-- TARGET_TOL (spec/08_ladle.md, 0x2100:08). -/
def targetTol : Nat := rkey 0x2100 0x08
/-- TARGET_STATE (spec/08_ladle.md, 0x2100:09). -/
def targetState : Nat := rkey 0x2100 0x09
/-- TARGETS_SUPERSEDED (spec/08_ladle.md, 0x2100:0A). -/
def targetsSuperseded : Nat := rkey 0x2100 0x0A
/-- STACK_V (spec/08_ladle.md, 0x2100:10). -/
def stackV : Nat := rkey 0x2100 0x10
/-- TAP_SUM (spec/08_ladle.md, 0x2100:11). -/
def tapSum : Nat := rkey 0x2100 0x11
/-- SUM_ERR (spec/08_ladle.md, 0x2100:12). -/
def sumErr : Nat := rkey 0x2100 0x12
/-- LADLE_TEMP (spec/08_ladle.md, 0x2100:13). -/
def ladleTemp : Nat := rkey 0x2100 0x13
/-- LTEMP1_T (spec/08_ladle.md, 0x2100:14). -/
def ltemp1T : Nat := rkey 0x2100 0x14
/-- LTEMP2_T (spec/08_ladle.md, 0x2100:15). -/
def ltemp2T : Nat := rkey 0x2100 0x15
/-- LTEMP_FITTED (spec/08_ladle.md, 0x2100:16). -/
def ltempFitted : Nat := rkey 0x2100 0x16
/-- LTEMP_BETA (spec/08_ladle.md, 0x2100:17). -/
def ltempBeta : Nat := rkey 0x2100 0x17
/-- TAP_R (spec/08_ladle.md, 0x2100:18). -/
def tapR : Nat := rkey 0x2100 0x18
/-- LADLE_FLAGS (spec/08_ladle.md, 0x2100:19). -/
def ladleFlags : Nat := rkey 0x2100 0x19
/-- LADLE_FAULT (spec/08_ladle.md, 0x2100:1A). -/
def ladleFault : Nat := rkey 0x2100 0x1A
/-- LADLE_CLEAR (spec/08_ladle.md, 0x2100:1B). -/
def ladleClear : Nat := rkey 0x2100 0x1B
/-- CELL_VMAX (spec/08_ladle.md, 0x2100:1C). -/
def cellVmax : Nat := rkey 0x2100 0x1C
/-- CELL_VSHORT (spec/08_ladle.md, 0x2100:1D). -/
def cellVshort : Nat := rkey 0x2100 0x1D
/-- CELL_DEV (spec/08_ladle.md, 0x2100:1E). -/
def cellDev : Nat := rkey 0x2100 0x1E
/-- DEV_RUN (spec/08_ladle.md, 0x2100:1F). -/
def devRun : Nat := rkey 0x2100 0x1F
/-- LADLE_TMAX (spec/08_ladle.md, 0x2100:20). -/
def ladleTmax : Nat := rkey 0x2100 0x20
/-- BAL_ON (spec/08_ladle.md, 0x2100:21). -/
def balOn : Nat := rkey 0x2100 0x21
/-- BAL_OFF (spec/08_ladle.md, 0x2100:22). -/
def balOff : Nat := rkey 0x2100 0x22
/-- CHG_STATE (spec/08_ladle.md, 0x2101:01). -/
def chgState : Nat := rkey 0x2101 0x01
/-- CHG_STOP (spec/08_ladle.md, 0x2101:02). -/
def chgStop : Nat := rkey 0x2101 0x02
/-- CHG_I (spec/08_ladle.md, 0x2101:03). -/
def chgI : Nat := rkey 0x2101 0x03
/-- CHG_RSENSE (spec/08_ladle.md, 0x2101:04). -/
def chgRsense : Nat := rkey 0x2101 0x04
/-- CHG_TOPBAL_I (spec/08_ladle.md, 0x2101:05). -/
def chgTopbalI : Nat := rkey 0x2101 0x05
/-- CHG_TERM (spec/08_ladle.md, 0x2101:06). -/
def chgTerm : Nat := rkey 0x2101 0x06
/-- CHG_HEADROOM (spec/08_ladle.md, 0x2101:07). -/
def chgHeadroom : Nat := rkey 0x2101 0x07
/-- CHG_SETPOINT (spec/08_ladle.md, 0x2101:08). -/
def chgSetpoint : Nat := rkey 0x2101 0x08
/-- CHG_I_MEAS (spec/08_ladle.md, 0x2101:09). -/
def chgIMeas : Nat := rkey 0x2101 0x09
/-- OW_PERIOD (spec/08_ladle.md, 0x2102:01). -/
def owPeriod : Nat := rkey 0x2102 0x01
/-- OW_LIMIT (spec/08_ladle.md, 0x2102:02). -/
def owLimit : Nat := rkey 0x2102 0x02
/-- DAMP_LIMIT (spec/08_ladle.md, 0x2102:03). -/
def dampLimit : Nat := rkey 0x2102 0x03
/-- DAMP_INTERVAL (spec/08_ladle.md, 0x2102:04). -/
def dampInterval : Nat := rkey 0x2102 0x04
/-- DAMP_RETESTS (spec/08_ladle.md, 0x2102:05). -/
def dampRetests : Nat := rkey 0x2102 0x05
/-- DAMP_COUNT (spec/08_ladle.md, 0x2102:06). -/
def dampCount : Nat := rkey 0x2102 0x06
/-- DAMP_LEARN (spec/08_ladle.md, 0x2102:07). -/
def dampLearn : Nat := rkey 0x2102 0x07
/-- PAIR_DEV (spec/08_ladle.md, 0x2102:08). -/
def pairDev : Nat := rkey 0x2102 0x08
/-- PAIR_SUM_TOL (spec/08_ladle.md, 0x2102:09). -/
def pairSumTol : Nat := rkey 0x2102 0x09
/-- SUM_TOL (spec/08_ladle.md, 0x2102:0A). -/
def sumTol : Nat := rkey 0x2102 0x0A
/-- SIG_RUN (spec/08_ladle.md, 0x2102:0B). -/
def sigRun : Nat := rkey 0x2102 0x0B
/-- OW_BACKOFF (spec/08_ladle.md, 0x2102:0C). -/
def owBackoff : Nat := rkey 0x2102 0x0C
/-- CAP_PERIOD (spec/08_ladle.md, 0x2102:10). -/
def capPeriod : Nat := rkey 0x2102 0x10
/-- CAP_FIRST_DELAY (spec/08_ladle.md, 0x2102:11). -/
def capFirstDelay : Nat := rkey 0x2102 0x11
/-- CAP_TEST_I (spec/08_ladle.md, 0x2102:12). -/
def capTestI : Nat := rkey 0x2102 0x12
/-- CAP_DIP (spec/08_ladle.md, 0x2102:13). -/
def capDip : Nat := rkey 0x2102 0x13
/-- CAP_TEST_MAX (spec/08_ladle.md, 0x2102:14). -/
def capTestMax : Nat := rkey 0x2102 0x14
/-- ESR_PERIOD (spec/08_ladle.md, 0x2102:15). -/
def esrPeriod : Nat := rkey 0x2102 0x15
/-- ESR_PULSE_I (spec/08_ladle.md, 0x2102:16). -/
def esrPulseI : Nat := rkey 0x2102 0x16
/-- CAP_STAMP (spec/08_ladle.md, 0x2102:17). -/
def capStamp : Nat := rkey 0x2102 0x17
/-- ESR_STAMP (spec/08_ladle.md, 0x2102:18). -/
def esrStamp : Nat := rkey 0x2102 0x18
/-- LADLE_E (spec/08_ladle.md, 0x2103:01). -/
def ladleE : Nat := rkey 0x2103 0x01
/-- LADLE_AVAIL (spec/08_ladle.md, 0x2103:02). -/
def ladleAvail : Nat := rkey 0x2103 0x02
/-- LADLE_RESERVE (spec/08_ladle.md, 0x2103:03). -/
def ladleReserve : Nat := rkey 0x2103 0x03
/-- EST_VMIN (spec/08_ladle.md, 0x2103:04). -/
def estVmin : Nat := rkey 0x2103 0x04
/-- CELL_FLOOR (spec/08_ladle.md, 0x2103:05). -/
def cellFloor : Nat := rkey 0x2103 0x05
/-- EST_ILOAD (spec/08_ladle.md, 0x2103:06). -/
def estIload : Nat := rkey 0x2103 0x06
/-- CELL_C_RATED (spec/08_ladle.md, 0x2103:07). -/
def cellCRated : Nat := rkey 0x2103 0x07
/-- ESR_RATED (spec/08_ladle.md, 0x2103:08). -/
def esrRated : Nat := rkey 0x2103 0x08
/-- BOOT_C_PCT (spec/08_ladle.md, 0x2103:09). -/
def bootCPct : Nat := rkey 0x2103 0x09
/-- BOOT_ESR_PCT (spec/08_ladle.md, 0x2103:0A). -/
def bootEsrPct : Nat := rkey 0x2103 0x0A
/-- CAP_COLD (spec/08_ladle.md, 0x2103:0B). -/
def capCold : Nat := rkey 0x2103 0x0B
/-- ESR_COLD (spec/08_ladle.md, 0x2103:0C). -/
def esrCold : Nat := rkey 0x2103 0x0C
/-- C_EQ (spec/08_ladle.md, 0x2103:0D). -/
def cEq : Nat := rkey 0x2103 0x0D
/-- ESR_STACK (spec/08_ladle.md, 0x2103:0E). -/
def esrStack : Nat := rkey 0x2103 0x0E
/-- EST_ZERO (spec/08_ladle.md, 0x2103:0F). -/
def estZero : Nat := rkey 0x2103 0x0F
/-- CAP_MIN_PCT (spec/08_ladle.md, 0x2103:10). -/
def capMinPct : Nat := rkey 0x2103 0x10
/-- ESR_MAX_PCT (spec/08_ladle.md, 0x2103:11). -/
def esrMaxPct : Nat := rkey 0x2103 0x11
/-- OW_TESTS (spec/08_ladle.md, 0x2104:01). -/
def owTests : Nat := rkey 0x2104 0x01
/-- OW_FINDINGS (spec/08_ladle.md, 0x2104:02). -/
def owFindings : Nat := rkey 0x2104 0x02
/-- DAMP_FAILS (spec/08_ladle.md, 0x2104:03). -/
def dampFails : Nat := rkey 0x2104 0x03
/-- CAP_TESTS (spec/08_ladle.md, 0x2104:04). -/
def capTests : Nat := rkey 0x2104 0x04
/-- CAP_DEFERRED (spec/08_ladle.md, 0x2104:05). -/
def capDeferred : Nat := rkey 0x2104 0x05
/-- ESR_PULSES (spec/08_ladle.md, 0x2104:06). -/
def esrPulses : Nat := rkey 0x2104 0x06
/-- OV_EPISODES (spec/08_ladle.md, 0x2104:07). -/
def ovEpisodes : Nat := rkey 0x2104 0x07
/-- CHG_FAULTS (spec/08_ladle.md, 0x2104:08). -/
def chgFaults : Nat := rkey 0x2104 0x08
/-- CELL_FAULTS (spec/08_ladle.md, 0x2110+n:01). -/
def cellFaults (n : Nat) : Nat := rkey (0x2110 + n) 0x01
/-- CELL_C (spec/08_ladle.md, 0x2110+n:02). -/
def cellC (n : Nat) : Nat := rkey (0x2110 + n) 0x02
/-- CELL_ESR (spec/08_ladle.md, 0x2110+n:03). -/
def cellEsr (n : Nat) : Nat := rkey (0x2110 + n) 0x03
/-- CELL_V (spec/08_ladle.md, 0x2110+n:04). -/
def cellV (n : Nat) : Nat := rkey (0x2110 + n) 0x04
/-- CELL_DEV_MEAS (spec/08_ladle.md, 0x2110+n:05). -/
def cellDevMeas (n : Nat) : Nat := rkey (0x2110 + n) 0x05
/-- BAL_ACTIVE (spec/08_ladle.md, 0x2110+n:06). -/
def balActive (n : Nat) : Nat := rkey (0x2110 + n) 0x06
/-- BAL_TICKS (spec/08_ladle.md, 0x2110+n:07). -/
def balTicks (n : Nat) : Nat := rkey (0x2110 + n) 0x07
/-- CELL_T_MEAS (spec/08_ladle.md, 0x2110+n:08). -/
def cellTMeas (n : Nat) : Nat := rkey (0x2110 + n) 0x08
/-- CELL_C_STAMP (spec/08_ladle.md, 0x2110+n:09). -/
def cellCStamp (n : Nat) : Nat := rkey (0x2110 + n) 0x09
/-- TAP_RESP (spec/08_ladle.md, 0x2120+k:01). -/
def tapResp (k : Nat) : Nat := rkey (0x2120 + k) 0x01
/-- TAP_REF (spec/08_ladle.md, 0x2120+k:02). -/
def tapRef (k : Nat) : Nat := rkey (0x2120 + k) 0x02
/-- TAP_STATE (spec/08_ladle.md, 0x2120+k:03). -/
def tapState (k : Nat) : Nat := rkey (0x2120 + k) 0x03
/-- HU_STATE (spec/09_holdup.md, 0x2200:01). -/
def huState : Nat := rkey 0x2200 0x01
/-- HU_OFF_WHY (spec/09_holdup.md, 0x2200:02). -/
def huOffWhy : Nat := rkey 0x2200 0x02
/-- HU_READY (spec/09_holdup.md, 0x2200:03). -/
def huReady : Nat := rkey 0x2200 0x03
/-- HU_FLAGS (spec/09_holdup.md, 0x2200:04). -/
def huFlags : Nat := rkey 0x2200 0x04
/-- HU_SETPOINT (spec/09_holdup.md, 0x2200:05). -/
def huSetpoint : Nat := rkey 0x2200 0x05
/-- HU_I_MAX (spec/09_holdup.md, 0x2200:06). -/
def huIMax : Nat := rkey 0x2200 0x06
/-- HU_RSENSE (spec/09_holdup.md, 0x2200:07). -/
def huRsense : Nat := rkey 0x2200 0x07
/-- HU_FSW (spec/09_holdup.md, 0x2200:08). -/
def huFsw : Nat := rkey 0x2200 0x08
/-- HU_EFF (spec/09_holdup.md, 0x2200:09). -/
def huEff : Nat := rkey 0x2200 0x09
/-- HU_ARM_MARGIN (spec/09_holdup.md, 0x2200:0A). -/
def huArmMargin : Nat := rkey 0x2200 0x0A
/-- HU_ARM_HYST (spec/09_holdup.md, 0x2200:0B). -/
def huArmHyst : Nat := rkey 0x2200 0x0B
/-- HU_CARRY_I (spec/09_holdup.md, 0x2200:0C). -/
def huCarryI : Nat := rkey 0x2200 0x0C
/-- HU_TEST_I (spec/09_holdup.md, 0x2200:0D). -/
def huTestI : Nat := rkey 0x2200 0x0D
/-- HU_TEST_PERIOD (spec/09_holdup.md, 0x2200:0E). -/
def huTestPeriod : Nat := rkey 0x2200 0x0E
/-- HU_TEST_RESULT (spec/09_holdup.md, 0x2200:0F). -/
def huTestResult : Nat := rkey 0x2200 0x0F
/-- HU_TEST_STAMP (spec/09_holdup.md, 0x2200:10). -/
def huTestStamp : Nat := rkey 0x2200 0x10
/-- HU_I_IN (spec/09_holdup.md, 0x2200:11). -/
def huIIn : Nat := rkey 0x2200 0x11
/-- HU_LOAD_E (spec/09_holdup.md, 0x2200:12). -/
def huLoadE : Nat := rkey 0x2200 0x12
/-- HU_LOAD_PEAK (spec/09_holdup.md, 0x2200:13). -/
def huLoadPeak : Nat := rkey 0x2200 0x13
/-- HU_LOAD_WINDOW (spec/09_holdup.md, 0x2200:14). -/
def huLoadWindow : Nat := rkey 0x2200 0x14
/-- HU_LOAD_MARGIN (spec/09_holdup.md, 0x2200:15). -/
def huLoadMargin : Nat := rkey 0x2200 0x15
/-- HU_HOLD_E (spec/09_holdup.md, 0x2200:16). -/
def huHoldE : Nat := rkey 0x2200 0x16
/-- HU_TEMP (spec/09_holdup.md, 0x2200:17). -/
def huTemp : Nat := rkey 0x2200 0x17
/-- HU_RTH (spec/09_holdup.md, 0x2200:18). -/
def huRth : Nat := rkey 0x2200 0x18
/-- HU_TAU (spec/09_holdup.md, 0x2200:19). -/
def huTau : Nat := rkey 0x2200 0x19
/-- HU_TMAX (spec/09_holdup.md, 0x2200:1A). -/
def huTmax : Nat := rkey 0x2200 0x1A
/-- HU_TRIP_STAMP (spec/09_holdup.md, 0x2200:1B). -/
def huTripStamp : Nat := rkey 0x2200 0x1B
/-- HU_IT_CURVE (spec/09_holdup.md, 0x2200:20). -/
def huItCurve : Nat := rkey 0x2200 0x20
/-- HU_IT_I (spec/09_holdup.md, 0x2200:21). -/
def huItI (i : Nat) : Nat := rkey 0x2200 (0x21 + i)
/-- HU_IT_T (spec/09_holdup.md, 0x2200:25). -/
def huItT (i : Nat) : Nat := rkey 0x2200 (0x25 + i)
/-- HU_CLEAR (spec/09_holdup.md, 0x2200:30). -/
def huClear : Nat := rkey 0x2200 0x30
/-- HU_GROUP (spec/09_holdup.md, 0x2201:01). -/
def huGroup : Nat := rkey 0x2201 0x01
/-- HU_WEIGHT (spec/09_holdup.md, 0x2201:02). -/
def huWeight : Nat := rkey 0x2201 0x02
/-- HU_SHARE_FS (spec/09_holdup.md, 0x2201:03). -/
def huShareFs : Nat := rkey 0x2201 0x03
/-- HU_SHARE_TRIM (spec/09_holdup.md, 0x2201:04). -/
def huShareTrim : Nat := rkey 0x2201 0x04
/-- HU_DROOP (spec/09_holdup.md, 0x2201:05). -/
def huDroop : Nat := rkey 0x2201 0x05
/-- SHARE_V (spec/09_holdup.md, 0x2201:06). -/
def shareV : Nat := rkey 0x2201 0x06
/-- HU_SHARE_STATE (spec/09_holdup.md, 0x2201:07). -/
def huShareState : Nat := rkey 0x2201 0x07
/-- HU_SHARE_ERR (spec/09_holdup.md, 0x2201:08). -/
def huShareErr : Nat := rkey 0x2201 0x08
/-- GROUP_PRESENT (spec/09_holdup.md, 0x2201:09). -/
def groupPresent : Nat := rkey 0x2201 0x09
/-- GROUP_WEIGHT_SUM (spec/09_holdup.md, 0x2201:0A). -/
def groupWeightSum : Nat := rkey 0x2201 0x0A
/-- GROUP_LOAD_E (spec/09_holdup.md, 0x2201:0B). -/
def groupLoadE : Nat := rkey 0x2201 0x0B
/-- HU_CARRIES (spec/09_holdup.md, 0x2202:01). -/
def huCarries : Nat := rkey 0x2202 0x01
/-- HU_POURS_CARRIED (spec/09_holdup.md, 0x2202:02). -/
def huPoursCarried : Nat := rkey 0x2202 0x02
/-- HU_TRIPS_IT (spec/09_holdup.md, 0x2202:03). -/
def huTripsIt : Nat := rkey 0x2202 0x03
/-- HU_TRIPS_TEMP (spec/09_holdup.md, 0x2202:04). -/
def huTripsTemp : Nat := rkey 0x2202 0x04
/-- HU_TESTS (spec/09_holdup.md, 0x2202:05). -/
def huTests : Nat := rkey 0x2202 0x05
/-- HU_TEST_FAILS (spec/09_holdup.md, 0x2202:06). -/
def huTestFails : Nat := rkey 0x2202 0x06
/-- HU_TEST_DEFERRED (spec/09_holdup.md, 0x2202:07). -/
def huTestDeferred : Nat := rkey 0x2202 0x07
/-- HU_SHARE_FAULTS (spec/09_holdup.md, 0x2202:08). -/
def huShareFaults : Nat := rkey 0x2202 0x08
/-- HU_DEPLETIONS (spec/09_holdup.md, 0x2202:09). -/
def huDepletions : Nat := rkey 0x2202 0x09
/-- SEQ_STATE (spec/10_sequencer.md, 0x2300:01). -/
def seqState : Nat := rkey 0x2300 0x01
/-- SEQ_LATCH (spec/10_sequencer.md, 0x2300:02). -/
def seqLatch : Nat := rkey 0x2300 0x02
/-- SEQ_CLEAR (spec/10_sequencer.md, 0x2300:03). -/
def seqClear : Nat := rkey 0x2300 0x03
/-- SEQ_FLAGS (spec/10_sequencer.md, 0x2300:04). -/
def seqFlags : Nat := rkey 0x2300 0x04
/-- HOST_RAIL (spec/10_sequencer.md, 0x2300:05). -/
def hostRail : Nat := rkey 0x2300 0x05
/-- HOST_RST_DELAY (spec/10_sequencer.md, 0x2300:06). -/
def hostRstDelay : Nat := rkey 0x2300 0x06
/-- RF_GRACE (spec/10_sequencer.md, 0x2300:07). -/
def rfGrace : Nat := rkey 0x2300 0x07
/-- FAULT_IN_EN (spec/10_sequencer.md, 0x2300:08). -/
def faultInEn : Nat := rkey 0x2300 0x08
/-- FAULT_IN_FILTER (spec/10_sequencer.md, 0x2300:09). -/
def faultInFilter : Nat := rkey 0x2300 0x09
/-- FAULT_PULSE (spec/10_sequencer.md, 0x2300:0A). -/
def faultPulse : Nat := rkey 0x2300 0x0A
/-- FAULT_STATE (spec/10_sequencer.md, 0x2300:0B). -/
def faultState : Nat := rkey 0x2300 0x0B
/-- RAILS_ON (spec/10_sequencer.md, 0x2300:0C). -/
def railsOn : Nat := rkey 0x2300 0x0C
/-- RAILS_GOOD (spec/10_sequencer.md, 0x2300:0D). -/
def railsGood : Nat := rkey 0x2300 0x0D
/-- FAILED_RAIL (spec/10_sequencer.md, 0x2300:0E). -/
def failedRail : Nat := rkey 0x2300 0x0E
/-- OFF_START_STAMP (spec/10_sequencer.md, 0x2300:0F). -/
def offStartStamp : Nat := rkey 0x2300 0x0F
/-- FAULT_IN_COUNT (spec/10_sequencer.md, 0x2301:01). -/
def faultInCount : Nat := rkey 0x2301 0x01
/-- FAULT_OUT_COUNT (spec/10_sequencer.md, 0x2301:02). -/
def faultOutCount : Nat := rkey 0x2301 0x02
/-- FAULT_STUCK_COUNT (spec/10_sequencer.md, 0x2301:03). -/
def faultStuckCount : Nat := rkey 0x2301 0x03
/-- LATCH_COUNT (spec/10_sequencer.md, 0x2301:04). -/
def latchCount : Nat := rkey 0x2301 0x04
/-- RF_TRIGGERS (spec/10_sequencer.md, 0x2301:05). -/
def rfTriggers : Nat := rkey 0x2301 0x05
/-- RF_FORCED (spec/10_sequencer.md, 0x2301:06). -/
def rfForced : Nat := rkey 0x2301 0x06
/-- RAIL_MODE (spec/10_sequencer.md, 0x2310+n:01). -/
def railMode (n : Nat) : Nat := rkey (0x2310 + n) 0x01
/-- JUDGE (spec/10_sequencer.md, 0x2310+n:02). -/
def judge (n : Nat) : Nat := rkey (0x2310 + n) 0x02
/-- EN_DRIVE (spec/10_sequencer.md, 0x2310+n:03). -/
def enDrive (n : Nat) : Nat := rkey (0x2310 + n) 0x03
/-- PG_POL (spec/10_sequencer.md, 0x2310+n:04). -/
def pgPol (n : Nat) : Nat := rkey (0x2310 + n) 0x04
/-- ON_SLOT (spec/10_sequencer.md, 0x2310+n:05). -/
def onSlot (n : Nat) : Nat := rkey (0x2310 + n) 0x05
/-- OFF_SLOT (spec/10_sequencer.md, 0x2310+n:06). -/
def offSlot (n : Nat) : Nat := rkey (0x2310 + n) 0x06
/-- ON_TIMEOUT (spec/10_sequencer.md, 0x2310+n:07). -/
def onTimeout (n : Nat) : Nat := rkey (0x2310 + n) 0x07
/-- OFF_WAIT_MAX (spec/10_sequencer.md, 0x2310+n:08). -/
def offWaitMax (n : Nat) : Nat := rkey (0x2310 + n) 0x08
/-- FALL_DELAY (spec/10_sequencer.md, 0x2310+n:09). -/
def fallDelay (n : Nat) : Nat := rkey (0x2310 + n) 0x09
/-- GOOD_FILTER (spec/10_sequencer.md, 0x2310+n:0A). -/
def goodFilter (n : Nat) : Nat := rkey (0x2310 + n) 0x0A
/-- FAULT_FILTER (spec/10_sequencer.md, 0x2310+n:0B). -/
def faultFilter (n : Nat) : Nat := rkey (0x2310 + n) 0x0B
/-- WARN_FILTER (spec/10_sequencer.md, 0x2310+n:0C). -/
def warnFilter (n : Nat) : Nat := rkey (0x2310 + n) 0x0C
/-- RAIL_NOM (spec/10_sequencer.md, 0x2310+n:0D). -/
def railNom (n : Nat) : Nat := rkey (0x2310 + n) 0x0D
/-- VS_GAIN (spec/10_sequencer.md, 0x2310+n:0E). -/
def vsGain (n : Nat) : Nat := rkey (0x2310 + n) 0x0E
/-- UV_FAULT (spec/10_sequencer.md, 0x2310+n:0F). -/
def uvFault (n : Nat) : Nat := rkey (0x2310 + n) 0x0F
/-- UV_WARN (spec/10_sequencer.md, 0x2310+n:10). -/
def uvWarn (n : Nat) : Nat := rkey (0x2310 + n) 0x10
/-- OV_WARN (spec/10_sequencer.md, 0x2310+n:11). -/
def ovWarn (n : Nat) : Nat := rkey (0x2310 + n) 0x11
/-- OV_FAULT (spec/10_sequencer.md, 0x2310+n:12). -/
def ovFault (n : Nat) : Nat := rkey (0x2310 + n) 0x12
/-- OFF_LEVEL (spec/10_sequencer.md, 0x2310+n:13). -/
def offLevel (n : Nat) : Nat := rkey (0x2310 + n) 0x13
/-- LEVEL_HYST (spec/10_sequencer.md, 0x2310+n:14). -/
def levelHyst (n : Nat) : Nat := rkey (0x2310 + n) 0x14
/-- RAIL_ACTION (spec/10_sequencer.md, 0x2310+n:15). -/
def railAction (n : Nat) : Nat := rkey (0x2310 + n) 0x15
/-- RAIL_STATE (spec/10_sequencer.md, 0x2310+n:16). -/
def railState (n : Nat) : Nat := rkey (0x2310 + n) 0x16
/-- RAIL_V (spec/10_sequencer.md, 0x2310+n:17). -/
def railV (n : Nat) : Nat := rkey (0x2310 + n) 0x17
/-- RAIL_FLAGS (spec/10_sequencer.md, 0x2310+n:18). -/
def railFlags (n : Nat) : Nat := rkey (0x2310 + n) 0x18
/-- RISE_LAST (spec/10_sequencer.md, 0x2310+n:19). -/
def riseLast (n : Nat) : Nat := rkey (0x2310 + n) 0x19
/-- RISE_MAX (spec/10_sequencer.md, 0x2310+n:1A). -/
def riseMax (n : Nat) : Nat := rkey (0x2310 + n) 0x1A
/-- LAST_FAULT (spec/10_sequencer.md, 0x2310+n:1B). -/
def lastFault (n : Nat) : Nat := rkey (0x2310 + n) 0x1B
/-- FAULT_CAUSE (spec/10_sequencer.md, 0x2310+n:1C). -/
def faultCause (n : Nat) : Nat := rkey (0x2310 + n) 0x1C
/-- ON_COUNT (spec/10_sequencer.md, 0x2310+n:20). -/
def onCount (n : Nat) : Nat := rkey (0x2310 + n) 0x20
/-- FAIL_UP (spec/10_sequencer.md, 0x2310+n:21). -/
def failUp (n : Nat) : Nat := rkey (0x2310 + n) 0x21
/-- RUN_UV (spec/10_sequencer.md, 0x2310+n:22). -/
def runUv (n : Nat) : Nat := rkey (0x2310 + n) 0x22
/-- RUN_OV (spec/10_sequencer.md, 0x2310+n:23). -/
def runOv (n : Nat) : Nat := rkey (0x2310 + n) 0x23
/-- RUN_PG (spec/10_sequencer.md, 0x2310+n:24). -/
def runPg (n : Nat) : Nat := rkey (0x2310 + n) 0x24
/-- WARN_UV (spec/10_sequencer.md, 0x2310+n:25). -/
def warnUv (n : Nat) : Nat := rkey (0x2310 + n) 0x25
/-- WARN_OV (spec/10_sequencer.md, 0x2310+n:26). -/
def warnOv (n : Nat) : Nat := rkey (0x2310 + n) 0x26
/-- SLOW_FALL (spec/10_sequencer.md, 0x2310+n:27). -/
def slowFall (n : Nat) : Nat := rkey (0x2310 + n) 0x27
/-- LINK_STATE (spec/11_link_phy.md, 0x3000:01). -/
def linkState : Nat := rkey 0x3000 0x01
/-- LINK_UP (spec/11_link_phy.md, 0x3000:02). -/
def linkUp : Nat := rkey 0x3000 0x02
/-- RATE_MAX (spec/11_link_phy.md, 0x3000:03). -/
def rateMax : Nat := rkey 0x3000 0x03
/-- WIDTH_MAX (spec/11_link_phy.md, 0x3000:04). -/
def widthMax : Nat := rkey 0x3000 0x04
/-- LANE_MASK (spec/11_link_phy.md, 0x3000:05). -/
def laneMask : Nat := rkey 0x3000 0x05
/-- EQ_MODE (spec/11_link_phy.md, 0x3000:06). -/
def eqMode : Nat := rkey 0x3000 0x06
/-- FALLBACK_ORDER (spec/11_link_phy.md, 0x3000:07). -/
def fallbackOrder : Nat := rkey 0x3000 0x07
/-- BANK_EN (spec/11_link_phy.md, 0x3000:08). -/
def bankEn : Nat := rkey 0x3000 0x08
/-- IDLE_ENTRY (spec/11_link_phy.md, 0x3000:09). -/
def idleEntry : Nat := rkey 0x3000 0x09
/-- BANK_ENTRY (spec/11_link_phy.md, 0x3000:0A). -/
def bankEntry : Nat := rkey 0x3000 0x0A
/-- ERR_RETRAIN (spec/11_link_phy.md, 0x3000:0B). -/
def errRetrain : Nat := rkey 0x3000 0x0B
/-- LINK_RETRAIN (spec/11_link_phy.md, 0x3000:0C). -/
def linkRetrain : Nat := rkey 0x3000 0x0C
/-- RATE_NOW (spec/11_link_phy.md, 0x3000:10). -/
def rateNow : Nat := rkey 0x3000 0x10
/-- WIDTH_NOW (spec/11_link_phy.md, 0x3000:11). -/
def widthNow : Nat := rkey 0x3000 0x11
/-- RX_REVERSED (spec/11_link_phy.md, 0x3000:12). -/
def rxReversed : Nat := rkey 0x3000 0x12
/-- TX_REVERSED (spec/11_link_phy.md, 0x3000:13). -/
def txReversed : Nat := rkey 0x3000 0x13
/-- PARTNER_RATES (spec/11_link_phy.md, 0x3000:14). -/
def partnerRates : Nat := rkey 0x3000 0x14
/-- PARTNER_WIDTHS (spec/11_link_phy.md, 0x3000:15). -/
def partnerWidths : Nat := rkey 0x3000 0x15
/-- PARTNER_BANK (spec/11_link_phy.md, 0x3000:16). -/
def partnerBank : Nat := rkey 0x3000 0x16
/-- PHY_FLAGS (spec/11_link_phy.md, 0x3000:17). -/
def phyFlags : Nat := rkey 0x3000 0x17
/-- LINK_UP_STAMP (spec/11_link_phy.md, 0x3000:18). -/
def linkUpStamp : Nat := rkey 0x3000 0x18
/-- TRAIN_TIME (spec/11_link_phy.md, 0x3000:19). -/
def trainTime : Nat := rkey 0x3000 0x19
/-- LINK_DOWN_CAUSE (spec/11_link_phy.md, 0x3000:1A). -/
def linkDownCause : Nat := rkey 0x3000 0x1A
/-- TX_IDLE (spec/11_link_phy.md, 0x3000:1B). -/
def txIdle : Nat := rkey 0x3000 0x1B
/-- RX_IDLE (spec/11_link_phy.md, 0x3000:1C). -/
def rxIdle : Nat := rkey 0x3000 0x1C
/-- PROFILE (spec/11_link_phy.md, 0x3001:01). -/
def profile (i : Nat) : Nat := rkey 0x3001 (0x01 + i)
/-- TRAININGS (spec/11_link_phy.md, 0x3002:01). -/
def trainings : Nat := rkey 0x3002 0x01
/-- TRAIN_FAILS (spec/11_link_phy.md, 0x3002:02). -/
def trainFails : Nat := rkey 0x3002 0x02
/-- FAST_RETRAINS (spec/11_link_phy.md, 0x3002:03). -/
def fastRetrains : Nat := rkey 0x3002 0x03
/-- FULL_RETRAINS (spec/11_link_phy.md, 0x3002:04). -/
def fullRetrains : Nat := rkey 0x3002 0x04
/-- RATE_FALLBACKS (spec/11_link_phy.md, 0x3002:05). -/
def rateFallbacks : Nat := rkey 0x3002 0x05
/-- IDLE_ENTRIES (spec/11_link_phy.md, 0x3002:06). -/
def idleEntries : Nat := rkey 0x3002 0x06
/-- BANK_ENTRIES (spec/11_link_phy.md, 0x3002:07). -/
def bankEntries : Nat := rkey 0x3002 0x07
/-- BANK_WAKE_FAILS (spec/11_link_phy.md, 0x3002:08). -/
def bankWakeFails : Nat := rkey 0x3002 0x08
/-- PHY_VIOLATIONS (spec/11_link_phy.md, 0x3002:09). -/
def phyViolations : Nat := rkey 0x3002 0x09
/-- LINK_DOWNS (spec/11_link_phy.md, 0x3002:0A). -/
def linkDowns : Nat := rkey 0x3002 0x0A
/-- CODE_ERRS_ALL (spec/11_link_phy.md, 0x3002:0B). -/
def codeErrsAll : Nat := rkey 0x3002 0x0B
/-- LANE_PROFILE (spec/11_link_phy.md, 0x3010+p:01). -/
def laneProfile (p : Nat) : Nat := rkey (0x3010 + p) 0x01
/-- LANE_LOGICAL (spec/11_link_phy.md, 0x3010+p:02). -/
def laneLogical (p : Nat) : Nat := rkey (0x3010 + p) 0x02
/-- LANE_STATUS (spec/11_link_phy.md, 0x3010+p:03). -/
def laneStatus (p : Nat) : Nat := rkey (0x3010 + p) 0x03
/-- LANE_SKEW (spec/11_link_phy.md, 0x3010+p:04). -/
def laneSkew (p : Nat) : Nat := rkey (0x3010 + p) 0x04
/-- CTLE_NOW (spec/11_link_phy.md, 0x3010+p:05). -/
def ctleNow (p : Nat) : Nat := rkey (0x3010 + p) 0x05
/-- DFE_TAPS (spec/11_link_phy.md, 0x3010+p:06). -/
def dfeTaps (p : Nat) : Nat := rkey (0x3010 + p) 0x06
/-- CODE_ERRS (spec/11_link_phy.md, 0x3010+p:07). -/
def codeErrs (p : Nat) : Nat := rkey (0x3010 + p) 0x07
/-- LOCK_LOSSES (spec/11_link_phy.md, 0x3010+p:08). -/
def lockLosses (p : Nat) : Nat := rkey (0x3010 + p) 0x08
/-- SKP_ADJ (spec/11_link_phy.md, 0x3010+p:09). -/
def skpAdj (p : Nat) : Nat := rkey (0x3010 + p) 0x09
/-- EYE_CMD (spec/11_link_phy.md, 0x3080+p:01). -/
def eyeCmd (p : Nat) : Nat := rkey (0x3080 + p) 0x01
/-- EYE_TYPE (spec/11_link_phy.md, 0x3080+p:02). -/
def eyeType (p : Nat) : Nat := rkey (0x3080 + p) 0x02
/-- EYE_H_STEP (spec/11_link_phy.md, 0x3080+p:03). -/
def eyeHStep (p : Nat) : Nat := rkey (0x3080 + p) 0x03
/-- EYE_V_STEP (spec/11_link_phy.md, 0x3080+p:04). -/
def eyeVStep (p : Nat) : Nat := rkey (0x3080 + p) 0x04
/-- EYE_DWELL (spec/11_link_phy.md, 0x3080+p:05). -/
def eyeDwell (p : Nat) : Nat := rkey (0x3080 + p) 0x05
/-- EYE_POINTS (spec/11_link_phy.md, 0x3080+p:06). -/
def eyePoints (p : Nat) : Nat := rkey (0x3080 + p) 0x06
/-- EYE_DONE (spec/11_link_phy.md, 0x3080+p:07). -/
def eyeDone (p : Nat) : Nat := rkey (0x3080 + p) 0x07
/-- EYE_RESULT (spec/11_link_phy.md, 0x3080+p:08). -/
def eyeResult (p : Nat) : Nat := rkey (0x3080 + p) 0x08
/-- EYE_WIDTH (spec/11_link_phy.md, 0x3080+p:09). -/
def eyeWidth (p : Nat) : Nat := rkey (0x3080 + p) 0x09
/-- EYE_HEIGHT (spec/11_link_phy.md, 0x3080+p:0A). -/
def eyeHeight (p : Nat) : Nat := rkey (0x3080 + p) 0x0A
/-- EYE_CODE_UV (spec/11_link_phy.md, 0x3080+p:0B). -/
def eyeCodeUv (p : Nat) : Nat := rkey (0x3080 + p) 0x0B
/-- EYE_STAMP (spec/11_link_phy.md, 0x3080+p:0C). -/
def eyeStamp (p : Nat) : Nat := rkey (0x3080 + p) 0x0C
/-- LL_STATE (spec/12_link_layer.md, 0x3100:01). -/
def llState : Nat := rkey 0x3100 0x01
/-- SESSION (spec/12_link_layer.md, 0x3100:02). -/
def session : Nat := rkey 0x3100 0x02
/-- TX_NEXT_SEQ (spec/12_link_layer.md, 0x3100:03). -/
def txNextSeq : Nat := rkey 0x3100 0x03
/-- TX_OLDEST_SEQ (spec/12_link_layer.md, 0x3100:04). -/
def txOldestSeq : Nat := rkey 0x3100 0x04
/-- RX_EXPECTED (spec/12_link_layer.md, 0x3100:05). -/
def rxExpected : Nat := rkey 0x3100 0x05
/-- RETRY_BYTES (spec/12_link_layer.md, 0x3100:06). -/
def retryBytes : Nat := rkey 0x3100 0x06
/-- REPLAY_TIMEOUT (spec/12_link_layer.md, 0x3100:07). -/
def replayTimeout : Nat := rkey 0x3100 0x07
/-- REPLAY_LIMIT (spec/12_link_layer.md, 0x3100:08). -/
def replayLimit : Nat := rkey 0x3100 0x08
/-- ACK_COALESCE (spec/12_link_layer.md, 0x3100:09). -/
def ackCoalesce : Nat := rkey 0x3100 0x09
/-- COMMIT_GAP (spec/12_link_layer.md, 0x3100:0A). -/
def commitGap : Nat := rkey 0x3100 0x0A
/-- LL_FLAGS (spec/12_link_layer.md, 0x3100:0B). -/
def llFlags : Nat := rkey 0x3100 0x0B
/-- LAST_CTRL (spec/12_link_layer.md, 0x3100:0C). -/
def lastCtrl : Nat := rkey 0x3100 0x0C
/-- STALLED (spec/12_link_layer.md, 0x3100:0D). -/
def stalled : Nat := rkey 0x3100 0x0D
/-- QUARANTINE_LEFT (spec/12_link_layer.md, 0x3100:0E). -/
def quarantineLeft : Nat := rkey 0x3100 0x0E
/-- CREDIT_CAP (spec/12_link_layer.md, 0x3100:10). -/
def creditCap (i : Nat) : Nat := rkey 0x3100 (0x10 + i)
/-- CREDIT_STEP (spec/12_link_layer.md, 0x3100:18). -/
def creditStep (i : Nat) : Nat := rkey 0x3100 (0x18 + i)
/-- LIMIT (spec/12_link_layer.md, 0x3100:20). -/
def limit (i : Nat) : Nat := rkey 0x3100 (0x20 + i)
/-- RXUNITS (spec/12_link_layer.md, 0x3100:28). -/
def rxunits (i : Nat) : Nat := rkey 0x3100 (0x28 + i)
/-- NEXT_REC (spec/12_link_layer.md, 0x3100:30). -/
def nextRec (i : Nat) : Nat := rkey 0x3100 (0x30 + i)
/-- FRAMES_RX (spec/12_link_layer.md, 0x3101:01). -/
def framesRx : Nat := rkey 0x3101 0x01
/-- FRAMES_TX (spec/12_link_layer.md, 0x3101:02). -/
def framesTx : Nat := rkey 0x3101 0x02
/-- CRC_ERRS (spec/12_link_layer.md, 0x3101:03). -/
def crcErrs : Nat := rkey 0x3101 0x03
/-- FRAMING_ERRS (spec/12_link_layer.md, 0x3101:04). -/
def framingErrs : Nat := rkey 0x3101 0x04
/-- NAKS_SENT (spec/12_link_layer.md, 0x3101:05). -/
def naksSent : Nat := rkey 0x3101 0x05
/-- NAKS_RX (spec/12_link_layer.md, 0x3101:06). -/
def naksRx : Nat := rkey 0x3101 0x06
/-- REPLAYS (spec/12_link_layer.md, 0x3101:07). -/
def replays : Nat := rkey 0x3101 0x07
/-- REPLAY_RETRAINS (spec/12_link_layer.md, 0x3101:08). -/
def replayRetrains : Nat := rkey 0x3101 0x08
/-- DUPS_DROPPED (spec/12_link_layer.md, 0x3101:09). -/
def dupsDropped : Nat := rkey 0x3101 0x09
/-- REC_DUPS (spec/12_link_layer.md, 0x3101:0A). -/
def recDups : Nat := rkey 0x3101 0x0A
/-- LL_VIOLATIONS (spec/12_link_layer.md, 0x3101:0B). -/
def llViolations : Nat := rkey 0x3101 0x0B
/-- LL_QUARANTINES (spec/12_link_layer.md, 0x3101:0C). -/
def llQuarantines : Nat := rkey 0x3101 0x0C
/-- MARGIN (spec/13_mirror_and_admission.md, 0x3200:01). -/
def margin : Nat := rkey 0x3200 0x01
/-- ADM_STATE (spec/13_mirror_and_admission.md, 0x3200:02). -/
def admState : Nat := rkey 0x3200 0x02
/-- ADM_CAUSE (spec/13_mirror_and_admission.md, 0x3200:03). -/
def admCause : Nat := rkey 0x3200 0x03
/-- REQUIREMENT (spec/13_mirror_and_admission.md, 0x3200:04). -/
def requirement : Nat := rkey 0x3200 0x04
/-- HOLD_TERM (spec/13_mirror_and_admission.md, 0x3200:05). -/
def holdTerm : Nat := rkey 0x3200 0x05
/-- PROG_TERM (spec/13_mirror_and_admission.md, 0x3200:06). -/
def progTerm : Nat := rkey 0x3200 0x06
/-- SEAL_E (spec/13_mirror_and_admission.md, 0x3200:07). -/
def sealE : Nat := rkey 0x3200 0x07
/-- PROG_E (spec/13_mirror_and_admission.md, 0x3200:08). -/
def progE : Nat := rkey 0x3200 0x08
/-- DRAIN_WINDOW (spec/13_mirror_and_admission.md, 0x3200:09). -/
def drainWindow : Nat := rkey 0x3200 0x09
/-- ADM_OPEN_RUN (spec/13_mirror_and_admission.md, 0x3200:0A). -/
def admOpenRun : Nat := rkey 0x3200 0x0A
/-- DECLARED_DIRTY (spec/13_mirror_and_admission.md, 0x3200:0B). -/
def declaredDirty : Nat := rkey 0x3200 0x0B
/-- RX_SINCE_DECL (spec/13_mirror_and_admission.md, 0x3200:0C). -/
def rxSinceDecl : Nat := rkey 0x3200 0x0C
/-- DIRTY_EFF (spec/13_mirror_and_admission.md, 0x3200:0D). -/
def dirtyEff : Nat := rkey 0x3200 0x0D
/-- CRUCIBLE_FILL (spec/13_mirror_and_admission.md, 0x3200:0E). -/
def crucibleFill : Nat := rkey 0x3200 0x0E
/-- OUT_TOTAL (spec/13_mirror_and_admission.md, 0x3200:0F). -/
def outTotal : Nat := rkey 0x3200 0x0F
/-- LINK_UNITS (spec/13_mirror_and_admission.md, 0x3200:10). -/
def linkUnits : Nat := rkey 0x3200 0x10
/-- POUR_UNITS (spec/13_mirror_and_admission.md, 0x3200:11). -/
def pourUnits : Nat := rkey 0x3200 0x11
/-- MIRRORED (spec/13_mirror_and_admission.md, 0x3200:12). -/
def mirrored : Nat := rkey 0x3200 0x12
/-- MIRROR_CAP (spec/13_mirror_and_admission.md, 0x3200:13). -/
def mirrorCap : Nat := rkey 0x3200 0x13
/-- MOULD_UNITS (spec/13_mirror_and_admission.md, 0x3200:14). -/
def mouldUnits : Nat := rkey 0x3200 0x14
/-- DRAIN_CAP_ALL (spec/13_mirror_and_admission.md, 0x3200:15). -/
def drainCapAll : Nat := rkey 0x3200 0x15
/-- DRAIN_CAP_LINK (spec/13_mirror_and_admission.md, 0x3200:16). -/
def drainCapLink : Nat := rkey 0x3200 0x16
/-- MARGIN_MIN (spec/13_mirror_and_admission.md, 0x3200:17). -/
def marginMin : Nat := rkey 0x3200 0x17
/-- MR_FLAGS (spec/13_mirror_and_admission.md, 0x3200:18). -/
def mrFlags : Nat := rkey 0x3200 0x18
/-- ADM_CLOSES (spec/13_mirror_and_admission.md, 0x3201:01). -/
def admCloses : Nat := rkey 0x3201 0x01
/-- ADM_CLOSED_TICKS (spec/13_mirror_and_admission.md, 0x3201:02). -/
def admClosedTicks : Nat := rkey 0x3201 0x02
/-- RECORDS_ACCEPTED (spec/13_mirror_and_admission.md, 0x3201:03). -/
def recordsAccepted : Nat := rkey 0x3201 0x03
/-- RECORDS_COMMITTED (spec/13_mirror_and_admission.md, 0x3201:04). -/
def recordsCommitted : Nat := rkey 0x3201 0x04
/-- EPOCHS_COMPLETED (spec/13_mirror_and_admission.md, 0x3201:05). -/
def epochsCompleted : Nat := rkey 0x3201 0x05
/-- RETIRES (spec/13_mirror_and_admission.md, 0x3201:06). -/
def retires : Nat := rkey 0x3201 0x06
/-- RETIRES_REFUSED (spec/13_mirror_and_admission.md, 0x3201:07). -/
def retiresRefused : Nat := rkey 0x3201 0x07
/-- DIRTY_FRAMES (spec/13_mirror_and_admission.md, 0x3201:08). -/
def dirtyFrames : Nat := rkey 0x3201 0x08
/-- STREAM_EN (spec/13_mirror_and_admission.md, 0x3210+s:01). -/
def streamEn (s : Nat) : Nat := rkey (0x3210 + s) 0x01
/-- STREAM_OPEN (spec/13_mirror_and_admission.md, 0x3210+s:02). -/
def streamOpen (s : Nat) : Nat := rkey (0x3210 + s) 0x02
/-- STREAM_HAS (spec/13_mirror_and_admission.md, 0x3210+s:03). -/
def streamHas (s : Nat) : Nat := rkey (0x3210 + s) 0x03
/-- LAST_COMMIT (spec/13_mirror_and_admission.md, 0x3210+s:04). -/
def lastCommit (s : Nat) : Nat := rkey (0x3210 + s) 0x04
/-- EPOCH_STATE (spec/13_mirror_and_admission.md, 0x3210+s:05). -/
def epochState (s : Nat) : Nat := rkey (0x3210 + s) 0x05
/-- OPEN_EPOCH (spec/13_mirror_and_admission.md, 0x3210+s:06). -/
def openEpoch (s : Nat) : Nat := rkey (0x3210 + s) 0x06
/-- LAST_COMPLETE (spec/13_mirror_and_admission.md, 0x3210+s:07). -/
def lastComplete (s : Nat) : Nat := rkey (0x3210 + s) 0x07
/-- LAST_RETIRED (spec/13_mirror_and_admission.md, 0x3210+s:08). -/
def lastRetired (s : Nat) : Nat := rkey (0x3210 + s) 0x08
/-- RETIRE_DURABLE (spec/13_mirror_and_admission.md, 0x3210+s:09). -/
def retireDurable (s : Nat) : Nat := rkey (0x3210 + s) 0x09
/-- CRUCIBLE_UNITS (spec/13_mirror_and_admission.md, 0x3210+s:0A). -/
def crucibleUnits (s : Nat) : Nat := rkey (0x3210 + s) 0x0A
/-- MIRRORED_UNITS (spec/13_mirror_and_admission.md, 0x3210+s:0B). -/
def mirroredUnits (s : Nat) : Nat := rkey (0x3210 + s) 0x0B
/-- COMMIT_STAMP (spec/13_mirror_and_admission.md, 0x3210+s:0C). -/
def commitStamp (s : Nat) : Nat := rkey (0x3210 + s) 0x0C
/-- POUR_STATE (spec/14_pour_and_shakeout.md, 0x4000:01). -/
def pourState : Nat := rkey 0x4000 0x01
/-- POUR_CAUSE (spec/14_pour_and_shakeout.md, 0x4000:02). -/
def pourCause : Nat := rkey 0x4000 0x02
/-- POUR_TRIGGERS (spec/14_pour_and_shakeout.md, 0x4000:03). -/
def pourTriggers : Nat := rkey 0x4000 0x03
/-- POUR_STAMP (spec/14_pour_and_shakeout.md, 0x4000:04). -/
def pourStamp : Nat := rkey 0x4000 0x04
/-- DRAIN_END (spec/14_pour_and_shakeout.md, 0x4000:05). -/
def drainEnd : Nat := rkey 0x4000 0x05
/-- POUR_ALLOW (spec/14_pour_and_shakeout.md, 0x4000:06). -/
def pourAllow : Nat := rkey 0x4000 0x06
/-- POUR_RX (spec/14_pour_and_shakeout.md, 0x4000:07). -/
def pourRx : Nat := rkey 0x4000 0x07
/-- POUR_MARGIN (spec/14_pour_and_shakeout.md, 0x4000:08). -/
def pourMargin : Nat := rkey 0x4000 0x08
/-- SEAL_STAMP (spec/14_pour_and_shakeout.md, 0x4000:09). -/
def sealStamp : Nat := rkey 0x4000 0x09
/-- HEAT_LAST (spec/14_pour_and_shakeout.md, 0x4000:0A). -/
def heatLast : Nat := rkey 0x4000 0x0A
/-- HEAT_LOCAL (spec/14_pour_and_shakeout.md, 0x4000:0B). -/
def heatLocal : Nat := rkey 0x4000 0x0B
/-- POUR_FLAGS (spec/14_pour_and_shakeout.md, 0x4000:0C). -/
def pourFlags : Nat := rkey 0x4000 0x0C
/-- HOST_RST_POLICY (spec/14_pour_and_shakeout.md, 0x4000:10). -/
def hostRstPolicy : Nat := rkey 0x4000 0x10
/-- PWD_DRAIN (spec/14_pour_and_shakeout.md, 0x4000:11). -/
def pwdDrain : Nat := rkey 0x4000 0x11
/-- PWD_SEAL (spec/14_pour_and_shakeout.md, 0x4000:12). -/
def pwdSeal : Nat := rkey 0x4000 0x12
/-- PWD_OFF (spec/14_pour_and_shakeout.md, 0x4000:13). -/
def pwdOff : Nat := rkey 0x4000 0x13
/-- REST_EXIT (spec/14_pour_and_shakeout.md, 0x4000:14). -/
def restExit : Nat := rkey 0x4000 0x14
/-- REST_RETURN (spec/14_pour_and_shakeout.md, 0x4000:15). -/
def restReturn : Nat := rkey 0x4000 0x15
/-- REST_WAKE (spec/14_pour_and_shakeout.md, 0x4000:16). -/
def restWake : Nat := rkey 0x4000 0x16
/-- SHAKE_STATE (spec/14_pour_and_shakeout.md, 0x4000:20). -/
def shakeState : Nat := rkey 0x4000 0x20
/-- SHAKE_HEAT (spec/14_pour_and_shakeout.md, 0x4000:21). -/
def shakeHeat : Nat := rkey 0x4000 0x21
/-- SHAKE_ABANDON (spec/14_pour_and_shakeout.md, 0x4000:22). -/
def shakeAbandon : Nat := rkey 0x4000 0x22
/-- SHAKE_RELEASED (spec/14_pour_and_shakeout.md, 0x4000:23). -/
def shakeReleased : Nat := rkey 0x4000 0x23
/-- SHAKE_STAMP (spec/14_pour_and_shakeout.md, 0x4000:24). -/
def shakeStamp : Nat := rkey 0x4000 0x24
/-- SHAKE_POS (spec/14_pour_and_shakeout.md, 0x4000:30). -/
def shakePos (i : Nat) : Nat := rkey 0x4000 (0x30 + i)
/-- DROSS_RECS (spec/14_pour_and_shakeout.md, 0x4000:38). -/
def drossRecs (i : Nat) : Nat := rkey 0x4000 (0x38 + i)
/-- DROSS_EPOCH (spec/14_pour_and_shakeout.md, 0x4000:40). -/
def drossEpoch (i : Nat) : Nat := rkey 0x4000 (0x40 + i)
/-- POURS (spec/14_pour_and_shakeout.md, 0x4000:60). -/
def pours : Nat := rkey 0x4000 0x60
/-- EMPTY_POURS (spec/14_pour_and_shakeout.md, 0x4000:61). -/
def emptyPours : Nat := rkey 0x4000 0x61
/-- SEALS (spec/14_pour_and_shakeout.md, 0x4000:62). -/
def seals : Nat := rkey 0x4000 0x62
/-- DROSS_TOTAL (spec/14_pour_and_shakeout.md, 0x4000:63). -/
def drossTotal : Nat := rkey 0x4000 0x63
/-- HOST_RESETS (spec/14_pour_and_shakeout.md, 0x4000:64). -/
def hostResets : Nat := rkey 0x4000 0x64
/-- PWD_FIRES (spec/14_pour_and_shakeout.md, 0x4000:65). -/
def pwdFires : Nat := rkey 0x4000 0x65
/-- SHAKEOUTS (spec/14_pour_and_shakeout.md, 0x4000:66). -/
def shakeouts : Nat := rkey 0x4000 0x66
/-- SHAKE_RESUMES (spec/14_pour_and_shakeout.md, 0x4000:67). -/
def shakeResumes : Nat := rkey 0x4000 0x67
/-- CONFIRMS (spec/14_pour_and_shakeout.md, 0x4000:68). -/
def confirms : Nat := rkey 0x4000 0x68
/-- REST_EXITS (spec/14_pour_and_shakeout.md, 0x4000:69). -/
def restExits : Nat := rkey 0x4000 0x69
/-- IS_STATE (spec/15_image_store.md, 0x4100:01). -/
def isState : Nat := rkey 0x4100 0x01
/-- IS_FLAGS (spec/15_image_store.md, 0x4100:02). -/
def isFlags : Nat := rkey 0x4100 0x02
/-- SCAN_RESULT (spec/15_image_store.md, 0x4100:03). -/
def scanResult : Nat := rkey 0x4100 0x03
/-- SCAN_TIME (spec/15_image_store.md, 0x4100:04). -/
def scanTime : Nat := rkey 0x4100 0x04
/-- ROW_SEQ_NOW (spec/15_image_store.md, 0x4100:05). -/
def rowSeqNow : Nat := rkey 0x4100 0x05
/-- PAGE_SEQ_NEXT (spec/15_image_store.md, 0x4100:06). -/
def pageSeqNext : Nat := rkey 0x4100 0x06
/-- OPEN_ROW_MASK (spec/15_image_store.md, 0x4100:07). -/
def openRowMask : Nat := rkey 0x4100 0x07
/-- LOG_ROWS (spec/15_image_store.md, 0x4100:08). -/
def logRows : Nat := rkey 0x4100 0x08
/-- PREPARED_ROWS (spec/15_image_store.md, 0x4100:09). -/
def preparedRows : Nat := rkey 0x4100 0x09
/-- FETTLE_ELIGIBLE (spec/15_image_store.md, 0x4100:0A). -/
def fettleEligible : Nat := rkey 0x4100 0x0A
/-- MOULD_RESERVE (spec/15_image_store.md, 0x4100:0B). -/
def mouldReserve : Nat := rkey 0x4100 0x0B
/-- PAGE_WAIT (spec/15_image_store.md, 0x4100:0C). -/
def pageWait : Nat := rkey 0x4100 0x0C
/-- VERIFY_BITS (spec/15_image_store.md, 0x4100:0D). -/
def verifyBits : Nat := rkey 0x4100 0x0D
/-- WARN_BITS (spec/15_image_store.md, 0x4100:0E). -/
def warnBits : Nat := rkey 0x4100 0x0E
/-- READ_RETRIES (spec/15_image_store.md, 0x4100:0F). -/
def readRetries : Nat := rkey 0x4100 0x0F
/-- ERASE_SUSPEND_MAX (spec/15_image_store.md, 0x4100:10). -/
def eraseSuspendMax : Nat := rkey 0x4100 0x10
/-- ERASE_STATE (spec/15_image_store.md, 0x4100:11). -/
def eraseState : Nat := rkey 0x4100 0x11
/-- ERASE_BLOCK (spec/15_image_store.md, 0x4100:12). -/
def eraseBlock : Nat := rkey 0x4100 0x12
/-- LAST_SEAL_PAGE (spec/15_image_store.md, 0x4100:13). -/
def lastSealPage : Nat := rkey 0x4100 0x13
/-- UNREADABLE_EPOCH (spec/15_image_store.md, 0x4100:20). -/
def unreadableEpoch (i : Nat) : Nat := rkey 0x4100 (0x20 + i)
/-- PAGES_PROGRAMMED (spec/15_image_store.md, 0x4101:01). -/
def pagesProgrammed : Nat := rkey 0x4101 0x01
/-- PROG_FAILS (spec/15_image_store.md, 0x4101:02). -/
def progFails : Nat := rkey 0x4101 0x02
/-- ERASES (spec/15_image_store.md, 0x4101:03). -/
def erases : Nat := rkey 0x4101 0x03
/-- ERASE_FAILS (spec/15_image_store.md, 0x4101:04). -/
def eraseFails : Nat := rkey 0x4101 0x04
/-- ERASE_SUSPENDS (spec/15_image_store.md, 0x4101:05). -/
def eraseSuspends : Nat := rkey 0x4101 0x05
/-- REERASES (spec/15_image_store.md, 0x4101:06). -/
def reerases : Nat := rkey 0x4101 0x06
/-- HALF_ERASED (spec/15_image_store.md, 0x4101:07). -/
def halfErased : Nat := rkey 0x4101 0x07
/-- ROWS_OPENED (spec/15_image_store.md, 0x4101:08). -/
def rowsOpened : Nat := rkey 0x4101 0x08
/-- ROWS_CLOSED_AT_START (spec/15_image_store.md, 0x4101:09). -/
def rowsClosedAtStart : Nat := rkey 0x4101 0x09
/-- RECOVERED_SEALS (spec/15_image_store.md, 0x4101:0A). -/
def recoveredSeals : Nat := rkey 0x4101 0x0A
/-- READ_RETRIES_OK (spec/15_image_store.md, 0x4101:0B). -/
def readRetriesOk : Nat := rkey 0x4101 0x0B
/-- UNREADABLE_RECS (spec/15_image_store.md, 0x4101:0C). -/
def unreadableRecs : Nat := rkey 0x4101 0x0C
/-- GROWN_BAD_COUNT (spec/15_image_store.md, 0x4101:0D). -/
def grownBadCount : Nat := rkey 0x4101 0x0D
/-- DIE_STATE (spec/15_image_store.md, 0x4110+d:01). -/
def dieState (d : Nat) : Nat := rkey (0x4110 + d) 0x01
/-- GOOD (spec/15_image_store.md, 0x4110+d:02). -/
def good (d : Nat) (i : Nat) : Nat := rkey (0x4110 + d) (0x02 + i)
/-- PREPARED (spec/15_image_store.md, 0x4110+d:06). -/
def prepared (d : Nat) (i : Nat) : Nat := rkey (0x4110 + d) (0x06 + i)
/-- FACTORY_BAD (spec/15_image_store.md, 0x4110+d:0A). -/
def factoryBad (d : Nat) (i : Nat) : Nat := rkey (0x4110 + d) (0x0A + i)
/-- GROWN_BAD (spec/15_image_store.md, 0x4110+d:0E). -/
def grownBad (d : Nat) (i : Nat) : Nat := rkey (0x4110 + d) (0x0E + i)
/-- ERASE_MAX (spec/15_image_store.md, 0x4110+d:12). -/
def eraseMax (d : Nat) : Nat := rkey (0x4110 + d) 0x12
/-- ERASE_MEAN (spec/15_image_store.md, 0x4110+d:13). -/
def eraseMean (d : Nat) : Nat := rkey (0x4110 + d) 0x13
/-- MAX_CORRECTED (spec/15_image_store.md, 0x4110+d:14). -/
def maxCorrected (d : Nat) : Nat := rkey (0x4110 + d) 0x14
/-- FW_RUNNING_SLOT (spec/16_onchip_flash.md, 0x4200:01). -/
def fwRunningSlot : Nat := rkey 0x4200 0x01
/-- FW_SLOT_VALID (spec/16_onchip_flash.md, 0x4200:02). -/
def fwSlotValid : Nat := rkey 0x4200 0x02
/-- FW_SLOT0_VERSION (spec/16_onchip_flash.md, 0x4200:03). -/
def fwSlot0Version : Nat := rkey 0x4200 0x03
/-- FW_SLOT1_VERSION (spec/16_onchip_flash.md, 0x4200:04). -/
def fwSlot1Version : Nat := rkey 0x4200 0x04
/-- BOOT_PREF (spec/16_onchip_flash.md, 0x4200:05). -/
def bootPref : Nat := rkey 0x4200 0x05
/-- ROLLBACK_MIN (spec/16_onchip_flash.md, 0x4200:06). -/
def rollbackMin : Nat := rkey 0x4200 0x06
/-- FW_STATE (spec/16_onchip_flash.md, 0x4200:07). -/
def fwState : Nat := rkey 0x4200 0x07
/-- FW_CMD (spec/16_onchip_flash.md, 0x4200:08). -/
def fwCmd : Nat := rkey 0x4200 0x08
/-- FW_VERIFY_DIGEST (spec/16_onchip_flash.md, 0x4200:09). -/
def fwVerifyDigest : Nat := rkey 0x4200 0x09
/-- FW_VERIFY_RESULT (spec/16_onchip_flash.md, 0x4200:0A). -/
def fwVerifyResult : Nat := rkey 0x4200 0x0A
/-- FW_PROGRESS (spec/16_onchip_flash.md, 0x4200:0B). -/
def fwProgress : Nat := rkey 0x4200 0x0B
/-- FW_FLAGS (spec/16_onchip_flash.md, 0x4200:0C). -/
def fwFlags : Nat := rkey 0x4200 0x0C
/-- PROT_CODE (spec/16_onchip_flash.md, 0x4200:10). -/
def protCode : Nat := rkey 0x4200 0x10
/-- PROT_CODE_SET (spec/16_onchip_flash.md, 0x4200:11). -/
def protCodeSet : Nat := rkey 0x4200 0x11
/-- DEBUG_CLOSE (spec/16_onchip_flash.md, 0x4200:12). -/
def debugClose : Nat := rkey 0x4200 0x12
/-- PROT_FLAGS (spec/16_onchip_flash.md, 0x4200:13). -/
def protFlags : Nat := rkey 0x4200 0x13
/-- BANK_BUSY (spec/16_onchip_flash.md, 0x4200:20). -/
def bankBusy : Nat := rkey 0x4200 0x20
/-- LOG_HEAD_POS (spec/16_onchip_flash.md, 0x4200:21). -/
def logHeadPos : Nat := rkey 0x4200 0x21
/-- SUM_VALID (spec/16_onchip_flash.md, 0x4201:01). -/
def sumValid : Nat := rkey 0x4201 0x01
/-- CAST_PENDING (spec/16_onchip_flash.md, 0x4201:02). -/
def castPending : Nat := rkey 0x4201 0x02
/-- SUM_SEQ_LAST (spec/16_onchip_flash.md, 0x4201:03). -/
def sumSeqLast : Nat := rkey 0x4201 0x03
/-- SUMMARY (spec/16_onchip_flash.md, 0x4202:01). -/
def summary (i : Nat) : Nat := rkey 0x4202 (0x01 + i)
/-- CODE_ERASES (spec/16_onchip_flash.md, 0x4203:01). -/
def codeErases : Nat := rkey 0x4203 0x01
/-- DATA_ERASES (spec/16_onchip_flash.md, 0x4203:02). -/
def dataErases : Nat := rkey 0x4203 0x02
/-- WORDS_PROGRAMMED (spec/16_onchip_flash.md, 0x4203:03). -/
def wordsProgrammed : Nat := rkey 0x4203 0x03
/-- DF_SUSPENDS (spec/16_onchip_flash.md, 0x4203:04). -/
def dfSuspends : Nat := rkey 0x4203 0x04
/-- ECC_CORRECTED (spec/16_onchip_flash.md, 0x4203:05). -/
def eccCorrected : Nat := rkey 0x4203 0x05
/-- ECC_UNCORRECTABLE (spec/16_onchip_flash.md, 0x4203:06). -/
def eccUncorrectable : Nat := rkey 0x4203 0x06
/-- BUSY_FAULTS (spec/16_onchip_flash.md, 0x4203:07). -/
def busyFaults : Nat := rkey 0x4203 0x07
/-- BUSY_ABORTS (spec/16_onchip_flash.md, 0x4203:08). -/
def busyAborts : Nat := rkey 0x4203 0x08
/-- XO_ABORTS (spec/16_onchip_flash.md, 0x4203:09). -/
def xoAborts : Nat := rkey 0x4203 0x09
/-- FW_FALLBACKS (spec/16_onchip_flash.md, 0x4203:0A). -/
def fwFallbacks : Nat := rkey 0x4203 0x0A
/-- CONFIG_LOAD_SKIPS (spec/16_onchip_flash.md, 0x4203:0B). -/
def configLoadSkips : Nat := rkey 0x4203 0x0B
/-- NODE_ID (spec/17_cascade.md, 0x5000:01). -/
def nodeId : Nat := rkey 0x5000 0x01
/-- MASTER_STATE (spec/17_cascade.md, 0x5000:02). -/
def masterState : Nat := rkey 0x5000 0x02
/-- HB_PERIOD (spec/17_cascade.md, 0x5000:03). -/
def hbPeriod : Nat := rkey 0x5000 0x03
/-- POUR_PROPAGATE (spec/17_cascade.md, 0x5000:04). -/
def pourPropagate : Nat := rkey 0x5000 0x04
/-- PROPAGATE_PATHS (spec/17_cascade.md, 0x5000:05). -/
def propagatePaths : Nat := rkey 0x5000 0x05
/-- POUR_IN_EN (spec/17_cascade.md, 0x5000:06). -/
def pourInEn : Nat := rkey 0x5000 0x06
/-- CMD_IN_EN (spec/17_cascade.md, 0x5000:07). -/
def cmdInEn : Nat := rkey 0x5000 0x07
/-- POUR_IN_FILTER (spec/17_cascade.md, 0x5000:08). -/
def pourInFilter : Nat := rkey 0x5000 0x08
/-- POUR_PULSE (spec/17_cascade.md, 0x5000:09). -/
def pourPulse : Nat := rkey 0x5000 0x09
/-- POUR_LINE_STATE (spec/17_cascade.md, 0x5000:0A). -/
def pourLineState : Nat := rkey 0x5000 0x0A
/-- CAN_BUS_STATE (spec/17_cascade.md, 0x5000:0B). -/
def canBusState : Nat := rkey 0x5000 0x0B
/-- CAS_FLAGS (spec/17_cascade.md, 0x5000:0C). -/
def casFlags : Nat := rkey 0x5000 0x0C
/-- HEAT_ASSIGNED (spec/17_cascade.md, 0x5000:0D). -/
def heatAssigned : Nat := rkey 0x5000 0x0D
/-- EVENT_TX (spec/17_cascade.md, 0x5000:0E). -/
def eventTx : Nat := rkey 0x5000 0x0E
/-- FW_DIST_MASK (spec/17_cascade.md, 0x5000:10). -/
def fwDistMask : Nat := rkey 0x5000 0x10
/-- FW_DIST (spec/17_cascade.md, 0x5000:11). -/
def fwDist : Nat := rkey 0x5000 0x11
/-- FW_DIST_RESTART (spec/17_cascade.md, 0x5000:12). -/
def fwDistRestart : Nat := rkey 0x5000 0x12
/-- FW_DIST_NODE (spec/17_cascade.md, 0x5000:13). -/
def fwDistNode : Nat := rkey 0x5000 0x13
/-- POUR_CMDS_TX (spec/17_cascade.md, 0x5001:01). -/
def pourCmdsTx : Nat := rkey 0x5001 0x01
/-- POUR_CMDS_RX (spec/17_cascade.md, 0x5001:02). -/
def pourCmdsRx : Nat := rkey 0x5001 0x02
/-- POUR_PULSES_TX (spec/17_cascade.md, 0x5001:03). -/
def pourPulsesTx : Nat := rkey 0x5001 0x03
/-- POUR_IN_COUNT (spec/17_cascade.md, 0x5001:04). -/
def pourInCount : Nat := rkey 0x5001 0x04
/-- POUR_STUCK_COUNT (spec/17_cascade.md, 0x5001:05). -/
def pourStuckCount : Nat := rkey 0x5001 0x05
/-- HEAT_RX (spec/17_cascade.md, 0x5001:06). -/
def heatRx : Nat := rkey 0x5001 0x06
/-- STAMP_SYNC_RX (spec/17_cascade.md, 0x5001:07). -/
def stampSyncRx : Nat := rkey 0x5001 0x07
/-- HB_TX (spec/17_cascade.md, 0x5001:08). -/
def hbTx : Nat := rkey 0x5001 0x08
/-- EVENTS_TX (spec/17_cascade.md, 0x5001:09). -/
def eventsTx : Nat := rkey 0x5001 0x09
/-- EVENT_TX_DROPS (spec/17_cascade.md, 0x5001:0A). -/
def eventTxDrops : Nat := rkey 0x5001 0x0A
/-- CAS_BAD_FRAMES (spec/17_cascade.md, 0x5001:0B). -/
def casBadFrames : Nat := rkey 0x5001 0x0B
/-- CAN_DOMINANT_EPISODES (spec/17_cascade.md, 0x5001:0C). -/
def canDominantEpisodes : Nat := rkey 0x5001 0x0C
/-- BUS_OFF_COUNT (spec/17_cascade.md, 0x5001:0D). -/
def busOffCount : Nat := rkey 0x5001 0x0D
/-- FAULT_RELAY_TX (spec/17_cascade.md, 0x5001:0E). -/
def faultRelayTx : Nat := rkey 0x5001 0x0E
/-- FAULT_RELAY_RX (spec/17_cascade.md, 0x5001:0F). -/
def faultRelayRx : Nat := rkey 0x5001 0x0F
/-- M_STATE (spec/17_cascade.md, 0x5100+k:01). -/
def mState (k : Nat) : Nat := rkey (0x5100 + k) 0x01
/-- M_LAST_HEARD (spec/17_cascade.md, 0x5100+k:02). -/
def mLastHeard (k : Nat) : Nat := rkey (0x5100 + k) 0x02
/-- M_ACTIVITY (spec/17_cascade.md, 0x5100+k:03). -/
def mActivity (k : Nat) : Nat := rkey (0x5100 + k) 0x03
/-- M_FLAGS (spec/17_cascade.md, 0x5100+k:04). -/
def mFlags (k : Nat) : Nat := rkey (0x5100 + k) 0x04
/-- M_START_STEP (spec/17_cascade.md, 0x5100+k:05). -/
def mStartStep (k : Nat) : Nat := rkey (0x5100 + k) 0x05
/-- M_HEAT_LAST (spec/17_cascade.md, 0x5100+k:06). -/
def mHeatLast (k : Nat) : Nat := rkey (0x5100 + k) 0x06
/-- M_FW_VERSION (spec/17_cascade.md, 0x5100+k:07). -/
def mFwVersion (k : Nat) : Nat := rkey (0x5100 + k) 0x07
/-- M_EVENT_SEQ (spec/17_cascade.md, 0x5100+k:08). -/
def mEventSeq (k : Nat) : Nat := rkey (0x5100 + k) 0x08
/-- M_MISSED_EVENTS (spec/17_cascade.md, 0x5100+k:09). -/
def mMissedEvents (k : Nat) : Nat := rkey (0x5100 + k) 0x09
/-- M_BOOTS (spec/17_cascade.md, 0x5100+k:0A). -/
def mBoots (k : Nat) : Nat := rkey (0x5100 + k) 0x0A
/-- M_SERIAL (spec/17_cascade.md, 0x5100+k:0B). -/
def mSerial (k : Nat) : Nat := rkey (0x5100 + k) 0x0B
/-- M_HU_GROUP (spec/17_cascade.md, 0x5100+k:0C). -/
def mHuGroup (k : Nat) : Nat := rkey (0x5100 + k) 0x0C
/-- M_HU_WEIGHT (spec/17_cascade.md, 0x5100+k:0D). -/
def mHuWeight (k : Nat) : Nat := rkey (0x5100 + k) 0x0D
/-- M_LOAD_PEAK (spec/17_cascade.md, 0x5100+k:0E). -/
def mLoadPeak (k : Nat) : Nat := rkey (0x5100 + k) 0x0E
/-- M_VIOLATIONS (spec/17_cascade.md, 0x5100+k:0F). -/
def mViolations (k : Nat) : Nat := rkey (0x5100 + k) 0x0F
/-- FW_DIST_RESULT (spec/17_cascade.md, 0x5100+k:10). -/
def fwDistResult (k : Nat) : Nat := rkey (0x5100 + k) 0x10
/-- EVENT_SEQ (spec/18_events_and_faults.md, 0x6000:01). -/
def eventSeq : Nat := rkey 0x6000 0x01
/-- BOOT_COUNT (spec/18_events_and_faults.md, 0x6000:02). -/
def bootCount : Nat := rkey 0x6000 0x02
/-- LOG_OLDEST_SEQ (spec/18_events_and_faults.md, 0x6000:03). -/
def logOldestSeq : Nat := rkey 0x6000 0x03
/-- LOG_QUEUED (spec/18_events_and_faults.md, 0x6000:04). -/
def logQueued : Nat := rkey 0x6000 0x04
/-- LOG_DROPS (spec/18_events_and_faults.md, 0x6000:05). -/
def logDrops : Nat := rkey 0x6000 0x05
/-- TORN_AT_BOOT (spec/18_events_and_faults.md, 0x6000:06). -/
def tornAtBoot : Nat := rkey 0x6000 0x06
/-- FAULT_SUMMARY (spec/18_events_and_faults.md, 0x6000:07). -/
def faultSummary : Nat := rkey 0x6000 0x07
/-- EV_FLAGS (spec/18_events_and_faults.md, 0x6000:08). -/
def evFlags : Nat := rkey 0x6000 0x08
/-- LAST_FAULT_CODE (spec/18_events_and_faults.md, 0x6000:09). -/
def lastFaultCode : Nat := rkey 0x6000 0x09
/-- LAST_FAULT_STAMP (spec/18_events_and_faults.md, 0x6000:0A). -/
def lastFaultStamp : Nat := rkey 0x6000 0x0A
/-- LOG_FLUSH_PERIOD (spec/18_events_and_faults.md, 0x6000:0B). -/
def logFlushPeriod : Nat := rkey 0x6000 0x0B
/-- SRC_STATE (spec/18_events_and_faults.md, 0x6020+j:01). -/
def srcState (j : Nat) : Nat := rkey (0x6020 + j) 0x01
/-- QUAR_LEFT (spec/18_events_and_faults.md, 0x6020+j:02). -/
def quarLeft (j : Nat) : Nat := rkey (0x6020 + j) 0x02
/-- WINDOW_COUNT (spec/18_events_and_faults.md, 0x6020+j:03). -/
def windowCount (j : Nat) : Nat := rkey (0x6020 + j) 0x03
/-- SRC_QUARANTINES (spec/18_events_and_faults.md, 0x6020+j:04). -/
def srcQuarantines (j : Nat) : Nat := rkey (0x6020 + j) 0x04
/-- VIOL_TOTAL (spec/18_events_and_faults.md, 0x6020+j:05). -/
def violTotal (j : Nat) : Nat := rkey (0x6020 + j) 0x05
/-- VIOL (spec/18_events_and_faults.md, 0x6020+j:11). -/
def viol (j : Nat) (i : Nat) : Nat := rkey (0x6020 + j) (0x11 + i)
/-- LOG_CMD (spec/18_events_and_faults.md, 0x6100:01). -/
def logCmd : Nat := rkey 0x6100 0x01
/-- LOG_SEEK_SEQ (spec/18_events_and_faults.md, 0x6100:02). -/
def logSeekSeq : Nat := rkey 0x6100 0x02
/-- LOG_BATCH (spec/18_events_and_faults.md, 0x6100:03). -/
def logBatch : Nat := rkey 0x6100 0x03
/-- LOG_CURSOR (spec/18_events_and_faults.md, 0x6100:04). -/
def logCursor : Nat := rkey 0x6100 0x04
/-- LOG_READ_TORN (spec/18_events_and_faults.md, 0x6100:05). -/
def logReadTorn : Nat := rkey 0x6100 0x05
/-- LOG_FILTER (spec/18_events_and_faults.md, 0x6100:06). -/
def logFilter : Nat := rkey 0x6100 0x06
/-- BARRIER_STATE (spec/01_architecture.md, 0x7000:01). -/
def barrierState : Nat := rkey 0x7000 0x01
/-- BARRIER_CRC_ERRS (spec/01_architecture.md, 0x7000:02). -/
def barrierCrcErrs : Nat := rkey 0x7000 0x02
/-- BARRIER_LOSSES (spec/01_architecture.md, 0x7000:03). -/
def barrierLosses : Nat := rkey 0x7000 0x03
/-- HB_LOSSES (spec/01_architecture.md, 0x7000:04). -/
def hbLosses : Nat := rkey 0x7000 0x04
/-- RESET_CAUSE (spec/01_architecture.md, 0x7000:05). -/
def resetCause : Nat := rkey 0x7000 0x05
/-- CMD_RESENDS (spec/01_architecture.md, 0x7000:06). -/
def cmdResends : Nat := rkey 0x7000 0x06
/-- CMD_PATH_LOSSES (spec/01_architecture.md, 0x7000:07). -/
def cmdPathLosses : Nat := rkey 0x7000 0x07
/-- PAD_CONTENTION (spec/03_package_and_pads.md, 0x7000:10). -/
def padContention : Nat := rkey 0x7000 0x10
/-- PAD_LIMITED (spec/03_package_and_pads.md, 0x7000:11). -/
def padLimited : Nat := rkey 0x7000 0x11
/-- PAD_OFF (spec/03_package_and_pads.md, 0x7000:12). -/
def padOff : Nat := rkey 0x7000 0x12
/-- CONT_OFF_DELAY (spec/03_package_and_pads.md, 0x7000:13). -/
def contOffDelay : Nat := rkey 0x7000 0x13
/-- CONT_REARM (spec/03_package_and_pads.md, 0x7000:14). -/
def contRearm : Nat := rkey 0x7000 0x14
/-- PAD_READBACK (spec/03_package_and_pads.md, 0x7000:15). -/
def padReadback : Nat := rkey 0x7000 0x15
/-- ID_STRAPS (spec/03_package_and_pads.md, 0x7000:16). -/
def idStraps : Nat := rkey 0x7000 0x16
/-- CONT_COUNT (spec/03_package_and_pads.md, 0x7000:20). -/
def contCount (i : Nat) : Nat := rkey 0x7000 (0x20 + i)
/-- VBUS_IN_V (spec/04_electrical.md, 0x7000:30). -/
def vbusInV : Nat := rkey 0x7000 0x30
/-- VISO_V (spec/04_electrical.md, 0x7000:31). -/
def visoV : Nat := rkey 0x7000 0x31
/-- VLOG_V (spec/04_electrical.md, 0x7000:32). -/
def vlogV : Nat := rkey 0x7000 0x32
/-- USB_VBUS_V (spec/04_electrical.md, 0x7000:33). -/
def usbVbusV : Nat := rkey 0x7000 0x33
/-- LOGIC_I (spec/04_electrical.md, 0x7000:34). -/
def logicI : Nat := rkey 0x7000 0x34
/-- CASE_TEMP (spec/04_electrical.md, 0x7000:35). -/
def caseTemp : Nat := rkey 0x7000 0x35
/-- HV_DIE_TEMP (spec/04_electrical.md, 0x7000:36). -/
def hvDieTemp : Nat := rkey 0x7000 0x36
/-- CASE_TEMP_MAX (spec/04_electrical.md, 0x7000:37). -/
def caseTempMax : Nat := rkey 0x7000 0x37
/-- CASE_WARN (spec/04_electrical.md, 0x7000:38). -/
def caseWarn : Nat := rkey 0x7000 0x38
/-- ELEC_FLAGS (spec/04_electrical.md, 0x7000:39). -/
def elecFlags : Nat := rkey 0x7000 0x39
/-- ISO_LIMIT_COUNT (spec/04_electrical.md, 0x7000:3A). -/
def isoLimitCount : Nat := rkey 0x7000 0x3A
/-- ADM_HOLD_TICKS (spec/04_electrical.md, 0x7000:3B). -/
def admHoldTicks : Nat := rkey 0x7000 0x3B
/-- HIDE_GROUPS (spec/19_service.md, 0x7000:40). -/
def hideGroups : Nat := rkey 0x7000 0x40
/-- SVC_REPORT_CMD (spec/19_service.md, 0x7000:41). -/
def svcReportCmd : Nat := rkey 0x7000 0x41
/-- SVC_REPORT (spec/19_service.md, 0x7000:42). -/
def svcReport : Nat := rkey 0x7000 0x42
/-- SVC_SUMMARY (spec/19_service.md, 0x7000:43). -/
def svcSummary : Nat := rkey 0x7000 0x43
/-- SVC_DAMP_WATCH (spec/19_service.md, 0x7000:44). -/
def svcDampWatch : Nat := rkey 0x7000 0x44
/-- SVC_EYE_WATCH (spec/19_service.md, 0x7000:45). -/
def svcEyeWatch : Nat := rkey 0x7000 0x45
/-- SVC_EYE_ACT (spec/19_service.md, 0x7000:46). -/
def svcEyeAct : Nat := rkey 0x7000 0x46
/-- SVC_REPORTS (spec/19_service.md, 0x7000:47). -/
def svcReports : Nat := rkey 0x7000 0x47
/-- WIN_ADDR (spec/16_onchip_flash.md, 0x7F00:01). -/
def winAddr : Nat := rkey 0x7F00 0x01
/-- WIN_DATA (spec/16_onchip_flash.md, 0x7F00:02). -/
def winData : Nat := rkey 0x7F00 0x02
/-- WIN_LAST_ABORT (spec/16_onchip_flash.md, 0x7F00:03). -/
def winLastAbort : Nat := rkey 0x7F00 0x03

end Reg
end Sys2Proof.Machine
end

