-- ==== Sys2Proof/Machine/Dictionary.lean ====
section
/-! DEFINITION. The object dictionary (spec/02_object_dictionary.md): types, access and persistence classes, and for every
object of the chapters' parameter tables its rows: sub-index, type, access, persistence, unit code, default, the check a
written value meets (R52), and whether it is a flag parameter (R69). -/
namespace Sys2Proof.Machine

/-- Table OD-1's fifteen types. -/
inductive Ty where
  | bool | u8 | u16 | u32 | u64 | i8 | i16 | i32 | stamp48 | angle16 | enum8 | bits16 | bits32
  | str (n : Nat) | blob (n : Nat)
  deriving DecidableEq, Repr

/-- Table OD-3's access classes. -/
inductive Acc where
  | ro | rw | wo | rwu | rwi | cmd
  deriving DecidableEq, Repr

/-- Table OD-3's persistence classes. -/
inductive Per where
  | volatile | persisted | factory
  deriving DecidableEq, Repr

/-- What a written value must meet beside its type (R52): a range, a range in steps, zero or a range in steps, one of the
listed values, or no bit outside a mask. Bounds are of the value as its type reads it, signed where the type is. -/
inductive Chk where
  | any
  | range (lo hi : Int)
  | stepped (lo hi step : Int)
  | zeroOr (lo hi step : Int)
  | oneOf (l : List Nat)
  | bits (mask : Nat)
  deriving DecidableEq, Repr

/-- One parameter of an object. `dflt` is the encoded default, little-endian (R14, R51). -/
structure Row where
  sub : Nat
  ty : Ty
  acc : Acc
  per : Per
  unit : Nat
  dflt : Nat
  chk : Chk
  flag : Bool
  deriving DecidableEq, Repr

/-- A type's code (Table OD-1). -/
def tyCode : Ty → Nat
  | .bool => 0x01 | .u8 => 0x02 | .u16 => 0x03 | .u32 => 0x04 | .u64 => 0x05
  | .i8 => 0x06 | .i16 => 0x07 | .i32 => 0x08 | .stamp48 => 0x09 | .angle16 => 0x0A
  | .enum8 => 0x0B | .bits16 => 0x0C | .bits32 => 0x0D | .str _ => 0x0E | .blob _ => 0x0F

/-- A type's size in bytes (Table OD-1). -/
def tySize : Ty → Nat
  | .bool => 1 | .u8 => 1 | .u16 => 2 | .u32 => 4 | .u64 => 8
  | .i8 => 1 | .i16 => 2 | .i32 => 4 | .stamp48 => 6 | .angle16 => 2
  | .enum8 => 1 | .bits16 => 2 | .bits32 => 4 | .str n => n | .blob n => n

/-- Whether a type is read as two's complement (Table OD-1). -/
def tySigned : Ty → Bool
  | .i8 => true | .i16 => true | .i32 => true
  | .bool => false | .u8 => false | .u16 => false | .u32 => false | .u64 => false
  | .stamp48 => false | .angle16 => false | .enum8 => false | .bits16 => false | .bits32 => false
  | .str _ => false | .blob _ => false

/-- An access class's code (Table OD-3). -/
def accCode : Acc → Nat
  | .ro => 1 | .rw => 2 | .wo => 3 | .rwu => 4 | .rwi => 5 | .cmd => 6

/-- A persistence class's code (Table OD-3). -/
def perCode : Per → Nat
  | .volatile => 0 | .persisted => 1 | .factory => 2


def rows1000 : List Row := [
  ⟨0x01, (.str 16), .ro, .factory, 0, 0x303434362D4B524B, .any, false⟩,
  ⟨0x02, (.str 16), .ro, .factory, 0, 0x61686F766F6148, .any, false⟩,
  ⟨0x03, .u16, .ro, .factory, 0, Config.hwIssue, .any, false⟩,
  ⟨0x04, (.str 16), .ro, .factory, 0, Config.serialNo, .any, false⟩,
  ⟨0x05, .u32, .ro, .volatile, 0, 0, .any, false⟩,
  ⟨0x10, .bits16, .ro, .volatile, 0, 0x0000, .any, false⟩,
  ⟨0x11, .bool, .ro, .volatile, 0, 0, .any, false⟩,
  ⟨0x20, .enum8, .ro, .volatile, 0, 0, .any, false⟩,
  ⟨0x21, .bits16, .ro, .volatile, 0, 0, .any, false⟩,
  ⟨0x22, .u32, .ro, .volatile, 0, 0, .any, false⟩,
  ⟨0x30, .enum8, .ro, .volatile, 0, 1, .any, false⟩,
  ⟨0x31, .enum8, .ro, .volatile, 0, 0, .any, false⟩,
  ⟨0x32, .stamp48, .ro, .volatile, 0, 0, .any, false⟩,
  ⟨0x33, .stamp48, .ro, .volatile, 0, 0, .any, false⟩,
  ⟨0x34, .bits16, .rw, .volatile, 0, 0x0000, (.bits 0xFF), true⟩,
  ⟨0x35, .u32, .rw, .persisted, 7, 8192, (.stepped 1024 65536 1024), false⟩,
  ⟨0x36, .u32, .rw, .persisted, 7, 131072, (.stepped 16384 1048576 1024), false⟩,
  ⟨0x37, .u32, .ro, .volatile, 7, 0, .any, false⟩,
  ⟨0x38, .u8, .cmd, .volatile, 0, 0, .any, false⟩,
  ⟨0x3A, .u16, .ro, .volatile, 0, 0, .any, false⟩]
def rows1100 : List Row := [
  ⟨0x01, .u8, .cmd, .volatile, 0, 0, .any, false⟩,
  ⟨0x02, .enum8, .ro, .volatile, 0, 0, .any, false⟩,
  ⟨0x03, .u32, .ro, .volatile, 0, 0, .any, false⟩,
  ⟨0x04, .enum8, .ro, .volatile, 0, 0, .any, false⟩,
  ⟨0x05, .stamp48, .ro, .volatile, 0, 0, .any, false⟩,
  ⟨0x06, .bits16, .rw, .volatile, 0, 0x0000, (.bits 0x1F), true⟩,
  ⟨0x07, .u16, .ro, .volatile, 0, 0x0000, .any, false⟩,
  ⟨0x10, .enum8, .rwi, .persisted, 0, 2, (.oneOf [0, 1, 2, 3]), false⟩,
  ⟨0x11, .enum8, .rwi, .persisted, 0, 2, (.oneOf [0, 1, 2, 3, 4]), false⟩,
  ⟨0x20, .u8, .rw, .persisted, 0, 16, (.range 1 64), false⟩,
  ⟨0x21, .u8, .rw, .persisted, 0, 2, (.range 1 32), false⟩,
  ⟨0x22, .u8, .rw, .persisted, 0, 4, (.range 1 64), false⟩,
  ⟨0x23, .u8, .rw, .persisted, 0, 1, (.range 1 32), false⟩,
  ⟨0x30, .u8, .ro, .volatile, 0, 0, .any, false⟩]
def rows1200a : List Row := [
  ⟨0x01, .enum8, .ro, .volatile, 0, 5, .any, false⟩,
  ⟨0x02, .enum8, .rwi, .persisted, 0, 1, (.oneOf [0, 1]), false⟩,
  ⟨0x03, .u16, .rwi, .persisted, 0, 5000, (.range 4500 6600), false⟩,
  ⟨0x04, .u32, .ro, .volatile, 0, 0, .any, false⟩,
  ⟨0x05, .i16, .ro, .volatile, 8, 0, .any, false⟩,
  ⟨0x06, .u16, .ro, .volatile, 1, 0, .any, false⟩,
  ⟨0x07, .stamp48, .ro, .volatile, 0, 0, .any, false⟩,
  ⟨0x08, .angle16, .ro, .volatile, 8, 0, .any, false⟩,
  ⟨0x10, .u8, .rw, .persisted, 0, 50, (.range 30 80), false⟩,
  ⟨0x11, .u8, .rw, .persisted, 7, 32, (.range 8 64), false⟩,
  ⟨0x12, .u16, .rw, .persisted, 1, 800, (.range 800 10000), false⟩,
  ⟨0x13, .angle16, .rwi, .persisted, 8, 0, (.stepped 0 65535 64), false⟩,
  ⟨0x14, .u32, .rw, .persisted, 7, 524288, (.range 16384 4194304), false⟩,
  ⟨0x15, .u32, .ro, .volatile, 0, 0, .any, false⟩,
  ⟨0x16, .u32, .ro, .volatile, 0, 0, .any, false⟩,
  ⟨0x17, .stamp48, .ro, .volatile, 0, 0, .any, false⟩,
  ⟨0x18, .bits16, .rw, .volatile, 0, 0x0000, (.bits 0x7F), true⟩,
  ⟨0x19, .u32, .ro, .volatile, 0, 0, .any, false⟩,
  ⟨0x1A, .u16, .ro, .volatile, 7, 0, .any, false⟩,
  ⟨0x20, .u32, .ro, .volatile, 0, 0, .any, false⟩,
  ⟨0x21, .u32, .ro, .volatile, 0, 0, .any, false⟩,
  ⟨0x22, .u32, .ro, .volatile, 0, 0, .any, false⟩,
  ⟨0x23, .u32, .ro, .volatile, 0, 0, .any, false⟩,
  ⟨0x24, .u32, .ro, .volatile, 0, 0, .any, false⟩]
def rows1200b : List Row := [
  ⟨0x25, .u32, .ro, .volatile, 0, 0, .any, false⟩,
  ⟨0x26, .u32, .ro, .volatile, 0, 0, .any, false⟩,
  ⟨0x27, .u32, .ro, .volatile, 0, 0, .any, false⟩,
  ⟨0x28, .u32, .ro, .volatile, 0, 0, .any, false⟩,
  ⟨0x29, .u32, .ro, .volatile, 0, 0, .any, false⟩,
  ⟨0x2A, .u32, .ro, .volatile, 0, 0, .any, false⟩,
  ⟨0x2B, .u32, .ro, .volatile, 0, 0, .any, false⟩,
  ⟨0x2C, .u32, .ro, .volatile, 0, 0, .any, false⟩,
  ⟨0x30, .enum8, .ro, .volatile, 0, 0, .any, false⟩]
def rows1200 : List Row := rows1200a ++ rows1200b
def rows1300 : List Row := [
  ⟨0x01, .u64, .cmd, .volatile, 0, 0, .any, false⟩,
  ⟨0x02, .u8, .cmd, .volatile, 0, 0, .any, false⟩,
  ⟨0x03, .u8, .ro, .volatile, 0, 8, .any, false⟩,
  ⟨0x04, .u64, .cmd, .volatile, 0, 0, .any, false⟩,
  ⟨0x05, .bits16, .ro, .volatile, 0, 0x0000, .any, false⟩,
  ⟨0x10, .bits16, .rw, .volatile, 0, 0x0000, (.bits 0x7FF), false⟩,
  ⟨0x11, .bits16, .ro, .volatile, 0, 0x0000, .any, false⟩,
  ⟨0x12, .u8, .cmd, .volatile, 0, 0, .any, false⟩]
def rows2000 : List Row := [
  ⟨0x01, .bool, .rw, .persisted, 0, 1, .any, false⟩,
  ⟨0x02, .enum8, .ro, .volatile, 0, 0, .any, false⟩,
  ⟨0x03, .bits16, .ro, .volatile, 0, 0x0000, .any, false⟩,
  ⟨0x04, .enum8, .ro, .volatile, 0, 0, .any, false⟩,
  ⟨0x05, .stamp48, .ro, .volatile, 0, 0, .any, false⟩,
  ⟨0x06, .u8, .ro, .volatile, 0, 0, .any, false⟩,
  ⟨0x07, .enum8, .ro, .volatile, 0, 0, .any, false⟩,
  ⟨0x08, .u8, .cmd, .volatile, 0, 0, .any, false⟩,
  ⟨0x09, .bits16, .rw, .volatile, 0, 0x0000, (.bits 0xFF), true⟩,
  ⟨0x10, .u16, .ro, .volatile, 1, 0, .any, false⟩,
  ⟨0x11, .u16, .ro, .volatile, 1, 0, .any, false⟩,
  ⟨0x12, .i32, .ro, .volatile, 2, 0, .any, false⟩,
  ⟨0x13, .i16, .ro, .volatile, 3, 0, .any, false⟩,
  ⟨0x14, .i16, .ro, .volatile, 3, 0, .any, false⟩]
def rows2001 : List Row := [
  ⟨0x01, .u32, .rwi, .persisted, 6, 1000, (.range 250 10000), false⟩,
  ⟨0x02, .u8, .rwi, .persisted, 1, 45, (.range 10 60), false⟩,
  ⟨0x03, (.blob 64), .rwi, .persisted, 0, 0x3E800009C40000013880000753000004E20000061A8000186A000004E200007A12000003A98001E848000002EE000989680000027100393870000001F40, .any, false⟩,
  ⟨0x10, .u32, .ro, .volatile, 2, 8000, .any, false⟩,
  ⟨0x11, .u32, .ro, .volatile, 2, 10000, .any, false⟩,
  ⟨0x12, .u32, .ro, .volatile, 2, 12000, .any, false⟩,
  ⟨0x13, .u32, .ro, .volatile, 2, 15000, .any, false⟩,
  ⟨0x14, .u32, .ro, .volatile, 2, 20000, .any, false⟩,
  ⟨0x15, .u32, .ro, .volatile, 2, 25000, .any, false⟩,
  ⟨0x16, .u32, .ro, .volatile, 2, 30000, .any, false⟩,
  ⟨0x17, .u32, .ro, .volatile, 2, 40000, .any, false⟩,
  ⟨0x18, .u32, .ro, .volatile, 0, 60000000, .any, false⟩,
  ⟨0x19, .u32, .ro, .volatile, 0, 10000000, .any, false⟩,
  ⟨0x1A, .u32, .ro, .volatile, 0, 2000000, .any, false⟩,
  ⟨0x1B, .u32, .ro, .volatile, 0, 500000, .any, false⟩,
  ⟨0x1C, .u32, .ro, .volatile, 0, 100000, .any, false⟩,
  ⟨0x1D, .u32, .ro, .volatile, 0, 20000, .any, false⟩,
  ⟨0x1E, .u32, .ro, .volatile, 0, 5000, .any, false⟩,
  ⟨0x1F, .u32, .ro, .volatile, 0, 1000, .any, false⟩,
  ⟨0x20, .u16, .rw, .persisted, 1, 62000, (.range 30000 64000), false⟩,
  ⟨0x21, .u16, .rw, .persisted, 1, 16000, (.range 16000 50000), false⟩,
  ⟨0x22, .u16, .rwi, .persisted, 2, 20000, (.range 1000 50000), false⟩]
def rows2002 : List Row := [
  ⟨0x01, .enum8, .rwi, .persisted, 0, 2, (.oneOf [0, 1, 2]), false⟩,
  ⟨0x02, .u32, .rwi, .persisted, 6, 2000, (.range 200 50000), false⟩,
  ⟨0x03, .u16, .rwi, .persisted, 0, 200, (.range 10 5000), false⟩,
  ⟨0x04, .u32, .rwi, .persisted, 0, 20000, (.range 1000 1000000), false⟩,
  ⟨0x05, .i16, .rwi, .persisted, 3, 1500, (.range 800 1750), false⟩,
  ⟨0x06, .i16, .rw, .persisted, 3, 1250, .any, false⟩,
  ⟨0x07, .u16, .rwi, .persisted, 0, 3380, (.range 2500 5000), false⟩]
def rows2003 : List Row := [
  ⟨0x01, .u32, .rwi, .persisted, 7, 2048, (.range 256 16384), false⟩,
  ⟨0x02, .u16, .rwi, .persisted, 7, 4, (.range 1 64), false⟩,
  ⟨0x03, .bits16, .ro, .volatile, 0, 0x0000, .any, false⟩,
  ⟨0x04, .u32, .rwi, .persisted, 7, 3072, (.range 1024 16384), false⟩,
  ⟨0x05, .u32, .rwi, .persisted, 2, 4000, (.range 500 20000), false⟩]
def rows2004 : List Row := [
  ⟨0x01, .u32, .ro, .volatile, 0, 0, .any, false⟩,
  ⟨0x02, .u32, .ro, .volatile, 0, 0, .any, false⟩,
  ⟨0x03, .u32, .ro, .volatile, 0, 0, .any, false⟩,
  ⟨0x04, .u32, .ro, .volatile, 0, 0, .any, false⟩,
  ⟨0x05, .u32, .ro, .volatile, 0, 0, .any, false⟩,
  ⟨0x06, .u32, .ro, .volatile, 0, 0, .any, false⟩,
  ⟨0x07, .u32, .ro, .volatile, 0, 0, .any, false⟩,
  ⟨0x08, .u32, .ro, .volatile, 0, 0, .any, false⟩,
  ⟨0x09, .u32, .ro, .volatile, 0, 0, .any, false⟩,
  ⟨0x0A, .u32, .ro, .volatile, 0, 0, .any, false⟩]
def rows2030 : List Row := [
  ⟨0x01, .u16, .ro, .volatile, 1, 0, .any, false⟩,
  ⟨0x02, .u16, .ro, .volatile, 1, 0, .any, false⟩,
  ⟨0x03, .u16, .rw, .persisted, 1, 18000, (.range 12000 56000), false⟩,
  ⟨0x04, .u8, .rw, .persisted, 0, 85, (.range 50 95), false⟩,
  ⟨0x05, .u8, .rw, .persisted, 7, 2, (.range 1 32), false⟩,
  ⟨0x06, .enum8, .rw, .persisted, 0, 1, (.oneOf [0, 1, 2]), false⟩,
  ⟨0x07, .bool, .ro, .volatile, 0, 0, .any, false⟩,
  ⟨0x08, .enum8, .rw, .persisted, 0, 1, (.oneOf [0, 1]), false⟩,
  ⟨0x09, .u8, .rw, .persisted, 0, 50, (.range 10 90), false⟩,
  ⟨0x0A, .u16, .rw, .persisted, 1, 500, (.range 100 2000), false⟩,
  ⟨0x0B, .i8, .ro, .volatile, 0, 0, .any, false⟩,
  ⟨0x0C, .u32, .rw, .persisted, 7, 16777216, (.zeroOr 1048576 1073741824 1024), false⟩,
  ⟨0x0D, .bool, .ro, .volatile, 0, 0, .any, false⟩,
  ⟨0x0E, .u32, .ro, .volatile, 0, 0, .any, false⟩]
def rows2100a : List Row := [
  ⟨0x01, .u8, .rwi, .persisted, 0, 8, (.range 4 12), false⟩,
  ⟨0x02, .u16, .rw, .persisted, 1, 2500, (.stepped 2000 3000 5), false⟩,
  ⟨0x03, .u16, .ro, .volatile, 1, 0, .any, false⟩,
  ⟨0x04, .u16, .ro, .volatile, 1, 0, .any, false⟩,
  ⟨0x05, .u16, .rw, .persisted, 0, 40, (.range 1 1000), false⟩,
  ⟨0x06, .i16, .rw, .persisted, 3, 600, (.stepped 300 900 10), false⟩,
  ⟨0x07, .u8, .rw, .persisted, 1, 4, (.range 0 20), false⟩,
  ⟨0x08, .u8, .rw, .persisted, 1, 20, (.range 5 100), false⟩,
  ⟨0x09, .enum8, .ro, .volatile, 0, 0, .any, false⟩,
  ⟨0x0A, .u32, .ro, .volatile, 0, 0, .any, false⟩,
  ⟨0x10, .u16, .ro, .volatile, 1, 0, .any, false⟩,
  ⟨0x11, .u16, .ro, .volatile, 1, 0, .any, false⟩,
  ⟨0x12, .i16, .ro, .volatile, 1, 0, .any, false⟩,
  ⟨0x13, .i16, .ro, .volatile, 3, 0, .any, false⟩,
  ⟨0x14, .i16, .ro, .volatile, 3, 65136, .any, false⟩,
  ⟨0x15, .i16, .ro, .volatile, 3, 65136, .any, false⟩,
  ⟨0x16, .bits16, .rwi, .persisted, 0, 0x0001, (.bits 0x3), false⟩,
  ⟨0x17, .u16, .rwi, .persisted, 0, 3380, (.range 2500 5000), false⟩,
  ⟨0x18, .u16, .rwi, .persisted, 0, 1000, (.range 470 2200), false⟩,
  ⟨0x19, .bits16, .rw, .volatile, 0, 0x0000, (.bits 0x7F), true⟩,
  ⟨0x1A, .bits16, .ro, .volatile, 0, 0x0000, .any, false⟩,
  ⟨0x1B, .u8, .cmd, .volatile, 0, 0, .any, false⟩,
  ⟨0x1C, .u16, .rw, .persisted, 1, 3100, (.range 2100 3200), false⟩,
  ⟨0x1D, .u16, .rw, .persisted, 1, 500, (.range 100 1500), false⟩]
def rows2100b : List Row := [
  ⟨0x1E, .u16, .rw, .persisted, 1, 150, (.range 30 500), false⟩,
  ⟨0x1F, .u32, .rw, .persisted, 7, 1048576, (.stepped 65536 16777216 1024), false⟩,
  ⟨0x20, .i16, .rw, .persisted, 3, 850, (.range 500 1000), false⟩,
  ⟨0x21, .u8, .rw, .persisted, 1, 10, (.range 0 50), false⟩,
  ⟨0x22, .u8, .rw, .persisted, 1, 3, .any, false⟩]
def rows2100 : List Row := rows2100a ++ rows2100b
def rows2101 : List Row := [
  ⟨0x01, .enum8, .ro, .volatile, 0, 0, .any, false⟩,
  ⟨0x02, .bits16, .ro, .volatile, 0, 0x0003, .any, false⟩,
  ⟨0x03, .u16, .rw, .persisted, 2, 2000, (.range 250 6000), false⟩,
  ⟨0x04, .u32, .rwi, .persisted, 6, 10000, (.range 2000 100000), false⟩,
  ⟨0x05, .u16, .rw, .persisted, 2, 120, (.range 50 140), false⟩,
  ⟨0x06, .u16, .rw, .persisted, 2, 100, (.range 20 1000), false⟩,
  ⟨0x07, .u16, .rw, .persisted, 1, 2000, (.range 1000 6000), false⟩,
  ⟨0x08, .u16, .ro, .volatile, 1, 0, .any, false⟩,
  ⟨0x09, .u16, .ro, .volatile, 2, 0, .any, false⟩]
def rows2102 : List Row := [
  ⟨0x01, .u32, .rw, .persisted, 7, 65536, (.stepped 16384 1048576 2048), false⟩,
  ⟨0x02, .u16, .rw, .persisted, 0, 300, (.range 150 1000), false⟩,
  ⟨0x03, .u8, .rw, .persisted, 0, 85, (.range 50 98), false⟩,
  ⟨0x04, .u32, .rw, .persisted, 7, 262144, (.stepped 65536 4194304 1024), false⟩,
  ⟨0x05, .u16, .rw, .persisted, 0, 240, (.range 0 65535), false⟩,
  ⟨0x06, .u16, .ro, .volatile, 0, 0, .any, false⟩,
  ⟨0x07, .u8, .cmd, .volatile, 0, 0, .any, false⟩,
  ⟨0x08, .u16, .rw, .persisted, 1, 100, (.range 30 500), false⟩,
  ⟨0x09, .u16, .rw, .persisted, 1, 50, (.range 10 200), false⟩,
  ⟨0x0A, .u16, .rw, .persisted, 1, 100, (.range 50 500), false⟩,
  ⟨0x0B, .u8, .rw, .persisted, 0, 4, (.range 1 64), false⟩,
  ⟨0x0C, .u16, .rw, .persisted, 1, 200, (.range 0 1000), false⟩,
  ⟨0x10, .u32, .rw, .persisted, 7, 184320000, (.zeroOr 16777216 4294967295 1024), false⟩,
  ⟨0x11, .u32, .rw, .persisted, 7, 1048576, .any, false⟩,
  ⟨0x12, .u16, .rw, .persisted, 2, 2000, (.range 500 6000), false⟩,
  ⟨0x13, .u16, .rw, .persisted, 1, 100, (.range 50 300), false⟩,
  ⟨0x14, .u32, .rw, .persisted, 7, 524288, .any, false⟩,
  ⟨0x15, .u32, .rw, .persisted, 7, 1048576, (.stepped 0 4294967295 1024), false⟩,
  ⟨0x16, .u16, .rw, .persisted, 2, 4000, (.range 1000 6000), false⟩,
  ⟨0x17, .stamp48, .ro, .volatile, 0, 0, .any, false⟩,
  ⟨0x18, .stamp48, .ro, .volatile, 0, 0, .any, false⟩]
def rows2103 : List Row := [
  ⟨0x01, .u32, .ro, .volatile, 4, 0, .any, false⟩,
  ⟨0x02, .i32, .ro, .volatile, 4, 0, .any, false⟩,
  ⟨0x03, .u32, .rw, .persisted, 4, 5000, (.range 500 10000000), false⟩,
  ⟨0x04, .u16, .rw, .persisted, 1, 8000, (.range 4000 30000), false⟩,
  ⟨0x05, .u16, .rw, .persisted, 1, 500, (.range 0 1500), false⟩,
  ⟨0x06, .u32, .rw, .persisted, 2, 10000, (.range 100 60000), false⟩,
  ⟨0x07, .u32, .rwi, .persisted, 5, 10000, (.range 100 3000000), false⟩,
  ⟨0x08, .u32, .rwi, .persisted, 6, 300000, (.range 1000 10000000), false⟩,
  ⟨0x09, .u16, .rw, .persisted, 0, 80, .any, false⟩,
  ⟨0x0A, .u16, .rw, .persisted, 0, 200, .any, false⟩,
  ⟨0x0B, .u8, .rw, .persisted, 0, 4, .any, false⟩,
  ⟨0x0C, .u8, .rw, .persisted, 0, 20, .any, false⟩,
  ⟨0x0D, .u32, .ro, .volatile, 5, 0, .any, false⟩,
  ⟨0x0E, .u32, .ro, .volatile, 6, 0, .any, false⟩,
  ⟨0x0F, .bits16, .ro, .volatile, 0, 0x0000, .any, false⟩,
  ⟨0x10, .u16, .rw, .persisted, 0, 80, .any, false⟩,
  ⟨0x11, .u16, .rw, .persisted, 0, 200, .any, false⟩]
def rows2104 : List Row := [
  ⟨0x01, .u32, .ro, .volatile, 0, 0, .any, false⟩,
  ⟨0x02, .u32, .ro, .volatile, 0, 0, .any, false⟩,
  ⟨0x03, .u32, .ro, .volatile, 0, 0, .any, false⟩,
  ⟨0x04, .u32, .ro, .volatile, 0, 0, .any, false⟩,
  ⟨0x05, .u32, .ro, .volatile, 0, 0, .any, false⟩,
  ⟨0x06, .u32, .ro, .volatile, 0, 0, .any, false⟩,
  ⟨0x07, .u32, .ro, .volatile, 0, 0, .any, false⟩,
  ⟨0x08, .u32, .ro, .volatile, 0, 0, .any, false⟩]
def rows2110 : List Row := [
  ⟨0x01, .bits16, .ro, .volatile, 0, 0, .any, false⟩,
  ⟨0x02, .u32, .ro, .volatile, 5, 0, .any, false⟩,
  ⟨0x03, .u32, .ro, .volatile, 6, 0, .any, false⟩,
  ⟨0x04, .u16, .ro, .volatile, 1, 0, .any, false⟩,
  ⟨0x05, .i16, .ro, .volatile, 1, 0, .any, false⟩,
  ⟨0x06, .bool, .ro, .volatile, 0, 0, .any, false⟩,
  ⟨0x07, .u32, .ro, .volatile, 7, 0, .any, false⟩,
  ⟨0x08, .i16, .ro, .volatile, 3, 0, .any, false⟩,
  ⟨0x09, .stamp48, .ro, .volatile, 0, 0, .any, false⟩]
def rows2120 : List Row := [
  ⟨0x01, .u16, .ro, .volatile, 1, 0, .any, false⟩,
  ⟨0x02, .u16, .rw, .persisted, 1, 0, .any, false⟩,
  ⟨0x03, .enum8, .ro, .volatile, 0, 0, .any, false⟩]
def rows2200a : List Row := [
  ⟨0x01, .enum8, .ro, .volatile, 0, 0, .any, false⟩,
  ⟨0x02, .bits16, .ro, .volatile, 0, 0x0001, .any, false⟩,
  ⟨0x03, .bool, .ro, .volatile, 0, 0, .any, false⟩,
  ⟨0x04, .bits16, .rw, .volatile, 0, 0x0000, (.bits 0x1FF), true⟩,
  ⟨0x05, .u16, .rwi, .persisted, 1, 40000, (.range 16000 56000), false⟩,
  ⟨0x06, .u32, .rwi, .persisted, 2, 20000, (.range 1000 60000), false⟩,
  ⟨0x07, .u32, .rwi, .persisted, 6, 2000, (.range 500 100000), false⟩,
  ⟨0x08, .u16, .rwi, .persisted, 0, 200, (.range 100 500), false⟩,
  ⟨0x09, .u8, .rw, .persisted, 0, 88, (.range 50 98), false⟩,
  ⟨0x0A, .u16, .rw, .persisted, 1, 2000, (.range 500 10000), false⟩,
  ⟨0x0B, .u16, .rw, .persisted, 1, 1000, (.range 200 5000), false⟩,
  ⟨0x0C, .u16, .rw, .persisted, 2, 1000, (.range 100 10000), false⟩,
  ⟨0x0D, .u16, .rw, .persisted, 2, 2000, (.range 500 6000), false⟩,
  ⟨0x0E, .u32, .rw, .persisted, 7, 184549376, (.stepped 0 4294967295 1048576), false⟩,
  ⟨0x0F, .enum8, .ro, .volatile, 0, 0, .any, false⟩,
  ⟨0x10, .stamp48, .ro, .volatile, 0, 0, .any, false⟩,
  ⟨0x11, .i32, .ro, .volatile, 2, 0, .any, false⟩,
  ⟨0x12, .u32, .ro, .volatile, 4, 0, .any, false⟩,
  ⟨0x13, .u32, .ro, .volatile, 4, 0, .any, false⟩,
  ⟨0x14, .u32, .rw, .persisted, 7, 65536, (.stepped 1024 1048576 1024), false⟩,
  ⟨0x15, .u8, .rw, .persisted, 0, 20, (.range 0 100), false⟩,
  ⟨0x16, .u32, .ro, .volatile, 4, 0, .any, false⟩,
  ⟨0x17, .i16, .ro, .volatile, 3, 0, .any, false⟩,
  ⟨0x18, .u16, .rwi, .persisted, 0, 300, (.range 10 5000), false⟩]
def rows2200b : List Row := [
  ⟨0x19, .u32, .rwi, .persisted, 0, 50000, (.range 1000 1000000), false⟩,
  ⟨0x1A, .i16, .rwi, .persisted, 3, 1500, (.range 800 1750), false⟩,
  ⟨0x1B, .stamp48, .ro, .volatile, 0, 0, .any, false⟩,
  ⟨0x20, (.blob 32), .rwi, .persisted, 0, 0x7D00000714800004E200000697800030D4000005DC0001E848000005208, .any, false⟩,
  ⟨0x21, .u32, .ro, .volatile, 2, 21000, .any, false⟩,
  ⟨0x22, .u32, .ro, .volatile, 2, 24000, .any, false⟩,
  ⟨0x23, .u32, .ro, .volatile, 2, 27000, .any, false⟩,
  ⟨0x24, .u32, .ro, .volatile, 2, 29000, .any, false⟩,
  ⟨0x25, .u32, .ro, .volatile, 0, 2000000, .any, false⟩,
  ⟨0x26, .u32, .ro, .volatile, 0, 200000, .any, false⟩,
  ⟨0x27, .u32, .ro, .volatile, 0, 20000, .any, false⟩,
  ⟨0x28, .u32, .ro, .volatile, 0, 2000, .any, false⟩,
  ⟨0x30, .u8, .cmd, .volatile, 0, 0, .any, false⟩]
def rows2200 : List Row := rows2200a ++ rows2200b
def rows2201 : List Row := [
  ⟨0x01, .u8, .rwi, .persisted, 0, 0, (.range 0 16), false⟩,
  ⟨0x02, .u8, .rwi, .persisted, 0, 100, (.range 1 100), false⟩,
  ⟨0x03, .u32, .rwi, .persisted, 2, 20000, (.range 1000 60000), false⟩,
  ⟨0x04, .u16, .rw, .persisted, 1, 500, (.range 100 2000), false⟩,
  ⟨0x05, .u16, .rw, .persisted, 1, 1000, (.range 0 4000), false⟩,
  ⟨0x06, .u16, .ro, .volatile, 1, 0, .any, false⟩,
  ⟨0x07, .enum8, .ro, .volatile, 0, 0, .any, false⟩,
  ⟨0x08, .i8, .ro, .volatile, 0, 0, .any, false⟩,
  ⟨0x09, .u8, .ro, .volatile, 0, 0, .any, false⟩,
  ⟨0x0A, .u16, .ro, .volatile, 0, 0, .any, false⟩,
  ⟨0x0B, .u32, .ro, .volatile, 4, 0, .any, false⟩]
def rows2202 : List Row := [
  ⟨0x01, .u32, .ro, .volatile, 0, 0, .any, false⟩,
  ⟨0x02, .u32, .ro, .volatile, 0, 0, .any, false⟩,
  ⟨0x03, .u32, .ro, .volatile, 0, 0, .any, false⟩,
  ⟨0x04, .u32, .ro, .volatile, 0, 0, .any, false⟩,
  ⟨0x05, .u32, .ro, .volatile, 0, 0, .any, false⟩,
  ⟨0x06, .u32, .ro, .volatile, 0, 0, .any, false⟩,
  ⟨0x07, .u32, .ro, .volatile, 0, 0, .any, false⟩,
  ⟨0x08, .u32, .ro, .volatile, 0, 0, .any, false⟩,
  ⟨0x09, .u32, .ro, .volatile, 0, 0, .any, false⟩]
def rows2300 : List Row := [
  ⟨0x01, .enum8, .ro, .volatile, 0, 0, .any, false⟩,
  ⟨0x02, .bool, .ro, .volatile, 0, 0, .any, false⟩,
  ⟨0x03, .u8, .cmd, .volatile, 0, 0, .any, false⟩,
  ⟨0x04, .bits16, .rw, .volatile, 0, 0x0000, (.bits 0x1FF), true⟩,
  ⟨0x05, .u8, .rwi, .persisted, 0, 0xFF, (.oneOf [0, 1, 2, 3, 4, 5, 6, 7, 255]), false⟩,
  ⟨0x06, .u32, .rw, .persisted, 7, 0, (.range 0 65536), false⟩,
  ⟨0x07, .u32, .rw, .persisted, 7, 32768, (.range 1024 1048576), false⟩,
  ⟨0x08, .bool, .rw, .persisted, 0, 1, .any, false⟩,
  ⟨0x09, .u16, .rw, .persisted, 7, 8, (.range 1 256), false⟩,
  ⟨0x0A, .u16, .rw, .persisted, 7, 1024, (.range 64 2048), false⟩,
  ⟨0x0B, .enum8, .ro, .volatile, 0, 0, .any, false⟩,
  ⟨0x0C, .bits16, .ro, .volatile, 0, 0x0000, .any, false⟩,
  ⟨0x0D, .bits16, .ro, .volatile, 0, 0x0000, .any, false⟩,
  ⟨0x0E, .u8, .ro, .volatile, 0, 0xFF, .any, false⟩,
  ⟨0x0F, .stamp48, .ro, .volatile, 0, 0, .any, false⟩]
def rows2301 : List Row := [
  ⟨0x01, .u32, .ro, .volatile, 0, 0, .any, false⟩,
  ⟨0x02, .u32, .ro, .volatile, 0, 0, .any, false⟩,
  ⟨0x03, .u32, .ro, .volatile, 0, 0, .any, false⟩,
  ⟨0x04, .u32, .ro, .volatile, 0, 0, .any, false⟩,
  ⟨0x05, .u32, .ro, .volatile, 0, 0, .any, false⟩,
  ⟨0x06, .u32, .ro, .volatile, 0, 0, .any, false⟩]
def rows2310a : List Row := [
  ⟨0x01, .enum8, .rwi, .persisted, 0, 0, (.oneOf [0, 1, 2]), false⟩,
  ⟨0x02, .enum8, .rwi, .persisted, 0, 1, (.oneOf [0, 1, 2]), false⟩,
  ⟨0x03, .enum8, .rwi, .persisted, 0, 0, (.oneOf [0, 1, 2, 3]), false⟩,
  ⟨0x04, .enum8, .rwi, .persisted, 0, 0, (.oneOf [0, 1]), false⟩,
  ⟨0x05, .u32, .rwi, .persisted, 7, 0, (.range 0 1048576), false⟩,
  ⟨0x06, .u32, .rwi, .persisted, 7, 0, (.range 0 1048576), false⟩,
  ⟨0x07, .u32, .rwi, .persisted, 7, 10240, (.range 64 1048576), false⟩,
  ⟨0x08, .u32, .rwi, .persisted, 7, 8192, (.range 64 1048576), false⟩,
  ⟨0x09, .u16, .rwi, .persisted, 7, 256, (.range 1 16384), false⟩,
  ⟨0x0A, .u16, .rwi, .persisted, 7, 64, (.range 1 4096), false⟩,
  ⟨0x0B, .u16, .rwi, .persisted, 7, 8, (.range 1 1024), false⟩,
  ⟨0x0C, .u16, .rwi, .persisted, 7, 256, (.range 1 4096), false⟩,
  ⟨0x0D, .u16, .rwi, .persisted, 1, 3300, (.range 500 60000), false⟩,
  ⟨0x0E, .u16, .rwi, .persisted, 0, 1000, (.range 1000 20000), false⟩,
  ⟨0x0F, .u16, .rw, .persisted, 0, 900, .any, false⟩,
  ⟨0x10, .u16, .rw, .persisted, 0, 950, .any, false⟩,
  ⟨0x11, .u16, .rw, .persisted, 0, 1050, .any, false⟩,
  ⟨0x12, .u16, .rw, .persisted, 0, 1100, (.range 0 1500), false⟩,
  ⟨0x13, .u16, .rw, .persisted, 0, 100, .any, false⟩,
  ⟨0x14, .u16, .rw, .persisted, 0, 10, .any, false⟩,
  ⟨0x15, .bits16, .rw, .persisted, 0, 0x0003, (.bits 0xF), false⟩,
  ⟨0x16, .enum8, .ro, .volatile, 0, 0, .any, false⟩,
  ⟨0x17, .u16, .ro, .volatile, 1, 0, .any, false⟩,
  ⟨0x18, .bits16, .rw, .volatile, 0, 0x0000, (.bits 0x7F), true⟩]
def rows2310b : List Row := [
  ⟨0x19, .u32, .ro, .volatile, 7, 0, .any, false⟩,
  ⟨0x1A, .u32, .ro, .volatile, 7, 0, .any, false⟩,
  ⟨0x1B, .stamp48, .ro, .volatile, 0, 0, .any, false⟩,
  ⟨0x1C, .enum8, .ro, .volatile, 0, 0, .any, false⟩,
  ⟨0x20, .u32, .ro, .volatile, 0, 0, .any, false⟩,
  ⟨0x21, .u32, .ro, .volatile, 0, 0, .any, false⟩,
  ⟨0x22, .u32, .ro, .volatile, 0, 0, .any, false⟩,
  ⟨0x23, .u32, .ro, .volatile, 0, 0, .any, false⟩,
  ⟨0x24, .u32, .ro, .volatile, 0, 0, .any, false⟩,
  ⟨0x25, .u32, .ro, .volatile, 0, 0, .any, false⟩,
  ⟨0x26, .u32, .ro, .volatile, 0, 0, .any, false⟩,
  ⟨0x27, .u32, .ro, .volatile, 0, 0, .any, false⟩]
def rows2310 : List Row := rows2310a ++ rows2310b
def rows3000a : List Row := [
  ⟨0x01, .enum8, .ro, .volatile, 0, 0, .any, false⟩,
  ⟨0x02, .bool, .ro, .volatile, 0, 0, .any, false⟩,
  ⟨0x03, .enum8, .rwi, .persisted, 0, 4, (.oneOf [0, 1, 2, 3, 4]), false⟩,
  ⟨0x04, .u8, .rwi, .persisted, 0, 4, (.oneOf [1, 2, 4]), false⟩,
  ⟨0x05, .bits16, .rwi, .persisted, 0, 0x000F, (.bits 0xF), false⟩,
  ⟨0x06, .enum8, .rwi, .persisted, 0, 1, (.oneOf [0, 1]), false⟩,
  ⟨0x07, .enum8, .rw, .persisted, 0, 0, (.oneOf [0, 1]), false⟩,
  ⟨0x08, .bool, .rw, .persisted, 0, 1, .any, false⟩,
  ⟨0x09, .u16, .rw, .persisted, 0, 20, (.range 2 1000), false⟩,
  ⟨0x0A, .u32, .rw, .persisted, 0, 2000, (.range 200 1000000), false⟩,
  ⟨0x0B, .u16, .rw, .persisted, 0, 64, (.range 8 4096), false⟩,
  ⟨0x0C, .u8, .cmd, .volatile, 0, 0, .any, false⟩,
  ⟨0x10, .enum8, .ro, .volatile, 0, 0xFF, .any, false⟩,
  ⟨0x11, .u8, .ro, .volatile, 0, 0, .any, false⟩,
  ⟨0x12, .bool, .ro, .volatile, 0, 0, .any, false⟩,
  ⟨0x13, .bool, .ro, .volatile, 0, 0, .any, false⟩,
  ⟨0x14, .bits16, .ro, .volatile, 0, 0x0000, .any, false⟩,
  ⟨0x15, .bits16, .ro, .volatile, 0, 0x0000, .any, false⟩,
  ⟨0x16, .bool, .ro, .volatile, 0, 0, .any, false⟩,
  ⟨0x17, .bits16, .rw, .volatile, 0, 0x0000, (.bits 0x1FF), true⟩,
  ⟨0x18, .stamp48, .ro, .volatile, 0, 0, .any, false⟩,
  ⟨0x19, .u32, .ro, .volatile, 0, 0, .any, false⟩,
  ⟨0x1A, .enum8, .ro, .volatile, 0, 0, .any, false⟩,
  ⟨0x1B, .bool, .ro, .volatile, 0, 0, .any, false⟩]
def rows3000b : List Row := [
  ⟨0x1C, .bool, .ro, .volatile, 0, 0, .any, false⟩]
def rows3000 : List Row := rows3000a ++ rows3000b
def rows3001 : List Row := [
  ⟨0x01, (.blob 10), .rwi, .persisted, 0, 0x8, .any, false⟩,
  ⟨0x02, (.blob 10), .rwi, .persisted, 0, 0x40308, .any, false⟩,
  ⟨0x03, (.blob 10), .rwi, .persisted, 0, 0x8050A, .any, false⟩,
  ⟨0x04, (.blob 10), .rwi, .persisted, 0, 0x10C070C, .any, false⟩,
  ⟨0x05, (.blob 10), .rwi, .persisted, 0, 0x1100A0C, .any, false⟩,
  ⟨0x06, (.blob 10), .rwi, .persisted, 0, 0x1140C0E, .any, false⟩,
  ⟨0x07, (.blob 10), .rwi, .persisted, 0, 0x1160F10, .any, false⟩,
  ⟨0x08, (.blob 10), .rwi, .persisted, 0, 0x1181310, .any, false⟩]
def rows3002 : List Row := [
  ⟨0x01, .u32, .ro, .volatile, 0, 0, .any, false⟩,
  ⟨0x02, .u32, .ro, .volatile, 0, 0, .any, false⟩,
  ⟨0x03, .u32, .ro, .volatile, 0, 0, .any, false⟩,
  ⟨0x04, .u32, .ro, .volatile, 0, 0, .any, false⟩,
  ⟨0x05, .u32, .ro, .volatile, 0, 0, .any, false⟩,
  ⟨0x06, .u32, .ro, .volatile, 0, 0, .any, false⟩,
  ⟨0x07, .u32, .ro, .volatile, 0, 0, .any, false⟩,
  ⟨0x08, .u32, .ro, .volatile, 0, 0, .any, false⟩,
  ⟨0x09, .u32, .ro, .volatile, 0, 0, .any, false⟩,
  ⟨0x0A, .u32, .ro, .volatile, 0, 0, .any, false⟩,
  ⟨0x0B, .u32, .ro, .volatile, 0, 0, .any, false⟩]
def rows3010 : List Row := [
  ⟨0x01, .u8, .rwi, .persisted, 0, 3, (.range 0 7), false⟩,
  ⟨0x02, .u8, .ro, .volatile, 0, 0xFF, .any, false⟩,
  ⟨0x03, .bits16, .ro, .volatile, 0, 0x0000, .any, false⟩,
  ⟨0x04, .u8, .ro, .volatile, 0, 0, .any, false⟩,
  ⟨0x05, .u8, .ro, .volatile, 0, 0, .any, false⟩,
  ⟨0x06, (.blob 5), .ro, .volatile, 0, 0, .any, false⟩,
  ⟨0x07, .u32, .ro, .volatile, 0, 0, .any, false⟩,
  ⟨0x08, .u32, .ro, .volatile, 0, 0, .any, false⟩,
  ⟨0x09, .u32, .ro, .volatile, 0, 0, .any, false⟩]
def rows3080 (p : Nat) : List Row := [
  ⟨0x01, .u8, .cmd, .volatile, 0, 0, .any, false⟩,
  ⟨0x02, .enum8, .rw, .volatile, 0, 0, (.oneOf [0, 1, 2]), false⟩,
  ⟨0x03, .u8, .rw, .volatile, 0, 2, (.range 1 32), false⟩,
  ⟨0x04, .u8, .rw, .volatile, 0, 4, (.range 1 63), false⟩,
  ⟨0x05, .u8, .rw, .volatile, 0, 8, (.range 6 10), false⟩,
  ⟨0x06, .u16, .ro, .volatile, 0, 0, .any, false⟩,
  ⟨0x07, .u16, .ro, .volatile, 0, 0, .any, false⟩,
  ⟨0x08, (.blob 4112), .ro, .volatile, 0, 0, .any, false⟩,
  ⟨0x09, .u16, .ro, .volatile, 0, 0, .any, false⟩,
  ⟨0x0A, .u16, .ro, .volatile, 0, 0, .any, false⟩,
  ⟨0x0B, .u16, .ro, .factory, 0, (Config.eyeCodeUv p), .any, false⟩,
  ⟨0x0C, .stamp48, .ro, .volatile, 0, 0, .any, false⟩]
def rows3100a : List Row := [
  ⟨0x01, .enum8, .ro, .volatile, 0, 0, .any, false⟩,
  ⟨0x02, .u32, .ro, .volatile, 0, 0, .any, false⟩,
  ⟨0x03, .u16, .ro, .volatile, 0, 0, .any, false⟩,
  ⟨0x04, .u16, .ro, .volatile, 0, 0, .any, false⟩,
  ⟨0x05, .u16, .ro, .volatile, 0, 0, .any, false⟩,
  ⟨0x06, .u32, .ro, .volatile, 0, 0, .any, false⟩,
  ⟨0x07, .u16, .rw, .persisted, 0, 40, (.range 10 1000), false⟩,
  ⟨0x08, .u8, .rw, .persisted, 0, 4, (.range 1 16), false⟩,
  ⟨0x09, .u8, .rw, .persisted, 0, 32, (.range 1 64), false⟩,
  ⟨0x0A, .u16, .rw, .persisted, 0, 10, (.range 1 1000), false⟩,
  ⟨0x0B, .bits16, .rw, .volatile, 0, 0x0000, (.bits 0x7F), true⟩,
  ⟨0x0C, .u32, .ro, .volatile, 0, 0, .any, false⟩,
  ⟨0x0D, .bits16, .ro, .volatile, 0, 0x0000, .any, false⟩,
  ⟨0x0E, .u32, .ro, .volatile, 7, 0, .any, false⟩,
  ⟨0x10, .u16, .rw, .persisted, 0, 1024, (.range 128 8192), false⟩,
  ⟨0x11, .u16, .rw, .persisted, 0, 1024, (.range 128 8192), false⟩,
  ⟨0x12, .u16, .rw, .persisted, 0, 1024, (.range 128 8192), false⟩,
  ⟨0x13, .u16, .rw, .persisted, 0, 1024, (.range 128 8192), false⟩,
  ⟨0x14, .u16, .rw, .persisted, 0, 1024, (.range 128 8192), false⟩,
  ⟨0x15, .u16, .rw, .persisted, 0, 1024, (.range 128 8192), false⟩,
  ⟨0x16, .u16, .rw, .persisted, 0, 1024, (.range 128 8192), false⟩,
  ⟨0x17, .u16, .rw, .persisted, 0, 1024, (.range 128 8192), false⟩,
  ⟨0x18, .u8, .rw, .persisted, 0, 128, (.range 1 128), false⟩,
  ⟨0x19, .u8, .rw, .persisted, 0, 128, (.range 1 128), false⟩]
def rows3100b : List Row := [
  ⟨0x1A, .u8, .rw, .persisted, 0, 128, (.range 1 128), false⟩,
  ⟨0x1B, .u8, .rw, .persisted, 0, 128, (.range 1 128), false⟩,
  ⟨0x1C, .u8, .rw, .persisted, 0, 128, (.range 1 128), false⟩,
  ⟨0x1D, .u8, .rw, .persisted, 0, 128, (.range 1 128), false⟩,
  ⟨0x1E, .u8, .rw, .persisted, 0, 128, (.range 1 128), false⟩,
  ⟨0x1F, .u8, .rw, .persisted, 0, 128, (.range 1 128), false⟩,
  ⟨0x20, .u32, .ro, .volatile, 0, 0, .any, false⟩,
  ⟨0x21, .u32, .ro, .volatile, 0, 0, .any, false⟩,
  ⟨0x22, .u32, .ro, .volatile, 0, 0, .any, false⟩,
  ⟨0x23, .u32, .ro, .volatile, 0, 0, .any, false⟩,
  ⟨0x24, .u32, .ro, .volatile, 0, 0, .any, false⟩,
  ⟨0x25, .u32, .ro, .volatile, 0, 0, .any, false⟩,
  ⟨0x26, .u32, .ro, .volatile, 0, 0, .any, false⟩,
  ⟨0x27, .u32, .ro, .volatile, 0, 0, .any, false⟩,
  ⟨0x28, .u32, .ro, .volatile, 0, 0, .any, false⟩,
  ⟨0x29, .u32, .ro, .volatile, 0, 0, .any, false⟩,
  ⟨0x2A, .u32, .ro, .volatile, 0, 0, .any, false⟩,
  ⟨0x2B, .u32, .ro, .volatile, 0, 0, .any, false⟩,
  ⟨0x2C, .u32, .ro, .volatile, 0, 0, .any, false⟩,
  ⟨0x2D, .u32, .ro, .volatile, 0, 0, .any, false⟩,
  ⟨0x2E, .u32, .ro, .volatile, 0, 0, .any, false⟩,
  ⟨0x2F, .u32, .ro, .volatile, 0, 0, .any, false⟩,
  ⟨0x30, .u32, .ro, .volatile, 0, 0, .any, false⟩,
  ⟨0x31, .u32, .ro, .volatile, 0, 0, .any, false⟩]
def rows3100c : List Row := [
  ⟨0x32, .u32, .ro, .volatile, 0, 0, .any, false⟩,
  ⟨0x33, .u32, .ro, .volatile, 0, 0, .any, false⟩,
  ⟨0x34, .u32, .ro, .volatile, 0, 0, .any, false⟩,
  ⟨0x35, .u32, .ro, .volatile, 0, 0, .any, false⟩,
  ⟨0x36, .u32, .ro, .volatile, 0, 0, .any, false⟩,
  ⟨0x37, .u32, .ro, .volatile, 0, 0, .any, false⟩]
def rows3100 : List Row := rows3100a ++ rows3100b ++ rows3100c
def rows3101 : List Row := [
  ⟨0x01, .u32, .ro, .volatile, 0, 0, .any, false⟩,
  ⟨0x02, .u32, .ro, .volatile, 0, 0, .any, false⟩,
  ⟨0x03, .u32, .ro, .volatile, 0, 0, .any, false⟩,
  ⟨0x04, .u32, .ro, .volatile, 0, 0, .any, false⟩,
  ⟨0x05, .u32, .ro, .volatile, 0, 0, .any, false⟩,
  ⟨0x06, .u32, .ro, .volatile, 0, 0, .any, false⟩,
  ⟨0x07, .u32, .ro, .volatile, 0, 0, .any, false⟩,
  ⟨0x08, .u32, .ro, .volatile, 0, 0, .any, false⟩,
  ⟨0x09, .u32, .ro, .volatile, 0, 0, .any, false⟩,
  ⟨0x0A, .u32, .ro, .volatile, 0, 0, .any, false⟩,
  ⟨0x0B, .u32, .ro, .volatile, 0, 0, .any, false⟩,
  ⟨0x0C, .u32, .ro, .volatile, 0, 0, .any, false⟩]
def rows3200 : List Row := [
  ⟨0x01, .i32, .ro, .volatile, 4, 2147483648, .any, false⟩,
  ⟨0x02, .enum8, .ro, .volatile, 0, 1, .any, false⟩,
  ⟨0x03, .bits16, .ro, .volatile, 0, 0x0040, .any, false⟩,
  ⟨0x04, .u32, .ro, .volatile, 4, 0xFFFFFFFF, .any, false⟩,
  ⟨0x05, .u32, .ro, .volatile, 4, 0, .any, false⟩,
  ⟨0x06, .u32, .ro, .volatile, 4, 0, .any, false⟩,
  ⟨0x07, .u32, .rw, .persisted, 4, 900, (.range 0 100000), false⟩,
  ⟨0x08, .u16, .rw, .persisted, 4, 60, (.range 1 10000), false⟩,
  ⟨0x09, .u32, .rw, .persisted, 7, 12288, (.stepped 2048 131072 1024), false⟩,
  ⟨0x0A, .u16, .rw, .persisted, 7, 64, (.range 1 4096), false⟩,
  ⟨0x0B, .u64, .ro, .volatile, 0, 0, .any, false⟩,
  ⟨0x0C, .u32, .ro, .volatile, 0, 0, .any, false⟩,
  ⟨0x0D, .u32, .ro, .volatile, 0, 0, .any, false⟩,
  ⟨0x0E, .u16, .ro, .volatile, 0, 0, .any, false⟩,
  ⟨0x0F, .u32, .ro, .volatile, 0, 0, .any, false⟩,
  ⟨0x10, .u32, .ro, .volatile, 0, 0, .any, false⟩,
  ⟨0x11, .u32, .ro, .volatile, 0, 0, .any, false⟩,
  ⟨0x12, .u32, .ro, .volatile, 0, 0, .any, false⟩,
  ⟨0x13, .u32, .rw, .persisted, 0, 25165824, (.range 1024 25165824), false⟩,
  ⟨0x14, .u32, .ro, .volatile, 0, 0, .any, false⟩,
  ⟨0x15, .u32, .ro, .volatile, 0, 0, .any, false⟩,
  ⟨0x16, .u32, .ro, .volatile, 0, 0, .any, false⟩,
  ⟨0x17, .i32, .ro, .volatile, 4, 2147483647, .any, false⟩,
  ⟨0x18, .bits16, .rw, .volatile, 0, 0x0000, (.bits 0xF), true⟩]
def rows3201 : List Row := [
  ⟨0x01, .u32, .ro, .volatile, 0, 0, .any, false⟩,
  ⟨0x02, .u32, .ro, .volatile, 0, 0, .any, false⟩,
  ⟨0x03, .u32, .ro, .volatile, 0, 0, .any, false⟩,
  ⟨0x04, .u32, .ro, .volatile, 0, 0, .any, false⟩,
  ⟨0x05, .u32, .ro, .volatile, 0, 0, .any, false⟩,
  ⟨0x06, .u32, .ro, .volatile, 0, 0, .any, false⟩,
  ⟨0x07, .u32, .ro, .volatile, 0, 0, .any, false⟩,
  ⟨0x08, .u32, .ro, .volatile, 0, 0, .any, false⟩]
def rows3210 : List Row := [
  ⟨0x01, .bool, .rwi, .persisted, 0, 1, .any, false⟩,
  ⟨0x02, .bool, .ro, .volatile, 0, 0, .any, false⟩,
  ⟨0x03, .bits16, .ro, .volatile, 0, 0x0000, .any, false⟩,
  ⟨0x04, .u32, .ro, .volatile, 0, 0, .any, false⟩,
  ⟨0x05, .enum8, .ro, .volatile, 0, 0, .any, false⟩,
  ⟨0x06, .u32, .ro, .volatile, 0, 0, .any, false⟩,
  ⟨0x07, .u32, .ro, .volatile, 0, 0, .any, false⟩,
  ⟨0x08, .u32, .ro, .volatile, 0, 0, .any, false⟩,
  ⟨0x09, .u32, .ro, .volatile, 0, 0, .any, false⟩,
  ⟨0x0A, .u16, .ro, .volatile, 0, 0, .any, false⟩,
  ⟨0x0B, .u32, .ro, .volatile, 0, 0, .any, false⟩,
  ⟨0x0C, .stamp48, .ro, .volatile, 0, 0, .any, false⟩]
def rows4000a : List Row := [
  ⟨0x01, .enum8, .ro, .volatile, 0, 0, .any, false⟩,
  ⟨0x02, .enum8, .ro, .volatile, 0, 0, .any, false⟩,
  ⟨0x03, .bits16, .ro, .volatile, 0, 0x0000, .any, false⟩,
  ⟨0x04, .stamp48, .ro, .volatile, 0, 0, .any, false⟩,
  ⟨0x05, .enum8, .ro, .volatile, 0, 0, .any, false⟩,
  ⟨0x06, .u32, .ro, .volatile, 0, 0, .any, false⟩,
  ⟨0x07, .u32, .ro, .volatile, 0, 0, .any, false⟩,
  ⟨0x08, .i32, .ro, .volatile, 4, 2147483648, .any, false⟩,
  ⟨0x09, .stamp48, .ro, .volatile, 0, 0, .any, false⟩,
  ⟨0x0A, .u32, .ro, .volatile, 0, 0, .any, false⟩,
  ⟨0x0B, .bool, .ro, .volatile, 0, 0, .any, false⟩,
  ⟨0x0C, .bits16, .rw, .volatile, 0, 0x0000, (.bits 0x3FF), true⟩,
  ⟨0x10, .enum8, .rw, .persisted, 0, 1, (.oneOf [0, 1, 2]), false⟩,
  ⟨0x11, .u32, .rw, .persisted, 0, 300000, (.range 20000 3000000), false⟩,
  ⟨0x12, .u32, .rw, .persisted, 0, 100000, (.range 10000 1000000), false⟩,
  ⟨0x13, .u32, .rw, .persisted, 0, 600000, (.range 50000 5000000), false⟩,
  ⟨0x14, .bits16, .rw, .persisted, 0, 0x0003, (.bits 0x7), false⟩,
  ⟨0x15, .u32, .rw, .persisted, 7, 102400, (.stepped 1024 4194304 1024), false⟩,
  ⟨0x16, .u8, .cmd, .volatile, 0, 0, .any, false⟩,
  ⟨0x20, .enum8, .ro, .volatile, 0, 0, .any, false⟩,
  ⟨0x21, .u32, .ro, .volatile, 0, 0, .any, false⟩,
  ⟨0x22, .u8, .cmd, .volatile, 0, 0, .any, false⟩,
  ⟨0x23, .bits16, .ro, .volatile, 0, 0x00FF, .any, false⟩,
  ⟨0x24, .stamp48, .ro, .volatile, 0, 0, .any, false⟩]
def rows4000b : List Row := [
  ⟨0x30, .u32, .ro, .volatile, 0, 0, .any, false⟩,
  ⟨0x31, .u32, .ro, .volatile, 0, 0, .any, false⟩,
  ⟨0x32, .u32, .ro, .volatile, 0, 0, .any, false⟩,
  ⟨0x33, .u32, .ro, .volatile, 0, 0, .any, false⟩,
  ⟨0x34, .u32, .ro, .volatile, 0, 0, .any, false⟩,
  ⟨0x35, .u32, .ro, .volatile, 0, 0, .any, false⟩,
  ⟨0x36, .u32, .ro, .volatile, 0, 0, .any, false⟩,
  ⟨0x37, .u32, .ro, .volatile, 0, 0, .any, false⟩,
  ⟨0x38, .u32, .ro, .volatile, 0, 0, .any, false⟩,
  ⟨0x39, .u32, .ro, .volatile, 0, 0, .any, false⟩,
  ⟨0x3A, .u32, .ro, .volatile, 0, 0, .any, false⟩,
  ⟨0x3B, .u32, .ro, .volatile, 0, 0, .any, false⟩,
  ⟨0x3C, .u32, .ro, .volatile, 0, 0, .any, false⟩,
  ⟨0x3D, .u32, .ro, .volatile, 0, 0, .any, false⟩,
  ⟨0x3E, .u32, .ro, .volatile, 0, 0, .any, false⟩,
  ⟨0x3F, .u32, .ro, .volatile, 0, 0, .any, false⟩,
  ⟨0x40, .u32, .ro, .volatile, 0, 0, .any, false⟩,
  ⟨0x41, .u32, .ro, .volatile, 0, 0, .any, false⟩,
  ⟨0x42, .u32, .ro, .volatile, 0, 0, .any, false⟩,
  ⟨0x43, .u32, .ro, .volatile, 0, 0, .any, false⟩,
  ⟨0x44, .u32, .ro, .volatile, 0, 0, .any, false⟩,
  ⟨0x45, .u32, .ro, .volatile, 0, 0, .any, false⟩,
  ⟨0x46, .u32, .ro, .volatile, 0, 0, .any, false⟩,
  ⟨0x47, .u32, .ro, .volatile, 0, 0, .any, false⟩]
def rows4000c : List Row := [
  ⟨0x60, .u32, .ro, .volatile, 0, 0, .any, false⟩,
  ⟨0x61, .u32, .ro, .volatile, 0, 0, .any, false⟩,
  ⟨0x62, .u32, .ro, .volatile, 0, 0, .any, false⟩,
  ⟨0x63, .u32, .ro, .volatile, 0, 0, .any, false⟩,
  ⟨0x64, .u32, .ro, .volatile, 0, 0, .any, false⟩,
  ⟨0x65, .u32, .ro, .volatile, 0, 0, .any, false⟩,
  ⟨0x66, .u32, .ro, .volatile, 0, 0, .any, false⟩,
  ⟨0x67, .u32, .ro, .volatile, 0, 0, .any, false⟩,
  ⟨0x68, .u32, .ro, .volatile, 0, 0, .any, false⟩,
  ⟨0x69, .u32, .ro, .volatile, 0, 0, .any, false⟩]
def rows4000 : List Row := rows4000a ++ rows4000b ++ rows4000c
def rows4100a : List Row := [
  ⟨0x01, .enum8, .ro, .volatile, 0, 0, .any, false⟩,
  ⟨0x02, .bits16, .rw, .volatile, 0, 0x0000, (.bits 0xFF), true⟩,
  ⟨0x03, .enum8, .ro, .volatile, 0, 0, .any, false⟩,
  ⟨0x04, .u32, .ro, .volatile, 0, 0, .any, false⟩,
  ⟨0x05, .u32, .ro, .volatile, 0, 0, .any, false⟩,
  ⟨0x06, .u64, .ro, .volatile, 0, 0, .any, false⟩,
  ⟨0x07, .bits16, .ro, .volatile, 0, 0x0000, .any, false⟩,
  ⟨0x08, .u16, .ro, .volatile, 0, 0, .any, false⟩,
  ⟨0x09, .u16, .ro, .volatile, 0, 0, .any, false⟩,
  ⟨0x0A, .u32, .ro, .volatile, 0, 0, .any, false⟩,
  ⟨0x0B, .u16, .ro, .factory, 0, 960, .any, false⟩,
  ⟨0x0C, .u16, .rw, .persisted, 0, 200, (.range 20 5000), false⟩,
  ⟨0x0D, .u8, .rw, .persisted, 0, 16, (.range 0 40), false⟩,
  ⟨0x0E, .u8, .rw, .persisted, 0, 24, (.range 1 40), false⟩,
  ⟨0x0F, .u8, .rw, .persisted, 0, 8, (.range 0 15), false⟩,
  ⟨0x10, .u8, .rw, .persisted, 0, 16, (.range 1 64), false⟩,
  ⟨0x11, .enum8, .ro, .volatile, 0, 0, .any, false⟩,
  ⟨0x12, .u32, .ro, .volatile, 0, 0, .any, false⟩,
  ⟨0x13, .u64, .ro, .volatile, 0, 0, .any, false⟩,
  ⟨0x20, .u32, .ro, .volatile, 0, 0, .any, false⟩,
  ⟨0x21, .u32, .ro, .volatile, 0, 0, .any, false⟩,
  ⟨0x22, .u32, .ro, .volatile, 0, 0, .any, false⟩,
  ⟨0x23, .u32, .ro, .volatile, 0, 0, .any, false⟩,
  ⟨0x24, .u32, .ro, .volatile, 0, 0, .any, false⟩]
def rows4100b : List Row := [
  ⟨0x25, .u32, .ro, .volatile, 0, 0, .any, false⟩,
  ⟨0x26, .u32, .ro, .volatile, 0, 0, .any, false⟩,
  ⟨0x27, .u32, .ro, .volatile, 0, 0, .any, false⟩]
def rows4100 : List Row := rows4100a ++ rows4100b
def rows4101 : List Row := [
  ⟨0x01, .u32, .ro, .volatile, 0, 0, .any, false⟩,
  ⟨0x02, .u32, .ro, .volatile, 0, 0, .any, false⟩,
  ⟨0x03, .u32, .ro, .volatile, 0, 0, .any, false⟩,
  ⟨0x04, .u32, .ro, .volatile, 0, 0, .any, false⟩,
  ⟨0x05, .u32, .ro, .volatile, 0, 0, .any, false⟩,
  ⟨0x06, .u32, .ro, .volatile, 0, 0, .any, false⟩,
  ⟨0x07, .u32, .ro, .volatile, 0, 0, .any, false⟩,
  ⟨0x08, .u32, .ro, .volatile, 0, 0, .any, false⟩,
  ⟨0x09, .u32, .ro, .volatile, 0, 0, .any, false⟩,
  ⟨0x0A, .u32, .ro, .volatile, 0, 0, .any, false⟩,
  ⟨0x0B, .u32, .ro, .volatile, 0, 0, .any, false⟩,
  ⟨0x0C, .u32, .ro, .volatile, 0, 0, .any, false⟩,
  ⟨0x0D, .u32, .ro, .volatile, 0, 0, .any, false⟩]
def rows4110 (_d : Nat) : List Row := [
  ⟨0x01, .enum8, .ro, .volatile, 0, 0, .any, false⟩,
  ⟨0x02, .u16, .ro, .volatile, 0, 0, .any, false⟩,
  ⟨0x03, .u16, .ro, .volatile, 0, 0, .any, false⟩,
  ⟨0x04, .u16, .ro, .volatile, 0, 0, .any, false⟩,
  ⟨0x05, .u16, .ro, .volatile, 0, 0, .any, false⟩,
  ⟨0x06, .u16, .ro, .volatile, 0, 0, .any, false⟩,
  ⟨0x07, .u16, .ro, .volatile, 0, 0, .any, false⟩,
  ⟨0x08, .u16, .ro, .volatile, 0, 0, .any, false⟩,
  ⟨0x09, .u16, .ro, .volatile, 0, 0, .any, false⟩,
  ⟨0x0A, .u16, .ro, .factory, 0, 0, .any, false⟩,
  ⟨0x0B, .u16, .ro, .factory, 0, 0, .any, false⟩,
  ⟨0x0C, .u16, .ro, .factory, 0, 0, .any, false⟩,
  ⟨0x0D, .u16, .ro, .factory, 0, 0, .any, false⟩,
  ⟨0x0E, .u16, .ro, .volatile, 0, 0, .any, false⟩,
  ⟨0x0F, .u16, .ro, .volatile, 0, 0, .any, false⟩,
  ⟨0x10, .u16, .ro, .volatile, 0, 0, .any, false⟩,
  ⟨0x11, .u16, .ro, .volatile, 0, 0, .any, false⟩,
  ⟨0x12, .u32, .ro, .volatile, 0, 0, .any, false⟩,
  ⟨0x13, .u32, .ro, .volatile, 0, 0, .any, false⟩,
  ⟨0x14, .u8, .ro, .volatile, 0, 0, .any, false⟩]
def rows4200 : List Row := [
  ⟨0x01, .u8, .ro, .volatile, 0, 0, .any, false⟩,
  ⟨0x02, .bits16, .ro, .volatile, 0, 0, .any, false⟩,
  ⟨0x03, .u32, .ro, .volatile, 0, 0, .any, false⟩,
  ⟨0x04, .u32, .ro, .volatile, 0, 0, .any, false⟩,
  ⟨0x05, .u8, .ro, .volatile, 0, 0, .any, false⟩,
  ⟨0x06, .u32, .ro, .volatile, 0, 0, .any, false⟩,
  ⟨0x07, .enum8, .ro, .volatile, 0, 0, .any, false⟩,
  ⟨0x08, .u8, .cmd, .volatile, 0, 0, .any, false⟩,
  ⟨0x09, (.blob 32), .rw, .volatile, 0, 0, .any, false⟩,
  ⟨0x0A, .enum8, .ro, .volatile, 0, 0, .any, false⟩,
  ⟨0x0B, .u32, .ro, .volatile, 0, 0, .any, false⟩,
  ⟨0x0C, .bits16, .rw, .volatile, 0, 0x0000, (.bits 0x1F), true⟩,
  ⟨0x10, .bits32, .ro, .volatile, 0, 0, .any, false⟩,
  ⟨0x11, .bits32, .cmd, .volatile, 0, 0, (.bits 0xFFFFFFFF), false⟩,
  ⟨0x12, .u8, .cmd, .volatile, 0, 0, .any, false⟩,
  ⟨0x13, .bits16, .ro, .volatile, 0, 0, .any, false⟩,
  ⟨0x20, .bits16, .ro, .volatile, 0, 0x0000, .any, false⟩,
  ⟨0x21, .u8, .ro, .volatile, 0, 0, .any, false⟩]
def rows4201 : List Row := [
  ⟨0x01, .u8, .ro, .volatile, 0, 0, .any, false⟩,
  ⟨0x02, .u32, .ro, .volatile, 0, 0, .any, false⟩,
  ⟨0x03, .u32, .ro, .volatile, 0, 0, .any, false⟩]
def rows4202 : List Row := [
  ⟨0x01, (.blob 256), .ro, .volatile, 0, 0, .any, false⟩,
  ⟨0x02, (.blob 256), .ro, .volatile, 0, 0, .any, false⟩,
  ⟨0x03, (.blob 256), .ro, .volatile, 0, 0, .any, false⟩,
  ⟨0x04, (.blob 256), .ro, .volatile, 0, 0, .any, false⟩,
  ⟨0x05, (.blob 256), .ro, .volatile, 0, 0, .any, false⟩,
  ⟨0x06, (.blob 256), .ro, .volatile, 0, 0, .any, false⟩,
  ⟨0x07, (.blob 256), .ro, .volatile, 0, 0, .any, false⟩,
  ⟨0x08, (.blob 256), .ro, .volatile, 0, 0, .any, false⟩,
  ⟨0x09, (.blob 256), .ro, .volatile, 0, 0, .any, false⟩,
  ⟨0x0A, (.blob 256), .ro, .volatile, 0, 0, .any, false⟩,
  ⟨0x0B, (.blob 256), .ro, .volatile, 0, 0, .any, false⟩,
  ⟨0x0C, (.blob 256), .ro, .volatile, 0, 0, .any, false⟩,
  ⟨0x0D, (.blob 256), .ro, .volatile, 0, 0, .any, false⟩,
  ⟨0x0E, (.blob 256), .ro, .volatile, 0, 0, .any, false⟩,
  ⟨0x0F, (.blob 256), .ro, .volatile, 0, 0, .any, false⟩,
  ⟨0x10, (.blob 256), .ro, .volatile, 0, 0, .any, false⟩]
def rows4203 : List Row := [
  ⟨0x01, .u32, .ro, .volatile, 0, 0, .any, false⟩,
  ⟨0x02, .u32, .ro, .volatile, 0, 0, .any, false⟩,
  ⟨0x03, .u32, .ro, .volatile, 0, 0, .any, false⟩,
  ⟨0x04, .u32, .ro, .volatile, 0, 0, .any, false⟩,
  ⟨0x05, .u32, .ro, .volatile, 0, 0, .any, false⟩,
  ⟨0x06, .u32, .ro, .volatile, 0, 0, .any, false⟩,
  ⟨0x07, .u32, .ro, .volatile, 0, 0, .any, false⟩,
  ⟨0x08, .u32, .ro, .volatile, 0, 0, .any, false⟩,
  ⟨0x09, .u32, .ro, .volatile, 0, 0, .any, false⟩,
  ⟨0x0A, .u32, .ro, .volatile, 0, 0, .any, false⟩,
  ⟨0x0B, .u32, .ro, .volatile, 0, 0, .any, false⟩]
def rows5000 : List Row := [
  ⟨0x01, .u8, .ro, .volatile, 0, 1, .any, false⟩,
  ⟨0x02, .enum8, .ro, .volatile, 0, 0, .any, false⟩,
  ⟨0x03, .u32, .rw, .persisted, 7, 65536, (.stepped 16384 1048576 16384), false⟩,
  ⟨0x04, .bits16, .rw, .persisted, 0, 0x008F, (.bits 0x9F), false⟩,
  ⟨0x05, .bits16, .rw, .persisted, 0, 0x0003, (.bits 0x3), false⟩,
  ⟨0x06, .bool, .rw, .persisted, 0, 1, .any, false⟩,
  ⟨0x07, .bool, .rw, .persisted, 0, 1, .any, false⟩,
  ⟨0x08, .u16, .rw, .persisted, 7, 4, (.range 1 256), false⟩,
  ⟨0x09, .u16, .rw, .persisted, 7, 256, (.range 64 2048), false⟩,
  ⟨0x0A, .enum8, .ro, .volatile, 0, 0, .any, false⟩,
  ⟨0x0B, .enum8, .ro, .volatile, 0, 0, .any, false⟩,
  ⟨0x0C, .bits16, .rw, .volatile, 0, 0x0000, (.bits 0x77F), true⟩,
  ⟨0x0D, .u32, .ro, .volatile, 0, 0, .any, false⟩,
  ⟨0x0E, .enum8, .rw, .persisted, 0, 1, (.oneOf [0, 1, 2]), false⟩,
  ⟨0x10, .u64, .rw, .volatile, 0, 0, .any, false⟩,
  ⟨0x11, .u8, .cmd, .volatile, 0, 0, .any, false⟩,
  ⟨0x12, .bool, .rw, .volatile, 0, 0, .any, false⟩,
  ⟨0x13, .u8, .ro, .volatile, 0, 0, .any, false⟩]
def rows5001 : List Row := [
  ⟨0x01, .u32, .ro, .volatile, 0, 0, .any, false⟩,
  ⟨0x02, .u32, .ro, .volatile, 0, 0, .any, false⟩,
  ⟨0x03, .u32, .ro, .volatile, 0, 0, .any, false⟩,
  ⟨0x04, .u32, .ro, .volatile, 0, 0, .any, false⟩,
  ⟨0x05, .u32, .ro, .volatile, 0, 0, .any, false⟩,
  ⟨0x06, .u32, .ro, .volatile, 0, 0, .any, false⟩,
  ⟨0x07, .u32, .ro, .volatile, 0, 0, .any, false⟩,
  ⟨0x08, .u32, .ro, .volatile, 0, 0, .any, false⟩,
  ⟨0x09, .u32, .ro, .volatile, 0, 0, .any, false⟩,
  ⟨0x0A, .u32, .ro, .volatile, 0, 0, .any, false⟩,
  ⟨0x0B, .u32, .ro, .volatile, 0, 0, .any, false⟩,
  ⟨0x0C, .u32, .ro, .volatile, 0, 0, .any, false⟩,
  ⟨0x0D, .u32, .ro, .volatile, 0, 0, .any, false⟩,
  ⟨0x0E, .u32, .ro, .volatile, 0, 0, .any, false⟩,
  ⟨0x0F, .u32, .ro, .volatile, 0, 0, .any, false⟩]
def rows5100 : List Row := [
  ⟨0x01, .enum8, .ro, .volatile, 0, 0, .any, false⟩,
  ⟨0x02, .stamp48, .ro, .volatile, 0, 0, .any, false⟩,
  ⟨0x03, .bits16, .ro, .volatile, 0, 0x0000, .any, false⟩,
  ⟨0x04, .bits16, .ro, .volatile, 0, 0x0000, .any, false⟩,
  ⟨0x05, .u8, .ro, .volatile, 0, 0, .any, false⟩,
  ⟨0x06, .u32, .ro, .volatile, 0, 0, .any, false⟩,
  ⟨0x07, .u32, .ro, .volatile, 0, 0, .any, false⟩,
  ⟨0x08, .u32, .ro, .volatile, 0, 0, .any, false⟩,
  ⟨0x09, .u32, .ro, .volatile, 0, 0, .any, false⟩,
  ⟨0x0A, .u32, .ro, .volatile, 0, 0, .any, false⟩,
  ⟨0x0B, (.str 16), .ro, .volatile, 0, 0, .any, false⟩,
  ⟨0x0C, .u8, .ro, .volatile, 0, 0, .any, false⟩,
  ⟨0x0D, .u8, .ro, .volatile, 0, 0, .any, false⟩,
  ⟨0x0E, .u32, .ro, .volatile, 4, 0, .any, false⟩,
  ⟨0x0F, .u32, .ro, .volatile, 0, 0, .any, false⟩,
  ⟨0x10, .enum8, .ro, .volatile, 0, 0, .any, false⟩]
def rows6000 : List Row := [
  ⟨0x01, .u32, .ro, .volatile, 0, 0, .any, false⟩,
  ⟨0x02, .u32, .ro, .volatile, 0, 0, .any, false⟩,
  ⟨0x03, .u32, .ro, .volatile, 0, 0, .any, false⟩,
  ⟨0x04, .u8, .ro, .volatile, 0, 0, .any, false⟩,
  ⟨0x05, .u32, .ro, .volatile, 0, 0, .any, false⟩,
  ⟨0x06, .u16, .ro, .volatile, 0, 0, .any, false⟩,
  ⟨0x07, .bits32, .ro, .volatile, 0, 0x00000000, .any, false⟩,
  ⟨0x08, .bits16, .rw, .volatile, 0, 0x0000, (.bits 0x7), true⟩,
  ⟨0x09, .u16, .ro, .volatile, 0, 0, .any, false⟩,
  ⟨0x0A, .stamp48, .ro, .volatile, 0, 0, .any, false⟩,
  ⟨0x0B, .u32, .rw, .persisted, 7, 16384, (.stepped 1024 65536 1024), false⟩]
def rows6020 : List Row := [
  ⟨0x01, .enum8, .ro, .volatile, 0, 0, .any, false⟩,
  ⟨0x02, .u32, .ro, .volatile, 7, 0, .any, false⟩,
  ⟨0x03, .u8, .ro, .volatile, 0, 0, .any, false⟩,
  ⟨0x04, .u32, .ro, .volatile, 0, 0, .any, false⟩,
  ⟨0x05, .u32, .ro, .volatile, 0, 0, .any, false⟩,
  ⟨0x11, .u32, .ro, .volatile, 0, 0, .any, false⟩,
  ⟨0x12, .u32, .ro, .volatile, 0, 0, .any, false⟩,
  ⟨0x13, .u32, .ro, .volatile, 0, 0, .any, false⟩,
  ⟨0x14, .u32, .ro, .volatile, 0, 0, .any, false⟩,
  ⟨0x15, .u32, .ro, .volatile, 0, 0, .any, false⟩,
  ⟨0x16, .u32, .ro, .volatile, 0, 0, .any, false⟩,
  ⟨0x17, .u32, .ro, .volatile, 0, 0, .any, false⟩,
  ⟨0x18, .u32, .ro, .volatile, 0, 0, .any, false⟩,
  ⟨0x19, .u32, .ro, .volatile, 0, 0, .any, false⟩,
  ⟨0x1A, .u32, .ro, .volatile, 0, 0, .any, false⟩,
  ⟨0x1B, .u32, .ro, .volatile, 0, 0, .any, false⟩,
  ⟨0x1C, .u32, .ro, .volatile, 0, 0, .any, false⟩,
  ⟨0x1D, .u32, .ro, .volatile, 0, 0, .any, false⟩,
  ⟨0x1E, .u32, .ro, .volatile, 0, 0, .any, false⟩,
  ⟨0x1F, .u32, .ro, .volatile, 0, 0, .any, false⟩]
def rows6100 : List Row := [
  ⟨0x01, .u8, .cmd, .volatile, 0, 0, .any, false⟩,
  ⟨0x02, .u32, .rw, .volatile, 0, 0, .any, false⟩,
  ⟨0x03, (.blob 1024), .ro, .volatile, 0, 0, .any, false⟩,
  ⟨0x04, .u16, .ro, .volatile, 0, 0, .any, false⟩,
  ⟨0x05, .u32, .ro, .volatile, 0, 0, .any, false⟩,
  ⟨0x06, .bits16, .rw, .volatile, 0, 0x003F, (.bits 0x3F), false⟩]
def rows7000a : List Row := [
  ⟨0x01, .enum8, .ro, .volatile, 0, 0, .any, false⟩,
  ⟨0x02, .u32, .ro, .volatile, 0, 0, .any, false⟩,
  ⟨0x03, .u32, .ro, .volatile, 0, 0, .any, false⟩,
  ⟨0x04, .u32, .ro, .volatile, 0, 0, .any, false⟩,
  ⟨0x05, .enum8, .ro, .volatile, 0, 0, .any, false⟩,
  ⟨0x06, .u32, .ro, .volatile, 0, 0, .any, false⟩,
  ⟨0x07, .u32, .ro, .volatile, 0, 0, .any, false⟩,
  ⟨0x10, .bits16, .rw, .volatile, 0, 0x0000, (.bits 0xFFF), true⟩,
  ⟨0x11, .bits16, .ro, .volatile, 0, 0x0000, .any, false⟩,
  ⟨0x12, .bits16, .ro, .volatile, 0, 0x0000, .any, false⟩,
  ⟨0x13, .u16, .rw, .persisted, 7, 16384, (.range 1024 65535), false⟩,
  ⟨0x14, .bits16, .cmd, .volatile, 0, 0x0000, (.bits 0xFFF), false⟩,
  ⟨0x15, .bits16, .ro, .volatile, 0, 0x0000, .any, false⟩,
  ⟨0x16, .u8, .ro, .volatile, 0, 0, .any, false⟩,
  ⟨0x20, .u16, .ro, .volatile, 0, 0, .any, false⟩,
  ⟨0x21, .u16, .ro, .volatile, 0, 0, .any, false⟩,
  ⟨0x22, .u16, .ro, .volatile, 0, 0, .any, false⟩,
  ⟨0x23, .u16, .ro, .volatile, 0, 0, .any, false⟩,
  ⟨0x24, .u16, .ro, .volatile, 0, 0, .any, false⟩,
  ⟨0x25, .u16, .ro, .volatile, 0, 0, .any, false⟩,
  ⟨0x26, .u16, .ro, .volatile, 0, 0, .any, false⟩,
  ⟨0x27, .u16, .ro, .volatile, 0, 0, .any, false⟩,
  ⟨0x28, .u16, .ro, .volatile, 0, 0, .any, false⟩,
  ⟨0x29, .u16, .ro, .volatile, 0, 0, .any, false⟩]
def rows7000b : List Row := [
  ⟨0x2A, .u16, .ro, .volatile, 0, 0, .any, false⟩,
  ⟨0x2B, .u16, .ro, .volatile, 0, 0, .any, false⟩,
  ⟨0x30, .u16, .ro, .volatile, 1, 0, .any, false⟩,
  ⟨0x31, .u16, .ro, .volatile, 1, 0, .any, false⟩,
  ⟨0x32, .u16, .ro, .volatile, 1, 0, .any, false⟩,
  ⟨0x33, .u16, .ro, .volatile, 1, 0, .any, false⟩,
  ⟨0x34, .u16, .ro, .volatile, 2, 0, .any, false⟩,
  ⟨0x35, .i16, .ro, .volatile, 3, 0, .any, false⟩,
  ⟨0x36, .i16, .ro, .volatile, 3, 0, .any, false⟩,
  ⟨0x37, .i16, .ro, .volatile, 3, 65136, .any, false⟩,
  ⟨0x38, .i16, .rw, .persisted, 3, 1100, (.range 600 1150), false⟩,
  ⟨0x39, .bits16, .rw, .volatile, 0, 0x0000, (.bits 0xF), true⟩,
  ⟨0x3A, .u32, .ro, .volatile, 0, 0, .any, false⟩,
  ⟨0x3B, .u32, .ro, .volatile, 7, 0, .any, false⟩,
  ⟨0x40, .bits16, .rwu, .persisted, 0, 0x0000, (.bits 0x3FF), false⟩,
  ⟨0x41, .u8, .cmd, .volatile, 0, 0, .any, false⟩,
  ⟨0x42, (.blob 256), .ro, .volatile, 0, 0, .any, false⟩,
  ⟨0x43, .u32, .ro, .volatile, 0, 0, .any, false⟩,
  ⟨0x44, .u8, .rw, .persisted, 0, 95, (.range 0 99), false⟩,
  ⟨0x45, .u8, .rw, .persisted, 0, 24, (.range 2 64), false⟩,
  ⟨0x46, .u8, .rw, .persisted, 0, 16, (.range 1 63), false⟩,
  ⟨0x47, .u32, .ro, .volatile, 0, 0, .any, false⟩]
def rows7000 : List Row := rows7000a ++ rows7000b
def rows7F00 : List Row := [
  ⟨0x01, .u32, .rw, .volatile, 0, 0, .any, false⟩,
  ⟨0x02, (.blob 0), .rw, .volatile, 0, 0, .any, false⟩,
  ⟨0x03, .u32, .ro, .volatile, 0, 0, .any, false⟩]

/-- The layout of an object: the parameters present at an index (Table OD-11); none where no object is. -/
def rowsOf (idx : Nat) : List Row :=
  if idx == 0x1000 then rows1000
  else if idx == 0x1100 then rows1100
  else if idx == 0x1200 then rows1200
  else if idx == 0x1300 then rows1300
  else if idx == 0x2000 || idx == 0x2040 then rows2000
  else if idx == 0x2001 || idx == 0x2041 then rows2001
  else if idx == 0x2002 || idx == 0x2042 then rows2002
  else if idx == 0x2003 || idx == 0x2043 then rows2003
  else if idx == 0x2004 || idx == 0x2044 then rows2004
  else if idx == 0x2030 then rows2030
  else if idx == 0x2100 then rows2100
  else if idx == 0x2101 then rows2101
  else if idx == 0x2102 then rows2102
  else if idx == 0x2103 then rows2103
  else if idx == 0x2104 then rows2104
  else if 0x2111 ≤ idx && idx ≤ 0x211C then rows2110
  else if 0x2120 ≤ idx && idx ≤ 0x212D then rows2120
  else if idx == 0x2200 then rows2200
  else if idx == 0x2201 then rows2201
  else if idx == 0x2202 then rows2202
  else if idx == 0x2300 then rows2300
  else if idx == 0x2301 then rows2301
  else if 0x2310 ≤ idx && idx ≤ 0x2317 then rows2310
  else if idx == 0x3000 then rows3000
  else if idx == 0x3001 then rows3001
  else if idx == 0x3002 then rows3002
  else if 0x3010 ≤ idx && idx ≤ 0x3013 then rows3010
  else if 0x3080 ≤ idx && idx ≤ 0x3083 then rows3080 (idx - 0x3080)
  else if idx == 0x3100 then rows3100
  else if idx == 0x3101 then rows3101
  else if idx == 0x3200 then rows3200
  else if idx == 0x3201 then rows3201
  else if 0x3210 ≤ idx && idx ≤ 0x3217 then rows3210
  else if idx == 0x4000 then rows4000
  else if idx == 0x4100 then rows4100
  else if idx == 0x4101 then rows4101
  else if 0x4110 ≤ idx && idx ≤ 0x4113 then rows4110 (idx - 0x4110)
  else if idx == 0x4200 then rows4200
  else if idx == 0x4201 then rows4201
  else if idx == 0x4202 then rows4202
  else if idx == 0x4203 then rows4203
  else if idx == 0x5000 then rows5000
  else if idx == 0x5001 then rows5001
  else if 0x5100 ≤ idx && idx ≤ 0x513F then rows5100
  else if idx == 0x6000 then rows6000
  else if 0x6020 ≤ idx && idx ≤ 0x60A0 then rows6020
  else if idx == 0x6100 then rows6100
  else if idx == 0x7000 then rows7000
  else if idx == 0x7F00 then rows7F00
  else []

/-- The row of a parameter, if it is present (R47). -/
def rowOf (idx sub : Nat) : Option Row := (rowsOf idx).find? (fun r => r.sub == sub)

/-- The row of a register number. -/
def rowAt (k : Nat) : Option Row := rowOf (k / 256) (k % 256)

/-- The default a register holds when nothing is listed for it (R51); 0 where the number names no parameter. -/
def dfltAt (k : Nat) : Nat := (rowAt k).elim 0 (·.dflt)

/-- The bytes of a register's value. -/
def sizeAt (k : Nat) : Nat := (rowAt k).elim 8 (fun r => tySize r.ty)

/-- The highest sub-index present at an index (R48). -/
def maxSub (idx : Nat) : Nat := ((rowsOf idx).map (·.sub)).foldl Nat.max 0

/-- The IDLE_HOLD bit of the block that owns an index's RWI parameters (Tables OD-5, OD-11); 0xFF where there is none. -/
def holdBit (idx : Nat) : Nat :=
  if 0x1100 ≤ idx && idx ≤ 0x11FF then 9
  else if 0x1200 ≤ idx && idx ≤ 0x12FF then 4
  else if 0x2000 ≤ idx && idx ≤ 0x207F then 0
  else if 0x2100 ≤ idx && idx ≤ 0x21FF then 1
  else if 0x2200 ≤ idx && idx ≤ 0x22FF then 2
  else if 0x2300 ≤ idx && idx ≤ 0x23FF then 3
  else if 0x3000 ≤ idx && idx ≤ 0x307F then 7
  else if 0x3080 ≤ idx && idx ≤ 0x30FF then 10
  else if 0x3100 ≤ idx && idx ≤ 0x31FF then 8
  else if 0x3200 ≤ idx && idx ≤ 0x32FF then 5
  else if 0x4100 ≤ idx && idx ≤ 0x41FF then 6
  else 0xFF

end Sys2Proof.Machine
end

