-- ==== Sys2Proof/Machine/Table.lean ====
section
/-! DEFINITION. Sparse tables: the one shape in which State holds everything that is numbered (registers, slots, blocks,
sources, bytes of the code flash). A table is a list of keys and values in one canonical form: keys strictly rising, and
no entry equal to what an unlisted key reads as. -/
namespace Sys2Proof.Machine

/-- A table: keys rising, no default listed. -/
abbrev Table (α : Type) := List (Nat × α)

/-- The value at a key; `d` is what an unlisted key reads as. -/
def tget {α : Type} (d : α) : Table α → Nat → α
  | [], _ => d
  | (k, v) :: t, q => if q = k then v else tget d t q

/-- Put a value at a key, keeping the keys in rising order. -/
def tput {α : Type} : Table α → Nat → α → Table α
  | [], q, x => [(q, x)]
  | (k, v) :: t, q, x =>
    if q < k then (q, x) :: (k, v) :: t
    else if q = k then (q, x) :: t
    else (k, v) :: tput t q x

/-- Take a key out. -/
def terase {α : Type} : Table α → Nat → Table α
  | [], _ => []
  | (k, v) :: t, q => if q = k then terase t q else (k, v) :: terase t q

/-- Set the value at a key, keeping the canonical form. -/
def tset {α : Type} [DecidableEq α] (d : α) (t : Table α) (q : Nat) (x : α) : Table α :=
  if x = d then terase t q else tput t q x

/-- Change the value at a key. -/
def tmod {α : Type} [DecidableEq α] (d : α) (t : Table α) (q : Nat) (f : α → α) : Table α :=
  tset d t q (f (tget d t q))

/-- Change every listed value, keeping the canonical form; `f` leaves the default as it is. -/
def tmap {α : Type} [DecidableEq α] (d : α) (t : Table α) (f : α → α) : Table α :=
  (t.map (fun e => (e.1, f e.2))).filter (fun e => e.2 ≠ d)

/-- Every key of the table lies above `lo`, and the keys rise. -/
def tsorted {α : Type} : Table α → Bool
  | [] => true
  | [_] => true
  | (k, _) :: (k', v') :: t => decide (k < k') && tsorted ((k', v') :: t)

/-- The canonical form of a table whose unlisted keys read as `d`. -/
def twf {α : Type} [DecidableEq α] (d : α) (t : Table α) : Bool :=
  tsorted t && t.all (fun e => e.2 ≠ d)

/-- The canonical form of a table whose default differs from key to key (the dictionary registers). -/
def twfAt (d : Nat → Nat) (t : Table Nat) : Bool :=
  tsorted t && t.all (fun e => e.2 ≠ d e.1)

end Sys2Proof.Machine
end

