-- ==== Sys2Proof/Machine/State.lean ====
section
/-! DEFINITION. The state of the module as plain data: every register the dictionary gives it (`reg` on the logic die, `hv`
on the HV die), the parts that are no parameter, the stores, and the queue of waiting commands. -/
namespace Sys2Proof.Machine

/-- What stops the module for good. The spec names no such condition for a command of its table: every hardware fault is
a latch, a flag and an event in State. The type is kept for the interface. -/
inductive Fault where
  /-- Raised by nobody: no meaning ends in it. Safe. -/
  | halted
  deriving DecidableEq, Repr

/-- Why a command has no outcome. -/
inductive Refusal where
  /-- Raised by Dispatch for a command whose meaning is not written yet. Safe: nothing is claimed of it. -/
  | notModelled (mnemonic : String)
  deriving DecidableEq, Repr

/-- The one activity that excludes the others (spec/00_scope.md R3): start, guard, pour, rest, or none of them (no
logic-side power, cold read under R5). Shakeout and fettling run beside guard. -/
inductive Phase where
  | idle | start | guard | pour | rest
  deriving DecidableEq, Repr

/-! ### Time (spec/05_mains_angle.md) -/

/-- Ticks, cycles and angle. -/
structure Clock where
  /-- Ticks seen by the module, ever: what deadlines in ticks are measured on. -/
  now : Nat := 0
  /-- Cycles elapsed since cycle 0 of this boot; no stamp step changes it (R145). -/
  cyc : Nat := 0
  /-- The follower's tick within its cycle, 0-1023. -/
  tic : Nat := 0
  /-- A 0 au has been taken and its tick is still to come. -/
  fresh : Bool := false
  /-- The 0 au nearest to the present tick has been taken. -/
  zeroed : Bool := false
  /-- The follower's 32-bit cycle count (R143). -/
  count : Word := 0
  /-- A stamp-sync step decided and not yet applied (R145). -/
  step : Word := 0
  /-- The follower has taken its angle from a double pulse or started virtual mains (R141); pulses in the present slew
  step. -/
  synced : Bool := false
  slew : Nat := 0
  /-- The last B0 pulse was a double one (R141). -/
  b0Double : Bool := false
  /-- The HV NCO's tick within its cycle. -/
  hvTic : Nat := 0
  /-- Cycles elapsed on the HV NCO since the main supply started. -/
  hvCyc : Nat := 0
  /-- Ticks since the last B0 pulse. -/
  b0Gap : Nat := 0
  /-- SCHED_SHIFT in force on both dies (R149). -/
  shift : Nat := 0
  /-- TB_STATE at the start of this tick (R146). -/
  tbAtTick : Nat := 5
  /-- The control core has been started and cycle 0 has begun (R157). -/
  begun : Bool := false
  deriving DecidableEq, Repr

/-- The mains tracker on the HV die (R135-R151). -/
structure Tracker where
  /-- Crossings accepted in a row that qualify (R135), 0-3. -/
  crossings : Nat := 0
  /-- Cycles in a row in which qualification failed in ACQUIRING (R136), and ticks since the last accepted crossing. -/
  failCycles : Nat := 0
  sinceCross : Nat := 0
  /-- The side the sense signal is on (positive or not), and the ticks in a row it has been there (R135). -/
  sidePos : Bool := false
  sideRun : Nat := 0
  /-- The positive-going crossing that led to the present side has been accepted. -/
  crossed : Bool := false
  /-- The interval before the last one, in microseconds. -/
  lastUs : Nat := 0
  /-- Ticks in a row with the phase error within 64 au (R137). -/
  inPhase : Nat := 0
  /-- Cycles in a row beyond 4096 au, and cycles in a row outside 44-67 Hz (R138). -/
  outPhase : Nat := 0
  outFreq : Nat := 0
  /-- The frequency measured over the qualifying cycles, in 1/1024 Hz. -/
  freq : Nat := 0
  /-- Ticks since the main supply started without LOCKED; none once LOCKED was reached or the limit reported (R140). -/
  seekTicks : Option Nat := none
  /-- Ticks in LOCKED (R150). -/
  lockedTicks : Nat := 0
  /-- Peaks of the last half-cycles that passed, newest first, at most 8 (R150); whether a sample of the first and of the second
  half-cycle has failed since the last accepted crossing. -/
  peaks : List Nat := []
  badPos : Bool := false
  badNeg : Bool := false
  /-- Failing samples in a row (R150), and ticks since the last passing sample. -/
  failing : Nat := 0
  sincePass : Nat := 0
  /-- A half-cycle out of range has been logged since SEEKING or LOST was entered (R135). -/
  rangeLogged : Bool := false
  deriving DecidableEq, Repr

/-! ### Supply and barrier (spec/01_architecture.md, spec/04_electrical.md) -/

/-- The supplies of the two sides. -/
structure Supply where
  /-- The selected logic-side source (R24). -/
  source : Source := .off
  /-- Which of the three sources stands in its window: VISO, VLOG, USB_VBUS. -/
  iso : Bool := false
  vlog : Bool := false
  usb : Bool := false
  /-- The wake stage runs (R116). -/
  wake : Bool := false
  /-- The HV main supply runs: the power side runs (R117). -/
  main : Bool := false
  /-- VISO's capability is cut to 0.6 W (R119). -/
  reduced : Bool := false
  /-- The USB device is attached and a session runs (R122). -/
  usbUp : Bool := false
  /-- The reset of the logic side is released and the boot is still to come. -/
  bootDue : Bool := false
  /-- The boot that is due follows a power-on reset. -/
  coldBoot : Bool := true
  /-- The logic side's firmware runs (R157, R104, R421). -/
  running : Bool := false
  /-- No slot was valid: only the boot ROM's USB service answers (R421). -/
  romOnly : Bool := false
  deriving DecidableEq, Repr

/-- A B3 command frame: its sequence, the HV registers it sets, how often it was sent (R23). -/
structure CmdFrame where
  seq : Half
  sets : List (Nat × Nat)
  sends : Nat := 1
  /-- The frame carries the HV die's whole share of the working set (R159): what it does not name is at its default. -/
  share : Bool := false
  deriving DecidableEq, Repr

/-- What a finding of the HV die does to the logic die's registers once a B1 frame has carried it (R18, R143): a flag bit, a count,
the stamp of the tick it was taken in, a value, an event of Table EV-4. -/
inductive Note where
  | flag (k i : Nat)
  | count (k n : Nat)
  | stamp (k : Nat)
  | put (k v : Nat)
  | event (code obj detail a b : Nat)
  deriving DecidableEq, Repr

/-- The isolation barrier. -/
structure Barrier where
  /-- Ticks since the last valid B1 frame, and valid frames in consecutive ticks. -/
  b1Gap : Nat := 0
  b1Run : Nat := 0
  /-- A valid B1 frame has arrived in this boot; four have arrived in consecutive ticks, so the barrier is up (R158). -/
  seen : Bool := false
  up : Bool := false
  /-- The status stream is lost (R19); the command path is lost (R23). -/
  lost : Bool := false
  pathLost : Bool := false
  /-- Ticks in a row with the stream or the path lost and the integrated supply available (R22). -/
  lostTicks : Nat := 0
  /-- The HV die: heartbeat check armed, heartbeat lost, its length, ticks since the last B5 toggle (R20). -/
  hbArmed : Bool := false
  hbLost : Bool := false
  hbLen : Nat := 0
  hbGap : Nat := 0
  /-- An ended episode's length, to be reported by the next B1 frame. -/
  episode : Option Nat := none
  /-- What the last B1 frame said of the heartbeat. -/
  hbReported : Bool := false
  /-- The next command sequence, the frames not reported applied (oldest first). -/
  nextSeq : Half := 1
  unapplied : List CmdFrame := []
  /-- The HV die: last sequence applied, frames discarded; what B1 last reported of each. -/
  hvSeq : Half := 0
  hvDiscards : Nat := 0
  repSeq : Half := 0
  repDiscards : Nat := 0
  /-- Ticks since the reported sequence advanced while frames are unapplied. -/
  stall : Nat := 0
  /-- Cause code of a B2 assertion not yet carried by a B1 frame. -/
  b2 : Bool := false
  /-- The debug port holds the core halted: watchdog and heartbeat stand still (R21). -/
  halted : Bool := false
  /-- The HV die has applied its share of the working set since its main supply started (R500). -/
  hvConfigured : Bool := false
  /-- The logic die has sent that share since the barrier came up (R159, R500). -/
  shareSent : Bool := false
  /-- The wake stage's report has been logged in this boot (R156). -/
  wakeTold : Bool := false
  /-- Findings of the HV die that no valid B1 frame has carried yet, oldest first, each with the tick of the HV die's cycle it was
  taken in (R143). -/
  reports : List (Nat × List Note) := []
  deriving DecidableEq, Repr

/-! ### Pads (spec/03_package_and_pads.md) -/

/-- The logic-side outputs with readback and their contention states (Table PK-5). -/
structure Pads where
  /-- The level each EN pad is commanded to, by rail: 0 not taken over, 1 low, 2 high, 3 released (R243, R99). -/
  en : Table Nat := []
  /-- PFW#: not driven, driven low (false) or high (true). -/
  pfw : Option Bool := none
  /-- HOST_RST#, FAULT#, POUR# driven low. -/
  hostRst : Bool := false
  fault : Bool := false
  pour : Bool := false
  /-- HOST_RST# is low under R259 and waits for its release. -/
  hostHold : Bool := false
  /-- DRAIN's end drove it low (R352): it is not released in this pour. -/
  hostDrain : Bool := false
  /-- B4, the pour line to the HV die (R36). -/
  b4 : Bool := false
  /-- Limited pads: the tick of entry plus one. -/
  lim : Table Nat := []
  /-- Pads that are Off, one bit each. -/
  off : Nat := 0
  deriving DecidableEq, Repr

/-! ### Parameter service (spec/02_object_dictionary.md) -/

/-- A half-read shadow (R61). -/
structure Shadow where
  key : Nat
  high : Nat
  expiry : Nat
  deriving DecidableEq, Repr

/-- An open segmented transfer (R78-R82). -/
structure Transfer where
  write : Bool
  key : Nat
  total : Nat
  /-- Segments served or taken so far. -/
  count : Nat := 0
  /-- A read's snapshot, or the bytes of a write so far. -/
  data : List Nat := []
  /-- Where the window read or write begins. -/
  addr : Nat := 0
  /-- A read whose final segment has been served. -/
  fin : Bool := false
  /-- A LOG_BATCH read: the cursor after it, the torn slots it passed, and whether the cursor's slot had been erased. -/
  batch : Option (Nat × Nat × Bool) := none
  /-- The cycle of the last activity, and the tag of the last request of the transfer. -/
  at_ : Nat := 0
  tag : Nat := 0
  deriving DecidableEq, Repr

/-- What the module keeps per source (R61, R63, R74, R78, R89, R474, R480). -/
structure SrcState where
  /-- A request of the source has come in this boot; the tokens left in its bucket (R74). -/
  known : Bool := false
  tokens : Nat := 0
  /-- Retry-afters that run: the request's opcode and register number, the cycle each ends in, the abort it repeats. -/
  retries : List (Nat × Nat × Nat × Nat) := []
  /-- Requests that wait for an answer due earlier to the same source (R71): opcode and request. -/
  held : List (Nat × Req) := []
  /-- The half-read shadows (R61). -/
  shadows : List Shadow := []
  /-- The source is unlocked; the cycle of its last request (R63). -/
  unlocked : Bool := false
  lastReq : Nat := 0
  /-- The open transfer; a transfer has timed out since the last one began (R78, R82). -/
  xfer : Option Transfer := none
  timedOut : Bool := false
  /-- Ticks of quarantine left. -/
  quarLeft : Nat := 0
  /-- Weighed violations by cycle, newest first (R480). -/
  window : List (Nat × Nat) := []
  /-- The log cursor: a slot of the ring, or 5632 once its slot has been erased (R474, R475). -/
  cursor : Option Nat := none
  /-- LOG_RESULT, LOG_SEEK_SEQ, LOG_FILTER and LOG_READ_TORN as the source sees them (R474). -/
  logResult : Nat := 0
  seekSeq : Nat := 0
  filter : Nat := 0x3F
  readTorn : Nat := 0
  /-- OEM_LOCK as the source reads it (R63). -/
  oemLock : Nat := 0
  deriving DecidableEq, Repr

/-- An answer of the parameter service: to a request, or a USB NAK (opcode 0x7F). -/
structure Answer where
  src : Nat
  tag : Nat
  opcode : Nat
  status : Nat
  index : Nat
  sub : Nat
  data : List Nat
  deriving DecidableEq, Repr

/-- A frame that carried an answer on its bus: a CAN FD frame with its identifier (R84), a USB frame of Table OD-8 (R86; no
identifier). -/
structure WireFrame where
  src : Nat
  id : Nat := 0
  bytes : List Nat
  deriving DecidableEq, Repr

/-- The service itself. -/
structure Service where
  srcs : Table SrcState := []
  /-- Requests executed in this cycle (R75). -/
  load : Nat := 0
  /-- The answer the last request drew; none where it was dropped. The frames that it drew on CAN and USB, in the order sent. -/
  answer : Option Answer := none
  wire : List WireFrame := []
  /-- Unlock attempts left (R64); restored by a power cycle and a right password. -/
  attempts : Nat := 8
  /-- The persisted snapshot a running commit writes (R56), and the bank it writes. -/
  commit : Option (Nat × List (Nat × Nat)) := none
  /-- The bank last loaded or written in this boot (R412); 0 none. -/
  lastBank : Nat := 0
  /-- The tick in which the first byte of a USB frame came that is not complete yet, and what has come of it (R87). -/
  usbFrame : Option Nat := none
  usbBuf : List Byte := []
  deriving DecidableEq, Repr

/-! ### Events and the log (spec/18_events_and_faults.md) -/

/-- A log record (Table EV-1) less its LOG_INDEX and CRC. -/
structure LogRec where
  kind : Nat := 1
  tb : Nat := 0
  atOnce : Bool := false
  cold : Bool := false
  held : Bool := false
  dropped : Bool := false
  code : Nat := 0
  seq : Nat := 0
  stamp : Nat := 0
  sev : Nat := 0
  node : Nat := 0
  boot : Nat := 0
  obj : Nat := 0xFF
  detail : Nat := 0
  a : Nat := 0
  b : Nat := 0
  /-- Table IS-10's sixteen bytes, for codes 0x4101 and 0x4102; of a member entry bytes 1 to 59 as they came (R467). -/
  ext : List Nat := []
  deriving DecidableEq, Repr

/-- A record slot of the ring (R468). -/
inductive Slot where
  | blank
  | torn
  | valid (r : LogRec) (index : Half)
  deriving DecidableEq, Repr

/-- The event queue and the log ring. -/
structure Log where
  queue : List LogRec := []
  ring : Table Slot := []
  /-- The slot the next record takes. -/
  head : Nat := 0
  index : Half := 0
  /-- A drop has happened and no own record has been queued since. -/
  mark : Bool := false
  /-- Event 0x6001 is owed (R470). -/
  owed : Bool := false
  /-- A flush waits for the head's bank (R414). -/
  wanted : Bool := false
  /-- The slots whose programs may be under way: those begun since the last tick (R122; log entry 89). -/
  writing : List Nat := []
  deriving DecidableEq, Repr

/-! ### On-chip flash (spec/16_onchip_flash.md) -/

/-- A config copy (Table OF-4): as written, or torn (its magic may stand), or blank. -/
inductive Copy where
  | blank
  | torn
  | valid (seq : Nat) (stamp : Nat) (version : Nat) (entries : List (Nat × Nat × Nat))
  deriving DecidableEq, Repr

/-- A summary or confirmation record (Table OF-5). -/
structure SumRec where
  kind : Nat := 1
  flags : Nat := 0
  seq : Nat := 0
  heat : Nat := 0
  stamp : Nat := 0
  accept : Nat := 0
  cause : Nat := 0
  drainEnd : Nat := 0
  triggers : Nat := 0
  sealPage : Nat := 0
  /-- For each stream: last committed record, last complete epoch, dross records, dross epoch, RETIRE_DURABLE. -/
  streams : List (Nat × Nat × Nat × Nat × Nat) := []
  maskRec : Nat := 0
  maskEpoch : Nat := 0
  maskDross : Nat := 0
  deriving DecidableEq, Repr

/-- An erase of a data-flash sector: bank, sector, suspended or not (R406). -/
structure DfErase where
  bank : Nat
  sector : Nat
  suspended : Bool := false
  deriving DecidableEq, Repr

/-- A protection record (R429). -/
structure ProtRec where
  seq : Nat := 0
  password : Nat := 0
  protCode : Nat := 0
  bootPref : Nat := 0
  /-- 0 no trial, 1 a trial not yet tried, 2 a trial tried. -/
  trial : Nat := 0
  rollbackMin : Nat := 0
  debugClosed : Bool := false
  deriving DecidableEq, Repr

/-- The on-chip flash beside the ring. -/
structure Flash where
  /-- The config copies cope and drag. -/
  cope : Copy := .blank
  drag : Copy := .blank
  /-- Summary slots: half b at 64·b (R416). A torn one holds no record. -/
  sums : Table (Option SumRec) := []
  /-- A running or suspended data-flash erase, and the queue (bank, sector) (R406, R418). -/
  erase : Option DfErase := none
  queue : List (Nat × Nat) := []
  /-- The bank of a commit's own sector erase, which runs nested where an erase is suspended (R406, R410). -/
  nested : Option Nat := none
  /-- The sectors the running commit has still to erase (R410 step 1), and whether its first erase has begun. -/
  left : List Nat := []
  begun : Bool := false
  deriving DecidableEq, Repr

/-! ### Feeds (spec/07_feeds_and_efuse.md) -/

/-- A feed's own parts on the HV die; its state, readings and causes are registers. -/
structure FeedX where
  /-- The I-t timers by breakpoint, in eighths of a microsecond (R182). -/
  timers : Table Nat := []
  /-- The FET model's rise over its reference, in 10^-14 K (R183). -/
  rise : Int := 0
  /-- The validity of NTC_x last seen, and whether the last computation was at or above FET_TWARN. -/
  ntc : Option Bool := none
  warm : Bool := false
  /-- The tick in which soft start began, VBUS then, and the ticks the ramp has run without waiting for the clamp (R180). -/
  ssFrom : Nat := 0
  ssBus : Nat := 0
  ssRamp : Nat := 0
  /-- The drop that sharing regulates this feed's gate to, in mV; 0 while it is fully enhanced (R194). -/
  drop : Nat := 0
  /-- BLOCKED was entered by overvoltage (R188). -/
  blockOv : Bool := false
  /-- The feed was released while latched (R189). -/
  wasLatched : Bool := false
  deriving DecidableEq, Repr

/-- The bus's own parts on the HV die. -/
structure Bus where
  /-- This cycle's sum and count of VBUS samples, and whether a feed was ON in each (R195). -/
  sum : Nat := 0
  ticks : Nat := 0
  allOn : Bool := true
  /-- Cycle means, newest first, at most 64. -/
  means : List Nat := []
  /-- Some feed has been ON since the takeover tick (R195). -/
  everOn : Bool := false
  /-- The feed under a FET check and the tick of its start; the feed of the next check (R191). -/
  check : Option (Nat × Nat) := none
  nextCheck : Nat := 0
  /-- The cycle plus one in which a check last fell due. -/
  checkCyc : Nat := 0
  deriving DecidableEq, Repr

/-! ### Ladle (spec/08_ladle.md) -/

/-- A capacitance measurement under way (R211, R212): the charge drawn or taken in so far, in mA times ticks, and per cell
the reading before and, once its segment has ended, the charge and reading then. -/
structure CapSeg where
  charge : Nat := 0
  stack : Nat := 0
  before : List Int := []
  ended : Table (Nat × Int) := []
  deriving DecidableEq, Repr

/-- The ladle's own parts; readings, targets, faults and counters are registers. -/
structure Ladle where
  /-- V_cmd in microvolts (R203). -/
  vcmd : Nat := 0
  /-- Ladle temperatures of the last 64 cycles, in 0.1 degrees, newest first (R202). -/
  temps : List Int := []
  chill : Bool := false
  /-- A target is pending; cycles in a row that meet it (R204). -/
  pendingTarget : Bool := false
  targetRun : Nat := 0
  /-- The last usable scan: cell readings V_1 on, STACK_V, TAP_SUM, and the ladle temperature (none: no valid sensor). -/
  v : List Int := []
  stack : Nat := 0
  sum : Int := 0
  temp : Option Int := none
  /-- A usable scan has come in this cycle; cycles in a row without one (R200). -/
  scanned : Bool := false
  missed : Nat := 0
  /-- LADLE_E before the zero cases of R217; cycles in a row at or above reserve, and the cycle of the last estimate. -/
  est : Nat := 0
  okCycles : Nat := 0
  /-- The damp check has passed, charging is permitted in this start (R207). -/
  damped : Bool := false
  permit : Bool := false
  hot : Bool := false
  /-- Charger: sums of this cycle's current and of its switching ticks, I_SW, cycles below CHG_TERM, cycles below 25 %, and
  switching windows in a row in which the limit acted, with this window's (R206, R208). -/
  chgSum : Nat := 0
  chgTicks : Nat := 0
  swSum : Nat := 0
  swTicks : Nat := 0
  iSw : Nat := 0
  termRun : Nat := 0
  lowRun : Nat := 0
  limRun : Nat := 0
  limAct : Bool := false
  /-- Balancers wanted on, one bit per cell (R210). -/
  balWant : Nat := 0
  /-- Cells measured for capacitance in this boot, one bit each; the ESR's measurement temperature, none before one. -/
  measured : Nat := 0
  esrTemp : Option Int := none
  /-- The capacitance test: the cycle the next one's delay counts from, with whether it is the first one; the draw with its start
  tick, the scan after it awaited (R211). -/
  capFrom : Option (Nat × Bool) := none
  draw : Option (Nat × CapSeg) := none
  capAfter : Option CapSeg := none
  /-- A CC segment of start, and one that a CHG_STOP bit has ended, whose scan is awaited (R212). -/
  seg : Option CapSeg := none
  segAfter : Option CapSeg := none
  /-- An ESR pulse owed after a draw; the pulse of this N2 window: 0 none, 1 planned, 2 draws, 3 ended, its result to come (R214). -/
  esrOwed : Bool := false
  pulse : Nat := 0
  /-- ESR_STACK was above its limit at its last measurement (Table LD-4 bit 10). -/
  esrHigh : Bool := false
  /-- The validity of the two LTEMP sensors last seen; none before a scan (R201). -/
  lt1 : Option Bool := none
  lt2 : Option Bool := none
  /-- The tap test of this N1 window: 0 none, 1 the response test, 2 a learning run; tests read intact in a row by open tap, a
  learning run wanted, the damp check's next tick, a damp failure in this start (R219-R222). -/
  n1 : Nat := 0
  intact : Table Nat := []
  learn : Bool := false
  dampAt : Nat := 0
  dampFailed : Bool := false
  /-- Cycles of the last overvoltage episodes, newest first (R224). -/
  ovCycles : List Nat := []
  deriving DecidableEq, Repr

/-! ### Holdup (spec/09_holdup.md) -/

/-- The holdup's own parts. -/
structure Holdup where
  timers : Table Nat := []
  rise : Int := 0
  /-- It carried in the last tick; it has carried in this pour (R230). -/
  carries : Bool := false
  pourCarried : Bool := false
  /-- What TEST does: 0 nothing, 1 a capacitance draw, 2 an ESR pulse, 3 a self-test. -/
  test : Nat := 0
  /-- A self-test has passed since boot; the self-test of this N2 window: 0 none, 1 before its draw, 2 draws, 3 ended, its result to
  come; the cycle in which one fell due last, and whether it has run (R235, R236). -/
  passed : Bool := false
  self : Nat := 0
  selfFrom : Option Nat := none
  selfRan : Bool := false
  /-- The trim of the voltage setpoint in mV, and what the stage regulates to, in microvolts; what drives SHARE, in mV (none: high
  impedance) (R238, R239). -/
  trim : Int := 0
  setpoint : Int := 0
  drive : Option Int := none
  /-- Droop lasts (R239); overfull (R237). -/
  droop : Bool := false
  overfull : Bool := false
  /-- This cycle's sums over its ticks: VBUS, the feeds' current, STACK_V, the input current, the charger's current (R240). -/
  ticks : Nat := 0
  sumBus : Nat := 0
  sumFeed : Int := 0
  sumStack : Nat := 0
  sumIn : Nat := 0
  sumChg : Nat := 0
  /-- HU_LOAD_E of the last cycles, newest first, at most HU_LOAD_WINDOW. -/
  loads : List Nat := []
  /-- Group members whose left load counts, by node less 1 (R240). -/
  left : List Nat := []
  /-- Group members present at the last look; the two sizing episodes of R241 last. -/
  seen : List Nat := []
  shortLoad : Bool := false
  shortMax : Bool := false
  deriving DecidableEq, Repr

/-! ### Sequencer (spec/10_sequencer.md) -/

/-- The sequencer's own parts; states, stamps and counters are parameters. -/
structure Seq where
  /-- Ticks of entering RISING, FALLING (or FAILED) and RUNNING, by rail. -/
  riseAt : Table Nat := []
  fallAt : Table Nat := []
  runAt : Table Nat := []
  /-- The on common start (R163), and the tick in which ON_SLOTS completed. -/
  onStart : Option Nat := none
  onDone : Option Nat := none
  /-- Rails the reverse shutdown waits for, one bit each (R254). -/
  waiting : Nat := 0
  /-- The tick of the off release, and the off common start (R250, R252). -/
  offRel : Option Nat := none
  offStart : Option Nat := none
  /-- The tick in which RF_GRACE started (R250). -/
  rfAt : Option Nat := none
  /-- The FAULT# pulse: its first low tick and its end; ticks after release that are still not counted (R256, R257). -/
  pulseFrom : Nat := 0
  pulseEnd : Nat := 0
  quiet : Nat := 0
  /-- FAULT_IN is armed; FAULT# is stuck (R257, R258). -/
  armed : Bool := false
  stuck : Bool := false
  /-- Warnings in force, and rails up early, one bit per rail (R251, R261). -/
  warnUv : Nat := 0
  warnOv : Nat := 0
  early : Nat := 0
  /-- R260 has logged in this rest. -/
  alive : Bool := false
  deriving DecidableEq, Repr

/-! ### Link PHY (spec/11_link_phy.md) -/

/-- A receiver lane in training (R269, R271, R275, R281). -/
structure LaneRx where
  locked : Bool := false
  /-- Lane number and echo of the last valid set; none before one. -/
  num : Option Nat := none
  echo : Option Nat := none
  /-- Consecutive valid TS1 with ack, whether one has come in this ALIGN, and the sets sent since (R275). -/
  acked : Nat := 0
  ackSeen : Bool := false
  sinceAck : Nat := 0
  /-- Consecutive valid TS2 carrying the agreed rate and width, the valid TS2 of this CONFIRM, and the sets sent since the first of
  them (R281, R282). -/
  ts2 : Nat := 0
  gotTs2 : Nat := 0
  sinceTs2 : Nat := 0
  inverted : Bool := false
  /-- The sets the module has sent on the lane since its receiver started anew, and the last of them, by octets (Table LP-3). -/
  sent : Nat := 0
  set : List Nat := []
  deriving DecidableEq, Repr

/-- A running eye scan (R296-R300). -/
structure EyeScan where
  /-- Error counts of the points done, in order. -/
  done : List Nat := []
  /-- The points, as phase and voltage offsets. -/
  points : List (Int × Int) := []
  running : Bool := false
  /-- A step counts its dwell; the tick in or after which the next step may start. -/
  counting : Bool := false
  from_ : Nat := 0
  /-- The stamp of its start, the rate and width it runs at, EYE_TYPE, EYE_H_STEP, EYE_V_STEP, EYE_DWELL at its start. -/
  stamp : Nat := 0
  rate : Nat := 0
  width : Nat := 0
  kind : Nat := 0
  hStep : Nat := 2
  vStep : Nat := 4
  dwell : Nat := 8
  deriving DecidableEq, Repr

/-- The PHY's own parts; states, flags and counters are parameters. -/
structure Phy where
  lanes : Table LaneRx := []
  /-- The rate and width of the present attempt. -/
  rate : Nat := 0
  width : Nat := 0
  /-- The training under way is a fast retrain (R291). -/
  fast : Bool := false
  /-- A valid set has come since DETECT began, so that the partner's masks are known; the rate and width it requests, 255 until known
  (R278, Table LP-3). -/
  heard : Bool := false
  reqRate : Nat := 255
  reqWidth : Nat := 255
  /-- A role conflict was seen since DETECT began, and was logged since the last training (R301); a DFE tap at its limit was
  logged since the last training began (R285). -/
  role : Bool := false
  roleLogged : Bool := false
  tapLogged : Bool := false
  /-- Bit 4 of the control field last sent and last received; this side has sent, has received BNK sets (R288). -/
  bankSent : Bool := false
  bnkOut : Bool := false
  bnkIn : Bool := false
  /-- The tick of the last drop, and whether it left ACTIVE: a second cause may arise in it (R291). -/
  dropAt : Option (Nat × Bool) := none
  /-- REFCLK is faulty (R294). -/
  refBad : Bool := false
  /-- The eye scans, by physical lane. -/
  scans : Table EyeScan := []
  deriving DecidableEq, Repr

/-! ### Link layer (spec/12_link_layer.md) -/

/-- A sequenced frame of the module: its type, stream and payload (Tables LL-3, LL-5). -/
structure TxFrame where
  ty : Nat
  stream : Nat := 0
  payload : List Nat := []
  deriving DecidableEq, Repr

/-- A received frame whose link-level checks have passed and whose contents wait to be applied (R307, R329). -/
structure RxFrame where
  ty : Nat
  stream : Nat := 0
  payload : List Nat := []
  /-- The session it was accepted in (R316). -/
  session : Nat := 0
  deriving DecidableEq, Repr

/-- The link layer's own parts; sequences, limits and flags are parameters. -/
structure LinkLayer where
  /-- Frames waiting to be sent, in the order of R311. -/
  waiting : List TxFrame := []
  /-- Sent and unacknowledged frames with their SEQ, oldest first: the retry buffer. -/
  retry : List (Nat × TxFrame) := []
  /-- Accepted frames whose contents wait to be applied, in SEQ order. -/
  rxq : List RxFrame := []
  /-- A NAK has been sent since the last frame was accepted; accepted frames not covered by an ACK (R307, R308). -/
  nakSent : Bool := false
  uncovered : Nat := 0
  /-- The ACK or NAK sent last: its type, ACKSEQ and reason (R307, R308); those that wait for the transmitter to leave Idle, as type and
  reason (R287). -/
  lastAck : Option (Nat × Nat × Nat) := none
  acksDue : List (Nat × Nat) := []
  /-- The bytes of the frame sent last, TYPE to CRC; the tick in which the last sequenced one was sent; the frames that the replay under
  way resends (R302, R310, R312). -/
  wire : List Nat := []
  sentAt : Nat := 0
  resent : List (List Nat) := []
  /-- The credit of each stream that had not been consumed when its session ended, for the frames accepted in it that still wait
  (R316). -/
  lapsed : Table Nat := []
  /-- Replays in a row without progress; a replay is under way (R309, R310). -/
  replayRun : Nat := 0
  replaying : Bool := false
  /-- The stream that last received a grant (R321). -/
  lastGrant : Nat := 7
  /-- Streams that have an expected REC_SEQ, one bit each (R317). -/
  expect : Nat := 0
  /-- Open-stream mask of the last CREDIT frame, and bytes 0-2 of the last STATUS frame (R321, R322). -/
  maskSent : Nat := 0
  statusSent : List Nat := []
  /-- A COMMIT frame is due; COMMIT_GAP runs since the last one (R322). -/
  commitDue : Bool := false
  gapRuns : Bool := false
  /-- The open transfer was ended by a session end (R316). -/
  lostXfer : Bool := false
  deriving DecidableEq, Repr

/-! ### Mirror and image store (spec/13_mirror_and_admission.md, spec/15_image_store.md) -/

/-- A record (Table LL-4 with its stream and data). `units` is 0 in a CLOSE. -/
structure Rec where
  stream : Nat
  seq : Nat
  epoch : Nat
  tag : Nat := 0
  units : Nat := 0
  closes : Bool := false
  data : List Nat := []
  deriving DecidableEq, Repr

/-- A record in the crucible (R328): the session it came in, and the PAGE_SEQs that hold its chunks (empty: not placed). -/
structure CruRec where
  r : Rec
  session : Nat
  pages : List Nat := []
  deriving DecidableEq, Repr

/-- A seal (Table IS-8). `rows` holds, per stream, the last committed REC_SEQ, the last complete epoch, DROSS_RECS,
DROSS_EPOCH and RETIRE_DURABLE. -/
structure Seal where
  heat : Nat := 0
  localHeat : Bool := false
  recovered : Bool := false
  cause : Nat := 0
  triggers : Nat := 0
  accept : Nat := 0
  stamp : Nat := 0
  maskRec : Nat := 0
  maskEpoch : Nat := 0
  maskDross : Nat := 0
  drainEnd : Nat := 0
  prev : Nat := 0
  rows : List (Nat × Nat × Nat × Nat × Nat) := []
  deriving DecidableEq, Repr

/-- An entry of a page (Tables IS-4, IS-5): KIND, the chunk's fields, its slots and their bytes. -/
structure Ent where
  kind : Nat
  slot : Nat
  count : Nat
  stream : Nat := 0
  seq : Nat := 0
  epoch : Nat := 0
  tag : Nat := 0
  units : Nat := 0
  off : Nat := 0
  first : Bool := false
  last : Bool := false
  closes : Bool := false
  bytes : List Nat := []
  deriving DecidableEq, Repr

/-- A page of the log (Table IS-3), its entries, and the seal of a seal page. Kind 5 stands for a map page (R382). -/
structure Page where
  row : Nat
  page : Nat
  pos : Nat
  block : Nat
  kind : Nat := 1
  seq : Nat := 0
  stamp : Nat := 0
  mask : Nat := 0
  ents : List Ent := []
  cast : Option Seal := none
  /-- The block header of page 0 (Table IS-6). -/
  head : List Nat := []
  /-- The 16 384 data bytes as programmed (Tables IS-2, IS-9); none before that, and none of a torn page. -/
  image : List Nat := []
  /-- Data slots assigned so far. -/
  used : Nat := 0
  /-- All slots are assigned or padded; the die is programming it. -/
  ready : Bool := false
  busy : Bool := false
  /-- Cut off by a loss of supply. -/
  torn : Bool := false
  deriving DecidableEq, Repr

/-- A block: its erase count, its programmed pages in page order, and whether an erase was cut off or its contents are no
log. An unlisted block is blank and was never erased. -/
structure Blk where
  erases : Nat := 0
  pages : List Page := []
  garbage : Bool := false
  /-- ROW_SEQ last held. -/
  lastRow : Nat := 0xFFFFFFFF
  deriving DecidableEq, Repr

/-- The open row (R375, R390): its blocks by position, the positions still in it, the page and position to be opened next. -/
structure LogRow where
  seq : Nat
  mask : Nat := 0xFFFF
  blocks : List Nat := []
  firstPage : Nat := 0
  page : Nat := 0
  pos : Nat := 0
  stamp : Nat := 0
  heat : Nat := 0
  deriving DecidableEq, Repr

/-- What waits for a place in the log: a record of the crucible by stream and REC_SEQ with
the units already placed, a retirement mark, a pour marker,
a seal. -/
inductive Item where
  | record (stream seq off : Nat)
  | mark (stream epoch stamp : Nat)
  | marker (stamp cause triggers : Nat)
  | closing (x : Seal)
  deriving DecidableEq, Repr

/-- A block erase (R392). -/
structure BlkErase where
  die : Nat
  plane : Nat
  block : Nat
  reason : Nat
  /-- 1 running, 2 suspended for programming, 3 suspended by a pour (ERASE_STATE). -/
  state : Nat := 1
  suspends : Nat := 0
  deriving DecidableEq, Repr

/-- The mirror engine and the image store. -/
structure Store where
  /-- Records in the crucible, in acceptance order. -/
  crucible : List CruRec := []
  /-- Units of unretired epochs: stream, epoch, units (MIRRORED, R340). -/
  unret : List (Nat × Nat × Nat) := []
  /-- The last closed epoch of each stream plus one (R333); 0 none. -/
  lastClosed : Table Nat := []
  /-- Records committed since the stream's last complete epoch, with the earliest epoch among them (R354). -/
  tail : Table (Nat × Nat) := []
  /-- What waits for a place; pages assigned and not yet programmed, in log order. -/
  todo : List Item := []
  pages : List Page := []
  row : Option LogRow := none
  /-- A record has been accepted since the newest seal in the log (R355). -/
  since : Bool := false
  /-- The newest seal, and whether its casting is unconfirmed. -/
  cast : Option Seal := none
  unconfirmed : Bool := false
  /-- PAGE_SEQ of the newest pour marker that no seal follows. -/
  marker : Option Nat := none
  /-- The dies' blocks, keyed by row position i = 4·q + d and block b: 1024·i + b. -/
  nand : Table Blk := []
  /-- Bad blocks by the planes' map pages, those of manufacture among them; marks not yet in a map page (R382, R389). -/
  bad : List Nat := []
  factory : List Nat := []
  badHeld : List Nat := []
  /-- MAP_SEQ by plane. -/
  mapSeq : Table Nat := []
  erase : Option BlkErase := none
  /-- Blocks queued for an erase, with its reason. -/
  eraseQueue : List (Nat × Nat) := []
  /-- By die: the stream plus one whose record it reads for a shakeout, and page indices programmed since (R385). -/
  reads : Table Nat := []
  sinceRead : Table Nat := []
  /-- Streams with a durable retirement, one bit each. -/
  retDur : Nat := 0
  /-- The sub-millijoule parts of the requirement and the margin, in microjoules (R339, R341). -/
  requireUj : Nat := 0
  marginUj : Int := 0
  bounded : Bool := false
  /-- Consecutive ticks of non-negative margin (R342). -/
  okRun : Nat := 0
  deriving DecidableEq, Repr

/-! ### Pour and shakeout (spec/14_pour_and_shakeout.md) -/

/-- The pour controller's own parts. -/
structure Pour where
  /-- The acceptance tick, and streams open in the tick before it (R350). -/
  at_ : Nat := 0
  openMask : Nat := 0
  /-- The open mask of the last tick, and the margin of the last tick of guard; none when unbounded. -/
  lastOpen : Nat := 0
  lastMargin : Option Int := none
  /-- CRUCIBLE_FILL of the last step 3 of R329. -/
  lastFill : Nat := 0
  /-- The seal that waits to become durable (R356). -/
  sealing : Option Seal := none
  /-- The ticks of supply present in rest (R365). -/
  supplyRun : Nat := 0
  deriving DecidableEq, Repr

/-- A stream's part of a shakeout (R369, R370). -/
structure ShakeStream where
  /-- Returned records in REC_SEQ order, and how many of them have been queued in this run. -/
  recs : List Rec := []
  next : Nat := 0
  /-- Pages of the next record read so far, and reads of the present one tried (R401). -/
  read : Nat := 0
  tries : Nat := 0
  drossSent : Bool := false
  markSent : Bool := false
  /-- The index of an unreadable record (R401). -/
  stop : Option Nat := none
  deriving DecidableEq, Repr

/-- A shakeout: the sets are fixed at its first command 1. -/
structure Shake where
  fixed : Bool := false
  streams : Table ShakeStream := []
  /-- The confirmation record being written (R371). -/
  confirm : Option SumRec := none
  deriving DecidableEq, Repr

/-! ### Firmware and the code flash (spec/16_onchip_flash.md) -/

/-- A running window write whose words are being programmed: address, bytes, the writing source, its tag and the number of the
last segment (R423). -/
structure WinWrite where
  addr : Nat
  data : List Nat
  src : Nat
  tag : Nat
  seg : Nat := 0
  deriving DecidableEq, Repr

/-- Firmware slots, update, protection, debug port. -/
structure Firm where
  /-- Programmed 64-bit words of the code flash by word address (bank 1 from 131072); an unlisted word is erased. -/
  code : Table Nat := []
  /-- Slot 0 holds the image it was shipped with (log entry 30). -/
  shipped : Bool := true
  /-- Execute-only bounds in force, by slot: first sector and count (R427). -/
  xo0 : Nat × Nat := (0, 0)
  xo1 : Nat × Nat := (0, 0)
  /-- A slot whose erase was cut off by a pour or a reset (R406, R426). -/
  cut : Option Nat := none
  /-- The slot's erase was suspended by a pour in this boot and is never resumed (R426). -/
  held : Bool := false
  write : Option WinWrite := none
  verifying : Bool := false
  /-- The protection record in force; none gives the defaults (R429). -/
  record : Option ProtRec := none
  /-- A record being written and what answers it: 1 OEM_PW_CHANGE, 2 FW_CMD 3, 3 PROT_CODE_SET, 4 DEBUG_CLOSE, 5 none. -/
  writing : List (ProtRec × Nat × Nat × Nat) := []
  /-- The debug port was opened by a password entry since the last power-on reset (R431). -/
  debugOpen : Bool := false
  deriving DecidableEq, Repr

/-! ### Cascade (spec/17_cascade.md) -/

/-- A CAN frame queued for sending: its function, payload, the tick it was queued in; once it is sent its identifier, (function << 7) |
node, and whether it switched bit rates (R434). -/
structure CanTx where
  fn : Nat
  payload : List Nat := []
  at_ : Nat := 0
  id : Nat := 0
  brs : Bool := false
  deriving DecidableEq, Repr

/-- What is kept of another member (R439, R456). -/
structure Member where
  heard : Bool := false
  /-- The tick of its last heartbeat plus one, and its heartbeat period in cycles. -/
  hbAt : Nat := 0
  period : Nat := 64
  /-- It was present at the last look. -/
  here : Bool := false
  ready : Bool := false
  group : Nat := 0
  weight : Nat := 0
  peak : Nat := 0
  guarding : Bool := false
  /-- The last event sequence received plus one (R456). -/
  evSeq : Nat := 0
  /-- Frames of functions 1, 3, 4 and 7 in a cycle: the cycle and their number (R458). -/
  cyc : Nat := 0
  frames : Nat := 0
  deriving DecidableEq, Repr

/-- A firmware distribution (R460, R461): the nodes still to serve, the node served, its step, the tick it began, and the
image's length served so far. -/
structure Dist where
  todo : List Nat := []
  node : Nat := 0
  step : Nat := 0
  addr : Nat := 0
  since : Nat := 0
  deriving DecidableEq, Repr

/-- The cascade's own parts. -/
structure Cascade where
  /-- Frames queued for sending, in order (R442: a pour command goes ahead of every other). -/
  txq : List CanTx := []
  /-- The frame whose sending was completed last. -/
  lastTx : Option CanTx := none
  /-- Event frames queued for sending, at most 32, and those sent in this cycle (R455). -/
  evTx : List LogRec := []
  evCycle : Nat := 0
  members : Table Member := []
  /-- The boot announcement has been queued (R170). -/
  announced : Bool := false
  /-- POUR#: the pulse's end, ticks after release not counted, armed, stuck (R442, R445, R446). -/
  pulseEnd : Nat := 0
  quiet : Nat := 0
  armed : Bool := false
  stuck : Bool := false
  /-- The bus is held dominant, or was since the last heartbeat (R447). -/
  dominant : Bool := false
  dominantSince : Bool := false
  busOff : Bool := false
  /-- The last heat assignment received and its tick; the latest HEAT_LAST reported since boot (R450, R451). -/
  heat : Option (Nat × Nat) := none
  heatTop : Option Nat := none
  /-- The cycle in which the stagger reference came (R167), and the cycle DAMP completed in. -/
  stagger : Option Nat := none
  dampCyc : Nat := 0
  /-- Another module carries this node's identifier (R441). -/
  twin : Bool := false
  dist : Option Dist := none
  deriving DecidableEq, Repr

/-! ### Service reports (spec/19_service.md) -/

/-- A running service report (R489, R490): its kind (0: none runs), the requesting source, whether it was locked, the cycle of
the request, and the physical lanes it scans, one bit each. -/
structure Report where
  kind : Nat := 0
  src : Nat := 0
  locked : Bool := false
  cyc : Nat := 0
  lanes : Nat := 0
  deriving DecidableEq, Repr

/-- The whole module. -/
structure State where
  /-- The commands that wait, first in, first out. -/
  pending : List Instr := []
  /-- The logic die's registers, by register number (index * 256 + sub-index); an unlisted one holds its default. -/
  reg : Table Nat := []
  /-- The HV die's registers: its share of the settings as applied, its readings and states; unlisted: the default. -/
  hv : Table Nat := []
  phase : Phase := .idle
  /-- Shakeout runs; fettling runs (R2). -/
  shake : Bool := false
  fettling : Bool := false
  /-- CONFIG_LOAD has completed in this boot; the takeover tick has passed (R159, R161). -/
  loaded : Bool := false
  taken : Bool := false
  /-- The thermal admission hold is in force; the case warning has been raised and not re-armed (R132). -/
  admHold : Bool := false
  caseWarned : Bool := false
  /-- START_STEP when start entered STOPPED (R173). -/
  stopAt : Nat := 0
  /-- This boot began held by RESTART 2 (R68). -/
  heldBoot : Bool := false
  /-- Consecutive counted ticks of a condition, by condition number (R499). -/
  runs : Table Nat := []
  /-- The bits of flag parameters that were set in the present tick, by register (R69). -/
  setNow : Table Nat := []
  /-- What the pins and converters read at the last tick's start. -/
  smp : Sample := {}
  clk : Clock := {}
  trk : Tracker := {}
  sup : Supply := {}
  bar : Barrier := {}
  pads : Pads := {}
  svc : Service := {}
  log : Log := {}
  fla : Flash := {}
  feeds : Table FeedX := []
  bus : Bus := {}

  lad : Ladle := {}

  hux : Holdup := {}

  seq : Seq := {}

  phy : Phy := {}

  ll : LinkLayer := {}

  sto : Store := {}

  pour : Pour := {}
  shk : Shake := {}

  fw : Firm := {}

  cas : Cascade := {}

  rep : Report := {}
  /-- The count that the next free value is drawn at: the model's own, no state of the spec (log entry 4). -/
  free : Nat := 0
  deriving DecidableEq, Repr

/-- The module before any supply: every register at its default, nothing stored, nothing waiting (log entry 6). -/
def State.reset : State := {}

end Sys2Proof.Machine
end

