-- ==== Sys2Proof/Machine/Ops.lean ====
section
/-! DEFINITION. The named operations every meaning is built of: registers of the two dies, flags and counters, stamps,
run counts, windows of the angle schedule. -/
namespace Sys2Proof.Machine

/-! ### Registers -/

/-- Read a register of the logic die. -/
def State.rd (s : State) (k : Nat) : Nat := tget (dfltAt k) s.reg k

/-- Set a register in a table of registers, cut to its type's size (Table OD-1). -/
def regSet (t : Table Nat) (k v : Nat) : Table Nat := tset (dfltAt k) t k (v % 256 ^ sizeAt k)

/-- Write a register of the logic die. -/
def State.wr (s : State) (k v : Nat) : State := { s with reg := regSet s.reg k v }

/-- Read a register of the HV die: a setting in force there, a reading, a state. -/
def State.hrd (s : State) (k : Nat) : Nat := tget (dfltAt k) s.hv k

/-- Write a register of the HV die. -/
def State.hwr (s : State) (k v : Nat) : State := { s with hv := regSet s.hv k v }

/-- Read a signed register. -/
def State.rdI (s : State) (k : Nat) : Int := asSigned (sizeAt k) (s.rd k)
def State.hrdI (s : State) (k : Nat) : Int := asSigned (sizeAt k) (s.hrd k)

/-- Write a signed register. -/
def State.wrI (s : State) (k : Nat) (v : Int) : State := s.wr k (ofSigned (sizeAt k) v)
def State.hwrI (s : State) (k : Nat) (v : Int) : State := s.hwr k (ofSigned (sizeAt k) v)

/-- Add one to a counter, which wraps at its width (R477). -/
def State.bump (s : State) (k : Nat) : State := s.wr k (s.rd k + 1)

/-- Add to a counter. -/
def State.bumpBy (s : State) (k n : Nat) : State := s.wr k (s.rd k + n)

/-- Add one to a counter that saturates at `top`. -/
def State.bumpSat (s : State) (k top : Nat) : State := s.wr k (min top (s.rd k + 1))

/-- Apply an update where a condition holds. -/
def State.iff (s : State) (c : Bool) (f : State → State) : State := if c then f s else s

/-- Apply an update for each element of a list, in order. -/
def State.each {α : Type} (s : State) (l : List α) (f : α → State → State) : State :=
  l.foldl (fun s a => f a s) s

/-! ### Run counts of R499 -/

/-- How many consecutive ticks a condition has held. -/
def State.run (s : State) (c : Nat) : Nat := tget 0 s.runs c

/-- Count one tick's sample of a condition: one more where it holds, 0 where it does not (R499). -/
def State.count (s : State) (c : Nat) (holds : Bool) : State :=
  { s with runs := tset 0 s.runs c (if holds then s.run c + 1 else 0) }

/-- Set a condition's count. -/
def State.setRun (s : State) (c n : Nat) : State := { s with runs := tset 0 s.runs c n }

/-! ### Time -/

/-- The stamp of this tick (R11, R143): cycle count in bits 47-16, angle in bits 15-0. -/
def State.stamp (s : State) : Nat := s.clk.count.toNat * 65536 + s.clk.tic * 64

/-- Whether count `b` is later than count `a` (R11); the order at a distance of 2^31 is left open. -/
def laterCount (a b : BitVec 32) : Bool :=
  let d := (b - a).toNat
  if d = 2 ^ 31 then Config.laterAtHalf a b else decide (0 < d ∧ d < 2 ^ 31)

/-- Whether stamp `b` is later than stamp `a` (R11). -/
def laterStamp (a b : Nat) : Bool :=
  let ca := BitVec.ofNat 32 (a / 65536)
  let cb := BitVec.ofNat 32 (b / 65536)
  if ca = cb then decide (a % 65536 < b % 65536) else laterCount ca cb

/-- The angle at the start of a tick, in au (R8). -/
def angleOf (tic : Nat) : Nat := tic * 64

/-- Whether a tick lies in a window of Table MA-2 given in au, first and last, with a shift added modulo 65536 (R147). -/
def inWindow (tic first last shift : Nat) : Bool :=
  let a := (angleOf tic + 65536 - shift % 65536) % 65536
  if first ≤ last then decide (first ≤ a ∧ a ≤ last) else decide (first ≤ a ∨ a ≤ last)

/-- The first tick of a window that begins at `first` au (R147). -/
def windowTick (first shift : Nat) : Nat := ((first + shift) % 65536) / 64

/-- A tick is the first one of its window in a cycle in which its task falls due: the tick a task starts in (R147). A window that ends
in the next cycle belongs to the one it begins in. -/
def windowBegins (cyc tic first shift : Nat) (due : Nat → Bool) : Bool := tic = windowTick first shift && due cyc

/-- Ticks since the HV die's present or last window that begins at `first` au began (R147). -/
def State.windowPos (s : State) (first : Nat) : Nat := (s.clk.hvTic + 1024 - windowTick first s.clk.shift) % 1024

/-- The HV die's reported readings of a block are taken in this tick (R147, Table MA-2 row 3): the first of P2, not while the block is
held; in every tick where the wake stage runs alone, without an NCO (log entry 92). -/
def State.snaps (s : State) (hold : Nat) : Bool :=
  !s.sup.main || (s.windowPos 16384 = 0 && !(s.rd Reg.idleHold).testBit hold)

/-- Whether a task that repeats every `period` cycles at `phase` falls due in an elapsed cycle (R147). -/
def dueCycle (cyc period phase : Nat) : Bool := decide (period ≠ 0 ∧ cyc % period = phase % period)

/-- The cycles of an interval given in ticks. -/
def cyclesOf (ticks : Nat) : Nat := ticks / 1024

/-! ### Activities and supply -/

/-- ACTIVITY's bits (spec/00_scope.md Table SC-4, R2). -/
def State.activity (s : State) : Nat :=
  bitIf (s.phase = .start) 0 + bitIf (s.phase = .guard) 1 + bitIf (s.phase = .pour) 2 + bitIf (s.phase = .rest) 3
    + bitIf s.shake 4 + bitIf s.fettling 5

/-- A pour or rest runs. -/
def State.pouring (s : State) : Bool := s.phase = .pour || s.phase = .rest

/-- The logic side runs from VLOG without the power side (R35). -/
def State.vlogAlone (s : State) : Bool := s.sup.source = .vlog && !s.sup.main

/-- The image store works, but on VLOG without the power side, where it is idle (Table AR-4). -/
def State.storeRuns (s : State) : Bool := !s.vlogAlone

/-- The logic side runs from USB VBUS alone (R27). -/
def State.coldRead (s : State) : Bool := s.sup.source = .usb

/-- The rates of R74: guard's bucket while guard, shakeout or fettling runs, else start's. -/
def State.bucket (s : State) : Nat := if s.phase = .guard then s.rd Reg.rateBucket else s.rd Reg.startBucket
def State.refill (s : State) : Nat := if s.phase = .guard then s.rd Reg.rateRefill else s.rd Reg.startRefill

/-- A fresh free value of 32 bits, and the state with the count moved on (log entry 4). -/
def State.freeVal (s : State) : Nat := (Config.freeWord s.free).toNat
def State.freeNext (s : State) : State := { s with free := s.free + 1 }

/-! ### The HV die's share of the settings -/

/-- Whether a parameter belongs to the HV die's share of the working set: the time base's, the feeds', the ladle's and
the holdup's settings (spec/01_architecture.md Table AR-2 gives these blocks to the HV die). -/
def hvShare (k : Nat) : Bool :=
  let i := k / 256
  decide ((0x1200 ≤ i ∧ i ≤ 0x12FF) ∨ (0x2000 ≤ i ∧ i ≤ 0x22FF))

/-- Send a B3 command frame that sets HV registers, and keep it until it is reported applied (R23). -/
def State.sendCmd (s : State) (sets : List (Nat × Nat)) (share : Bool := false) : State :=
  { s with bar := { s.bar with
      unapplied := s.bar.unapplied ++ [{ seq := s.bar.nextSeq, sets := sets, share := share }]
      nextSeq := s.bar.nextSeq + 1 } }

/-- Set HV registers, in order. -/
def State.hwrs (s : State) (sets : List (Nat × Nat)) : State := s.each sets (fun e s => s.hwr e.1 e.2)

/-- A register's row is a setting: written by users and held (RW, RWI or RWU, persisted). -/
def isSetting (k : Nat) : Bool :=
  (rowAt k).elim false (fun r => r.per = .persisted)

/-- The HV die's share of the working set: every setting of its blocks that differs from its default. -/
def State.hvSettings (s : State) : List (Nat × Nat) := s.reg.filter (fun e => hvShare e.1 && isSetting e.1)

/-- The logic die sends the HV die's share of the working set (R159, R161, R500). -/
def State.sendShare (s : State) : State :=
  let s := s.sendCmd s.hvSettings true
  { s with bar := { s.bar with shareSent := true } }

/-- The HV die takes its share in one tick (R159, R161, R500): what the share does not name is at its default. -/
def State.applyShare (s : State) (sets : List (Nat × Nat)) : State :=
  { s with hv := s.hv.filter (fun e => !(isSetting e.1)),
           bar := { s.bar with hvConfigured := true } }.hwrs sets

/-! ### NTC sensors (spec/04_electrical.md Table EL-7: a 12-bit ratio to the bias through 10 kΩ) -/

/-- `n` binary digits after the point of the logarithm to base 2 of a mantissa in 1 to 2, given in 2^-32: each digit is that of its
square. -/
def log2Digits : Nat → Nat → Nat → Nat
  | 0, _, acc => acc
  | n + 1, m, acc =>
    let q := m * m / 2 ^ 32
    if 2 ^ 33 ≤ q then log2Digits n (q / 2) (2 * acc + 1) else log2Digits n q (2 * acc)

/-- The logarithm to base 2 of a positive fraction, in 2^-20. -/
def log2Ratio (num den : Nat) : Int :=
  let x := num * 2 ^ 44 / den
  let e := Nat.log2 x
  (((e : Int) - 44) * 2 ^ 20) + log2Digits 20 (x * 2 ^ 32 / 2 ^ e) 0

/-- The temperature of a 10 kΩ, 25 °C NTC in 0.1 °C from its ratio (of 4096) and its B value (R183, R201): 1/T = 1/298.15 K +
ln(R/10 kΩ)/B, rounded down; none where the ratio is that of a short or an open pad (log entry 84). -/
def ntcTemp (ratio beta : Nat) : Option Int :=
  if ratio = 0 || 4096 ≤ ratio then none
  else
    let ln : Int := log2Ratio ratio (4096 - ratio) * 45426 / 65536
    let den : Int := 100 * beta * 2 ^ 20 + 29815 * ln
    if den ≤ 0 then none else some ((29815 * beta * 2 ^ 20 * 100 / den - 27315) / 10)

/-- The temperature an NTC that reads valid shows: -40 to +150 °C (R183, R201). -/
def ntcValidTemp (ratio beta : Nat) : Option Int :=
  match ntcTemp ratio beta with
  | some t => if -400 ≤ t ∧ t ≤ 1500 then some t else none
  | none => none

end Sys2Proof.Machine
end

