-- ==== Sys2Proof/Machine/Flags.lean ====
section
/-! DEFINITION. Flag parameters: bits the module sets and software clears (spec/02_object_dictionary.md R69, R70;
spec/18_events_and_faults.md R476, Table EV-2). -/
namespace Sys2Proof.Machine

/-- Set bit `i` of a flag parameter (R476); what was set in the present tick is kept in mind for R69. -/
def State.flag (s : State) (k i : Nat) : State :=
  { s.wr k (s.rd k ||| 2 ^ i) with setNow := tset 0 s.setNow k (tget 0 s.setNow k ||| 2 ^ i) }

/-- Clear the bits of a mask, leaving the others alone. -/
def State.clearBits (s : State) (k mask : Nat) : State := s.wr k (s.rd k ^^^ (s.rd k &&& mask))

/-- A WRITE to a flag parameter: every bit written as 1 is cleared, but for a bit the module has set in the same tick (R69). -/
def State.clearWritten (s : State) (k v : Nat) : State := s.clearBits k (v ^^^ (v &&& tget 0 s.setNow k))

/-- Give bit `i` of a logic-die register a value. -/
def State.putBit (s : State) (k i : Nat) (v : Bool) : State := if v then s.flag k i else s.clearBits k (2 ^ i)

/-- Bit `i` of a logic-die register. -/
def State.bitOf (s : State) (k i : Nat) : Bool := (s.rd k).testBit i

/-- FAULT_SUMMARY (Table EV-2). -/
def State.faultSummary (s : State) : Nat :=
  let nz := fun (k i : Nat) => bitIf (s.rd k ≠ 0) i
  nz Reg.serviceFlags 0 + nz Reg.startFlags 1 + nz Reg.tbFlags 2 + nz (Reg.feedFlags 0) 3 + nz (Reg.feedFlags 1) 4
    + nz Reg.ladleFlags 5 + nz Reg.ladleFault 6 + nz Reg.huFlags 7 + nz Reg.padContention 8 + nz Reg.elecFlags 9
    + bitIf (s.rd Reg.barrierState ≠ 1) 10
    + bitIf (s.rd Reg.seqFlags ≠ 0 || (List.range 8).any (fun n => s.rd (Reg.railFlags n) ≠ 0)) 11
    + nz Reg.phyFlags 12 + nz Reg.llFlags 13 + nz Reg.mrFlags 14 + nz Reg.pourFlags 15 + nz Reg.isFlags 16
    + nz Reg.fwFlags 17 + nz Reg.casFlags 18 + nz Reg.evFlags 19 + nz Reg.startStop 20

end Sys2Proof.Machine
end

