-- ==== Sys2Proof/Machine/Events.lean ====
section
/-! DEFINITION. Creating an event, the queue, and the log ring (spec/18_events_and_faults.md R464-R475; the ring's sectors
spec/16_onchip_flash.md R413, R414). -/
namespace Sys2Proof.Machine

/-- The slots of the ring: 176 positions of 32 (R413). -/
def ringSlots : Nat := 5632

/-- The severity of an event (Table EV-4); some depend on the detail. -/
def sevOf (code detail : Nat) : Nat :=
  if [0x1004, 0x1106, 0x2001, 0x2005, 0x2103, 0x2106, 0x2201, 0x2202, 0x2205, 0x2206, 0x2301, 0x2302, 0x2307, 0x2309,
      0x230A, 0x3005].contains code then 2
  else if [0x4005, 0x4006, 0x4103, 0x4107, 0x4108, 0x410A, 0x4201, 0x4202, 0x4205, 0x5003, 0x5004, 0x5005, 0x7001,
      0x7002, 0x7007].contains code then 2
  else if [0x4001, 0x4003, 0x4004, 0x4008].contains code then 3
  else if code = 0x1101 then (if detail = 3 || detail = 4 then 1 else 0)
  else if code = 0x1102 then (if detail = 0 || detail = 2 then 1 else 0)
  else if code = 0x200A then (if detail = 2 || detail = 4 then 2 else 0)
  else if [0x1001, 0x1002, 0x1003, 0x1104, 0x1202, 0x1207, 0x2003, 0x2101, 0x2107, 0x2108, 0x2208, 0x3001, 0x3003,
      0x3104, 0x4002, 0x4009].contains code then 0
  else if [0x400A, 0x4101, 0x4102, 0x4203, 0x5002].contains code then 0
  else 1

/-- The data bank of a ring slot: positions alternate between the banks (R413). -/
def slotBank (slot : Nat) : Nat := (slot / 32) % 2

/-- The data-flash sector of ring position `r` (R413). -/
def ringSector (r : Nat) : Nat := 40 + r / 2

/-- Whether an erase runs in a data bank; a suspended one does not (R405), a commit's own one does (R406, R410). -/
def State.dataErasing (s : State) (bank : Nat) : Bool :=
  (match s.fla.erase with
    | some e => e.bank = bank && !e.suspended
    | none => false)
  || s.fla.nested = some bank

/-- Whether a data bank is busy (R405): an erase runs in it, or a commit whose first erase has begun writes it (R410). -/
def State.dataBusy (s : State) (bank : Nat) : Bool :=
  s.dataErasing bank
  || (match s.svc.commit with
    | some (b, _) => b = bank && s.fla.begun
    | none => false)

/-- A slot of the ring. -/
def State.slot (s : State) (i : Nat) : Slot := tget .blank s.log.ring i

/-- Whether ring position `r` is blank (R413). -/
def State.posBlank (s : State) (r : Nat) : Bool :=
  s.log.ring.all (fun e => !(decide (e.1 / 32 = r % 176)))

/-- Queue the erase of a data-flash sector, once (R418). -/
def State.queueErase (s : State) (bank sector : Nat) : State :=
  if s.fla.queue.contains (bank, sector) then s
  else { s with fla := { s.fla with queue := s.fla.queue ++ [(bank, sector)] } }

/-- Queue the erase of ring position `r` unless it is blank. -/
def State.queuePos (s : State) (r : Nat) : State :=
  if s.posBlank r then s else s.queueErase (r % 2) (ringSector (r % 176))

/-- Whether a record can be programmed at the head now: no program before CONFIG_LOAD completes (R159), the head's bank
not busy (R414), the slot blank (R413). -/
def State.canWrite (s : State) : Bool :=
  s.loaded && !s.dataBusy (slotBank s.log.head) && s.slot s.log.head = .blank

/-- Program one record at the head: it takes the next LOG_INDEX, and the head moves on. Where the head enters position r,
position r + 3 is erased if it is not blank (R413). -/
def State.putRecord (s : State) (r : LogRec) : State :=
  let h := s.log.head
  let s := { s with log := { s.log with
      ring := tset .blank s.log.ring h (.valid r s.log.index)
      index := s.log.index + 1
      head := (h + 1) % ringSlots
      writing := h :: s.log.writing } }
  let s := s.bumpBy Reg.wordsProgrammed 8
  if (h + 1) % 32 = 0 then s.queuePos ((h / 32 + 4) % 176) else s

/-- Program records from the front of a list while the head can take them; what is left stays queued. -/
def State.drain (s : State) : List LogRec → State
  | [] => { s with log := { s.log with queue := [] } }
  | r :: rs => if s.canWrite then (s.putRecord r).drain rs else { s with log := { s.log with queue := r :: rs } }

/-- A drop (R470): LOG_DROPS, bit 0 of EV_FLAGS, the mark on the next own record, event 0x6001 owed; before CONFIG_LOAD
completes also START_LOG_DROPS (R159). -/
def State.dropRecord (s : State) : State :=
  let s := (s.bump Reg.logDrops).flag Reg.evFlags 0
  let s := if s.loaded then s else s.bump Reg.startLogDrops
  { s with log := { s.log with mark := true, owed := true } }

/-- Whether the queue takes a record of a severity (R470). -/
def State.queueTakes (s : State) (sev : Nat) : Bool :=
  let n := s.log.queue.length
  if !s.loaded then n < 64 else if 2 ≤ sev then n < 128 else n < 112

/-- Queue an own record, or drop it (R470). -/
def State.enqueue (s : State) (r : LogRec) : State :=
  if s.queueTakes r.sev then
    { s with log := { s.log with queue := s.log.queue ++ [{ r with dropped := s.log.mark }], mark := false } }
  else s.dropRecord

/-- The record of an event of severity 1 that reports drops, with the next EVENT_SEQ: 0x5008 and 0x6001 (Table EV-4). -/
def State.dropReportRec (s : State) (code a : Nat) : LogRec :=
  { tb := s.clk.tbAtTick, code := code, seq := (s.rd Reg.eventSeq + 1) % 2 ^ 32, stamp := s.stamp, sev := 1,
    node := s.rd Reg.nodeId, boot := s.rd Reg.bootCount, a := a }

/-- Queue an event record for sending over CAN (spec/17_cascade.md R455): by EVENT_TX, at most 32 waiting. A drop sets bit 10 of
CAS_FLAGS; where it was clear, event 0x5008 is logged (log entry 33). -/
def State.sendEvent (s : State) (r : LogRec) : State :=
  let tx := s.rd Reg.eventTx
  if s.coldRead || tx = 0 || (tx = 1 && r.sev = 0) then s
  else if s.cas.evTx.length < 32 then { s with cas := { s.cas with evTx := s.cas.evTx ++ [r] } }
  else
    let first := !s.bitOf Reg.casFlags 10
    let s := (s.bump Reg.eventTxDrops).flag Reg.casFlags 10
    if first then
      let r := s.dropReportRec 0x5008 (s.rd Reg.eventTxDrops)
      (s.wr Reg.eventSeq r.seq).enqueue r
    else s

/-- Event 0x6001 once the queue has room again (R470). -/
def State.payOwed (s : State) : State :=
  if s.log.owed && s.loaded && s.log.queue.length < 112 then
    let r := s.dropReportRec 0x6001 (s.rd Reg.logDrops)
    let s := { s.wr Reg.eventSeq r.seq with log := { s.log with owed := false } }
    (s.enqueue r).sendEvent r
  else s

/-- Write the queue to the ring in order as far as the head's bank allows; what is left waits (R414, R471). -/
def State.flushLog (s : State) : State :=
  let s := s.drain s.log.queue
  { s with log := { s.log with wanted := !s.log.queue.isEmpty } }.payOwed

/-- Whether a record is written at once: severity 3, the erase records of R392, event 0x7006 with detail 2 (R471). -/
def atOnceOf (code sev detail : Nat) : Bool :=
  sev = 3 || code = 0x4101 || code = 0x4102 || (code = 0x7006 && detail = 2)

/-- Cold read's records: the boot event, quarantine and password lockout, each programmed only into a blank slot of the
head's sector and only while USB_VBUS reads 4.40 V or more; else dropped without a count (R472, R122). -/
def State.coldRecord (s : State) (r : LogRec) : State :=
  if s.slot s.log.head = .blank && 4400 ≤ s.smp.usb && s.fla.erase.isNone then
    let h := s.log.head
    { s with log := { s.log with
        ring := tset .blank s.log.ring h (.valid r s.log.index), index := s.log.index + 1
        head := if (h + 1) % 32 = 0 then h else h + 1
        writing := h :: s.log.writing } }
  else s

/-- The ring through a reset: without a supply, records whose programs are under way are torn (R122, R468). -/
def Log.reset (l : Log) (warm : Bool) : Log :=
  { ring := if warm then l.ring else l.writing.foldl (fun t n => tset .blank t n .torn) l.ring }

/-- Create an event of a given severity (R464): the next EVENT_SEQ, this tick's stamp, LAST_FAULT for severity 2, the
queue or the ring, and the cascade. -/
def State.eventSev (s : State) (sev code : Nat) (obj detail a b : Nat) (ext : List Nat) : State :=
  if s.coldRead && !([0x1001, 0x1103, 0x1105].contains code) then s
  else
    let seq := (s.rd Reg.eventSeq + 1) % 2 ^ 32
    let s := s.wr Reg.eventSeq seq
    let s := if sev = 2 then (s.wr Reg.lastFaultCode code).wr Reg.lastFaultStamp s.stamp else s
    let r : LogRec := { tb := s.clk.tbAtTick, atOnce := atOnceOf code sev detail, cold := s.coldRead, held := !s.loaded,
                        code := code, seq := seq, stamp := s.stamp, sev := sev, node := s.rd Reg.nodeId,
                        boot := s.rd Reg.bootCount, obj := obj, detail := detail, a := a % 2 ^ 32, b := b % 2 ^ 32,
                        ext := ext }
    if s.coldRead then s.coldRecord r
    else if r.atOnce then
      let s := s.flushLog
      if s.log.queue.isEmpty && s.canWrite then
        let s := s.putRecord { r with dropped := s.log.mark }
        { s with log := { s.log with mark := false } }.sendEvent r
      else
        let s := s.enqueue r
        { s with log := { s.log with wanted := true } }.sendEvent r
    else (s.enqueue r).sendEvent r

/-- Create an event (Table EV-4). Values of signed parameters are given as 32-bit two's complement. -/
def State.event (s : State) (code : Nat) (obj : Nat := 0xFF) (detail a b : Nat := 0) : State :=
  s.eventSev (sevOf code detail) code obj detail a b []

/-! ### Records as bytes -/

/-- The 64 bytes of a record with a LOG_INDEX (Table EV-1). -/
def recBytes (r : LogRec) (index : Nat) : List Nat :=
  let flags := r.tb % 8 + bitIf r.atOnce 3 + bitIf r.cold 4 + bitIf r.held 5 + bitIf r.dropped 6
  let head := [r.kind, flags] ++ leBytes 2 r.code ++ leBytes 4 r.seq ++ leBytes 6 r.stamp ++ [r.sev, r.node]
    ++ leBytes 4 r.boot
  let body := if r.ext.isEmpty then [r.obj, r.detail, 0, 0] ++ leBytes 4 r.a ++ leBytes 4 r.b else r.ext
  let front := padTo 60 0 (if r.kind = 2 then 2 :: r.ext else head ++ body) ++ leBytes 2 index
  front ++ leBytes 2 (crc16 front)

/-- The bytes of ring slot `n` (R468): blank reads 0xFF; what a torn slot reads as is left open (log entry 31). -/
def slotBytes (n : Nat) : Slot → List Nat
  | .blank => List.replicate 64 0xFF
  | .torn => (List.range 64).map (fun i => (Config.tornByte (64 * n + i)).toNat)
  | .valid r i => recBytes r i.toNat

end Sys2Proof.Machine
end

