-- ==== Sys2Proof/Machine/StartOps.lean ====
section
/-! DEFINITION. What other chapters need of start (spec/06_start_up.md): its steps, its stop, and the run-count numbers of
every tick-counted condition (R499). -/
namespace Sys2Proof.Machine

/-! Codes of START_STEP (Table SU-1). -/
namespace Step
def done : Nat := 0
def logicBoot : Nat := 1
def powerWake : Nat := 2
def configLoad : Nat := 3
def configHeld : Nat := 4
def onSlots : Nat := 5
def damp : Nat := 6
def chargeWait : Nat := 7
def charge : Nat := 8
def stopped : Nat := 9
end Step

/-- The step of start. -/
def State.step (s : State) : Nat := s.rd Reg.startStep

/-- Start has reached a step. -/
def State.atStep (s : State) (n : Nat) : Bool := s.phase = .start && s.rd Reg.startStep = n

/-- Start enters STOPPED with a cause; charging stays permitted only under cause 4 (R173; event 0x1004). A start that is STOPPED already
keeps its cause and its step. -/
def State.stopStart (s : State) (cause : Nat) : State :=
  if s.phase = .start && s.rd Reg.startStep ≠ Step.stopped then
    let s := { s with stopAt := s.rd Reg.startStep, lad := { s.lad with permit := s.lad.permit && cause = 4 } }
    ((s.wr Reg.startStep Step.stopped).wr Reg.startStop cause).event 0x1004 0xFF cause
  else s

/-- The tick in which a command at 0 au, or a command within a tick, takes effect: a command after CYCLE_START belongs to
the tick about to run. -/
def State.tick (s : State) : Nat := if s.clk.fresh then s.clk.now + 1 else s.clk.now

/-- A pad reads 2.0 V or more, by pad bit; it reads 0.8 V or less (R107). -/
def State.padHigh (s : State) (p : Nat) : Bool := s.smp.pads.toNat.testBit p
def State.padLow (s : State) (p : Nat) : Bool := s.smp.padsLow.toNat.testBit p

/-! ### Pads (spec/03_package_and_pads.md R106-R110) -/

/-- The level a pad is driven to: none where it is released or not driven (R107). -/
def State.padDriven (s : State) (p : Nat) : Option Bool :=
  if p < 8 then (let l := tget 0 s.pads.en p; if l = 1 then some false else if l = 2 then some true else none)
  else if p = 8 then s.pads.pfw
  else if p = 9 then (if s.pads.hostRst then some false else none)
  else if p = 10 then (if s.pads.fault then some false else none)
  else if s.pads.pour then some false else none

/-- A pad's commanded level as the contention event carries it: 1 high, 0 low. -/
def State.padCommand (s : State) (p : Nat) : Nat := if s.padDriven p = some true then 1 else 0

/-- A pad is in Limited; a pad is Off (Table PK-5). -/
def State.padLimited (s : State) (p : Nat) : Bool := tget 0 s.pads.lim p ≠ 0
def State.padIsOff (s : State) (p : Nat) : Bool := s.pads.off.testBit p

/-- A pad's change of contention state is logged while the firmware runs (R109). -/
def State.padEvent (s : State) (p detail : Nat) : State :=
  s.iff s.sup.running (fun s => s.event 0x7003 p detail (s.padCommand p))

/-- Return one pad to Normal, logged where it was not (R109). -/
def State.padToNormal (s : State) (p : Nat) : State :=
  if s.padLimited p || s.padIsOff p then
    { s with pads := { s.pads with lim := terase s.pads.lim p, off := s.pads.off ^^^ (s.pads.off &&& 2 ^ p) } }.padEvent p 2
  else s

/-- Return the named pads from Off to Normal (R108). -/
def State.rearmPads (s : State) (mask : Nat) : State :=
  s.each (List.range 12) (fun p s => if mask.testBit p && s.padIsOff p then s.padToNormal p else s)

/-- Run-count number of a pad's ticks without a mismatch. -/
def rcPadClean (p : Nat) : Nat := 20 + p

/-- A pad matches: driven high it reads at least 2.0 V, driven low at most 0.8 V; a pad that is not driven matches (R107). -/
def State.padMatches (s : State) (p : Nat) : Bool :=
  match s.padDriven p with
  | some true => s.padHigh p
  | some false => s.padLow p
  | none => true

/-- A tick's samples of the limited pads. -/
def State.tickPads (s : State) : State :=
  s.each (List.range 12) (fun p s => s.count (rcPadClean p) (s.padLimited p && s.padMatches p))

end Sys2Proof.Machine
end

