-- ==== Sys2Proof/Machine/FeedOps.lean ====
section
/-! DEFINITION. The feeds' operations (spec/07_feeds_and_efuse.md): protection timers, state entries, the damaged-FET tests,
sharing and VBUS_AVG. What the HV die's blocks find, the logic die's flags, counters and events, goes over B1 (R18; log entry 20). -/
namespace Sys2Proof.Machine

/-! Codes of FEED_STATE (Table FE-1). -/
namespace Fs
def unseated : Nat := 0
def seated : Nat := 1
def softStart : Nat := 2
def on : Nat := 3
def blocked : Nat := 4
def latched : Nat := 5
def damaged : Nat := 6
end Fs

/-! Run counts of a feed's conditions, eight per feed, and of the bus. -/
def rcSeat (f : Nat) : Nat := 200 + 10 * f
def rcRel (f : Nat) : Nat := 201 + 10 * f
def rcSs (f : Nat) : Nat := 202 + 10 * f
def rcBack (f : Nat) : Nat := 203 + 10 * f
def rcOvOk (f : Nat) : Nat := 204 + 10 * f
/-- Tests T1, T2, T3: t is 1 to 3. -/
def rcTest (f t : Nat) : Nat := 204 + 10 * f + t
def rcSag : Nat := 220
def rcSagHu : Nat := 221
/-- Cycles in a row with the sharing bound missed (R194). -/
def rcShare : Nat := 222

/-- A finding of the HV die waits for a B1 frame, with the tick it was taken in (R18, R143); there is none to take it while the
logic die does not run (log entry 20). -/
def State.told (s : State) (l : List Note) : State :=
  if s.sup.running then { s with bar := { s.bar with reports := s.bar.reports ++ [(s.clk.hvTic, l)] } } else s

def State.feedX (s : State) (f : Nat) : FeedX := tget {} s.feeds f
def State.setFeedX (s : State) (f : Nat) (x : FeedX) : State := { s with feeds := tset {} s.feeds f x }

def State.feedSt (s : State) (f : Nat) : Nat := s.hrd (Reg.feedState f)

/-- Samples of one feed. -/
def State.feedMv (s : State) (f : Nat) : Nat := if f = 0 then s.smp.feedA else s.smp.feedB
def State.srcMv (s : State) (f : Nat) : Nat := if f = 0 then s.smp.srcA else s.smp.srcB
def State.feedMa (s : State) (f : Nat) : Int := if f = 0 then s.smp.iA else s.smp.iB
/-- NTC_x's temperature where it reads valid (R183). -/
def State.feedNtc (s : State) (f : Nat) : Option Int :=
  ntcValidTemp (if f = 0 then s.smp.ntcA else s.smp.ntcB) (s.hrd (Reg.ntcBeta f))
def State.pin (s : State) (f n : Nat) : Bool := s.smp.seat.toNat.testBit (2 * f + n)

/-- The feed controller runs whenever the wake stage or the main supply runs (R175). -/
def State.feedsRun (s : State) : Bool := s.sup.wake || s.sup.main

/-- NTC_x reads valid: its ratio corresponds to -40 to +150 degrees (R183). -/
def State.ntcValid (s : State) (f : Nat) : Bool := (s.feedNtc f).isSome

/-- With FET_TEMP_SRC 1, soft start needs a valid NTC_x (R179, R183). -/
def State.ntcWait (s : State) (f : Nat) : Bool := s.hrd (Reg.fetTempSrc f) = 1 && !s.ntcValid f

/-- FEED_WAIT of a feed in SEATED (Table FE-5). -/
def State.feedWaitNow (s : State) (f : Nat) : Nat :=
  if s.feedSt f ≠ Fs.seated then 0
  else bitIf (s.hrd (Reg.feedEn f) = 0) 0 + bitIf (s.hrd Reg.busLatch = 1) 1 + bitIf (s.feedSt (1 - f) = Fs.softStart) 2
    + bitIf (s.feedMv f < s.hrd (Reg.feedUv f)) 3 + bitIf (s.feedSt (1 - f) = Fs.damaged) 4 + bitIf s.pads.b4 5
    + bitIf (s.ntcWait f) 6

def State.refreshWait (s : State) : State :=
  (s.hwr (Reg.feedWait 0) (s.feedWaitNow 0)).hwr (Reg.feedWait 1) (s.feedWaitNow 1)

/-- Give a feed a state. -/
def State.setFeed (s : State) (f st : Nat) : State :=
  let s := { s with runs := tset 0 (tset 0 (tset 0 s.runs (rcSs f) 0) (rcBack f) 0) (rcOvOk f) 0 }
  let s := s.hwr (Reg.feedState f) st
  let s := if st = Fs.on && s.taken then { s with bus := { s.bus with everOn := true } } else s
  s.refreshWait

/-- A soft start is allowed by every condition of R179 but the last (R179). -/
def State.ssAllowed (s : State) (f : Nat) : Bool :=
  s.hrd (Reg.feedEn f) = 1 && s.hrd Reg.busLatch = 0 && s.feedSt (1 - f) ≠ Fs.softStart && s.feedSt (1 - f) ≠ Fs.damaged
    && !s.pads.b4 && s.hrd (Reg.feedUv f) ≤ s.feedMv f && !s.ntcWait f

/-- VBUS lies more than 2000 mV below FEED_x. -/
def State.feedHigh (s : State) (f : Nat) : Bool := decide (s.smp.vbus + 2000 < s.feedMv f)

/-- A feed under a FET check (R191). -/
def State.checking (s : State) (f : Nat) : Bool :=
  match s.bus.check with
  | some (g, _) => g = f
  | none => false

/-- Begin a soft start (R179, R180). -/
def State.beginSs (s : State) (f : Nat) : State :=
  let s := (s.setFeed f Fs.softStart).told [.count (Reg.softStarts f) 1]
  s.setFeedX f { s.feedX f with ssFrom := s.tick, ssBus := s.smp.vbus, ssRamp := 0 }

/-- The VBUS that the ramp asks for (R180): from its value at the start to FEED_x in a straight line lasting SS_TIME. -/
def State.ssTarget (s : State) (f : Nat) : Nat :=
  let x := s.feedX f
  let n := max 1 (s.hrd (Reg.ssTime f))
  x.ssBus + (s.feedMv f - x.ssBus) * min n x.ssRamp / n

/-- The clamp holds: the feed current is at SS_ILIM (R180). -/
def State.ssClamped (s : State) (f : Nat) : Bool := decide ((s.hrd (Reg.ssIlim f) : Int) ≤ s.feedMa f)

/-- The ramp's tick: it goes on unless the clamp holds (R180). -/
def State.tickRamp (s : State) (f : Nat) : State :=
  if s.feedSt f = Fs.softStart && !s.ssClamped f then
    s.setFeedX f { s.feedX f with ssRamp := (s.feedX f).ssRamp + 1 }
  else s

/-- Taking on from SEATED (R179, R188): every condition of a soft start but the last, which fails: VBUS lies within 2000 mV of
FEED_x. -/
def State.takeable (s : State) (f : Nat) : Bool :=
  s.feedSt f = Fs.seated && s.ssAllowed f && !s.feedHigh f && !s.checking f

/-! ### Trips (R181-R185) -/

/-- I_k and t_k of a curve held as a BLOB in k order (R182, R233). -/
def curveI (blob k : Nat) : Nat := blob / 2 ^ (64 * k) % 2 ^ 32
def curveT (blob k : Nat) : Nat := blob / 2 ^ (64 * k + 32) % 2 ^ 32

/-- One breakpoint's timer after `us` microseconds at a current: up by 1 a microsecond at or above I_k, else down by 1 every
8 microseconds to zero; in eighths of a microsecond (R182). -/
def timerStep (i t ma us : Nat) : Nat := if i ≤ ma then t + 8 * us else t - us

/-- Step `n` breakpoints' timers. -/
def stepTimers (blob n ma us : Nat) (t : Table Nat) : Table Nat :=
  (List.range n).foldl (fun t k => tset 0 t k (timerStep (curveI blob k) (tget 0 t k) ma us)) t

/-- Microseconds a breakpoint's timer still needs to reach t_k (R182). -/
def timeLeft (blob k t : Nat) : Nat := (8 * curveT blob k - t + 7) / 8

/-- The breakpoint that reaches its time first within `us` microseconds at a current, if one does; which of those
that reach it together is free (log entry 21). -/
def tripAt (blob n ma us : Nat) (t : Table Nat) : Option Nat :=
  ((List.range n).foldl (fun (acc : Option (Nat × Nat)) k =>
    let left := timeLeft blob k (tget 0 t k)
    if curveI blob k ≤ ma && left ≤ us then
      match acc with
      | some (l, j) => if left < l || (left = l && Config.tiedBreakpoint j k) then some (left, k) else some (l, j)
      | none => some (left, k)
    else acc) none).map (·.2)

/-- One 10-microsecond step of the single-pole model: dissipation in 10^-12 W, resistance in 0.01 K/W, rise in 10^-14 K
(R183). -/
def poleStep (rise : Int) (p rth tau : Nat) : Int := rise + ((p * rth : Int) - rise) * 10 / (max 1 tau : Int)

/-- Units of the rise in 0.1 degrees. -/
def riseUnit : Int := 10000000000000

/-- Whether the shares of R194 are regulated: SHARE_MODE 1, both feeds ON, at least 20 % of the rated sum. -/
def State.sharing (s : State) : Bool :=
  s.hrd Reg.shareMode = 1 && s.feedSt 0 = Fs.on && s.feedSt 1 = Fs.on
    && decide ((20 * (s.hrd (Reg.feedRated 0) + s.hrd (Reg.feedRated 1)) : Int) ≤ 100 * (s.smp.iA + s.smp.iB))

/-- What the pair dissipates, in 10^-12 W: I times the drop while the gate ramps or regulates, I^2 times RDS_ON while fully
enhanced, nothing while off (R183). -/
def State.fetPower (s : State) (f : Nat) : Nat :=
  let i := (s.feedMa f).natAbs
  let ramp := i * (s.feedMv f - s.smp.vbus) * 1000000
  let full := i * i * s.hrd (Reg.rdsOn f)
  let st := s.feedSt f
  if st = Fs.softStart then ramp
  else if st = Fs.on then (if (s.feedX f).drop ≠ 0 then ramp else full)
  else if st = Fs.damaged && s.smp.vbus ≤ s.feedMv f then full
  else 0

/-- The counter of a trip cause. -/
def tripCounter (f cause : Nat) : Nat :=
  if cause = 1 then Reg.tripsFast f else if cause = 2 then Reg.tripsIt f else if cause = 3 then Reg.tripsTemp f
  else if cause = 4 then Reg.tripsSs f else Reg.tripsGate f

/-- What every trip records (R185): cause, stamp, detail, counter, flag, event 0x2001. -/
def State.recordTrip (s : State) (f cause detail : Nat) : State :=
  let s := (s.hwr (Reg.tripCause f) cause).hwr (Reg.tripDetail f) detail
  s.told [.stamp (Reg.tripStamp f), .count (tripCounter f cause) 1, .flag (Reg.feedFlags f) 0,
    .event 0x2001 f cause (ofSigned 4 (s.feedMa f)) detail]

/-- A sag declaration: SAG_COUNT, event 0x2009 (R185, R195); its B2 is the trigger's. -/
def State.declareSag (s : State) : State :=
  ((s.setRun rcSag 0).setRun rcSagHu 0).told [.count Reg.sagCount 1, .event 0x2009 0xFF 0 s.smp.vbus (s.hrd Reg.vbusAvg)]

/-- The gate of a feed conducts: soft start, ON, or a damaged pair with FEED_x at or above VBUS (Table FE-4). -/
def State.gateOn (s : State) (f : Nat) : Bool :=
  s.feedSt f = Fs.softStart || s.feedSt f = Fs.on || (s.feedSt f = Fs.damaged && s.smp.vbus ≤ s.feedMv f)

/-- Latch a feed on a trip (R185); a damaged feed's trip is recorded and cannot disconnect it (Table FE-4). The second value
says whether the trip is a sag declaration. -/
def State.latchFeed (s : State) (f cause detail : Nat) : State × Bool :=
  if s.feedSt f = Fs.damaged then (s.recordTrip f cause detail, false)
  else
    let soft := s.feedSt f = Fs.softStart
    let s := (s.recordTrip f cause detail).setFeed f Fs.latched
    let s := if soft then (s.hwr Reg.busLatch 1).refreshWait else s
    if s.feedSt (1 - f) ≠ Fs.on && !s.pads.b4 then (s.declareSag, true) else (s, false)

/-! ### Blocking (R186, R187) -/

/-- Block a feed for back-feed. -/
def State.blockBack (s : State) (f : Nat) : State :=
  let s := s.setFeed f Fs.blocked
  let s := s.setFeedX f { s.feedX f with blockOv := false }
  s.told [.count (Reg.backfeedBlocks f) 1, .flag (Reg.feedFlags f) 2, .event 0x2003 f 0 (s.feedMv f) s.smp.vbus]

/-- In the tick that B4 is asserted every feed below VBUS whose gate conducts is blocked (R36, R186), a soft start among them. -/
def State.feedsB4 (s : State) : State :=
  s.each [0, 1] (fun f s =>
    if (s.feedSt f = Fs.on || s.feedSt f = Fs.softStart) && s.feedMv f < s.smp.vbus then s.blockBack f else s)

/-! ### Toggling (R189) -/

/-- A write of FEED_EN 0 is refused: the feed conducts and the other is not ON, as B1 frames report them. -/
def State.feedEnRefused (s : State) (f v : Nat) : Bool :=
  v = 0 && (s.rd (Reg.feedState f) = Fs.on || s.rd (Reg.feedState f) = Fs.softStart) && s.rd (Reg.feedState (1 - f)) ≠ Fs.on

/-- Clear a feed's latch: SEATED, and BUS_LATCH is cleared too. -/
def State.unlatch (s : State) (f : Nat) : State := ((s.setFeed f Fs.seated).hwr Reg.busLatch 0).refreshWait

/-- FEED_EN takes a value on the HV die, from its value before (R189). -/
def State.feedEnWritten (s : State) (f old v : Nat) : State :=
  let s := (s.hwr (Reg.feedEn f) v).refreshWait
  if !s.feedsRun then s
  else if v = 0 then
    if s.feedSt f = Fs.on || s.feedSt f = Fs.softStart || s.feedSt f = Fs.blocked then
      let s := if s.checking f then { s with bus := { s.bus with check := none } } else s
      s.setFeed f Fs.seated
    else s
  else if old = 0 && s.feedSt f = Fs.latched then s.unlatch f
  else s

/-! ### Damaged FETs (R190-R193) -/

/-- The holdup carries VBUS (R230). -/
def State.huCarries (s : State) : Bool :=
  (s.hrd Reg.huState = 1 || s.hrd Reg.huState = 2) && decide ((s.hrd Reg.huCarryI : Int) ≤ s.smp.huI)

/-- The gate of a feed is off, so that its FETs can be tested (Table FE-2): that of a damaged feed too while FEED_x lies below
VBUS. -/
def State.testable (s : State) (f : Nat) : Bool := !s.gateOn f

/-- The tests of Table FE-2 that run in this tick: conditions and occasions. T1's round of every 64 cycles belongs to the cycle its
window begins in (R147). -/
def State.testNow (s : State) (f t : Nat) : Bool :=
  let st := s.feedSt f
  let seating := !(s.hrd (Reg.seatState f)).testBit 2 && s.hrd (Reg.seatQual f) ≤ s.run (rcSeat f) + 8
  let other := s.feedSt (1 - f) = Fs.on
  let cyc := if s.clk.hvTic < windowTick 16384 s.clk.shift then s.clk.hvCyc + 63 else s.clk.hvCyc
  let round := cyc % 64 = 0 && inWindow s.clk.hvTic 16384 22527 s.clk.shift
    && (st = Fs.seated || st = Fs.blocked || st = Fs.latched)
  if !s.testable f then false
  else if t = 1 then
    (seating || round || s.checking f) && decide (10000 ≤ s.feedMv f ∧ s.feedMv f ≤ s.srcMv f + 2000)
  else if t = 2 then
    (s.checking f || other || s.huCarries) && decide (10000 ≤ s.smp.vbus ∧ s.smp.vbus ≤ s.srcMv f + 2000)
  else
    seating && !other && !s.huCarries && s.hrd Reg.huGroup = 0
      && decide (10000 ≤ s.feedMv f ∧ s.feedMv f ≤ s.smp.vbus + 2000)

/-- A test has been positive for 8 ticks (R190). -/
def State.positive (s : State) (f t : Nat) : Bool := decide (8 ≤ s.run (rcTest f t))

/-- The class of Table FE-3; 0 where no test is positive. -/
def State.damageClass (s : State) (f : Nat) : Nat :=
  if s.positive f 3 || (s.positive f 1 && s.positive f 2) then 3
  else if s.positive f 2 then 2 else if s.positive f 1 then 1 else 0

/-- The test a finding names: the pair test, else the bus-side one, else the feed-side one. -/
def State.damageTest (s : State) (f : Nat) : Nat := if s.positive f 3 then 3 else if s.positive f 2 then 2 else 1

/-- HOLDUP_BARRED (Table FE-4). -/
def State.barredNow (s : State) : Bool :=
  [0, 1].any (fun f => 2 ≤ s.hrd (Reg.damage f) && s.feedMv f + 100 < s.smp.vbus)

/-- The class a finding leads to: what was found before stays found (Table FE-3: T1 is bit 0, T2 is bit 1, both or T3 are 3). -/
def State.damageNext (s : State) (f : Nat) : Nat := s.hrd (Reg.damage f) ||| s.damageClass f

/-- A test shows something new of a feed. -/
def State.damageNew (s : State) (f : Nat) : Bool := s.damageNext f ≠ s.hrd (Reg.damage f)

/-- A finding puts a feed into DAMAGED and holds the other off (R192). -/
def State.findDamage (s : State) (f : Nat) : State :=
  let c := s.damageNext f
  let t := s.damageTest f
  let n := ([1, 2, 3].filter (fun t => s.positive f t)).length
  let s := s.each [1, 2, 3] (fun t s => s.setRun (rcTest f t) 0)
  let s := { s with bus := { s.bus with check := none } }
  let s := (s.hwr (Reg.damage f) c).setFeed f Fs.damaged
  let s := if s.feedSt (1 - f) = Fs.on || s.feedSt (1 - f) = Fs.softStart || s.feedSt (1 - f) = Fs.blocked
    then s.setFeed (1 - f) Fs.seated else s
  let s := (s.hwr Reg.holdupBarred (if s.barredNow then 1 else 0)).refreshWait
  s.told [.count (Reg.damageFindings f) n, .flag (Reg.feedFlags f) 4, .event 0x2005 f c t 0]

/-- FET_DMG_CLEAR 1 reaches the HV die (R193). -/
def State.dmgCleared (s : State) (f : Nat) : State :=
  if s.feedSt f = Fs.damaged then
    let s := (s.hwr (Reg.damage f) 0).setFeed f Fs.seated
    (s.hwr Reg.holdupBarred (if s.barredNow then 1 else 0)).refreshWait
  else s

/-- FET_DMG_CLEAR 1 written (R193): it is refused where B1 frames report no damage, else a command frame carries it. -/
def State.doDmgClear (s : State) (f : Nat) : State :=
  if s.rd (Reg.feedState f) = Fs.damaged then (s.wr (Reg.fetDmgClear f) 1).sendCmd [(Reg.fetDmgClear f, 1)]
  else s.wr (Reg.fetDmgClear f) 2

/-! ### FET checks (R191) -/

/-- A FET check falls due in this tick: the first of window P2 of its cycle, in guard with both feeds ON, the feed controller not
held. -/
def State.checkDue (s : State) : Bool :=
  s.sup.main && s.phase = .guard && s.feedSt 0 = Fs.on && s.feedSt 1 = Fs.on && !s.bitOf Reg.idleHold 0
    && windowBegins s.clk.hvCyc s.clk.hvTic 16384 s.clk.shift (fun c => dueCycle c (s.hrd Reg.fetCheckPeriod / 1024) 0)
    && s.bus.checkCyc ≠ s.clk.hvCyc + 1 && s.bus.check.isNone

/-- The total current is at most the other feed's rating. -/
def State.checkFits (s : State) : Bool :=
  decide (s.smp.iA + s.smp.iB ≤ (s.hrd (Reg.feedRated (1 - s.bus.nextCheck)) : Int))

/-- A due check whose current condition fails is skipped (R148, R191). -/
def State.skipCheck (s : State) : State :=
  if s.checkDue && !s.checkFits then
    { s with bus := { s.bus with checkCyc := s.clk.hvCyc + 1 } }.told [.count (Reg.winSkip 3) 1]
  else s

/-! ### The tick -/

/-- SHARE_ERR: A's share less its target, in percent (R194). -/
def State.shareErrNow (s : State) : Int :=
  let total := s.smp.iA + s.smp.iB
  if total = 0 then 0 else s.smp.iA * 100 / total - s.hrd Reg.shareRatioA

/-- A feed's current lies beyond 10 % of its target share while the sharing conditions hold (R194). -/
def State.shareMissed (s : State) : Bool :=
  let total := s.smp.iA + s.smp.iB
  let r : Int := s.hrd Reg.shareRatioA
  let off := fun (i t : Int) => decide (t < 10 * (100 * i - t).natAbs)
  s.sharing && decide ((s.smp.feedA - s.smp.feedB) + (s.smp.feedB - s.smp.feedA) ≤ s.hrd Reg.shareMaxDrop)
    && (off s.smp.iA (r * total) || off s.smp.iB ((100 - r) * total))

/-- The gate that sharing corrects and the direction (R194): the one it regulates already, else that of the feed that carries more than
its share; `true` raises its drop. None where the shares are met. -/
def State.shareGate (s : State) : Option (Nat × Bool) :=
  let total := s.smp.iA + s.smp.iB
  let dev := 100 * s.smp.iA - s.hrd Reg.shareRatioA * total
  if dev = 0 then none
  else
    let high := if 0 < dev then 0 else 1
    let f := if (s.feedX 0).drop ≠ 0 then 0 else if (s.feedX 1).drop ≠ 0 then 1 else high
    some (f, f = high)

/-- The correction of a tick (R194): how far the drop moves in it is left open (log entry 85), its limit is SHARE_MAX_DROP; where the
conditions do not hold both gates are fully enhanced. -/
def State.tickShare (s : State) : State :=
  if !s.sharing then
    (s.setFeedX 0 { s.feedX 0 with drop := 0 }).setFeedX 1 { s.feedX 1 with drop := 0 }
  else match s.shareGate with
    | none => s
    | some (f, up) =>
      let x := s.feedX f
      let step := 1 + s.freeVal % 65535
      (s.setFeedX f { x with drop := if up then min (s.hrd Reg.shareMaxDrop) (x.drop + step) else x.drop - step }).freeNext

/-- A validity change of NTC_x (R183). -/
def State.ntcTick (s : State) (f : Nat) : State :=
  let ok := s.ntcValid f
  let x := s.feedX f
  let s := s.iff (s.snaps 0) (·.hwrI (Reg.ntcTemp f) (if ok then (s.feedNtc f).getD (-400) else -400))
  if x.ntc = some ok then s
  else
    let s := s.setFeedX f { x with ntc := some ok }
    if x.ntc = none then s
    else s.told [.flag (Reg.feedFlags f) 5, .event 0x2006 f (if ok then 1 else 0) 0 0]

/-- A snapshot that a held block does not take is skipped, as the task of row 3 (R148). -/
def State.skipSnap (s : State) : State :=
  s.iff (s.sup.main && s.windowPos 16384 = 0 && (s.bitOf Reg.idleHold 0 || s.bitOf Reg.idleHold 2 || s.bitOf Reg.idleHold 3))
    (·.told [.count (Reg.winSkip 3) 1])

/-- One feed's readings and counts of a tick (R499). -/
def State.tickFeed (s : State) (f : Nat) : State :=
  let feed := s.feedMv f
  let bus := s.smp.vbus
  let closed := s.pin f 0 && s.pin f 1
  let s := s.iff (s.snaps 0) (fun s =>
    ((s.hwr (Reg.feedV f) feed).hwr (Reg.srcV f) (s.srcMv f)).hwrI (Reg.feedI f) (s.feedMa f))
  let seat := s.hrd (Reg.seatState f)
  let s := s.hwr (Reg.seatState f) (bitIf (s.pin f 0) 0 + bitIf (s.pin f 1) 1 + bitIf (seat.testBit 2) 2)
  let s := s.ntcTick f
  let s := s.count (rcSeat f) (closed && decide (s.hrd (Reg.feedUv f) ≤ feed) && !seat.testBit 2)
  let s := s.count (rcRel f) (!closed && seat.testBit 2)
  let s := s.count (rcSs f) (s.feedSt f = Fs.softStart && decide (feed ≤ bus + 1000 ∧ bus ≤ feed + 1000))
  let s := s.count (rcBack f) (s.feedSt f = Fs.blocked && decide (bus + 200 ≤ feed))
  let s := s.count (rcOvOk f) (s.feedSt f = Fs.blocked && decide (feed + 2000 < s.hrd (Reg.feedOv f)))
  let s := s.each [1, 2, 3] (fun t s => s.count (rcTest f t) (s.testNow f t))
  let s := s.tickRamp f
  if s.takeable f then s.setFeed f Fs.on else s

/-- VBUS_AVG's part of a tick: the cycle's mean is taken at the HV die's 0 au (R195). -/
def State.tickBus (s : State) : State :=
  let b := s.bus
  let on := s.feedSt 0 = Fs.on || s.feedSt 1 = Fs.on
  let fresh := s.clk.hvTic = 0
  let means := if fresh && b.allOn && b.ticks ≠ 0 then (b.sum / b.ticks :: b.means).take 64 else b.means
  let s := { s with bus := { b with
      sum := (if fresh then 0 else b.sum) + s.smp.vbus, ticks := (if fresh then 0 else b.ticks) + 1
      allOn := (fresh || b.allOn) && on, means := means } }
  let s := s.hwr Reg.vbusAvg (means.sum / max 1 means.length)
  if fresh then s.count rcShare s.shareMissed else s

/-- The feeds' part of a tick (Table FE-1, R190, R194, R195). -/
def State.tickFeeds (s : State) : State :=
  if !s.feedsRun then s
  else
    let s := s.skipSnap.iff (s.snaps 0) (·.hwr Reg.vbusV s.smp.vbus)
    let s := (s.tickFeed 0).tickFeed 1
    let s := s.tickBus.tickShare
    let s := s.hwrI Reg.shareErr (clampInt (-128) 127 s.shareErrNow)
    let s := s.hwr Reg.holdupBarred (if s.barredNow then 1 else 0)
    let low := max (s.hrd Reg.sagAbs * 100) (s.hrd Reg.sagRel * s.hrd Reg.vbusAvg)
    let s := s.count rcSag (s.bus.everOn && !s.pads.b4 && decide (s.smp.vbus * 100 < low))
    let s := s.count rcSagHu (s.bus.everOn && !s.pads.b4 && s.huCarries)
    s.skipCheck.refreshWait

end Sys2Proof.Machine
end

