-- ==== Sys2Proof/Machine/LadleOps.lean ====
section
/-! DEFINITION. The ladle's operations (spec/08_ladle.md): target and slew, charger, balancing, capacitance, the stored-energy
estimate, signatures and faults. Voltages in mV, capacitances in mF, resistances in micro-ohms, as the parameters carry them. -/
namespace Sys2Proof.Machine

/-! Codes of CHG_STATE (Table LD-2). -/
namespace Cs
def stopped : Nat := 0
def cc : Nat := 1
def topbal : Nat := 2
def cv : Nat := 3
def done : Nat := 4
end Cs

/-! Run counts over usable scans. -/
def rcCellOv (n : Nat) : Nat := 300 + n
def rcCellShort (n : Nat) : Nat := 320 + n
def rcCellDev (n : Nat) : Nat := 340 + n
def rcSig (k : Nat) : Nat := 360 + k
def rcSum : Nat := 380

/-- N (R197). -/
def State.cells (s : State) : Nat := s.hrd Reg.ladleCells

/-- The cells 1 to N and the taps 0 to N; STACK_S is tap 13. -/
def State.cellList (s : State) : List Nat := (List.range s.cells).map (· + 1)
def State.tapList (s : State) : List Nat := List.range (s.cells + 1)
def stackTap : Nat := 13

/-- V_n of the last usable scan. -/
def State.vn (s : State) (n : Nat) : Int := s.lad.v.getD (n - 1) 0

/-- A tap is open (R221). -/
def State.tapOpen (s : State) (k : Nat) : Bool := s.rd (Reg.tapState k) = 2
def State.anyOpen (s : State) : Bool := (stackTap :: s.tapList).any s.tapOpen

/-- The mean of the cells other than those listed (R223). -/
def State.vref (s : State) (but : List Nat) : Rat :=
  let l := s.cellList.filter (fun n => !but.contains n)
  ((l.map s.vn).sum : Rat) / (l.length : Rat)

/-- d_n with the cells under examination left out of the mean. -/
def State.dev (s : State) (n : Nat) (but : List Nat) : Rat := (s.vn n : Rat) - s.vref but

def ratAbs (r : Rat) : Rat := if r < 0 then -r else r

/-! ### Temperature, target and slew (R201-R203) -/

/-- The mean of T_L over the last 64 cycles in whole degrees, rounded down (R202). -/
def State.tChill (s : State) : Int :=
  let t := s.lad.temps
  if t.isEmpty then (s.lad.temp.getD 700) / 10 else t.sum / (10 * t.length : Int)

/-- TARGET_EFF (R202). -/
def State.targetNow (s : State) : Nat :=
  let above := max 0 (s.tChill - s.hrdI Reg.chillTemp / 10)
  (max 2000 ((s.hrd Reg.cellTarget : Int) - s.hrd Reg.chillSlope * above)).toNat

/-- Chill derating is active (R204). -/
def State.chillNow (s : State) : Bool := decide (s.hrdI Reg.chillTemp / 10 < s.tChill)

/-- The mean cell reading in microvolts. -/
def State.meanUv (s : State) : Nat := ((s.cellList.map s.vn).sum * 1000 / (max 1 s.cells : Int)).toNat

/-- TARGET_CMD: V_cmd rounded to 1 mV. -/
def State.reportCmd (s : State) : State := s.hwr Reg.targetCmd ((s.lad.vcmd + 500) / 1000)

/-- V_cmd's one step of a cycle (R203). -/
def slewStep (v goal step : Nat) : Nat := if v < goal then min goal (v + step) else max goal (v - step)

/-- TARGET_STATE (R204). -/
def State.refreshTarget (s : State) : State :=
  s.wr Reg.targetState (if s.lad.vcmd ≠ s.rd Reg.targetEff * 1000 then 1 else if s.lad.pendingTarget then 2 else 0)

/-- V_cmd at takeover and where the HV die applies the working set again (R203). -/
def State.setVcmd (s : State) : State :=
  let t := s.targetNow
  let s := s.wr Reg.targetEff t
  { s with lad := { s.lad with vcmd := if s.meanUv ≤ t * 1000 then t * 1000 else s.meanUv } }.reportCmd.refreshTarget

/-- Every cell reads within TARGET_TOL of TARGET_EFF and V_cmd equals it (R204). -/
def State.targetMet (s : State) : Bool :=
  let t := s.rd Reg.targetEff
  s.lad.vcmd = t * 1000 && !s.lad.v.isEmpty
    && s.cellList.all (fun n => decide ((s.vn n - t).natAbs ≤ s.hrd Reg.targetTol))

/-- Entering and leaving chill derating are logged; bit 0 of LADLE_FLAGS shows it (R204). -/
def State.refreshChill (s : State) (t : Nat) : State :=
  let c := s.chillNow
  let was := s.lad.chill
  ({ s with lad := { s.lad with chill := c } }.putBit Reg.ladleFlags 0 c).iff (c ≠ was)
    (·.event 0x2102 0xFF (if c then 1 else 0) t)

/-- The cycle's target and slew (R202-R204), from the tick in which the HV die has its share and V_cmd is set: TARGET_EFF is computed
anew in every cycle, V_cmd stands still while the heartbeat is lost (R20). -/
def State.cycleTarget (s : State) : State :=
  let s := { s with lad := { s.lad with temps := (s.lad.temp.getD 700 :: s.lad.temps).take 64 } }
  if !s.taken || !s.bar.hvConfigured then s
  else
    let t := s.targetNow
    let s := (s.wr Reg.targetEff t).refreshChill t
    let s := if s.bar.hbLost then s
      else { s with lad := { s.lad with vcmd := slewStep s.lad.vcmd (t * 1000) (s.hrd Reg.targetSlew) } }.reportCmd
    let s := { s with lad := { s.lad with targetRun := if s.lad.pendingTarget && s.targetMet then s.lad.targetRun + 1 else 0 } }
    s.refreshTarget

/-- A write to CELL_TARGET opens a pending target (R204). -/
def State.targetWritten (s : State) : State :=
  let s := if s.lad.pendingTarget then s.bump Reg.targetsSuperseded else s
  { s with lad := { s.lad with pendingTarget := true, targetRun := 0 } }.refreshTarget

/-! ### Charger (R206-R208) -/

/-- CHG_SETPOINT (R206). -/
def State.setpointNow (s : State) : Nat :=
  s.cells * s.lad.vcmd / 1000 - (if s.anyOpen then s.hrd Reg.owBackoff else 0)

/-- A latched ladle fault (Table LD-4). -/
def State.ladleLatched (s : State) : Bool := [1, 2, 3, 4].any (fun i => s.bitOf Reg.ladleFault i)

/-- CHG_STOP (R207). Bit 1 holds through rest, and in start until R167 permits. -/
def State.chgStopNow (s : State) : Nat :=
  bitIf (!s.lad.damped) 0 + bitIf (!s.lad.permit || s.phase = .rest) 1 + bitIf s.pads.b4 2
    + bitIf (s.bar.hbLost || !s.bar.hbArmed) 3
    + bitIf s.ladleLatched 4 + bitIf s.lad.hot 5 + bitIf (s.bitOf Reg.ladleFault 0) 6 + bitIf s.lad.draw.isSome 7
    + bitIf (decide (s.smp.vbus < s.smp.stack + s.hrd Reg.chgHeadroom)) 8 + bitIf (s.bitOf Reg.idleHold 1) 9

/-- A cell reads at or above V_cmd + BAL_ON; every cell reads at or below V_cmd + BAL_OFF. -/
def State.someHigh (s : State) : Bool :=
  s.cellList.any (fun n => decide ((s.lad.vcmd + 1000 * s.hrd Reg.balOn : Int) ≤ 1000 * s.vn n))
def State.allLow (s : State) : Bool :=
  s.cellList.all (fun n => decide (1000 * s.vn n ≤ (s.lad.vcmd + 1000 * s.hrd Reg.balOff : Int)))

/-- The charger's next state on a usable scan (Table LD-2); TOPBAL comes before CV where both hold (log entry 22). -/
def State.chgNext (s : State) : Nat :=
  let st := s.hrd Reg.chgState
  let sp := s.setpointNow
  let low := decide (s.lad.stack + 50 * s.cells < sp)
  if st = Cs.cc then (if s.someHigh then Cs.topbal else if sp ≤ s.lad.stack then Cs.cv else Cs.cc)
  else if st = Cs.topbal then (if s.allLow then Cs.cc else Cs.topbal)
  else if st = Cs.cv then (if low then Cs.cc else Cs.cv)
  else st

/-- The current of the charger's state while switching, in mA (Table LD-2). -/
def State.chgCurrent (s : State) : Nat :=
  let st := s.hrd Reg.chgState
  if st = Cs.stopped then 0 else if st = Cs.topbal then s.hrd Reg.chgTopbalI else s.hrd Reg.chgI

/-- The charger switches in this tick (Table MA-2 row 6). -/
def State.switching (s : State) : Bool :=
  let t := s.clk.hvTic
  s.hrd Reg.chgState ≠ Cs.stopped && (inWindow t 57344 8191 s.clk.shift || inWindow t 24576 40959 s.clk.shift)

/-- The first tick after a switching window. -/
def State.switchEnd (s : State) : Bool :=
  s.clk.hvTic = windowTick 8192 s.clk.shift || s.clk.hvTic = windowTick 40960 s.clk.shift

/-! ### Capacitance (R211-R213) -/

/-- T_L, or what a rule takes for it while no fitted sensor reads valid (R201). -/
def State.tL (s : State) (other : Int) : Int := s.lad.temp.getD other

/-- The frequency of the HV die's NCO in 1/102400 Hz: FREQ_MEAS in ACQUIRING and LOCKED, else NOMINAL_FREQ (R137, R142). -/
def State.hvFreq (s : State) : Nat :=
  let t := s.hrd Reg.tbState
  if (t = 2 || t = 3) && s.hrd Reg.freqMeas ≠ 0 then s.hrd Reg.freqMeas * 100 else s.hrd Reg.nominalFreq * 1024

/-- A capacitance in mF from a charge in mA times ticks and a change in mV (R211). -/
def State.capOf (s : State) (charge : Nat) (dv : Int) : Nat :=
  (100000 * (charge : Int) / (((max 1 s.hvFreq : Nat) : Int) * dv)).toNat

/-- Bit `i` of LADLE_FAULT: a cell bears it, or ESR_STACK is too high (Table LD-4 bit 10). -/
def State.ladleBears (s : State) (i : Nat) : Bool :=
  s.cellList.any (fun m => s.bitOf (Reg.cellFaults m) i) || (i = 10 && s.lad.esrHigh)

/-- Set or clear a fault bit of a cell, the ladle's bit with it, and log the change (R224). -/
def State.cellWarn (s : State) (n i : Nat) (on : Bool) : State :=
  if on then
    if s.bitOf (Reg.cellFaults n) i then s
    else ((s.flag (Reg.cellFaults n) i).flag Reg.ladleFault i).event 0x2106 n i (s.hrd (Reg.cellV n)) (s.hrd Reg.sumErr)
  else if s.bitOf (Reg.cellFaults n) i then
    let s := s.clearBits (Reg.cellFaults n) (2 ^ i)
    (s.putBit Reg.ladleFault i (s.ladleBears i)).event 0x2107 n i
  else s

/-- A warning that a measurement raises on one side of its limit and ends on the other (Table LD-4 bits 9 and 10). -/
def State.cellJudge (s : State) (n i : Nat) (bad good : Bool) : State :=
  if bad then s.cellWarn n i true else if good then s.cellWarn n i false else s

/-- ESR_STACK against its limit (Table LD-4 bit 10). -/
def State.stackJudge (s : State) (bad good : Bool) : State :=
  if bad && !s.lad.esrHigh then
    ({ s with lad := { s.lad with esrHigh := true } }.flag Reg.ladleFault 10).event 0x2106 0xFF 10 0 (s.hrd Reg.sumErr)
  else if good && s.lad.esrHigh then
    let s := { s with lad := { s.lad with esrHigh := false } }
    (s.putBit Reg.ladleFault 10 (s.ladleBears 10)).event 0x2107 0xFF 10
  else s

/-- Results of a capacitance measurement: per cell the charge and the change of its reading; less than 20 mV keeps the
previous value (R211). -/
def State.capResult (s : State) (l : List (Nat × Nat × Int)) : State :=
  let s := s.each l (fun e s =>
    let n := e.1
    if e.2.2 < 20 then s.event 0x2108 n 3 (s.rd (Reg.cellC n)) (s.rd (Reg.cellEsr n))
    else
      let s := ((s.wr (Reg.cellC n) (s.capOf e.2.1 e.2.2)).wr (Reg.cellCStamp n) s.stamp).wrI (Reg.cellTMeas n)
        (s.tL (-400))
      let s := { s with lad := { s.lad with measured := s.lad.measured ||| 2 ^ n } }
      let lim := s.hrd Reg.capMinPct * s.hrd Reg.cellCRated
      (s.event 0x2108 n 1 (s.rd (Reg.cellC n)) (s.rd (Reg.cellEsr n))).cellJudge n 9
        (decide (s.rd (Reg.cellC n) * 100 < lim)) (decide (lim < s.rd (Reg.cellC n) * 100)))
  (s.wr Reg.capStamp s.stamp).flag Reg.ladleFlags 5

/-- The result of a CC segment of start by the scan that ends it (R212): it counts where STACK_V has risen by N times 100 mV. -/
def State.segResult (s : State) (g : CapSeg) : State :=
  if g.stack + 100 * s.cells ≤ s.lad.stack then
    s.capResult (s.cellList.map (fun n =>
      let e := tget (g.charge, s.vn n) g.ended n
      (n, e.1, e.2 - g.before.getD (n - 1) 0)))
  else s

/-- A scan ends CC, and with it a segment: its own readings are the ones after (R212). -/
def State.endSeg (s : State) : State :=
  match s.lad.seg with
  | none => s
  | some g => { s with lad := { s.lad with seg := none } }.segResult g

/-- A CHG_STOP bit ends CC between two scans: the first scan after it gives the readings (R211, R212). -/
def Ladle.cutSeg (l : Ladle) : Ladle :=
  { l with seg := none, segAfter := match l.seg with | some g => some g | none => l.segAfter }

/-- The first scan after such an end (R212). -/
def State.scanAfterSeg (s : State) : State :=
  match s.lad.segAfter with
  | none => s
  | some g => { s with lad := { s.lad with segAfter := none } }.segResult g

/-- A CC segment begins in start: the last scan gives the readings before it (R212). -/
def State.beginSeg (s : State) : State :=
  if s.phase = .start && s.lad.seg.isNone && !s.lad.v.isEmpty then
    { s with lad := { s.lad with seg := some { stack := s.lad.stack, before := s.lad.v } } }
  else s

/-- The values of R213 stand until a measurement. -/
def State.bootCaps (s : State) : State :=
  let s := s.each s.cellList (fun n s =>
    let s := if s.lad.measured.testBit n then s
      else (s.wr (Reg.cellC n) (s.hrd Reg.bootCPct * s.hrd Reg.cellCRated / 100)).wrI (Reg.cellTMeas n) 250
    if s.lad.esrTemp.isSome then s
    else s.wr (Reg.cellEsr n) (s.hrd Reg.bootEsrPct * s.hrd Reg.esrRated / (100 * max 1 s.cells)))
  if s.lad.esrTemp.isSome then s else s.wr Reg.esrStack (s.hrd Reg.bootEsrPct * s.hrd Reg.esrRated / 100)

/-! ### The estimate (R216-R218) -/

/-- k_C and k_R at a temperature in 0.1 degrees (R216). -/
def State.kC (s : State) (t : Int) : Rat := 1 - (s.hrd Reg.capCold : Rat) / 1000 * ((max 0 (-t) : Int) : Rat) / 10
def State.kR (s : State) (t : Int) : Rat := 1 + (s.hrd Reg.esrCold : Rat) / 1000 * ((max 0 (-t) : Int) : Rat) / 10

/-- The readings the estimate uses: a top or bottom cell next to an open tap is what STACK_V leaves (R218). -/
def State.estV (s : State) : List Int :=
  let v := s.cellList.map s.vn
  let n := s.cells
  let v := if s.tapOpen n then v.set (n - 1) ((s.lad.stack : Int) - (v.take (n - 1)).sum) else v
  if s.tapOpen 0 then v.set 0 ((s.lad.stack : Int) - (v.drop 1).sum) else v

/-- Cells as (reading in V, corrected capacitance in F, floor in V), cells around an open middle tap joined (R218). -/
def State.estCells (s : State) : List (Rat × Rat × Rat) :=
  let t := s.tL (-400)
  let fl : Rat := (s.hrd Reg.cellFloor : Rat) / 1000
  let one := fun (n : Nat) =>
    ((s.estV.getD (n - 1) 0 : Rat) / 1000,
     (s.rd (Reg.cellC n) : Rat) / 1000 * s.kC t / s.kC (s.rdI (Reg.cellTMeas n)), fl)
  (s.cellList.foldl (fun (acc : List (Rat × Rat × Rat)) n =>
    match acc with
    | (v, c, f) :: t => if 2 ≤ n && s.tapOpen (n - 1) then
        let e := one n
        (v + e.1, 1 / (1 / c + 1 / e.2.1), f + e.2.2) :: t
      else one n :: acc
    | [] => [one n]) []).reverse

/-- V_s in mV (R216, R218; Table LD-4 bit 3). -/
def State.estVs (s : State) : Int :=
  if s.tapOpen stackTap then s.lad.sum
  else if s.bitOf Reg.ladleFault 3 then min (s.lad.stack : Int) s.lad.sum
  else s.lad.stack

def ratMin (a b : Rat) : Rat := if a ≤ b then a else b
def ratMax (a b : Rat) : Rat := if a ≤ b then b else a

/-- C_eq in F and LADLE_E in mJ (R216); none where a corrected capacitance is not positive, for which the rule states no
result. -/
def State.estimate (s : State) : Option (Rat × Nat) :=
  let cs := s.estCells
  if cs.isEmpty || cs.any (fun e => decide (e.2.1 ≤ 0)) || decide (s.kC (s.tL (-400)) ≤ 0) then none
  else
    let ceq := 1 / (cs.map (fun e => 1 / e.2.1)).sum
    let vs : Rat := (s.estVs : Rat) / 1000
    let byCells := (cs.map (fun e => e.2.1 * (e.1 - e.2.2))).foldl ratMin (ceq * (vs - (s.hrd Reg.estVmin : Rat) / 1000))
    let q := ratMax 0 byCells
    let vend := vs - q / ceq
    if vend ≤ 0 then some (ceq, 0)
    else
      let t := s.tL (-400)
      let esr := (s.rd Reg.esrStack : Rat) / 1000000 * s.kR t / s.kR (s.lad.esrTemp.getD 250)
      let eta := ratMax 0 (1 - (s.hrd Reg.estIload : Rat) / 1000 * esr / vend)
      some (ceq, (1 / 2 * ceq * (vs * vs - vend * vend) * eta * 1000).floor.toNat)

/-- EST_ZERO (R217). -/
def State.estZeroNow (s : State) : Nat :=
  bitIf s.bar.lost 0 + bitIf (s.admHold && s.phase = .guard) 1 + bitIf (4 ≤ s.lad.missed) 2
    + bitIf (decide (s.estVs ≤ s.hrd Reg.estVmin)) 3

/-- LADLE_E and LADLE_AVAIL with the zero cases applied (R217; a lost command path, R23, a power side that does not run, R35,
and a latched cell short, Table LD-4, zero it too). Below the reserve the cycles of R168 start again. -/
def State.refreshEst (s : State) : State :=
  let z := s.estZeroNow
  let e := if z ≠ 0 || s.bar.pathLost || !s.sup.main || s.bitOf Reg.ladleFault 2 then 0 else s.lad.est
  let s := { s with lad := { s.lad with okCycles := if s.rd Reg.ladleReserve ≤ e then s.lad.okCycles else 0 } }
  ((s.wr Reg.estZero z).wr Reg.ladleE e).wrI Reg.ladleAvail ((e : Int) - s.rd Reg.ladleReserve)

/-- Compute the estimate (R216). -/
def State.reckon (s : State) : State :=
  let s := s.bootCaps
  let s := match s.estimate with
    | some (ceq, e) =>
      { (s.wr Reg.cEq (ceq * 1000).floor.toNat) with lad := { s.lad with est := min e (2 ^ 32 - 1) } }
    | none => { s with lad := { s.lad with est := s.freeVal } }.freeNext
  s.refreshEst

/-- The cycle's estimate, after its usable scan (R216); cycles in a row at or above reserve are counted (R168). -/
def State.runEstimate (s : State) : State :=
  let s := s.reckon
  { s with lad := { s.lad with okCycles := if 0 ≤ s.rdI Reg.ladleAvail then s.lad.okCycles + 1 else 0 } }

/-! ### Signatures (R223) and faults (R224) -/

/-- Whether the scan matches the signature of a tap (Table LD-3). -/
def State.sigMatch (s : State) (k : Nat) : Bool :=
  let n := s.cells
  let err : Rat := ((s.lad.sum - s.lad.stack : Int) : Rat)
  let pd : Rat := s.hrd Reg.pairDev
  let ps : Rat := s.hrd Reg.pairSumTol
  let st : Rat := s.hrd Reg.sumTol
  if k = stackTap then
    decide (st < ratAbs err) && s.cellList.all (fun m => decide (ratAbs (s.dev m [m]) < pd))
  else if k = 0 then
    decide (pd ≤ ratAbs (s.dev 1 [1])) && decide (ratAbs (err - s.dev 1 [1]) ≤ ps)
  else if k = n then
    decide (pd ≤ ratAbs (s.dev n [n])) && decide (ratAbs (err - s.dev n [n]) ≤ ps)
  else
    let a := s.dev k [k, k + 1]
    let b := s.dev (k + 1) [k, k + 1]
    decide (a * b < 0) && decide (pd ≤ ratAbs a) && decide (pd ≤ ratAbs b) && decide (ratAbs (a + b) ≤ ps)
      && decide (ratAbs err ≤ st)

/-- A tap's signature is counted; SIG_RUN scans in a row make it a suspect. -/
def State.countSig (s : State) (k : Nat) : State :=
  let free := s.rd (Reg.tapState k) < 2
  let s := s.count (rcSig k) (free && s.sigMatch k)
  if free && s.hrd Reg.sigRun ≤ s.run (rcSig k) then
    ((s.setRun (rcSig k) 0).wr (Reg.tapState k) 3).event 0x2104 k 1
  else s

/-- A latched ladle fault (R224): logged; during CHARGE it stops start. -/
def State.latchLadle (s : State) (n i : Nat) : State :=
  if s.bitOf Reg.ladleFault i then s
  else
    let s := (s.flag Reg.ladleFault i).event 0x2106 n i (if n = 0xFF then 0 else s.hrd (Reg.cellV n)) (s.hrd Reg.sumErr)
    if s.atStep Step.charge then s.stopStart 3 else s

/-- An overvoltage episode begins; the third within 4096 cycles latches bit 1 (Table LD-4). -/
def State.ovEpisode (s : State) : State :=
  let l := (s.clk.cyc :: s.lad.ovCycles).take 3
  let s := { s with lad := { s.lad with ovCycles := l } }.bump Reg.ovEpisodes
  if l.length = 3 && s.clk.cyc ≤ l.getD 2 0 + 4096 then s.latchLadle 0xFF 1 else s

/-- One cell's faults on a usable scan. -/
def State.cellFault (s : State) (n : Nat) : State :=
  let v := s.vn n
  let dev := ratAbs (s.dev n [n])
  let open2 := s.tapOpen (n - 1) || s.tapOpen n
  let big := !open2 && decide ((s.hrd Reg.cellDev : Rat) < dev)
  let s := s.count (rcCellOv n) (decide ((s.hrd Reg.cellVmax : Int) ≤ v))
  let s := s.count (rcCellShort n) (decide (v ≤ (s.hrd Reg.cellVshort : Int)) && decide (1000 * s.cells ≤ s.lad.stack))
  let s := s.count (rcCellDev n) big
  let s := if 2 ≤ s.run (rcCellOv n) && !s.bitOf (Reg.cellFaults n) 0 then
      let first := !s.bitOf Reg.ladleFault 0
      (s.cellWarn n 0 true).iff first (·.ovEpisode)
    else s
  let s := if 4 ≤ s.run (rcCellShort n) then (s.flag (Reg.cellFaults n) 2).latchLadle n 2 else s
  s.cellJudge n 8 (decide (s.hrd Reg.devRun ≤ s.run (rcCellDev n) * 1024)) (decide (dev ≤ (s.hrd Reg.cellDev : Rat)))

/-- SUM_ERR beyond SUM_TOL, which no open-wire finding explains (Table LD-4 bit 3). -/
def State.sumMismatch (s : State) : Bool :=
  !(s.tapOpen 0 || s.tapOpen s.cells || s.tapOpen stackTap) && decide (s.hrd Reg.sumTol < (s.lad.sum - s.lad.stack).natAbs)

/-- The ladle's faults on a usable scan (Table LD-4). -/
def State.scanFaults (s : State) : State :=
  let s := s.each s.cellList (fun n s => s.cellFault n)
  let s := if s.bitOf Reg.ladleFault 0 && s.cellList.all (fun n => decide (1000 * s.vn n ≤ (s.lad.vcmd : Int)))
    then s.each s.cellList (fun n s => s.cellWarn n 0 false) else s
  let asked := [0, s.cells, stackTap].any (fun k => s.rd (Reg.tapState k) = 3)
  let s := s.count rcSum s.sumMismatch
  if !asked && s.hrd Reg.sigRun ≤ s.run rcSum then s.latchLadle 0xFF 3 else s

/-- Over-temperature with its hysteresis, by a T_L that a sensor gives (R201, R207 bit 5). -/
def State.hotNow (s : State) : Bool :=
  match s.lad.temp with
  | none => s.lad.hot
  | some t => if s.hrdI Reg.ladleTmax ≤ t then true else if t < s.hrdI Reg.ladleTmax - 50 then false else s.lad.hot

/-- LADLE_FAULT bit 11 follows it (Table LD-4). -/
def State.scanHeat (s : State) : State :=
  let hot := s.hotNow
  let s := { s with lad := { s.lad with hot := hot } }
  let bit := s.bitOf Reg.ladleFault 11
  if hot && !bit then (s.flag Reg.ladleFault 11).event 0x2106 0xFF 11 0 (s.hrd Reg.sumErr)
  else if !hot && bit then (s.clearBits Reg.ladleFault (2 ^ 11)).event 0x2107 0xFF 11
  else s

/-- The latches of LADLE_FAULT whose condition still holds (R224); a charger fault's cannot be observed. -/
def State.latchHolds (s : State) (i : Nat) : Bool :=
  if i = 1 then s.bitOf Reg.ladleFault 0
  else if i = 2 then s.cellList.any (fun n => decide (s.vn n ≤ (s.hrd Reg.cellVshort : Int)))
    && decide (1000 * s.cells ≤ s.lad.stack)
  else if i = 3 then s.sumMismatch
  else false

/-- LADLE_CLEAR 1 (R224). -/
def State.doLadleClear (s : State) : State :=
  let s := s.each [1, 2, 3, 4] (fun i s =>
    if s.bitOf Reg.ladleFault i && !s.latchHolds i then
      (s.each s.cellList (fun n s => s.clearBits (Reg.cellFaults n) (if i = 2 then 4 else 0))).clearBits Reg.ladleFault (2 ^ i)
        |>.event 0x2107 0xFF i
    else s)
  s.wr Reg.ladleClear (if s.ladleLatched then 2 else 1)

/-! ### Balancing (R210) -/

/-- Whether a cell's balancer is wanted on after a usable scan. Before V_cmd is first set (R203) there is no reference, and a
cell in overvoltage alone balances (log entry 47). -/
def State.balanceWant (s : State) (n : Nat) : Bool :=
  let v := 1000 * s.vn n
  let alone := s.pouring || s.bar.hbLost
  let r : Int := if alone then s.lad.vcmd else min (s.lad.vcmd : Int) s.meanUv
  let on := r + 1000 * s.hrd Reg.balOn
  let off := r + 1000 * s.hrd Reg.balOff
  let high := decide ((s.lad.vcmd + 1000 * s.hrd Reg.balOn : Int) ≤ v)
  if s.tapOpen (n - 1) || s.tapOpen n then false
  else if s.bitOf (Reg.cellFaults n) 0 then true
  else if !s.bar.hvConfigured then false
  else if s.hrd Reg.chgState = Cs.cc && !alone then high
  else if on ≤ v then true
  else if v ≤ off then false
  else s.lad.balWant.testBit n

/-- A cell's balancer runs in this tick: its parity's cycle or overvoltage, outside P1, N1, a draw and an ESR pulse. -/
def State.balancing (s : State) (n : Nat) : Bool :=
  let t := s.clk.hvTic
  let paused := inWindow t 10240 16383 s.clk.shift || inWindow t 43008 49151 s.clk.shift || s.lad.draw.isSome
    || s.hux.test = 2
  s.lad.balWant.testBit n && !paused && (s.bitOf (Reg.cellFaults n) 0 || (n + s.clk.hvCyc) % 2 = 1)

/-- The balancers' part of a tick. -/
def State.tickBalance (s : State) : State :=
  s.each s.cellList (fun n s =>
    let on := s.balancing n
    (s.hwr (Reg.balActive n) (if on then 1 else 0)).iff on (·.bump (Reg.balTicks n)))

/-! ### The scan (R200) -/

/-- The higher of two readings that may be absent. -/
def maxTemp : Option Int → Option Int → Option Int
  | some a, some b => some (max a b)
  | some a, none => some a
  | none, b => b

/-- Readings of a scan as reported: cells, STACK_V, TAP_SUM, SUM_ERR, temperatures. -/
def State.reportScan (s : State) (v : List Int) (stack : Nat) (t1 t2 : Option Int) : State :=
  let sum := v.sum
  let s := s.each s.cellList (fun n s => s.hwr (Reg.cellV n) (clampInt 0 65535 (v.getD (n - 1) 0)).toNat)
  let s := (((s.hwr Reg.stackV stack).hwr Reg.tapSum (clampInt 0 65535 sum).toNat).hwrI Reg.sumErr
    (clampInt (-32768) 32767 (sum - stack)))
  let s := (s.hwrI Reg.ltemp1T (t1.getD (-400))).hwrI Reg.ltemp2T (t2.getD (-400))
  s.hwrI Reg.ladleTemp ((maxTemp t1 t2).getD (-400))

/-- A fitted sensor that reads invalid sets bit 6 and is logged (R201): once, when it turns invalid or is so at its first scan. -/
def State.sensorLost (s : State) (i : Nat) (was : Option Bool) (ok : Bool) : State :=
  if (s.hrd Reg.ltempFitted).testBit i && !ok && was ≠ some false then (s.flag Reg.ladleFlags 6).event 0x2109 (i + 1) else s

/-- The sensors of a scan (R201). -/
def State.noteSensors (s : State) (ok1 ok2 : Bool) : State :=
  let s := (s.sensorLost 0 s.lad.lt1 ok1).sensorLost 1 s.lad.lt2 ok2
  { s with lad := { s.lad with lt1 := some ok1, lt2 := some ok2 } }

/-- The charger's step on a usable scan; leaving CC ends a segment, entering it in start begins one (R206, R212). -/
def State.scanCharger (s : State) : State :=
  let st := s.hrd Reg.chgState
  let nx := s.chgNext
  let s := s.hwr Reg.chgState nx
  let s := { s with lad := { s.lad with termRun := if nx = Cs.cv then s.lad.termRun else 0 } }
  let s := if st = Cs.cc && nx ≠ Cs.cc then s.endSeg else s
  if nx = Cs.cc then s.beginSeg else s

/-- A cell whose balancer turns on ends its segment of R212. -/
def State.segCells (s : State) (on : Nat) : State :=
  match s.lad.seg with
  | none => s
  | some g =>
    let e := s.cellList.foldl (fun (t : Table (Nat × Int)) n =>
      if on.testBit n && (tget (0, 0) t n).1 = 0 then tput t n (g.charge, s.vn n) else t) g.ended
    { s with lad := { s.lad with seg := some { g with ended := e } } }

/-- The first scan after a capacitance draw gives its results (R211). -/
def State.scanAfterDraw (s : State) : State :=
  match s.lad.capAfter with
  | none => s
  | some g =>
    let s := { s with lad := { s.lad with capAfter := none } }.bump Reg.capTests
    s.capResult (s.cellList.map (fun n => (n, g.charge, g.before.getD (n - 1) 0 - s.vn n)))

/-- The balancers wanted on after a usable scan (R210); a cell whose balancer turns on ends its segment. -/
def State.scanBalance (s : State) : State :=
  let want := (s.cellList.map (fun n => bitIf (s.balanceWant n) n)).sum
  let t := s.segCells want
  { t with lad := { t.lad with balWant := want } }

/-- A usable scan's whole effect (R200, R206, R210, R216, R223, R224); nobody computes on the logic die while it does not run. -/
def State.useScan (s : State) (v : List Int) (stack : Nat) (t : Option Int) : State :=
  let s := { s with lad := { s.lad with v := v, stack := stack, sum := v.sum, temp := t, scanned := true, missed := 0 } }
  let s := s.each s.cellList (fun n s =>
    s.hwrI (Reg.cellDevMeas n) (clampInt (-32768) 32767 (s.dev n [n]).floor))
  let on := s.sup.running
  let s := s.iff on (fun s =>
    let s := s.scanAfterDraw.scanAfterSeg.scanHeat
    (s.each (stackTap :: s.tapList) (fun k s => s.countSig k)).scanFaults)
  s.scanCharger.scanBalance.iff on (·.runEstimate)

/-! ### The tap response test (R219-R222) -/

/-- The reference of a tap in 0.1 mV: TAP_REF, or 100 microamps times TAP_R. -/
def State.tapRef10 (s : State) (k : Nat) : Nat :=
  if s.rd (Reg.tapRef k) = 0 then s.rd Reg.tapR else s.rd (Reg.tapRef k) * 10

/-- Verdict of a response in mV: 0 intact, 1 damp, 2 open (R219). -/
def State.verdict (s : State) (k r : Nat) : Nat :=
  if s.rd Reg.owLimit * s.tapRef10 k ≤ r * 1000 then 2
  else if r * 1000 ≤ s.rd Reg.dampLimit * s.tapRef10 k then 1 else 0

/-- A damp verdict in guard: bit 3 and the log (R220). -/
def State.dampFound (s : State) (k v : Nat) : State :=
  if v = 1 && s.phase = .guard then (s.flag Reg.ladleFlags 3).event 0x2105 k 3 (s.rd Reg.dampCount) else s

/-- One tap's verdict applied (R220, R221, R223): the cells next to a tap found open stop balancing at once (R210). -/
def State.judgeTap (s : State) (k r : Nat) : State :=
  let was := s.rd (Reg.tapState k)
  let v := s.verdict k r
  let s := s.wr (Reg.tapResp k) r
  let n := if v = 0 then tget 0 s.lad.intact k + 1 else 0
  let s := { s with lad := { s.lad with intact := if was = 2 then tset 0 s.lad.intact k n else terase s.lad.intact k } }
  if v = 2 then
    if was = 2 then s
    else
      let s := { s with lad := { s.lad with balWant := s.lad.balWant ^^^ (s.lad.balWant &&& (2 ^ k + 2 ^ (k + 1))) } }
      (((s.wr (Reg.tapState k) 2).bump Reg.owFindings).flag Reg.ladleFlags 2).event 0x2103 k 1 r
  else if was = 2 then
    let s := s.dampFound k v
    if 2 ≤ n then { (s.wr (Reg.tapState k) 0) with lad := { s.lad with intact := terase s.lad.intact k } }.event 0x2103 k 0 r
    else s
  else
    let s := s.wr (Reg.tapState k) v
    (if was = 3 then (s.flag Reg.ladleFlags 4).event 0x2104 k 0 else s).dampFound k v

/-- The whole test: responses of taps 0 to N in order, and of STACK_S. -/
def State.judgeTaps (s : State) (resp : List Nat) (stack : Nat) : State :=
  let s := s.bump Reg.owTests
  let s := s.each s.tapList (fun k s => s.judgeTap k (resp.getD k 0))
  s.judgeTap stackTap stack

/-- A tap that reads damp, if any. -/
def State.dampTap (s : State) : Option Nat := (s.tapList ++ [stackTap]).find? (fun k => s.rd (Reg.tapState k) = 1)

/-! ### The tick and the cycle -/

/-- A task of the ladle may not run: held idle, or pour or rest (R148, R225). -/
def State.ladleHeld (s : State) : Bool := s.bitOf Reg.idleHold 1 || s.pouring

/-- End a draw or an ESR pulse without a result (R215, Table HU-1). -/
def State.endDraws (s : State) : State :=
  { s with lad := { s.lad with draw := none, capAfter := none, pulse := if s.lad.pulse = 2 then 0 else s.lad.pulse },
           hux := { s.hux with test := 0 } }

/-- B4 is asserted: a draw and a pulse end, a pulse planned is given up, the injection currents of a tap response test stop (R215,
R219); none of them has a result. -/
def State.ladleB4 (s : State) : State :=
  { s.endDraws with lad := { s.endDraws.lad with n1 := 0, pulse := if s.lad.pulse = 3 then 3 else 0 } }

/-- A tap waits for its confirmation (R223). -/
def State.suspected (s : State) : Bool := (stackTap :: s.tapList).any (fun k => s.rd (Reg.tapState k) = 3)

/-- The damp check is due: DAMP runs and its time has come (R166, R221). -/
def State.dampDue (s : State) : Bool := s.atStep Step.damp && s.lad.dampAt ≤ s.tick

/-- The first tick of N1 (R147, R219, R220): a learning run, the damp check, the periodic test of guard, a confirmation, or the test that
a wash-down report waits for begins (R490); a periodic test that pour, rest or a hold forbids is skipped (R148, R225). -/
def State.tickN1 (s : State) : State :=
  if s.windowPos 43008 ≠ 0 then s
  else
    let p := s.hrd Reg.owPeriod / 1024
    let due := dueCycle s.clk.hvCyc p (p / 2)
    let confirm := (s.suspected || s.rep.kind = 3) && (s.phase = .start || s.phase = .guard)
    let n1 := if !s.sup.running || s.ladleHeld then 0 else if s.lad.learn then 2
      else if s.dampDue || (due && s.phase = .guard) || confirm then 1 else 0
    { s with lad := { s.lad with n1 := n1 } }.iff (due && s.ladleHeld) (·.told [.count (Reg.winSkip 4) 1])

/-- The cycle in which the next capacitance test falls due (R211): CAP_FIRST_DELAY after the first guard, else CAP_PERIOD after the
one before; a CAP_PERIOD of 0 leaves none but the first. -/
def State.capDueAt (s : State) : Option Nat :=
  match s.lad.capFrom with
  | none => none
  | some (c, true) => some (c + s.hrd Reg.capFirstDelay / 1024)
  | some (c, false) => if s.hrd Reg.capPeriod = 0 then none else some (c + s.hrd Reg.capPeriod / 1024)

/-- A capacitance test that falls due in pour or rest is skipped, as a task of row 2 (R148, R225; log entry 87). -/
def State.skipCapTest (s : State) : State :=
  match s.capDueAt with
  | none => s
  | some d => if d = s.clk.cyc && s.pouring then
      { s with lad := { s.lad with capFrom := some (d, false) } }.told [.count (Reg.winSkip 2) 1] else s

/-- A changed CAP_PERIOD reaches the HV die: the period counts from this cycle (log entry 87). -/
def State.capPeriodWritten (s : State) (v : Nat) : State :=
  match s.lad.capFrom with
  | some (_, false) => if v = s.hrd Reg.capPeriod then s else { s with lad := { s.lad with capFrom := some (s.clk.cyc, false) } }
  | some (_, true) => s
  | none => s

/-- The charger's part of a tick: its currents, the limit of R208, CHG_STOP and the state it forces. -/
def State.tickCharger (s : State) : State :=
  let l := s.lad
  let sw := s.switching
  let hit := sw && decide (3 * s.chgCurrent < 2 * s.smp.chgI)
  let edge := s.switchEnd
  let l := { l with
    chgSum := l.chgSum + s.smp.chgI, chgTicks := l.chgTicks + 1
    swSum := l.swSum + (if sw then s.smp.chgI else 0), swTicks := l.swTicks + (if sw then 1 else 0)
    limRun := if edge then (if l.limAct then l.limRun + 1 else 0) else l.limRun
    limAct := (!edge && l.limAct) || hit
    seg := l.seg.map (fun g => { g with charge := g.charge + s.smp.chgI })
    draw := l.draw.map (fun d => (d.1, { d.2 with charge := d.2.charge + s.smp.huI.toNat })) }
  let s := { s with lad := l }
  let stop : Nat := s.chgStopNow
  let s := (s.hwr Reg.chgStop stop).hwr Reg.chgSetpoint s.setpointNow
  let st := s.hrd Reg.chgState
  if stop ≠ 0 then
    { (s.hwr Reg.chgState Cs.stopped) with lad := { (if st = Cs.cc then s.lad.cutSeg else s.lad) with termRun := 0, lowRun := 0 } }
  else if st = Cs.stopped then (s.hwr Reg.chgState Cs.cc).beginSeg
  else s

/-- The HV die's cycle: CHG_I_MEAS, I_SW and their runs, DONE's return to CV, then target and slew (R203, R206, R208). -/
def State.cycleLadle (s : State) : State :=
  let l := s.lad
  let mean := l.chgSum / max 1 l.chgTicks
  let isw := l.swSum / max 1 l.swTicks
  let st := s.hrd Reg.chgState
  let s := s.hwr Reg.chgIMeas mean
  let s := { s with lad := { l with
    chgSum := 0, chgTicks := 0, swSum := 0, swTicks := 0, iSw := isw
    termRun := if st = Cs.cv && mean < s.hrd Reg.chgTerm then l.termRun + 1 else 0
    lowRun := if st = Cs.cc && decide (4 * isw < s.hrd Reg.chgI) then l.lowRun + 1 else 0 } }
  let s := if st = Cs.done && 2 * s.hrd Reg.chgTerm < mean then s.hwr Reg.chgState Cs.cv else s
  s.cycleTarget.skipCapTest

/-- Scans that did not come are counted at the end of P1 (R200); a block held idle skips its scan (R148). -/
def State.tickScan (s : State) : State :=
  if s.windowPos 16384 = 0 then
    { s with lad := { s.lad with missed := if s.lad.scanned then 0 else s.lad.missed + 1, scanned := false } }
  else if s.windowPos 10240 = 0 && s.bitOf Reg.idleHold 1 then s.told [.count (Reg.winSkip 2) 1]
  else s

/-- The ladle's part of a tick. -/
def State.tickLadle (s : State) : State :=
  let s := if s.sup.main then
      let s := s.tickCharger.tickBalance
      (if s.clk.hvTic = 0 then s.cycleLadle else s).tickScan.tickN1
    else s
  s.iff s.sup.running (·.refreshEst)

end Sys2Proof.Machine
end

