-- ==== Sys2Proof/Machine/HoldupOps.lean ====
section
/-! DEFINITION. The holdup's operations (spec/09_holdup.md): arming, carrying, protection, sharing, the load report. -/
namespace Sys2Proof.Machine

/-! Codes of HU_STATE (Table HU-1). -/
namespace Hs
def off : Nat := 0
def armed : Nat := 1
def pour : Nat := 2
def test : Nat := 3
def depleted : Nat := 4
def latched : Nat := 5
end Hs

/-- Ticks in which every arming condition held; ticks with SHARE_V above 4500 mV; ticks with the trim at a limit while the member
carries (R229, R239). -/
def rcArm : Nat := 390
def rcShareHigh : Nat := 391
def rcPinned : Nat := 392

def State.hu (s : State) : Nat := s.hrd Reg.huState

/-- HU_OFF_WHY's bits that hold (R228, R229). -/
def State.offWhyNow (s : State) : Nat :=
  bitIf (!s.taken || !s.sup.main) 0 + bitIf (s.bitOf Reg.idleHold 2) 1 + bitIf (s.hrd Reg.holdupBarred = 1) 2
    + bitIf (decide (s.smp.stack < s.hrd Reg.estVmin + s.hrd Reg.huArmHyst)) 3
    + bitIf (decide (s.smp.vbus < s.hrd Reg.huSetpoint + s.hrd Reg.huArmMargin)) 4 + bitIf (s.hu = Hs.latched) 5

/-- HU_READY (R235). -/
def State.huReadyNow (s : State) : Bool :=
  (s.hu = Hs.armed || s.hu = Hs.pour) && s.hrd Reg.holdupBarred = 0 && s.hux.passed

/-- Enter a state of the holdup; OFF_WHY and HU_READY follow. -/
def State.setHu (s : State) (st : Nat) : State :=
  let s := s.hwr Reg.huState st
  let s := if st = Hs.test then s else { s with hux := { s.hux with test := 0 } }
  let s := s.hwr Reg.huOffWhy (if st = Hs.armed || st = Hs.pour || st = Hs.test then 0 else s.offWhyNow)
  s.hwr Reg.huReady (if s.huReadyNow then 1 else 0)

/-- One of the conditions that take an armed holdup to OFF (R229). -/
def State.disarmed (s : State) : Bool :=
  !s.sup.main || s.smp.stack < s.hrd Reg.estVmin || s.hrd Reg.holdupBarred = 1 || s.bitOf Reg.idleHold 2

/-- A self-test that has begun ends with a result of its own: 4 by a protection, 5 by B4 or a fall of VBUS, which is neither a pass nor
a failure (R236). -/
def State.abandonTest (s : State) : State :=
  if s.hux.self = 1 || s.hux.self = 2 then
    { s with hux := { s.hux with self := 0 } }.told [.put Reg.huTestResult 5, .stamp Reg.huTestStamp]
  else s

/-- B4 is asserted (R231): ARMED or TEST enters POUR; any other state stays and is logged. -/
def State.holdupB4 (s : State) : State :=
  let s := s.abandonTest.ladleB4
  if s.hu = Hs.armed || s.hu = Hs.test then s.setHu Hs.pour
  else s.told [.flag Reg.huFlags 7, .event 0x2205 0xFF s.hu 0 0]

/-- B4 is released (Table HU-1). -/
def State.holdupFree (s : State) : State :=
  let s := { s with hux := { s.hux with pourCarried := false } }
  if s.hu = Hs.pour then s.setHu (if s.disarmed then Hs.off else Hs.armed)
  else if s.hu = Hs.depleted then s.setHu Hs.off
  else s

/-! ### Protection (R233, R234) -/

/-- The stage's dissipation in 10^-12 W at an input current in mA (R233). -/
def State.stagePower (s : State) (ma : Nat) : Nat :=
  if s.smp.stack + 1000 ≤ s.smp.vbus then s.smp.stack * ma * (100 - s.hrd Reg.huEff) * 10000
  else s.smp.stack * ma * 1000000

/-- HU_TEMP: the HV die's temperature plus the rise, in 0.1 degrees. -/
def State.huTempNow (s : State) : Int := s.smp.hvTemp + s.hux.rise / riseUnit

def State.putHuTemp (s : State) : State := s.hwrI Reg.huTemp (clampInt (-32768) 32767 s.huTempNow)

/-- `n` computations of the stage model; it stops at the first that reaches HU_TMAX. -/
def State.stageSteps (s : State) (ma : Nat) : Nat → State
  | 0 => s.putHuTemp
  | n + 1 =>
    let s := { s with hux := { s.hux with
      rise := poleStep s.hux.rise (s.stagePower ma) (s.hrd Reg.huRth) (s.hrd Reg.huTau) } }
    if s.hrdI Reg.huTmax ≤ s.huTempNow then s.putHuTemp else s.stageSteps ma n

/-- A trip latches the holdup: 1 by the curve, 2 by the model (R233). -/
def State.tripHoldup (s : State) (why : Nat) : State :=
  (s.setHu Hs.latched).told [.stamp Reg.huTripStamp, .flag Reg.huFlags 1,
    .count (if why = 1 then Reg.huTripsIt else Reg.huTripsTemp) 1, .event 0x2201 0xFF why (ofSigned 4 s.smp.huI) 0]

/-- HU_CLEAR reaches the HV die: the latch and a droop fallback end (R234). -/
def State.huCleared (s : State) : State :=
  let s := if s.hu = Hs.latched then s.setHu Hs.off else s
  { s with hux := { s.hux with droop := false } }

/-- HU_CLEAR with 1 or 2 (R234): refused by HU_TEMP as B1 frames report it, else a command frame carries it; a failed self-test's
result and, with 2, the loads of absent members are the logic die's own. -/
def State.doHuClear (s : State) (v : Nat) : State :=
  if s.rdI Reg.huTmax ≤ s.rdI Reg.huTemp then s.wr Reg.huClear 2
  else
    let r := s.rd Reg.huTestResult
    let s := if r = 2 || r = 3 || r = 4 || r = 6 then s.wr Reg.huTestResult 0 else s
    let s := { s with hux := { s.hux with left := if v = 2 then [] else s.hux.left } }
    (s.wr Reg.huClear 1).sendCmd [(Reg.huClear, v)]

/-! ### Self-test (R236) -/

/-- A pass of the self-test, by itself or by an ESR pulse or a draw within 15 % of its set current. -/
def State.huPass (s : State) : State :=
  let s := { s with hux := { s.hux with passed := true } }
  (s.hwr Reg.huReady (if s.huReadyNow then 1 else 0)).told [.put Reg.huTestResult 1, .stamp Reg.huTestStamp]

/-- A measured current lies within 15 % of its set current. -/
def within15 (measured set : Nat) : Bool := decide (85 * set ≤ 100 * measured ∧ 100 * measured ≤ 115 * set)

/-- A failure latches the holdup. -/
def State.huFail (s : State) (why : Nat) : State :=
  ({ s with hux := { s.hux with self := 0 } }.setHu Hs.latched).told [.put Reg.huTestResult why, .stamp Reg.huTestStamp,
    .flag Reg.huFlags 2, .count Reg.huTestFails 1, .event 0x2202 0xFF why 0 0]

/-- The conditions under which a self-test may start (R236). -/
def State.selfTestOk (s : State) : Bool :=
  (s.phase = .guard || s.phase = .start) && s.hu = Hs.armed && !s.bar.hbLost
    && decide (s.hrd Reg.estVmin + 1000 ≤ s.smp.stack)
    && decide ((2 * s.hrd Reg.huTestI * s.smp.stack : Int) ≤ (s.smp.iA + s.smp.iB) * s.smp.vbus)

/-! ### Groups (R237-R239) -/

/-- What is kept of a member, by node less 1. -/
def State.member (s : State) (k : Nat) : Member := tget {} s.cas.members k

/-- A member has been heard by heartbeat within its last 3 periods and is not quarantined (R439, R459). -/
def State.memberHere (s : State) (k : Nat) : Bool :=
  let m := s.member k
  m.hbAt ≠ 0 && decide (s.clk.now + 1 ≤ m.hbAt + 3 * m.period * 1024)
    && (tget {} s.svc.srcs (k + 3)).quarLeft = 0

/-- The other members of this member's group, by node less 1. -/
def State.groupOthers (s : State) : List Nat :=
  let g := s.hrd Reg.huGroup
  if g = 0 then [] else (s.cas.members.filter (fun e => e.2.group = g && e.1 + 1 ≠ s.rd Reg.nodeId)).map (·.1)

/-- Those present with HU_READY 1 (R237). -/
def State.groupPresentNow (s : State) : List Nat :=
  s.groupOthers.filter (fun k => s.memberHere k && (s.member k).ready)

/-- This member counts itself in no group: none set, or the group is overfull (R237). -/
def State.groupAlone (s : State) : Bool := s.hrd Reg.huGroup = 0 || s.hux.overfull

/-- V_i of this member in mV (R238). -/
def State.shareDrive (s : State) : Int := 400000 * s.smp.huI / (max 1 (s.hrd Reg.huShareFs * s.hrd Reg.huWeight) : Int)

/-- The stage runs: ARMED, POUR or TEST (Table HU-1). -/
def State.huRuns (s : State) : Bool := s.hu = Hs.armed || s.hu = Hs.pour || s.hu = Hs.test

/-- The member uses droop: a fallback lasts, or its group is overfull (R237, R239). -/
def State.droops (s : State) : Bool := s.hrd Reg.huGroup ≠ 0 && (s.hux.droop || s.hux.overfull)

/-- It drives SHARE (R238): in a group, while the stage runs and does not droop. -/
def State.sharesNow (s : State) : Bool := s.hrd Reg.huGroup ≠ 0 && s.huRuns && !s.droops

/-- The correction of a tick (R238): V_i below SHARE_V raises the trim, V_i above lowers it, up to HU_SHARE_TRIM either way; how far it
moves in a tick is left open (log entry 88). -/
def State.tickTrim (s : State) : State :=
  if !s.sharesNow then { s with hux := { s.hux with trim := 0 } }
  else if s.shareDrive = s.smp.share then s
  else
    let top : Int := s.hrd Reg.huShareTrim
    let step : Int := 1 + s.freeVal % 65535
    let t := if s.shareDrive < s.smp.share then min top (s.hux.trim + step) else max (-top) (s.hux.trim - step)
    { s with hux := { s.hux with trim := t } }.freeNext

/-- The trim stands at a limit while the member carries (R239). -/
def State.pinned (s : State) : Bool :=
  s.sharesNow && s.huCarries && s.hux.trim.natAbs = s.hrd Reg.huShareTrim

/-- What the stage regulates VBUS to, in microvolts: HU_SETPOINT with its trim, or the droop of R239. -/
def State.setpointUv (s : State) : Int :=
  if s.droops then 1000 * s.hrd Reg.huSetpoint - 1000 * s.hrd Reg.huDroop * s.smp.huI / (max 1 (s.hrd Reg.huIMax) : Int)
  else 1000 * (s.hrd Reg.huSetpoint + s.hux.trim)

/-- The stage's setpoint and its drive of SHARE in this tick (R238, R239). -/
def State.tickShareLine (s : State) : State :=
  let s := s.tickTrim
  { s with hux := { s.hux with setpoint := s.setpointUv, drive := if s.sharesNow then some s.shareDrive else none } }

/-- HU_SHARE_STATE (Table HU-3). -/
def State.shareStateNow (s : State) : Nat :=
  if s.hrd Reg.huGroup = 0 then 0 else if s.hux.overfull then 3 else if s.hux.droop then 2 else 1

/-- Fall back to droop (R239). -/
def State.fallToDroop (s : State) : State :=
  let s := (({ s with hux := { s.hux with droop := true } }.setRun rcShareHigh 0).setRun rcPinned 0).hwr Reg.huShareState 2
  let s := { s with hux := { s.hux with drive := none, trim := 0 } }
  s.told [.flag Reg.huFlags 3, .count Reg.huShareFaults 1, .event 0x2203 0xFF 0 s.smp.share 0]

/-! ### Report to admission (R240, R241) -/

/-- Members that left the group keep their load in the sum until they return (R240). -/
def State.trackGroup (s : State) : State :=
  let here := s.groupPresentNow
  let gone := s.hux.seen.filter (fun k => !here.contains k)
  { s with hux := { s.hux with left := ((s.hux.left ++ gone).filter (fun k => !here.contains k)).eraseDups, seen := here } }

/-- The last reported peaks of the members that left (R240). -/
def State.leftLoad (s : State) : Nat :=
  ((s.hux.left.filter (fun k => s.groupOthers.contains k)).map (fun k => (s.member k).peak)).sum

/-- A group with more than three other members heard (R237). -/
def State.checkOverfull (s : State) : State :=
  let many := decide (3 < (s.groupOthers.filter s.memberHere).length)
  let s' := { s with hux := { s.hux with overfull := many } }
  if many && !s.hux.overfull then (s'.flag Reg.huFlags 4).event 0x2204 0xFF 0 (s.rd Reg.groupPresent) else s'

/-- One limit of R241: flagged and logged when an episode begins. -/
def State.sizing (s : State) (was now : Bool) (i : Nat) : State :=
  if now && !was then (s.flag Reg.huFlags i).event 0x2207 0xFF i else s.iff now (·.flag Reg.huFlags i)

/-- The cycle's load, hold energy and sizing checks (R240, R241). -/
def State.cycleHoldup (s : State) : State :=
  let h := s.hux
  let t := max 1 h.ticks
  let bus : Int := h.sumBus / t
  let stack : Int := h.sumStack / t
  let pUw : Int := bus * (h.sumFeed / t) + s.hrd Reg.huEff * stack * (h.sumIn / t : Nat) / 100 - stack * (h.sumChg / t : Nat)
  let f := max 1 s.hvFreq
  let e := (pUw * 102400 / (1000 * f)).toNat
  let win := s.rd Reg.huLoadWindow / 1024
  let loads := (min e (2 ^ 32 - 1) :: h.loads).take (max 1 win)
  let peak := loads.foldl Nat.max 0
  let s := { s with hux := { h with
    ticks := 0, sumBus := 0, sumFeed := 0, sumStack := 0, sumIn := 0, sumChg := 0, loads := loads } }
  let s := ((s.wr Reg.huLoadE e).wr Reg.huLoadPeak peak).checkOverfull.trackGroup
  let here := if s.groupAlone then [] else s.groupPresentNow
  let w := s.hrd Reg.huWeight + (here.map (fun k => (s.member k).weight)).sum
  let grp := peak + (if s.groupAlone then 0 else
    (here.map (fun k => (s.member k).peak)).sum + s.leftLoad)
  let s := ((s.wr Reg.groupPresent here.length).wr Reg.groupWeightSum w).wr Reg.groupLoadE grp
  let den := max 1 (w * s.rd Reg.huEff)
  let hold := (grp * s.hrd Reg.huWeight * (100 + s.rd Reg.huLoadMargin) + den - 1) / den
  let s := s.wr Reg.huHoldE hold
  let need := hold * f * 100000
  let lim := 102400 * (100 + s.rd Reg.huLoadMargin) * s.hrd Reg.estVmin
  let short := decide (s.hrd Reg.estIload * lim < need)
  let over' := decide (s.hrd Reg.huIMax * lim < need)
  let s := (s.sizing s.hux.shortLoad short 5).sizing s.hux.shortMax over' 6
  { s with hux := { s.hux with shortLoad := short, shortMax := over' } }

/-! ### The tick -/

/-- State changes that a tick's samples make (Table HU-1, R229, R231). -/
def State.stepHu (s : State) : State :=
  let st := s.hu
  if st = Hs.armed && s.disarmed then s.setHu Hs.off
  else if st = Hs.test && s.disarmed then s.abandonTest.endDraws.setHu Hs.off
  else if st = Hs.test && s.smp.vbus ≤ s.hrd Reg.huSetpoint then s.abandonTest.endDraws.setHu Hs.armed
  else if st = Hs.pour && s.hrd Reg.holdupBarred = 1 then s.setHu Hs.off
  else if st = Hs.pour && s.smp.stack < s.hrd Reg.estVmin then
    (s.setHu Hs.depleted).told [.count Reg.huDepletions 1, .flag Reg.huFlags 8, .event 0x2206 0xFF 0 s.smp.stack 0]
  else s

/-- Carrying begins (R230); the first carrying of a pour counts it (HU_POURS_CARRIED; log entry 23). -/
def State.carryEdge (s : State) : State :=
  let c := s.huCarries
  let was := s.hux.carries
  let s := { s with hux := { s.hux with carries := c } }
  if !c then s
  else if s.pads.b4 then
    if s.hux.pourCarried then s
    else { s with hux := { s.hux with pourCarried := true } }.told [.count Reg.huPoursCarried 1]
  else if was then s
  else s.told [.count Reg.huCarries 1, .flag Reg.huFlags 0, .event 0x2208 0xFF 0 (ofSigned 4 s.smp.huI) 0]

/-- The holdup draws a test current from this tick on: 2 an ESR pulse, 3 a self-test. -/
def State.beginTest (s : State) (what : Nat) : State :=
  let s := s.setHu Hs.test
  { s with hux := { s.hux with test := what } }

/-- It may: guard or start runs, it is ARMED, the heartbeat is not lost, the ladle is not held (R214, R231, R236). -/
def State.testAllowed (s : State) : Bool :=
  (s.phase = .guard || s.phase = .start) && s.hu = Hs.armed && !s.bar.hbLost && !s.bitOf Reg.idleHold 1

/-- The first tick of N2: the ESR pulse (R214). It falls due at half its period, or is owed since a draw that has ended; one that cannot
run is skipped (R148). -/
def State.planPulse (s : State) : State :=
  let p := s.hrd Reg.esrPeriod / 1024
  let due := dueCycle s.clk.hvCyc p (p / 2)
  let skip := fun (s : State) => s.told [.count (Reg.winSkip 5) 1]
  if s.lad.draw.isSome then
    { s with lad := { s.lad with pulse := 0, esrOwed := s.lad.esrOwed || due } }.iff due skip
  else if due || s.lad.esrOwed then
    let s := { s with lad := { s.lad with esrOwed := false, pulse := if s.testAllowed then 1 else 0 } }
    s.iff (s.lad.pulse = 0) skip
  else { s with lad := { s.lad with pulse := 0 } }

/-- A self-test is due (R236): since the first cycle of the boot in which its conditions held, then every HU_TEST_PERIOD; a period of 0
leaves none after the first pass. -/
def State.selfDue (s : State) : Bool :=
  match s.hux.selfFrom with
  | none => false
  | some c => if !s.hux.selfRan then true
    else (s.hrd Reg.huTestPeriod ≠ 0 || !s.hux.passed) && decide (c + s.hrd Reg.huTestPeriod / 1024 ≤ s.clk.hvCyc)

/-- The first tick of N2: the self-test (R236), in cycles whose elapsed count modulo 1024 is 0; one that is due and cannot start, or that
meets an ESR pulse, waits and is counted. -/
def State.planSelf (s : State) : State :=
  let s := { s with hux := { s.hux with self := 0 } }
  if !(s.clk.hvCyc % 1024 = 0 && s.selfDue) then s
  else if s.selfTestOk && s.lad.pulse = 0 && s.lad.draw.isNone then
    let from_ := if s.hux.selfRan then s.clk.hvCyc else s.hux.selfFrom.getD s.clk.hvCyc
    { s with hux := { s.hux with self := 1, selfRan := true, selfFrom := some from_ } }.told [.count Reg.huTests 1]
  else s.told [.count Reg.huTestDeferred 1]

/-- Window N2's ticks (R147, R214, R236): the plan at its start, the draw of the pulse from tick 16 to 48, that of the self-test from
tick 16 to 80. -/
def State.tickN2 (s : State) : State :=
  let n := s.windowPos 49152
  if !s.sup.running then s
  else if n = 0 then s.planPulse.planSelf
  else if n = 16 then
    if s.lad.pulse = 1 then
      if s.hu = Hs.armed then { (s.beginTest 2) with lad := { s.lad with pulse := 2 } }
      else { s with lad := { s.lad with pulse := 0 } }.told [.count (Reg.winSkip 5) 1]
    else if s.hux.self = 1 then
      if s.hu = Hs.armed then { (s.beginTest 3) with hux := { (s.beginTest 3).hux with self := 2 } } else s.abandonTest
    else s
  else if n = 48 && s.lad.pulse = 2 then { (s.setHu Hs.armed) with lad := { s.lad with pulse := 3 } }
  else if n = 80 && s.hux.self = 2 then { (s.setHu Hs.armed) with hux := { (s.setHu Hs.armed).hux with self := 3 } }
  else s

/-- A self-test falls due at the first cycle of the boot in which its conditions hold (R236). -/
def State.firstSelf (s : State) : State :=
  if s.clk.hvTic = 0 && s.hux.selfFrom.isNone && s.selfTestOk then
    { s with hux := { s.hux with selfFrom := some s.clk.hvCyc } }
  else s

/-- The HV die's part of the holdup in a tick. -/
def State.tickHuDie (s : State) : State :=
  let s := s.iff (s.snaps 2) (fun s => (s.hwrI Reg.huIIn s.smp.huI).hwr Reg.shareV s.smp.share)
  let s := s.putHuTemp.stepHu.firstSelf.tickN2.carryEdge
  let s := s.count rcArm (s.hu = Hs.off && s.offWhyNow = 0)
  let s := s.count rcShareHigh (s.hrd Reg.huGroup ≠ 0 && !s.hux.droop && decide (4500 < s.smp.share))
  let st := s.hu
  let s := s.hwr Reg.huOffWhy (if st = Hs.armed || st = Hs.pour || st = Hs.test then 0 else s.offWhyNow)
  let s := s.hwr Reg.huReady (if s.huReadyNow then 1 else 0)
  let s := (s.hwr Reg.huShareState s.shareStateNow).tickShareLine
  let s := s.count rcPinned s.pinned
  let err : Int := if s.smp.share = 0 || !s.sharesNow then 0 else (s.shareDrive - s.smp.share) * 100 / (s.smp.share : Int)
  let s := s.hwrI Reg.huShareErr (clampInt (-128) 127 err)
  let h := s.hux
  let draws := s.huCarries || st = Hs.test
  { s with hux := { h with
    ticks := h.ticks + 1, sumBus := h.sumBus + s.smp.vbus, sumFeed := h.sumFeed + s.smp.iA + s.smp.iB
    sumStack := h.sumStack + s.smp.stack, sumIn := h.sumIn + (if draws then s.smp.huI.toNat else 0)
    sumChg := h.sumChg + s.smp.chgI } }

/-- The holdup's part of a tick. -/
def State.tickHoldup (s : State) : State :=
  let s := s.iff s.sup.main (·.tickHuDie)
  if s.sup.running && s.clk.tic = 0 then s.cycleHoldup else s

end Sys2Proof.Machine
end

