-- ==== Sys2Proof/Machine/ReportOps.lean ====
section
/-! DEFINITION. Parameters hidden under OEM lock and the service reports (spec/19_service.md R487-R498). -/
namespace Sys2Proof.Machine

/-- The index ranges of HIDE_GROUPS' bits 0 to 9 (Table SV-2). -/
def hideRanges : List (Nat × Nat) :=
  [(0x2000, 0x207F), (0x2100, 0x21FF), (0x2200, 0x22FF), (0x2300, 0x23FF), (0x3000, 0x30FF), (0x3100, 0x32FF),
   (0x4000, 0x41FF), (0x5000, 0x50FF), (0x1100, 0x12FF), (0x7000, 0x70FF)]

/-- A parameter is hidden under OEM lock (R487). -/
def State.hidden (s : State) (k : Nat) : Bool :=
  k = Reg.winData ||
  ((rowAt k).elim false (fun r => r.per = .persisted) && k ≠ Reg.hideGroups &&
    ((List.range 10).any (fun b => (s.rd Reg.hideGroups).testBit b &&
      (hideRanges[b]?).elim false (fun g => decide (g.1 ≤ k / 256 ∧ k / 256 ≤ g.2)))))

/-! ### Rates and widths both sides support (spec/11_link_phy.md R278) -/

/-- The highest rate code both sides support, at most `top`. -/
def State.bestRate (s : State) (top : Nat) : Option Nat :=
  ((List.range 5).filter (fun r => r ≤ top && r ≤ s.rd Reg.rateMax && (s.rd Reg.partnerRates).testBit r)).getLast?

/-- The widths both sides support, widest first. -/
def State.widths (s : State) : List Nat :=
  [4, 2, 1].filter (fun w => w ≤ s.rd Reg.widthMax && (s.rd Reg.partnerWidths).testBit (if w = 4 then 2 else w - 1))

/-! ### Assembling a report (R491-R497) -/

/-- A report field of `n` bytes: 0xFF where a hidden parameter's value is withheld (R497). -/
def State.repField (s : State) (n k : Nat) : List Nat :=
  if s.rep.locked && s.hidden k then List.replicate n 0xFF else leBytes n (s.rd k)

/-- Some field of the report is withheld. -/
def State.repFilled (s : State) : Bool :=
  s.rep.locked &&
    (if s.rep.kind = 2 then [Reg.caseWarn, Reg.ladleTmax, Reg.cellTarget].any s.hidden
     else (s.rep.kind = 1 || s.rep.kind = 3) && s.hidden Reg.ladleCells)

/-- C_PCT and ESR_PCT of cell n, in 0.1 % (R492). -/
def State.cPct (s : State) (n : Nat) : Nat := s.rd (Reg.cellC n) * 1000 / s.rd Reg.cellCRated
def State.esrPct (s : State) (n : Nat) : Nat :=
  s.rd (Reg.cellEsr n) * 1000 * s.rd Reg.ladleCells / s.rd Reg.esrRated

/-- One verdict: 2 for an act condition that holds, 1 for a watch condition, else 0 (R496). -/
def verdictOf (watch act : Bool) : Nat := if act then 2 else if watch then 1 else 0

/-- The cells' numbers, 1 to N. -/
def State.repCells (s : State) : List Nat := (List.range (s.rd Reg.ladleCells)).map (· + 1)

/-- The taps' numbers, 0 to N and STACK_S's 13. -/
def State.repTaps (s : State) : List Nat := List.range (s.rd Reg.ladleCells + 1) ++ [13]

/-- Capacitance, ESR not measured in this boot (Table SV-5). -/
def State.cellUnmeasured (s : State) (n : Nat) : Nat :=
  bitIf (!s.lad.measured.testBit n) 0 + bitIf s.lad.esrTemp.isNone 1

/-- The kind 1 conditions that concern one cell, bits 0 to 5 (Table SV-9). -/
def State.cellVerdicts (s : State) (n : Nat) : List Nat :=
  let tap := fun (l : List Nat) => [n - 1, n].any (fun k => l.contains (s.rd (Reg.tapState k)))
  let cm := s.rd Reg.capMinPct
  let em := s.rd Reg.esrMaxPct
  [verdictOf (decide (s.cPct n < 10 * (cm + 10))) (decide (s.cPct n < 10 * cm)),
   verdictOf (decide (75 * em < 10 * s.esrPct n)) (decide (10 * em < s.esrPct n)),
   verdictOf (decide (s.rd Reg.cellDev < 2 * (s.rdI (Reg.cellDevMeas n)).natAbs)) (s.bitOf (Reg.cellFaults n) 8),
   verdictOf (tap [1, 3]) false,
   verdictOf false (tap [2]),
   verdictOf (s.cellUnmeasured n ≠ 0) false]

/-- The highest of a list of verdicts. -/
def worst (l : List Nat) : Nat := l.foldl Nat.max 0

/-- Kind 1's verdicts by bit (Table SV-9). -/
def State.healthBits (s : State) : List Nat :=
  let lim := s.rd Reg.esrMaxPct * s.rd Reg.esrRated
  (List.range 6).map (fun b => worst (s.repCells.map (fun n => (s.cellVerdicts n).getD b 0)))
    ++ [verdictOf false (s.rd Reg.ladleFault % 32 ≠ 0),
        verdictOf (decide (3 * lim < 400 * s.rd Reg.esrStack)) (decide (lim < 100 * s.rd Reg.esrStack))]

/-- Kind 2's verdicts by bit. -/
def State.panelBits (s : State) : List Nat :=
  let e := s.rd Reg.elecFlags
  let t := s.rdI Reg.ladleTemp
  let tmax := s.rdI Reg.ladleTmax
  [verdictOf false (decide (1150 < s.rdI Reg.caseTempMax)), verdictOf false (e.testBit 1), verdictOf (e.testBit 0) false,
   verdictOf (decide (s.rd Reg.targetEff < s.rd Reg.cellTarget)) false,
   verdictOf (s.bitOf (Reg.feedFlags 0) 7 || s.bitOf (Reg.feedFlags 1) 7) false,
   verdictOf (decide (tmax - 100 ≤ t)) (decide (tmax ≤ t)), verdictOf (e.testBit 2 || e.testBit 3) false]

/-- A tap's response in 0.1 % of its reference (R494, R219). -/
def State.tapShare (s : State) (k : Nat) : Nat :=
  let ref := if s.rd (Reg.tapRef k) = 0 then s.rd Reg.tapR else s.rd (Reg.tapRef k) * 10
  s.rd (Reg.tapResp k) * 10000 / ref

/-- Kind 3's verdicts by bit. -/
def State.washBits (s : State) : List Nat :=
  let has := fun (v : Nat) => s.repTaps.any (fun k => s.rd (Reg.tapState k) = v)
  [verdictOf false (has 1), verdictOf false (has 2),
   verdictOf (s.repTaps.any (fun k => decide (s.tapShare k < 10 * s.rd Reg.svcDampWatch))) false,
   verdictOf (s.rd Reg.padContention ≠ 0) false, verdictOf false (s.rd Reg.padOff ≠ 0),
   verdictOf (s.bitOf Reg.casFlags 3 || s.bitOf Reg.casFlags 4) false,
   verdictOf false (s.rd Reg.faultState = 3 || s.rd Reg.pourLineState = 3)]

/-- The physical lanes the report scans. -/
def State.repLanes (s : State) : List Nat := (List.range 4).filter (fun p => s.rep.lanes.testBit p)

/-- The best rate code and width common to both sides (Table SV-8 bytes 18 and 19). -/
def State.bestPair (s : State) : Nat × Nat := ((s.bestRate 4).getD 0, s.widths.headD 0)

/-- Kind 4's verdicts by bit. -/
def State.linkBits (s : State) : List Nat :=
  let seen := s.repLanes.filter (fun p => s.rd (Reg.eyeCmd p) = 2 && s.rd (Reg.eyeType p) ≠ 1)
  let narrow := fun (k : Nat) => seen.any (fun p => decide (s.rd (Reg.eyeWidth p) < s.rd k))
  [verdictOf (narrow Reg.svcEyeWatch) false, verdictOf false (narrow Reg.svcEyeAct),
   verdictOf (decide (s.rd Reg.rateNow < s.bestPair.1 ∨ s.rd Reg.widthNow < s.bestPair.2)) false,
   verdictOf (s.repLanes.any (fun p => s.rd (Reg.codeErrs p) ≠ 0)) false,
   verdictOf (s.repLanes.any (fun p => decide (3 ≤ s.rd (Reg.eyeCmd p)))) false]

/-- The verdicts by bit of the report's kind. -/
def State.repBits (s : State) : List Nat :=
  if s.rep.kind = 1 then s.healthBits else if s.rep.kind = 2 then s.panelBits
  else if s.rep.kind = 3 then s.washBits else s.linkBits

/-- The verdict bits as a mask (Table SV-4 bytes 2-3). -/
def verdictMask (l : List Nat) : Nat := ((List.range l.length).map (fun b => bitIf (l.getD b 0 ≠ 0) b)).sum

/-- The header (Table SV-4). -/
def State.repHeader (s : State) : List Nat :=
  let b := s.repBits
  [s.rep.kind, worst b] ++ leBytes 2 (verdictMask b) ++ leBytes 6 s.stamp ++ leBytes 2 s.activity
    ++ [s.rd Reg.nodeId, s.rep.src % 256, if s.repFilled then 1 else 0, 0]

/-- The ladle-health body (Table SV-5). -/
def State.healthBody (s : State) : List Nat :=
  s.repField 1 Reg.ladleCells ++ [0] ++ leBytes 2 (s.rd Reg.ladleTemp) ++ leBytes 4 (s.rd Reg.ladleE)
    ++ leBytes 4 (s.rd Reg.ladleAvail) ++ leBytes 4 (s.rd Reg.esrStack) ++ leBytes 2 (s.rd Reg.sumErr)
    ++ leBytes 2 (s.rd Reg.ladleFault) ++ leBytes 6 (s.rd Reg.capStamp) ++ leBytes 6 (s.rd Reg.esrStamp)
    ++ ((List.range 12).flatMap (fun i =>
          let n := i + 1
          if s.rd Reg.ladleCells < n then List.replicate 8 0
          else leBytes 2 (s.cPct n) ++ leBytes 2 (s.esrPct n) ++ leBytes 2 (s.rd (Reg.cellDevMeas n))
            ++ [worst (s.cellVerdicts n), s.cellUnmeasured n]))
    ++ ((List.range 14).map (fun k => s.rd (Reg.tapState k)))

/-- The hot-panel body (Table SV-6). -/
def State.panelBody (s : State) : List Nat :=
  leBytes 2 (s.rd Reg.caseTemp) ++ leBytes 2 (s.rd Reg.caseTempMax) ++ s.repField 2 Reg.caseWarn
    ++ leBytes 2 (s.rd Reg.hvDieTemp) ++ leBytes 4 (s.rd Reg.admHoldTicks) ++ leBytes 4 s.clk.cyc
    ++ leBytes 2 (s.rd (Reg.fetTemp 0)) ++ leBytes 2 (s.rd (Reg.fetTemp 1)) ++ leBytes 2 (s.rd Reg.huTemp)
    ++ leBytes 2 (s.rd Reg.ladleTemp) ++ s.repField 2 Reg.ladleTmax ++ leBytes 2 (s.rd Reg.targetEff)
    ++ s.repField 2 Reg.cellTarget ++ leBytes 2 (s.rd Reg.elecFlags) ++ leBytes 2 (s.rd (Reg.feedFlags 0))
    ++ leBytes 2 (s.rd (Reg.feedFlags 1))

/-- The wash-down body (Table SV-7). -/
def State.washBody (s : State) : List Nat :=
  let n := s.rd Reg.ladleCells
  let count := fun (v : Nat) => (s.repTaps.filter (fun k => s.rd (Reg.tapState k) = v)).length
  s.repField 1 Reg.ladleCells ++ [count 1, count 2, 0]
    ++ ((List.range 13).flatMap (fun k => leBytes 2 (if n < k then 0xFFFF else s.tapShare k))) ++ leBytes 2 (s.tapShare 13)
    ++ leBytes 2 (s.rd Reg.padContention) ++ leBytes 2 (s.rd Reg.padOff) ++ leBytes 2 (s.rd Reg.casFlags)
    ++ [s.rd Reg.faultState, s.rd Reg.pourLineState] ++ leBytes 4 (s.rd Reg.dampFails)
    ++ leBytes 4 (s.rd Reg.canDominantEpisodes) ++ leBytes 4 (s.rd Reg.busOffCount)
    ++ leBytes 4 (s.rd (Reg.seatReleases 0)) ++ leBytes 4 (s.rd (Reg.seatReleases 1))

/-- The link body (Table SV-8). -/
def State.linkBody (s : State) : List Nat :=
  [s.rd Reg.rateNow, s.rd Reg.widthNow, s.bestPair.1, s.bestPair.2]
    ++ ((List.range 4).flatMap (fun p =>
          if s.rep.lanes.testBit p then
            [s.rd (Reg.laneLogical p), s.rd (Reg.laneStatus p) % 256, s.rd (Reg.ctleNow p), s.rd (Reg.eyeCmd p)]
              ++ leBytes 2 (s.rd (Reg.eyeWidth p)) ++ leBytes 2 (s.rd (Reg.eyeHeight p)) ++ leBytes 4 (s.rd (Reg.codeErrs p))
          else List.replicate 12 0))
    ++ leBytes 4 (s.rd Reg.fastRetrains) ++ leBytes 4 (s.rd Reg.fullRetrains) ++ leBytes 4 (s.rd Reg.rateFallbacks)
    ++ leBytes 2 (s.rd Reg.phyFlags)

/-- The report's 256 bytes (R491). -/
def State.repBytes (s : State) : List Nat :=
  padTo 256 0 (s.repHeader ++
    (if s.rep.kind = 1 then s.healthBody else if s.rep.kind = 2 then s.panelBody
     else if s.rep.kind = 3 then s.washBody else s.linkBody))

/-- A running report completes: SVC_REPORT and SVC_SUMMARY are replaced, SVC_REPORTS increments, the command reads 2 (R489). -/
def State.finishReport (s : State) : State :=
  let b := s.repBytes
  let s := ((s.wr Reg.svcReport (leValue b)).wr Reg.svcSummary (leValue (b.take 4))).bump Reg.svcReports
  { (s.wr Reg.svcReportCmd 2) with rep := {} }

/-- A running report is abandoned: both stay as they were, the command reads 3 (R489, R498). -/
def State.dropReport (s : State) : State :=
  if s.rep.kind = 0 then s else { (s.wr Reg.svcReportCmd 3) with rep := {} }

/-- A link report completes once none of its scans runs (Table SV-3). -/
def State.reportScans (s : State) : State :=
  if s.rep.kind = 4 && s.repLanes.all (fun p => s.rd (Reg.eyeCmd p) ≠ 1) then s.finishReport else s

/-- A wash-down report completes with the test that ended (Table SV-3). -/
def State.reportTest (s : State) : State := if s.rep.kind = 3 then s.finishReport else s

/-- SVC_WASHDOWN_ABANDON (R490): no test has run within 16 cycles. -/
def execSvcWashdownAbandon (s : State) : Host.Outcome State Fault Refusal :=
  if s.rep.kind = 3 && decide (s.rep.cyc + 16 ≤ s.clk.cyc) then .next s.dropReport else .next s

end Sys2Proof.Machine
end

