-- ==== Sys2Proof/Machine/StoreOps.lean ====
section
/-! DEFINITION. The image store's operations (spec/15_image_store.md): blocks, rows, placement of chunks, programming,
what is durable, prepared capacity, and reading the log back. -/
namespace Sys2Proof.Machine

/-! ### Sequences compared modulo 2^32 (R11) -/

/-- `b` is later than `a`. -/
def later32 (a b : Nat) : Bool := laterCount (BitVec.ofNat 32 a) (BitVec.ofNat 32 b)

/-- `a` is at or before `b`. -/
def atOrBefore (a b : Nat) : Bool := decide (a % 2 ^ 32 = b % 2 ^ 32) || later32 a b

/-! ### Blocks -/

/-- The planes' row positions (Table IS-1). -/
def allPos : List Nat := List.range 16

/-- The die and the plane of a row position: i = 4 q + d (Table IS-1). -/
def dieOf (pos : Nat) : Nat := pos % 4
def planeOf (pos : Nat) : Nat := pos / 4

/-- A block's key: row position and block number. -/
def blkKey (pos b : Nat) : Nat := pos * 1024 + b

def State.blk (s : State) (k : Nat) : Blk := tget {} s.sto.nand k
def State.setBlk (s : State) (k : Nat) (b : Blk) : State :=
  { s with sto := { s.sto with nand := tset {} s.sto.nand k b } }

/-- A block that reads blank and whose erases are settled. -/
def Blk.blank (b : Blk) : Bool := b.pages.isEmpty && !b.garbage

/-- A block whose bad bit is set or held (R382, R389). -/
def State.isBad (s : State) (k : Nat) : Bool :=
  s.sto.bad.contains k || s.sto.factory.contains k || s.sto.badHeld.contains k

/-- Bad log-eligible blocks of a plane in a list, each once. -/
def badIn (l : List Nat) (pos : Nat) : Nat :=
  ((l.filter (fun k => k / 1024 = pos && 2 ≤ k % 1024)).eraseDups).length

/-- G_q (R374). -/
def State.goodOf (s : State) (pos : Nat) : Nat :=
  1022 - badIn (s.sto.bad ++ s.sto.factory ++ s.sto.badHeld) pos

/-- LOG_ROWS (R374). -/
def minOver (f : Nat → Nat) : Nat := (allPos.map f).foldl Nat.min 0xFFFF

/-- A block of the open row. -/
def State.inRow (s : State) (k : Nat) : Bool :=
  match s.sto.row with
  | some r => r.blocks.getD (k / 1024) 0 = k % 1024
  | none => false

/-- The prepared blocks of a plane outside the open row (R390, R391). -/
def State.preparedOf (s : State) (pos : Nat) : Nat :=
  s.goodOf pos
    - (s.sto.nand.filter (fun e => e.1 / 1024 = pos && 2 ≤ e.1 % 1024 && !s.isBad e.1 && !e.2.blank)).length
    - (match s.sto.row with
        | some r => if (s.blk (blkKey pos (r.blocks.getD pos 0))).blank && !s.isBad (blkKey pos (r.blocks.getD pos 0))
            then 1 else 0
        | none => 0)

/-- The first block from `b` on that was never erased or written and is not bad. -/
def State.freshFrom (s : State) (pos : Nat) : Nat → Nat → Option Nat
  | 0, _ => none
  | n + 1, b =>
    if s.sto.nand.any (fun e => e.1 = blkKey pos b) || s.isBad (blkKey pos b) || s.inRow (blkKey pos b)
    then s.freshFrom pos n (b + 1) else some b

/-- The prepared block with the lowest erase count, the lowest number on a tie (R390). -/
def State.pickBlock (s : State) (pos : Nat) : Option Nat :=
  match s.freshFrom pos 1022 2 with
  | some b =>
    match (s.sto.nand.filter (fun e => e.1 / 1024 = pos && 2 ≤ e.1 % 1024 && e.2.blank && e.2.erases = 0
        && !s.isBad e.1 && !s.inRow e.1)).head? with
    | some e => some (min b (e.1 % 1024))
    | none => some b
  | none =>
    ((s.sto.nand.filter (fun e => e.1 / 1024 = pos && 2 ≤ e.1 % 1024 && e.2.blank && !s.isBad e.1
      && !s.inRow e.1)).foldl (fun (acc : Option (Nat × Nat)) e =>
        match acc with
        | none => some (e.2.erases, e.1 % 1024)
        | some (n, b) => if e.2.erases < n then some (e.2.erases, e.1 % 1024) else some (n, b)) none).map (·.2)

/-- Open a row if every plane has a prepared block (R390). -/
def State.openRow (s : State) : State :=
  let picks := allPos.map (fun p => s.pickBlock p)
  if s.sto.row.isSome || picks.any Option.isNone then s
  else
    let seq := (s.rd Reg.rowSeqNow + 1) % 2 ^ 32
    let r : LogRow := { seq := seq, blocks := picks.map (fun b => b.getD 0), firstPage := s.rd Reg.pageSeqNext,
                        stamp := s.stamp, heat := s.rd Reg.heatLast }
    { (((s.wr Reg.rowSeqNow seq).wr Reg.openRowMask 0xFFFF).bump Reg.rowsOpened) with
      sto := { s.sto with row := some r } }

/-! ### Page bytes (R376-R382) -/

/-- Bytes with their CRC-32 after them, in a slot's 512 bytes. -/
def slotWithCrc (l : List Nat) : List Nat := padTo 508 0 l ++ leBytes 4 (crc32 (padTo 508 0 l))

/-- A seal (Table IS-8). -/
def Seal.slot (x : Seal) : List Nat :=
  slotWithCrc ([0x4B, 0x4C, 0x53, 0x4C] ++ leBytes 4 x.heat ++ [bitIf x.localHeat 0 + bitIf x.recovered 1, x.cause]
    ++ leBytes 2 x.triggers ++ leBytes 6 x.accept ++ leBytes 6 x.stamp ++ [x.maskRec, x.maskEpoch, x.maskDross, x.drainEnd]
    ++ leBytes 8 x.prev ++ [0, 0, 0, 0]
    ++ x.rows.flatMap (fun r => leBytes 4 r.1 ++ leBytes 4 r.2.1 ++ leBytes 4 r.2.2.1 ++ leBytes 4 r.2.2.2.1 ++ leBytes 4 r.2.2.2.2))

/-- The block header of a row's block at a position (Table IS-6). -/
def State.blockHeader (s : State) (r : LogRow) (pos : Nat) : List Nat :=
  let b := r.blocks.getD pos 0
  slotWithCrc ([0x4B, 0x4C, 0x42, 0x48, 1, 0, dieOf pos, planeOf pos] ++ leBytes 2 b ++ [pos, 0] ++ leBytes 4 r.seq
    ++ leBytes 4 (s.blk (blkKey pos b)).erases ++ leBytes 8 r.firstPage ++ leBytes 6 r.stamp ++ [0, 0] ++ leBytes 4 r.heat
    ++ r.blocks.flatMap (leBytes 2))

/-- The bytes of an entry's slots. -/
def Ent.slots (e : Ent) : List Nat := padTo (512 * e.count) 0 e.bytes

/-- An entry's 32 bytes (Table IS-4). -/
def Ent.row (e : Ent) : List Nat :=
  leBytes 4 e.seq ++ leBytes 4 e.epoch ++ leBytes 8 e.tag ++ leBytes 2 e.units ++ leBytes 2 e.off
    ++ [e.slot, e.count, e.kind, e.stream + bitIf e.first 4 + bitIf e.last 5 + bitIf e.closes 6]
    ++ leBytes 4 (crc32 e.slots) ++ [0, 0, 0, 0]

/-- A log page's bytes: its data slots, the page header with its CRC-32, the entries (Tables IS-2 and IS-3). -/
def Page.bytes (p : Page) : List Nat :=
  let h := padTo 60 0 ([0x4B, 0x4C, 0x50, 0x47] ++ leBytes 8 p.seq ++ leBytes 4 p.row ++ [p.page, p.pos, p.ents.length, p.kind]
    ++ leBytes 6 p.stamp ++ [0, 0] ++ leBytes 2 p.mask)
  let rows := padTo 960 0 (p.ents.flatMap Ent.row)
  padTo 15360 0 (p.head ++ p.ents.flatMap Ent.slots) ++ h ++ leBytes 4 (crc32 (h ++ rows)) ++ rows

/-- A map page's bytes (Table IS-9): the plane's bad blocks, those of manufacture among them. -/
def State.mapBytes (s : State) (pos seq : Nat) : List Nat :=
  let mine := fun (k : Nat) => decide (k / 1024 = pos ∧ 2 ≤ k % 1024)
  let made := (s.sto.factory.filter mine).eraseDups
  let grown := ((s.sto.bad ++ s.sto.badHeld).filter (fun k => mine k && !made.contains k)).eraseDups
  let all := made ++ grown
  padTo 16384 0 (slotWithCrc ([0x4B, 0x4C, 0x4D, 0x50] ++ leBytes 4 seq ++ [dieOf pos, planeOf pos] ++ leBytes 2 grown.length
    ++ leBytes 2 made.length ++ [0, 0]
    ++ (List.range 128).map (fun i => ((List.range 8).map (fun j => bitIf (all.contains (blkKey pos (8 * i + j))) j)).sum)))

/-- A map page's bytes mark a block bad. -/
def Page.marks (p : Page) (k : Nat) : Bool :=
  k / 1024 = p.pos && (p.image.getD (16 + k % 1024 / 8) 0).testBit (k % 8)

/-! ### Bad blocks (R389, R382) -/

/-- The store is worn once a plane keeps fewer than 864 good blocks (R374; event 0x4109). -/
def State.wornCheck (s : State) : State :=
  let g := minOver s.goodOf
  if g < 864 && !s.bitOf Reg.isFlags 7 then (s.flag Reg.isFlags 7).event 0x4109 0xFF 0 g else s

/-- The next map page of a plane: MAP_SEQ n is page n modulo 64 of map block n / 64 modulo 2 (R382). -/
def State.nextMap (s : State) (pos : Nat) : Nat := tget 0 s.sto.mapSeq pos + 1

/-- Queue a plane's map page where marks are held and none is queued; none in a pour or in rest (R389). A map block that is
to be begun again is erased first (R382). -/
def State.queueMap (s : State) (pos : Nat) : State :=
  if s.pouring || s.rd Reg.isState ≠ 2 || !(s.sto.badHeld.any (fun k => k / 1024 = pos))
      || s.sto.pages.any (fun p => p.kind = 5 && p.pos = pos) then s
  else
    let m := s.nextMap pos
    let b := m / 64 % 2
    let k := blkKey pos b
    if m % 64 = 0 && !(s.blk k).blank then
      if s.sto.eraseQueue.any (fun e => e.1 = k) then s
      else { s with sto := { s.sto with eraseQueue := s.sto.eraseQueue ++ [(k, 3)] } }
    else
      let p : Page := { row := 0, page := m % 64, pos := pos, block := b, kind := 5, seq := m, ready := true,
                        image := s.mapBytes pos m }
      { s with sto := { s.sto with pages := s.sto.pages ++ [p] } }

/-- A block becomes grown bad (R389; event 0x4104). -/
def State.growBad (s : State) (k : Nat) : State :=
  if s.isBad k then s
  else
    let pos := k / 1024
    let s := { s with sto := { s.sto with badHeld := s.sto.badHeld ++ [k] } }
    let s := (s.flag Reg.isFlags 3).bump Reg.grownBadCount
    (s.event 0x4104 (dieOf pos) (planeOf pos) (k % 1024)).wornCheck.queueMap pos

/-! ### Placement (R378) -/

/-- Slots of a record: its units, one for a CLOSE (R328). -/
def Rec.slots (r : Rec) : Nat := max 1 r.units

/-- Move a row's cursor to the next place still in the row; `n` bounds the search. -/
def LogRow.seek : Nat → LogRow → LogRow
  | 0, r => r
  | n + 1, r =>
    if 16 ≤ r.pos then LogRow.seek n { r with page := r.page + 1, pos := 0 }
    else if r.mask.testBit r.pos then r
    else LogRow.seek n { r with pos := r.pos + 1 }

/-- Data slots of a page that entries name: 29 beside the block header, else 30 (R376). -/
def slotBase (page : Nat) : Nat := if page = 0 then 1 else 0

/-- Change the pages of the assignment list that satisfy a test. -/
def State.editPages (s : State) (c : Page → Bool) (f : Page → Page) : State :=
  { s with sto := { s.sto with pages := s.sto.pages.map (fun p => if c p then f p else p) } }

/-- The page whose slots are being assigned. -/
def State.curPage (s : State) : Option Page := s.sto.pages.find? (fun p => !p.ready)

/-- Open the next page of the open row, if it has one (R375, R377). -/
def State.newPage (s : State) (kind : Nat) : State :=
  match s.sto.row with
  | none => s
  | some r =>
    let r := r.seek 40
    if r.mask = 0 || 63 ≤ r.page then { s with sto := { s.sto with row := some r } }
    else
      let q := s.rd Reg.pageSeqNext
      let p : Page := { row := r.seq, page := r.page, pos := r.pos, block := r.blocks.getD r.pos 0, kind := kind,
                        seq := q, stamp := s.stamp, mask := r.mask, used := slotBase r.page,
                        head := if r.page = 0 then s.blockHeader r r.pos else [] }
      { (s.wr Reg.pageSeqNext (q + 1)) with
        sto := { s.sto with row := some { r with pos := r.pos + 1 }, pages := s.sto.pages ++ [p] } }

/-- Put an entry into the page being assigned, at its next slot; a full page is ready to program (R384). -/
def Page.put (p : Page) (e : Ent) : Page :=
  { p with ents := p.ents ++ [{ e with slot := p.used }], used := p.used + e.count, ready := 30 ≤ p.used + e.count }

/-- Pad the rest of a page (R378) and make it ready. -/
def Page.pad (p : Page) : Page :=
  if p.used < 30 then
    { p with ents := p.ents ++ [{ kind := 4, slot := p.used, count := 30 - p.used }], used := 30, ready := true }
  else { p with ready := true }

/-- Pad every page that is still being assigned (PAGE_WAIT, a seal, a row close, FLUSH). -/
def State.padOpen (s : State) : State := s.editPages (fun p => !p.ready) Page.pad

/-- A record of the crucible. -/
def State.cruOf (s : State) (stream seq : Nat) : Option CruRec :=
  s.sto.crucible.find? (fun c => c.r.stream = stream && c.r.seq = seq)

/-- A chunk of a record from a unit offset on, at most `room` slots. -/
def chunkOf (r : Rec) (off room : Nat) : Ent :=
  let n := min room (r.slots - off)
  { kind := 1, slot := 0, count := n, stream := r.stream, seq := r.seq, epoch := r.epoch, tag := r.tag,
    units := r.units, off := off, first := off = 0, last := off + n = r.slots, closes := r.closes,
    bytes := if r.units = 0 then List.replicate 512 0 else (r.data.drop (512 * off)).take (512 * n) }

/-- The entry and seal of an item other than a record. -/
def itemEnt : Item → Ent
  | .mark st e stamp => { kind := 3, slot := 0, count := 1, stream := st, epoch := e, bytes := padTo 512 0 (leBytes 6 stamp) }
  | .marker stamp c t =>
    { kind := 6, slot := 0, count := 1, bytes := padTo 512 0 (leBytes 6 stamp ++ [c, 0] ++ leBytes 2 t) }
  | .closing x => { kind := 2, slot := 0, count := 1, bytes := x.slot }
  | .record _ _ _ => { kind := 1, slot := 0, count := 1 }

/-- Place the front of the waiting items as far as one page allows; none where nothing waits or no page can be opened. -/
def State.placeStep (s : State) : Option State :=
  match s.sto.todo with
  | [] => none
  | it :: rest =>
    match it with
    | .closing x =>
      let s := s.padOpen.newPage 2
      match s.curPage with
      | none => none
      | some p =>
        let s := s.editPages (fun p => !p.ready) (fun p => { (p.put (itemEnt it)).pad with cast := some x })
        some { s with sto := { s.sto with todo := rest, marker := if s.sto.marker.isSome then some p.seq else none } }
    | .record st q off =>
      match s.cruOf st q with
      | none => some { s with sto := { s.sto with todo := rest } }
      | some c =>
        let s := if s.curPage.isSome then s else s.newPage 1
        match s.curPage with
        | none => none
        | some p =>
          let e := chunkOf c.r off (30 - p.used)
          let s := s.editPages (fun p => !p.ready) (fun p => p.put e)
          some { s with sto := { s.sto with
              todo := if e.last then rest else .record st q (off + e.count) :: rest
              crucible := s.sto.crucible.map (fun d =>
                if d.r.stream = st && d.r.seq = q then { d with pages := d.pages ++ [p.seq] } else d) } }
    | .mark _ _ _ | .marker _ _ _ =>
      let s := if s.curPage.isSome then s else s.newPage 1
      match s.curPage with
      | none => none
      | some p =>
        let s := s.editPages (fun p => !p.ready) (fun p => p.put (itemEnt it))
        let isMarker := match it with | .marker _ _ _ => true | _ => false
        some { s with sto := { s.sto with todo := rest, marker := if isMarker then some p.seq else s.sto.marker } }

/-- Place what waits, in order, as far as pages can be opened; `n` bounds the pages touched. -/
def State.placeAll : Nat → State → State
  | 0, s => s
  | n + 1, s =>
    match s.placeStep with
    | some s' => State.placeAll n s'
    | none => s

/-! ### The log's pages (R398) -/

/-- Put a page into a list that rises by PAGE_SEQ. -/
def insertPage (p : Page) : List Page → List Page
  | [] => [p]
  | q :: t => if p.seq < q.seq then p :: q :: t else q :: insertPage p t

/-- Every page of the log that reads, in PAGE_SEQ order; a torn page holds nothing (R386). -/
def State.logPages (s : State) : List Page :=
  ((s.sto.nand.flatMap (fun e => if e.2.garbage then [] else e.2.pages)).filter
    (fun p => !p.torn && p.kind ≠ 5)).foldl (fun l p => insertPage p l) []

/-! ### Shakeout reads (R385, R401) -/

/-- The dies of the pages that hold a record's newest copy, chunk by chunk. -/
def State.recDies (s : State) (st seq : Nat) : List Nat :=
  (s.logPages.flatMap (fun p => (p.ents.filter (fun e => e.kind = 1 && e.stream = st && e.seq = seq)).map (fun e =>
    (e.first, dieOf p.pos)))).foldl (fun acc x => if x.1 then [x.2] else acc ++ [x.2]) []

/-- The index a stream's shakeout records end at: all of them, or those before an unreadable one (R401). -/
def ShakeStream.limit (x : ShakeStream) : Nat := x.stop.getD x.recs.length

/-- The record a stream of the shakeout reads next: while frames are sent, with no read under way for the stream and no
record of it waiting for the link. -/
def State.shakeNext (s : State) (st : Nat) : Option Rec :=
  let x := tget {} s.shk.streams st
  if s.rd Reg.shakeState = 2 && !s.bitOf Reg.shakeReleased st && !(s.sto.reads.any (fun e => e.2 = st + 1))
      && !(s.ll.waiting.any (fun f => f.ty = 0x34 && f.stream = st)) && x.next < x.limit then x.recs[x.next]? else none

/-- The stream whose next shakeout page lies on a die. -/
def State.wantRead (s : State) (d : Nat) : Option Nat :=
  (List.range 8).find? (fun st => match s.shakeNext st with
    | some r => (s.recDies st r.seq)[(tget {} s.shk.streams st).read]? = some d
    | none => false)

/-! ### Dies (R384, R385) -/

/-- A die is programming; a die reads for a shakeout; an erase runs on it. -/
def State.dieBusy (s : State) (d : Nat) : Bool := s.sto.pages.any (fun p => p.busy && dieOf p.pos = d)
def State.dieReading (s : State) (d : Nat) : Bool := tget 0 s.sto.reads d ≠ 0
def State.dieErase (s : State) (d : Nat) : Nat :=
  match s.sto.erase with
  | some e => if e.die = d then e.state else 0
  | none => 0

/-- A page for a die waits to be programmed. -/
def State.dieWaits (s : State) (d : Nat) : Bool := s.sto.pages.any (fun p => p.ready && !p.busy && dieOf p.pos = d)

/-- DIE_STATE (Table IS-14); 6 is set by the scan and stands. -/
def State.refreshDie (s : State) (d : Nat) : State :=
  if s.rd (Reg.dieState d) = 6 then s
  else s.wr (Reg.dieState d)
    (if s.rd Reg.isState = 0 then 0 else if s.dieBusy d then 2 else if s.dieErase d = 1 then 3
     else if s.dieReading d then 5 else if s.dieErase d ≠ 0 then 4 else 1)

/-- Start an idle die (R384, R385): a shakeout read where nothing waits to be programmed or 16 page indices have been since the
last one, else the waiting pages of its oldest page index, on its planes together. -/
def State.startDie (s : State) (d : Nat) : State :=
  if s.dieBusy d || s.dieReading d || s.dieErase d = 1 then s.refreshDie d
  else
    match s.wantRead d, s.sto.pages.find? (fun p => p.ready && !p.busy && dieOf p.pos = d) with
    | none, none => s.refreshDie d
    | some st, none =>
      { s with sto := { s.sto with reads := tput s.sto.reads d (st + 1), sinceRead := tset 0 s.sto.sinceRead d 0 } }.refreshDie d
    | w, some p0 =>
      if w.isSome && 16 ≤ tget 0 s.sto.sinceRead d then
        { s with sto := { s.sto with reads := tput s.sto.reads d (w.getD 0 + 1), sinceRead := tset 0 s.sto.sinceRead d 0 } }
          |>.refreshDie d
      else
        let s := s.editPages (fun p => p.ready && dieOf p.pos = d && p.row = p0.row && p.page = p0.page
          && (p.kind = 5) = (p0.kind = 5)) (fun p => { p with busy := true })
        { s with sto := { s.sto with sinceRead := tmod 0 s.sto.sinceRead d (· + 1) } }.refreshDie d

/-- Start every die that can program. -/
def State.startDies (s : State) : State := s.each [0, 1, 2, 3] (fun d s => s.startDie d)

/-- The entries of a block's pages of one row. -/
def State.rowEnts (s : State) (row k : Nat) : List Ent :=
  ((s.blk k).pages.filter (fun p => p.row = row && p.kind ≠ 5 && !p.torn)).flatMap (·.ents)

/-- A block summary (Table IS-7) with its close reason: 1 row full, 2 closed by the start-up scan. -/
def State.blockSummary (s : State) (row pos block reason : Nat) : List Nat :=
  let k := blkKey pos block
  let pages := (s.blk k).pages.filter (fun p => p.row = row && p.kind ≠ 5 && !p.torn)
  let ents := s.rowEnts row k
  let heat := ((pages.filterMap (·.cast)).getLast?).elim 0 (·.heat)
  let last := ((pages.filter (fun p => p.ents.any (fun e => e.kind = 1))).getLast?).elim 0 (·.seq)
  let chunks := fun (st : Nat) => ents.filter (fun e => e.kind = 1 && e.stream = st)
  let marks := fun (st : Nat) => (ents.filter (fun e => e.kind = 3 && e.stream = st)).map (·.epoch)
  let row28 := fun (st : Nat) =>
    let c := chunks st
    let f := c.headD { kind := 0, slot := 0, count := 0 }
    let l := c.getLastD { kind := 0, slot := 0, count := 0 }
    leBytes 4 f.seq ++ leBytes 4 l.seq ++ leBytes 4 f.epoch ++ leBytes 4 l.epoch ++ leBytes 4 c.length
      ++ leBytes 4 (s.rd (Reg.retireDurable st))
      ++ leBytes 4 ((marks st).foldl (fun a b => if later32 a b then b else a) ((marks st).headD 0))
  let masks := [((List.range 8).map (fun st => bitIf (!(chunks st).isEmpty) st)).sum,
    ((List.range 8).map (fun st => bitIf (!(marks st).isEmpty) st)).sum]
  let b := padTo 508 0 ([0x4B, 0x4C, 0x42, 0x53] ++ leBytes 4 row ++ [pos, reason, 0, 0] ++ leBytes 4 heat ++ leBytes 8 last
    ++ (List.range 8).flatMap row28 ++ masks)
  b ++ leBytes 4 (crc32 b)

/-- A summary page (R376, R380). -/
def State.summaryPage (s : State) (row pos block mask seq reason : Nat) : Page :=
  { row := row, page := 63, pos := pos, block := block, kind := 4, seq := seq, stamp := s.stamp, mask := mask
    ents := [{ kind := 5, slot := 0, count := 1, bytes := s.blockSummary row pos block reason },
      { kind := 4, slot := 1, count := 29 }]
    used := 30, ready := true }

/-- Row full: every position still in it has programmed page 62; then its summary pages are queued and the next row opens
(R380, R390). -/
def State.closeRow (s : State) : State :=
  match s.sto.row with
  | none => s.openRow
  | some r =>
    let r := r.seek 40
    if (r.mask = 0 || 63 ≤ r.page) && !(s.sto.pages.any (fun p => p.row = r.seq && p.kind ≠ 5 && p.page ≤ 62)) then
      let q := s.rd Reg.pageSeqNext
      let ps := (allPos.filter (fun i => r.mask.testBit i)).mapIdx (fun n i =>
        s.summaryPage r.seq i (r.blocks.getD i 0) r.mask (q + n) 1)
      { (s.wr Reg.pageSeqNext (q + ps.length)) with
        sto := { s.sto with row := none, pages := s.sto.pages ++ ps } }.openRow
    else s

/-- The placement engine: close a full row, place what waits, and start the dies. Where the pour flushes, no page waits
(R384). -/
def State.pump (s : State) : State :=
  if s.rd Reg.isState ≠ 2 || !s.storeRuns then s
  else
    let s := s.closeRow
    let s := State.placeAll (8 * s.sto.todo.length + 8) s
    let ps := s.rd Reg.pourState
    let s := if (ps = 2 || ps = 3) && s.sto.todo.isEmpty then s.padOpen else s
    s.startDies

/-! ### Prepared capacity (R391) -/

/-- The positions of a mask from `lo` on. -/
def posCount (mask lo : Nat) : Nat := (allPos.filter (fun i => lo ≤ i && mask.testBit i)).length

/-- A: data slots of the open row's pages 0-62 not yet assigned. -/
def State.slotsLeft (s : State) : Nat :=
  (match s.sto.row with
    | none => 0
    | some r =>
      let r := r.seek 40
      if 63 ≤ r.page then 0
      else posCount r.mask r.pos * (30 - slotBase r.page) + (62 - r.page) * posCount r.mask 0 * 30)
  + (match s.curPage with
    | some p => 30 - p.used
    | none => 0)

/-- Slots of a crucible record already assigned. -/
def State.slotsPlaced (s : State) (c : CruRec) : Nat :=
  match s.sto.todo.findSome? (fun it => match it with
      | .record st q off => if st = c.r.stream && q = c.r.seq then some off else none
      | _ => none) with
  | some off => off
  | none => c.r.slots

/-- Retirement marks and the pour marker awaiting placement: M. -/
def State.marksWaiting (s : State) : Nat :=
  (s.sto.todo.filter (fun it => match it with | .mark _ _ _ => true | .marker _ _ _ => true | _ => false)).length

/-- MOULD_UNITS (R391). -/
def State.mouldNow (s : State) : Nat :=
  (s.slotsLeft + ((s.sto.crucible.map (fun c => s.slotsPlaced c)).sum) + minOver s.preparedOf * 16 * 1889)
    - s.rd Reg.mouldReserve - s.marksWaiting

/-! ### Reading the log back (R398) -/

/-- The record a chunk belongs to, less its data. -/
def entRec (e : Ent) : Rec :=
  { stream := e.stream, seq := e.seq, epoch := e.epoch, tag := e.tag, units := e.units, closes := e.closes,
    data := e.bytes }

/-- One step of gathering chunks into copies of records: the copy under way with its units so far, and the complete copies
with the PAGE_SEQ of their last chunk. -/
def gather (acc : Option (Rec × Nat) × List (Rec × Nat)) (pe : Nat × Ent) : Option (Rec × Nat) × List (Rec × Nat) :=
  let e := pe.2
  if e.kind ≠ 1 then acc
  else
    let cur : Option (Rec × Nat) :=
      if e.first then some (entRec e, e.count)
      else match acc.1 with
        | some (r, n) =>
          if r.stream = e.stream && r.seq = e.seq && e.off = n then some ({ r with data := r.data ++ e.bytes }, n + e.count)
          else none
        | none => none
    match cur with
    | some (r, n) => if e.last && n = r.slots then (none, acc.2 ++ [(r, pe.1)]) else (cur, acc.2)
    | none => (none, acc.2)

/-- The seals of the log with their PAGE_SEQ, oldest first. -/
def State.logSeals (s : State) : List (Nat × Seal) := s.logPages.filterMap (fun p => p.cast.map (fun x => (p.seq, x)))

/-- A stream's row of a seal: last REC_SEQ, last complete epoch, DROSS_RECS, DROSS_EPOCH, RETIRE_DURABLE. -/
def Seal.rowOf (x : Seal) (st : Nat) : Nat × Nat × Nat × Nat × Nat := x.rows.getD st (0, 0, 0, 0, 0)
def Seal.lastSeq (x : Seal) (st : Nat) : Nat := (x.rowOf st).1
def Seal.lastEpoch (x : Seal) (st : Nat) : Nat := (x.rowOf st).2.1
def Seal.drossRecs (x : Seal) (st : Nat) : Nat := (x.rowOf st).2.2.1
def Seal.drossEpoch (x : Seal) (st : Nat) : Nat := (x.rowOf st).2.2.2.1
def Seal.retired (x : Seal) (st : Nat) : Nat := (x.rowOf st).2.2.2.2

/-- A record is dross: its epoch is the DROSS_EPOCH of a seal with a higher PAGE_SEQ (R398). -/
def isDross (seals : List (Nat × Seal)) (r : Rec) (page : Nat) : Bool :=
  seals.any (fun e => page < e.1 && e.2.drossRecs r.stream ≠ 0 && e.2.drossEpoch r.stream = r.epoch)

/-- Put a record into a list in REC_SEQ order; a later copy of the same REC_SEQ replaces the earlier one (R398). -/
def insertRec (r : Rec) : List Rec → List Rec
  | [] => [r]
  | q :: t =>
    if r.seq = q.seq then r :: t
    else if later32 r.seq q.seq then r :: q :: t
    else q :: insertRec r t

/-- A stream's present records in REC_SEQ order (R398). -/
def State.present (s : State) (st : Nat) : List Rec :=
  let seals := s.logSeals
  let pes := s.logPages.flatMap (fun p => p.ents.map (fun e => (p.seq, e)))
  ((pes.foldl gather (none, [])).2.filter (fun e => e.1.stream = st && !isDross seals e.1 e.2)).foldl
    (fun l e => insertRec e.1 l) []

/-- The unbroken run of records from the first one (R398). -/
def unbroken : List Rec → List Rec
  | [] => []
  | [r] => [r]
  | r :: q :: t => if q.seq = (r.seq + 1) % 2 ^ 32 then r :: unbroken (q :: t) else [r]

/-! ### Fettling (R395) -/

/-- A chunk of a block is durably retired or dross. -/
def State.chunkFree (s : State) (seals : List (Nat × Seal)) (p : Page) (e : Ent) : Bool :=
  e.kind ≠ 1
    || (s.sto.retDur.testBit e.stream && atOrBefore e.epoch (s.rd (Reg.retireDurable e.stream)))
    || seals.any (fun x => p.seq < x.1 && x.2.drossRecs e.stream ≠ 0 && x.2.drossEpoch e.stream = e.epoch)

/-- A block that fettling may erase (R395). -/
def State.eligible (s : State) (k : Nat) (b : Blk) : Bool :=
  let seals := s.logSeals
  !b.pages.isEmpty && !b.garbage && !s.inRow k && !s.isBad k && 2 ≤ k % 1024
    && !(s.sto.pages.any (fun p => p.kind ≠ 5 && blkKey p.pos p.block = k))
    && b.pages.all (fun p => p.torn || p.ents.all (fun e => s.chunkFree seals p e))
    && b.pages.all (fun p => match p.cast with
        | some x => !(decide (some x.heat = s.sto.cast.map (·.heat)))
        | none => true)

/-- The eligible blocks. -/
def State.eligibles (s : State) : List (Nat × Blk) := s.sto.nand.filter (fun e => s.eligible e.1 e.2)

/-- The next block to fettle: oldest ROW_SEQ, then lowest row position (R395). -/
def State.nextFettle (s : State) : Option Nat :=
  (s.eligibles.foldl (fun (acc : Option (Nat × Nat)) e =>
    match acc with
    | none => some (e.2.lastRow, e.1)
    | some (r, k) => if later32 e.2.lastRow r then some (e.2.lastRow, e.1) else some (r, k)) none).map (·.2)

end Sys2Proof.Machine
end

