-- ==== Sys2Proof/Machine/LinkOps.lean ====
section
/-! DEFINITION. The link's operations (spec/11_link_phy.md, spec/12_link_layer.md): sending frames, sessions, drops and
retrains, eye-scan ends. -/
namespace Sys2Proof.Machine

/-! Codes of LINK_STATE (Table LP-4). -/
namespace Ls
def disabled : Nat := 0
def detect : Nat := 1
def align : Nat := 2
def rateChange : Nat := 3
def eq : Nat := 4
def confirm : Nat := 5
def active : Nat := 6
def banking : Nat := 7
def banked : Nat := 8
def waking : Nat := 9
end Ls

def allStreams : List Nat := List.range 8
def allLanes : List Nat := List.range 4

/-- Little-endian 32-bit words of a per-stream array (R305). -/
def perStream (f : Nat → Nat) : List Nat := allStreams.flatMap (fun st => leBytes 4 (f st))

/-- A mask over the streams. -/
def streamMask (f : Nat → Bool) : Nat := (allStreams.map (fun st => bitIf (f st) st)).sum

/-! ### Sending (R306, R310, R311) -/

/-- A frame's bytes from TYPE to CRC (Tables LL-1, LL-2). -/
def frameBytes (ty seqw flags : Nat) (p : List Nat) : List Nat :=
  let b := [ty] ++ leBytes 2 seqw ++ [flags] ++ leBytes 4 p.length ++ p
  b ++ leBytes 4 (crc32 b)

/-- A sequenced frame's bytes under its SEQ, resent in a replay or not (R302, R310). -/
def TxFrame.bytes (f : TxFrame) (seq : Nat) (again : Bool) : List Nat :=
  frameBytes f.ty (seq % 4096 + 4096 * (f.stream % 8)) (bitIf again 0) f.payload

/-- Bytes of a frame from TYPE to CRC (Table LL-1). -/
def TxFrame.size (f : TxFrame) : Nat := 12 + f.payload.length

/-- The rank of a waiting frame (R311). -/
def txRank (ty : Nat) : Nat :=
  if ty = 0x30 then 0 else if ty = 0x33 then 1 else if ty = 0x31 then 2 else if ty = 0x21 then 3
  else if ty = 0x32 then 4 else 5

/-- Insert a waiting frame behind those of its rank. -/
def insertTx (f : TxFrame) : List TxFrame → List TxFrame
  | [] => [f]
  | g :: t => if txRank f.ty < txRank g.ty then f :: g :: t else g :: insertTx f t

/-- A frame may be sent now: the link is ACTIVE and not idle, no replay runs, the session allows the type (R310, R315), and
the retry buffer has room (R311). -/
def State.canSend (s : State) (f : TxFrame) : Bool :=
  s.rd Reg.linkState = Ls.active && s.rd Reg.txIdle = 0 && !s.ll.replaying && s.rd Reg.llState ≠ 0
    && (s.rd Reg.llState = 2 || f.ty = 0x30 || f.ty = 0x33 || f.ty = 0x21)
    && s.ll.retry.length < 2047 && s.rd Reg.retryBytes + f.size ≤ 262144

/-- Send one frame: it takes the next SEQ and stays in the retry buffer (R306). -/
def State.txFrame (s : State) (f : TxFrame) : State :=
  let n := s.rd Reg.txNextSeq
  let s := { s with ll := { s.ll with retry := s.ll.retry ++ [(n, f)], wire := f.bytes n false, sentAt := s.tick } }
  ((s.wr Reg.txNextSeq ((n + 1) % 4096)).wr Reg.retryBytes (s.rd Reg.retryBytes + f.size)).bump Reg.framesTx

/-- Send waiting frames in order as far as they may be sent; a frame that waits holds back those of its rank and below. -/
def State.drainTx (s : State) : List TxFrame → State
  | [] => { s with ll := { s.ll with waiting := [] } }
  | f :: fs => if s.canSend f then (s.txFrame f).drainTx fs else { s with ll := { s.ll with waiting := f :: fs } }

/-- Let the waiting frames out. -/
def State.llPump (s : State) : State := s.drainTx s.ll.waiting

/-- The newest frame sent is ended with ABT: it takes no SEQ and its room in the retry buffer is freed (R312; log entry 93). -/
def State.abortTx (s : State) : State :=
  match s.ll.retry.getLast? with
  | none => s
  | some (n, f) =>
    let s := { s with ll := { s.ll with retry := s.ll.retry.dropLast, wire := [] } }
    ((s.wr Reg.txNextSeq n).wr Reg.retryBytes (s.rd Reg.retryBytes - f.size)).wr Reg.framesTx (s.rd Reg.framesTx + 4294967295)

/-- A SHAKE_REC that is being sent in the tick of a pour's acceptance is abandoned (R312). -/
def State.abortRec (s : State) : State :=
  match s.ll.retry.getLast? with
  | some (_, f) => s.iff (f.ty = 0x34 && s.ll.sentAt = s.tick && !s.ll.replaying) (·.abortTx)
  | none => s

/-- Send an ACK or NAK naming e - 1, the last accepted SEQ (R307, R308). -/
def State.putAck (s : State) (ty reason : Nat) : State :=
  let a := (s.rd Reg.rxExpected + 4095) % 4096
  { s with ll := { s.ll with lastAck := some (ty, a, reason), wire := frameBytes ty 0 0 (leBytes 2 a ++ [reason, 0]) } }

/-- Send an ACK or NAK now, or once the transmitter has left Idle (R287). -/
def State.ackOut (s : State) (ty reason : Nat) : State :=
  if s.rd Reg.txIdle = 0 then s.putAck ty reason
  else if s.ll.acksDue.contains (ty, reason) then s
  else { s with ll := { s.ll with acksDue := s.ll.acksDue ++ [(ty, reason)] } }

/-- The transmitter leaves Idle: the acknowledgements that wait go first (R287, R306). -/
def State.wakeTx (s : State) : State :=
  let l := s.ll.acksDue
  let s := { s with ll := { s.ll with acksDue := [] } }.wr Reg.txIdle 0
  (s.each l (fun e s => s.putAck e.1 e.2)).llPump

/-- Queue a sequenced frame; a newer CREDIT, COMMIT or STATUS replaces one that still waits (R311). Without a session nothing
is queued. -/
def State.send (s : State) (f : TxFrame) : State :=
  if s.rd Reg.llState = 0 then s
  else
    let w := if f.ty = 0x31 || f.ty = 0x32 || f.ty = 0x33 then s.ll.waiting.filter (fun g => g.ty ≠ f.ty)
      else s.ll.waiting
    { s with ll := { s.ll with waiting := insertTx f w } }.llPump

/-! ### The module's own frames (Table LL-5) -/

/-- A sealed casting awaits its shakeout (R367). -/
def State.sealedBit (s : State) : Bool := s.sto.unconfirmed

/-- PROTECTED (R6): guard runs, not on VLOG without the power side (R35). -/
def State.protectedNow (s : State) : Bool := s.phase = .guard && !s.vlogAlone

/-- The riser margin is negative: unbounded, or below 0 (R341). -/
def State.marginNeg (s : State) : Bool := !s.sto.bounded || decide (s.sto.marginUj < 0)

/-- The link source's quarantine runs. -/
def State.linkQuar (s : State) : Bool := (tget {} s.svc.srcs 0).quarLeft ≠ 0

/-- STATUS bytes 0-2 (Table LL-5); bit 1 of byte 2 reports ADM_STATE (spec/13_mirror_and_admission.md R342; log entry 32). -/
def State.statusHead (s : State) : List Nat :=
  leBytes 2 s.activity ++ [bitIf s.protectedNow 0 + bitIf (s.rd Reg.admState = 1) 1 + bitIf (s.phase = .pour) 2 + bitIf s.sealedBit 3
    + bitIf s.linkQuar 4]

/-- A STATUS frame of this tick's values. -/
def State.sendStatus (s : State) : State :=
  let p := s.statusHead ++ [0] ++ leBytes 4 (s.rd Reg.margin) ++ leBytes 6 s.stamp ++ [0, 0]
  { s with ll := { s.ll with statusSent := s.statusHead } }.send { ty := 0x33, payload := p }

/-- A STATUS frame where bytes 0-2 have changed (R322). -/
def State.statusIfChanged (s : State) : State := if s.ll.statusSent = s.statusHead then s else s.sendStatus

/-- The mask of open streams (R334): STREAM_OPEN. -/
def State.openNow (s : State) : Nat := streamMask (fun st => s.rd (Reg.streamOpen st) = 1)

/-- A CREDIT frame carrying every LIMIT and the open mask (R321). -/
def State.sendCredit (s : State) : State :=
  let m := s.openNow
  { s with ll := { s.ll with maskSent := m } }.send
    { ty := 0x31, payload := perStream (fun st => s.rd (Reg.limit st)) ++ [m, 0, 0, 0] }

/-- A COMMIT frame; COMMIT_GAP starts (R322). -/
def State.sendCommit (s : State) : State :=
  let p := perStream (fun st => s.rd (Reg.lastCommit st)) ++ perStream (fun st => s.rd (Reg.nextRec st))
    ++ [streamMask (fun st => s.bitOf (Reg.streamHas st) 0), s.rd Reg.stalled, 0, 0]
  { s with ll := { s.ll with commitDue := false, gapRuns := true } }.send { ty := 0x32, payload := p }

/-- A COMMIT frame is due: sent now, or when COMMIT_GAP has run out (R322). -/
def State.commitSoon (s : State) : State :=
  if s.rd Reg.llState ≠ 2 then s
  else if s.ll.gapRuns then { s with ll := { s.ll with commitDue := true } }
  else s.sendCommit

/-- RESUME (R315, R323). -/
def State.sendResume (s : State) : State :=
  let c := s.rd Reg.lastCtrl
  let p := leBytes 4 (s.rd Reg.session) ++ [bitIf s.protectedNow 0 + bitIf s.sealedBit 1,
      streamMask (fun st => s.bitOf (Reg.streamHas st) 0), streamMask (fun st => s.bitOf (Reg.streamHas st) 1), 0]
    ++ perStream (fun st => s.rd (Reg.lastCommit st)) ++ perStream (fun st => s.rd (Reg.lastComplete st))
    ++ [c % 256, c / 256 % 256, c / 65536 % 256, 0]
  (((s.wr Reg.llState 2).flag Reg.llFlags 6).event 0x3104 0xFF 0 (s.rd Reg.session)).send { ty := 0x30, payload := p }

/-! ### Sessions (R314, R316) -/

/-- Granted and unconsumed credit of a stream (R320). -/
def State.outOf (s : State) (st : Nat) : Nat :=
  let d := (s.rd (Reg.limit st) + 2 ^ 32 - s.rd (Reg.rxunits st)) % 2 ^ 32
  if d < 2 ^ 31 then d else 0

def State.outTotal (s : State) : Nat := (allStreams.map s.outOf).sum

/-- A session begins (R314); STATUS is its first sequenced frame. -/
def State.sessionBegin (s : State) : State :=
  let s := { s with ll := { s.ll with
      waiting := [], retry := [], nakSent := false, uncovered := 0, replayRun := 0, replaying := false, lastAck := none,
      acksDue := [], resent := [],
      maskSent := 0, statusSent := [], commitDue := false, gapRuns := false } }
  let s := ((((s.wr Reg.txNextSeq 0).wr Reg.txOldestSeq 0).wr Reg.rxExpected 0).wr Reg.retryBytes 0).bump Reg.session
  let s := s.each allStreams (fun st s => (s.wr (Reg.limit st) 0).wr (Reg.rxunits st) 0)
  (s.wr Reg.llState 1).sendStatus

/-- Shakeout pauses where a session ends while it is sending (R370). -/
def State.shakePauseOnEnd (s : State) : State :=
  if s.rd Reg.shakeState = 2 then s.wr Reg.shakeState 3 else s

/-- The credit that the frames accepted in the session that ends, and not applied yet, may still consume (R316). -/
def State.keptCredit (s : State) : Table Nat :=
  allStreams.foldl (fun t st => tset 0 t st (if s.rd Reg.llState = 2 then s.outOf st else 0)) []

/-- A session ends (R316): the retry buffer is emptied, limits lapse, the open transfer of the link ends; frames accepted already
stay. -/
def State.sessionEnd (s : State) : State :=
  if s.rd Reg.llState = 0 then s
  else
    let bytes := s.rd Reg.retryBytes
    let s := if s.ll.retry.isEmpty then s else (s.flag Reg.llFlags 2).event 0x3102 0xFF 0 bytes
    let src := tget {} s.svc.srcs 0
    let s := { s with
      ll := { s.ll with
        waiting := [], retry := [], nakSent := false, uncovered := 0, replaying := false, acksDue := [], resent := [],
        rxq := s.ll.rxq.filter (fun f => f.ty ≠ 1 && f.ty ≠ 2), lapsed := s.keptCredit,
        commitDue := false, gapRuns := false, lostXfer := s.ll.lostXfer || src.xfer.isSome }
      svc := { s.svc with srcs := tset {} s.svc.srcs 0 { src with xfer := none } } }
    let s := s.each allStreams (fun st s => s.wr (Reg.limit st) (s.rd (Reg.rxunits st)))
    ((s.wr Reg.retryBytes 0).wr Reg.llState 0).shakePauseOnEnd

/-! ### Drops and retrains (R274, R291) -/

/-- The physical lanes of the width: those whose logical number is below it. -/
def State.laneIn (s : State) (p : Nat) : Bool := decide (s.rd (Reg.laneLogical p) < 4)

/-- A lane's receiver. -/
def State.lane (s : State) (p : Nat) : LaneRx := tget {} s.phy.lanes p
def State.setLane (s : State) (p : Nat) (l : LaneRx) : State :=
  { s with phy := { s.phy with lanes := tset {} s.phy.lanes p l } }

/-- A lane's eye scan. -/
def State.scanOf (s : State) (p : Nat) : EyeScan := tget {} s.phy.scans p
def State.setScan (s : State) (p : Nat) (e : EyeScan) : State :=
  { s with phy := { s.phy with scans := tset {} s.phy.scans p e } }

/-- End a lane's running scan with a status: 3 stopped, 4 abandoned (R300); a link report may complete with it (R490). -/
def State.endScan (s : State) (p status : Nat) : State :=
  let e := s.scanOf p
  if e.running then ((s.setScan p { e with running := false, counting := false }).wr (Reg.eyeCmd p) status).reportScans else s

def State.endScans (s : State) (status : Nat) : State := s.each allLanes (fun p s => s.endScan p status)

/-- The running steps are discarded and repeated (R300). -/
def State.repeatScans (s : State) : State :=
  s.each allLanes (fun p s => let e := s.scanOf p
    if e.counting then s.setScan p { e with counting := false, from_ := s.tick } else s)

/-- The module drives and listens to a physical lane (R293). -/
def State.laneOn (s : State) (p : Nat) : Bool := s.bitOf Reg.laneMask p

/-- The link has dropped in this tick already; it was ACTIVE in it (R291). -/
def State.dropped (s : State) : Bool := (s.phy.dropAt.map (·.1)) = some s.tick
def State.wasActive (s : State) : Bool := s.rd Reg.linkState = Ls.active || s.phy.dropAt = some (s.tick, true)

/-- The cause recorded of two in one tick: the lowest that disables, else the lowest (R291). -/
def firstCause (a b : Nat) : Nat := if 11 ≤ a && b < 11 then a else if 11 ≤ b && a < 11 then b else min a b

/-- A drop for a cause of Table LP-9: it is recorded, or joins the one of this tick, and the session ends (R274, R291; log entry
25). -/
def State.linkDown (s : State) (cause next : Nat) : State :=
  let was := s.rd Reg.linkState
  let s := if s.dropped then s.wr Reg.linkDownCause (firstCause (s.rd Reg.linkDownCause) cause)
    else if was = Ls.disabled then s
    else
      let s := { s with phy := { s.phy with dropAt := some (s.tick, was = Ls.active) } }
      ((s.wr Reg.linkDownCause cause).bump Reg.linkDowns).event 0x3002 0xFF cause
  let s := s.sessionEnd
  (((((s.wr Reg.linkUp 0).wr Reg.linkState next).wr Reg.rateNow 0xFF).wr Reg.widthNow 0).wr Reg.txIdle 0).wr Reg.rxIdle 0
    |>.repeatScans

/-- The counts of a training attempt start again. -/
def State.clearSets (s : State) : State :=
  s.each allLanes (fun p s => s.setLane p
    { s.lane p with acked := 0, ackSeen := false, sinceAck := 0, ts2 := 0, gotTs2 := 0, sinceTs2 := 0 })

/-- The profile a lane names (R283). -/
def State.laneProfile (s : State) (p : Nat) : List Nat := leBytes 10 (s.rd (Reg.profile (s.rd (Reg.laneProfile p) % 8)))

/-! ### The module's own training sets (R270, R275) -/

/-- The widths up to a maximum, as Table LP-3 masks them. -/
def widthMask (top : Nat) : Nat := bitIf (1 ≤ top) 0 + bitIf (2 ≤ top) 1 + bitIf (4 ≤ top) 2

/-- The rate and width of the module's sets: the request, 0xFF until the partner's masks are known; from RATE_CHANGE on those agreed
(Table LP-3, R278; log entry 50). -/
def State.setRate (s : State) : Nat × Nat :=
  if s.rd Reg.linkState = Ls.eq || s.rd Reg.linkState = Ls.confirm then (s.phy.rate, s.phy.width)
  else if s.phy.heard then ((s.bestRate 4).getD 255, s.widths.headD 255)
  else (255, 255)

/-- The control field of a lane's sets (Table LP-3). -/
def State.setControl (s : State) (p : Nat) : Nat :=
  let l := s.lane p
  let ts1 := s.rd Reg.linkState ≠ Ls.confirm
  bitIf l.num.isSome 0 + bitIf (ts1 && s.phy.fast) 1 + bitIf (s.rd Reg.eqMode = 1) 2 + bitIf l.inverted 3
    + bitIf (s.rd Reg.bankEn = 1) 4 + bitIf (l.locked && l.num.isSome) 5

/-- The logical number that physical lane `p` sends: reversed where the transmit side is (R277). -/
def State.txLogical (s : State) (p : Nat) : Nat := if s.rd Reg.txReversed = 1 then 3 - p else p

/-- The training set a lane sends, by octets, with the count of symbol 13 (R270, Table LP-3; K28.5 is 0xBC): TS2 in CONFIRM, else
TS1. -/
def State.ownSet (s : State) (p count : Nat) : List Nat :=
  let q := s.laneProfile p
  let r := s.setRate
  let body := [if s.rd Reg.linkState = Ls.confirm then 0x45 else 0x4A, s.txLogical p, 2 ^ (s.rd Reg.rateMax + 1) - 1,
    widthMask (s.rd Reg.widthMax), r.1, r.2, s.setControl p, (s.lane p).num.getD 255, 1, 1, q.getD 0 0, q.getD 1 0, count % 256,
    0xB5]
  [0xBC] ++ body ++ [body.foldl (fun a x => a ^^^ x) 0]

/-- A lane sends sets: in DETECT and ALIGN every lane of LANE_MASK, in EQ and CONFIRM those of the width (R275, R280, R281). -/
def State.sends (s : State) (p : Nat) : Bool :=
  let st := s.rd Reg.linkState
  s.laneOn p && (st = Ls.detect || st = Ls.align || ((st = Ls.eq || st = Ls.confirm) && decide (s.txLogical p < s.phy.width)))

/-- `n` sets have left a lane: the last one and its count stay, those after the first ack or the first TS2 received are counted (R275,
R281); the partner has seen bit 4 of their control (R288). -/
def State.sendSets (s : State) (p n : Nat) : State :=
  if n = 0 || !s.sends p then s
  else
    let l := s.lane p
    let s := s.setLane p { l with
      sent := l.sent + n, set := s.ownSet p (l.sent + n - 1)
      sinceAck := if l.ackSeen then l.sinceAck + n else 0
      sinceTs2 := if l.gotTs2 ≠ 0 then l.sinceTs2 + n else 0 }
    { s with phy := { s.phy with bankSent := s.rd Reg.bankEn = 1 } }

/-- A state that sends sets is entered: the first leaves on every lane that sends. -/
def State.beginSets (s : State) : State := s.each allLanes (fun p s => s.sendSets p 1)

/-- A fast retrain: EQ at the current rate and width. One whose cause arises in the tick of another drop joins it (R291). -/
def State.fastRetrain (s : State) (cause : Nat) : State :=
  if s.dropped then s.wr Reg.linkDownCause (firstCause (s.rd Reg.linkDownCause) cause)
  else
    let s := ((s.linkDown cause Ls.eq).bump Reg.fastRetrains).each allLanes (fun p s => s.clearBits (Reg.laneStatus p) 8)
    { s with phy := { s.phy with fast := true, role := false, tapLogged := false } }.clearSets.beginSets

/-- A lane's receiver takes its profile's CTLE, and its fixed taps in table mode where they are enabled (R284, R285). -/
def State.profileEq (s : State) (p : Nat) : State :=
  let q := s.laneProfile p
  let taps := if s.rd Reg.eqMode = 0 && (q.getD 3 0).testBit 0 then leValue ((q.drop 4).take 5) else 0
  (s.wr (Reg.ctleNow p) (q.getD 2 0)).wr (Reg.dfeTaps p) taps

/-- The receivers start anew: no lock, no number, no inversion, no place in the width. -/
def State.lanesOff (s : State) : State :=
  { s with phy := { s.phy with lanes := [], bnkOut := false, bnkIn := false, heard := false, reqRate := 255, reqWidth := 255 } }.each allLanes
    (fun p s => (s.wr (Reg.laneLogical p) 0xFF).wr (Reg.laneStatus p) 0)

/-- A full training: DETECT on every lane, at rate 0 with the profiles' settings (R275, R285, R291). -/
def State.enterDetect (s : State) : State :=
  let s := (s.wr Reg.linkState Ls.detect).lanesOff
  let s := { s with phy := { s.phy with fast := false, role := false, tapLogged := false, rate := 0, width := 0 } }
  (((s.wr Reg.rxReversed 0).wr Reg.txReversed 0).each allLanes (fun p s => s.profileEq p)).beginSets

/-- A full training. It takes the place of a fast retrain of the same tick, and joins any other drop of it (R291). -/
def State.fullTraining (s : State) (cause : Nat) : State :=
  if s.dropped && !s.phy.fast then s.wr Reg.linkDownCause (firstCause (s.rd Reg.linkDownCause) cause)
  else
    let s := if s.dropped then s.wr Reg.fastRetrains (s.rd Reg.fastRetrains + 4294967295) else s
    ((s.linkDown cause Ls.detect).bump Reg.fullRetrains).enterDetect

/-- The link is disabled (Table LP-9, causes 11 to 13). -/
def State.linkDisable (s : State) (cause : Nat) : State :=
  (s.linkDown cause Ls.disabled).lanesOff

/-- The link may run: after the takeover, outside rest and cold read, REFCLK good, bits 7 and 8 of IDLE_HOLD clear (R292,
R294). -/
def State.linkMayRun (s : State) : Bool :=
  s.taken && s.sup.running && s.phase ≠ .rest && s.phase ≠ .idle && !s.phy.refBad
    && !s.bitOf Reg.idleHold 7 && !s.bitOf Reg.idleHold 8

/-- A disabled link returns to DETECT once its cause has ended. -/
def State.linkEnable (s : State) : State :=
  if s.rd Reg.linkState = Ls.disabled && s.linkMayRun then s.enterDetect else s

/-- A retrain that the link layer requests: cause 5, while ACTIVE (R325). -/
def State.linkRequest (s : State) : State := if s.wasActive then s.fastRetrain 5 else s

/-- The link has something to send, or B4 is asserted: BANKED and BANKING wake (R289, R290). -/
def State.linkWake (s : State) : State :=
  if s.rd Reg.linkState = Ls.banking || s.rd Reg.linkState = Ls.banked then
    { s with phy := { s.phy with bnkOut := false, bnkIn := false } }.wr Reg.linkState Ls.waking
  else s

end Sys2Proof.Machine
end

