-- ==== Sys2Proof/Machine/Violations.lean ====
section
/-! DEFINITION. Answers, partner violations and quarantine (spec/02_object_dictionary.md R76, R88, R89; spec/12_link_layer.md
R324, R326; spec/18_events_and_faults.md R478-R481). -/
namespace Sys2Proof.Machine

/-- How a write ends: an abort with its detail, done with its answer due, or done with the answer due later. -/
inductive WOut where
  | abort (code detail : Nat)
  | ok (s : State)
  | later (s : State)

/-! Violation classes (Table EV-3). -/
namespace Vc
def format : Nat := 1
def framing : Nat := 2
def opcode : Nat := 3
def segment : Nat := 4
def address : Nat := 5
def flood : Nat := 6
def crc : Nat := 7
def ackseq : Nat := 8
def type : Nat := 9
def length : Nat := 10
def reserved : Nat := 11
def credit : Nat := 12
def order : Nat := 13
def phy : Nat := 14
def cascade : Nat := 15
end Vc

/-- A source's own state. -/
def State.srcOf (s : State) (j : Nat) : SrcState := tget {} s.svc.srcs j
def State.setSrc (s : State) (j : Nat) (x : SrcState) : State :=
  { s with svc := { s.svc with srcs := tset {} s.svc.srcs j x } }

/-- The bytes of a response body (Table OD-6). The length byte holds the low eight bits of L: Table OD-6 gives the field one byte and
R76 allows 1024 on USB (DESIGN CHOICE, log entry 76). -/
def Answer.bytes (a : Answer) (requester : Nat) : List Nat :=
  [requester, a.tag, a.opcode, a.status] ++ leBytes 2 a.index ++ [a.sub, a.data.length % 256] ++ a.data

/-- The frame of Table OD-8 around a body (R86). -/
def usbFrameBytes (body : List Nat) : List Nat :=
  let p := leBytes 2 body.length ++ body
  [0x4B, 0x6F] ++ p ++ leBytes 4 (crc32 p)

/-- The valid CAN FD data lengths from `n` bytes on begin with this one (R84). -/
def canFdLength (n : Nat) : Nat := if n ≤ 8 then n else ([12, 16, 20, 24, 32, 48].find? (fun m => n ≤ m)).getD 64

/-- The frame that carries an answer: on USB that of Table OD-8 (R86); on CAN identifier (6 << 7) | node with the body padded with
0x00 (R84). The link's goes through the link layer. -/
def State.wireOf (s : State) (a : Answer) : List WireFrame :=
  if a.src = 0 then []
  else if a.src = 1 then [{ src := 1, bytes := usbFrameBytes (a.bytes 0) }]
  else
    let body := a.bytes (a.src - 2)
    [{ src := a.src, id := 6 * 128 + s.rd Reg.nodeId, bytes := padTo (canFdLength body.length) 0 body }]

/-- An abort that answers the link's last control request is its fate (R323). -/
def State.noteFate (s : State) (a : Answer) : State :=
  let c := s.rd Reg.lastCtrl
  if a.status = 1 && c % 256 = a.tag && c / 256 % 256 + 0x80 = a.opcode && c / 65536 = 1 then
    s.wr Reg.lastCtrl (c % 65536 + 2 * 65536)
  else s

/-- Answer a source: the answer stands in `svc.answer`, its frame behind those already sent for the request; on the link it is queued
as a CTRL_RSP frame (R323). -/
def State.reply (s : State) (a : Answer) : State :=
  let s := { s with svc := { s.svc with answer := some a, wire := s.svc.wire ++ s.wireOf a } }
  if a.src = 0 then (s.noteFate a).send { ty := 0x21, payload := a.bytes 0 } else s

/-- A success answer to a request that named an opcode, index and sub-index (Table OD-7). -/
def State.replyOk (s : State) (j tag op key : Nat) (data : List Nat) (bits : Nat := 0) : State :=
  s.reply { src := j, tag := tag, opcode := op + 0x80, status := bits, index := key / 256, sub := key % 256, data := data }

/-- An abort answer: family and reason with a 16-bit detail (R76, R90). -/
def State.replyAbort (s : State) (j tag op key code detail : Nat) : State :=
  s.reply { src := j, tag := tag, opcode := op + 0x80, status := 1, index := key / 256, sub := key % 256,
            data := leBytes 4 (code + detail % 65536) }

/-- Weighed violations of the present cycle and the 63 before it (R480). -/
def liveWindow (cyc : Nat) (w : List (Nat × Nat)) : List (Nat × Nat) := w.filter (fun e => cyc < e.1 + 64)
def windowSum (w : List (Nat × Nat)) : Nat := (w.map (·.2)).sum

/-- Put a source into quarantine (R89, R480; R326 for the link). R326 gives the notice its header on the link; on USB and CAN the
model sends it with the same one, tag 0, opcode 0x80, index and sub-index 0 (DESIGN CHOICE, log entry 77). -/
def State.quarantine (s : State) (j : Nat) : State :=
  let x := s.srcOf j
  let x := { x with shadows := [], unlocked := false, xfer := none, cursor := none, retries := [], held := [] }
  let s := s.setSrc j { x with quarLeft := 524288 }
  let s := ((s.bump (Reg.srcQuarantines j)).flag Reg.serviceFlags 3).event 0x1103 j 1 (s.rd (Reg.violTotal j))
  let s := if j = 0 then (s.flag Reg.llFlags 4).bump Reg.llQuarantines else s
  (s.reply { src := j, tag := 0, opcode := 0x80, status := 1, index := 0, sub := 0,
             data := leBytes 4 0x01060200 }).iff (j = 0) (·.statusIfChanged)

/-- Count a violation of a source (R88, R479-R481); a weighed one may start its quarantine. -/
def State.violate (s : State) (j cls : Nat) (weighs : Bool) : State :=
  let k := Reg.viol j (cls - 1)
  let first := s.rd k = 0
  let s := (s.bump k).bump (Reg.violTotal j)
  let s := if first then s.event 0x1104 j cls else s
  if !weighs then s
  else
    let x := s.srcOf j
    let w := liveWindow s.clk.cyc x.window
    let w := match w with
      | (c, n) :: t => if c = s.clk.cyc then (c, n + 1) :: t else (s.clk.cyc, 1) :: (c, n) :: t
      | [] => [(s.clk.cyc, 1)]
    let s := s.setSrc j { x with window := w }
    if 33 ≤ windowSum w && x.quarLeft = 0 && j ≠ 2 && s.phase ≠ .pour then s.quarantine j else s

/-- A violation of a class that weighs by Table EV-3. -/
def State.violation (s : State) (j cls : Nat) : State :=
  s.violate j cls (!([Vc.framing, Vc.address, Vc.crc, Vc.phy].contains cls))

/-- A violation of the link layer (R324): LL_VIOLATIONS and bit 3 of LL_FLAGS too. -/
def State.llViolation (s : State) (cls : Nat) : State :=
  ((s.bump Reg.llViolations).flag Reg.llFlags 3).violation 0 cls

/-- A violation of the parameter service (Table OD-9); on the link it counts there too (R324). -/
def State.serviceViolation (s : State) (j cls : Nat) : State := if j = 0 then s.llViolation cls else s.violation j cls

/-- A violation at PHY level (R301), and several of one kind. -/
def State.phyViolation (s : State) : State := (s.bump Reg.phyViolations).violation 0 Vc.phy
def State.phyViolations (s : State) (n : Nat) : State := s.each (List.range n) (fun _ s => s.phyViolation)

end Sys2Proof.Machine
end

