-- ==== Sys2Proof/Machine/CascadeOps.lean ====
section
/-! DEFINITION. The cascade's operations (spec/17_cascade.md): the CAN queue, frame checks, propagation of pours, heats, stamp
pairing, the member table. -/
namespace Sys2Proof.Machine

/-- POUR# low for the trigger's filter, low and not driven by this member, and high (R445, R446). -/
def rcPourLow : Nat := 60
def rcPourStuck : Nat := 61
def rcPourHigh : Nat := 62

/-- This member's node ID, and whether it is the acting master (R432, R441). -/
def State.node (s : State) : Nat := s.rd Reg.nodeId
def State.master (s : State) : Bool := s.node = 1 && !s.cas.twin

/-- CAN runs: outside cold read and without IDLE_HOLD bit 9 (Table CA-8). -/
def State.canOn (s : State) : Bool :=
  s.sup.running && !s.sup.romOnly && !s.coldRead && s.phase ≠ .idle && !s.bitOf Reg.idleHold 9

/-- The member queues frames: from cycle 10 of the boot on, and not while the bus is held dominant (R170, R447). -/
def State.canQueues (s : State) : Bool := s.canOn && s.clk.begun && 10 ≤ s.clk.cyc && !s.cas.dominant

/-- The member sends: its controller is not bus off either (R447). -/
def State.canSends (s : State) : Bool := s.canQueues && !s.cas.busOff

/-- CAN_BUS_STATE (R447): the bus is held dominant, off, or the controller is error passive. -/
def State.refreshBus (s : State) : State :=
  s.wr Reg.canBusState (if s.cas.dominant then 3 else if s.cas.busOff then 2 else if s.smp.canPassive then 1 else 0)

/-- Queue a frame; a newer heartbeat replaces one still waiting (R437). -/
def State.queueCan (s : State) (fn : Nat) (payload : List Nat) : State :=
  if !s.canQueues then s
  else
    let q := if fn = 3 then s.cas.txq.filter (fun f => f.fn ≠ 3) else s.cas.txq
    { s with cas := { s.cas with txq := q ++ [{ fn := fn, payload := payload, at_ := s.tick }] } }

/-- Queue a pour command ahead of every other frame and count it (R442, R448); where no frame is queued nothing counts (R447). -/
def State.queuePourCmd (s : State) (payload : List Nat) (counter : Nat) : State :=
  if s.canQueues then
    { s with cas := { s.cas with txq := { fn := 0, payload := payload, at_ := s.tick } :: s.cas.txq } }.bump counter
  else s

/-- A pour command (Table CA-5). -/
def State.pourCmd (s : State) (kind b1 trig : Nat) : List Nat :=
  [kind, b1] ++ leBytes 2 trig ++ leBytes 6 s.stamp ++ leBytes 4 (s.rd Reg.heatLast) ++ [0, 0]

/-- The boot announcement (Table CA-3), with the stamp of its SOF. -/
def State.announcement (s : State) : List Nat :=
  [s.node, if s.rd Reg.resetCause = 0 then 1 else 2] ++ leBytes 2 (s.rd Reg.hwIssue) ++ leBytes 4 (s.rd Reg.fwVersion)
    ++ leBytes 4 (s.rd Reg.heatLast) ++ leBytes 4 (s.rd Reg.castPending) ++ leBytes 6 s.stamp
    ++ [s.rd Reg.configLoadResult] ++ List.replicate 9 0 ++ leBytes 16 (s.rd Reg.serialNo)

/-- Heartbeat byte 2 (Table CA-4). -/
def State.hbFlags (s : State) : Nat :=
  bitIf s.protectedNow 0 + bitIf (s.rd Reg.admState = 1) 1 + bitIf (s.rd Reg.huReady = 1) 2 + bitIf s.seq.stuck 3
    + bitIf s.cas.stuck 4 + bitIf s.sealedBit 5 + bitIf (s.rd Reg.heatLocal = 1) 6 + bitIf s.cas.dominantSince 7

/-- The heartbeat (Table CA-4), with the stamp of its SOF. -/
def State.heartbeat (s : State) : List Nat :=
  leBytes 2 s.activity ++ [s.hbFlags, s.rd Reg.startStep, s.rd Reg.huGroup, s.rd Reg.huWeight,
      s.rd Reg.hbPeriod / 16384, s.rd Reg.tbState] ++ leBytes 4 (s.rd Reg.huLoadPeak) ++ leBytes 4 (s.rd Reg.heatLast)
    ++ leBytes 4 (s.rd Reg.eventSeq) ++ leBytes 6 s.stamp ++ [0, 0] ++ leBytes 4 (s.rd Reg.fwVersion)

/-- A frame's sending is completed: boot announcement, heartbeat and stamp sync carry this tick's stamp (R435); counters and
CAS_FLAGS follow. -/
def State.sentCan (s : State) (f : CanTx) : State :=
  let p := if f.fn = 1 then s.announcement else if f.fn = 3 then s.heartbeat
    else if f.fn = 7 then leBytes 6 s.stamp ++ f.payload.drop 6 else f.payload
  let s := { s with cas := { s.cas with
    lastTx := some { f with payload := p, id := f.fn * 128 + s.node, brs := s.rd Reg.canDataRate ≠ 0 } } }
  if f.fn = 0 then s.flag Reg.casFlags 0
  else if f.fn = 3 then { (s.bump Reg.hbTx) with cas := { s.cas with dominantSince := false } }
  else s

/-- `n` frames have been sent: those queued first, then event records, at most four of these a cycle (R455). -/
def State.canTick : Nat → State → State
  | 0, s => s
  | n + 1, s =>
    if !s.canSends then s
    else match s.cas.txq with
      | f :: q => State.canTick n (({ s with cas := { s.cas with txq := q } }).sentCan f)
      | [] =>
        match s.cas.evTx with
        | r :: q =>
          if s.cas.evCycle < 4 then
            let s := { s with cas := { s.cas with evTx := q, evCycle := s.cas.evCycle + 1 } }.bump Reg.eventsTx
            State.canTick n (s.sentCan { fn := 2, payload := recBytes r 0, at_ := s.tick })
          else s
        | [] => s

/-! ### POUR# (R442, R445, R446) -/

/-- Drive POUR# low for POUR_PULSE ticks (R442). -/
def State.pourLinePulse (s : State) : State :=
  { s with cas := { s.cas with pulseEnd := s.tick + s.rd Reg.pourPulse },
           pads := { s.pads with pour := true } }.bump Reg.pourPulsesTx

/-- POUR#'s part of a tick: counts, re-arming, the end of a stuck line, POUR_LINE_STATE. -/
def State.tickPourLine (s : State) : State :=
  if !s.taken then s
  else
    let high := s.padHigh 11
    let mine := s.pads.pour
    let s := s.count rcPourLow (!high && !mine && s.cas.quiet = 0)
    let s := s.count rcPourStuck (!high && !mine)
    let s := s.count rcPourHigh high
    let s := { s with cas := { s.cas with quiet := s.cas.quiet - 1 } }
    let s := if s.cas.stuck then
        if 1024 ≤ s.run rcPourHigh then
          { s with cas := { s.cas with stuck := false, armed := true } }.event 0x5004 0xFF 0
        else s
      else if 64 ≤ s.run rcPourHigh then { s with cas := { s.cas with armed := true } } else s
    s.wr Reg.pourLineState (if s.cas.stuck then 3 else if mine then 2 else if high then 0 else 1)

/-! ### Propagation and heats (R442, R448, R450, R451) -/

/-- The later of two heats under R11. -/
def laterHeat (a b : Nat) : Nat := if laterCount (BitVec.ofNat 32 a) (BitVec.ofNat 32 b) then b else a

/-- A HEAT_LAST reported by another member (R450). -/
def State.offerHeat (s : State) (h : Nat) : State :=
  { s with cas := { s.cas with heatTop := some (match s.cas.heatTop with | some t => laterHeat t h | none => h) } }

/-- A pour's acceptance tells the cascade (R442, R447), by POUR_CAUSE's bit of POUR_PROPAGATE. -/
def State.propagatePour (s : State) (cause trig : Nat) : State :=
  if cause = 6 || cause = 7 || !s.bitOf Reg.pourPropagate (cause - 1) then s
  else
    let s := if s.bitOf Reg.propagatePaths 0 || s.cas.dominant then s.pourLinePulse else s
    if s.bitOf Reg.propagatePaths 1 then s.queuePourCmd (s.pourCmd 1 cause trig) Reg.pourCmdsTx else s

/-- A counter one lower. -/
def State.unbump (s : State) (k : Nat) : State := s.wr k ((s.rd k + 2 ^ 32 - 1) % 2 ^ 32)

/-- What the acceptance has told the cascade with a cause is taken back in the same tick (R347, R442). -/
def State.unpropagate (s : State) (cause : Nat) : State :=
  if cause = 6 || cause = 7 || !s.bitOf Reg.pourPropagate (cause - 1) then s
  else
    let s := if s.bitOf Reg.propagatePaths 0 || s.cas.dominant then
        { s with cas := { s.cas with pulseEnd := 0 }, pads := { s.pads with pour := false } }.unbump Reg.pourPulsesTx
      else s
    let mine := fun (f : CanTx) => f.fn = 0 && f.payload.getD 0 0 = 1 && f.at_ = s.tick
    if s.cas.txq.any mine then
      { s with cas := { s.cas with txq := s.cas.txq.filter (fun f => !mine f) } }.unbump Reg.pourCmdsTx
    else s

/-- The acceptance tells the cascade its cause as it now stands, and the heat broadcast of this tick carries it (R347, R442, R450). -/
def State.retell (s : State) (old cause trig : Nat) : State :=
  let s := (s.unpropagate old).propagatePour cause trig
  { s with cas := { s.cas with txq := s.cas.txq.map (fun f =>
      if f.fn = 4 && f.payload.getD 0 0 = 2 && f.at_ = s.tick then { f with payload := f.payload.set 14 cause } else f) } }

/-- Node 1 assigns the heat of each of its pours and queues the broadcast (R450). -/
def State.assignHeat (s : State) (cause : Nat) : State :=
  if !s.master then s
  else
    let top := laterHeat (s.rd Reg.heatLast) (s.rd Reg.heatAssigned)
    let top := match s.cas.heatTop with | some t => laterHeat top t | none => top
    let h := (top + 1) % 2 ^ 32
    let f : CanTx := { fn := 4, payload := [2, 0, 0, 0] ++ leBytes 4 h ++ leBytes 6 s.stamp ++ [cause, 0], at_ := s.tick }
    let q := s.cas.txq
    let s := s.wr Reg.heatAssigned h
    if s.canQueues then
      { s with cas := { s.cas with txq := q.filter (fun g => g.fn = 0) ++ [f] ++ q.filter (fun g => g.fn ≠ 0) } }
    else s

/-- A FAULT# pulse is relayed while the line is declared stuck (R448). -/
def State.relayFault (s : State) (rail : Nat) : State :=
  if s.seq.stuck then s.queuePourCmd (s.pourCmd 2 rail 0) Reg.faultRelayTx else s

/-! ### Receiving (R439, R441, R456-R459) -/

def State.setMember (s : State) (k : Nat) (m : Member) : State :=
  { s with cas := { s.cas with members := tset {} s.cas.members k m } }

/-- A counted cascade-frame violation of node k (R458); an address that no member has stands for source 2 (R478). -/
def State.casViolation (s : State) (node : Nat) : State :=
  if node = 0 || 64 < node then s.violation 2 Vc.cascade
  else
    let s := s.violation (node + 2) Vc.cascade
    if s.master then s.bump (Reg.mViolations (node - 1)) else s

/-- The payload length of a function (Table CA-2). -/
def casLen (fn : Nat) : Nat := if fn = 1 then 48 else if fn = 2 then 64 else if fn = 3 then 32 else 16

/-- Another module carries this node's identifier (R441). -/
def State.duplicate (s : State) : State :=
  if s.cas.twin then s.flag Reg.casFlags 5
  else
    let s := ({ s with cas := { s.cas with twin := true } }.flag Reg.casFlags 5).event 0x5003
    if s.node = 1 then s.wr Reg.masterState 4 else s

/-- The checks every received cascade frame meets (Table CA-7, R459): the state after, and whether its contents count.
`dirty` says that some reserved byte or bit of the frame is set. -/
def State.casCheck (s : State) (fn node : Nat) (p : List Nat) (dirty : Bool) : State × Bool :=
  if !s.canOn || s.cas.dominant then (s, false)
  else if node = 0 || 64 < node then (if fn = 4 || fn = 7 then s.casViolation node else s.bump Reg.casBadFrames, false)
  else if node = s.node then (if fn = 1 || fn = 3 then s.duplicate else s, false)
  else if (s.srcOf (node + 2)).quarLeft ≠ 0 && fn ≠ 0 then (s, false)
  else if (fn = 4 || fn = 7) && node ≠ 1 then (s.casViolation node, false)
  else if p.length ≠ casLen fn then (s.casViolation node, false)
  else
    let m := s.member (node - 1)
    let limited := fn = 1 || fn = 3 || fn = 4 || fn = 7
    let n := (if m.cyc = s.clk.cyc then m.frames else 0) + 1
    let s := if limited then s.setMember (node - 1) { m with cyc := s.clk.cyc, frames := n } else s
    if limited && 8 < n then (s.casViolation node, false)
    else if dirty then (s.casViolation node, true)
    else (s, true)

/-- Some byte of a list is not 0. -/
def anySet (p l : List Nat) : Bool := l.any (fun i => p.getD i 0 ≠ 0)

/-- Bytes of a payload as a value. -/
def field (p : List Nat) (i n : Nat) : Nat := leValue ((p.drop i).take n)

/-- MASTER_STATE (R440); the loss and the return of node 1 are logged. -/
def State.refreshMaster (s : State) : State :=
  if s.node = 1 then s.wr Reg.masterState (if s.cas.twin then 4 else 0)
  else
    let m := s.member 0
    s.wr Reg.masterState (if !m.heard then 2 else if m.here then 1 else 3)

/-- Node 1's entry for a member (Table CA-10). -/
def State.table (s : State) (f : State → State) : State := s.iff s.master f

/-- A member's presence returns (R439). -/
def State.memberBack (s : State) (k : Nat) : State :=
  let m := s.member k
  if m.here then s
  else
    let s := (s.setMember k { m with here := true }).event 0x5002 (k + 1) 1
    let s := if k = 0 && m.heard && s.rd Reg.masterState = 3 then s.event 0x5001 0xFF 0 else s
    (s.table (·.wr (Reg.mState k) 1)).refreshMaster

/-- A member's presence is lost (R439, R440). -/
def State.memberGone (s : State) (k : Nat) : State :=
  let m := s.member k
  if !m.here then s
  else
    let s := (s.setMember k { m with here := false }).event 0x5002 (k + 1) 0
    let s := if k = 0 && s.node ≠ 1 then (s.flag Reg.casFlags 8).event 0x5001 0xFF 1 else s
    (s.table (·.wr (Reg.mState k) (if (s.srcOf (k + 3)).quarLeft ≠ 0 then 3 else 2))).refreshMaster

/-- The pending step that pairs this member's count with a sender's stamp at one SOF (R453). -/
def State.pairStamp (s : State) (stamp : Nat) : State :=
  let c := BitVec.ofNat 32 (stamp / 65536)
  let d : Int := ((stamp % 65536 : Nat) : Int) - (s.clk.tic * 64 : Nat)
  let t := if 32768 ≤ d then c + 1 else if d < -32768 then c - 1 else c
  let cp := s.clk.count + s.clk.step
  if laterCount cp t then { s with clk := { s.clk with step := s.clk.step + (t - cp) } } else s

/-- The time-driven part of a tick: sends, POUR#. -/
def State.tickCascade (s : State) : State :=
  if s.sup.running then (State.canTick s.smp.canSent s.refreshBus).tickPourLine else s

end Sys2Proof.Machine
end

