-- ==== Sys2Proof/Machine/FlashOps.lean ====
section
/-! DEFINITION. The on-chip flash's operations (spec/16_onchip_flash.md): code and data bytes, config copies, summary records,
erases of the data flash, slots, protection records, update states. -/
namespace Sys2Proof.Machine

/-! ### Code flash (R403, R419, R420) -/

/-- Bytes of one code bank. -/
def bankSize : Nat := 0x100000

/-- An erased 64-bit word. -/
def wordErased : Nat := 0xFFFFFFFFFFFFFFFF

/-- A byte of the code flash by its offset from bank 0: programmed, erased, cut off, or of the shipped image. -/
def State.codeByte (s : State) (a : Nat) : Nat :=
  let w := tget wordErased s.fw.code (a / 8)
  if w ≠ wordErased then w / 256 ^ (a % 8) % 256
  else if s.fw.cut = some (a / bankSize) then (Config.tornByte a).toNat
  else if s.fw.shipped && a < bankSize then (Config.factoryByte a).toNat
  else 0xFF

/-- Bytes of the code flash. -/
def State.codeBytes (s : State) (a n : Nat) : List Nat := (List.range n).map (fun i => s.codeByte (a + i))

/-- A little-endian field of a slot's header (Table OF-6). -/
def State.hdr (s : State) (slot off n : Nat) : Nat := leValue (s.codeBytes (slot * bankSize + off) n)

/-- The image length L, FW_VERSION and rollback index of a slot's header. -/
def State.imageLen (s : State) (slot : Nat) : Nat := s.hdr slot 12 4
def State.imageVersion (s : State) (slot : Nat) : Nat := s.hdr slot 8 4
def State.rollbackOf (s : State) (slot : Nat) : Nat := s.hdr slot 16 4

/-- The protection record in force, the defaults where there is none (R429). -/
def State.prot (s : State) : ProtRec := s.fw.record.getD {}

/-- The newest protection record, one being written included. -/
def State.protNext (s : State) : ProtRec :=
  match s.fw.writing.getLast? with
  | some w => w.1
  | none => s.prot

/-- What keeps a slot from being valid, as FW_VERIFY_RESULT says it; 0 where it is valid (R420). The shipped image is valid
while its rollback index allows it (log entry 30). -/
def State.slotFault (s : State) (slot : Nat) : Nat :=
  let base := slot * bankSize
  let l := s.imageLen slot
  let first := s.hdr slot 24 2
  let n := s.hdr slot 26 2
  let low := s.rollbackOf slot < s.prot.rollbackMin
  if s.fw.cut = some slot then 3
  else if s.fw.shipped && slot = 0 then (if low then 6 else 0)
  else if s.codeBytes base 4 ≠ [0x4B, 0x4B, 0x46, 0x57] || s.hdr slot 4 2 ≠ 1 || l % 8 ≠ 0 || l < 4096 || bankSize < l
      || (n ≠ 0 && l < (first + n) * 4096) || l ≤ s.hdr slot 20 4 then 3
  else if sha256 (s.codeBytes (base + 512) (l - 512)) ≠ s.codeBytes (base + 32) 32 then 4
  else if !Config.signatureVerifies (leValue (sha256 (s.codeBytes base 128))) (leValue (s.codeBytes (base + 128) 64)) then 5
  else if low then 6 else 0

def State.slotValid (s : State) (slot : Nat) : Bool := s.slotFault slot = 0

/-- The running slot, and the inactive one; slot 0 counts as inactive where no slot was valid (R421). -/
def State.runningSlot (s : State) : Nat := s.rd Reg.fwRunningSlot
def State.inactiveSlot (s : State) : Nat := if s.sup.romOnly then 0 else 1 - s.runningSlot

/-- Put a slot's execute-only bounds in force (R427). -/
def State.setXo (s : State) (slot : Nat) (b : Nat × Nat) : State :=
  if slot = 0 then { s with fw := { s.fw with xo0 := b } } else { s with fw := { s.fw with xo1 := b } }

/-- A range of the code flash touches an execute-only sector in force. -/
def State.touchesXo (s : State) (a n : Nat) : Bool :=
  let hit := fun (slot : Nat) (b : Nat × Nat) =>
    decide (b.2 ≠ 0 ∧ a < slot * bankSize + (b.1 + b.2) * 4096 ∧ slot * bankSize + b.1 * 4096 < a + n)
  hit 0 s.fw.xo0 || hit 1 s.fw.xo1

/-- FW_SLOT_VALID and the slots' versions (Table OF-10). -/
def State.refreshSlots (s : State) : State :=
  let v := fun (i : Nat) => s.slotValid i
  let s := s.wr Reg.fwSlotValid (bitIf (v 0) 0 + bitIf (v 1) 1)
  (s.wr Reg.fwSlot0Version (if v 0 then s.imageVersion 0 else 0)).wr Reg.fwSlot1Version
    (if v 1 then s.imageVersion 1 else 0)

/-- The registers that show the protection record (Table OF-10). -/
def State.refreshProt (s : State) : State :=
  let p := s.prot
  (((s.wr Reg.bootPref p.bootPref).wr Reg.rollbackMin p.rollbackMin).wr Reg.protCode p.protCode).wr Reg.protFlags
    (bitIf p.debugClosed 0 + bitIf s.fw.debugOpen 1)

/-- Put a protection record in force at once: what the ROM and the firmware's boot write (R420). -/
def State.putProt (s : State) (p : ProtRec) : State :=
  { s with fw := { s.fw with record := some { p with seq := p.seq + 1 } } }.refreshProt

/-- Start writing a protection record, whose end answers a source's write (R429): 1 OEM_PW_CHANGE, 2 FW_CMD 3, 3 PROT_CODE_SET,
4 DEBUG_CLOSE, 5 FW_CMD 4, 6 FW_CMD 5, 0 nothing. -/
def State.writeProt (s : State) (p : ProtRec) (what src tag : Nat) : State :=
  { s with fw := { s.fw with writing := s.fw.writing ++ [({ p with seq := p.seq + 1 }, what, src, tag)] } }

/-! ### The boot ROM (R420, R421) -/

/-- The slot the ROM boots, and whether one is valid. -/
def State.romChoice (s : State) : Option Nat :=
  let p := s.prot
  let c := if p.trial = 2 then 1 - p.bootPref else p.bootPref
  if s.slotValid c then some c else if s.slotValid (1 - c) then some (1 - c) else none

/-- The boot ROM's steps and the firmware's first look at its slot: the trial is marked tried, execute-only bounds are loaded,
a fallback clears the trial and is logged (R420). -/
def State.romBoot (s : State) : State :=
  let p := s.prot
  let c := s.romChoice
  let s := if p.trial = 1 then s.putProt { p with trial := 2 } else s
  let xo := fun (i : Nat) => if s.slotValid i then (s.hdr i 24 2, s.hdr i 26 2) else (0, 0)
  let s := ((s.setXo 0 (xo 0)).setXo 1 (xo 1)).refreshSlots.refreshProt
  match c with
  | none => { s with sup := { s.sup with romOnly := true } }
  | some c =>
    let s := (s.wr Reg.fwRunningSlot c).wr Reg.fwVersion (s.imageVersion c)
    let s := { s with sup := { s.sup with romOnly := false } }
    if c = p.bootPref then s.wr Reg.fwState (if p.trial = 1 then 6 else 0) else s.wr Reg.fwState 0

/-- The fallback's record, flag and event, once the boot event has been created (R420, R465). -/
def State.noteFallback (s : State) : State :=
  let p := s.prot
  if s.runningSlot = p.bootPref || s.sup.romOnly then s
  else
    let s := (s.putProt { p with bootPref := s.runningSlot, trial := 0 }).wr Reg.bootPref s.runningSlot
    ((s.flag Reg.fwFlags 0).bump Reg.fwFallbacks).event 0x4202 0xFF s.runningSlot

/-- Accept the running trial (R425): no trial, ROLLBACK_MIN up to the lower index of the valid slots. -/
def State.acceptTrial (s : State) (what src tag : Nat) : State :=
  let p := s.protNext
  let idx := ([0, 1].filter s.slotValid).map s.rollbackOf
  let low := idx.foldl Nat.min (idx.headD 0)
  let s := s.writeProt { p with trial := 0, rollbackMin := max p.rollbackMin low } what src tag
  ((s.wr Reg.fwState 0).flag Reg.fwFlags 1).event 0x4203 0xFF s.runningSlot (s.rd Reg.fwVersion)

/-! ### Protection against sources (R63, R430) -/

/-- A source counts as unlocked: its unlock stands, or the password is 0 (R63). -/
def State.unlocked (s : State) (j : Nat) : Bool := s.prot.password = 0 || (s.srcOf j).unlocked

/-- The PROT_CODE group of a sector of a slot (R430). -/
def protGroup (slot sector : Nat) : Nat := 16 * slot + sector / 16 % 16

/-- A sector of the code flash is protected against a source. -/
def State.sectorProtected (s : State) (j slot sector : Nat) : Bool :=
  s.prot.protCode.testBit (protGroup slot sector) && !s.unlocked j

/-! ### Config copies and summaries as bytes (Tables OF-4, OF-5) -/

/-- One entry of a body: key, value, padding to 4 bytes (R409). -/
def entryBytes (e : Nat × Nat × Nat) : List Nat :=
  let n := e.2.1
  leBytes 4 (e.1 * 256 + n) ++ padTo ((n + 3) / 4 * 4) 0 (leBytes n e.2.2)

/-- A body: its entries in order, padded to 8 bytes. -/
def bodyBytes (l : List (Nat × Nat × Nat)) : List Nat :=
  let b := l.flatMap entryBytes
  padTo ((b.length + 7) / 8 * 8) 0 b

/-- A config header (Table OF-4). -/
def headerBytes (seq stamp version : Nat) (l : List (Nat × Nat × Nat)) : List Nat :=
  let b := bodyBytes l
  let h := [0x4B, 0x4B, 0x43, 0x46, 1, 0, 0, 0] ++ leBytes 4 seq ++ leBytes 4 b.length ++ leBytes 4 version ++ leBytes 6 stamp
    ++ leBytes 2 l.length ++ leBytes 4 (crc32 b) ++ List.replicate 28 0
  h ++ leBytes 4 (crc32 h)

/-- A byte of a config copy by its offset in the bank. -/
def copyByte (bank : Nat) (c : Copy) (off : Nat) : Nat :=
  match c with
  | .blank => 0xFF
  | .torn => (Config.tornByte (0x200000 + 0x40000 * bank + off)).toNat
  | .valid seq stamp version l =>
    if off < 2048 then (headerBytes seq stamp version l).getD off 0xFF else (bodyBytes l).getD (off - 2048) 0xFF

/-- A summary or confirmation record's 256 bytes (Table OF-5). -/
def sumBytes (r : SumRec) : List Nat :=
  let front := [0x4B, 0x4B, 0x43, 0x53, r.kind, r.flags, 0, 0] ++ leBytes 4 r.seq ++ leBytes 4 r.heat ++ leBytes 6 r.stamp
  let rest := if r.kind = 2 then []
    else leBytes 6 r.accept ++ [r.cause, r.drainEnd] ++ leBytes 2 r.triggers ++ leBytes 8 r.sealPage
      ++ (List.range 8).flatMap (fun i =>
        let e := r.streams.getD i (0, 0, 0, 0, 0)
        leBytes 4 e.1 ++ leBytes 4 e.2.1 ++ leBytes 4 e.2.2.1 ++ leBytes 4 e.2.2.2.1 ++ leBytes 4 e.2.2.2.2)
      ++ [r.maskRec, r.maskEpoch, r.maskDross]
  let b := padTo 252 0 (front ++ rest)
  b ++ leBytes 4 (crc32 b)

/-- The copy of a bank: cope in 0, drag in 1. -/
def State.copyOf (s : State) (bank : Nat) : Copy := if bank = 0 then s.fla.cope else s.fla.drag
def State.setCopy (s : State) (bank : Nat) (c : Copy) : State :=
  if bank = 0 then { s with fla := { s.fla with cope := c } } else { s with fla := { s.fla with drag := c } }

/-- A byte of the data flash by bank and offset (Table OF-3). -/
def State.dataByte (s : State) (bank off : Nat) : Nat :=
  if off < 0x10000 then copyByte bank (s.copyOf bank) off
  else if off < 0x14000 then
    let i := (off - 0x10000) / 256
    if s.fla.sums.any (fun e => e.1 = 64 * bank + i) then
      match tget none s.fla.sums (64 * bank + i) with
      | some r => (sumBytes r).getD (off % 256) 0
      | none => (Config.tornByte (0x200000 + 0x40000 * bank + off)).toNat
    else 0xFF
  else
    let pos := ((off - 0x14000) / 2048) * 2 + bank
    let slot := pos * 32 + off % 2048 / 64
    (slotBytes slot (s.slot slot)).getD (off % 64) 0xFF

/-- A byte of the window (Table OF-8). -/
def State.winByte (s : State) (a : Nat) : Nat :=
  if a < 0x200000 then s.codeByte a else s.dataByte ((a - 0x200000) / 0x40000) (a % 0x40000)

/-- The bank of a window address: 0 and 1 code, 2 and 3 data (R405). -/
def winBank (a : Nat) : Nat := if a < 0x200000 then a / bankSize else 2 + (a - 0x200000) / 0x40000

/-! ### Summaries (R415-R417) -/

/-- Valid records of the ring. -/
def State.sumRecs (s : State) : List SumRec := s.fla.sums.filterMap (·.2)

/-- The newest of a list under R11. -/
def newestSum (l : List SumRec) : Option SumRec :=
  l.foldl (fun acc r => match acc with
    | none => some r
    | some q => if laterCount (BitVec.ofNat 32 q.seq) (BitVec.ofNat 32 r.seq) then some r else some q) none

/-- Records newest first. -/
def insertSum (r : SumRec) : List SumRec → List SumRec
  | [] => [r]
  | q :: t => if laterCount (BitVec.ofNat 32 q.seq) (BitVec.ofNat 32 r.seq) then r :: q :: t else q :: insertSum r t
def State.sumSorted (s : State) : List SumRec := s.sumRecs.foldl (fun l r => insertSum r l) []

/-- The next SUMMARY_SEQ (R415). -/
def State.sumSeqNext (s : State) : Nat :=
  match newestSum s.sumRecs with
  | some r => (r.seq + 1) % 2 ^ 32
  | none => 1

/-- CAST_PENDING (R417), SUM_VALID and SUM_SEQ_LAST. -/
def State.refreshSums (s : State) : State :=
  let l := s.sumRecs
  let pend := match newestSum (l.filter (fun r => r.kind = 1)) with
    | none => 0
    | some r => if l.any (fun c => c.kind = 2 && c.heat = r.heat && laterCount (BitVec.ofNat 32 r.seq) (BitVec.ofNat 32 c.seq))
        then 0 else r.heat
  ((s.wr Reg.sumValid l.length).wr Reg.castPending pend).wr Reg.sumSeqLast ((newestSum l).elim 0 (·.seq))

/-- The first blank slot of a ring half after its newest record; a half that is full goes on at its start, whose sector the
erase-ahead keeps erased (R416, R418). -/
def State.sumSlot (s : State) (half : Nat) : Option Nat :=
  let used := fun (i : Nat) => s.fla.sums.any (fun e => e.1 = 64 * half + i)
  let newest := newestSum ((s.fla.sums.filter (fun e => e.1 / 64 = half)).filterMap (·.2))
  let at_ := match newest with
    | some r => ((s.fla.sums.find? (fun e => e.2 = some r && e.1 / 64 = half)).elim 63 (fun e => e.1 % 64)) + 1
    | none => 0
  ((List.range 64).map (fun i => (at_ + i) % 64)).find? (fun i => !used i)

/-- The half a record goes to: a bank that runs no erase; of two, the one holding the older newest record (R416). -/
def State.sumHalf (s : State) : Option Nat :=
  let free := fun (h : Nat) => !s.dataErasing h && (s.sumSlot h).isSome
  let age := fun (h : Nat) => (newestSum ((s.fla.sums.filter (fun e => e.1 / 64 = h)).filterMap (·.2))).map (·.seq)
  if free 0 && free 1 then
    match age 0, age 1 with
    | some a, some b => if laterCount (BitVec.ofNat 32 a) (BitVec.ofNat 32 b) then some 0 else some 1
    | none, _ => some 0
    | some _, none => some 1
  else if free 0 then some 0 else if free 1 then some 1 else none

/-- Write a record with the next SUMMARY_SEQ, and keep the sector after its slot erased (R415, R416, R418); none where no slot
can take it. -/
def State.writeSum (s : State) (r : SumRec) : Option State :=
  match s.sumHalf with
  | none => none
  | some h =>
    match s.sumSlot h with
    | none => none
    | some i =>
      let r := { r with seq := s.sumSeqNext }
      let s := { s with fla := { s.fla with sums := tput s.fla.sums (64 * h + i) (some r) } }.bumpBy Reg.wordsProgrammed 32
      let nx := (i / 8 + 1) % 8
      let dirty := s.fla.sums.any (fun e => e.1 / 64 = h && e.1 % 64 / 8 = nx)
      some ((s.iff dirty (·.queueErase h (32 + nx))).refreshSums)

/-! ### Data-flash erases (R406, R418) -/

/-- A sector of the data flash becomes blank. -/
def State.blankSector (s : State) (bank sector : Nat) : State :=
  if sector < 32 then (if sector = 0 then s.setCopy bank .blank else s)
  else if sector < 40 then
    { s with fla := { s.fla with sums := s.fla.sums.filter (fun e =>
        !(e.1 / 64 = bank && e.1 % 64 / 8 = sector - 32)) } }.refreshSums
  else
    let pos := (sector - 40) * 2 + bank
    { s with log := { s.log with ring := s.log.ring.filter (fun e => !(e.1 / 32 = pos)) }
             svc := { s.svc with srcs := tmap {} s.svc.srcs (fun x =>
               if x.cursor.elim false (fun n => n / 32 = pos) then { x with cursor := some ringSlots } else x) } }

/-- The contents of a sector become cut off: its records no longer read. -/
def State.tearSector (s : State) (bank sector : Nat) : State :=
  if sector < 32 then s.setCopy bank .torn
  else if sector < 40 then
    { s with fla := { s.fla with sums := s.fla.sums.map (fun e =>
        if e.1 / 64 = bank && e.1 % 64 / 8 = sector - 32 then (e.1, none) else e) } }
  else
    let pos := (sector - 40) * 2 + bank
    { s with log := { s.log with ring := s.log.ring.map (fun e => if e.1 / 32 = pos then (e.1, Slot.torn) else e) } }

/-- A suspended data-flash erase resumes once no nested one runs (R406, R418). -/
def State.resumeDf (s : State) : State :=
  match s.fla.erase with
  | some e => if e.suspended && s.fla.nested.isNone then
      { s with fla := { s.fla with erase := some { e with suspended := false } } } else s
  | none => s

/-- After CONFIG_LOAD the sectors ahead are checked and their erases queued (R413, R418). -/
def State.eraseAhead (s : State) : State :=
  let r := s.log.head / 32
  let s := ((s.queuePos ((r + 1) % 176)).queuePos ((r + 2) % 176)).queuePos ((r + 3) % 176)
  s.each [0, 1] (fun h s =>
    match s.sumSlot h with
    | none => s.queueErase h 32
    | some i =>
      let nx := (i / 8 + 1) % 8
      s.iff (s.fla.sums.any (fun e => e.1 / 64 = h && e.1 % 64 / 8 = nx)) (·.queueErase h (32 + nx)))

/-- BANK_BUSY (Table OF-10, R405). -/
def State.bankBusyNow (s : State) : Nat :=
  let inact := s.inactiveSlot
  let code := s.rd Reg.fwState = 1 || s.fw.write.isSome
  let data := fun (b : Nat) => s.dataBusy b
  let susp := fun (b : Nat) => match s.fla.erase with | some e => e.bank = b && e.suspended | none => false
  bitIf (code && inact = 0) 0 + bitIf (code && inact = 1) 1 + bitIf (data 0) 2 + bitIf (data 1) 3
    + bitIf (s.fw.held && inact = 0) 4 + bitIf (s.fw.held && inact = 1) 5 + bitIf (susp 0) 6 + bitIf (susp 1) 7

/-- A range of window addresses meets a busy bank, or the sector of a suspended erase: the lowest such bank (R405). Of a slot whose
erase a pour has suspended for good every sector counts as the suspended one (R426, R427; log entry 94). -/
def State.busyIn (s : State) (a n : Nat) : Option Nat :=
  let busy := s.bankBusyNow % 16 ||| s.bankBusyNow / 16 % 4
  let b0 := winBank a
  let b1 := winBank (a + n - 1)
  match ((List.range 4).filter (fun b => b0 ≤ b && b ≤ b1)).find? (fun b => busy.testBit b) with
  | some b => some b
  | none =>
    match s.fla.erase with
    | some e =>
      let lo := 0x200000 + 0x40000 * e.bank + 2048 * e.sector
      if a < lo + 2048 && lo < a + n then some (2 + e.bank) else none
    | none => none

/-! ### The update (R422-R425) -/

/-- An update ends in FAILED: FW_CMD reads 3, a flag, event 0x4204 with a verify result or 0. -/
def State.fwFail (s : State) (flag result : Nat) : State :=
  (((s.wr Reg.fwState 7).wr Reg.fwCmd 3).flag Reg.fwFlags flag).event 0x4204 0xFF result

/-- Words of a list of bytes programmed from a word address on. -/
def progWords (t : Table Nat) (w : Nat) : Nat → List Nat → Table Nat
  | 0, _ => t
  | n + 1, l => progWords (tset wordErased t w (leValue (l.take 8))) (w + 1) n (l.drop 8)

/-- The words of a window write whose programming stops before it is through: how many stand, and what the word after them reads
as, are free (log entry 41). -/
def State.partWords (s : State) (w : WinWrite) : Table Nat :=
  let n := w.data.length / 8
  let k := s.freeVal % (n + 1)
  let code := progWords s.fw.code (w.addr / 8) k w.data
  if k < n then tset wordErased code (w.addr / 8 + k) (s.freeNext.freeVal + 2 ^ 32 * s.freeNext.freeNext.freeVal) else code

/-- A window write is cut off (R423): the words that stand programmed are counted. -/
def State.cutWrite (s : State) : State :=
  match s.fw.write with
  | none => s
  | some w =>
    let k := s.freeVal % (w.data.length / 8 + 1)
    let s := { s with fw := { s.fw with write := none, code := s.partWords w } }
    ((s.bumpBy Reg.wordsProgrammed k).bumpBy Reg.fwProgress (8 * k)).freeNext.freeNext.freeNext

/-- A window write that still waits for its words ends: its last segment is answered with a program failure (Table OF-9). -/
def State.dropWinWrite (s : State) : State :=
  match s.fw.write with
  | none => s
  | some w => s.cutWrite.replyAbort w.src w.tag 0x0A Reg.winData 0x06090000 0

/-- FW_CMD with a value from a source (R422): the outcome of the write. While the command before still runs it is refused as such,
whatever the state accepts (R53; log entry 59). -/
def State.doFwCmd (s : State) (j tag v : Nat) : WOut :=
  let st := s.rd Reg.fwState
  let slot := s.inactiveSlot
  let wrong := WOut.abort 0x040A0000 0
  if v = 0 || 5 < v then .abort 0x03040000 0
  else if s.rd Reg.fwCmd = 1 then .abort 0x04050000 0
  else if s.cas.dist.isSome then wrong
  else if v = 1 then
    if !([0, 2, 3, 4, 7].contains st) then wrong
    else if (List.range 256).any (fun c => s.sectorProtected j slot c) then .abort 0x06080000 0
    else
      let s := s.dropWinWrite.setXo slot (0, 0)
      let s := { s with fw := { s.fw with held := false } }
      .ok ((((s.wr Reg.fwState 1).wr Reg.fwCmd 1).wr Reg.fwProgress 0).wr Reg.fwVerifyResult 0)
  else if v = 2 then
    if st = 2 || st = 3 then .ok ({ s with fw := { s.fw with verifying := true } }.wr Reg.fwCmd 1) else wrong
  else if v = 3 then
    if st = 4 then .later ((s.writeProt { s.protNext with bootPref := slot, trial := 1 } 2 j tag).wr Reg.fwCmd 1) else wrong
  else if v = 4 then
    if st = 6 then .later ((s.acceptTrial 5 j tag).wr Reg.fwCmd 1) else wrong
  else if v = 5 then
    if st = 5 then
      .later ((s.writeProt { s.protNext with bootPref := s.runningSlot, trial := 0 } 6 j tag).wr Reg.fwCmd 1)
    else if st = 2 || st = 3 || st = 4 then
      .ok (({ s.dropWinWrite with fw := { s.dropWinWrite.fw with verifying := false } }.wr Reg.fwState 0).wr Reg.fwCmd 2)
    else wrong
  else wrong

/-- PROT_CODE_SET with a map (R430). -/
def State.doProtCode (s : State) (j tag v : Nat) : WOut :=
  if s.unlocked j then .later (s.writeProt { s.protNext with protCode := v } 3 j tag) else .abort 0x02050000 0

/-- DEBUG_CLOSE with 1 or 2 (R431). -/
def State.doDebugClose (s : State) (j tag v : Nat) : WOut :=
  if v ≠ 1 && v ≠ 2 then .abort 0x03040000 0
  else if s.unlocked j then .later (s.writeProt { s.protNext with debugClosed := v = 1 } 4 j tag)
  else .abort 0x02050000 0

/-- The register a protection record's write answers for. -/
def protKey (what : Nat) : Nat :=
  if what = 1 then Reg.oemPwChange else if what = 3 then Reg.protCodeSet else if what = 4 then Reg.debugClose else Reg.fwCmd

/-- What becomes true with a durable record, beside the record itself. -/
def State.protDone (s : State) (what : Nat) : State :=
  if what = 1 then s.wr Reg.oemPwChange 1
  else if what = 2 then (s.wr Reg.fwState 5).wr Reg.fwCmd 2
  else if what = 3 then s.wr Reg.protCodeSet 1
  else if what = 4 then s.wr Reg.debugClose 1
  else if what = 5 then s.wr Reg.fwCmd 2
  else if what = 6 then (s.wr Reg.fwState 0).wr Reg.fwCmd 2
  else s

/-- What a failed write of a record leaves. -/
def State.protFailed (s : State) (what : Nat) : State :=
  if what = 1 then s.wr Reg.oemPwChange 2
  else if what = 3 then s.wr Reg.protCodeSet 2
  else if what = 4 then s.wr Reg.debugClose 2
  else if what = 2 || what = 5 || what = 6 then s.wr Reg.fwCmd 3
  else s

/-- The abort a closed window write meets, checked in full before a word is programmed (R423, Table OF-9); 0 none, with the
detail. -/
def State.winWriteFault (s : State) (j a n : Nat) : Nat × Nat :=
  let slot := s.inactiveSlot
  let st := s.rd Reg.fwState
  if 0x280000 < a + n then (0x06020000, 0)
  else if a % 8 ≠ 0 || n % 8 ≠ 0 || 8192 < n || n = 0 then (0x06030000, 0)
  else if !(st = 2 || st = 3) || a < slot * bankSize || (slot + 1) * bankSize < a + n then (0x06060000, 0)
  else if (s.busyIn a n).isSome then (0x06010000, (s.busyIn a n).getD 0)
  else if (List.range (n / 8)).any (fun i => tget wordErased s.fw.code (a / 8 + i) ≠ wordErased) || s.fw.cut = some slot then
    (0x06070000, 0)
  else if (List.range ((n + 8191) / 4096)).any (fun i =>
      a / 4096 + i ≤ (a + n - 1) / 4096 && s.sectorProtected j slot ((a / 4096 + i) % 256)) then (0x06080000, 0)
  else (0, 0)

/-- A read range of the window: the abort it meets, or 0 (R405, R427, R428). -/
def State.winReadFault (s : State) (a n : Nat) (uncorrectable : Bool) : Nat × Nat :=
  if 0x280000 < a + n then (0x06020000, 0)
  else if s.touchesXo a n then (0x06050000, 0)
  else match s.busyIn a n with
    | some b => (0x06010000, b)
    | none => if uncorrectable then (0x06040000, 0) else (0, 0)

/-- Count what a window abort counts; an uncorrectable word is logged with its array and its address, which lies somewhere in the range
`a`, `n` (R404, log entry 94). -/
def State.winAbort (s : State) (code detail : Nat) (a n : Nat := 0) : State :=
  let s := s.wr Reg.winLastAbort (code + detail)
  let s := s.iff (code = 0x06010000) (·.bump Reg.busyAborts)
  let s := s.iff (code = 0x06050000) (·.bump Reg.xoAborts)
  let at_ := (a + s.freeVal % (max 1 n)) / 8 * 8
  s.iff (code = 0x06040000) (fun s =>
    ((s.bump Reg.eccUncorrectable).event 0x4205 0xFF (if at_ < 0x200000 then 0 else 1) at_).freeNext)

/-! ### The update's pour (R426) -/

/-- The words of a slot are gone. -/
def State.dropSlot (s : State) (slot : Nat) : State :=
  { s with fw := { s.fw with code := s.fw.code.filter (fun e => !(e.1 / 131072 = slot)),
                             shipped := s.fw.shipped && slot ≠ 0 } }

/-- A code erase is cut off (R406, R426). -/
def State.cutErase (s : State) : State :=
  if s.rd Reg.fwState = 1 then
    { (s.dropSlot s.inactiveSlot) with fw := { (s.dropSlot s.inactiveSlot).fw with cut := some s.inactiveSlot } }
  else s

/-- A pour's acceptance: a running code erase is cut off, a window write ends, states 1 to 3 fail. -/
def State.fwPour (s : State) : State :=
  let st := s.rd Reg.fwState
  let s := s.cutErase.dropWinWrite
  let s := { s with fw := { s.fw with verifying := false, held := s.fw.held || st = 1 } }
  if st = 1 || st = 2 || st = 3 then
    (((s.wr Reg.fwState 7).wr Reg.fwCmd 3).flag Reg.fwFlags 4).event 0x4204 0xFF 0
  else s

end Sys2Proof.Machine
end

