-- ==== Sys2Proof/Machine/MirrorOps.lean ====
section
/-! DEFINITION. The mirror engine and admission (spec/13_mirror_and_admission.md): records in the crucible, commits,
epochs, retirement, the pour-energy model, grants. -/
namespace Sys2Proof.Machine

/-! ### Counts of the crucible and of mirrored units -/

/-- CRUCIBLE_FILL and the streams' shares (R328). -/
def State.refreshFill (s : State) : State :=
  let s := s.wr Reg.crucibleFill ((s.sto.crucible.map (fun c => c.r.slots)).sum)
  s.each allStreams (fun st s => s.wr (Reg.crucibleUnits st)
    (((s.sto.crucible.filter (fun c => c.r.stream = st)).map (fun c => c.r.slots)).sum))

/-- MIRRORED and the streams' shares (R340). -/
def State.refreshMirrored (s : State) : State :=
  let s := s.wr Reg.mirrored ((s.sto.unret.map (fun e => e.2.2)).sum)
  s.each allStreams (fun st s => s.wr (Reg.mirroredUnits st)
    (((s.sto.unret.filter (fun e => e.1 = st)).map (fun e => e.2.2)).sum))

/-- Add units to a stream's epoch. -/
def addUnits (st ep u : Nat) : List (Nat × Nat × Nat) → List (Nat × Nat × Nat)
  | [] => [(st, ep, u)]
  | (a, b, n) :: t => if a = st && b = ep then (a, b, n + u) :: t else (a, b, n) :: addUnits st ep u t

/-! ### Accepting and refusing records (R318, R319, R333) -/

/-- The epoch rule for a stream's state (R333). -/
def State.epochOk (s : State) (st ep : Nat) : Bool :=
  let e := s.rd (Reg.epochState st)
  if e = 0 then true
  else if e = 1 then s.rd (Reg.openEpoch st) = ep
  else later32 (tget 0 s.sto.lastClosed st - 1) ep

/-- Put the epoch state after an accepted record (R333). -/
def State.stepEpoch (s : State) (r : Rec) : State :=
  if r.closes then
    { (s.wr (Reg.epochState r.stream) 2) with sto := { s.sto with lastClosed := tput s.sto.lastClosed r.stream (r.epoch + 1) } }
  else (s.wr (Reg.epochState r.stream) 1).wr (Reg.openEpoch r.stream) r.epoch

/-- Accept a record into the crucible (R328): it waits for its place, its units count, a stall ends. -/
def State.acceptRec (s : State) (r : Rec) (session : Nat) : State :=
  let st := r.stream
  let s := { s with
    sto := { s.sto with
      crucible := s.sto.crucible ++ [CruRec.mk r session []]
      todo := s.sto.todo ++ [Item.record st r.seq 0]
      unret := addUnits st r.epoch r.slots s.sto.unret
      since := true }
    ll := { s.ll with expect := s.ll.expect ||| 2 ^ st } }
  let s := (s.stepEpoch r).wr (Reg.nextRec st) ((r.seq + 1) % 2 ^ 32)
  let s := ((s.bump Reg.recordsAccepted).bumpBy Reg.rxSinceDecl r.slots).iff (s.phase = Phase.pour)
    (·.bumpBy Reg.pourRx r.slots)
  let s := if s.bitOf Reg.stalled st then
      (s.clearBits Reg.stalled (2 ^ st)).event 0x3103 st 0 (s.rd (Reg.nextRec st)) else s
  (s.refreshFill.refreshMirrored.pump).commitSoon

/-- Refuse a record: its stream stalls and a violation counts (R319). -/
def State.refuseRec (s : State) (st cls : Nat) : State :=
  let begins := !s.bitOf Reg.stalled st
  let s := (s.flag Reg.stalled st).flag Reg.llFlags 5
  let s := if begins then (s.event 0x3103 st 1 (s.rd (Reg.nextRec st))).commitSoon else s
  s.llViolation cls

/-- A DATA or CLOSE frame whose contents are applied (R318-R320): its units are received, then the record is accepted,
dropped as a duplicate, or refused. One accepted in a session that has ended meanwhile consumes the credit it had there (R316). -/
def State.applyRec (s : State) (r : Rec) (session : Nat) : State :=
  let st := r.stream
  let old := s.rd Reg.llState = 0 || session ≠ s.rd Reg.session
  let kept := tget 0 s.ll.lapsed st
  let lacks := if old then kept < r.slots else s.outOf st < r.slots || s.rd Reg.llState ≠ 2
  let s := if old then { s with ll := { s.ll with lapsed := tset 0 s.ll.lapsed st (kept - r.slots) } }
    else s.wr (Reg.rxunits st) (s.rd (Reg.rxunits st) + r.slots)
  if lacks then s.refuseRec st Vc.credit
  else if s.ll.expect.testBit st && r.seq ≠ s.rd (Reg.nextRec st) then
    if later32 r.seq (s.rd (Reg.nextRec st)) then s.bump Reg.recDups
    else s.refuseRec st Vc.order
  else if s.rd (Reg.streamOpen st) = 0 then s.refuseRec st Vc.order
  else if !s.epochOk st r.epoch then (s.flag Reg.mrFlags 2).refuseRec st Vc.order
  else s.acceptRec r session

/-! ### Commit (R330-R332) -/

/-- Every page with a chunk of the record has been programmed, and the whole record has been placed (R330). -/
def State.isDurable (s : State) (c : CruRec) : Bool :=
  !c.pages.isEmpty
    && !(s.sto.todo.any (fun it => match it with
      | .record st q _ => st = c.r.stream && q = c.r.seq
      | _ => false))
    && c.pages.all (fun q => !(s.sto.pages.any (fun p => p.seq = q && p.kind ≠ 5)))

/-- Commit one record (R330, R331, R332). -/
def State.commitOne (s : State) (r : Rec) : State :=
  let st := r.stream
  let s := (((s.wr (Reg.lastCommit st) r.seq).flag (Reg.streamHas st) 0).wr (Reg.commitStamp st) s.stamp).bump
    Reg.recordsCommitted
  if r.closes then
    { (((s.wr (Reg.lastComplete st) r.epoch).flag (Reg.streamHas st) 1).bump Reg.epochsCompleted) with
      sto := { s.sto with tail := tset (0, 0) s.sto.tail st (0, 0) } }
  else
    let t := tget (0, 0) s.sto.tail st
    { s with sto := { s.sto with tail := tset (0, 0) s.sto.tail st (t.1 + 1, if t.1 = 0 then r.epoch else t.2) } }

/-- Commit, in acceptance order, every durable record whose stream has no earlier record left; what stays is returned. -/
def State.commitFrom (s : State) (blocked : List Nat) : List CruRec → State × List CruRec
  | [] => (s, [])
  | c :: cs =>
    if blocked.contains c.r.stream || !s.isDurable c then
      let (s', rest) := s.commitFrom (c.r.stream :: blocked) cs
      (s', c :: rest)
    else (s.commitOne c.r).commitFrom blocked cs

/-- The commits of a tick. -/
def State.commitAll (s : State) : State :=
  let n := s.sto.crucible.length
  let (s, rest) := s.commitFrom [] s.sto.crucible
  let s := { s with sto := { s.sto with crucible := rest } }
  if rest.length = n then s else s.refreshFill.commitSoon

/-! ### Retirement (R335, R336) -/

/-- A RETIRE frame's contents. -/
def State.applyRetire (s : State) (st ep : Nat) : State :=
  let hasRet := s.bitOf (Reg.streamHas st) 2
  if hasRet && atOrBefore ep (s.rd (Reg.lastRetired st)) then s
  else if s.bitOf (Reg.streamHas st) 1 && atOrBefore ep (s.rd (Reg.lastComplete st)) then
    let s := { s with sto := { s.sto with
      unret := s.sto.unret.filter (fun e => !(e.1 = st && atOrBefore e.2.1 ep))
      todo := s.sto.todo ++ [Item.mark st ep s.stamp] } }
    (((s.wr (Reg.lastRetired st) ep).flag (Reg.streamHas st) 2).bump Reg.retires).refreshMirrored.pump
  else ((((s.flag Reg.mrFlags 1).bump Reg.retiresRefused).event 0x3202 st 0 ep)).llViolation Vc.order

/-- A retirement mark is durable (R336). -/
def State.markDurable (s : State) (st ep : Nat) : State :=
  if s.sto.retDur.testBit st && atOrBefore ep (s.rd (Reg.retireDurable st)) then s
  else { (s.wr (Reg.retireDurable st) ep) with sto := { s.sto with retDur := s.sto.retDur ||| 2 ^ st } }

/-! ### Streams (R334) -/

/-- A stream is open for records: guard without a hold of the shakeout, or open before a pour that still drains. -/
def State.streamOpenNow (s : State) (st : Nat) : Bool :=
  s.rd (Reg.streamEn st) = 1 &&
    (if s.phase = .guard then !s.shake || s.bitOf Reg.shakeReleased st
     else s.phase = .pour && s.rd Reg.pourState = 1 && s.pour.openMask.testBit st)

/-- STREAM_OPEN of every stream; a CREDIT frame where the mask has changed in a resumed session (R321). -/
def State.refreshOpen (s : State) : State :=
  let s := s.each allStreams (fun st s => s.wr (Reg.streamOpen st) (if s.streamOpenNow st then 1 else 0))
  if s.rd Reg.llState = 2 && s.openNow ≠ s.ll.maskSent then s.sendCredit else s

/-! ### The pour-energy model (R337-R341) -/

/-- The frequency of the running NCO in 1/102400 Hz: FREQ_MEAS in ACQUIRING and LOCKED, else NOMINAL_FREQ. -/
def State.ncoFreq (s : State) : Nat :=
  let t := s.rd Reg.tbState
  if (t = 2 || t = 3) && s.rd Reg.freqMeas ≠ 0 then s.rd Reg.freqMeas * 100 else s.rd Reg.nominalFreq * 1024

/-- Baud of a rate code (Table LP-1). -/
def baudOf (code : Nat) : Nat :=
  [1250000000, 2500000000, 3125000000, 5000000000, 6250000000].getD code 0

/-- DIRTY_EFF (R337). -/
def State.dirtyNow (s : State) : Nat :=
  min ((s.rd Reg.declaredDirty + 511) / 512 - s.rd Reg.rxSinceDecl) (2 ^ 32 - 1)

/-- DRAIN_CAP_ALL and DRAIN_CAP_LINK (R340). -/
def State.drainAllNow (s : State) : Nat :=
  s.rd Reg.drainWindow * 1100000000 * 102400 / (1024 * 512 * max 1 s.ncoFreq)
def State.drainLinkNow (s : State) : Nat :=
  if s.rd Reg.linkUp = 1 then
    s.rd Reg.drainWindow * s.rd Reg.widthNow * baudOf (s.rd Reg.rateNow) * 95 * 102400
      / (1024 * 512 * 1000 * max 1 s.ncoFreq)
  else 0

/-- LADLE_AVAIL as admission takes it: 0 in every tick in which guard does not run (R341). -/
def State.availNow (s : State) : Int := if s.phase = .guard then s.rdI Reg.ladleAvail else 0

/-- The causes that make the requirement unbounded, as bits of ADM_CAUSE, for an OUT_TOTAL (R340). -/
def State.unboundedFor (s : State) (out : Nat) : Nat :=
  let link := max out (s.rd Reg.dirtyEff)
  let pour := s.rd Reg.crucibleFill + link
  bitIf (s.rd Reg.huReady = 0) 1 + bitIf (s.rd Reg.mouldUnits < pour) 3
    + bitIf (s.rd Reg.mirrorCap < s.rd Reg.mirrored + link) 4
    + bitIf (s.rd Reg.drainCapAll < pour || s.rd Reg.drainCapLink < link) 5

/-- The requirement in microjoules for an OUT_TOTAL (R339). -/
def State.requireFor (s : State) (out : Nat) : Nat :=
  s.rd Reg.huHoldE * 1000 * s.rd Reg.drainWindow / 1024
    + (s.rd Reg.crucibleFill + max out (s.rd Reg.dirtyEff)) * s.rd Reg.progE * 1000 / 2048 + s.rd Reg.sealE * 1000

/-- The margin with an OUT_TOTAL is 0 or more (R321, R341). -/
def State.marginOkFor (s : State) (out : Nat) : Bool :=
  s.unboundedFor out = 0 && decide ((s.requireFor out : Int) ≤ s.availNow * 1000)

/-- Step 3 of R329: every count of the chapter (R338). -/
def State.takeCounts (s : State) : State :=
  let s := (s.wr Reg.outTotal s.outTotal).wr Reg.dirtyEff s.dirtyNow
  let link := max (s.rd Reg.outTotal) (s.rd Reg.dirtyEff)
  let s := (s.wr Reg.linkUnits link).wr Reg.pourUnits (s.rd Reg.crucibleFill + link)
  let s := s.wr Reg.mouldUnits (if s.rd Reg.isState = 2 then s.mouldNow else 0)
  let s := (s.wr Reg.drainCapAll s.drainAllNow).wr Reg.drainCapLink s.drainLinkNow
  (s.wr Reg.preparedRows (minOver s.preparedOf)).wr Reg.logRows (minOver s.goodOf)

/-- The value MARGIN reads while the requirement is unbounded. -/
def marginNone : Int := -2147483648

/-- Step 4 of R329: the requirement and the riser margin (R339-R341). -/
def State.computeMargin (s : State) : State :=
  let out := s.rd Reg.outTotal
  let u := s.unboundedFor out
  let req := s.requireFor out
  let m : Int := s.availNow * 1000 - req
  let cap := u.testBit 4 && !(s.rd Reg.admCause).testBit 4
  let s := { s with sto := { s.sto with requireUj := req, marginUj := m, bounded := u = 0 } }
  let s := (s.wr Reg.holdTerm (s.rd Reg.huHoldE * s.rd Reg.drainWindow / 1024)).wr Reg.progTerm
    (s.rd Reg.pourUnits * s.rd Reg.progE / 2048)
  let s := s.wr Reg.requirement (if u = 0 then req / 1000 else 0xFFFFFFFF)
  let s := s.wr Reg.admCause (u + bitIf (u = 0 && m < 0) 0 + bitIf (s.rd Reg.estZero ≠ 0) 2 + bitIf (s.phase ≠ .guard) 6)
  let s := if u = 0 then s.wrI Reg.margin (clampInt marginNone 2147483647 (m / 1000)) else s.wrI Reg.margin marginNone
  let s := if s.phase = .guard && u = 0 && decide (m / 1000 < s.rdI Reg.marginMin) then s.wrI Reg.marginMin (m / 1000) else s
  if cap then (s.flag Reg.mrFlags 3).event 0x3203 0xFF 0 (s.rd Reg.mirrored) else s

/-! ### Grants (R321, R350) -/

/-- A grant to a stream would keep the margin, the crucible room, and in a pour the allowance. -/
def State.grantFits (s : State) (step : Nat) : Bool :=
  let out := s.outTotal + step
  s.rd Reg.crucibleFill + out ≤ 8192
    && (if s.phase = .pour then out + s.rd Reg.pourRx ≤ s.rd Reg.pourAllow else s.marginOkFor out)

/-- A stream may take its step under CREDIT_CAP. -/
def State.grantDue (s : State) (st : Nat) : Bool :=
  s.rd (Reg.streamOpen st) = 1 && s.outOf st + s.rd (Reg.creditStep st) ≤ s.rd (Reg.creditCap st)

/-- Raise a stream's LIMIT; it starts from RXUNITS where that is ahead (R321). -/
def State.raise (s : State) (st : Nat) : State :=
  let d := (s.rd (Reg.limit st) + 2 ^ 32 - s.rd (Reg.rxunits st)) % 2 ^ 32
  let base := if d < 2 ^ 31 then s.rd (Reg.limit st) else s.rd (Reg.rxunits st)
  { (s.wr (Reg.limit st) (base + s.rd (Reg.creditStep st))) with ll := { s.ll with lastGrant := st } }

/-- One pass over the streams, each tested in turn; it stops at the first one whose step would break the margin, the crucible room or a
condition of R340; whether any grant was made (R321, its corner in spec/13_mirror_and_admission.md). -/
def State.grantPass (s : State) (made : Bool) : List Nat → State × Bool
  | [] => (s, made)
  | st :: sts =>
    if !s.grantDue st then s.grantPass made sts
    else if s.grantFits (s.rd (Reg.creditStep st)) then (s.raise st).grantPass true sts
    else (s, made)

/-- Passes until one makes no grant; `n` bounds them. -/
def State.grantPasses : Nat → Bool → State → State × Bool
  | 0, any, s => (s, any)
  | n + 1, any, s =>
    let r := s.grantPass false ((List.range 8).map (fun i => (s.ll.lastGrant + 1 + i) % 8))
    if r.2 then State.grantPasses n true r.1 else (r.1, any)

/-- Step 5 of R329: grants in guard, or in a pour's drain; a CREDIT frame after a tick that made one (R321, R350). -/
def State.grants (s : State) : State :=
  if s.rd Reg.llState = 2 && !s.linkQuar
      && (s.phase = .guard || (s.phase = .pour && s.rd Reg.pourState = 1)) then
    let r := State.grantPasses 8193 false s
    if r.2 then r.1.sendCredit else r.1
  else s

/-- Step 6 of R329: ADM_STATE closes with the first negative margin; the run of non-negative ticks is counted (R342). -/
def State.admission (s : State) : State :=
  if s.marginNeg then
    let s := { s with sto := { s.sto with okRun := 0 } }
    let s := if s.rd Reg.admState = 0 then
        ((s.wr Reg.admState 1).bump Reg.admCloses).flag Reg.mrFlags 0
          |>.event 0x3201 0xFF 1 (s.rd Reg.margin) (s.rd Reg.admCause)
      else s
    s.bump Reg.admClosedTicks
  else
    let s := { s with sto := { s.sto with okRun := s.sto.okRun + 1 } }
    if s.rd Reg.admState = 1 then s.bump Reg.admClosedTicks else s

end Sys2Proof.Machine
end

