-- ==== Sys2Proof/Machine/SeqOps.lean ====
section
/-! DEFINITION. The rail sequencer's operations (spec/10_sequencer.md): enables, judgement, shutdown order, FAULT# and
HOST_RST#. -/
namespace Sys2Proof.Machine

/-! Codes of RAIL_STATE (Table SQ-1). -/
namespace Rs
def unused : Nat := 0
def off : Nat := 1
def waiting : Nat := 2
def rising : Nat := 3
def running : Nat := 4
def faulted : Nat := 5
def falling : Nat := 6
def failed : Nat := 7
end Rs

/-! Run counts of a rail's conditions, eight per rail. -/
def rcGood (n : Nat) : Nat := 100 + 8 * n
def rcUv (n : Nat) : Nat := 101 + 8 * n
def rcOv (n : Nat) : Nat := 102 + 8 * n
def rcPg (n : Nat) : Nat := 103 + 8 * n
def rcFallen (n : Nat) : Nat := 104 + 8 * n
def rcWarnUv (n : Nat) : Nat := 105 + 8 * n
def rcWarnOv (n : Nat) : Nat := 106 + 8 * n
def rcAlive (n : Nat) : Nat := 107 + 8 * n
/-- FAULT# low for the trigger's filter, low and not driven by this module, and high (R257, R258). -/
def rcFaultLow : Nat := 50
def rcFaultStuck : Nat := 51
def rcFaultHigh : Nat := 52

/-- The rails, by number. -/
def allRails : List Nat := List.range 8

def State.railSt (s : State) (n : Nat) : Nat := s.rd (Reg.railState n)

/-- A used rail: RAIL_MODE 1 or 2 (R242). -/
def State.railUsed (s : State) (n : Nat) : Bool := s.rd (Reg.railMode n) = 1 || s.rd (Reg.railMode n) = 2
def State.railMonitor (s : State) (n : Nat) : Bool := s.rd (Reg.railMode n) = 2

/-- The pad level of an enable's on and off state under EN_DRIVE: 1 low, 2 high, 3 released (R243). -/
def enOnLevel (drive : Nat) : Nat := if drive = 0 then 2 else if drive = 1 then 1 else if drive = 2 then 3 else 1
def enOffLevel (drive : Nat) : Nat := if drive = 0 then 1 else if drive = 1 then 2 else if drive = 2 then 1 else 3

/-- Command ENn on or off: RAILS_ON and the pad's level. A monitor-only or unused rail is never turned on (R242). -/
def State.setEn (s : State) (n : Nat) (on : Bool) : State :=
  let on := on && s.rd (Reg.railMode n) = 1
  let d := s.rd (Reg.enDrive n)
  { (s.putBit Reg.railsOn n on) with
    pads := { s.pads with en := tset 0 s.pads.en n (if on then enOnLevel d else enOffLevel d) } }

/-- ENn is commanded on. -/
def State.enOn (s : State) (n : Nat) : Bool := s.bitOf Reg.railsOn n

/-- HOST_RST# goes low under R259 and waits for its next release. -/
def State.hostResetLow (s : State) : State := { s with pads := { s.pads with hostRst := true, hostHold := true } }

/-- Give a rail a state; RAILS_GOOD follows, the ticks of entry are kept, and the HOST_RAIL rail leaving RUNNING drives
HOST_RST# low (R259). -/
def State.setRail (s : State) (n st : Nat) : State :=
  let old := s.railSt n
  let s := (s.wr (Reg.railState n) st).putBit Reg.railsGood n (st = Rs.running)
  let q := s.seq
  let s := { s with seq := { q with
      riseAt := if st = Rs.rising then tput q.riseAt n s.tick else q.riseAt
      fallAt := if st = Rs.falling || st = Rs.failed then tput q.fallAt n s.tick else q.fallAt
      runAt := if st = Rs.running then tput q.runAt n s.tick else q.runAt } }
  if old = Rs.running && st ≠ Rs.running && s.rd Reg.hostRail = n then s.hostResetLow else s

/-! ### Judgement (R245, R247) -/

/-- RAIL_V of this tick, in mV. -/
def State.railNow (s : State) (n : Nat) : Nat := s.smp.vs.getD n 0 * s.rd (Reg.vsGain n) / 1000

/-- RAIL_V ÷ RAIL_NOM × 1000 compared with a level, without the division's rounding. -/
def State.railBelow (s : State) (n level : Nat) : Bool :=
  decide (s.smp.vs.getD n 0 * s.rd (Reg.vsGain n) < level * s.rd (Reg.railNom n))
def State.railAtMost (s : State) (n level : Nat) : Bool :=
  decide (s.smp.vs.getD n 0 * s.rd (Reg.vsGain n) ≤ level * s.rd (Reg.railNom n))

/-- PGn at its active level (PG_POL). -/
def State.pgActive (s : State) (n : Nat) : Bool := s.smp.pg.toNat.testBit n ^^ (s.rd (Reg.pgPol n) = 1)

/-- Whether a rail's levels, its power-good input, or both are judged (R247). -/
def State.judgesV (s : State) (n : Nat) : Bool := s.rd (Reg.judge n) = 1 || s.rd (Reg.judge n) = 2
def State.judgesPg (s : State) (n : Nat) : Bool := s.rd (Reg.judge n) = 0 || s.rd (Reg.judge n) = 2

/-- A rail is judged good by this tick's samples (R247). -/
def State.goodNow (s : State) (n : Nat) : Bool :=
  let v := !(s.railAtMost n (s.rd (Reg.uvWarn n))) && s.railBelow n (s.rd (Reg.ovWarn n))
  (!s.judgesV n || v) && (!s.judgesPg n || s.pgActive n)

/-- A falling rail reads fallen in this tick (R253). -/
def State.fallenNow (s : State) (n : Nat) : Bool :=
  if s.judgesV n then s.railAtMost n (s.rd (Reg.offLevel n)) else !s.pgActive n

/-- The ticks the fallen condition must hold (R253). -/
def State.fallRun (s : State) (n : Nat) : Nat := if s.judgesV n then 2 else s.rd (Reg.fallDelay n)

/-- One tick's samples of one rail (R245, R499). -/
def State.countRail (s : State) (n : Nat) : State :=
  if !s.railUsed n then s
  else
    let jv := s.judgesV n
    let uv := s.railAtMost n (s.rd (Reg.uvFault n))
    let ov := !(s.railBelow n (s.rd (Reg.ovFault n)))
    let st := s.railSt n
    let up := decide (st = Rs.running)
    let fall := decide (st = Rs.falling ∨ st = Rs.failed)
    let s := s.count (rcGood n) (s.goodNow n)
    let s := s.count (rcUv n) (up && jv && uv)
    let s := s.count (rcOv n) ((up || st = Rs.rising) && jv && ov)
    let s := s.count (rcPg n) (up && s.judgesPg n && !s.pgActive n)
    let s := s.count (rcFallen n) (fall && s.fallenNow n)
    let s := s.count (rcWarnUv n) (up && jv && !uv && s.railAtMost n (s.rd (Reg.uvWarn n)))
    let s := s.count (rcWarnOv n) (up && jv && !ov && !(s.railBelow n (s.rd (Reg.ovWarn n))))
    s.count (rcAlive n) (s.phase = .rest && jv && !(s.railAtMost n (s.rd (Reg.offLevel n))))

/-- A warning ends when RAIL_V has returned past its level by LEVEL_HYST (R251). -/
def State.endWarnings (s : State) (n : Nat) : State :=
  let h := s.rd (Reg.levelHyst n)
  let s := if s.seq.warnUv.testBit n && !(s.railAtMost n (s.rd (Reg.uvWarn n) + h)) then
      { s with seq := { s.seq with warnUv := s.seq.warnUv ^^^ 2 ^ n } }.event 0x2303 n 0 (s.railNow n) else s
  if s.seq.warnOv.testBit n && s.railBelow n (s.rd (Reg.ovWarn n) - h) then
    { s with seq := { s.seq with warnOv := s.seq.warnOv ^^^ 2 ^ n } }.event 0x2303 n 0 (s.railNow n)
  else s

/-- A sequenced rail judged good while still OFF or WAITING is up early (R261). -/
def State.upEarly (s : State) (n : Nat) : State :=
  let st := s.railSt n
  if s.atStep Step.onSlots && s.rd (Reg.railMode n) = 1 && (st = Rs.off || st = Rs.waiting)
      && !s.seq.early.testBit n && s.rd (Reg.goodFilter n) ≤ s.run (rcGood n) then
    ({ s with seq := { s.seq with early := s.seq.early ||| 2 ^ n } }.flag Reg.seqFlags 3).flag (Reg.railFlags n) 4
      |>.event 0x2304 n
  else s

/-- FAULT#'s counts of one tick and FAULT_STATE (R257, R258). -/
def State.tickFault (s : State) : State :=
  let high := s.padHigh 10
  let mine := s.pads.fault
  let s := s.count rcFaultLow (!high && !mine && s.seq.quiet = 0)
  let s := s.count rcFaultStuck (!high && !mine)
  let s := s.count rcFaultHigh high
  let s := { s with seq := { s.seq with quiet := s.seq.quiet - 1 } }
  s.wr Reg.faultState (if s.seq.stuck then 3 else if mine then 2 else if high then 0 else 1)

/-- The sequencer's part of a tick from the takeover on (Table SQ-3). -/
def State.tickSeq (s : State) : State :=
  if s.taken && s.sup.running then
    (s.each allRails (fun n s => ((s.countRail n).endWarnings n).upEarly n)).tickFault
  else s

/-! ### FAULT# (R256) -/

/-- Send a FAULT# pulse, or extend the one being driven; never past 2048 ticks from its first low tick (R256). -/
def State.faultPulse (s : State) : State :=
  let p := s.rd Reg.faultPulse
  if s.pads.fault then
    { s with seq := { s.seq with pulseEnd := min (s.tick + p) (s.seq.pulseFrom + 2048) } }
  else
    { s with seq := { s.seq with pulseFrom := s.tick, pulseEnd := s.tick + p },
             pads := { s.pads with fault := true } }.bump Reg.faultOutCount

/-! ### On-slots, shutdown -/

/-- Rails that an ON_SLOTS step waits for: every used rail (R163). -/
def State.allUp (s : State) : Bool := allRails.all (fun n => !s.railUsed n || s.railSt n = Rs.running)

/-- ON_SLOTS completes in the tick in which the last configured rail is judged good; DAMP begins (R163, R155). -/
def State.checkOnDone (s : State) : State :=
  if s.atStep Step.onSlots && s.rd Reg.seqState = 1 && s.allUp then
    { ((s.wr Reg.startStep Step.damp).wr Reg.seqState 2) with seq := { s.seq with onDone := some s.tick } }
  else s

/-- The first 0 au of ON_SLOTS: the latch stops start in that tick, else the common start is taken (R163, R254). -/
def State.beginOnSlots (s : State) : State :=
  if s.rd Reg.seqLatch = 1 then ((s.wr Reg.startStep Step.onSlots).wr Reg.seqState 4).stopStart 1
  else
    { ((s.wr Reg.startStep Step.onSlots).wr Reg.seqState 1) with
      seq := { s.seq with onStart := some s.tick, onDone := none } }.checkOnDone

/-- Whether an ON_SLOT's earlier rails are all RUNNING (R246). -/
def State.earlierUp (s : State) (n : Nat) : Bool :=
  allRails.all (fun m => !s.railUsed m || s.rd (Reg.onSlot n) ≤ s.rd (Reg.onSlot m) || s.railSt m = Rs.running)

/-- A rail is turned off and enters FALLING. -/
def State.fallRail (s : State) (n : Nat) : State := (s.setRail n Rs.falling).setEn n false

/-- The rails the reverse shutdown has still to turn off: those whose EN is on, and monitor-only ones in RUNNING (R254). -/
def State.revLeft (s : State) : List Nat :=
  allRails.filter (fun n => s.enOn n || (s.railMonitor n && s.railSt n = Rs.running))

/-- A rail in FALLING. -/
def State.anyFalling (s : State) : Bool := allRails.any (fun n => s.railSt n = Rs.falling)

/-- Monitor-only rails that have not come up go to OFF (log entry 92). -/
def State.dropRising (s : State) : State :=
  s.each allRails (fun n s => if s.railMonitor n && s.railSt n = Rs.rising then s.setRail n Rs.off else s)

/-- The reverse shutdown's next step once no rail is waited for: the rails with the highest ON_SLOT; once the last one is OFF, one that
RAIL_ACTION turned off among them, the latch (R254). -/
def State.revNext (s : State) : State :=
  if s.rd Reg.seqState ≠ 3 || s.seq.waiting ≠ 0 then s
  else
    let left := s.revLeft
    if left.isEmpty then
      if s.anyFalling then s
      else
      let s := ((s.dropRising.wr Reg.seqLatch 1).wr Reg.seqState 4).bump Reg.latchCount
      (s.hostResetLow.event 0x230A 0xFF 1 (s.rd Reg.failedRail)).stopStart 1
    else
      let top := (left.map (fun n => s.rd (Reg.onSlot n))).foldl Nat.max 0
      let grp := left.filter (fun n => s.rd (Reg.onSlot n) = top)
      let s := s.each grp (fun n s => s.fallRail n)
      { s with seq := { s.seq with waiting := grp.foldl (fun m n => m ||| 2 ^ n) 0 } }

/-- The rails the off-slots have still to turn off: EN on, or monitor-only and neither OFF nor FALLING (R252). -/
def State.offLeft (s : State) : List Nat :=
  allRails.filter (fun n => s.railSt n ≠ Rs.falling && (s.enOn n ||
    (s.railMonitor n && s.railSt n ≠ Rs.off && s.railSt n ≠ Rs.unused && s.railSt n ≠ Rs.failed)))

/-- The off-slots are done (R252). -/
def State.offDone (s : State) : Bool := s.rd Reg.seqState = 5 && s.offLeft.isEmpty && !s.anyFalling

/-- The off release (R250): the earlier of the seal's and RF_GRACE's. -/
def State.offRelease (s : State) : State :=
  if s.seq.offRel.isNone then { s with seq := { s.seq with offRel := some s.tick } } else s

/-- A rail has fallen or its wait is over: FALLING leads to OFF, FAILED stays; the reverse shutdown moves on (R253, R254). -/
def State.railDown (s : State) (n : Nat) : State :=
  let s := if s.railSt n = Rs.falling then s.setRail n Rs.off else s
  let q := s.seq
  { s with seq := { q with waiting := q.waiting ^^^ (q.waiting &&& 2 ^ n) } }.revNext

/-! ### Takeover and pour -/

/-- The sequencer takes EN0-EN7 and FAULT# (R161). After a warm reset a rail whose pad was held at its on level is adopted:
judged good it is RUNNING, else it keeps its EN and runs its on-slot (R162). -/
def State.seqTakeover (s : State) (warm : Bool) : State :=
  let s := { s with pads := { s.pads with fault := false }, seq := { s.seq with armed := false, stuck := false } }
  s.each allRails (fun n s =>
    let lvl := tget 0 s.pads.en n
    let held := warm && s.rd (Reg.railMode n) = 1 && lvl = enOnLevel (s.rd (Reg.enDrive n))
      && !s.pads.off.testBit n
    let s := s.setEn n held
    if !s.railUsed n then s.setRail n Rs.unused
    else if held then
      let s := (s.flag (Reg.railFlags n) 6).flag Reg.startFlags 0
      if s.goodNow n then s.setRail n Rs.running else s.setRail n Rs.off
    else s.setRail n Rs.off)

/-- Pour acceptance: every turn-on stops, and a reverse shutdown with them: the rails that are up take their off-slots; rails in WAITING
go to OFF (R262; SEQ_STATE: log entry 92). -/
def State.seqPour (s : State) : State :=
  let s := s.each allRails (fun n s => if s.railSt n = Rs.waiting then s.setRail n Rs.off else s)
  let s := s.iff (s.rd Reg.seqState = 1 || s.rd Reg.seqState = 3) (·.wr Reg.seqState 2)
  { s with seq := { s.seq with waiting := 0 } }

/-- Rest begins: HOST_RST# goes low if it is not (R259), the sequencer is off. -/
def State.seqRest (s : State) : State :=
  let s := (if s.pads.hostRst then { s with pads := { s.pads with hostHold := true } } else s.hostResetLow)
  { s with seq := { s.seq with alive := false, rfAt := none } }.wr Reg.seqState 6

/-- SEQ_CLEAR 1 (R255): the state after, and whether the latch was set. -/
def State.doSeqClear (s : State) : State :=
  if s.rd Reg.seqLatch = 0 then s.wr Reg.seqClear 2
  else
    let s := s.each allRails (fun n s => if s.railSt n = Rs.failed then s.setRail n Rs.off else s)
    let s := ((s.wr Reg.seqLatch 0).wr Reg.failedRail 0xFF).wr Reg.seqClear 1
    let s := s.rearmPads 0xFF
    (s.wr Reg.seqState 0).event 0x230A 0xFF 0 0xFF

end Sys2Proof.Machine
end

