-- ==== Sys2Proof/Machine/Pour.lean ====
section
/-! DEFINITION. The pour controller's operations (spec/14_pour_and_shakeout.md R346-R361): the one place where a trigger is
accepted, the end of the drain, the seal, the off release, the end of the pour. -/
namespace Sys2Proof.Machine

/-! Codes of POUR_STATE (Table PS-2). -/
namespace Ps
def none : Nat := 0
def drain : Nat := 1
def flush : Nat := 2
def sealing : Nat := 3
def summary : Nat := 4
def offSlots : Nat := 5
end Ps

def State.pourSt (s : State) : Nat := s.rd Reg.pourState

/-! ### What other parts do in the acceptance tick -/

/-- Quarantine of a source ends (R480): its window is reset, event 0x1103 with detail 0. -/
def State.endQuarantine (s : State) (j : Nat) : State :=
  let x := s.srcOf j
  if x.quarLeft = 0 then s
  else (s.setSrc j { x with quarLeft := 0, window := [] }).event 0x1103 j 0 (s.rd (Reg.violTotal j))

/-- The shakeout is over: no stream is held (R367, R369, R371). -/
def State.endShake (s : State) : State :=
  { ((s.wr Reg.shakeState 0).wr Reg.shakeReleased 0xFF) with
    shake := false
    shk := { confirm := s.shk.confirm }
    sto := { s.sto with reads := [] }
    ll := { s.ll with waiting := s.ll.waiting.filter (fun f => f.ty ≠ 0x34 && f.ty ≠ 0x35) } }

/-- A running commit is abandoned: the bank it writes has no valid copy (R58). An erase of it runs to its end (R418). How many words
it has programmed is open (log entry 94). -/
def State.abandonCommit (s : State) : State :=
  match s.svc.commit with
  | none => s
  | some (b, _) =>
    let s := { s with svc := { s.svc with commit := none } }.setCopy b .torn
    let s := s.iff (s.fla.begun && s.fla.left = [] && s.fla.nested.isNone)
      (fun s => (s.bumpBy Reg.wordsProgrammed (s.freeVal % 4105)).freeNext)
    let s := { s with fla := { s.fla with left := [], begun := false } }
    ((s.wr Reg.configCommit 4).flag Reg.serviceFlags 1).event 0x1101 0xFF 4 (s.rd Reg.configSeq)

/-- Every open segmented write ends (R83). -/
def State.endWrites (s : State) : State :=
  { s with svc := { s.svc with srcs := tmap {} s.svc.srcs (fun x =>
      { x with xfer := match x.xfer with | some x => if x.write then none else some x | none => none }) } }

/-- A running distribution stops: the member served takes a result, FW_DIST a reading (R461, R462). -/
def State.stopDist (s : State) (result reading : Nat) : State :=
  match s.cas.dist with
  | none => s
  | some d =>
    let s := if d.node = 0 then s else s.wr (Reg.fwDistResult ((d.node - 1) % 64)) result
    { ((s.wr Reg.fwDist reading).wr Reg.fwDistNode 0) with cas := { s.cas with dist := none } }

/-- An erase suspended for programming stays suspended from acceptance on (R394). -/
def State.erasePour (s : State) : State :=
  match s.sto.erase with
  | some e => if e.state = 2 then
      { (s.wr Reg.eraseState 3) with sto := { s.sto with erase := some { e with state := 3 } } } else s
  | none => s

/-- The pad and line side of acceptance: PFW# low, B4 asserted, turn-ons stopped (R348, R36, R262). -/
def State.pourPads (s : State) : State :=
  { s.seqPour with pads := { s.seqPour.pads with pfw := some false, b4 := true } }

/-- The HV die's side of B4 (R36, R179, R231). -/
def State.pourB4 (s : State) : State := s.feedsB4.holdupB4

/-- Everything that acceptance ends or releases (R348: R498, R58, R67, R83, R326, R300, R290, R369, R394, R426, R462). -/
def State.pourEnds (s : State) : State :=
  let s := ((s.abortRec.dropReport.abandonCommit.endWrites.endQuarantine 0).erasePour).fwPour
  let s := (if s.shake then s.endShake else s).endScans 3
  let s := { s with fettling := false }.stopDist 8 4
  ((s.wr Reg.idleHold 0).refreshBus.linkEnable).linkWake

/-! ### The end of the drain (R351, R352) -/

/-- HOST_RST# under HOST_RST_POLICY in the tick the drain ends (R352). -/
def State.drainReset (s : State) (code : Nat) : State :=
  let pol := s.rd Reg.hostRstPolicy
  let owed := decide (s.outTotal + s.rd Reg.pourRx < s.rd Reg.pourAllow) || decide (0 < s.dirtyNow)
  if pol = 2 || (pol = 1 && (code = 1 || code = 3) && owed) then
    let s := { s.hostResetLow with pads := { s.hostResetLow.pads with hostDrain := true } }
    ((s.flag Reg.pourFlags 5).bump Reg.hostResets).event 0x4007 0xFF pol
  else s

/-! ### Seal (R354-R357, R363) -/

/-- A stream's dross: how many records follow its last complete epoch, committed or in the crucible, and the earliest epoch
among them (R354). -/
def State.drossOf (s : State) (st : Nat) : Nat × Nat :=
  let t := tget (0, 0) s.sto.tail st
  let c := s.sto.crucible.filter (fun c => c.r.stream = st)
  let first := match c with
    | r :: _ => r.r.epoch
    | [] => 0
  let n := t.1 + c.length
  (n, if n = 0 then 0 else if t.1 ≠ 0 then t.2 else first)

/-- A stream's dross leaves the crucible and MIRRORED; the stream reads CLOSED at it (R354, R363). -/
def State.dropDross (s : State) (st : Nat) : State :=
  let (n, e) := s.drossOf st
  let s := (s.wr (Reg.drossRecs st) n).wr (Reg.drossEpoch st) e
  if n = 0 then s
  else
    let has := s.bitOf (Reg.streamHas st) 1
    let last := s.rd (Reg.lastComplete st)
    let s := (s.bumpBy Reg.drossTotal n).flag Reg.pourFlags 8
    { (s.wr (Reg.epochState st) 2) with
      sto := { s.sto with
        crucible := s.sto.crucible.filter (fun c => c.r.stream ≠ st)
        todo := s.sto.todo.filter (fun it => match it with | .record a _ _ => a ≠ st | _ => true)
        unret := s.sto.unret.filter (fun u => u.1 ≠ st || (has && atOrBefore u.2.1 last))
        lastClosed := tput s.sto.lastClosed st (e + 1)
        tail := tset (0, 0) s.sto.tail st (0, 0) } }

/-- The number node 1 has assigned for this pour, as this member knows it: its own at node 1, the last broadcast within the
span of R451 elsewhere. -/
def State.heatGiven (s : State) : Option Nat :=
  if s.node = 1 then (if s.master then some (s.rd Reg.heatAssigned) else none)
  else match s.cas.heat with
    | some (h, t) => if s.pour.at_ ≤ t + 2048 then some h else none
    | none => none

/-- The seal's heat number, taken as SEAL begins (R357, R451). -/
def State.takeHeat (s : State) : State :=
  let last := s.rd Reg.heatLast
  let next := (last + 1) % 2 ^ 32
  let s := match s.heatGiven with
    | some h =>
      let s := if s.node = 1 then s else s.bump Reg.heatRx
      if later32 last h then (s.wr Reg.heatLast h).wr Reg.heatLocal 0 else (s.wr Reg.heatLast next).wr Reg.heatLocal 1
    | none =>
      let s := (s.wr Reg.heatLast next).wr Reg.heatLocal 1
      if s.node = 1 then s else (s.flag Reg.casFlags 6).event 0x5006 0xFF 0 next
  s

/-- A stream's five fields of a seal or summary. -/
def State.sealRow (s : State) (st : Nat) : Nat × Nat × Nat × Nat × Nat :=
  (s.rd (Reg.lastCommit st), s.rd (Reg.lastComplete st), s.rd (Reg.drossRecs st), s.rd (Reg.drossEpoch st),
    s.rd (Reg.retireDurable st))

/-- The seal of this pour (Table IS-8). -/
def State.makeSeal (s : State) : Seal :=
  { heat := s.rd Reg.heatLast, localHeat := s.rd Reg.heatLocal = 1, cause := s.rd Reg.pourCause
    triggers := s.rd Reg.pourTriggers, accept := s.rd Reg.pourStamp, stamp := s.stamp
    maskRec := streamMask (fun st => s.bitOf (Reg.streamHas st) 0)
    maskEpoch := streamMask (fun st => s.bitOf (Reg.streamHas st) 1)
    maskDross := streamMask (fun st => s.rd (Reg.drossRecs st) ≠ 0)
    drainEnd := s.rd Reg.drainEnd, prev := s.rd Reg.lastSealPage, rows := allStreams.map (fun st => s.sealRow st) }

/-- SEAL begins: dross leaves, the heat is taken, the seal waits for its page (R354, R357, R381). -/
def State.beginSeal (s : State) : State :=
  let s := ((s.wr Reg.pourState Ps.sealing).each allStreams (fun st s => s.dropDross st)).refreshFill.refreshMirrored
  let s := s.takeHeat
  let x := s.makeSeal
  { s with pour := { s.pour with sealing := some x }, sto := { s.sto with todo := s.sto.todo ++ [Item.closing x] } }.pump

/-- FLUSH ends when the crucible is empty (R353). -/
def State.flushCheck (s : State) : State :=
  if s.pourSt = Ps.flush && s.sto.crucible.isEmpty then s.beginSeal else s

/-- DRAIN ends (R351): its reason, HOST_RST#, no stream open; FLUSH begins, or for an empty pour the off release is given. -/
def State.endDrain (s : State) (code : Nat) : State :=
  if s.pourSt ≠ Ps.drain then s
  else
    let s := s.wr Reg.drainEnd code
    let s := if code = 3 then (s.flag Reg.pourFlags 2).event 0x4006 0xFF 1 else s
    let s := (s.event 0x4003 0xFF code (s.rd Reg.pourRx) (s.rd Reg.pourAllow)).drainReset code
    if code = 4 then (s.wr Reg.pourState Ps.offSlots).refreshOpen.offRelease
    else (s.wr Reg.pourState Ps.flush).refreshOpen.pump.flushCheck

/-- The seal has become durable in a page (R356). -/
def State.sealDurable (s : State) (x : Seal) (page : Nat) : State :=
  if s.pourSt ≠ Ps.sealing then s
  else
    let s := ((s.wr Reg.sealStamp s.stamp).bump Reg.seals).wr Reg.lastSealPage page
    let s := { s with
      sto := { s.sto with cast := some x, unconfirmed := true, since := false, marker := none }
      pour := { s.pour with sealing := none } }
    let d := (x.rows.map (fun r => r.2.2.1)).sum
    ((s.wr Reg.pourState Ps.summary).event 0x4004 0xFF (if x.localHeat then 1 else 0) x.heat d).statusIfChanged

/-- The summary record of the newest seal (Table OF-5). -/
def State.summaryRec (s : State) (x : Seal) : SumRec :=
  { kind := 1, flags := bitIf x.localHeat 0 + bitIf x.recovered 1, heat := x.heat, stamp := s.rd Reg.sealStamp
    accept := x.accept, cause := x.cause, drainEnd := x.drainEnd, triggers := x.triggers
    sealPage := s.rd Reg.lastSealPage, streams := x.rows, maskRec := x.maskRec, maskEpoch := x.maskEpoch
    maskDross := x.maskDross }

/-- A seal that is not durable is abandoned: the casting is unsealed (R360). -/
def State.abandonSeal (s : State) : State :=
  let p := s.pourSt
  if p = Ps.drain || p = Ps.flush || p = Ps.sealing then
    { (s.flag Reg.pourFlags 9) with
      pour := { s.pour with sealing := none }
      sto := { s.sto with todo := s.sto.todo.filter (fun it => match it with | .closing _ => false | _ => true) } }
  else s

/-! ### The end of the pour (R359) -/

/-- A page reaches its die's block (R384), or is cut off there by the loss of the die's supply. -/
def State.landPage (s : State) (p : Page) (torn : Bool) : State :=
  let k := blkKey p.pos p.block
  let b := s.blk k
  let image := if torn then [] else if p.kind = 5 then p.image else p.bytes
  s.setBlk k { b with pages := b.pages ++ [{ p with busy := false, torn := torn, image := image }]
                      lastRow := if p.kind = 5 then b.lastRow else p.row }

/-- The dies lose their supply (R121, R402): pages being programmed are cut off, nothing else is placed. -/
def State.storeOff (s : State) : State :=
  let busy := s.sto.pages.filter (fun p => p.busy)
  let s := s.each busy (fun p s => s.landPage p true)
  let s := { s with sto := { s.sto with todo := [], pages := [], row := none, reads := [], sinceRead := [] } }
  s.each [0, 1, 2, 3] (fun d s => s.wr (Reg.dieState d) 0) |>.wr Reg.isState 0

/-- The off-slots are done: the pour ends and rest begins (R359). -/
def State.pourEnd (s : State) : State :=
  let s := s.abandonSeal
  let s := { s with pads := { s.pads with b4 := false } }.holdupFree
  let s := ({ s with phase := .rest, pour := { s.pour with supplyRun := 0 } }.wr Reg.pourState Ps.none)
  let s := ((s.linkDisable 13).seqRest.storeOff).resumeDf
  (s.event 0x4008).flushLog.refreshOpen

/-- Where the off-slots are done in a pour, it ends. -/
def State.offCheck (s : State) : State := if s.phase = .pour && s.offDone then s.pourEnd else s

/-! ### Acceptance (R346-R350, R355, R361) -/

/-- POUR_ALLOW (R350), of the counts of the last step 3. -/
def State.allowNow (s : State) : Nat := min (s.rd Reg.linkUnits) (s.rd Reg.mouldUnits - s.pour.lastFill)

/-- The pour is empty (R355): no record since the newest seal and no stream OPEN. -/
def State.emptyPour (s : State) : Bool := !s.sto.since && allStreams.all (fun st => s.rd (Reg.epochState st) ≠ 1)

/-- Accept a trigger (R348): the registers of the pour, its pads, what ends, what is told. -/
def State.acceptPour (s : State) (cause : Nat) : State :=
  let trig := 2 ^ (cause - 1)
  let margin : Int := match s.phase, s.pour.lastMargin with
    | .guard, some m => m
    | _, _ => marginNone
  let empty := s.emptyPour
  let s := s.iff (s.phase = .start) (·.flag Reg.startFlags 2)
  let s := { s with phase := .pour,
                    pour := { s.pour with at_ := s.tick, openMask := if empty then 0 else s.pour.lastOpen, sealing := none } }
  let s := ((s.wr Reg.pourAllow s.allowNow).wr Reg.pourRx 0).wr Reg.drainEnd 0
  let s := ((s.wr Reg.pourState Ps.drain).wr Reg.pourCause cause).wr Reg.pourTriggers trig
  let s := (((s.wr Reg.pourStamp s.stamp).wrI Reg.pourMargin margin).bump Reg.pours).flag Reg.pourFlags 0
  let s := s.iff (margin < 0) (·.flag Reg.pourFlags 1)
  let s := s.pourPads.event 0x4001 0xFF cause trig (ofSigned 4 margin)
  let s := s.iff (!empty) (fun s => { s with sto := { s.sto with todo := s.sto.todo ++ [Item.marker s.stamp cause trig] } })
  let s := (s.pourB4.pourEnds.propagatePour cause trig).assignHeat cause
  let s := s.refreshOpen.statusIfChanged
  if empty then ((s.flag Reg.pourFlags 6).bump Reg.emptyPours).endDrain 4 else s

/-- Another trigger in the tick of acceptance: its bit, and the lowest code as POUR_CAUSE (R347); the marker that still
waits follows, and what the cascade is told does. -/
def State.joinPour (s : State) (cause : Nat) : State :=
  let old := s.rd Reg.pourCause
  let trig := s.rd Reg.pourTriggers ||| 2 ^ (cause - 1)
  let s := s.wr Reg.pourTriggers trig
  let low := min old cause
  let s := { (s.wr Reg.pourCause low) with sto := { s.sto with todo := s.sto.todo.map (fun (it : Item) => match it with
    | .marker x _ _ => Item.marker x low trig
    | it => it) } }
  s.retell old low trig

/-- A pour trigger is present (R346, R347, R161, R364). -/
def State.trigger (s : State) (cause : Nat) : State :=
  if !s.sup.running then s
  else if !s.taken then (s.flag Reg.startFlags 7).event 0x1005 0xFF cause
  else match s.phase with
    | .idle => s
    | .rest => s.event 0x4002 0xFF cause
    | .pour =>
      if s.pour.at_ = s.tick then s.joinPour cause
      else (s.wr Reg.pourTriggers (s.rd Reg.pourTriggers ||| 2 ^ (cause - 1))).event 0x4002 0xFF cause
    | .start => s.acceptPour cause
    | .guard => s.acceptPour cause

/-- B2 is asserted; its cause goes out with the next B1 frame (Table AR-1). -/
def State.assertB2 (s : State) : State := { s with bar := { s.bar with b2 := true } }

/-- A trigger that comes over B2 (Table AR-3): its cause follows in B1; while the status stream is lost it is taken as mains loss
(R19). -/
def State.b2Trigger (s : State) (cause : Nat) : State := s.assertB2.trigger (if s.bar.lost then 1 else cause)

/-- B2 is asserted by what is no pour trigger, an e-fuse trip with the other feed ON (R185): while the status stream is lost no cause
code follows and it is taken as mains loss (R19). -/
def State.b2Other (s : State) : State := s.assertB2.iff s.bar.lost (·.trigger 1)

end Sys2Proof.Machine
end

