-- ==== Sys2Proof/Machine/LadleTests.lean ====
section
/-! DEFINITION. The ladle's commands (spec/08_ladle.md R200-R222). -/
namespace Sys2Proof.Machine

/-- TAP_SCAN (R200): readings of taps CELL0 to CELLN in order, of STACK_S and of the two LTEMP sensors as ratios (R201), each
averaged over P1. A scan outside P1, or a second one in its cycle, is late, and that of a block held idle is skipped: reported and not
used. -/
def execTapScan (taps : List Nat) (stack : Nat) (lt1 lt2 : Nat) (s : State) : Host.Outcome State Fault Refusal :=
  if !s.sup.main then .next s
  else
    let v := s.cellList.map (fun n => ((taps.getD n 0 : Nat) : Int) - (taps.getD (n - 1) 0 : Nat))
    let fit := s.hrd Reg.ltempFitted
    let beta := s.hrd Reg.ltempBeta
    let t1 := if fit.testBit 0 then ntcValidTemp lt1 beta else none
    let t2 := if fit.testBit 1 then ntcValidTemp lt2 beta else none
    let s := (s.reportScan v stack t1 t2).iff s.sup.running (·.noteSensors t1.isSome t2.isSome)
    if inWindow s.clk.hvTic 10240 16383 s.clk.shift && !s.lad.scanned && !s.bitOf Reg.idleHold 1 then
      .next (s.useScan v stack (maxTemp t1 t2))
    else .next s

/-- TARGET_COMPLETE (R204): the pending target has been met for 2 cycles. -/
def execTargetComplete (s : State) : Host.Outcome State Fault Refusal :=
  if s.lad.pendingTarget && 2 ≤ s.lad.targetRun then
    let s := { s with lad := { s.lad with pendingTarget := false, targetRun := 0 } }
    .next ((s.flag Reg.ladleFlags 1).event 0x2101 0xFF 0 (s.rd Reg.targetEff)).refreshTarget
  else .next s

/-- CHARGER_DONE (R206, Table LD-2): CHG_I_MEAS has stayed below CHG_TERM for 64 cycles in CV. -/
def execChargerDone (s : State) : Host.Outcome State Fault Refusal :=
  if s.hrd Reg.chgState = Cs.cv && 64 ≤ s.lad.termRun then
    .next { (s.hwr Reg.chgState Cs.done) with lad := { s.lad with termRun := 0 } }
  else .next s

/-- CHARGER_FAULT (R208, R224): the limit acted in 8 switching windows in a row, or the current stayed low for 64 cycles in
CC. -/
def execChargerFault (s : State) : Host.Outcome State Fault Refusal :=
  if !s.bitOf Reg.ladleFault 4 && (8 ≤ s.lad.limRun || 64 ≤ s.lad.lowRun) then
    let s := { s with lad := { s.lad with limRun := 0, lowRun := 0 } }.bump Reg.chgFaults
    let s := s.latchLadle 0xFF 4
    .next { (s.hwr Reg.chgStop s.chgStopNow) with lad := { s.lad with termRun := 0 } }
  else .next s

/-- Twice C_eq times STACK_V times N times CAP_DIP, in microjoules, with C_eq as the estimate has it (R211, R216). -/
def State.capNeed (s : State) : Rat :=
  let c : Rat := match s.estimate with
    | some (c, _) => c
    | none => (s.rd Reg.cEq : Rat) / 1000
  2 * c * s.lad.stack * s.cells * s.hrd Reg.capDip

/-- CAP_TEST_START (R211): a due test starts at a cycle boundary once its conditions hold. -/
def execCapTestStart (s : State) : Host.Outcome State Fault Refusal :=
  match s.capDueAt with
  | none => .next s
  | some d =>
    if s.clk.hvTic = 0 && s.sup.main && s.phase = .guard && decide (d ≤ s.clk.cyc ∧ s.clk.cyc < d + 1024)
        && s.lad.draw.isNone && s.hrd Reg.chgState = Cs.done && !s.anyOpen && s.hrd Reg.holdupBarred = 0
        && s.hu = Hs.armed && !s.bar.hbLost && s.sto.bounded && decide (s.capNeed ≤ (s.sto.marginUj : Rat)) then
      let s := (s.setHu Hs.test)
      .next { s with hux := { s.hux with test := 1 },
                     lad := { s.lad with capFrom := some (d, false),
                                         draw := some (s.tick, { stack := s.lad.stack, before := s.lad.v }) } }
    else .next s

/-- CAP_TEST_END (R211): the draw stops at the voltage dip or at CAP_TEST_MAX; the next usable scan gives the capacitances. A
draw within 15 % of its set current is also a pass of the self-test (R236). -/
def execCapTestEnd (s : State) : Host.Outcome State Fault Refusal :=
  match s.lad.draw with
  | none => .next s
  | some (t, g) =>
    let n := s.tick - t
    if s.hu = Hs.test && (decide (s.lad.stack + s.cells * s.hrd Reg.capDip ≤ g.stack) || s.hrd Reg.capTestMax ≤ n) then
      let s := { s with lad := { s.lad with draw := none, capAfter := some g } }.setHu Hs.armed
      .next (if within15 (g.charge / max 1 n) (s.hrd Reg.capTestI) then s.huPass else s)
    else .next s

/-- CAP_TEST_DEFER (R211): a test not started within 1024 cycles is skipped. -/
def execCapTestDefer (s : State) : Host.Outcome State Fault Refusal :=
  match s.capDueAt with
  | none => .next s
  | some d =>
    if d + 1024 ≤ s.clk.cyc then .next ({ s with lad := { s.lad with capFrom := some (d, false) } }.bump Reg.capDeferred)
    else .next s

/-- A per-cell and stack ESR from readings before and during the pulse (R214). -/
def State.esrResult (s : State) (before after : List Nat) (st0 st1 ma : Nat) : State :=
  let cell := fun (l : List Nat) (n : Nat) => ((l.getD n 0 : Nat) : Int) - (l.getD (n - 1) 0 : Nat)
  let lim := s.hrd Reg.esrMaxPct * s.hrd Reg.esrRated
  let s := { s with lad := { s.lad with esrTemp := some (s.tL (-400)) } }
  let s := s.each s.cellList (fun n s =>
    let s := s.wr (Reg.cellEsr n) ((cell before n - cell after n) * 1000000 / (max 1 ma : Int)).toNat
    let x := s.rd (Reg.cellEsr n) * 100 * s.cells
    (s.event 0x2108 n 2 (s.rd (Reg.cellC n)) (s.rd (Reg.cellEsr n))).cellJudge n 10 (decide (lim < x)) (decide (x < lim)))
  let s := (s.wr Reg.esrStack ((st0 - st1) * 1000000 / max 1 ma)).wr Reg.esrStamp s.stamp
  let x := s.rd Reg.esrStack * 100
  (s.stackJudge (decide (lim < x)) (decide (x < lim))).bump Reg.esrPulses

/-- ESR_PULSE (R214): the results of the pulse that this N2 window's ticks have planned and drawn (`State.tickN2`), from the taps'
readings at its steps, STACK_S's, and the measured current; a current within 15 % of its set current is a pass of the self-test (R236). -/
def execEsrPulse (before after : List Nat) (st0 st1 ma : Nat) (s : State) : Host.Outcome State Fault Refusal :=
  if s.sup.main && s.sup.running && s.lad.pulse = 3 then
    let s := { s with lad := { s.lad with pulse := 0 } }.esrResult before after st0 st1 ma
    .next (if within15 ma (s.hrd Reg.esrPulseI) then s.huPass else s)
  else .next s

/-- How a member's charge slot stands in this cycle (R167): 0 not yet, 1 arrived, 2 arrived because the stagger reference has
not come. -/
def State.chargeSlot (s : State) : Nat :=
  let d := s.cas.dampCyc
  let c := s.clk.cyc
  let k := s.node
  let own := (k - 1) * cyclesOf (s.rd Reg.chgStagger)
  let wait := d + cyclesOf (s.rd Reg.chgWait)
  if k = 1 then 1
  else if c < 16 then 0
  else match s.cas.stagger with
    | some r => if r ≤ wait then (if max d (r + own) ≤ c then 1 else 0) else (if wait + own ≤ c then 2 else 0)
    | none =>
      if (s.member 0).heard then (if wait + own ≤ c then 2 else 0)
      else if max d 16 ≤ c then 1 else 0

/-- Charging is permitted and CHARGE begins (R167). -/
def State.permitCharge (s : State) : State := { (s.wr Reg.startStep Step.charge) with lad := { s.lad with permit := true } }

/-- DAMP completes (R167, R449, Table SU-1): node 1 sends the stagger reference; charging is permitted at once where the ladle is
at or above reserve or the slot has come, else CHARGE_WAIT begins. -/
def State.dampDone (s : State) : State :=
  let s := { s with lad := { s.lad with damped := true }, cas := { s.cas with dampCyc := s.clk.cyc } }
  let s := if s.master then s.queueCan 4 ([1, 0, 0, 0, 0, 0, 0, 0] ++ leBytes 6 s.stamp ++ [0, 0]) else s
  if 0 ≤ s.rdI Reg.ladleAvail then s.permitCharge
  else if s.chargeSlot ≠ 0 then (s.iff (s.chargeSlot = 2) (·.flag Reg.startFlags 6)).permitCharge
  else (s.wr Reg.startStep Step.chargeWait).flag Reg.startFlags 4

/-- The damp check's verdict in start (R166, R221). -/
def State.dampVerdict (s : State) : State :=
  let retest := s.lad.dampFailed
  let s := s.iff retest (·.bump Reg.dampCount)
  match s.dampTap with
  | none => s.dampDone
  | some k =>
    let s := if retest then s else s.flag Reg.startFlags 3
    let s := (s.bump Reg.dampFails).event 0x2105 k (if retest then 2 else 1) (s.rd Reg.dampCount)
    let s := { s with lad := { s.lad with dampFailed := true, dampAt := s.tick + s.rd Reg.dampInterval } }
    if s.rd Reg.dampRetests ≤ s.rd Reg.dampCount then s.stopStart 2 else s

/-- The test that began with this N1 window has been driven and measured to its end, 79 ticks on (R219). -/
def State.n1Ended (s : State) : Bool := s.sup.main && s.sup.running && 79 ≤ s.windowPos 43008

/-- TAP_RESPONSE_TEST (R219-R221): the responses of taps 0 to N and of STACK_S, in mV, of the test that began with this N1 window
(`State.tickN1`). In start they are the damp check's where that is due. -/
def execTapResponseTest (resp : List Nat) (stack : Nat) (s : State) : Host.Outcome State Fault Refusal :=
  if s.n1Ended && s.lad.n1 = 1 then
    let damp := s.dampDue
    let s := { s with lad := { s.lad with n1 := 0 } }.judgeTaps resp stack
    let s := (s.hwr Reg.chgSetpoint s.setpointNow).reckon
    .next (if damp then s.dampVerdict else s).reportTest
  else .next s

/-- DAMP_LEARN (R222): the responses of the learning run of this N1 window, a test like every other (R221): where all are within 50 to
150 % of 100 microamps times TAP_R each is stored as TAP_REF, else none. -/
def execDampLearn (resp : List Nat) (stack : Nat) (s : State) : Host.Outcome State Fault Refusal :=
  if s.n1Ended && s.lad.n1 = 2 then
    let s := { s with lad := { s.lad with n1 := 0, learn := false } }.judgeTaps resp stack
    let s := (s.hwr Reg.chgSetpoint s.setpointNow).reckon
    let r := fun (k : Nat) => if k = stackTap then stack else resp.getD k 0
    let taps := s.tapList ++ [stackTap]
    let nominal := s.rd Reg.tapR
    if taps.all (fun k => decide (5 * nominal ≤ 100 * r k ∧ 100 * r k ≤ 15 * nominal)) then
      .next ((s.each taps (fun k s => s.wr (Reg.tapRef k) (r k))).wr Reg.dampLearn 1)
    else .next (s.wr Reg.dampLearn 2)
  else .next s

end Sys2Proof.Machine
end

