-- ==== Sys2Proof/Machine/Cascade.lean ====
section
/-! DEFINITION. The cascade's commands (spec/17_cascade.md R432-R463). A received frame's operands are the node field of its
identifier and its payload. -/
namespace Sys2Proof.Machine

/-- Payload bytes as numbers. -/
def byteList (p : List Byte) : List Nat := p.map (·.toNat)

/-! ### Sending (R170, R437, R452, R443, R450) -/

/-- BOOT_ANNOUNCEMENT (R170): once per boot, from cycle 10 on. -/
def execBootAnnouncement (s : State) : Host.Outcome State Fault Refusal :=
  if s.canQueues && !s.cas.announced then .next { (s.queueCan 1 []) with cas := { (s.queueCan 1 []).cas with announced := true } }
  else .next s

/-- HEARTBEAT_TX (R437): the first tick of a cycle at this node's offset in HB_PERIOD. -/
def execHeartbeatTx (s : State) : Host.Outcome State Fault Refusal :=
  let p := cyclesOf (s.rd Reg.hbPeriod)
  if s.canQueues && s.clk.tic = 0 && dueCycle s.clk.cyc p ((s.node - 1) * p / 64) then .next (s.queueCan 3 []) else .next s

/-- STAMP_SYNC_TX (R452): node 1 at half the period. -/
def execStampSyncTx (s : State) : Host.Outcome State Fault Refusal :=
  let p := cyclesOf (s.rd Reg.hbPeriod)
  if s.canQueues && s.master && s.clk.tic = 0 && dueCycle s.clk.cyc p (p / 2) then
    .next (s.queueCan 7 (leBytes 6 s.stamp ++ [s.rd Reg.tbState] ++ List.replicate 9 0))
  else .next s

/-- Frames of a kind that have waited 2048 ticks are abandoned. -/
def State.abandonCan (s : State) (c : CanTx → Bool) : State :=
  { s with cas := { s.cas with txq := s.cas.txq.filter (fun f => !(c f && decide (f.at_ + 2048 ≤ s.tick))) } }

/-- POUR_COMMAND_ABANDON (R443). -/
def execPourCommandAbandon (s : State) : Host.Outcome State Fault Refusal := .next (s.abandonCan (fun f => f.fn = 0))

/-- HEAT_BROADCAST_ABANDON (R450). -/
def execHeatBroadcastAbandon (s : State) : Host.Outcome State Fault Refusal :=
  .next (s.abandonCan (fun f => f.fn = 4 && f.payload.getD 0 0 = 2))

/-! ### Receiving (R435-R459) -/

/-- Run a received frame's contents where its checks let it through (Table CA-7). -/
def State.onCas (s : State) (fn node : Nat) (p : List Nat) (dirty : Bool) (f : State → State) : State :=
  let r := s.casCheck fn node p dirty
  if r.2 then f r.1 else r.1

/-- Node 1's entry for a member takes a frame's values; M_LAST_HEARD is this tick's stamp (Table CA-10). -/
def State.heardAt (s : State) (k : Nat) (sets : List (Nat × Nat)) : State :=
  s.table (fun s => (s.wr (Reg.mLastHeard k) s.stamp).each sets (fun e s => s.wr e.1 e.2))

/-- A member is heard (R439); hearing node 1 sets its flag of START_FLAGS (R167). -/
def State.markHeard (s : State) (k : Nat) (m : Member) : State :=
  let s := s.setMember k { m with heard := true }
  let s := s.table (fun s => if s.rd (Reg.mState k) = 0 then s.wr (Reg.mState k) 2 else s)
  s.iff (k = 0) (fun s => (s.flag Reg.startFlags 5).refreshMaster)

/-- HEARTBEAT_RX (R438, R439, R453). -/
def execHeartbeatRx (node : Fin 128) (payload : List Byte) (s : State) : Host.Outcome State Fault Refusal :=
  let p := byteList payload
  let k := node.val - 1
  .next (s.onCas 3 node.val p (anySet p [26, 27]) (fun s =>
    let m := s.member k
    let s := s.markHeard k { m with hbAt := s.tick + 1, period := 16 * p.getD 6 0, ready := (p.getD 2 0).testBit 2
                                    group := p.getD 4 0, weight := p.getD 5 0, peak := field p 8 4
                                    guarding := (p.getD 0 0).testBit 1 }
    let s := (s.memberBack k).offerHeat (field p 12 4)
    let s := s.heardAt k [(Reg.mState k, 1), (Reg.mActivity k, field p 0 2), (Reg.mFlags k, p.getD 2 0),
      (Reg.mStartStep k, p.getD 3 0), (Reg.mHeatLast k, field p 12 4), (Reg.mFwVersion k, field p 28 4),
      (Reg.mHuGroup k, p.getD 4 0), (Reg.mHuWeight k, p.getD 5 0), (Reg.mLoadPeak k, field p 8 4)]
    s.iff s.master (fun s => s.pairStamp (field p 20 6))))

/-- BOOT_ANNOUNCEMENT_RX (R436, R439). -/
def execBootAnnouncementRx (node : Fin 128) (payload : List Byte) (s : State) : Host.Outcome State Fault Refusal :=
  let p := byteList payload
  let k := node.val - 1
  .next (s.onCas 1 node.val p (anySet p ((List.range 9).map (· + 23))) (fun s =>
    ((s.markHeard k (s.member k)).offerHeat (field p 8 4)).heardAt k
      [(Reg.mBoots k, s.rd (Reg.mBoots k) + 1), (Reg.mSerial k, field p 32 16), (Reg.mHeatLast k, field p 8 4),
       (Reg.mFwVersion k, field p 4 4)]))

/-- MEMBER_ABSENT (R439, R459): no heartbeat of a member for 3 of its periods, or it is quarantined. -/
def execMemberAbsent (k : NodeIx) (s : State) : Host.Outcome State Fault Refusal :=
  if s.sup.running && !s.memberHere k then .next (s.memberGone k) else .next s

/-- A pour command's contents (R444, R448). -/
def State.pourCmdRx (s : State) (node : Nat) (p : List Nat) : State :=
  let kind := p.getD 0 0
  if kind ≠ 1 && kind ≠ 2 then s.casViolation node
  else
    let s := (s.offerHeat (field p 10 4)).heardAt (node - 1) [(Reg.mHeatLast (node - 1), field p 10 4)]
    if kind = 1 then
      if s.rd Reg.cmdInEn = 1 then ((s.bump Reg.pourCmdsRx).flag Reg.casFlags 1).trigger 7 else s
    else if s.rd Reg.faultInEn = 1 then ((s.bump Reg.faultRelayRx).flag Reg.casFlags 9).trigger 5 else s

/-- A pour command with a reserved byte set (Table CA-5): kind 2 leaves the triggers at 0. -/
def pourCmdDirty (p : List Nat) : Bool := anySet p (if p.getD 0 0 = 2 then [2, 3, 14, 15] else [14, 15])

/-- POUR_COMMAND_RX (R444): a function 0 frame completes; kind 1 is the cascade pour command. -/
def execPourCommandRx (node : Fin 128) (payload : List Byte) (s : State) : Host.Outcome State Fault Refusal :=
  .next (s.onCas 0 node.val (byteList payload) (pourCmdDirty (byteList payload)) (fun s => s.pourCmdRx node.val (byteList payload)))

/-- FAULT_RELAY_RX (R448): a function 0 frame completes; kind 2 is taken as FAULT# held low. -/
def execFaultRelayRx (node : Fin 128) (payload : List Byte) (s : State) : Host.Outcome State Fault Refusal :=
  .next (s.onCas 0 node.val (byteList payload) (pourCmdDirty (byteList payload)) (fun s => s.pourCmdRx node.val (byteList payload)))

/-- A cascade broadcast's contents (R449, R451). -/
def State.broadcastRx (s : State) (node : Nat) (p : List Nat) : State :=
  let kind := p.getD 0 0
  if kind ≠ 1 && kind ≠ 2 then s.casViolation node
  else
    let s := s.heardAt (node - 1) []
    if kind = 1 then
      if s.phase = .start && s.node ≠ 1 && !s.lad.permit then { s with cas := { s.cas with stagger := some s.clk.cyc } } else s
    else if s.node ≠ 1 then { s with cas := { s.cas with heat := some (field p 4 4, s.tick) } }
    else s

/-- A broadcast with a reserved byte set, by its kind (Table CA-6). -/
def broadcastDirty (p : List Nat) : Bool := anySet p (if p.getD 0 0 = 1 then [1, 2, 3, 4, 5, 6, 7, 14, 15] else [1, 2, 3, 15])

/-- STAGGER_REFERENCE_RX (R449): a function 4 frame; kind 1 fixes the cycle of the charge stagger. -/
def execStaggerReferenceRx (node : Fin 128) (payload : List Byte) (s : State) : Host.Outcome State Fault Refusal :=
  let p := byteList payload
  .next (s.onCas 4 node.val p (broadcastDirty p) (fun s => s.broadcastRx node.val p))

/-- HEAT_ASSIGNMENT_RX (R451): a function 4 frame; kind 2 carries the heat number of a pour. -/
def execHeatAssignmentRx (node : Fin 128) (payload : List Byte) (s : State) : Host.Outcome State Fault Refusal :=
  let p := byteList payload
  .next (s.onCas 4 node.val p (broadcastDirty p) (fun s => s.broadcastRx node.val p))

/-- STAMP_SYNC_RX (R453). -/
def execStampSyncRx (node : Fin 128) (payload : List Byte) (s : State) : Host.Outcome State Fault Refusal :=
  let p := byteList payload
  .next (s.onCas 7 node.val p (anySet p ((List.range 9).map (· + 7))) (fun s =>
    if s.node = 1 then s else (s.pairStamp (field p 0 6)).bump Reg.stampSyncRx))

/-- A received event record as a member entry: bytes 1-59 as they came (R467). -/
def memberEntry (p : List Nat) : LogRec :=
  let f := p.getD 1 0
  { kind := 2, tb := f % 8, atOnce := f.testBit 3, cold := f.testBit 4, held := f.testBit 5, dropped := f.testBit 6
    code := field p 2 2, seq := field p 4 4, stamp := field p 8 6, sev := p.getD 14 0, node := p.getD 15 0
    boot := field p 16 4, obj := p.getD 20 0, detail := p.getD 21 0, a := field p 24 4, b := field p 28 4
    ext := (p.drop 1).take 59 }

/-- An event record with a reserved byte or bit set (Table EV-1): an erase record carries Table IS-10 in bytes 20 to 35. -/
def eventDirty (p : List Nat) : Bool :=
  (p.getD 1 0).testBit 7
    || anySet p (if field p 2 2 = 0x4101 || field p 2 2 = 0x4102 then (List.range 26).map (· + 34)
        else [22, 23] ++ (List.range 28).map (· + 32))

/-- Queue a member entry, or drop it (R456, R470). -/
def State.enqueueMember (s : State) (r : LogRec) : State :=
  if s.queueTakes r.sev then { s with log := { s.log with queue := s.log.queue ++ [r] } } else s.dropRecord

/-- EVENT_FRAME_RX (R456, Table CA-7): node 1 appends the record; a gap in the member's sequence is counted. -/
def execEventFrameRx (node : Fin 128) (payload : List Byte) (s : State) : Host.Outcome State Fault Refusal :=
  let p := byteList payload
  let k := node.val - 1
  .next (s.onCas 2 node.val p (eventDirty p) (fun s =>
    if crc16 (p.take 62) ≠ field p 62 2 then s.casViolation node.val
    else if !s.master then s
    else
      let q := field p 4 4
      let m := s.member k
      let gap := if m.evSeq = 0 then 0 else (q + 2 ^ 32 - m.evSeq % 2 ^ 32) % 2 ^ 32
      let s := s.setMember k { m with evSeq := q + 1 }
      (s.heardAt k [(Reg.mEventSeq k, q), (Reg.mMissedEvents k, s.rd (Reg.mMissedEvents k) + gap)]).enqueueMember (memberEntry p)))

/-! ### POUR# and the bus (R442, R445-R447) -/

/-- POUR_PULSE_END (R442): the pulse has run, of a line that the interface has taken over (R99); the line is released and 16 ticks are not counted. -/
def execPourPulseEnd (s : State) : Host.Outcome State Fault Refusal :=
  if s.taken && s.pads.pour && s.cas.pulseEnd ≤ s.tick then
    .next { s with pads := { s.pads with pour := false }, cas := { s.cas with quiet := 16 } }
  else .next s

/-- POUR_IN_TRIGGER (R445): the armed input has read low for POUR_IN_FILTER ticks. -/
def execPourInTrigger (s : State) : Host.Outcome State Fault Refusal :=
  if s.taken && s.sup.running && s.cas.armed && !s.cas.stuck && s.rd Reg.pourInEn = 1
      && s.rd Reg.pourInFilter ≤ s.run rcPourLow then
    .next (({ s with cas := { s.cas with armed := false } }.bump Reg.pourInCount).trigger 6)
  else .next s

/-- POUR_STUCK (R446): POUR# has read low, not driven by this member, for 2560 ticks. -/
def execPourStuck (s : State) : Host.Outcome State Fault Refusal :=
  if s.taken && s.sup.running && !s.cas.stuck && 2560 ≤ s.run rcPourStuck then
    let s := { s with cas := { s.cas with stuck := true, armed := false } }
    .next ((((s.wr Reg.pourLineState 3).bump Reg.pourStuckCount).flag Reg.casFlags 2).event 0x5004 0xFF 1)
  else .next s

/-- BUS_DOMINANT (R447). -/
def execBusDominant (s : State) : Host.Outcome State Fault Refusal :=
  if s.canOn && !s.cas.dominant then
    let s := { s with cas := { s.cas with dominant := true, dominantSince := true } }.refreshBus
    .next (((s.bump Reg.canDominantEpisodes).flag Reg.casFlags 3).event 0x5005 0xFF 1)
  else .next s

/-- BUS_DOMINANT_END (R447). -/
def execBusDominantEnd (s : State) : Host.Outcome State Fault Refusal :=
  if s.cas.dominant then .next ({ s with cas := { s.cas with dominant := false } }.refreshBus.event 0x5005 0xFF 0) else .next s

/-- BUS_OFF (R447, ISO 11898-1). -/
def execBusOff (s : State) : Host.Outcome State Fault Refusal :=
  if s.canOn && !s.cas.busOff then
    let s := { s with cas := { s.cas with busOff := true } }.refreshBus
    .next (((s.bump Reg.busOffCount).flag Reg.casFlags 4).event 0x5007 0xFF 1)
  else .next s

/-- BUS_OFF_RECOVERY (R447). -/
def execBusOffRecovery (s : State) : Host.Outcome State Fault Refusal :=
  if s.cas.busOff then .next ({ s with cas := { s.cas with busOff := false } }.refreshBus.event 0x5007 0xFF 0) else .next s

/-! ### Firmware distribution (R460-R462; log entry 40) -/

/-- The steps of a distribution at a member: what node 1 has asked of it and awaits. -/
inductive DistStep where
  | unlock | erase | erased | write | readBack | digest | verify | verified | activate | lock | restart | guard
  deriving DecidableEq, Repr

/-- The step a number stands for. -/
def distStep (n : Nat) : DistStep :=
  [DistStep.unlock, .erase, .erased, .write, .readBack, .digest, .verify, .verified, .activate, .lock, .restart, .guard].getD n .guard

/-- Node 1 takes the next member of the mask (R461 step 1); one that is not present is skipped with result 3. With none left the
distribution is done. -/
def State.distNext : Nat → State → State
  | 0, s => s
  | n + 1, s =>
    match s.cas.dist with
    | none => s
    | some d =>
      match d.todo with
      | [] => { ((s.wr Reg.fwDist 2).wr Reg.fwDistNode 0) with cas := { s.cas with dist := none } }
      | k :: rest =>
        if s.memberHere (k - 1) then
          { (s.wr Reg.fwDistNode k) with cas := { s.cas with dist := some { todo := rest, node := k, step := 0, addr := 0 } } }
        else
          State.distNext n { (s.wr (Reg.fwDistResult ((k - 1) % 64)) 3) with cas := { s.cas with dist := some { d with todo := rest } } }

/-- The member served has its result; the next one is taken. -/
def State.distResult (s : State) (d : Dist) (result : Nat) : State :=
  let s := s.wr (Reg.fwDistResult ((d.node - 1) % 64)) result
  State.distNext 65 { s with cas := { s.cas with dist := some { d with node := 0 } } }

/-- Move to a step. -/
def State.distGo (s : State) (d : Dist) (step addr : Nat) : State :=
  { s with cas := { s.cas with dist := some { d with step := step, addr := addr, since := s.clk.cyc } } }

/-- A member's answer that is no abort (R461): the value or bytes read. -/
def State.distAnswer (s : State) (d : Dist) (data : List Nat) : State :=
  let slot := s.inactiveSlot
  let l := s.imageLen slot
  let v := leValue data
  match distStep d.step with
  | .unlock => s.distGo d 1 0
  | .erase => s.distGo d 2 0
  | .erased => if v = 2 then s.distGo d 3 0 else if v = 1 then s else s.distResult d 5
  | .write => if l ≤ d.addr + 8192 then s.distGo d 4 0 else s.distGo d 3 (d.addr + 8192)
  | .readBack =>
    if data ≠ s.codeBytes (slot * bankSize + d.addr) data.length then s.distResult d 6
    else if l ≤ d.addr + data.length then s.distGo d 5 0 else s.distGo d 4 (d.addr + data.length)
  | .digest => s.distGo d 6 0
  | .verify => s.distGo d 7 0
  | .verified => if v = 1 then s.distGo d 8 0 else if v = 0 then s else s.distResult d 7
  | .activate => s.distGo d 9 0
  | .lock => if s.rd Reg.fwDistRestart = 0 then s.distResult d 1 else s.distGo d 10 0
  | .restart => (s.setMember (d.node - 1) { s.member (d.node - 1) with guarding := false }).distGo d 11 0
  | .guard => if (s.member (d.node - 1)).guarding then s.distResult d 2 else s

/-- FW_DIST_STEP (R461, R462): the response that node 1 awaits from the member it serves has come: an abort (0 for none) and the
data read; in the last step, the member's heartbeat that reports guard. -/
def execFwDistStep (abort : BitVec 32) (data : List Byte) (s : State) : Host.Outcome State Fault Refusal :=
  match s.cas.dist with
  | none => .next s
  | some d =>
    let a := abort.toNat / 65536
    if d.node = 0 then .next s
    else if d.step = 11 || a = 0 then .next (s.distAnswer d (byteList data))
    else if a = 0x0402 || a = 0x0403 then .next (s.stopDist 8 4)
    else if d.step = 0 then .next (s.distResult d 4)
    else .next (s.distResult d 5)

/-- FW_DIST_GUARD_TIMEOUT (R461): a restarted member has not reported guard within 4096 cycles. -/
def execFwDistGuardTimeout (s : State) : Host.Outcome State Fault Refusal :=
  match s.cas.dist with
  | none => .next s
  | some d => if d.step = 11 && d.since + 4096 ≤ s.clk.cyc then .next (s.stopDist 9 4) else .next s

end Sys2Proof.Machine
end

