-- ==== Sys2Proof/Machine/Flash.lean ====
section
/-! DEFINITION. The on-chip flash's commands (spec/16_onchip_flash.md R404-R431). -/
namespace Sys2Proof.Machine

/-- A commit's next own erase starts (R410 step 1) where no other erase runs; from the first one on its bank holds no valid copy. -/
def State.commitErase (s : State) (bank : Nat) : State :=
  match s.fla.left with
  | [] => s
  | _ :: rest =>
    if s.fla.nested.isSome || s.dataErasing 0 || s.dataErasing 1 then s
    else { (s.setCopy bank .torn) with fla := { (s.setCopy bank .torn).fla with nested := some bank, left := rest, begun := true } }

/-- DF_ERASE_START (R410, R418): a running commit's next own erase starts, nested where another is suspended; with no commit the next
queued erase starts, outside a pour and cold read, with none running or suspended. -/
def execDfEraseStart (s : State) : Host.Outcome State Fault Refusal :=
  match s.svc.commit with
  | some (bank, _) => .next (s.commitErase bank)
  | none =>
    match s.fla.queue with
    | [] => .next s
    | (b, c) :: q =>
      if s.sup.running && s.loaded && !s.coldRead && (s.phase = .start || s.phase = .guard || s.phase = .rest)
          && s.fla.erase.isNone && s.fla.nested.isNone then
        .next { s with fla := { s.fla with queue := q, erase := some { bank := b, sector := c } } }
      else .next s

/-- DF_ERASE_SUSPEND (R406, R410): a commit needs the bank; the erase has run 1 ms since its start or last resume, by the memory timer
of the logic die's oscillator (R154), whose end the command is. -/
def execDfEraseSuspend (s : State) : Host.Outcome State Fault Refusal :=
  match s.fla.erase with
  | none => .next s
  | some e =>
    if !e.suspended && s.svc.commit.isSome then
      .next ({ s with fla := { s.fla with erase := some { e with suspended := true } } }.bump Reg.dfSuspends)
    else .next s

/-- A commit's own erase has ended (R406, R410): where it has failed its sector is erased once more, and where the commit has been
abandoned meanwhile the erase it suspended resumes, but not in a pour (R418). -/
def State.commitErased (s : State) (ok : Bool) : State :=
  let s := { s with fla := { s.fla with nested := none, left := if ok || s.svc.commit.isNone then s.fla.left else 0 :: s.fla.left } }
  let s := (s.bump Reg.dataErases).iff (s.svc.commit.isNone && !s.pouring) State.resumeDf
  if s.log.wanted then s.flushLog else s

/-- DF_ERASE_DONE (R406): the erase that runs ends, well or not: a commit's own one, else the queued one; its sector reads blank, or
is queued again. -/
def execDfEraseDone (ok : Bool) (s : State) : Host.Outcome State Fault Refusal :=
  if s.fla.nested.isSome then .next (s.commitErased ok)
  else
    match s.fla.erase with
    | none => .next s
    | some e =>
      if e.suspended then .next s
      else
        let s := { s with fla := { s.fla with erase := none } }.bump Reg.dataErases
        let s := if ok then s.blankSector e.bank e.sector else (s.tearSector e.bank e.sector).queueErase e.bank e.sector
        .next (if s.log.wanted then s.flushLog else s)

/-- FW_ERASE_DONE (R422): every sector of the slot is erased and blank-checked, or one has failed; how many erases that took is then
open (log entry 94). -/
def execFwEraseDone (ok : Bool) (s : State) : Host.Outcome State Fault Refusal :=
  if s.rd Reg.fwState ≠ 1 then .next s
  else
    let slot := s.inactiveSlot
    let s := s.dropSlot slot
    if ok then
      let s := s.bumpBy Reg.codeErases 256
      let s := { s with fw := { s.fw with cut := if s.fw.cut = some slot then none else s.fw.cut } }
      .next (((s.wr Reg.fwState 2).wr Reg.fwCmd 2).wr Reg.fwProgress 256)
    else
      let s := (s.bumpBy Reg.codeErases (s.freeVal % 256 + 1)).freeNext
      .next ({ s with fw := { s.fw with cut := some slot } }.fwFail 3 0)

/-- The verify's result (R424): header, digest, body hash, signature, rollback, blank beyond L. -/
def State.verifyResult (s : State) : Nat :=
  let slot := s.inactiveSlot
  let base := slot * bankSize
  let l := s.imageLen slot
  let why := s.slotFault slot
  if why = 3 then 3
  else if leBytes 32 (s.rd Reg.fwVerifyDigest) ≠ sha256 (s.codeBytes base l) then 2
  else if why ≠ 0 then why
  else if s.fw.code.any (fun e => decide (base + l ≤ e.1 * 8 ∧ e.1 * 8 < base + bankSize)) then 7
  else 1

/-- FW_VERIFY_DONE (R424): VERIFIED with the slot's execute-only bounds in force, or FAILED with the result. -/
def execFwVerifyDone (s : State) : Host.Outcome State Fault Refusal :=
  if !s.fw.verifying then .next s
  else
    let slot := s.inactiveSlot
    let r := s.verifyResult
    let s := { s with fw := { s.fw with verifying := false } }.wr Reg.fwVerifyResult r
    if r = 1 then .next (((s.wr Reg.fwState 4).wr Reg.fwCmd 2).setXo slot (s.hdr slot 24 2, s.hdr slot 26 2))
    else .next (s.fwFail 2 r)

/-- DEBUG_PASSWORD_ENTRY (R431, R64): a password at a closed debug port opens it until the next power-on reset, or counts. -/
def execDebugPasswordEntry (password : BitVec 64) (s : State) : Host.Outcome State Fault Refusal :=
  let p := s.prot
  if !(s.sup.running && p.debugClosed && p.password ≠ 0 && !s.fw.debugOpen) || s.svc.attempts = 0 then .next s
  else if password.toNat = p.password then
    let s := { s with fw := { s.fw with debugOpen := true }, svc := { s.svc with attempts := 8 } }
    .next ((s.wr Reg.pwAttemptsLeft 8).refreshProt.event 0x4206)
  else
    let n := s.svc.attempts - 1
    let s := { s with svc := { s.svc with attempts := n } }.wr Reg.pwAttemptsLeft n
    .next (if n = 0 then (s.flag Reg.serviceFlags 4).event 0x1105 0xFF else s)

/-- Whether the debug port is open (R431). -/
def State.debugPort (s : State) : Bool := !s.prot.debugClosed || s.prot.password = 0 || s.fw.debugOpen

/-- DEBUG_HALT (R431, R20, R21): the open port halts the core; watchdog and heartbeat stand still. -/
def execDebugHalt (s : State) : Host.Outcome State Fault Refusal :=
  if s.sup.running && s.debugPort then .next { s with bar := { s.bar with halted := true } } else .next s

/-- DEBUG_RESUME (R431): the core runs again. -/
def execDebugResume (s : State) : Host.Outcome State Fault Refusal :=
  .next { s with bar := { s.bar with halted := false } }

end Sys2Proof.Machine
end

