-- ==== Sys2Proof/Machine/StoreScan.lean ====
section
/-! DEFINITION. Erase records and the start-up scan of the image store (spec/15_image_store.md R392, R396-R400): settling
intents, closing rows, rebuilding the streams, the recovered seal. -/
namespace Sys2Proof.Machine

/-! ### Erase records (Table IS-10) -/

/-- The sixteen bytes of an erase record. -/
def eraseExt (pos b count reason outcome row : Nat) : List Nat :=
  [dieOf pos, planeOf pos] ++ leBytes 2 b ++ leBytes 4 count ++ [reason, outcome] ++ leBytes 4 row ++ [0, 0]

/-- An erase-intent record (event 0x4101). -/
def State.eraseIntent (s : State) (k count reason row : Nat) : State :=
  s.eventSev 0 0x4101 0 0 0 0 (eraseExt (k / 1024) (k % 1024) count reason 0xFF row)

/-- An erase-completion record (event 0x4102): a fault where its outcome is not 0. -/
def State.eraseCompletion (s : State) (k count reason outcome row : Nat) : State :=
  s.eventSev (if outcome = 0 then 0 else 2) 0x4102 0 0 0 0 (eraseExt (k / 1024) (k % 1024) count reason outcome row)

/-- A block's erase has ended (R392): outcome 0 pass, 1 erase failure, 2 blank check failed; a block that failed is grown bad. -/
def State.settleErase (s : State) (k count reason outcome : Nat) : State :=
  let b := s.blk k
  let s := (s.bump Reg.erases).eraseCompletion k count reason outcome b.lastRow
  if outcome = 0 then s.setBlk k { b with erases := count, pages := [], garbage := false }
  else
    let s := s.setBlk k { b with erases := count, garbage := true }
    ((s.bump Reg.eraseFails).flag Reg.isFlags 2).growBad k

/-- Erase records of the ring in LOG_INDEX order: block key, count, reason, outcome. -/
def State.eraseRecs (s : State) : List (Nat × Nat × Nat × Nat) :=
  let later := fun (a b : Half) => decide (0 < (b - a).toNat ∧ (b - a).toNat < 2 ^ 15)
  let ins := fun (x : Half × LogRec) (l : List (Half × LogRec)) =>
    l.takeWhile (fun y => !later x.1 y.1) ++ [x] ++ l.dropWhile (fun y => !later x.1 y.1)
  let l := s.log.ring.filterMap (fun e => match e.2 with
    | .valid r i => if r.kind = 1 && (r.code = 0x4101 || r.code = 0x4102) then some (i, r) else none
    | _ => none)
  (l.foldl (fun acc x => ins x acc) []).map (fun x =>
    let e := x.2.ext
    (blkKey (4 * e.getD 1 0 + e.getD 0 0) (leValue ((e.drop 2).take 2)), leValue ((e.drop 4).take 4), e.getD 8 0, e.getD 9 0))

/-- Blocks whose last erase record is an intent, with the count it names (R396 step 2). -/
def State.unsettled (s : State) : Table Nat :=
  s.eraseRecs.foldl (fun t e => if e.2.2.2 = 0xFF then tput t e.1 e.2.1 else terase t e.1) []

/-- One unsettled block is blank-checked, erased again and recorded (R397). -/
def State.reErase (s : State) (half : Bool) (outcome k count : Nat) : State :=
  let s := s.iff half (·.bump Reg.halfErased)
  let s := ((s.bump Reg.reerases).flag Reg.isFlags 0).event 0x4106 (dieOf (k / 1024)) (planeOf (k / 1024)) (k % 1024)
  s.settleErase k (count + 1) 2 outcome

/-! ### Rows without summaries (R396 steps 4 and 6) -/

/-- The row sequences found in the log, in log order. -/
def State.rowsFound (s : State) : List Nat := (s.logPages.map (·.row)).eraseDups

/-- The blocks of a row that hold pages of it and are not bad, as keys. -/
def State.rowBlocks (s : State) (row : Nat) : List Nat :=
  (s.sto.nand.filter (fun e => !e.2.garbage && e.2.pages.any (fun p => p.kind ≠ 5 && p.row = row) && !s.isBad e.1)).map (·.1)

/-- A block that holds a page of an index. -/
def Blk.hasPage (b : Blk) (i : Nat) : Bool := b.pages.any (fun p => p.page = i && p.kind ≠ 5)

/-- Land a page the scan programs, at the next PAGE_SEQ. -/
def State.scanPage (s : State) (p : Page) : State :=
  let q := s.rd Reg.pageSeqNext
  ((s.landPage { p with seq := q } false).wr Reg.pageSeqNext (q + 1)).bump Reg.pagesProgrammed

/-- Close a row: pad pages to page 62, then the summaries with close reason 2. -/
def State.closeFound (s : State) (row : Nat) : State :=
  let ks := (s.rowBlocks row).filter (fun k => !(s.blk k).hasPage 63)
  if ks.isEmpty then s
  else
    let mask := ((s.rowBlocks row).map (fun k => 2 ^ (k / 1024))).sum
    let s := s.each (List.range 63) (fun i s => s.each ks (fun k s =>
      if (s.blk k).hasPage i then s
      else s.scanPage { row := row, page := i, pos := k / 1024, block := k % 1024, kind := 3, stamp := s.stamp, mask := mask,
                        ents := [{ kind := 4, slot := slotBase i, count := 30 - slotBase i }], used := 30, ready := true }))
    (s.each ks (fun k s => s.scanPage (s.summaryPage row (k / 1024) (k % 1024) mask 0 2))).bump Reg.rowsClosedAtStart

/-! ### Streams (R398) -/

/-- A summary record as a seal's values, with its seal page. -/
def SumRec.asSeal (r : SumRec) : Nat × Seal :=
  (r.sealPage, { heat := r.heat, localHeat := r.flags.testBit 0, recovered := r.flags.testBit 1, cause := r.cause
                 triggers := r.triggers, accept := r.accept, stamp := r.stamp, maskRec := r.maskRec
                 maskEpoch := r.maskEpoch, maskDross := r.maskDross, drainEnd := r.drainEnd, rows := r.streams })

/-- Seals of the log and casting summaries with their PAGE_SEQ, newest first. -/
def State.castSources (s : State) : List (Nat × Seal) :=
  let l := s.logSeals ++ (s.sumRecs.filter (fun r => r.kind = 1)).map SumRec.asSeal
  let ins := fun (x : Nat × Seal) (l : List (Nat × Seal)) =>
    l.takeWhile (fun y => x.1 ≤ y.1) ++ [x] ++ l.dropWhile (fun y => x.1 ≤ y.1)
  l.foldl (fun acc x => ins x acc) []

/-- The latest epoch of a stream found in a retirement mark, a summary or a seal (R398). -/
def State.retireFound (s : State) (st : Nat) : Option Nat :=
  let marks := s.logPages.flatMap (fun p => (p.ents.filter (fun e => e.kind = 3 && e.stream = st)).map (·.epoch))
  let sums := s.logPages.flatMap (fun p => (p.ents.filter (fun e => e.kind = 5)).map (fun e =>
    leValue ((e.bytes.drop (24 + 28 * st + 20)).take 4)))
  let casts := s.castSources.map (fun x => x.2.retired st)
  let l := marks ++ (sums ++ casts).filter (fun e => e ≠ 0)
  l.foldl (fun acc e => match acc with
    | none => some e
    | some a => if later32 a e then some e else some a) none

/-- What the scan finds of a stream: last committed record, last complete epoch, its run and its present records. -/
structure Found where
  last : Option Nat
  complete : Option Nat
  run : List Rec
  recs : List Rec

/-- Judge a stream's present records against the seals and summaries (R398). -/
def foundOf (srcs : List (Nat × Seal)) (st : Nat) (recs : List Rec) : Found :=
  let run := unbroken recs
  let ends := (run.filter (·.closes)).map (·.epoch)
  let bySeal := fun (m : Seal → Nat) (f : Seal → Nat) =>
    (srcs.find? (fun x => (m x.2).testBit st)).map (fun x => f x.2)
  { last := match run.getLast? with
      | some r => some r.seq
      | none => bySeal (·.maskRec) (fun x => x.lastSeq st)
    complete := match ends.getLast? with
      | some e => some e
      | none => bySeal (·.maskEpoch) (fun x => x.lastEpoch st)
    run := run, recs := recs }

/-- Records of epochs after a last complete one. -/
def afterEpoch (last : Option Nat) (l : List Rec) : List Rec :=
  match last with
  | none => l
  | some e => l.filter (fun r => later32 e r.epoch)

/-- Set a stream's registers and counts from what was found (R398, R333, R363). -/
def State.loadStream (s : State) (st : Nat) (f : Found) (dross : Option Nat) : State :=
  let ret := s.retireFound st
  let open_ := afterEpoch f.complete f.run
  let has := bitIf f.last.isSome 0 + bitIf f.complete.isSome 1 + bitIf ret.isSome 2
  let s := ((s.wr (Reg.streamHas st) has).wr (Reg.lastCommit st) (f.last.getD 0)).wr (Reg.lastComplete st) (f.complete.getD 0)
  let s := (s.wr (Reg.lastRetired st) (ret.getD 0)).wr (Reg.retireDurable st) (ret.getD 0)
  let s := s.wr (Reg.nextRec st) (match f.last with | some q => (q + 1) % 2 ^ 32 | none => 0)
  let live := match ret with
    | none => f.recs
    | some e => f.recs.filter (fun r => later32 e r.epoch)
  let s := { s with
    sto := { s.sto with
      unret := live.foldl (fun l r => addUnits st r.epoch r.slots l) s.sto.unret
      retDur := s.sto.retDur ||| bitIf ret.isSome st
      tail := tset (0, 0) s.sto.tail st (open_.length, (open_.head?).elim 0 (·.epoch)) }
    ll := { s.ll with expect := s.ll.expect ||| bitIf f.last.isSome st } }
  let closedAt := fun (s : State) (e : Nat) =>
    { (s.wr (Reg.epochState st) 2) with sto := { s.sto with lastClosed := tput s.sto.lastClosed st (e + 1)
                                                            tail := tset (0, 0) s.sto.tail st (0, 0) } }
  match dross, f.run.getLast?, f.complete with
  | some e, _, _ => closedAt s e
  | none, some r, _ => if r.closes then closedAt s r.epoch else (s.wr (Reg.epochState st) 1).wr (Reg.openEpoch st) r.epoch
  | none, none, some e => closedAt s e
  | none, none, none => s.wr (Reg.epochState st) 0

/-! ### The recovered seal (R399) -/

/-- The newest pour marker: its PAGE_SEQ, stamp, cause and triggers. -/
def State.newestMarker (s : State) : Option (Nat × Nat × Nat × Nat) :=
  (s.logPages.flatMap (fun p => (p.ents.filter (fun e => e.kind = 6)).map (fun e =>
    (p.seq, leValue (e.bytes.take 6), e.bytes.getD 6 0, leValue ((e.bytes.drop 8).take 2))))).getLast?

/-- The pour of the newest marker has no seal after it (R399). -/
def State.needsSeal (s : State) : Bool :=
  match s.newestMarker, s.logSeals.getLast? with
  | some m, some x => decide (x.1 < m.1)
  | some _, none => true
  | none, _ => false

/-- A stream's row of the recovered seal: the values of R398 with every present record after the last complete epoch as
dross. -/
def State.recoveredRow (s : State) (st : Nat) : (Nat × Nat × Nat × Nat × Nat) × Nat :=
  let srcs := s.castSources
  let recs := s.present st
  let f := foundOf srcs st recs
  let dross := afterEpoch f.complete recs
  let kept := foundOf srcs st (recs.filter (fun r => !dross.contains r))
  let last := match kept.last with
    | some q => some q
    | none => f.last
  let first := dross.foldl (fun e r => if later32 r.epoch e then r.epoch else e) ((dross.head?).elim 0 (·.epoch))
  ((last.getD 0, f.complete.getD 0, dross.length, if dross.isEmpty then 0 else first, (s.retireFound st).getD 0),
    bitIf last.isSome 0 + bitIf f.complete.isSome 1 + bitIf (!dross.isEmpty) 2)

/-- Write the recovered seal on the new row's first page, and its summary with bit 1 set (R399, R416). -/
def State.recoverSeal (s : State) : State :=
  match s.newestMarker with
  | none => s
  | some (_, acc, cause, trig) =>
    let rows := allStreams.map (fun st => s.recoveredRow st)
    let heat := (s.rd Reg.heatLast + 1) % 2 ^ 32
    let x : Seal := { heat := heat, localHeat := true, recovered := true, cause := cause, triggers := trig, accept := acc
                      stamp := s.stamp, prev := s.rd Reg.lastSealPage, rows := rows.map (·.1)
                      maskRec := streamMask (fun st => (rows.getD st ((0, 0, 0, 0, 0), 0)).2.testBit 0)
                      maskEpoch := streamMask (fun st => (rows.getD st ((0, 0, 0, 0, 0), 0)).2.testBit 1)
                      maskDross := streamMask (fun st => (rows.getD st ((0, 0, 0, 0, 0), 0)).2.testBit 2) }
    let s := ((s.wr Reg.heatLast heat).wr Reg.heatLocal 1).newPage 2
    match s.curPage with
    | none => s
    | some p =>
      let page := { (p.put (itemEnt (.closing x))).pad with cast := some x }
      let s := { s with sto := { s.sto with pages := s.sto.pages.filter (fun q => q.seq ≠ p.seq) } }
      let s := ((s.landPage page false).bump Reg.pagesProgrammed).wr Reg.lastSealPage p.seq
      let s := ((s.bump Reg.recoveredSeals).flag Reg.isFlags 6).event 0x4107 0xFF 0 heat
      match s.writeSum { s.summaryRec x with stamp := x.stamp } with
      | some s' => s'
      | none => s

/-! ### The scan's end (R396-R400) -/

/-- A casting is confirmed (R417): a confirmation of its heat later than its summary. -/
def State.confirmed (s : State) (heat : Nat) : Bool :=
  let sums := s.sumRecs.filter (fun r => r.kind = 1 && r.heat = heat)
  s.sumRecs.any (fun c => c.kind = 2 && c.heat = heat && sums.all (fun r => later32 r.seq c.seq))

/-- The log's sequences (R375): the newest row, the next page. -/
def State.loadSeqs (s : State) : State :=
  let ps := s.logPages
  let top := (ps.map (·.seq)).foldl Nat.max 0
  (s.wr Reg.pageSeqNext (max (s.rd Reg.pageSeqNext) (top + 1))).wr Reg.rowSeqNow ((ps.getLast?).elim 0 (·.row))

/-- Load the newest seal: the casting, its dross, HEAT_LAST where it is later (R357, R398). -/
def State.loadCast (s : State) : State :=
  match s.logSeals.getLast? with
  | none => s
  | some (page, x) =>
    let last := s.rd Reg.heatLast
    let s := if later32 last x.heat then s.wr Reg.heatLast x.heat else s
    let s := (s.wr Reg.heatLocal (if x.localHeat then 1 else 0)).wr Reg.lastSealPage page
    let s := s.each allStreams (fun st s => (s.wr (Reg.drossRecs st) (x.drossRecs st)).wr (Reg.drossEpoch st) (x.drossEpoch st))
    { s with sto := { s.sto with cast := some x, unconfirmed := !s.confirmed x.heat } }

/-- Some present record of a stream lies after a page. -/
def State.recAfter (s : State) (st page : Nat) : Bool :=
  (s.logPages.filter (fun p => page < p.seq)).any (fun p => p.ents.any (fun e => e.kind = 1 && e.stream = st && e.last))

/-- The dross epoch a stream is CLOSED at: that of the newest seal with dross of it and no record of it after (R363, R398). -/
def State.drossAt (s : State) (st : Nat) : Option Nat :=
  (s.logSeals.reverse.find? (fun x => x.2.drossRecs st ≠ 0 && !s.recAfter st x.1)).map (fun x => x.2.drossEpoch st)

/-- Rebuild every stream and MIRRORED (R396 step 5). -/
def State.rebuild (s : State) : State :=
  let page := (s.logSeals.getLast?).elim 0 (·.1)
  let srcs := s.castSources
  let s := { s with sto := { s.sto with unret := [], tail := [], lastClosed := [], retDur := 0 } }
  let s := s.each allStreams (fun st s =>
    s.loadStream st (foundOf srcs st (s.present st)) (s.drossAt st))
  { s with sto := { s.sto with since := allStreams.any (fun st => s.recAfter st page) } }.refreshMirrored

/-- A plane without a prepared block has one prepared by the scan where it can (R400). -/
def State.prepareOne (s : State) (outcome pos : Nat) : State :=
  if (s.pickBlock pos).isSome then s
  else
    let bad := fun (k : Nat) => s.isBad k
    let c := (s.sto.nand.filter (fun e => e.1 / 1024 = pos && 2 ≤ e.1 % 1024 && e.2.garbage && !bad e.1)).map (fun e => (e.1, 4))
      ++ (s.eligibles.filter (fun e => e.1 / 1024 = pos)).map (fun e => (e.1, 1))
    match c.head? with
    | none => s
    | some (k, reason) =>
      let b := s.blk k
      (s.eraseIntent k (b.erases + 1) reason b.lastRow).settleErase k (b.erases + 1) reason outcome

/-- The store is unusable: start stops with cause 4 (R400, R165). -/
def State.unusable (s : State) (result : Nat) : State :=
  (((s.wr Reg.scanResult result).wr Reg.isState 3).event 0x410A 0xFF result).stopStart 4

/-- Damaged blocks are queued for an erase with reason 4 (R396 step 3). -/
def State.queueGarbage (s : State) : State :=
  let l := (s.sto.nand.filter (fun e => e.2.garbage && 2 ≤ e.1 % 1024 && !s.isBad e.1)).map (fun e => (e.1, 4))
  { s with sto := { s.sto with eraseQueue := l } }

/-- The scan's end (R396-R400): what the dies answer, whether every plane has a map, whether the unsettled blocks are found half
erased, how the erases it makes end, its duration. -/
def State.scanEnd (s : State) (dies : Nat) (maps half : Bool) (outcome us : Nat) : State :=
  let s := s.wr Reg.scanTime us
  let s := s.each [0, 1, 2, 3] (fun d s => s.wr (Reg.dieState d) (if dies.testBit d then 1 else 6))
  if dies % 16 ≠ 15 then s.unusable 4
  else if !maps then s.unusable 2
  else
    let s := s.each s.unsettled (fun e s => s.reErase half outcome e.1 e.2)
    let s := s.loadSeqs.queueGarbage
    let s := (s.each s.rowsFound (fun r s => s.closeFound r)).loadCast
    let s := { s with sto := { s.sto with pages := [], row := none, todo := [] } }
    let s := (s.each allPos (fun p s => s.prepareOne outcome p)).openRow
    if s.sto.row.isNone then s.unusable 3
    else
      let s := (if s.needsSeal then s.recoverSeal else s).loadCast.rebuild
      let s := ((s.wr Reg.scanResult 1).wr Reg.isState 2).wornCheck
      (s.each allPos (fun p s => s.queueMap p)).pump

end Sys2Proof.Machine
end

