-- ==== Sys2Proof/Machine/Reset.lean ====
section
/-! DEFINITION. Resets and boots of the logic side (spec/03_package_and_pads.md R98-R104; spec/06_start_up.md R155-R157;
spec/18_events_and_faults.md R465, R473). The HV die lives on through every reset of the logic side. -/
namespace Sys2Proof.Machine

/-! ### What a reset cuts off -/

/-- The on-chip flash: the sector of a running or suspended erase, a copy under a commit, a slot under an erase, the words of a window
write (R406, R58, R423). -/
def State.cutFlash (s : State) : State :=
  let s := match s.fla.erase with
    | some e => s.tearSector e.bank e.sector
    | none => s
  let s := match s.svc.commit with
    | some (b, _) => if s.fla.begun then s.setCopy b .torn else s
    | none => s
  s.cutWrite.cutErase

/-- The NAND dies: a page being programmed completes while the dies keep their supply and is cut off without it; the block of
an erase under way is no log (R386, R392; log entry 45). -/
def State.cutStore (s : State) (warm : Bool) : State :=
  let s := s.each (s.sto.pages.filter (fun p => p.busy)) (fun p s => s.landPage p (!warm))
  match s.sto.erase with
  | some e =>
    let k := blkKey (4 * e.plane + e.die) e.block
    s.setBlk k { s.blk k with garbage := true, pages := [] }
  | none => s

/-- The ladle's parts that belong to a boot of the logic side (R207, R211, R219). -/
def Ladle.reboot (l : Ladle) : Ladle :=
  { l with pendingTarget := false, targetRun := 0, v := [], est := 0, scanned := false, missed := 0, okCycles := 0,
           damped := false, permit := false, measured := 0, esrTemp := none, esrHigh := false, capFrom := none, seg := none,
           segAfter := none, esrOwed := false, lt1 := none, lt2 := none, n1 := 0, intact := [], learn := false, dampAt := 0,
           dampFailed := false }

/-- The holdup's parts that belong to a boot of the logic side (R235, R240). -/
def Holdup.reboot (h : Holdup) : Holdup :=
  { timers := h.timers, rise := h.rise, carries := h.carries, test := h.test, self := h.self, droop := h.droop, trim := h.trim
    setpoint := h.setpoint, drive := h.drive }

/-- The pads through a reset: held at a warm one, back to their power-on state at any other (R99). B4 is no pad and is released
by either (log entry 46). -/
def Pads.reset (p : Pads) (warm : Bool) : Pads := if warm then { p with b4 := false, hostDrain := false } else {}

/-- The settings that the HV die takes back to their built-in values at a reset of the logic side, until its share is applied again: the
time base's and the feeds' (R142, R160, R175), and at a reset into held start those of every block held (R66, R160). The ladle's and the
holdup's stay as they were at any other reset (R20; log entry 14). -/
def builtInAgain (held : Bool) (k : Nat) : Bool :=
  held || decide (0x1200 ≤ k / 256 ∧ k / 256 ≤ 0x12FF) || decide (0x2000 ≤ k / 256 ∧ k / 256 ≤ 0x20FF)

/-- A reset of the logic side with its cause (R98): everything of the logic die starts anew except what its flash, its dies and
the hold latches keep; the sequencer's latch lives through a warm reset (R254). `held` asks for a boot with start held (R68). -/
def State.resetLogic (s : State) (warm : Bool) (cause : Nat) (held : Bool) : State :=
  let s := s.cutFlash.cutStore warm
  let s := if s.pads.b4 then { s with pads := { s.pads with b4 := false } }.holdupFree else s
  let latch := if warm then s.rd Reg.seqLatch else 0
  let failed := if warm then s.rd Reg.failedRail else 0xFF
  let t : State :=
    { pending := s.pending
      hv := s.hv.filter (fun e => !(isSetting e.1 && builtInAgain held e.1))
      heldBoot := held
      admHold := warm && s.admHold
      caseWarned := warm && s.caseWarned
      runs := s.runs.filter (fun e => decide (200 ≤ e.1) || (warm && decide (20 ≤ e.1 ∧ e.1 < 32)))
      smp := s.smp
      clk := { now := s.clk.now, hvTic := s.clk.hvTic, hvCyc := s.clk.hvCyc, b0Gap := s.clk.b0Gap,
               count := if warm then s.clk.count else 0 }
      trk := s.trk
      sup := { s.sup with bootDue := s.sup.source ≠ .off, coldBoot := !warm, running := false, usbUp := false, romOnly := false }
      bar := { hbArmed := s.bar.hbArmed, hbLost := s.bar.hbLost, hbLen := s.bar.hbLen, hbGap := s.bar.hbGap,
               episode := s.bar.episode, hvSeq := s.bar.hvSeq, hvDiscards := s.bar.hvDiscards, b2 := s.bar.b2 }
      pads := s.pads.reset warm
      svc := { attempts := if warm then s.svc.attempts else 8 }
      log := s.log.reset warm
      fla := { cope := s.fla.cope, drag := s.fla.drag, sums := s.fla.sums }
      feeds := s.feeds
      bus := {}
      lad := s.lad.reboot
      hux := s.hux.reboot
      sto := { nand := s.sto.nand, bad := s.sto.bad, factory := s.sto.factory, mapSeq := s.sto.mapSeq
               badHeld := if warm then s.sto.badHeld else [] }
      fw := { code := s.fw.code, shipped := s.fw.shipped, cut := s.fw.cut, record := s.fw.record
              debugOpen := warm && s.fw.debugOpen }
      free := s.free }
  (((t.wr Reg.resetCause cause).wr Reg.seqLatch latch).wr Reg.failedRail failed).wr Reg.pwAttemptsLeft t.svc.attempts

/-- A warm reset the firmware takes on its own: the queue is written first (R471). -/
def State.warmReset (s : State) (cause : Nat) (held : Bool) : State := s.flushLog.resetLogic true cause held

/-- The end of rest (R365, R366): 1 qualification, 2 supply present, 3 wake. -/
def State.restExit (s : State) (reason : Nat) : State :=
  if s.phase = .rest && s.sup.running then ((s.bump Reg.restExits).event 0x4009 0xFF reason).warmReset 5 false else s

/-! ### The scan of the log ring (R465, R473, R413) -/

/-- The valid records of the ring with their slots and LOG_INDEX. -/
def State.ringRecs (s : State) : List (Nat × LogRec × Half) :=
  s.log.ring.filterMap (fun e => match e.2 with
    | .valid r i => some (e.1, r, i)
    | _ => none)

/-- LOG_INDEX `b` is later than `a`, modulo 2^16. -/
def laterIndex (a b : Half) : Bool := decide (0 < (b - a).toNat ∧ (b - a).toNat < 2 ^ 15)

/-- The record of a list with the latest LOG_INDEX. -/
def latestRec (l : List (Nat × LogRec × Half)) : Option (Nat × LogRec × Half) :=
  l.foldl (fun acc e => match acc with
    | none => some e
    | some q => if laterIndex q.2.2 e.2.2 then some e else some q) none

/-- The newest valid own record. -/
def State.newestOwn (s : State) : Option LogRec := (latestRec (s.ringRecs.filter (fun e => e.2.1.kind = 1))).map (·.2.1)

/-- Torn slots in the ring. -/
def State.tornSlots (s : State) : Nat := (s.log.ring.filter (fun e => e.2 = .torn)).length

/-- The boot's scan: the head, the next LOG_INDEX, EVENT_SEQ, BOOT_COUNT, TORN_AT_BOOT. Where a slot from the head to the end of
its position is not blank, the head moves to the next position and the slots passed over count as torn (R413). -/
def State.scanRing (s : State) : State :=
  let (h0, ix) := match latestRec s.ringRecs with
    | some (n, _, i) => ((n + 1) % ringSlots, i + 1)
    | none => (0, 0)
  let rest := (List.range (32 - h0 % 32)).map (· + h0)
  let skip := rest.any (fun n => s.slot n ≠ .blank)
  let passed := if skip then (rest.filter (fun n => s.slot n ≠ .torn)).length else 0
  let torn := s.tornSlots + passed
  let s := { s with log := { s.log with head := if skip then (h0 / 32 + 1) % 176 * 32 else h0, index := ix } }
  let own := s.newestOwn
  let s := (s.wr Reg.eventSeq (own.elim 0 (·.seq))).wr Reg.bootCount (own.elim 0 (fun r => r.boot + 1))
  (s.wr Reg.tornAtBoot torn).iff (torn ≠ 0) (·.flag Reg.evFlags 1)

/-- The cycle count of a boot (R144): the running count, or one more than that of the newest own record, whichever is later. -/
def State.bootCycles (s : State) : State :=
  match s.newestOwn with
  | none => s
  | some r =>
    let c := BitVec.ofNat 32 (r.stamp / 65536) + 1
    if laterCount s.clk.count c then { s with clk := { s.clk with count := c } } else s

/-! ### The boot (R157, R141) -/

/-- The follower at boot (R141): it waits for the first double pulse, or starts virtual mains at 0 au. -/
def State.bootFollower (s : State) : State :=
  if s.sup.main && !s.coldRead then s
  else { s with clk := { s.clk with synced := true } }.wr Reg.follower 1

/-- The heats at boot (R357, R450) and what the summary ring holds (R417). -/
def State.bootHeats (s : State) : State :=
  let h := (newestSum (s.sumRecs.filter (fun r => r.kind = 1))).elim 0 (·.heat)
  let s := (s.wr Reg.heatLast h).refreshSums
  if s.rd Reg.nodeId = 1 then s.wr Reg.heatAssigned h else s

/-- LOGIC_BOOT's steps (R157): TMODE, the straps, the ROM's choice of a slot, the ring's scan, the cycle count, the boot event
first. START_STEP is LOGIC_BOOT until cycle 0 begins. In cold read no activity runs (R5). -/
def State.boot (s : State) (straps : Nat) (tmode : Bool) : State :=
  let s := { s with sup := { s.sup with bootDue := false } }
  if tmode then { s with pads := {} }
  else
    let node := straps + 1
    let s := ((s.wr Reg.idStraps straps).wr Reg.nodeId node).wr Reg.masterState (if node = 1 then 0 else 2)
    let s := s.romBoot
    if s.sup.romOnly then { s with pads := {} }
    else
      let s := ({ s with sup := { s.sup with running := true } }).scanRing.bootCycles.bootFollower
      let detail := if s.coldRead then 3 else if s.sup.coldBoot then 1 else 2
      let s := s.event 0x1001 (s.rd Reg.resetCause) detail (s.rd Reg.fwVersion) (s.rd Reg.tornAtBoot)
      let s := s.bootHeats.bootCaps
      if s.coldRead then s
      else
        let s := { s with phase := .start }.noteFallback
        if s.heldBoot then s.wr Reg.idleHold 0x7F else s

end Sys2Proof.Machine
end

