-- ==== Sys2Proof/Machine/PourCmds.lean ====
section
/-! DEFINITION. The pour's commands (spec/14_pour_and_shakeout.md R351-R365). A watchdog's expiry is taken at the command's word
while its condition can hold (log entry 8). -/
namespace Sys2Proof.Machine

/-- DRAIN_WINDOW_EXPIRY (R351): DRAIN_WINDOW ticks have passed since acceptance. -/
def execDrainWindowExpiry (s : State) : Host.Outcome State Fault Refusal :=
  if s.sup.running && s.pourSt = Ps.drain && s.rd Reg.drainWindow ≤ s.tick - s.pour.at_ then .next (s.endDrain 1) else .next s

/-- PWD_DRAIN_EXPIRY (R351): PWD_DRAIN microseconds have passed since acceptance. -/
def execPwdDrainExpiry (s : State) : Host.Outcome State Fault Refusal :=
  if s.sup.running && s.pourSt = Ps.drain then .next (s.endDrain 3) else .next s

/-- PWD_SEAL_EXPIRY (R353): PWD_SEAL microseconds have passed since DRAIN ended; what the crucible holds stays uncommitted. -/
def execPwdSealExpiry (s : State) : Host.Outcome State Fault Refusal :=
  if s.sup.running && s.pourSt = Ps.flush then .next ((s.flag Reg.pourFlags 3).event 0x4006 0xFF 2).beginSeal else .next s

/-- The off-slots may begin: SUMMARY is over (R358, R250). -/
def State.endSummary (s : State) : State := (s.wr Reg.pourState Ps.offSlots).offRelease

/-- The casting summary could not be written (R358). -/
def State.summaryFailed (s : State) : State := (s.flag Reg.pourFlags 7).event 0x4005

/-- SUMMARY_WRITTEN (R358): the summary's write has ended, well or not; the off release is given. -/
def execSummaryWritten (ok : Bool) (s : State) : Host.Outcome State Fault Refusal :=
  if !(s.sup.running && s.pourSt = Ps.summary) then .next s
  else
    let w := match s.sto.cast with
      | some x => if ok then s.writeSum (s.summaryRec x) else none
      | none => none
    match w with
    | some s' => .next s'.endSummary
    | none => .next s.summaryFailed.endSummary

/-- PWD_OFF_EXPIRY (R360): PWD_OFF microseconds have passed since acceptance and no off release has been given. -/
def execPwdOffExpiry (s : State) : Host.Outcome State Fault Refusal :=
  if s.sup.running && s.phase = .pour && s.seq.offRel.isNone then
    let s := ((s.flag Reg.pourFlags 4).bump Reg.pwdFires).event 0x4006 0xFF 3
    .next ((s.abandonSeal.wr Reg.pourState Ps.offSlots).refreshOpen.offRelease)
  else .next s

/-- The supply is present for the exit of rest (R365): the last pour's cause is enabled, a feed is ON at FEED_UV or above, and the
time base is LOCKED where the mains is sensed. -/
def State.supplyPresent (s : State) : Bool :=
  let c := s.rd Reg.pourCause
  let en := s.rd Reg.restExit
  let on := fun (f : Nat) => s.rd (Reg.feedState f) = 3 && decide (s.rd (Reg.feedUv f) ≤ s.rd (Reg.feedV f))
  ((en.testBit 0 && 1 ≤ c && c ≤ 3) || (en.testBit 1 && 5 ≤ c && c ≤ 7) || (en.testBit 2 && (c = 4 || c = 8)))
    && (on 0 || on 1) && (s.rd Reg.mainsSense ≠ 1 || s.rd Reg.tbState = 3)

/-- REST_SUPPLY_PRESENT (R365): the supply has been present for REST_RETURN ticks in a row. -/
def execRestSupplyPresent (s : State) : Host.Outcome State Fault Refusal :=
  if s.phase = .rest && s.sup.running && s.rd Reg.restReturn ≤ s.pour.supplyRun then .next (s.restExit 2) else .next s

end Sys2Proof.Machine
end

