-- ==== Sys2Proof/Machine/LinkLayer.lean ====
section
/-! DEFINITION. The link layer's commands (spec/12_link_layer.md R302-R327) but the control channel's, which the parameter service
answers. A received frame is checked and accepted by FRAME_RX; its contents wait in `ll.rxq` for the command that applies them
(R329). -/
namespace Sys2Proof.Machine

/-- The link carries frames: ACTIVE with a session. -/
def State.sessionUp (s : State) : Bool := s.rd Reg.linkState = Ls.active && s.rd Reg.llState ≠ 0

/-- Send an ACK naming e - 1: it covers every accepted frame (R308). -/
def State.sendAck (s : State) : State := { s with ll := { s.ll with uncovered := 0 } }.ackOut 1 0

/-- Send a NAK naming e - 1, unless one has been sent since the last frame was accepted (R307). It is no ACK: what it names stays to
be covered by one (R308). -/
def State.sendNak (s : State) (reason : Nat) : State :=
  if s.ll.nakSent then s
  else ({ s with ll := { s.ll with nakSent := true } }.ackOut 2 reason).bump Reg.naksSent

/-! ### Checks of a frame (R303-R307, R324) -/

/-- A type the host may send sequenced (Table LL-3). -/
def hostType (ty : Nat) : Bool := [0x10, 0x11, 0x12, 0x13, 0x14, 0x15, 0x20].contains ty

/-- The types whose contents wait for step 1 of R329, in SEQ order. -/
def inStep1 (ty : Nat) : Bool := [0x10, 0x11, 0x12, 0x13, 0x15].contains ty

/-- LEN fits the type and its payload (Table LL-3). -/
def lenFits (ty : Nat) (p : List Nat) : Bool :=
  let n := p.length
  let u := field p 16 2
  if ty = 0x10 then decide (n = 20 + 512 * u ∧ 1 ≤ u ∧ u ≤ 128)
  else if ty = 0x11 then decide (n = 20 ∧ u = 0)
  else if ty = 0x13 then n = 8 else if ty = 0x15 then n = 40
  else if ty = 0x20 then decide (8 ≤ n ∧ n ≤ 256)
  else n = 4

/-- A reserved bit or byte of a frame is not 0 (Tables LL-2, LL-4, LL-6). -/
def rsvBad (ty seqw flags : Nat) (p : List Nat) : Bool :=
  let nz := fun (i : Nat) => decide (p.getD i 0 ≠ 0)
  let usesStream := ty = 0x10 || ty = 0x11 || ty = 0x12
  seqw.testBit 15 || (!usesStream && decide (seqw / 4096 % 8 ≠ 0)) || decide (1 < flags)
    || (if ty = 0x10 then decide (1 < p.getD 18 0) || nz 19
        else if ty = 0x11 then decide (p.getD 18 0 ≠ 1) || nz 19
        else if ty = 0x14 then nz 1 || nz 2 || nz 3
        else if ty = 0x15 then nz 6 || nz 7
        else if ty = 1 then decide (seqw % 4096 ≠ 0) || decide (15 < p.getD 1 0) || nz 2 || nz 3
        else if ty = 2 then decide (seqw % 4096 ≠ 0) || decide (15 < p.getD 1 0) || nz 3
        else false)

/-- Put a frame's contents among those that wait to be applied. -/
def State.pushRx (s : State) (ty stream : Nat) (p : List Nat) : State :=
  { s with ll := { s.ll with rxq := s.ll.rxq ++ [{ ty := ty, stream := stream, payload := p, session := s.rd Reg.session }] } }

/-- Requests of the link that await their response (R323). -/
def State.ctrlWaiting (s : State) : Nat :=
  (s.ll.rxq.filter (fun f => f.ty = 0x20)).length + (s.fw.writing.filter (fun w => w.2.2.1 = 0)).length
    + (match s.fw.write with | some w => if w.src = 0 then 1 else 0 | none => 0) + (tget {} s.svc.srcs 0).held.length

/-- The tag, opcode and fate of the link's last control request (R323). -/
def State.noteCtrl (s : State) (tag op fate : Nat) : State := s.wr Reg.lastCtrl (tag + 256 * op + 65536 * fate)

/-- The contents of an accepted frame, or of an ACK or NAK: checked and queued (R324); a ninth waiting request is refused
(R323). -/
def State.rxContents (s : State) (ty seqw flags len : Nat) (p : List Nat) : State :=
  if !hostType ty && ty ≠ 1 && ty ≠ 2 then s.llViolation Vc.type
  else if len ≠ p.length || !lenFits ty p then
    (s.llViolation Vc.length).iff (ty = 0x10 || ty = 0x11) (·.linkRequest)
  else
    let s := s.iff (rsvBad ty seqw flags p) (·.llViolation Vc.reserved)
    if ty = 0x20 && 8 ≤ s.ctrlWaiting && !s.linkQuar then
      (s.noteCtrl (p.getD 1 0) (p.getD 2 0) 2).replyAbort 0 (p.getD 1 0) (p.getD 2 0) (field p 4 2 * 256 + p.getD 6 0)
        0x01030000 1
    else s.pushRx ty (seqw / 4096 % 8) p

/-- Accept a sequenced frame at link level (R307, R308). -/
def State.acceptFrame (s : State) : State :=
  let s := s.wr Reg.rxExpected ((s.rd Reg.rxExpected + 1) % 4096)
  let s := { s with ll := { s.ll with nakSent := false, uncovered := s.ll.uncovered + 1 } }
  if s.rd Reg.ackCoalesce ≤ s.ll.uncovered then s.sendAck else s

/-- A frame of the link from TYPE to CRC that ended well (R307). -/
def State.takeFrame (s : State) (b : List Nat) : State :=
  let n := b.length
  if n < 12 || crc32 (b.take (n - 4)) ≠ field b (n - 4) 4 then
    ((s.bump Reg.crcErrs).llViolation Vc.crc).sendNak 1
  else
    let s := s.bump Reg.framesRx
    let ty := b.getD 0 0
    let seqw := field b 1 2
    let p := (b.take (n - 4)).drop 8
    let go := fun (s : State) => s.rxContents ty seqw (b.getD 3 0) (field b 4 4) p
    if ty = 1 || ty = 2 then go s
    else
      let d := (s.rd Reg.rxExpected + 4096 - seqw % 4096) % 4096
      if d = 0 then go s.acceptFrame
      else if d ≤ 2048 then (s.bump Reg.dupsDropped).sendAck
      else s.sendNak 2

/-- FRAME_RX (R307): a frame ends by its EOF, by ABT, or with a framing error passed up by the PHY. -/
def execFrameRx (bytes : List Byte) (ending : Fin 3) (s : State) : Host.Outcome State Fault Refusal :=
  let b := bytes.map (·.toNat)
  if !s.sessionUp || ending.val = 1 then .next s
  else if ending.val = 2 || 65568 < b.length then
    .next (((s.bump Reg.framingErrs).llViolation Vc.framing).sendNak 3)
  else .next (s.takeFrame b)

/-- ACK_TIMER (R308): accepted frames are not yet covered by an ACK. -/
def execAckTimer (s : State) : Host.Outcome State Fault Refusal :=
  if s.sessionUp && s.ll.uncovered ≠ 0 then .next s.sendAck else .next s

/-! ### Acknowledgement and replay (R309, R310) -/

/-- Take the first waiting contents of a type; the types of step 1 keep their order among themselves (R329). -/
def State.takeRx (s : State) (c : RxFrame → Bool) : Option (RxFrame × State) :=
  match s.ll.rxq.find? (fun f => c f || inStep1 f.ty) with
  | some f =>
    if c f then some (f, { s with ll := { s.ll with rxq := s.ll.rxq.erase f } }) else none
  | none => none

/-- As `takeRx` for the types outside step 1, which are handled as they come. -/
def State.takeAny (s : State) (c : RxFrame → Bool) : Option (RxFrame × State) :=
  match s.ll.rxq.find? c with
  | some f => some (f, { s with ll := { s.ll with rxq := s.ll.rxq.erase f } })
  | none => none

/-- A stream is released: its complete mark has been covered by an ACK (R367); with the last one the shakeout is DONE. -/
def State.releaseStream (s : State) (st : Nat) : State :=
  let s := s.flag Reg.shakeReleased st
  (if s.rd Reg.shakeReleased % 256 = 0xFF then s.wr Reg.shakeState 4 else s).refreshOpen

/-- What an acknowledged frame tells the shakeout (R367, R370). -/
def State.frameAcked (s : State) (f : TxFrame) : State :=
  let live := s.shake && field f.payload 0 4 = s.rd Reg.shakeHeat
  if f.ty = 0x34 && live then s.wr (Reg.shakePos (f.stream % 8)) (field f.payload 4 4)
  else if f.ty = 0x35 && live && f.payload.getD 4 0 = 1 && !s.bitOf Reg.shakeReleased (f.stream % 8) then
    s.releaseStream (f.stream % 8)
  else s

/-- An ACK or NAK naming `a` is valid (R309). -/
def State.ackValid (s : State) (a : Nat) : Bool :=
  let o := s.rd Reg.txOldestSeq
  let n := s.rd Reg.txNextSeq
  decide (a = (o + 4095) % 4096 ∨ (a + 4096 - o) % 4096 < (n + 4096 - o) % 4096)

/-- Free every frame up to and including `a` (R309). -/
def State.freeTo (s : State) (a : Nat) : State :=
  let o := s.rd Reg.txOldestSeq
  let k := (a + 1 + 4096 - o) % 4096
  let gone := s.ll.retry.take k
  if gone.isEmpty then s
  else
    let s := { s with ll := { s.ll with retry := s.ll.retry.drop k, replayRun := 0 } }
    let s := (s.wr Reg.txOldestSeq ((a + 1) % 4096)).wr Reg.retryBytes
      (s.rd Reg.retryBytes - (gone.map (fun e => e.2.size)).sum)
    (s.each gone (fun e s => s.frameAcked e.2)).llPump

/-- Start a replay, which resends every unacknowledged frame with bit 0 of FLAGS set, or request a retrain once REPLAY_LIMIT in a row have brought no progress (R310, R325). -/
def State.startReplay (s : State) : State :=
  if s.rd Reg.replayLimit ≤ s.ll.replayRun then
    (((s.flag Reg.llFlags 1).bump Reg.replayRetrains).event 0x3101 0xFF 0 (s.rd Reg.replays)).linkRequest
  else
    { (s.bump Reg.replays).flag Reg.llFlags 0 with
      ll := { s.ll with replayRun := s.ll.replayRun + 1, replaying := true
                        resent := s.ll.retry.map (fun e => e.2.bytes e.1 true) } }

/-- ACK_RX (R309): the first ACK received and not yet processed. -/
def execAckRx (s : State) : Host.Outcome State Fault Refusal :=
  match s.takeAny (fun f => f.ty = 1) with
  | none => .next s
  | some (f, s) =>
    let a := field f.payload 0 2 % 4096
    if s.ackValid a then .next (s.freeTo a) else .next (s.llViolation Vc.ackseq)

/-- NAK_RX (R309): it frees as an ACK does, then starts a replay of what remains unless one is under way. -/
def execNakRx (s : State) : Host.Outcome State Fault Refusal :=
  match s.takeAny (fun f => f.ty = 2) with
  | none => .next s
  | some (f, s) =>
    let a := field f.payload 0 2 % 4096
    let s := s.bump Reg.naksRx
    if !s.ackValid a then .next (s.llViolation Vc.ackseq)
    else
      let s := s.freeTo a
      if s.ll.retry.isEmpty || s.ll.replaying then .next s else .next s.startReplay

/-- REPLAY_TIMEOUT (R310): no progress for REPLAY_TIMEOUT while frames are unacknowledged. -/
def execReplayTimeout (s : State) : Host.Outcome State Fault Refusal :=
  if s.sessionUp && !s.ll.retry.isEmpty && !s.ll.replaying then .next s.startReplay else .next s

/-! ### Contents (R329 step 1) -/

/-- The record of a DATA or CLOSE frame (Table LL-4). -/
def RxFrame.record (f : RxFrame) : Rec :=
  let p := f.payload
  { stream := f.stream % 8, seq := field p 0 4, epoch := field p 4 4, tag := field p 8 8
    units := if f.ty = 0x11 then 0 else field p 16 2, closes := f.ty = 0x11 || (p.getD 18 0).testBit 0, data := p.drop 20 }

/-- DATA_RX (R318): the next contents in SEQ order are a DATA record. -/
def execDataRx (s : State) : Host.Outcome State Fault Refusal :=
  match s.takeRx (fun f => f.ty = 0x10) with
  | some (f, s) => .next (s.applyRec f.record f.session)
  | none => .next s

/-- CLOSE_RX (R318): the next contents in SEQ order are a CLOSE record. -/
def execCloseRx (s : State) : Host.Outcome State Fault Refusal :=
  match s.takeRx (fun f => f.ty = 0x11) with
  | some (f, s) => .next (s.applyRec f.record f.session)
  | none => .next s

/-- RETIRE_RX (R335, R350): after DRAIN a RETIRE is ignored and not counted. -/
def execRetireRx (s : State) : Host.Outcome State Fault Refusal :=
  match s.takeRx (fun f => f.ty = 0x12) with
  | some (f, s) =>
    if s.phase = .pour && s.pourSt ≠ Ps.drain then .next s else .next (s.applyRetire (f.stream % 8) (field f.payload 0 4))
  | none => .next s

/-- DIRTY_RX (R337). -/
def execDirtyRx (s : State) : Host.Outcome State Fault Refusal :=
  match s.takeRx (fun f => f.ty = 0x13) with
  | some (f, s) => .next (((s.wr Reg.declaredDirty (field f.payload 0 8)).wr Reg.rxSinceDecl 0).bump Reg.dirtyFrames)
  | none => .next s

/-- SHUTDOWN_RX (R347, R351): a kind 1 frame is trigger 8 and ends DRAIN; the frame that triggered the pour ends it only if
DIRTY_EFF was 0 in its tick. Any other kind is a TYPE violation. -/
def execShutdownRx (s : State) : Host.Outcome State Fault Refusal :=
  match s.takeAny (fun f => f.ty = 0x14) with
  | none => .next s
  | some (f, s) =>
    if f.payload.getD 0 0 ≠ 1 then .next (s.llViolation Vc.type)
    else
      let was := s.phase = .pour
      let clean := s.dirtyNow = 0
      let s := s.trigger 8
      .next (s.iff (was || clean) (·.endDrain 2))

/-- RESUME_SEND (R315): the scan has finished and the crucible holds no record of an earlier session, nor does one wait to be applied
(R316). -/
def execResumeSend (s : State) : Host.Outcome State Fault Refusal :=
  if s.sessionUp && s.rd Reg.llState = 1 && 2 ≤ s.rd Reg.isState
      && s.sto.crucible.all (fun c => c.session = s.rd Reg.session)
      && s.ll.rxq.all (fun f => f.session = s.rd Reg.session) then .next s.sendResume
  else .next s

/-- COMMIT_GAP_EXPIRY (R322): COMMIT_GAP has run since the last COMMIT frame; one that is due is sent. -/
def execCommitGapExpiry (s : State) : Host.Outcome State Fault Refusal :=
  if !s.ll.gapRuns then .next s
  else
    let s := { s with ll := { s.ll with gapRuns := false } }
    if s.ll.commitDue && s.rd Reg.llState = 2 then .next s.sendCommit
    else .next { s with ll := { s.ll with commitDue := false } }

end Sys2Proof.Machine
end

