-- ==== Sys2Proof/Machine/LinkPhy.lean ====
section
/-! DEFINITION. The commands of the link's lanes and training (spec/11_link_phy.md R264-R301) but those that are requests. A link
timer's expiry is taken at the command's word (R273). A received set tells how many of its own the module has sent on that lane
since the one before (log entry 50). -/
namespace Sys2Proof.Machine

/-- LINK_STATE. -/
def State.ls (s : State) : Nat := s.rd Reg.linkState

/-- The link layer has a frame or an acknowledgement to send (R287). -/
def State.somethingToSend (s : State) : Bool := !s.ll.waiting.isEmpty || s.ll.uncovered ≠ 0 || !s.ll.acksDue.isEmpty || s.ll.replaying

/-! ### Symbol lock (R269) -/

/-- SYMBOL_LOCK (R269): four aligned COMs on a lane. -/
def execSymbolLock (p : Lane) (s : State) : Host.Outcome State Fault Refusal :=
  if s.ls = Ls.disabled || s.ls = Ls.banked || !s.laneOn p || (s.lane p).locked then .next s
  else .next ((s.setLane p { s.lane p with locked := true }).flag (Reg.laneStatus p) 0)

/-- A lane is no longer locked: its counts of consecutive sets start again. -/
def State.unlock (s : State) (p : Nat) : State :=
  (s.setLane p { s.lane p with locked := false, acked := 0, ts2 := 0 }).clearBits (Reg.laneStatus p) 1

/-- LOCK_LOSS (R269, R291 cause 1): eight code errors within 256 symbols. -/
def execLockLoss (p : Lane) (s : State) : Host.Outcome State Fault Refusal :=
  if !(s.lane p).locked then .next s
  else
    let s := (s.unlock p).bump (Reg.lockLosses p)
    .next (if s.wasActive && s.laneIn p then s.fastRetrain 1 else s)

/-! ### Training sets (R270, R271, R276, R277, R301) -/

/-- A training set's check byte matches and every field the module checks is in range, its role apart (R271). -/
def setInRange (b : List Nat) : Bool :=
  let f := fun i => b.getD i 0
  decide (((b.take 15).drop 1).foldl (fun a x => a ^^^ x) 0 = f 15)
    && (decide (f 5 ≤ 4) || f 5 = 255) && [1, 2, 4, 255].contains (f 6) && decide (f 2 ≤ 3)

/-- What a valid set says of the partner (Table LP-3). -/
def State.notePartner (s : State) (b : List Nat) : State :=
  let f := fun i => b.getD i 0
  let s := { s with phy := { s.phy with heard := true, reqRate := f 5, reqWidth := f 6 } }
  ((s.wr Reg.partnerRates (f 3 % 32)).wr Reg.partnerWidths (f 4 % 8)).wr Reg.partnerBank (if (f 7).testBit 4 then 1 else 0)

/-- A lane's counts after a valid set (R271, R275, R281). -/
def State.countSet (s : State) (p : Nat) (b : List Nat) : State :=
  let f := fun i => b.getD i 0
  let l := { s.lane p with num := some (f 2), echo := if f 8 ≤ 3 then some (f 8) else none }
  let ts1 := f 1 = 0x4A
  let ack := ts1 && (f 7).testBit 0 && s.ls = Ls.align
  let two := !ts1 && s.ls = Ls.confirm
  let fits := two && f 5 = s.phy.rate && f 6 = s.phy.width
  s.setLane p { l with
    acked := if ack then l.acked + 1 else 0
    ackSeen := l.ackSeen || ack
    ts2 := if fits then l.ts2 + 1 else 0
    gotTs2 := l.gotTs2 + (if two then 1 else 0) }

/-- The transmit side is reversed: every echo received says so (R277). The echoes are awaited anew. -/
def State.checkEchoes (s : State) : State :=
  let ls := allLanes.filter (fun p => s.laneOn p && (s.lane p).locked && (s.lane p).num.isSome && (s.lane p).echo.isSome)
  let rev := ls.all (fun p => match (s.lane p).num, (s.lane p).echo with
    | some j, some e => e + j = 3
    | _, _ => false)
  if s.ls = Ls.align && s.rd Reg.txReversed = 0 && !ls.isEmpty && rev then
    ((s.wr Reg.txReversed 1).flag Reg.phyFlags 3).each ls (fun p s => s.setLane p { s.lane p with echo := none })
  else s

/-- A set of role keeper: training cannot leave ALIGN; reported once per training (Table LP-11). -/
def State.roleConflict (s : State) (p : Nat) : State :=
  let first := !s.phy.roleLogged
  let s := { s with phy := { s.phy with role := true, roleLogged := true } }.phyViolation
  if first then (s.flag Reg.phyFlags 8).event 0x3007 p 1 else s

/-- An invalid set: the lane's consecutive counts start again (R271). -/
def State.badSet (s : State) (p : Nat) : State := s.setLane p { s.lane p with acked := 0, ts2 := 0 }

/-- The receiver of a lane is inverted (R276). -/
def State.invert (s : State) (p : Nat) : State :=
  if (s.lane p).inverted then s
  else (((s.setLane p { s.lane p with inverted := true }).flag (Reg.laneStatus p) 2).flag Reg.phyFlags 2).event 0x3003 p 1

/-- A set received without a code error on a locked lane. -/
def State.takeSet (s : State) (p : Nat) (b : List Nat) : State :=
  let id := b.getD 1 0
  if id = 0xB5 || id = 0xBA then (s.badSet p).invert p
  else if id ≠ 0x4A && id ≠ 0x45 then s.badSet p
  else if !setInRange b then (s.badSet p).phyViolation
  else if b.getD 9 0 = 1 then (s.badSet p).roleConflict p
  else if b.getD 9 0 ≠ 2 then (s.badSet p).phyViolation
  else if s.ls = Ls.active then (if id = 0x4A then s.fastRetrain 4 else s)
  else
    let s := (s.notePartner b).countSet p b
    if s.ls = Ls.detect && id = 0x4A then s.wr Reg.linkState Ls.align else s.checkEchoes

/-- TRAINING_SET_RX (R271): the sixteen octets of a set received on a lane, and how it came. Sets
before EQ begins, and on a lane outside LANE_MASK, are ignored (R293); those that come too early are a violation (Table LP-11). -/
def execTrainingSetRx (p : Lane) (set : List Byte) (rx : SetRx) (s : State) :
    Host.Outcome State Fault Refusal :=
  let b := set.map (·.toNat)
  let s := s.sendSets p rx.sent
  if s.laneOn p && s.ls = Ls.rateChange && rx.early then .next s.phyViolation
  else if !s.laneOn p || !([Ls.detect, Ls.align, Ls.eq, Ls.confirm, Ls.active].contains s.ls) then .next s
  else if !rx.clean || !(s.lane p).locked || b.length ≠ 16 then .next (s.badSet p)
  else .next (s.takeSet p b)

/-! ### ALIGN to ACTIVE (R275-R282) -/

/-- The lanes that take part: enabled, locked, with a lane number. -/
def State.numbered (s : State) : List (Nat × Nat) :=
  allLanes.filterMap (fun p => if s.laneOn p && (s.lane p).locked then (s.lane p).num.map (fun n => (p, n)) else none)

/-- The receive side is reversed (R277). -/
def State.rxRev (s : State) : Bool := !s.numbered.isEmpty && s.numbered.all (fun e => e.2 + e.1 = 3)

/-- Lanes whose number fits neither mapping (R277). -/
def State.misfits (s : State) : List Nat := (s.numbered.filter (fun e => !s.rxRev && e.1 ≠ e.2)).map (·.1)

/-- The physical lane that logical lane `l` is read from, if it is locked and fits. -/
def State.physOf (s : State) (l : Nat) : Option Nat :=
  let p := if s.rxRev then 3 - l else l
  if s.numbered.any (fun e => e.1 = p && e.2 = l) then some p else none

/-- The width the module requests (R278). -/
def State.bestWidth (s : State) : Option Nat :=
  s.widths.find? (fun w => (List.range w).all (fun l => (s.physOf l).isSome))

/-- A lane has exchanged its acks, and its echo names the lane it is received on (R275, R277). -/
def State.laneAligned (s : State) (p : Nat) : Bool :=
  let l := s.lane p
  8 ≤ l.acked && 16 ≤ l.sinceAck && l.echo = l.num

/-- Put the lanes of a width into their logical places. -/
def State.placeLanes (s : State) (w : Nat) : State :=
  let place := fun l => s.physOf l
  let s := s.each allLanes (fun p s => (s.wr (Reg.laneLogical p) 0xFF).clearBits (Reg.laneStatus p) 2)
  s.each (List.range w) (fun l s => match place l with
    | some p => (s.wr (Reg.laneLogical p) l).flag (Reg.laneStatus p) 1
    | none => s)

/-- Enter RATE_CHANGE with a rate and width (R279). -/
def State.enterRateChange (s : State) (r w : Nat) : State :=
  ({ s with phy := { s.phy with rate := r, width := w } }.placeLanes w).clearSets.wr Reg.linkState Ls.rateChange

/-- The agreed value: the lower of the two requests (R278). -/
def agreed (own theirs : Nat) : Nat := if theirs = 255 then own else min own theirs

/-- A lane's number fits neither mapping (R277, R301). -/
def State.misnumbered (s : State) (p : Nat) : State := ((s.flag Reg.phyFlags 4).event 0x3007 p 2).phyViolation

/-- ALIGN_COMPLETE (R275, R277, R278). -/
def execAlignComplete (s : State) : Host.Outcome State Fault Refusal :=
  match s.bestRate 4, s.bestWidth with
  | some r, some w =>
    if s.ls = Ls.align && !s.phy.role && (List.range w).all (fun l => (s.physOf l).all s.laneAligned) then
      let rev := s.rxRev
      let bad := s.misfits
      let s := if rev then (s.wr Reg.rxReversed 1).flag Reg.phyFlags 3 else s
      let s := if rev || s.rd Reg.txReversed = 1 then s.event 0x3003 0xFF 2 else s
      let s := s.each bad (fun p s => s.misnumbered p)
      .next (s.enterRateChange (agreed r s.phy.reqRate) (agreed w s.phy.reqWidth))
    else .next s
  | _, _ => .next s

/-- ALIGN_TIMEOUT (R275, Table LP-4): lanes whose numbers left no width are reported (R277). -/
def execAlignTimeout (s : State) : Host.Outcome State Fault Refusal :=
  if s.ls = Ls.align then .next (s.each s.misfits (fun p s => s.misnumbered p)).enterDetect else .next s

/-- RATE_IDLE_EXPIRY (R279). -/
def execRateIdleExpiry (s : State) : Host.Outcome State Fault Refusal :=
  if s.ls = Ls.rateChange then .next (s.clearSets.wr Reg.linkState Ls.eq).beginSets else .next s

/-- A tap's byte held to its range (Table LP-6). -/
def tapByte (lim : Int) (b : Nat) : Nat := ofSigned 1 (clampInt (-lim) lim (asSigned 1 b))

/-- Five taps' bytes within their ranges. -/
def tapsOf (b : List Nat) : Nat := leValue ((List.range 5).map (fun i => tapByte (if i = 0 then 48 else 24) (b.getD i 0)))

/-- EQ_DONE (R280, R284, R285): the receivers of the width are ready. In table mode they hold their profiles' values, in adaptive
mode the CTLE codes and taps that adaptation has found, by physical lane. -/
def execEqDone (ctle : List Nat) (taps : List (List Nat)) (s : State) : Host.Outcome State Fault Refusal :=
  if s.ls ≠ Ls.eq then .next s
  else
    let s := s.each (allLanes.filter s.laneIn) (fun p s =>
      if s.rd Reg.eqMode = 0 then s.profileEq p
      else
        (s.wr (Reg.ctleNow p) (min 24 (ctle.getD p 0))).wr (Reg.dfeTaps p) (tapsOf (taps.getD p [])))
    .next (s.clearSets.wr Reg.linkState Ls.confirm).beginSets

/-- Scans whose rate or width is no longer the link's are abandoned (R300). -/
def State.dropStaleScans (s : State) : State :=
  s.each allLanes (fun p s =>
    if (s.scanOf p).rate = s.phy.rate && (s.scanOf p).width = s.phy.width then s else s.endScan p 4)

/-- CONFIRM_COMPLETE (R281): entry to ACTIVE, with each lane's skew in symbol times and the training's time in microseconds. -/
def execConfirmComplete (skew : List Nat) (us : BitVec 32) (s : State) : Host.Outcome State Fault Refusal :=
  let ls := allLanes.filter s.laneIn
  let ok := ls.all (fun p => 16 ≤ (s.lane p).ts2 && 16 ≤ (s.lane p).sinceTs2 && decide (skew.getD p 0 ≤ 16))
  if s.ls ≠ Ls.confirm || !ok then .next s
  else
    let s := s.each ls (fun p s => (s.wr (Reg.laneSkew p) (skew.getD p 0)).flag (Reg.laneStatus p) 3)
    let s := { s with phy := { s.phy with fast := false, role := false, roleLogged := false } }.dropStaleScans
    let s := ((s.wr Reg.linkState Ls.active).wr Reg.linkUp 1).wr Reg.linkUpStamp s.stamp
    let s := ((s.wr Reg.rateNow s.phy.rate).wr Reg.widthNow s.phy.width).wr Reg.trainTime us.toNat
    .next (((s.bump Reg.trainings).event 0x3001 0xFF s.phy.rate s.phy.width us.toNat).sessionBegin)

/-- The next attempt after a failed CONFIRM: a rate, a width and the flag it sets (R282). -/
def State.fallback (s : State) : Option (Nat × Nat × Nat) :=
  let r := s.phy.rate
  let w := s.phy.width
  let passed := fun l => allLanes.any (fun p => s.rd (Reg.laneLogical p) = l && 16 ≤ (s.lane p).gotTs2)
  let narrow := s.widths.find? (fun x => x ≤ w && (List.range x).all passed)
  let lower := if r = 0 then none else (s.bestRate (r - 1)).map (fun q => (q, w, 0))
  match narrow with
  | some x => if s.rd Reg.fallbackOrder = 1 && x < w then some (r, x, 1) else lower
  | none => lower

/-- CONFIRM_TIMEOUT (R282; R291 cause 8 for a fast retrain). -/
def execConfirmTimeout (s : State) : Host.Outcome State Fault Refusal :=
  if s.ls ≠ Ls.confirm then .next s
  else if s.phy.fast then .next (s.fullTraining 8)
  else match s.fallback with
    | some (r, w, f) => .next ((((s.bump Reg.rateFallbacks).flag Reg.phyFlags f).enterRateChange r w).dropStaleScans)
    | none => .next ((s.bump Reg.trainFails).enterDetect)

/-! ### Idle (R287) -/

/-- IDLE_ENTRY (R287): nothing to send for IDLE_ENTRY microseconds. -/
def execIdleEntry (s : State) : Host.Outcome State Fault Refusal :=
  if s.ls = Ls.active && s.rd Reg.txIdle = 0 && !s.somethingToSend then .next ((s.wr Reg.txIdle 1).bump Reg.idleEntries)
  else .next s

/-- IDLE_EXIT (R287): the link layer has something to send; its frames leave after the FTS and the SKP set. -/
def execIdleExit (s : State) : Host.Outcome State Fault Refusal :=
  if s.ls = Ls.active && s.rd Reg.txIdle = 1 && s.somethingToSend then .next s.wakeTx else .next s

/-- EIOS_RX (R287): a receiver gets an EIOS. -/
def execEiosRx (s : State) : Host.Outcome State Fault Refusal :=
  if s.ls = Ls.active then .next (s.wr Reg.rxIdle 1) else .next s

/-- RX_IDLE_EXIT (R287): a receiver in Idle sees signal and resynchronises. -/
def execRxIdleExit (s : State) : Host.Outcome State Fault Refusal :=
  if s.ls = Ls.active && s.rd Reg.rxIdle = 1 then .next (s.wr Reg.rxIdle 0) else .next s

/-- IDLE_EXIT_LOCK_TIMEOUT (R291 cause 9): a lane of the width sees signal and is not locked. -/
def execIdleExitLockTimeout (p : Lane) (s : State) : Host.Outcome State Fault Refusal :=
  if s.wasActive && s.laneIn p && s.rd Reg.rxIdle = 0 then .next ((s.unlock p).fastRetrain 9) else .next s

/-! ### Banked (R288-R290) -/

/-- The conditions of R288 for a handshake, the idle times apart, and R290's. -/
def State.bankOk (s : State) : Bool :=
  s.rd Reg.bankEn = 1 && s.phy.bankSent && s.rd Reg.partnerBank = 1 && s.phase = .guard && !s.pads.b4

/-- Both BNK sets have been exchanged: PLL and CDR off (R288 step 5). -/
def State.enterBanked (s : State) : State :=
  { s with phy := { s.phy with bnkOut := true, bnkIn := true } }.bump Reg.bankEntries |>.wr Reg.linkState Ls.banked

/-- BANK_START (R288 step 1): both directions have been idle for BANK_ENTRY microseconds. -/
def execBankStart (s : State) : Host.Outcome State Fault Refusal :=
  if s.ls = Ls.active && s.rd Reg.txIdle = 1 && s.rd Reg.rxIdle = 1 && s.bankOk && !s.somethingToSend then
    .next ({ s with phy := { s.phy with bnkOut := true, bnkIn := false } }.wr Reg.linkState Ls.banking)
  else .next s

/-- BNK_RX (R288 steps 2 to 4, R301): the answer to the module's own sets, or a start to be answered or refused. -/
def execBnkRx (s : State) : Host.Outcome State Fault Refusal :=
  if s.ls = Ls.banking then .next s.enterBanked
  else if s.ls = Ls.active then
    if s.bankOk then .next s.enterBanked
    else if !s.phy.bankSent then .next s.phyViolation
    else .next s
  else .next s

/-- Back to ACTIVE after a refused handshake; what waits has to leave Idle first (R288 step 3). -/
def State.bankRefused (s : State) : State :=
  { s with phy := { s.phy with bnkOut := false, bnkIn := false } }.wr Reg.linkState Ls.active

/-- BANK_NO_ANSWER (R288): no answer within 100 microseconds. -/
def execBankNoAnswer (s : State) : Host.Outcome State Fault Refusal :=
  if s.ls = Ls.banking then .next s.bankRefused else .next s

/-- BANK_REFUSAL_RX (R288 step 3): a SKP set followed by traffic, or by an EIOS. -/
def execBankRefusalRx (eios : Bool) (s : State) : Host.Outcome State Fault Refusal :=
  if s.ls = Ls.banking then .next (s.bankRefused.wr Reg.rxIdle (if eios then 1 else 0)) else .next s

/-- BANK_WAKE (R289): something to send, B4, or signal at a squelch detector. -/
def execBankWake (signal : Bool) (s : State) : Host.Outcome State Fault Refusal :=
  if s.ls = Ls.banked && (signal || s.pads.b4 || s.somethingToSend) then .next s.linkWake else .next s

/-- WAKE_COMPLETE (R289): the receivers are locked and SKP sets exchanged. -/
def execWakeComplete (s : State) : Host.Outcome State Fault Refusal :=
  if s.ls = Ls.waking then .next ((s.wr Reg.linkState Ls.active).wr Reg.rxIdle 0).wakeTx else .next s

/-- WAKE_FAIL (R289; R291 cause 7). -/
def execWakeFail (s : State) : Host.Outcome State Fault Refusal :=
  if s.ls = Ls.waking then .next ((((s.bump Reg.bankWakeFails).flag Reg.phyFlags 7).event 0x3006).fullTraining 7) else .next s

/-! ### Retrains and REFCLK (R291, R294) -/

/-- CODE_ERROR_RETRAIN (R291 cause 2): code errors of the width within T_ERR_WINDOW. -/
def execCodeErrorRetrain (errs : Nat) (s : State) : Host.Outcome State Fault Refusal :=
  if s.wasActive && s.rd Reg.errRetrain ≤ errs then .next (s.fastRetrain 2) else .next s

/-- DESKEW_LOSS (R281; R291 cause 3): a lane of the width other than logical lane 0. -/
def execDeskewLoss (p : Lane) (s : State) : Host.Outcome State Fault Refusal :=
  if s.wasActive && s.laneIn p && s.rd (Reg.laneLogical p) ≠ 0 then .next (s.fastRetrain 3) else .next s

/-- SILENCE_TIMEOUT (R291 cause 10): squelch on every lane of the width with no EIOS before it. -/
def execSilenceTimeout (s : State) : Host.Outcome State Fault Refusal :=
  if s.wasActive && s.rd Reg.rxIdle = 0 then .next (s.fullTraining 10) else .next s

/-- REFCLK_FAULT (R294; R291 cause 12): from the takeover on. -/
def execRefclkFault (s : State) : Host.Outcome State Fault Refusal :=
  if s.sup.running && s.taken && !s.phy.refBad then
    let s := ({ s with phy := { s.phy with refBad := true } }.flag Reg.phyFlags 5).event 0x3005 0xFF 1
    .next (if s.ls = Ls.disabled then s else s.linkDisable 12)
  else .next s

/-- REFCLK_GOOD (R294). -/
def execRefclkGood (s : State) : Host.Outcome State Fault Refusal :=
  if s.sup.running && s.phy.refBad then
    .next ({ s with phy := { s.phy with refBad := false } }.event 0x3005 0xFF 0).linkEnable
  else .next s

/-- The taps adapt continuously in ACTIVE and freeze while the receiver is idle (R285): the sample tells where they have come to (log
entry 29). -/
def State.tickTaps (s : State) : State :=
  s.iff (s.ls = Ls.active && s.rd Reg.eqMode = 1 && s.rd Reg.rxIdle = 0) (·.each allLanes (fun p s =>
    let t := s.smp.taps.getD p []
    s.iff (s.laneIn p && !t.isEmpty) (·.wr (Reg.dfeTaps p) (tapsOf t))))

/-- DFE_TAP_AT_LIMIT (R285): a tap, 0 to 4 for taps 1 to 5, has stayed at a limit of its range. -/
def execDfeTapAtLimit (p : Lane) (tap : Fin 5) (low : Bool) (s : State) : Host.Outcome State Fault Refusal :=
  if s.ls = Ls.active && s.rd Reg.eqMode = 1 && s.laneIn p then
    let lim : Int := if tap.val = 0 then 48 else 24
    let b := (leBytes 5 (s.rd (Reg.dfeTaps p))).set tap.val (ofSigned 1 (if low then -lim else lim))
    let s := (s.wr (Reg.dfeTaps p) (leValue b)).flag Reg.phyFlags 6
    .next (if s.phy.tapLogged then s
      else { s with phy := { s.phy with tapLogged := true } }.event 0x3004 p (tap.val + 1))
  else .next s

/-! ### Eye scan (R295-R300) -/

/-- The offsets −k·step to +k·step, rising, with k = floor(span ÷ step) (R296). -/
def eyeAxis (span step : Nat) : List Int :=
  let k := span / max 1 step
  (List.range (2 * k + 1)).map (fun (i : Nat) => ((i : Int) - k) * step)

/-- The number of points a scan of a type has (R296). -/
def eyeCount (kind hStep vStep : Nat) : Nat :=
  let h := 2 * (32 / max 1 hStep) + 1
  let v := 2 * (63 / max 1 vStep) + 1
  if kind = 0 then h else if kind = 1 then v else h * v

/-- The points of a scan in order, as phase and voltage offsets (R296). -/
def eyePointsOf (kind hStep vStep : Nat) : List (Int × Int) :=
  let hs := eyeAxis 32 hStep
  let vs := (eyeAxis 63 vStep).reverse
  if kind = 0 then hs.map (fun h => (h, 0)) else if kind = 1 then vs.map (fun v => (0, v))
  else vs.flatMap (fun v => hs.map (fun h => (h, v)))

/-- A scan of a lane starts with the settings given (R296, R297). -/
def State.startScan (s : State) (p kind hStep vStep dwell : Nat) : State :=
  let pts := eyePointsOf kind hStep vStep
  let s := s.setScan p { done := [], points := pts, running := true, counting := false, from_ := s.tick + 1, stamp := s.stamp,
                         rate := s.rd Reg.rateNow, width := s.rd Reg.widthNow, kind := kind, hStep := hStep, vStep := vStep,
                         dwell := dwell }
  ((s.wr (Reg.eyePoints p) pts.length).wr (Reg.eyeDone p) 0).wr (Reg.eyeCmd p) 1

/-- The N2 windows that a running scan cannot use, its PHY being held idle, are skipped and counted (R148, R297). -/
def State.tickEyes (s : State) : State :=
  s.each allLanes (fun p s =>
    let e := s.scanOf p
    s.iff (e.running && !e.counting && decide (e.from_ ≤ s.tick) && s.clk.tic = windowTick 49152 s.clk.shift
      && (s.bitOf Reg.idleHold 7 || s.bitOf Reg.idleHold 8)) (·.bump (Reg.winSkip 8)))

/-- EYE_STEP (R297): the first tick of a window N2. While the link is down the scan waits for ACTIVE (R300). -/
def execEyeStep (p : Lane) (s : State) : Host.Outcome State Fault Refusal :=
  let e := s.scanOf p
  if e.running && !e.counting && decide (e.from_ ≤ s.tick) && s.clk.tic = windowTick 49152 s.clk.shift then
    .next (s.iff (s.rd Reg.linkUp = 1 && s.laneIn p) (·.setScan p { e with counting := true }))
  else .next s

/-- The run of zero-error points around offset 0 on an axis in rising order, in points (R299). -/
def eyeOpening (l : List (Int × Nat)) : Nat :=
  let up := (l.filter (fun e => 0 ≤ e.1)).takeWhile (fun e => e.2 = 0)
  let down := ((l.filter (fun e => e.1 < 0)).reverse).takeWhile (fun e => e.2 = 0)
  if up.isEmpty then 0 else up.length + down.length

/-- EYE_WIDTH and EYE_HEIGHT of a completed scan (R299). -/
def EyeScan.dims (e : EyeScan) : Nat × Nat :=
  let q := e.points.zip e.done
  let row := (q.filter (fun x => x.1.2 = 0)).map (fun x => (x.1.1, x.2))
  let col := ((q.filter (fun x => x.1.1 = 0)).map (fun x => (x.1.2, x.2))).reverse
  (if e.kind = 1 then 0 else eyeOpening row * e.hStep, if e.kind = 0 then 0 else eyeOpening col * e.vStep)

/-- EYE_STEP_END (R297-R299): the dwell of the running step has been counted. -/
def execEyeStepEnd (p : Lane) (errs : BitVec 32) (s : State) : Host.Outcome State Fault Refusal :=
  let e := s.scanOf p
  if !e.counting then .next s
  else
    let e := { e with done := e.done ++ [errs.toNat], counting := false, from_ := s.tick }
    let over_ := decide (e.points.length ≤ e.done.length)
    let e := { e with running := !over_ }
    let s := ((s.setScan p e).wr (Reg.eyeDone p) e.done.length).wr (Reg.eyeStamp p) s.stamp
    .next (if over_ then (((s.wr (Reg.eyeWidth p) e.dims.1).wr (Reg.eyeHeight p) e.dims.2).wr (Reg.eyeCmd p) 2).reportScans else s)

/-- EYE_RESULT of a lane (R298). -/
def State.eyeBytes (s : State) (p : Nat) : List Nat :=
  let e := s.scanOf p
  let n := e.points.length
  if n = 0 then List.replicate 4112 0
  else
    [e.kind, e.hStep, e.vStep, e.dwell] ++ leBytes 2 n ++ leBytes 2 e.done.length ++ leBytes 6 e.stamp
      ++ [e.rate, s.rd (Reg.eyeCmd p)]
      ++ ((List.range 1024).flatMap (fun i => leBytes 4 (if i < n then e.done.getD i 0xFFFFFFFF else 0)))

end Sys2Proof.Machine
end

