-- ==== Sys2Proof/Machine/Views.lean ====
section
/-! DEFINITION. What a read of a parameter returns (spec/02_object_dictionary.md R47-R50 and the chapters' parameter tables):
the register, or what the parameter reports of the module's state at the moment of the read. -/
namespace Sys2Proof.Machine

/-- The source's code of LOGIC_SOURCE (Table AR-6). -/
def sourceCode : Source → Nat
  | .off => 0 | .iso => 1 | .vlog => 2 | .usb => 3

/-- Identity, supply and start (0x1000). -/
def State.view1000 (s : State) (k : Nat) : Nat :=
  if k = Reg.activity then s.activity
  else if k = Reg.protectedFlag then (if s.protectedNow then 1 else 0)
  else if k = Reg.logicSource then sourceCode s.sup.source
  else if k = Reg.sourcesPresent then bitIf s.sup.iso 0 + bitIf s.sup.vlog 1 + bitIf s.sup.usb 2 + bitIf s.sup.main 3
  else if k = Reg.startElapsed && s.phase = .start && s.clk.begun then s.clk.cyc * 1024 + s.clk.tic
  else s.rd k

/-- Open segmented transfers (R78). -/
def State.openTransfers (s : State) : Nat := (s.svc.srcs.filter (fun e => e.2.xfer.elim false (!·.fin))).length

/-- IDLE_STATE (R66, Table OD-5). -/
def State.idleStateNow (s : State) : Nat :=
  let h := s.rd Reg.idleHold
  h &&& (if s.atStep Step.configHeld then 0x7FF else 0x780)

/-- Locks and holds as a source reads them (0x1300). -/
def State.view1300 (s : State) (j k : Nat) : Nat :=
  if k = Reg.oemUnlock then (if s.unlocked j then 1 else 0)
  else if k = Reg.oemLock then (s.srcOf j).oemLock
  else if k = Reg.pwAttemptsLeft then s.svc.attempts
  else if k = Reg.oemState then
    bitIf (s.prot.password ≠ 0) 0 + bitIf (s.svc.attempts = 0) 1 + bitIf (s.unlocked j) 2
  else if k = Reg.idleState then s.idleStateNow
  else s.rd k

/-- A breakpoint of a curve BLOB, current or time, by its sub-index from `first` with `n` breakpoints (R182, R233). -/
def curveView (blob first n sub : Nat) : Nat :=
  if sub < first + n then curveI blob (sub - first) else curveT blob (sub - first - n)

/-- Planes of a die (0x4110 + d), by sub-index. -/
def State.viewDie (s : State) (k : Nat) : Nat :=
  let d := k / 256 - 0x4110
  let sub := k % 256
  let pos := fun (q : Nat) => 4 * q + d
  let on_ := decide (2 ≤ s.rd Reg.isState) || s.pouring
  let own := s.sto.nand.filter (fun e => e.1 / 1024 % 4 = d)
  let log := fun (q b : Nat) => 2 ≤ b && !s.isBad (blkKey (pos q) b)
  let n := ((List.range 4).map (fun q => s.goodOf (pos q))).sum
  if 0x0A ≤ sub && sub ≤ 0x0D then badIn s.sto.factory (pos (sub - 0x0A))
  else if !on_ then s.rd k
  else if 0x02 ≤ sub && sub ≤ 0x05 then s.goodOf (pos (sub - 0x02))
  else if 0x06 ≤ sub && sub ≤ 0x09 then s.preparedOf (pos (sub - 0x06))
  else if 0x0E ≤ sub && sub ≤ 0x11 then
    badIn ((s.sto.bad ++ s.sto.badHeld).filter (fun b => !s.sto.factory.contains b)) (pos (sub - 0x0E))
  else if sub = 0x12 then (own.map (fun e => e.2.erases)).foldl Nat.max 0
  else if sub = 0x13 then
    ((own.filter (fun e => log (e.1 / 1024 / 4) (e.1 % 1024))).map (fun e => e.2.erases)).sum / max 1 n
  else s.rd k

/-- Firmware, data flash and summaries (0x4200 to 0x4202). -/
def State.view4200 (s : State) (k : Nat) : Nat :=
  if k = Reg.bankBusy then s.bankBusyNow
  else if k = Reg.logHeadPos then s.log.head / 32
  else if k / 256 = 0x4202 then
    match s.sumSorted[k % 256 - 1]? with
    | some r => leValue (sumBytes r)
    | none => 0
  else s.rd k

/-- Node 1's own entry of the member table (Table CA-10). -/
def State.viewSelf (s : State) (k : Nat) : Nat :=
  let f := fun (at_ n : Nat) => field s.heartbeat at_ n
  if k = Reg.mState 0 then 1
  else if k = Reg.mLastHeard 0 then s.stamp
  else if k = Reg.mActivity 0 then f 0 2
  else if k = Reg.mFlags 0 then f 2 1
  else if k = Reg.mStartStep 0 then f 3 1
  else if k = Reg.mHeatLast 0 then f 12 4
  else if k = Reg.mFwVersion 0 then f 28 4
  else if k = Reg.mEventSeq 0 then f 16 4
  else if k = Reg.mSerial 0 then s.rd Reg.serialNo
  else if k = Reg.mHuGroup 0 then f 4 1
  else if k = Reg.mHuWeight 0 then f 5 1
  else if k = Reg.mLoadPeak 0 then f 8 4
  else s.rd k

/-- The ring's valid records in LOG_INDEX order: from the head around (R413, R468). -/
def State.ringOrder (s : State) (n : Nat) : Nat := (n + 2 * ringSlots - s.log.head - 1) % ringSlots

/-- Of the slots of a list, the one that comes first from the head around. -/
def State.firstSlot (s : State) (l : List Nat) : Option Nat :=
  l.foldl (fun acc n => match acc with
    | none => some n
    | some m => if s.ringOrder n < s.ringOrder m then some n else some m) none

/-- The slots that hold a valid record which passes a test, with it. -/
def State.validSlots (s : State) (c : LogRec → Bool) : List (Nat × LogRec) :=
  s.log.ring.filterMap (fun e => match e.2 with
    | .valid r _ => if c r then some (e.1, r) else none
    | _ => none)

/-- The oldest valid slot, and LOG_OLDEST_SEQ. -/
def State.oldestSlot (s : State) : Option Nat := s.firstSlot ((s.validSlots (fun _ => true)).map (·.1))
def State.oldestOwnSeq (s : State) : Nat :=
  let l := s.validSlots (fun r => r.kind = 1)
  match s.firstSlot (l.map (·.1)) with
  | some n => (l.find? (fun e => e.1 = n)).elim 0 (·.2.seq)
  | none => 0

/-- The LOG_INDEX a slot has or, where it holds no record, that of the next valid one or of the head (LOG_CURSOR). -/
def State.slotIndex (s : State) (n : Nat) : Nat :=
  if n = s.log.head then s.log.index.toNat
  else
    let later := (s.validSlots (fun _ => true)).map (·.1)
    match s.firstSlot (later.filter (fun m => s.ringOrder n ≤ s.ringOrder m)) with
    | some m => (match s.slot m with | .valid _ i => i.toNat | _ => 0)
    | none => s.log.index.toNat

/-- Events and sources (0x6000 to 0x60FF). -/
def State.view6000 (s : State) (k : Nat) : Nat :=
  if k = Reg.faultSummary then s.faultSummary
  else if k = Reg.logQueued then s.log.queue.length
  else if k = Reg.logOldestSeq then s.oldestOwnSeq
  else if 0x6020 ≤ k / 256 then
    let x := s.srcOf (k / 256 - 0x6020)
    if k % 256 = 1 then (if x.quarLeft = 0 then 0 else 1)
    else if k % 256 = 2 then x.quarLeft
    else if k % 256 = 3 then windowSum (liveWindow s.clk.cyc x.window)
    else s.rd k
  else s.rd k

/-- Log access as a source reads it (0x6100). -/
def State.view6100 (s : State) (j k : Nat) : Nat :=
  let x := s.srcOf j
  if k = Reg.logCmd then (if x.logResult = 1 && x.cursor.isNone then 0 else x.logResult)
  else if k = Reg.logSeekSeq then x.seekSeq
  else if k = Reg.logFilter then x.filter
  else if k = Reg.logReadTorn then x.readTorn
  else if k = Reg.logCursor then (match x.cursor with | some n => s.slotIndex n | none => 0)
  else s.rd k

/-- Diagnostics (0x7000). -/
def State.view7000 (s : State) (k : Nat) : Nat :=
  let mask := fun (c : Nat → Bool) => ((List.range 12).map (fun p => bitIf (c p) p)).sum
  if k = Reg.padLimited then mask s.padLimited
  else if k = Reg.padOff then s.pads.off
  else if k = Reg.padReadback then s.smp.pads.toNat
  else s.rd k

/-- The value of a parameter as source `j` reads it. -/
def State.view (s : State) (j k : Nat) : Nat :=
  let idx := k / 256
  let sub := k % 256
  if sub = 0 then maxSub idx
  else if idx = 0x1000 then s.view1000 k
  else if k = Reg.openTransfers then s.openTransfers
  else if k = Reg.stampNow then s.stamp
  else if k = Reg.angleNow then s.clk.tic * 64
  else if idx = 0x1300 then s.view1300 j k
  else if (idx = 0x2001 || idx = 0x2041) && 0x10 ≤ sub && sub ≤ 0x1F then curveView (s.rd (idx * 256 + 3)) 0x10 8 sub
  else if idx = 0x2200 && 0x21 ≤ sub && sub ≤ 0x28 then curveView (s.rd Reg.huItCurve) 0x21 4 sub
  else if 0x3080 ≤ idx && idx ≤ 0x3083 && sub = 8 then leValue (s.eyeBytes (idx - 0x3080))
  else if k = Reg.quarantineLeft then (s.srcOf 0).quarLeft
  else if 0x4110 ≤ idx && idx ≤ 0x4113 then s.viewDie k
  else if 0x4200 ≤ idx && idx ≤ 0x4203 then s.view4200 k
  else if 0x5101 ≤ idx && idx ≤ 0x513F && sub = 1 && (s.srcOf (idx - 0x5100 + 3)).quarLeft ≠ 0 then 3
  else if idx = 0x5100 then s.viewSelf k
  else if 0x6000 ≤ idx && idx ≤ 0x60FF then s.view6000 k
  else if idx = 0x6100 then s.view6100 j k
  else if idx = 0x7000 then s.view7000 k
  else s.rd k

/-- The row of a parameter, sub-index 0 among them (R48). -/
def rowIn (k : Nat) : Option Row :=
  if k % 256 = 0 then
    (if (rowsOf (k / 256)).isEmpty then none else some ⟨0, .u8, .ro, .volatile, 0, 0, .any, false⟩)
  else rowAt k

/-- The bytes a read of a parameter returns (R49). -/
def State.viewBytes (s : State) (j k : Nat) : List Nat :=
  leBytes ((rowIn k).elim 0 (fun r => tySize r.ty)) (s.view j k)

/-- The descriptor of a parameter (Table OD-4). -/
def State.descriptor (s : State) (k : Nat) : List Nat :=
  match rowIn k with
  | none => []
  | some r =>
    let half := match r.ty with | .u64 => true | .stamp48 => true | _ => false
    [tyCode r.ty, accCode r.acc, perCode r.per, r.unit] ++ leBytes 2 (tySize r.ty)
      ++ [bitIf r.flag 0 + bitIf (s.hidden k) 1 + bitIf half 2, if r.acc = .rwi then holdBit (k / 256) else 0xFF]

end Sys2Proof.Machine
end

