-- ==== Sys2Proof/Machine/Checks.lean ====
section
/-! DEFINITION. The checks a written or loaded value meets (spec/02_object_dictionary.md R49, R52): length and type, range, step,
listed values, reserved bits, and consistency with other parameters as the chapters state it. -/
namespace Sys2Proof.Machine

/-! ### The value alone -/

/-- The lowest bit set outside a mask. -/
def lowestOutside (mask v : Nat) : Nat := ((List.range 64).find? (fun i => v.testBit i && !mask.testBit i)).getD 0

/-- A range (0x03020000 above it, 0x03030000 below it) and a step (0x03080000). -/
def rangeFault (lo hi step v : Int) : Option (Nat × Nat) :=
  if hi < v then some (0x03020000, 0) else if v < lo then some (0x03030000, 0)
  else if v % step ≠ 0 then some (0x03080000, 0) else none

/-- A parameter's own check: abort code and detail where it fails. -/
def chkFault (c : Chk) (signed : Bool) (size v : Nat) : Option (Nat × Nat) :=
  let x : Int := if signed then asSigned size v else v
  match c with
  | .any => none
  | .range lo hi => rangeFault lo hi 1 x
  | .stepped lo hi step => rangeFault lo hi step x
  | .zeroOr lo hi step => if x = 0 then none else rangeFault lo hi step x
  | .oneOf l => if l.contains v then none else some (0x03040000, 0)
  | .bits mask => if v &&& mask = v then none else some (0x03050000, lowestOutside mask v)

/-- The bytes of a STR: printable up to the first 0x00, and nothing but 0x00 after it (R49). -/
def strOk (l : List Nat) : Bool :=
  (l.takeWhile (· ≠ 0)).all (fun b => decide (0x20 ≤ b ∧ b ≤ 0x7E)) && (l.dropWhile (· ≠ 0)).all (· = 0)

/-- The length a write of a type may have (R49): abort 0x03010000 with the expected length. -/
def lenFault (t : Ty) (n : Nat) : Option (Nat × Nat) :=
  match t with
  | .str m => if n ≤ m then none else some (0x03010000, m)
  | t => if n = tySize t then none else some (0x03010000, tySize t)

/-- What the encoding of a type refuses (Table OD-1). -/
def tyFault (t : Ty) (l : List Nat) : Option (Nat × Nat) :=
  match t with
  | .bool => if leValue l ≤ 1 then none else some (0x03040000, 0)
  | .str _ => if strOk l then none else some (0x03040000, 0)
  | _ => none

/-- A lane profile (Table LP-6, R286): each field in its range, reserved bits and byte 0. -/
def profileFault (l : List Nat) : Option (Nat × Nat) :=
  let b := fun (i : Nat) => l.getD i 0
  let tap := fun (i lim : Nat) => decide ((asSigned 1 (b i)).natAbs ≤ lim)
  if 2 ≤ b 3 then some (0x03050000, 24 + lowestOutside 1 (b 3))
  else if b 9 ≠ 0 then some (0x03050000, 72 + lowestOutside 0 (b 9))
  else if b 0 ≤ 16 && b 1 ≤ 19 && b 2 ≤ 24 && tap 4 48 && [5, 6, 7, 8].all (fun i => tap i 24) then none
  else some (0x03020000, 0)

/-- Everything that concerns the value alone (R52, R411). -/
def valueFault (k : Nat) (r : Row) (l : List Nat) : Option (Nat × Nat) :=
  (lenFault r.ty l.length).orElse fun _ =>
    (tyFault r.ty l).orElse fun _ =>
      (chkFault r.chk (tySigned r.ty) (tySize r.ty) (leValue l)).orElse fun _ =>
        if k / 256 = 0x3001 then profileFault l else none

/-! ### Consistency with other parameters -/

/-- A rule among parameters: those it involves, and whether their values break it. -/
structure CRule where
  keys : List Nat
  bad : (Nat → Nat) → Bool
  /-- The index the abort names where it is not that of another parameter of the rule. -/
  own : Bool := false

/-- kbit/s of the nominal and the data-phase rate codes (Table OD-12). -/
def nomK (c : Nat) : Nat := [125, 250, 500, 1000].getD c 0
def dataK (c : Nat) : Nat := [0, 1000, 2000, 4000, 5000].getD c 0

/-- Of an I-t curve with `n` breakpoints: the currents rise and the times fall strictly (R182, R233). -/
def curveOrdered (blob n : Nat) : Bool :=
  (List.range (n - 1)).all (fun i => curveI blob i < curveI blob (i + 1) && curveT blob (i + 1) < curveT blob i)

/-- The feeds' rules (R182, R183). -/
def feedRules (f : Nat) : List CRule :=
  [{ keys := [Reg.itCurve f, Reg.fastTrip f, Reg.shuntR f]
     bad := fun g => !(curveOrdered (g (Reg.itCurve f)) 8) ||
       decide (g (Reg.fastTrip f) * 1000000 ≤ curveI (g (Reg.itCurve f)) 7 * g (Reg.shuntR f)) },
   { keys := [Reg.fetTwarn f, Reg.fetTmax f]
     bad := fun g => decide (asSigned 2 (g (Reg.fetTmax f)) ≤ asSigned 2 (g (Reg.fetTwarn f))) }]

/-- A rail's rules (R263). -/
def railRules (n : Nat) : List CRule :=
  [{ keys := [Reg.offLevel n, Reg.uvFault n, Reg.uvWarn n, Reg.ovWarn n, Reg.ovFault n, Reg.levelHyst n]
     bad := fun g => !(decide (g (Reg.offLevel n) < g (Reg.uvFault n) ∧ g (Reg.uvFault n) < g (Reg.uvWarn n)
       ∧ g (Reg.uvWarn n) < 1000 ∧ 1000 < g (Reg.ovWarn n) ∧ g (Reg.ovWarn n) < g (Reg.ovFault n)
       ∧ g (Reg.levelHyst n) < g (Reg.uvWarn n) - g (Reg.uvFault n))) },
   { keys := [Reg.railNom n, Reg.ovFault n, Reg.vsGain n, Reg.judge n]
     bad := fun g => (g (Reg.judge n) = 1 || g (Reg.judge n) = 2) &&
       decide (6000 * g (Reg.vsGain n) < g (Reg.railNom n) * g (Reg.ovFault n)) },
   { keys := [Reg.railMode n, Reg.hostRail], own := true
     bad := fun g => g Reg.hostRail = n && g (Reg.railMode n) = 0 }]

/-- Every rule of the chapters: R52 (CAN rates), R182, R183, R205, R209, R210, R223, R227, R233, R263, R293, Table LL's credit
rule, R363, and that of Table SV-11. -/
def rules : List CRule :=
  [{ keys := [Reg.canNomRate, Reg.canDataRate]
     bad := fun g => g Reg.canDataRate ≠ 0 && decide (dataK (g Reg.canDataRate) < nomK (g Reg.canNomRate)) }]
  ++ feedRules 0 ++ feedRules 1 ++
  [{ keys := [Reg.cellTarget, Reg.cellVmax], bad := fun g => decide (g Reg.cellVmax < g Reg.cellTarget + 50) },
   { keys := [Reg.chgI, Reg.chgRsense], bad := fun g => decide (100000000 < g Reg.chgI * g Reg.chgRsense) },
   { keys := [Reg.balOn, Reg.balOff], bad := fun g => decide (g Reg.balOn ≤ g Reg.balOff) },
   { keys := [Reg.pairSumTol, Reg.pairDev], bad := fun g => decide (g Reg.pairDev ≤ g Reg.pairSumTol) },
   { keys := [Reg.huSetpoint, Reg.ladleCells, Reg.cellVmax]
     bad := fun g => decide (g Reg.huSetpoint < g Reg.ladleCells * g Reg.cellVmax + 1000) },
   { keys := [Reg.huIMax, Reg.huRsense], bad := fun g => decide (100000000 < g Reg.huIMax * g Reg.huRsense) },
   { keys := [Reg.huItCurve, Reg.huIMax]
     bad := fun g => !(curveOrdered (g Reg.huItCurve) 4) || decide (3 * g Reg.huIMax ≤ 2 * curveI (g Reg.huItCurve) 3) }]
  ++ (List.range 8).flatMap railRules ++
  [{ keys := [Reg.laneMask], bad := fun g => !((g Reg.laneMask).testBit 0) && !((g Reg.laneMask).testBit 3) },
   { keys := [Reg.pwdOff, Reg.pwdDrain, Reg.pwdSeal]
     bad := fun g => decide (g Reg.pwdOff ≤ g Reg.pwdDrain + g Reg.pwdSeal) },
   { keys := [Reg.svcDampWatch, Reg.dampLimit], bad := fun g => decide (g Reg.svcDampWatch ≤ g Reg.dampLimit) },
   { keys := [Reg.svcEyeAct, Reg.svcEyeWatch], bad := fun g => decide (g Reg.svcEyeWatch ≤ g Reg.svcEyeAct) }]
  ++ (List.range 8).map (fun i => { keys := [Reg.creditStep i, Reg.creditCap i]
                                    bad := fun g => decide (g (Reg.creditCap i) < g (Reg.creditStep i)) })

/-- The index an abort 0x03060000 names: another parameter's (R52); for a rail's mode and HOST_RAIL the rail's own (R263). -/
def CRule.names (r : CRule) (k : Nat) : Nat :=
  if r.own then r.keys.headD 0 / 256
  else (r.keys.find? (fun q => q / 256 ≠ k / 256)).getD k / 256

/-- Whether a value for `k` conflicts with another parameter of the working set (R52). -/
def State.conflict (s : State) (k v : Nat) : Option Nat :=
  (rules.find? (fun r => r.keys.contains k && r.bad (fun q => if q = k then v else s.rd q))).map (·.names k)

/-- Every check of R52 on a write: the abort code and detail, or the accepted value. -/
def State.checkWrite (s : State) (k : Nat) (r : Row) (l : List Nat) : Except (Nat × Nat) Nat :=
  match valueFault k r l with
  | some e => .error e
  | none =>
    match s.conflict k (leValue l) with
    | some i => .error (0x03060000, i)
    | none => .ok (leValue l)

/-! ### A loaded set (R411) -/

/-- The value a loaded set gives a parameter: its entry, else the default. -/
def loadedAt (l : Table Nat) (k : Nat) : Nat := tget (dfltAt k) l k

/-- Take out every entry that a failing rule involves. -/
def revertOnce (l : Table Nat) : Table Nat :=
  let hit := ((rules.filter (fun r => r.bad (loadedAt l))).flatMap (·.keys))
  l.filter (fun e => !(hit.contains e.1))

/-- Revert until no rule fails; `n` bounds the passes by the entries there are. -/
def revertAll : Nat → Table Nat → Table Nat
  | 0, l => l
  | n + 1, l => if rules.any (fun r => r.bad (loadedAt l)) then revertAll n (revertOnce l) else l

/-- The entries of a copy that name a persisted parameter, fit its size and pass the checks of the value alone. -/
def goodEntries (l : List (Nat × Nat × Nat)) : List (Nat × Nat) :=
  l.filterMap (fun e => (rowAt e.1).bind (fun r =>
    if r.per = .persisted && e.2.1 = tySize r.ty && (valueFault e.1 r (leBytes e.2.1 e.2.2)).isNone then some (e.1, e.2.2)
    else none))

/-- A copy's entries as they are loaded, and how many were skipped or reverted. -/
def loadEntries (l : List (Nat × Nat × Nat)) : Table Nat × Nat :=
  let good := goodEntries l
  let t := good.foldl (fun t e => tput t e.1 e.2) []
  let kept := revertAll good.length t
  (kept, l.length - kept.length)

end Sys2Proof.Machine
end

