-- ==== Sys2Proof/Machine/ConfigOps.lean ====
section
/-! DEFINITION. Settings applied to their blocks, the commit, defaults, reload and load of the config store
(spec/02_object_dictionary.md R51, R56-R59; spec/06_start_up.md R159; spec/16_onchip_flash.md R409-R412). -/
namespace Sys2Proof.Machine

/-! ### Settings -/

/-- A changed setting acts on its block: one of the HV die's share over B3 (R18, R23), once the whole share has been sent (R161,
R500). -/
def State.settingApplied (s : State) (k v : Nat) : State :=
  if !hvShare k then s.refreshOpen
  else if s.bar.shareSent then s.sendCmd [(k, v)] else s

/-- An accepted write of a setting (R50, R52). -/
def State.writeSetting (s : State) (k v : Nat) : State := (s.wr k v).settingApplied k v

/-! ### The persisted parameters -/

/-- The indices that hold persisted parameters, in ascending order. -/
def settingIndices : List Nat :=
  [0x1000, 0x1100, 0x1200, 0x2000, 0x2001, 0x2002, 0x2003, 0x2030, 0x2040, 0x2041, 0x2042, 0x2043, 0x2100, 0x2101, 0x2102,
   0x2103] ++ (List.range 14).map (· + 0x2120) ++ [0x2200, 0x2201, 0x2300] ++ (List.range 8).map (· + 0x2310)
  ++ [0x3000, 0x3001] ++ (List.range 4).map (· + 0x3010)
  ++ [0x3100, 0x3200] ++ (List.range 8).map (· + 0x3210) ++ [0x4000, 0x4100, 0x5000, 0x6000, 0x7000]

/-- Every persisted parameter with its size, in ascending index and sub-index order. -/
def persisted : List (Nat × Nat) :=
  settingIndices.flatMap (fun i =>
    ((rowsOf i).filter (fun r => r.per = .persisted)).map (fun r => (i * 256 + r.sub, tySize r.ty)))

/-- The working set: every persisted parameter that differs from its default. -/
def State.workingSet (s : State) : List (Nat × Nat) := s.reg.filter (fun e => isSetting e.1)

/-- Whether an RWI parameter's block is not idle (R50, R66). -/
def State.rwiBusy (s : State) (k : Nat) : Bool :=
  (rowAt k).elim false (fun r => r.acc = .rwi) && !(s.idleStateNow.testBit (holdBit (k / 256)))

/-- The first index that holds an RWI parameter whose block is not idle; 0 where there is none. -/
def State.firstSkipped (s : State) : Nat :=
  (settingIndices.find? (fun i => (rowsOf i).any (fun r => r.acc = .rwi) && !(s.idleStateNow.testBit (holdBit i)))).getD 0

/-- Put a whole set into the working set: what it lists, else the default; RWI parameters whose block is not idle keep their
values, and RELOAD_SKIPPED names the first (R51, R59). Consistency is judged among the copy's own entries, not against the values that
are kept (DESIGN CHOICE, log entry 83). -/
def State.putSet (s : State) (l : Table Nat) : State :=
  let old := s
  let kept := s.reg.filter (fun e => !(isSetting e.1) || s.rwiBusy e.1)
  let reg := l.foldl (fun t e => if old.rwiBusy e.1 then t else regSet t e.1 e.2) kept
  let s := { s with reg := reg }
  let changed := ((old.reg ++ reg).map (·.1)).filter (fun k => isSetting k && old.rd k ≠ s.rd k)
  (s.wr Reg.reloadSkipped old.firstSkipped).each changed.eraseDups (fun k s => s.settingApplied k (s.rd k))

/-! ### The config store -/

/-- A valid copy's sequence. -/
def Copy.seqOf : Copy → Option Nat
  | .valid q _ _ _ => some q
  | .blank => none
  | .torn => none

/-- Of two sequences, whether the second is later under R11 (at a distance of 2^31 left open, log entry 1). -/
def seqLater (a b : Nat) : Bool := laterCount (BitVec.ofNat 32 a) (BitVec.ofNat 32 b)

/-- Two sequences lie 2^31 apart. -/
def seqHalf (a b : Nat) : Bool := (BitVec.ofNat 32 b - BitVec.ofNat 32 a).toNat = 2 ^ 31

/-- The bank whose valid copy CONFIG_LOAD takes: 0 cope, 1 drag; cope where the sequences are equal or 2^31 apart (R411). -/
def State.bestBank (s : State) : Option Nat :=
  match s.fla.cope.seqOf, s.fla.drag.seqOf with
  | some a, some b => some (if !seqHalf a b && seqLater a b then 1 else 0)
  | some _, none => some 0
  | none, some _ => some 1
  | none, none => none

/-- A copy bears the magic: a valid one does, a torn one by what its first bytes read as (R411). -/
def State.bearsMagic (s : State) (bank : Nat) : Bool :=
  (List.range 4).map (copyByte bank (s.copyOf bank)) = [0x4B, 0x4B, 0x43, 0x46]

/-- The entries of a snapshot (R409). -/
def entriesOf (snap : List (Nat × Nat)) : List (Nat × Nat × Nat) :=
  persisted.map (fun e => (e.1, e.2, tget (dfltAt e.1) snap e.1))

/-- The sectors a commit erases (R410): sector 0 and every one the body will occupy. -/
def commitSectors (snap : List (Nat × Nat)) : List Nat :=
  List.range (1 + ((bodyBytes (entriesOf snap)).length + 2047) / 2048)

/-- CONFIG_COMMIT 1 (R56): the snapshot is taken and the bank that does not hold the highest valid sequence is written, cope where
neither is valid. -/
def State.beginCommit (s : State) : State :=
  let bank := match s.bestBank with | some 0 => 1 | some _ => 0 | none => 0
  { (s.wr Reg.configCommit 1) with
    svc := { s.svc with commit := some (bank, s.workingSet) }
    fla := { s.fla with left := commitSectors s.workingSet, begun := false } }

/-- The sequence the running commit writes. -/
def State.commitSeq (s : State) : Nat :=
  match s.bestBank with
  | some b => ((s.copyOf b).seqOf.getD 0 + 1) % 2 ^ 32
  | none => 1

/-- The words a commit programs: its body and the header (R410). -/
def commitWords (snap : List (Nat × Nat)) : Nat := (bodyBytes (entriesOf snap)).length / 8 + 8

/-- The commit has ended; the erase it suspended resumes and waiting records are written (R410, R414). -/
def State.commitOver (s : State) : State :=
  let s := s.resumeDf
  if s.log.wanted then s.flushLog else s

/-- COMMIT_DONE (R57, R410): the header's last word is programmed, or the commit has failed. Neither is before its erases have been
made; a commit that fails has programmed an open number of its words (log entry 94). -/
def execCommitDone (ok : Bool) (s : State) : Host.Outcome State Fault Refusal :=
  match s.svc.commit with
  | none => .next s
  | some (bank, snap) =>
    if s.fla.nested.isSome || (ok && s.fla.left ≠ []) then .next s
    else
    let seq := s.commitSeq
    let s := { s with svc := { s.svc with commit := none } }
    if ok then
      let s := s.bumpBy Reg.wordsProgrammed (commitWords snap)
      let c := Copy.valid seq s.stamp (s.rd Reg.fwVersion) (entriesOf snap)
      let s := { (s.setCopy bank c) with svc := { s.svc with lastBank := bank + 1 } }
      let s := ((s.wr Reg.configBank (bank + 1)).wr Reg.configSeq seq).wr Reg.configStamp s.stamp
      .next (((s.wr Reg.configCommit 2).flag Reg.serviceFlags 0).event 0x1101 0xFF 2 seq).commitOver
    else
      let s := if s.fla.begun then s.setCopy bank .torn else s
      let s := s.iff (s.fla.begun && s.fla.left = [])
        (fun s => (s.bumpBy Reg.wordsProgrammed (s.freeVal % (commitWords snap))).freeNext)
      .next (((s.wr Reg.configCommit 3).flag Reg.serviceFlags 1).event 0x1101 0xFF 3 (s.rd Reg.configSeq)).commitOver

/-- The entries of a bank's copy as they are loaded, and how many were skipped. -/
def State.loadBank (s : State) (bank : Nat) : Table Nat × Nat :=
  match s.copyOf bank with
  | .valid _ _ _ l => loadEntries l
  | .blank => ([], 0)
  | .torn => ([], 0)

/-- What 0x1100:02, 03 and 05 report of a copy taken. -/
def State.noteCopy (s : State) (bank : Nat) : State :=
  match s.copyOf bank with
  | .valid q st _ _ =>
    { (((s.wr Reg.configBank (bank + 1)).wr Reg.configSeq q).wr Reg.configStamp st) with
      svc := { s.svc with lastBank := bank + 1 } }
  | .blank => s
  | .torn => s

/-- CONFIG_COMMIT 3 (R59, R412): the copy last loaded or written in this boot, else the one CONFIG_LOAD would take; none valid
gives the defaults. An erase that runs in the copy's bank is suspended for the reads and resumed, which DF_SUSPENDS counts. R57 speaks of a commit's result: 2 of a reload or of the defaults sets no flag and no CONFIG_STAMP of its own
(DESIGN CHOICE, log entry 82). -/
def State.reload (s : State) : State :=
  let bank := if s.svc.lastBank = 0 then s.bestBank else some (s.svc.lastBank - 1)
  match bank with
  | none => (s.putSet []).wr Reg.configCommit 2
  | some b =>
    let l := s.loadBank b
    let s := s.iff (s.dataErasing b) (·.bump Reg.dfSuspends)
    ((s.noteCopy b).putSet l.1).bumpBy Reg.configLoadSkips l.2 |>.wr Reg.configCommit 2

/-- CONFIG_COMMIT 2 (R51): every persisted parameter back to its default. -/
def State.putDefaults (s : State) : State := (s.putSet []).wr Reg.configCommit 2

/-- CONFIG_LOAD's choice and result (R159, R411): the set in force, the result, the flags and the event. -/
def State.loadConfig (s : State) : State :=
  let s := { s with reg := s.reg.filter (fun e => !(isSetting e.1)) }
  match s.bestBank with
  | none =>
    ((s.wr Reg.configLoadResult 0).flag Reg.startFlags 1).event 0x1102 0xFF 0 (s.rd Reg.configSeq) (s.rd Reg.configLoadSkips)
  | some b =>
    let l := s.loadBank b
    let other := 1 - b
    let result := if (s.copyOf other).seqOf.isNone && s.bearsMagic other then 2 else 1
    let s := { s with reg := l.1.foldl (fun (t : Table Nat) (e : Nat × Nat) => regSet t e.1 e.2) s.reg }
    let s := (((s.noteCopy b).wr Reg.configLoadResult result).bumpBy Reg.configLoadSkips l.2).iff (result = 2)
      (·.flag Reg.serviceFlags 2)
    s.event 0x1102 0xFF result (s.rd Reg.configSeq) (s.rd Reg.configLoadSkips)

/-- CONFIG_COMMIT written (R53, R56-R59): the abort, or the state after. -/
def State.doCommit (s : State) (v : Nat) : WOut :=
  if s.svc.commit.isSome then .abort 0x04050000 0
  else if v = 1 then .ok s.beginCommit
  else if v = 2 then .ok s.putDefaults
  else if v = 3 then .ok s.reload
  else .abort 0x03040000 0

end Sys2Proof.Machine
end

