-- ==== Sys2Proof/Machine/Store.lean ====
section
/-! DEFINITION. The image store's commands (spec/15_image_store.md R384-R397). -/
namespace Sys2Proof.Machine

/-- Pages that are read back after programming: seal, summary and map pages (R386). -/
def Page.readBack (p : Page) : Bool := p.cast.isSome || p.kind = 4 || p.kind = 5

/-- What becomes true with a programmed and verified page: retirement marks, a seal, a map (R336, R356, R382). -/
def State.pageDone (s : State) (p : Page) : State :=
  let s := (s.landPage p false).bump Reg.pagesProgrammed
  let s := { s with sto := { s.sto with pages := s.sto.pages.filter (fun q => !(q.seq = p.seq && q.kind = p.kind && q.pos = p.pos)) } }
  if p.kind = 5 then
    { s with sto := { s.sto with
        bad := s.sto.bad ++ s.sto.badHeld.filter p.marks
        badHeld := s.sto.badHeld.filter (fun k => !p.marks k)
        mapSeq := tput s.sto.mapSeq p.pos p.seq } }.queueMap p.pos
  else
    let s := s.each (p.ents.filter (fun e => e.kind = 3)) (fun e s => s.markDurable (e.stream % 8) e.epoch)
    match p.cast with
    | some x => s.sealDurable x p.seq
    | none => s

/-- The items of a page's entries that are placed again (R388). -/
def Page.items (p : Page) : List Item :=
  p.ents.filterMap (fun e =>
    if e.kind = 3 then some (.mark e.stream e.epoch (leValue (e.bytes.take 6)))
    else if e.kind = 6 then some (.marker (leValue (e.bytes.take 6)) (e.bytes.getD 6 0) (leValue ((e.bytes.drop 8).take 2)))
    else if e.kind = 2 then p.cast.map Item.closing
    else none)

/-- The crucible records with a chunk in some page of a list: they are placed again, whole. -/
def State.hitRecs (s : State) (ps : List Page) : List CruRec :=
  s.sto.crucible.filter (fun c => ps.any (fun p => p.kind ≠ 5 && c.pages.contains p.seq))

/-- A page has failed to program, or its read-back has (R386, R388): its position leaves the row, its contents and those of
pages assigned after it at that position are placed again, the block is grown bad. -/
def State.pageFailed (s : State) (p : Page) : State :=
  let s := ((s.bump Reg.progFails).flag Reg.isFlags 1).event 0x4103 (dieOf p.pos) (planeOf p.pos) p.block
  let s := s.landPage p true
  let s := { s with sto := { s.sto with pages := s.sto.pages.filter (fun q => !(q.seq = p.seq && q.kind = p.kind && q.pos = p.pos)) } }
  if p.kind = 5 then { s with sto := { s.sto with mapSeq := tput s.sto.mapSeq p.pos p.seq } }.queueMap p.pos
  else
    let lost := p :: s.sto.pages.filter (fun q => q.kind ≠ 5 && q.row = p.row && q.pos = p.pos)
    let recs := s.hitRecs lost
    let hit := fun (it : Item) => match it with
      | .record st q _ => recs.any (fun c => c.r.stream = st && c.r.seq = q)
      | _ => false
    let again := recs.map (fun (c : CruRec) => Item.record c.r.stream c.r.seq 0) ++ lost.flatMap Page.items
    let drop := 2 ^ p.pos
    let row := match s.sto.row with
      | some r => if r.seq = p.row then some { r with mask := r.mask ^^^ (r.mask &&& drop) } else some r
      | none => none
    let s := { s with sto := { s.sto with
        pages := (s.sto.pages.filter (fun (q : Page) => !(q.kind ≠ 5 && q.row = p.row && q.pos = p.pos))).map (fun (q : Page) =>
          if q.row = p.row && p.seq < q.seq then { q with mask := q.mask ^^^ (q.mask &&& drop) } else q)
        crucible := s.sto.crucible.map (fun (c : CruRec) =>
          if recs.any (fun (d : CruRec) => d.r.stream = c.r.stream && d.r.seq = c.r.seq) then { c with pages := [] } else c)
        todo := again ++ s.sto.todo.filter (fun it => !hit it)
        row := row } }
    (s.wr Reg.openRowMask (row.elim 0 (·.mask))).growBad (blkKey p.pos p.block)

/-- A read of a die's pages corrected `bits` bits in its worst codeword (R383). -/
def State.corrected (s : State) (d bits : Nat) : State :=
  let s := s.wr (Reg.maxCorrected d) (max bits (s.rd (Reg.maxCorrected d)))
  if s.rd Reg.warnBits ≤ bits then (s.flag Reg.isFlags 4).event 0x4105 d 0 bits else s

/-- PAGE_PROGRAM_DONE (R384, R386): a die's pages have programmed; `bits` is the worst correction met where they are read
back. A page whose read-back fails is a program failure. -/
def execPageProgramDone (d : Die) (bits : Nat) (s : State) : Host.Outcome State Fault Refusal :=
  let ps := s.sto.pages.filter (fun p => p.busy && dieOf p.pos = d.val)
  if ps.isEmpty || s.rd Reg.isState ≠ 2 then .next s
  else
    let s := s.iff (ps.any Page.readBack && bits ≤ 40) (·.corrected d bits)
    let bad := fun (p : Page) => p.readBack && decide (s.rd Reg.verifyBits < bits)
    let s := s.each ps (fun p s => if bad p then s.pageFailed p else s.pageDone p)
    .next (s.refreshDie d).pump

/-- PROGRAM_FAIL (R388): the page that die d programs in plane q fails. -/
def execProgramFail (d : Die) (q : Plane) (s : State) : Host.Outcome State Fault Refusal :=
  match s.sto.pages.find? (fun p => p.busy && p.pos = 4 * q.val + d.val) with
  | some p => .next ((s.pageFailed p).refreshDie d).pump
  | none => .next s

/-- PAGE_WAIT_EXPIRY (R384): the page being assigned has waited PAGE_WAIT; its remaining slots are padded. -/
def execPageWaitExpiry (s : State) : Host.Outcome State Fault Refusal :=
  if s.rd Reg.isState = 2 && s.curPage.isSome then .next s.padOpen.pump else .next s

/-! ### Erases (R392-R395) -/

/-- The next block to erase with its reason: a queued one, else the next to fettle. -/
def State.nextErase (s : State) : Option (Nat × Nat) :=
  match s.sto.eraseQueue with
  | e :: _ => some e
  | [] => s.nextFettle.map (fun k => (k, 1))

/-- FETTLE_ELIGIBLE, and whether fettling runs (R395, Table SC-3). -/
def State.refreshFettle (s : State) : State :=
  let n := if s.rd Reg.isState = 2 then s.eligibles.length else 0
  { (s.wr Reg.fettleEligible n) with fettling := s.phase = .guard && n ≠ 0 }

/-- ERASE_START (R392): in guard, with no erase in the store, a block's intent record is written at once; once it is durable the
erase runs. Where the log's bank is busy nothing starts. -/
def execEraseStart (s : State) : Host.Outcome State Fault Refusal :=
  match s.nextErase with
  | none => .next s
  | some (k, reason) =>
    let d := dieOf (k / 1024)
    let f := s.flushLog
    if !(s.phase = .guard && s.storeRuns && s.rd Reg.isState = 2 && s.sto.erase.isNone && !s.dieBusy d && !s.dieReading d
        && f.log.queue.isEmpty && f.canWrite) then .next s
    else
      let b := s.blk k
      let s := f.eraseIntent k (b.erases + 1) reason b.lastRow
      let s := { s with sto := { s.sto with
        eraseQueue := s.sto.eraseQueue.filter (fun e => e.1 ≠ k)
        erase := some { die := d, plane := planeOf (k / 1024), block := k % 1024, reason := reason } } }
      .next (((s.wr Reg.eraseState 1).wr Reg.eraseBlock (d * 2 ^ 24 + planeOf (k / 1024) * 65536 + k % 1024)).refreshDie d)

/-- ERASE_DONE (R392): the running erase ends with an outcome: 0 pass, 1 erase failure, 2 blank check failed. -/
def execEraseDone (outcome : Fin 3) (s : State) : Host.Outcome State Fault Refusal :=
  match s.sto.erase with
  | none => .next s
  | some e =>
    if e.state ≠ 1 then .next s
    else
      let pos := 4 * e.plane + e.die
      let k := blkKey pos e.block
      let s := { s with sto := { s.sto with erase := none } }.wr Reg.eraseState 0
      let s := s.settleErase k ((s.blk k).erases + 1) e.reason outcome
      .next ((s.queueMap pos).refreshDie e.die).pump.refreshFettle

/-- ERASE_SUSPEND (R393, R394): the erase has run 400 µs since its start or last resume, and a program waits for its die, or a
pour has been accepted. -/
def execEraseSuspend (s : State) : Host.Outcome State Fault Refusal :=
  match s.sto.erase with
  | none => .next s
  | some e =>
    let pour := s.phase = .pour
    if e.state = 1 && (pour || (s.dieWaits e.die && e.suspends < s.rd Reg.eraseSuspendMax)) then
      let st := if pour then 3 else 2
      let s := { s with sto := { s.sto with erase := some { e with state := st, suspends := e.suspends + 1 } } }
      .next (((s.wr Reg.eraseState st).bump Reg.eraseSuspends).startDie e.die)
    else .next s

/-- ERASE_RESUME (R393): the die has no program waiting and the erase goes on; not once a pour has been accepted (R394). -/
def execEraseResume (s : State) : Host.Outcome State Fault Refusal :=
  match s.sto.erase with
  | none => .next s
  | some e =>
    if e.state = 2 && s.phase = .guard && !s.dieWaits e.die && !s.dieBusy e.die then
      let s := { s with sto := { s.sto with erase := some { e with state := 1 } } }
      .next ((s.wr Reg.eraseState 1).refreshDie e.die)
    else .next s

/-- SCAN_DONE (R396-R400): the start-up scan ends. `dies` says which dies answer, `maps` whether every plane has a valid map page,
`half` whether unsettled blocks are found half erased, `outcome` how the scan's erases end, `us` the duration. -/
def execScanDone (dies : BitVec 4) (maps half : Bool) (outcome : Fin 3) (us : Nat) (s : State) :
    Host.Outcome State Fault Refusal :=
  if s.phase = .start && s.taken && s.storeRuns && s.rd Reg.isState = 1 then .next (s.scanEnd dies.toNat maps half outcome us) else .next s

end Sys2Proof.Machine
end

