-- ==== Sys2Proof/Machine/Shakeout.lean ====
section
/-! DEFINITION. Shakeout (spec/14_pour_and_shakeout.md R367-R371; unreadable records spec/15_image_store.md R401). The streams
interleave in stream order (R41). -/
namespace Sys2Proof.Machine

def State.shakeOf (s : State) (st : Nat) : ShakeStream := tget {} s.shk.streams st
def State.setShake (s : State) (st : Nat) (x : ShakeStream) : State :=
  { s with shk := { s.shk with streams := tset {} s.shk.streams st x } }

/-- Shakeout begins with guard where a sealed casting is unconfirmed and none is being confirmed (R168, R367). -/
def State.beginShake (s : State) : State :=
  match s.sto.cast with
  | some x =>
    if s.sto.unconfirmed && s.shk.confirm.isNone then
      let s := { s with shake := true, shk := { s.shk with fixed := false, streams := [] } }
      (((s.wr Reg.shakeState 1).wr Reg.shakeHeat x.heat).wr Reg.shakeReleased 0).bump Reg.shakeouts
    else s
  | none => s

/-- The last complete epoch of a stream in the seal being shaken out. -/
def State.shakeEpoch (s : State) (st : Nat) : Option Nat :=
  match s.sto.cast with
  | some x => if x.maskEpoch.testBit st then some (x.lastEpoch st) else none
  | none => none

/-- The records a stream returns (R369): epochs later than its durable retirement, up to the seal's last complete one. -/
def State.returned (s : State) (st : Nat) : List Rec :=
  match s.shakeEpoch st with
  | none => []
  | some e => (s.present st).filter (fun r => atOrBefore r.epoch e
      && !(s.sto.retDur.testBit st && atOrBefore r.epoch (s.rd (Reg.retireDurable st))))

/-- A record header (Table LL-4). -/
def Rec.header (r : Rec) : List Nat :=
  leBytes 4 r.seq ++ leBytes 4 r.epoch ++ leBytes 8 r.tag ++ leBytes 2 r.units ++ [bitIf r.closes 0, 0]

/-- Queue a SHAKE_MARK (Table LL-5): 1 stream complete, 2 dross discarded. -/
def State.shakeMark (s : State) (st kind epoch count : Nat) : State :=
  s.send { ty := 0x35, stream := st
           payload := leBytes 4 (s.rd Reg.shakeHeat) ++ [kind, 0, 0, 0] ++ leBytes 4 epoch ++ leBytes 4 count }

/-- Queue a SHAKE_REC (Table LL-5). -/
def State.shakeRec (s : State) (r : Rec) : State :=
  s.send { ty := 0x34, stream := r.stream
           payload := leBytes 4 (s.rd Reg.shakeHeat) ++ r.header ++ (if r.units = 0 then [] else r.data) }

/-- What a stream's complete mark carries (R370, R401): its last complete epoch and how many records it returned, or those
before an unreadable one. -/
def State.completeMark (s : State) (st : Nat) : Nat × Nat :=
  let x := s.shakeOf st
  match x.stop with
  | none => ((s.shakeEpoch st).getD 0, x.recs.length)
  | some k =>
    let bad := (x.recs[k]?).elim 0 (·.epoch)
    let kept := (x.recs.take k).filter (fun r => r.epoch ≠ bad)
    ((kept.getLast?).elim 0 (·.epoch), kept.length)

/-- A record is unreadable (R401): nothing of its stream is queued from it on. -/
def State.unreadable (s : State) (st : Nat) (r : Rec) : State :=
  let x := s.shakeOf st
  let s := s.setShake st { x with stop := some x.next, read := 0, tries := 0 }
  (((s.wr (Reg.unreadableEpoch st) r.epoch).bump Reg.unreadableRecs).flag Reg.isFlags 5).event 0x4108 st 0 r.epoch r.seq

/-- Queue what a stream has ready without a read: its dross mark first, its complete mark last (R370). A record whose pages
have left the log cannot be read. -/
def State.shakeStep (st : Nat) (s : State) : State :=
  if s.rd Reg.shakeState ≠ 2 || s.bitOf Reg.shakeReleased st then s
  else
    let x := s.shakeOf st
    let s := if x.drossSent then s
      else (s.setShake st { x with drossSent := true }).iff (s.rd (Reg.drossRecs st) ≠ 0)
        (fun s => s.shakeMark st 2 (s.rd (Reg.drossEpoch st)) (s.rd (Reg.drossRecs st)))
    let s := match s.shakeNext st with
      | some r => if (s.recDies st r.seq).isEmpty then s.unreadable st r else s
      | none => s
    let x := s.shakeOf st
    if x.limit ≤ x.next && !x.markSent then
      let m := s.completeMark st
      (s.setShake st { x with markSent := true }).shakeMark st 1 m.1 m.2
    else s

/-- Queue what is ready on every stream and let the dies read (R385). -/
def State.shakePump (s : State) : State :=
  if s.shake then (s.each allStreams State.shakeStep).startDies else s

/-- The index after the record named for a stream in a command 1; none where it is not among those returned (R368). -/
def resumeAt (recs : List Rec) (pos : Nat) : Option Nat := (recs.findIdx? (fun r => r.seq = pos)).map (· + 1)

/-- SHAKE_CTL command 1 (R368, R369). -/
def State.shakeStart (s : State) (p : List Nat) : State :=
  let st := s.rd Reg.shakeState
  let recsOf := fun (i : Nat) => if s.shk.fixed then (s.shakeOf i).recs else s.returned i
  let mask := p.getD 5 0
  let named := fun (i : Nat) => resumeAt (recsOf i) (field p (8 + 4 * i) 4)
  let held := allStreams.filter (fun i => !s.bitOf Reg.shakeReleased i)
  if !(st = 1 || st = 2 || st = 3) || held.any (fun i => mask.testBit i && (named i).isNone) then s.llViolation Vc.order
  else
    let s := s.iff s.shk.fixed (·.bump Reg.shakeResumes)
    let s := s.each held (fun i s => s.setShake i
      { s.shakeOf i with recs := recsOf i, next := if mask.testBit i then (named i).getD 0 else 0, read := 0, tries := 0
                         drossSent := false, markSent := false })
    let s := { s with
      shk := { s.shk with fixed := true }
      sto := { s.sto with reads := [] }
      ll := { s.ll with waiting := s.ll.waiting.filter (fun f => !((f.ty = 0x34 || f.ty = 0x35) && held.contains f.stream)) } }
    (s.wr Reg.shakeState 2).shakePump

/-- The end of a shakeout by a confirm or an abandon (R371): every stream is released and a confirmation record is to be
written. -/
def State.confirmShake (s : State) (abandoned : Bool) : State :=
  let heat := s.rd Reg.shakeHeat
  let loc := (s.sto.cast.map (·.localHeat)).getD false
  let s := { s.endShake with shk := { confirm := some { kind := 2, flags := bitIf loc 0 + bitIf abandoned 2, heat := heat } } }
  (s.event 0x400A 0xFF (if abandoned then 2 else 1) heat).refreshOpen

/-- A SHAKE_CTL frame of a shakeout that runs with its heat; any other is an ORDER violation (R368). -/
def State.shakeCtl (s : State) (p : List Nat) (f : State → State) : State :=
  if s.rd Reg.shakeState = 0 || field p 0 4 ≠ s.rd Reg.shakeHeat then s.llViolation Vc.order else f s

/-- SHAKE_START (R368): the next contents in SEQ order are a SHAKE_CTL of command 1, or of no command of Table LL-6. -/
def execShakeStart (s : State) : Host.Outcome State Fault Refusal :=
  match s.takeRx (fun f => f.ty = 0x15 && f.payload.getD 4 0 ≠ 2 && f.payload.getD 4 0 ≠ 3) with
  | some (f, s) =>
    .next (s.shakeCtl f.payload (fun s => if f.payload.getD 4 0 = 1 then s.shakeStart f.payload else s.llViolation Vc.order))
  | none => .next s

/-- SHAKE_PAUSE (R368): a SHAKE_CTL of command 2. -/
def execShakePause (s : State) : Host.Outcome State Fault Refusal :=
  match s.takeRx (fun f => f.ty = 0x15 && f.payload.getD 4 0 = 2) with
  | some (f, s) =>
    .next (s.shakeCtl f.payload (fun s =>
      if s.rd Reg.shakeState = 2 then s.wr Reg.shakeState 3 else s.llViolation Vc.order))
  | none => .next s

/-- SHAKE_CONFIRM (R368, R371): a SHAKE_CTL of command 3. -/
def execShakeConfirm (s : State) : Host.Outcome State Fault Refusal :=
  match s.takeRx (fun f => f.ty = 0x15 && f.payload.getD 4 0 = 3) with
  | some (f, s) => .next (s.shakeCtl f.payload (fun s => s.confirmShake false))
  | none => .next s

/-- CONFIRMATION_WRITTEN (R371): the confirmation record is programmed; the casting is confirmed and the sealed-casting bits
clear. Where no slot of the ring can take it now, it waits. -/
def execConfirmationWritten (s : State) : Host.Outcome State Fault Refusal :=
  match s.shk.confirm with
  | none => .next s
  | some r =>
    match s.writeSum { r with stamp := s.stamp } with
    | none => .next s
    | some s =>
      let mine := (s.sto.cast.map (·.heat)) = some r.heat
      let s := { s with shk := { s.shk with confirm := none }
                        sto := { s.sto with unconfirmed := s.sto.unconfirmed && !mine } }
      .next ((s.wr Reg.shakeStamp s.stamp).bump Reg.confirms).statusIfChanged

/-- SHAKEOUT_READ_DONE (R401): the shakeout read of die `d` ends, its worst codeword with `bits` errors, its record's data matching
DATA_CRC or not. A page that reads moves the record on, and queues it once it is whole; one that does not is read again at
the next margin level, up to READ_RETRIES, and is unreadable after that. -/
def execShakeoutReadDone (d : Die) (bits : Nat) (crcOk : Bool) (s : State) : Host.Outcome State Fault Refusal :=
  let v := tget 0 s.sto.reads d
  if v = 0 then .next s
  else
    let st := (v - 1) % 8
    let x := s.shakeOf st
    match x.recs[x.next]? with
    | none => .next ({ s with sto := { s.sto with reads := terase s.sto.reads d } }.refreshDie d)
    | some r =>
      if bits ≤ 40 then
        let s := (s.corrected d bits).iff (x.tries ≠ 0) (·.bump Reg.readRetriesOk)
        let s := { s with sto := { s.sto with reads := terase s.sto.reads d } }
        if s.rd Reg.shakeState ≠ 2 then .next (s.setShake st { x with read := 0, tries := 0 }).startDies
        else if !crcOk then .next (s.unreadable st r).shakePump
        else if (s.recDies st r.seq).length ≤ x.read + 1 then
          .next ((s.setShake st { x with next := x.next + 1, read := 0, tries := 0 }).shakeRec r).shakePump
        else .next (s.setShake st { x with read := x.read + 1, tries := 0 }).shakePump
      else if x.tries < s.rd Reg.readRetries then .next (s.setShake st { x with tries := x.tries + 1 })
      else
        let s := { s with sto := { s.sto with reads := terase s.sto.reads d } }
        .next (s.unreadable st r).shakePump

end Sys2Proof.Machine
end

