-- ==== Sys2Proof/Machine/Supply.lean ====
section
/-! DEFINITION. The supplies of the two sides (spec/01_architecture.md R24-R29; spec/04_electrical.md R116-R122): what starts and
stops, and what is reset by it. -/
namespace Sys2Proof.Machine

/-- The source the selector takes: the first available one (R24). -/
def State.firstSource (s : State) : Source :=
  if s.sup.iso then .iso else if s.sup.vlog then .vlog else if s.sup.usb then .usb else .off

/-- Put a source in charge of the logic side and reset it (R27, R98). -/
def State.powerReset (s : State) (src : Source) : State :=
  { s with sup := { s.sup with source := src } }.resetLogic false 0 false

/-- SOURCE_SWITCH (R24, R26): the selector moves between the integrated supply and VLOG without a reset. -/
def execSourceSwitch (s : State) : Host.Outcome State Fault Refusal :=
  let f := s.firstSource
  if (s.sup.source = .iso && f = .vlog) || (s.sup.source = .vlog && f = .iso) then
    let s := { s with sup := { s.sup with source := f } }.bump Reg.sourceSwitches
    let present := bitIf s.sup.iso 0 + bitIf s.sup.vlog 1 + bitIf s.sup.usb 2 + bitIf s.sup.main 3
    .next (s.iff s.sup.running (·.event 0x1002 0xFF (if f = .iso then 1 else 2) present))
  else .next s

/-- POWER_ON_RESET (R27, R98): the logic side's supply rises from below its window, or cold read is left. -/
def execPowerOnReset (s : State) : Host.Outcome State Fault Refusal :=
  let f := s.firstSource
  if (s.sup.source = .off && f ≠ .off) || (s.sup.source = .usb && (f = .iso || f = .vlog)) then .next (s.powerReset f) else .next s

/-- LOGIC_SUPPLY_LOSS (R27, R174): the last higher source is lost; the logic side boots into cold read from USB VBUS, or is
off. -/
def execLogicSupplyLoss (s : State) : Host.Outcome State Fault Refusal :=
  let f := s.firstSource
  if s.sup.source ≠ .off && (f = .off || (s.sup.source ≠ .usb && f = .usb)) then .next (s.powerReset f) else .next s

/-- USB_ATTACH (R122): USB VBUS is in its window and the device enumerates. -/
def execUsbAttach (s : State) : Host.Outcome State Fault Refusal :=
  if s.sup.usb && (s.sup.running || s.sup.romOnly) && !s.sup.usbUp then .next { s with sup := { s.sup with usbUp := true } }
  else .next s

/-- USB_DETACH (R62): the session ends; shadows, unlock, cursor, transfer and an incomplete frame go. -/
def execUsbDetach (s : State) : Host.Outcome State Fault Refusal :=
  if s.sup.usbUp then
    let x := s.srcOf 1
    let s := { s with sup := { s.sup with usbUp := false }, svc := { s.svc with usbFrame := none, usbBuf := [] } }
    .next (s.setSrc 1 { x with shadows := [], unlocked := false, cursor := none, xfer := none })
  else .next s

/-- A feed's state or reading, which the wake stage holds as well (R116, R156), and so it does the holdup's latch (R189, R234). -/
def wakeHolds (e : Nat × Nat) : Bool :=
  (decide (0x2000 ≤ e.1 / 256 ∧ e.1 / 256 ≤ 0x20FF) && !isSetting e.1) || (e.1 = Reg.huState && e.2 = Hs.latched)

/-- WAKE_STAGE_START (R116): a feed is at 16.0 V or more. -/
def execWakeStageStart (s : State) : Host.Outcome State Fault Refusal :=
  if !s.sup.wake && (16000 ≤ s.smp.feedA || 16000 ≤ s.smp.feedB) then .next { s with sup := { s.sup with wake := true } } else .next s

/-- The feed controller loses its supply: neither the wake stage nor the main supply runs. -/
def State.feedsDead (s : State) : State :=
  if s.sup.wake || s.sup.main then s
  else { s with hv := [], feeds := [], bus := {}, runs := s.runs.filter (fun e => e.1 < 200) }

/-- WAKE_STAGE_STOP (R116): both feeds are below 14.0 V. -/
def execWakeStageStop (s : State) : Host.Outcome State Fault Refusal :=
  if s.sup.wake && decide (s.smp.feedA < 14000) && decide (s.smp.feedB < 14000) then
    .next { s with sup := { s.sup with wake := false } }.feedsDead
  else .next s

/-- MAIN_SUPPLY_START (R117, R136, R141): the HV die starts on its built-in settings, its NCO at 0 au, its time base in SEEKING,
its half of the barrier new. -/
def execMainSupplyStart (s : State) : Host.Outcome State Fault Refusal :=
  if !s.sup.main && 9000 ≤ s.smp.vbusIn then
    let s := { s with
      sup := { s.sup with main := true, reduced := false }
      hv := s.hv.filter wakeHolds
      trk := { seekTicks := some 0 }
      clk := { s.clk with hvTic := 0, hvCyc := 0 }
      bar := { s.bar with hbArmed := false, hbLost := false, hbLen := 0, hbGap := 0, episode := none, hvSeq := 0,
                          hvDiscards := 0, hvConfigured := false, b2 := false } }
    .next (s.hwr Reg.tbState 1)
  else .next s

/-- The HV parts of the ladle without their supply. -/
def Ladle.powerOff (l : Ladle) : Ladle :=
  { l with vcmd := 0, temps := [], v := [], est := 0, scanned := false, missed := 0, okCycles := 0, temp := none, hot := false,
           chgSum := 0, chgTicks := 0, swSum := 0, swTicks := 0, iSw := 0, termRun := 0, lowRun := 0, limRun := 0, limAct := false,
           balWant := 0, draw := none, capAfter := none, seg := none, segAfter := none, pulse := 0, lt1 := none, lt2 := none, n1 := 0 }

/-- The holdup's parts without their supply: a pass since the logic-side boot and what it knows of its group stay (R235, R240). -/
def Holdup.powerOff (h : Holdup) : Holdup :=
  { passed := h.passed, selfRan := h.selfRan, overfull := h.overfull, loads := h.loads, left := h.left, seen := h.seen }

/-- What the holdup's registers read without the power side: OFF, or LATCHED where its latch stands, with every reason that holds (R228);
not ready (R235). -/
def State.huUnpowered (s : State) : State :=
  ((s.wr Reg.huState (if s.hu = Hs.latched then Hs.latched else Hs.off)).wr Reg.huOffWhy s.offWhyNow).wr Reg.huReady 0

/-- MAIN_SUPPLY_STOP (R117, R136, R158): the power side stops. The time base is OFF, the barrier is down, the integrated supply
goes; before the takeover start returns to POWER_WAKE. -/
def execMainSupplyStop (s : State) : Host.Outcome State Fault Refusal :=
  if s.sup.main && decide (s.smp.vbusIn < 6500) then
    let s := { s with
      sup := { s.sup with main := false, reduced := false, iso := false }
      hv := s.hv.filter wakeHolds
      trk := {}
      lad := s.lad.powerOff
      hux := s.hux.powerOff
      runs := s.runs.filter (fun e => e.1 < 300)
      bar := { halted := s.bar.halted, wakeTold := s.bar.wakeTold, reports := s.bar.reports } }.feedsDead
    let s := ((s.wr Reg.tbState 5).wr Reg.barrierState 0).huUnpowered
    .next (if s.phase = .start && !s.taken && (s.step = Step.configLoad || s.step = Step.configHeld) then
      s.wr Reg.startStep Step.powerWake else s)
  else .next s

/-- VISO_REDUCED (R119): VBUS_IN is below 9 V and VISO's capability is cut. -/
def execVisoReduced (s : State) : Host.Outcome State Fault Refusal :=
  if s.sup.main && !s.sup.reduced && decide (s.smp.vbusIn < 9000) then
    .next ({ s with sup := { s.sup with reduced := true } }.told [.flag Reg.elecFlags 2, .event 0x7006 0xFF 1 0 0])
  else .next s

/-- VISO_CURRENT_LIMIT (R119, R471): VISO enters its current limit; the record is written at once. -/
def execVisoCurrentLimit (s : State) : Host.Outcome State Fault Refusal :=
  if s.sup.main then .next (s.iff s.sup.running (fun s => ((s.bump Reg.isoLimitCount).flag Reg.elecFlags 3).event 0x7006 0xFF 2)) else .next s

/-- LOGIC_BOOT (R157, R103, R104): the reset is released; the straps and TMODE are sampled and the core started. -/
def execLogicBoot (straps : BitVec 6) (tmode : Bool) (s : State) : Host.Outcome State Fault Refusal :=
  if s.sup.bootDue then .next (s.boot straps.toNat tmode) else .next s

end Sys2Proof.Machine
end

