-- ==== Sys2Proof/Machine/TimeBase.lean ====
section
/-! DEFINITION. The mains angle time base (spec/05_mains_angle.md): the tracker's commands, the follower, loss evaluation
and the stamp steps. -/
namespace Sys2Proof.Machine

/-! Codes of TB_STATE (Table MA-1). -/
namespace Tb
def dcOnly : Nat := 0
def seeking : Nat := 1
def acquiring : Nat := 2
def locked : Nat := 3
def lost : Nat := 4
def off : Nat := 5
end Tb

/-- 32768 times the sine of i/1024 of a cycle, for i from 0 to 256 (a quarter cycle), rounded. -/
def sineQuarter : List Nat :=
  [0, 201, 402, 603, 804, 1005, 1206, 1407, 1608, 1809, 2009, 2210, 2411, 2611, 2811, 3012, 3212, 3412, 3612,
   3812, 4011, 4211, 4410, 4609, 4808, 5007, 5205, 5404, 5602, 5800, 5998, 6195] ++
  [6393, 6590, 6787, 6983, 7180, 7376, 7571, 7767, 7962, 8157, 8351, 8546, 8740, 8933, 9127, 9319, 9512, 9704,
   9896, 10088, 10279, 10469, 10660, 10850, 11039, 11228, 11417, 11605, 11793, 11980, 12167, 12354] ++
  [12540, 12725, 12910, 13095, 13279, 13463, 13646, 13828, 14010, 14192, 14373, 14553, 14733, 14912, 15091, 15269,
   15447, 15624, 15800, 15976, 16151, 16326, 16500, 16673, 16846, 17018, 17190, 17361, 17531, 17700, 17869, 18037] ++
  [18205, 18372, 18538, 18703, 18868, 19032, 19195, 19358, 19520, 19681, 19841, 20001, 20160, 20318, 20475, 20632,
   20788, 20943, 21097, 21251, 21403, 21555, 21706, 21856, 22006, 22154, 22302, 22449, 22595, 22740, 22884, 23028] ++
  [23170, 23312, 23453, 23593, 23732, 23870, 24008, 24144, 24279, 24414, 24548, 24680, 24812, 24943, 25073, 25202,
   25330, 25457, 25583, 25708, 25833, 25956, 26078, 26199, 26320, 26439, 26557, 26674, 26791, 26906, 27020, 27133] ++
  [27246, 27357, 27467, 27576, 27684, 27791, 27897, 28002, 28106, 28209, 28311, 28411, 28511, 28610, 28707, 28803,
   28899, 28993, 29086, 29178, 29269, 29359, 29448, 29535, 29622, 29707, 29792, 29875, 29957, 30038, 30118, 30196] ++
  [30274, 30350, 30425, 30499, 30572, 30644, 30715, 30784, 30853, 30920, 30986, 31050, 31114, 31177, 31238, 31298,
   31357, 31415, 31471, 31527, 31581, 31634, 31686, 31737, 31786, 31834, 31881, 31927, 31972, 32015, 32058, 32099] ++
  [32138, 32177, 32214, 32251, 32286, 32319, 32352, 32383, 32413, 32442, 32470, 32496, 32522, 32546, 32568, 32590,
   32610, 32629, 32647, 32664, 32679, 32693, 32706, 32718, 32729, 32738, 32746, 32753, 32758, 32762, 32766, 32767] ++
  [32768]

/-- 32768·|sin| of a tick's angle, from the quarter table. -/
def sineAbs (tic : Nat) : Nat :=
  let i := tic % 512
  sineQuarter.getD (if i ≤ 256 then i else 512 - i) 0

/-- The sign the predicted waveform has at a tick: positive in the first half-cycle (R7). -/
def sinePositive (tic : Nat) : Bool := tic % 1024 < 512

/-- Whether a tick lies in a peak region, Table MA-2 row 0. -/
def inPeak (tic : Nat) : Bool := inWindow tic 8192 24575 0 || inWindow tic 40960 57343 0

/-- The tracked amplitude A: the mean of the peaks of the last half-cycles that passed (R150). -/
def Tracker.amplitude (t : Tracker) : Nat := t.peaks.sum / max 1 t.peaks.length

/-- Whether a sample fails (R150): below LOSS_FRACTION percent of the prediction, or of the opposite sign. -/
def sampleFails (v : Int) (fraction amplitude tic : Nat) : Bool :=
  decide (v.natAbs * 100 * 32768 < fraction * amplitude * sineAbs tic)
    || (if sinePositive tic then decide (v < 0) else decide (0 < v))

/-- The state of the time base on the HV die. -/
def State.tb (s : State) : Nat := s.hrd Reg.tbState

/-- Enter a state of the time base; FREQ_MEAS reads 0 outside ACQUIRING and LOCKED (Table MA-4). -/
def State.enterTb (s : State) (st : Nat) : State :=
  let s := s.hwr Reg.tbState st
  let s := if st = Tb.acquiring || st = Tb.locked then s else s.hwr Reg.freqMeas 0
  let t := s.trk
  { s with trk := { t with
      crossings := 0, failCycles := 0, inPhase := 0, outPhase := 0, outFreq := 0, lockedTicks := 0, failing := 0,
      sincePass := 0
      rangeLogged := if st = Tb.seeking || st = Tb.lost then false else t.rangeLogged
      seekTicks := if st = Tb.locked then none else t.seekTicks } }

/-- 1/67 s to 1/44 s, in microseconds (R135). -/
def crossingInRange (us : Nat) : Bool := decide (14926 ≤ us ∧ us ≤ 22727)

/-- A frequency in 1/1024 Hz from the microseconds of a cycle. -/
def freqOfUs (us : Nat) : Nat := if us = 0 then 0 else 1024 * 1000000 / us

/-- The peak of a half-cycle: 1.414 times its rms amplitude, the sine the tracker predicts with. R150 gives no measure of a peak (DESIGN
CHOICE, log entry 86). -/
def peakOf (amp : Nat) : Nat := amp * 1414 / 1000

/-- The peaks of the half-cycles that passed, put before those kept (R150, R151): of each half-cycle that meets QUAL_MIN and in which no
evaluated sample has failed. -/
def Tracker.takePeaks (t : Tracker) (q ampPos ampNeg : Nat) : List Nat :=
  let pos := if q ≤ ampPos && !t.badPos then [peakOf ampPos] else []
  let neg := if q ≤ ampNeg && !t.badNeg then [peakOf ampNeg] else []
  (neg ++ pos ++ t.peaks).take 8

/-- ZERO_CROSSING (R135): a positive-going crossing, accepted once the signal has stayed on the new side for 8 ticks; `us` microseconds
after the last accepted one, with the rms amplitudes of the two half-cycles between and the NCO's phase error at it. -/
def execZeroCrossing (us ampPos ampNeg : Nat) (err : Int) (s : State) : Host.Outcome State Fault Refusal :=
  let t := s.trk
  if !s.sup.main || s.hrd Reg.mainsSense = 0 || !(t.sidePos && 8 ≤ t.sideRun && !t.crossed) then .next s
  else
    let q := s.hrd Reg.qualMin
    let amps := decide (q ≤ ampPos ∧ q ≤ ampNeg)
    let good := amps && crossingInRange us
    let s := s.hwr Reg.amplitude ((ampPos + ampNeg) / 2)
    let s := { s with trk := { t with crossed := true, sinceCross := 0, badPos := false, badNeg := false } }
    if s.tb = Tb.seeking || s.tb = Tb.lost then
      let out := (decide (q ≤ ampPos) || decide (q ≤ ampNeg)) && !crossingInRange us && t.crossings ≠ 0
      let s := if out then s.told (.flag Reg.tbFlags 4 :: (if t.rangeLogged then [] else [.event 0x1208 0xFF 0 0 0])) else s
      let s := { s with trk := { s.trk with rangeLogged := t.rangeLogged || out } }
      let n := if t.crossings = 0 then 1 else if good then t.crossings + 1 else 1
      let s := { s with trk := { s.trk with crossings := n, lastUs := us } }
      if n < 3 then .next s
      else
        let f := freqOfUs ((t.lastUs + us) / 2)
        let s := ((s.enterTb Tb.acquiring).hwr Reg.freqMeas f).hwrI Reg.phaseErr err
        .next { s with trk := { s.trk with freq := f, lastUs := us } }
    else if s.tb = Tb.acquiring || s.tb = Tb.locked then
      let f := freqOfUs us
      let s := (s.hwr Reg.freqMeas f).hwrI Reg.phaseErr err
      let far := decide (4096 < err.natAbs)
      let off := decide (f < 44 * 1024 ∨ 67 * 1024 < f)
      .next { s with trk := { s.trk with
        freq := f, lastUs := us, peaks := t.takePeaks q ampPos ampNeg
        failCycles := if good then 0 else t.failCycles + 1
        outPhase := if far then t.outPhase + 1 else 0
        outFreq := if off then t.outFreq + 1 else 0 } }
    else .next s

/-- QUALIFICATION_FAIL (R136): two cycles without qualification in ACQUIRING lead to LOST. -/
def execQualificationFail (s : State) : Host.Outcome State Fault Refusal :=
  if s.tb = Tb.acquiring && 2 ≤ s.trk.failCycles then .next (s.enterTb Tb.lost) else .next s

/-- LOCK_ACQUIRED (R137, R139): PHASE_ERR has stayed within 64 au for 1024 ticks, with the signal qualified. -/
def execLockAcquired (s : State) : Host.Outcome State Fault Refusal :=
  if s.tb = Tb.acquiring && 1024 ≤ s.trk.inPhase && s.trk.failCycles = 0 then
    let f := s.hrd Reg.freqMeas
    let nominal := s.hrd Reg.nominalFreq
    let off := decide (nominal * 1024 * 5 < ((f * 100 : Int) - nominal * 1024).natAbs * 100)
    .next ((s.enterTb Tb.locked).told ([.count Reg.lockCount 1, .event 0x1202 0xFF 0 f 0]
      ++ (if off then [.flag Reg.tbFlags 2, .event 0x1204 0xFF 0 f 0] else [])))
  else .next s

/-- LOCK_LEFT (R138): back to ACQUIRING without a loss. -/
def execLockLeft (s : State) : Host.Outcome State Fault Refusal :=
  if s.tb = Tb.locked && (2 ≤ s.trk.outPhase || 4 ≤ s.trk.outFreq) then
    .next ((s.enterTb Tb.acquiring).told [.flag Reg.tbFlags 1, .event 0x1203 0xFF 0 (ofSigned 4 (s.hrdI Reg.phaseErr)) 0])
  else .next s

/-- MAINS_LOSS_DECLARED (R151): the failing count has reached LOSS_RUN with loss evaluation armed (R150). B2 is asserted,
the time base enters LOST, and mains loss is pour trigger 1. -/
def execMainsLossDeclared (s : State) : Host.Outcome State Fault Refusal :=
  if s.tb = Tb.locked && 2048 ≤ s.trk.lockedTicks && s.hrd Reg.lossRun ≤ s.trk.failing then
    let since := s.trk.sincePass
    let s := (s.enterTb Tb.lost).told [.stamp Reg.lastLoss, .put Reg.lossDetect since, .count Reg.lossCount 1,
      .flag Reg.tbFlags 0, .event 0x1201 0xFF 0 since 0]
    .next (s.b2Trigger 1)
  else .next s

/-- SEEK_LIMIT_EXPIRY (R140): LOCKED was not reached within SEEK_LIMIT of power-side start. -/
def execSeekLimitExpiry (s : State) : Host.Outcome State Fault Refusal :=
  match s.trk.seekTicks with
  | some n =>
    if s.sup.main && s.hrd Reg.mainsSense = 1 && s.hrd Reg.seekLimit ≤ n then
      .next ({ s with trk := { s.trk with seekTicks := none } }.told [.flag Reg.tbFlags 3, .event 0x1205 0xFF 0 0 0])
    else .next s
  | none => .next s

/-! ### The follower (R141) -/

/-- One step of the follower's slew toward the HV die's tick: at most 12.5 %, so one tick in eight pulses. -/
def Clock.slewOne (c : Clock) : Clock :=
  if c.slew < 7 then { c with slew := c.slew + 1 }
  else
    let d := (c.hvTic + 1024 - c.tic) % 1024
    { c with slew := 0, tic := if d = 0 then c.tic else if d < 512 then (c.tic + 1) % 1024 else (c.tic + 1023) % 1024 }

/-- The follower takes a pulse of B0 (R141). One that has not begun takes its angle from the first double pulse. An aligned one takes
its tick from B0: at a double pulse the tick that begins is that of 0 au. A free one slews toward the HV die's angle. -/
def Clock.takePulse (c : Clock) (double aligned : Bool) : Clock :=
  let c := { c with b0Gap := 0, b0Double := double }
  if !c.synced then (if double then { c with synced := true, tic := 0, slew := 0 } else c)
  else if !aligned then c.slewOne
  else if double && !c.zeroed then { c with tic := 1023 }
  else c

/-- B0_PULSE (R141): a tick strobe pulse, double at 0 au. The HV die's NCO runs on by itself. -/
def execB0Pulse (double : Bool) (s : State) : Host.Outcome State Fault Refusal :=
  if !s.sup.main || !s.sup.running || s.coldRead then .next s
  else .next { s with clk := s.clk.takePulse double (s.rd Reg.follower = 0) }

/-- FOLLOWER_FREE (R141): no B0 pulse for 2 tick periods; the follower runs virtual mains. -/
def execFollowerFree (s : State) : Host.Outcome State Fault Refusal :=
  if s.sup.running && s.rd Reg.follower = 0 && 2 ≤ s.clk.b0Gap then
    .next ({ s with clk := { s.clk with synced := true, slew := 0 } }.wr Reg.follower 1
      |>.flag Reg.tbFlags 5 |>.event 0x1206 0xFF 1)
  else .next s

/-- FOLLOWER_ALIGNED (R141): a double pulse within 64 au of the follower's own 0 au. -/
def execFollowerAligned (s : State) : Host.Outcome State Fault Refusal :=
  let t := s.clk.tic
  if s.sup.running && s.sup.main && s.rd Reg.follower = 1 && s.clk.b0Gap = 0 && s.clk.b0Double && (t = 1023 || t = 0 || t = 1) then
    .next ({ s with clk := { s.clk with slew := 0 } }.wr Reg.follower 0 |>.event 0x1206 0xFF 0)
  else .next s

/-- STAMP_STEP (R145), within CYCLE_START: the whole pending step after the increment. -/
def State.applyStep (s : State) : State :=
  if s.clk.step = 0 then s
  else
    let before := s.clk.count
    let after := before + s.clk.step
    ({ s with clk := { s.clk with count := after, step := 0 } }.bump Reg.stampSteps).flag Reg.tbFlags 6
      |>.event 0x1207 0xFF 0 before.toNat after.toNat

/-! ### The tick's part -/

/-- The sense signal's side in a tick and how long it has been there (R135), the time since the last crossing; a whole cycle without
one has not qualified (R136). -/
def Tracker.sample (t : Tracker) (v : Int) : Tracker :=
  let pos := decide (0 < v)
  let same := pos = t.sidePos
  let n := t.sinceCross + 1
  { t with
    seekTicks := t.seekTicks.map (· + 1)
    sidePos := pos, sideRun := if same then t.sideRun + 1 else 1, crossed := same && t.crossed
    sinceCross := n, failCycles := if n % 1024 = 0 then t.failCycles + 1 else t.failCycles }

/-- The NCO closes its phase error in ACQUIRING: at 12.5 % above or below its frequency the angle moves by 8 au in a tick, 8192 au in a
cycle (R137). -/
def slewErr (err : Int) : Int := if 8 < err then err - 8 else if err < -8 then err + 8 else 0

/-- The tracker's counts of one tick: lock confirmation (R137), loss evaluation (R150), SEEK_LIMIT's time (R140). -/
def State.tickTracker (s : State) : State :=
  if !s.sup.main then s
  else
    let t := s.trk.sample s.smp.mains
    if s.tb = Tb.acquiring then
      let e := s.hrdI Reg.phaseErr
      { (s.hwrI Reg.phaseErr (slewErr e)) with trk := { t with inPhase := if e.natAbs ≤ 64 then t.inPhase + 1 else 0 } }
    else if s.tb = Tb.locked then
      let t := { t with lockedTicks := t.lockedTicks + 1, sincePass := t.sincePass + 1 }
      if 2048 ≤ t.lockedTicks && inPeak s.clk.hvTic then
        if sampleFails s.smp.mains (s.hrd Reg.lossFraction) t.amplitude s.clk.hvTic then
          { s with trk := { t with
              failing := t.failing + 1, badPos := t.badPos || s.clk.hvTic < 512, badNeg := t.badNeg || 512 ≤ s.clk.hvTic } }
        else { s with trk := { t with failing := 0, sincePass := 0 } }
      else { s with trk := t }
    else { s with trk := t }

end Sys2Proof.Machine
end

