-- ==== Sys2Proof/Machine/Start.lean ====
section
/-! DEFINITION. Start (spec/06_start_up.md): power-side wake, the load of the configuration, the takeover tick, charging, the
beginning of guard, resumption from STOPPED. -/
namespace Sys2Proof.Machine

/-- The time base takes MAINS_SENSE from the working set (R136): 0 leads to DC-ONLY, 1 from DC-ONLY to SEEKING. -/
def State.takeMainsSense (s : State) : State :=
  let dc := s.tb = Tb.dcOnly
  if s.hrd Reg.mainsSense = 0 then (if dc then s else s.enterTb Tb.dcOnly)
  else if dc then s.enterTb Tb.seeking else s

/-- The HV die takes its share of the working set, in one tick (R161, R500): FEED_EN acts on the feeds (R189), MAINS_SENSE on the time
base (R136), V_cmd is set (R203); a feed that is ON has been so since takeover (R195). -/
def State.takeShare (s : State) (sets : List (Nat × Nat)) : State :=
  let old := fun (f : Nat) => s.hrd (Reg.feedEn f)
  let t := s.applyShare sets
  let t := (t.feedEnWritten 0 (old 0) (t.hrd (Reg.feedEn 0))).feedEnWritten 1 (old 1) (t.hrd (Reg.feedEn 1))
  let on := t.feedSt 0 = Fs.on || t.feedSt 1 = Fs.on
  ({ t with bus := { t.bus with everOn := t.bus.everOn || on } }.takeMainsSense).setVcmd

/-- The pads at takeover (R161, R99): PFW# low; HOST_RST# low after a power-on reset and after rest (R259), else as held; POUR#
released to the cascade line interface. -/
def State.takePads (s : State) : State :=
  let low := s.sup.coldBoot || s.rd Reg.resetCause = 5
  let p := s.pads
  let s := s.rearmPads 0xFFF
  { s with
    pads := { s.pads with pfw := some false, hostRst := p.hostRst || low, hostHold := p.hostHold || low, pour := false }
    cas := { s.cas with armed := false, stuck := false } }

/-- The takeover tick (R160, R161): the pads are taken, the working set is in force, the HV die's share of it goes out over B3 (R159),
the link may train (R164), the image store scans (R165). -/
def State.takeover (s : State) : State :=
  let s := ({ s with taken := true }.seqTakeover (!s.sup.coldBoot)).takePads
  (s.linkEnable.wr Reg.isState 1).sendShare

/-- POWER_WAKE_DONE (R158): the barrier is up and the follower aligned. -/
def execPowerWakeDone (s : State) : Host.Outcome State Fault Refusal :=
  if s.atStep Step.powerWake && s.bar.up && s.rd Reg.barrierState = 1 && s.rd Reg.follower = 0 then
    .next (s.wr Reg.startStep Step.configLoad)
  else .next s

/-- CONFIG_LOAD (R159-R161): the working set is loaded; takeover, or CONFIG_HELD where a hold of bits 0-6 is set. It is repeated where the
power side stopped before takeover (R158). -/
def execConfigLoad (s : State) : Host.Outcome State Fault Refusal :=
  if s.atStep Step.configLoad && !s.taken then
    let s := { s.loadConfig with loaded := true }.eraseAhead
    .next (if s.rd Reg.idleHold % 128 ≠ 0 then s.wr Reg.startStep Step.configHeld else s.takeover)
  else .next s

/-- POWER_SIDE_REAPPLY (R500): the power side has started while the logic side runs past takeover; the logic die sends the share over
B3. -/
def execPowerSideReapply (s : State) : Host.Outcome State Fault Refusal :=
  if s.taken && s.sup.main && !s.bar.shareSent && s.rd Reg.barrierState = 1 && s.rd Reg.follower = 0 then .next s.sendShare
  else .next s

/-- CHARGE_PERMIT (R167): a waiting member's charge slot arrives. -/
def execChargePermit (s : State) : Host.Outcome State Fault Refusal :=
  if s.atStep Step.chargeWait && s.chargeSlot ≠ 0 then
    .next (s.iff (s.chargeSlot = 2) (·.flag Reg.startFlags 6)).permitCharge
  else .next s

/-- Ticks since cycle 0 began. -/
def State.elapsed (s : State) : Nat := s.clk.cyc * 1024 + s.clk.tic

/-- The admission hold is entered or released (R132). -/
def State.setAdmHold (s : State) (on : Bool) : State :=
  (({ s with admHold := on }.iff on (·.flag Reg.elecFlags 1)).event 0x7005 0xFF (if on then 1 else 0)
    (ofSigned 4 (s.rdI Reg.caseTemp))).refreshEst

/-- Guard begins (R168): its stamps, the first capacitance test's delay (R211), PFW# high, the trial image accepted (R425), shakeout where a casting waits. -/
def State.beginGuard (s : State) : State :=
  let s := { s with phase := .guard, pads := { s.pads with pfw := some true }, lad := { s.lad with capFrom := some (s.clk.cyc, s.lad.measured = 0) } }
  let s := ((s.wr Reg.startStep Step.done).wr Reg.startGuardStamp s.stamp).wr Reg.startElapsed s.elapsed
  let s := s.iff (s.rd Reg.fwState = 6) (·.acceptTrial 0 0 0)
  let s := s.event 0x1003 0xFF 0 (s.rd Reg.startElapsed) (s.rd Reg.startFlags)
  (s.iff (!s.admHold && decide (1180 ≤ s.rdI Reg.caseTemp)) (·.setAdmHold true)).refreshEst.beginShake

/-- GUARD_BEGIN (R168). -/
def execGuardBegin (s : State) : Host.Outcome State Fault Refusal :=
  if s.atStep Step.charge && s.rd Reg.isState = 2 && 2 ≤ s.lad.okCycles && s.rd Reg.ladleReserve ≤ s.rd Reg.ladleE then
    .next s.beginGuard
  else .next s

/-- START_RETRY 1 in STOPPED (R173). A latch that still stands keeps cause 1 stopped, and the register reads 2. Where the image-store
scan has found the store unusable meanwhile, cause 4 stops the resumed start. -/
def State.resumeStart (s : State) : State :=
  let cause := s.rd Reg.startStop
  if cause = 1 && s.rd Reg.seqLatch = 1 then s.wr Reg.startRetry 2
  else
    let s := (s.wr Reg.startStop 0).wr Reg.startRetry 1
    if cause = 4 then ((s.wr Reg.isState 1).wr Reg.startStep s.stopAt).checkOnDone
    else
      let s := if cause = 1 then { (s.wr Reg.startStep Step.onSlots).wr Reg.seqState 0 with seq := { s.seq with onStart := none, early := 0 } }
        else
          let s := { s with lad := { s.lad with damped := false } }.wr Reg.startStep Step.damp
          if cause = 2 then { s.wr Reg.dampCount 0 with lad := { s.lad with dampFailed := false, dampAt := 0 } } else s
      s.iff (s.rd Reg.isState = 3) (·.stopStart 4)

end Sys2Proof.Machine
end

