-- ==== Sys2Proof/Machine/Barrier.lean ====
section
/-! DEFINITION. The isolation barrier (spec/01_architecture.md R19-R23): status frames, the heartbeat, command frames, the hardware
watchdog and the resets they lead to. -/
namespace Sys2Proof.Machine

/-- BARRIER_STATE (spec/01_architecture.md 0x7000:01): 2 while the stream is lost, 0 down, 4 before 3, else 1. -/
def State.barrierNow (s : State) : Nat :=
  if s.bar.lost then 2 else if !s.bar.up then 0 else if s.bar.pathLost then 4 else if s.bar.hbReported then 3 else 1

/-- BARRIER_STATE and the estimate it may zero (R19, R23). -/
def State.refreshBarrier (s : State) : State := (s.wr Reg.barrierState s.barrierNow).refreshEst

/-- The HV die's states and readings that a B1 frame carries to the logic die. -/
def hvStatusKeys : List Nat :=
  [Reg.tbState, Reg.freqMeas, Reg.phaseErr, Reg.amplitude]
  ++ [0, 1].flatMap (fun f => [Reg.feedState f, Reg.feedWait f, Reg.tripCause f, Reg.tripDetail f, Reg.damage f, Reg.feedV f,
      Reg.srcV f, Reg.feedI f, Reg.fetTemp f, Reg.ntcTemp f, Reg.seatState f])
  ++ [Reg.vbusV, Reg.vbusAvg, Reg.busLatch, Reg.shareErr, Reg.holdupBarred, Reg.targetCmd, Reg.stackV, Reg.tapSum, Reg.sumErr,
      Reg.ladleTemp, Reg.ltemp1T, Reg.ltemp2T, Reg.chgState, Reg.chgStop, Reg.chgSetpoint, Reg.chgIMeas]
  ++ (List.range 12).flatMap (fun i => [Reg.cellV (i + 1), Reg.balActive (i + 1), Reg.cellDevMeas (i + 1)])
  ++ [Reg.huState, Reg.huOffWhy, Reg.huReady, Reg.huIIn, Reg.huTemp, Reg.shareV, Reg.huShareState, Reg.huShareErr, Reg.vbusInV,
      Reg.hvDieTemp]

/-- The values of a B1 frame reach the registers. -/
def State.copyStatus (s : State) : State := s.each hvStatusKeys (fun k s => s.wr k (s.hrd k))

/-- The wake stage's report of a feed in the first frame of a boot (R156). -/
def State.wakeReport (s : State) (f : Nat) : State :=
  let st := s.rd (Reg.feedState f)
  let d := if st = Fs.unseated then 0 else if st = Fs.on then 1 else if st = Fs.latched then 2 else if st = Fs.damaged then 4 else 3
  s.event 0x200A f d (s.rd (Reg.feedV f)) (s.rd (Reg.tripCause f))

/-- The HV die has applied the frame of a sequence (R23). -/
def appliedBy (seq last : Half) : Bool := decide ((last - seq).toNat < 2 ^ 15)

/-- What a B1 frame says of command frames (R23): applied ones are kept no longer, discards count, a lost path is regained when no
frame is left that has had its eight sendings. -/
def State.noteApplied (s : State) : State :=
  let b := s.bar
  let left := b.unapplied.filter (fun f => !appliedBy f.seq b.hvSeq)
  let moved := decide (left.length < b.unapplied.length)
  let back := b.pathLost && left.all (fun f => f.sends < 8)
  let s := s.bumpBy Reg.barrierCrcErrs (b.hvDiscards - b.repDiscards)
  let s := { s with bar := { s.bar with
    unapplied := left, repSeq := b.hvSeq, repDiscards := b.hvDiscards, stall := if moved then 0 else b.stall
    pathLost := b.pathLost && !back } }
  s.iff back (·.event 0x7007 0xFF 0 (s.rd Reg.cmdResends))

/-- What a B1 frame says of the heartbeat (R20). -/
def State.noteHeartbeat (s : State) : State :=
  let e := s.bar.episode
  let s := { s with bar := { s.bar with hbReported := s.bar.hbLost, episode := none } }
  match e with
  | some n => (s.bump Reg.hbLosses).event 0x7002 0xFF 0 n
  | none => s

/-! ### Findings (R18, R143) -/

/-- One effect of a finding on the logic die's registers. -/
def State.takeNote (s : State) : Note → State
  | .flag k i => s.flag k i
  | .count k n => s.bumpBy k n
  | .stamp k => s.wr k s.stamp
  | .put k v => s.wr k v
  | .event c o d a b => s.event c o d a b

/-- The follower's time of a tick that a B1 frame reports: its own cycle count with that tick, the previous cycle where that tick is
later than the follower's own (R143). -/
def Clock.reported (c : Clock) (tic : Nat) : Clock :=
  { c with tic := tic % 1024, count := if c.tic < tic then c.count - 1 else c.count }

/-- A finding reaches the registers, stamped with the tick it was taken in. -/
def State.takeReport (s : State) (e : Nat × List Note) : State :=
  { ({ s with clk := s.clk.reported e.1 }.each e.2 (fun n s => s.takeNote n)) with clk := s.clk }

/-- Every finding that waits for a B1 frame, oldest first. -/
def State.takeReports (s : State) : State :=
  let l := s.bar.reports
  { s with bar := { s.bar with reports := [] } }.each l (fun e s => s.takeReport e)

/-- A valid B1 frame (R19, R158): four in consecutive ticks bring the barrier up; the first ends a loss of the stream. -/
def State.takeStatus (s : State) : State :=
  let b := s.bar
  let run := if b.b1Run = 0 then 1 else if b.b1Gap = 0 then b.b1Run else if b.b1Gap = 1 then b.b1Run + 1 else 1
  let first := !b.seen
  let wake := !b.wakeTold
  let s := { s with bar := { b with b1Gap := 0, b1Run := run, up := b.up || 4 ≤ run, lost := false, seen := true, b2 := false, wakeTold := true } }
  let s := s.copyStatus
  let s := if first then
      { s with bar := { s.bar with nextSeq := s.bar.hvSeq + 1, repSeq := s.bar.hvSeq, repDiscards := s.bar.hvDiscards } }
    else s.noteApplied
  let s := if wake then (s.wakeReport 0).wakeReport 1 else s
  (s.takeReports.noteHeartbeat.iff b.lost (·.event 0x7001 0xFF 0)).refreshBarrier

/-- STATUS_FRAME_RX (R19): a B1 frame arrives, its CRC valid or not. The barrier is off in cold read (Table AR-4). -/
def execStatusFrameRx (crcOk : Bool) (s : State) : Host.Outcome State Fault Refusal :=
  if !s.sup.main || !s.sup.running || s.coldRead then .next s
  else if crcOk then .next s.takeStatus
  else .next ({ s with bar := { s.bar with b1Run := 0 } }.bump Reg.barrierCrcErrs)

/-- STATUS_STREAM_LOST (R19): no valid B1 frame for 4 ticks while the power side runs; without it the barrier is down and not lost
(R22). -/
def execStatusStreamLost (s : State) : Host.Outcome State Fault Refusal :=
  if s.sup.running && s.sup.main && !s.coldRead && !s.bar.lost && 4 ≤ s.bar.b1Gap then
    .next ((({ s with bar := { s.bar with lost := true, b1Run := 0 } }.bump Reg.barrierLosses).event 0x7001 0xFF 1).refreshBarrier)
  else .next s

/-! ### Heartbeat (R20) -/

/-- The control core toggles B5. -/
def State.beats (s : State) : Bool := s.sup.running && !s.bar.halted

/-- HEARTBEAT_ARM (R20): the first B5 toggle after the main supply starts. -/
def execHeartbeatArm (s : State) : Host.Outcome State Fault Refusal :=
  if s.sup.main && !s.bar.hbArmed && s.beats then .next { s with bar := { s.bar with hbArmed := true, hbGap := 0 } } else .next s

/-- HEARTBEAT_LOST (R20): no B5 toggle for 4 ticks of the HV NCO; the charger stops. -/
def execHeartbeatLost (s : State) : Host.Outcome State Fault Refusal :=
  if s.sup.main && s.bar.hbArmed && !s.bar.hbLost && 4 ≤ s.bar.hbGap then
    let s := { s with bar := { s.bar with hbLost := true, hbLen := 0 } }
    .next (s.hwr Reg.chgStop s.chgStopNow)
  else .next s

/-- HEARTBEAT_RETURN (R20): a B5 toggle after a loss; the episode's length waits for the next B1 frame. -/
def execHeartbeatReturn (s : State) : Host.Outcome State Fault Refusal :=
  if s.sup.main && s.bar.hbLost && s.beats then
    let s := { s with bar := { s.bar with hbLost := false, hbGap := 0, episode := some s.bar.hbLen } }
    .next (s.hwr Reg.chgStop s.chgStopNow)
  else .next s

/-! ### Resets (R21, R22, R405) -/

/-- HW_WATCHDOG_EXPIRY (R21): 50 000 µs without a restart, at any time after the release of a logic-side reset but while the debug port
holds the core halted; what waits in the log's queue is lost. -/
def execHwWatchdogExpiry (s : State) : Host.Outcome State Fault Refusal :=
  if s.sup.source ≠ .off && !s.bar.halted then .next (s.resetLogic true 1 false) else .next s

/-- BARRIER_RESET (R22): the stream or the path has been lost for 64 cycles with the integrated supply available, outside pour and
rest. -/
def execBarrierReset (s : State) : Host.Outcome State Fault Refusal :=
  if s.sup.running && !s.pouring && s.sup.iso && (s.bar.lost || s.bar.pathLost) && 65536 ≤ s.bar.lostTicks then
    .next (s.warmReset 3 false)
  else .next s

/-- BUSY_BANK_FAULT (R405): the firmware reads a busy bank, 0 and 1 code, 2 and 3 data. -/
def execBusyBankFault (bank : Fin 4) (s : State) : Host.Outcome State Fault Refusal :=
  if s.sup.running && s.bankBusyNow.testBit bank then
    .next (((s.bump Reg.busyFaults).event 0x4201 0xFF bank).warmReset 4 false)
  else .next s

/-! ### Command frames (R23) -/

/-- The HV die takes one register of a command frame: FEED_EN acts on its feed (R189), MAINS_SENSE on the time base (R136),
FET_DMG_CLEAR (R193) and HU_CLEAR (R234) are commands, every other one is a setting. -/
def State.applySet (s : State) (k v : Nat) : State :=
  if k = Reg.feedEn 0 then s.feedEnWritten 0 (s.hrd k) v
  else if k = Reg.feedEn 1 then s.feedEnWritten 1 (s.hrd k) v
  else if k = Reg.fetDmgClear 0 then s.dmgCleared 0
  else if k = Reg.fetDmgClear 1 then s.dmgCleared 1
  else if k = Reg.huClear then s.huCleared
  else if k = Reg.capPeriod then (s.capPeriodWritten v).hwr k v
  else if k = Reg.mainsSense then (s.hwr k v).takeMainsSense
  else s.hwr k v

/-- The HV die applies a command frame: the whole share, or the registers it sets in order. -/
def State.applyFrame (s : State) (f : CmdFrame) : State :=
  let t := if f.share then s.takeShare f.sets else s.each f.sets (fun e s => s.applySet e.1 e.2)
  { t with bar := { t.bar with hvSeq := f.seq } }

/-- COMMAND_FRAME_RX (R23): a B3 frame arrives at the HV die. It is applied where its CRC is valid and its sequence is the next after
that of the last frame applied; any other is discarded and counted. -/
def execCommandFrameRx (crcOk : Bool) (seq : BitVec 16) (s : State) : Host.Outcome State Fault Refusal :=
  let discarded : State := { s with bar := { s.bar with hvDiscards := s.bar.hvDiscards + 1 } }
  if !s.sup.main then .next s
  else if !(crcOk && seq = s.bar.hvSeq + 1) then .next discarded
  else match s.bar.unapplied.find? (fun f => f.seq = seq) with
    | none => .next discarded
    | some f => .next (s.applyFrame f)

/-- The command path is lost (R23): a frame is unapplied after its eighth sending. -/
def State.losePath (s : State) : State :=
  if s.bar.pathLost then s
  else
    let s := { s with bar := { s.bar with pathLost := true } }.bump Reg.cmdPathLosses
    (s.event 0x7007 0xFF 1 (s.rd Reg.cmdResends)).refreshBarrier

/-- COMMAND_RESEND (R23): the reported sequence has not advanced for 2 ticks. A frame that has had its eight sendings means that the
command path is lost; every other unapplied frame is sent again. -/
def execCommandResend (s : State) : Host.Outcome State Fault Refusal :=
  if !(s.sup.running && s.sup.main && 2 ≤ s.bar.stall) then .next s
  else
    let lost := s.bar.unapplied.any (fun f => 8 ≤ f.sends)
    let again := (s.bar.unapplied.filter (fun f => f.sends < 8)).length
    let l := s.bar.unapplied.map (fun f => if f.sends < 8 then { f with sends := f.sends + 1 } else f)
    let s := s.iff lost (·.losePath)
    .next ({ s with bar := { s.bar with unapplied := l, stall := 0 } }.bumpBy Reg.cmdResends again)

end Sys2Proof.Machine
end

