-- ==== Sys2Proof/Machine/Feeds.lean ====
section
/-! DEFINITION. The feeds' commands (spec/07_feeds_and_efuse.md R175-R196). A feed operand is 0 for A, 1 for B. A command whose
condition does not hold leaves the state as it is (log entry 8). -/
namespace Sys2Proof.Machine

/-- A latched trip; a trip that leaves no feed ON is the VBUS-sag pour trigger (R185). -/
def State.tripFeed (s : State) (f cause detail : Nat) : State :=
  let r := s.latchFeed f cause detail
  if r.2 then r.1.b2Trigger 2 else r.1.b2Other

/-- SEAT_QUALIFY (R176): both pins have stayed closed for SEAT_QUAL ticks. A seating toggle clears BUS_LATCH (R189). A positive test of
the last 8 ticks is a damage finding; else the feed is SEATED, and it may be taken on at once. In rest the qualification ends the rest
(R365). -/
def execSeatQualify (f : Feed) (s : State) : Host.Outcome State Fault Refusal :=
  let f := f.val
  if s.feedsRun && !(s.hrd (Reg.seatState f)).testBit 2 && decide (s.hrd (Reg.seatQual f) ≤ s.run (rcSeat f)) then
    let s := s.hwr (Reg.seatState f) (s.hrd (Reg.seatState f) + 4)
    let x := s.feedX f
    let s := s.setFeedX f { x with wasLatched := false }
    let s := if x.wasLatched then (s.hwr Reg.busLatch 0).refreshWait else s
    if s.damageNew f then .next ((s.findDamage f).restExit 1)
    else if s.feedSt f ≠ Fs.unseated then .next (s.restExit 1)
    else
      let s := s.setFeed f Fs.seated
      .next ((if s.takeable f then s.setFeed f Fs.on else s).restExit 1)
  else .next s

/-- SEAT_RELEASE (R177): a pin has read open for SEAT_REL ticks; after the takeover it may be the seating-release trigger. -/
def execSeatRelease (f : Feed) (s : State) : Host.Outcome State Fault Refusal :=
  let f := f.val
  if s.feedsRun && (s.hrd (Reg.seatState f)).testBit 2 && decide (s.hrd (Reg.seatRel f) ≤ s.run (rcRel f)) then
    let s := s.hwr (Reg.seatState f) (s.hrd (Reg.seatState f) - 4)
    let s := if s.checking f then { s with bus := { s.bus with check := none } } else s
    let s := if s.feedSt f = Fs.damaged then s
      else (s.setFeedX f { s.feedX f with wasLatched := s.feedSt f = Fs.latched }).setFeed f Fs.unseated
    let p := s.hrd Reg.seatPour
    let trig := s.taken && (p = 2 || (p = 1 && s.feedSt (1 - f) ≠ Fs.on))
    let s := s.told [.count (Reg.seatReleases f) 1, .flag (Reg.feedFlags f) 1, .event 0x2002 f (if trig then 1 else 0) 0 0]
    .next (s.iff (trig || (!s.taken && s.sup.running && (p = 2 || (p = 1 && s.feedSt (1 - f) ≠ Fs.on)))) (·.b2Trigger 3))
  else .next s

/-- SOFT_START_BEGIN (R178, R179): every condition holds; feed A first where both are ready. -/
def execSoftStartBegin (f : Feed) (s : State) : Host.Outcome State Fault Refusal :=
  let ready := fun (f : Nat) => s.feedSt f = Fs.seated && s.ssAllowed f && s.feedHigh f && !s.checking f
  if s.feedsRun && ready f.val && !(f.val = 1 && ready 0) then .next (s.beginSs f.val) else .next s

/-- SOFT_START_DONE (R180): VBUS has stayed within 1000 mV of FEED_x for 8 ticks. -/
def execSoftStartDone (f : Feed) (s : State) : Host.Outcome State Fault Refusal :=
  if s.feedSt f.val = Fs.softStart && 8 ≤ s.run (rcSs f.val) then .next (s.setFeed f.val Fs.on) else .next s

/-- SOFT_START_TIMEOUT (R180): twice SS_TIME has passed; the feed latches with cause 4. -/
def execSoftStartTimeout (f : Feed) (s : State) : Host.Outcome State Fault Refusal :=
  let f := f.val
  if s.feedSt f = Fs.softStart && decide (2 * s.hrd (Reg.ssTime f) ≤ s.tick - (s.feedX f).ssFrom) then
    .next (s.tripFeed f 4 0)
  else .next s

/-- FAST_TRIP (R181): the shunt's voltage in microvolts has reached FAST_TRIP. -/
def execFastTrip (f : Feed) (uv : Nat) (s : State) : Host.Outcome State Fault Refusal :=
  let f := f.val
  if s.gateOn f && decide (s.hrd (Reg.fastTrip f) * 1000 ≤ uv) then .next (s.tripFeed f 1 0) else .next s

/-- IT_TRIP (R182): the feed current has stood at `ma` for `us` microseconds. The eight timers are stepped; the first that
reaches its time trips the feed with its k. -/
def execItTrip (f : Feed) (ma us : Nat) (s : State) : Host.Outcome State Fault Refusal :=
  let f := f.val
  let curve := s.hrd (Reg.itCurve f)
  let x := s.feedX f
  let s' := s.setFeedX f { x with timers := stepTimers curve 8 ma us x.timers }
  match tripAt curve 8 ma us x.timers with
  | some k => if s.gateOn f then .next (s'.tripFeed f 2 k) else .next s'
  | none => .next s'

/-- FET_TEMP_STEP (R183): one computation of the FET model, with warning and trip. The warning is logged when the computation
before lay below FET_TWARN (log entry 24). -/
def execFetTempStep (f : Feed) (s : State) : Host.Outcome State Fault Refusal :=
  let f := f.val
  let x := s.feedX f
  let src := s.hrd (Reg.fetTempSrc f)
  let ref : Int := if src ≠ 0 then (s.feedNtc f).getD s.smp.hvTemp else s.smp.hvTemp
  let rise := poleStep x.rise (s.fetPower f) (s.hrd (Reg.fetRth f)) (s.hrd (Reg.fetTau f))
  let t := ref + rise / riseUnit
  let warm := decide (s.hrdI (Reg.fetTwarn f) ≤ t)
  let s := (s.setFeedX f { x with rise := rise, warm := warm }).hwrI (Reg.fetTemp f) (clampInt (-32768) 32767 t)
  let s := if warm then
      s.told (.flag (Reg.feedFlags f) 7 :: (if x.warm then [] else [.event 0x2008 f 0 (ofSigned 4 t) 0])) else s
  if s.hrdI (Reg.fetTmax f) ≤ t && s.gateOn f then .next (s.tripFeed f 3 0) else .next s

/-- GATE_DRIVE_TRIP (R184): the gate-source voltage has stayed at `mv` for `us` microseconds while the gate is commanded fully
enhanced, not while sharing regulates it (Table FE-1). -/
def execGateDriveTrip (f : Feed) (mv us : Nat) (s : State) : Host.Outcome State Fault Refusal :=
  let f := f.val
  let full := (s.feedSt f = Fs.on && (s.feedX f).drop = 0) || (s.feedSt f = Fs.damaged && s.gateOn f)
  if full && decide (mv < 7000 ∧ 20 ≤ us) then .next (s.tripFeed f 5 0) else .next s

/-- BACKFEED_BLOCK (R186): FEED_x, VBUS_S and the shunt have stood as given for 1 microsecond. -/
def execBackfeedBlock (f : Feed) (feedMv busMv : Nat) (shuntUv : Int) (s : State) : Host.Outcome State Fault Refusal :=
  if s.feedSt f.val = Fs.on && decide (feedMv + 100 < busMv ∨ shuntUv < -1000) then .next (s.blockBack f.val) else .next s

/-- OV_BLOCK (R187): FEED_x has stayed above FEED_OV for 10 microseconds. -/
def execOvBlock (f : Feed) (mv us : Nat) (s : State) : Host.Outcome State Fault Refusal :=
  let f := f.val
  if s.feedSt f = Fs.on && decide (s.hrd (Reg.feedOv f) < mv ∧ 10 ≤ us) then
    let s := s.setFeed f Fs.blocked
    let s := s.setFeedX f { s.feedX f with blockOv := true }
    .next (s.told [.count (Reg.ovEvents f) 1, .flag (Reg.feedFlags f) 3, .event 0x2004 f 0 mv 0])
  else .next s

/-- BLOCK_EXIT (R188): the exit condition has held: ON, SOFT_START where R179 allows one, else SEATED. -/
def execBlockExit (f : Feed) (s : State) : Host.Outcome State Fault Refusal :=
  let f := f.val
  let held := if (s.feedX f).blockOv then decide (1024 ≤ s.run (rcOvOk f)) else decide (8 ≤ s.run (rcBack f))
  if s.feedSt f = Fs.blocked && held && !s.pads.b4 && decide (s.hrd (Reg.feedUv f) ≤ s.feedMv f) then
    if !s.feedHigh f then .next (s.setFeed f Fs.on)
    else if s.ssAllowed f then .next (s.beginSs f)
    else .next (s.setFeed f Fs.seated)
  else .next s

/-- FET_DAMAGE_FINDING (R190, R192): a test has been positive for 8 ticks. What T1 and T3 show of a feed that has not qualified yet waits
for its qualification (R176). -/
def execFetDamageFinding (f : Feed) (s : State) : Host.Outcome State Fault Refusal :=
  let f := f.val
  if s.feedsRun && s.testable f && s.damageNew f && (s.feedSt f ≠ Fs.unseated || s.positive f 2) then .next (s.findDamage f)
  else .next s

/-- FET_CHECK_START (R191): a check falls due at the first tick of window P2 of its cycle and turns one feed off. Where the total
current is above the other feed's rating it was skipped and counted by that tick. -/
def execFetCheckStart (s : State) : Host.Outcome State Fault Refusal :=
  if s.checkDue && s.checkFits then
    let f := s.bus.nextCheck
    let s := { s with bus := { s.bus with checkCyc := s.clk.hvCyc + 1, check := some (f, s.tick), nextCheck := 1 - f } }
    .next (s.setFeed f Fs.seated)
  else .next s

/-- FET_CHECK_END (R191): 2048 ticks have passed; the feed is turned back on under R188. -/
def execFetCheckEnd (s : State) : Host.Outcome State Fault Refusal :=
  match s.bus.check with
  | some (f, t) =>
    if 2048 ≤ s.tick - t then
      let s := { s with bus := { s.bus with check := none } }
      .next (if s.takeable f then s.setFeed f Fs.on else s.refreshWait)
    else .next s
  | none => .next s

/-- SHARE_FAULT (R194): the sharing bound was missed for 64 cycles in a row. -/
def execShareFault (s : State) : Host.Outcome State Fault Refusal :=
  if 64 ≤ s.run rcShare then
    let s := s.setRun rcShare 0
    .next (s.told [.flag (Reg.feedFlags 0) 6, .flag (Reg.feedFlags 1) 6, .event 0x2007 0xFF 0 (ofSigned 4 (s.hrdI Reg.shareErr)) 0])
  else .next s

/-- VBUS_SAG_DECLARED (R195): VBUS stayed low, or the holdup carried, for SAG_RUN ticks. -/
def execVbusSagDeclared (s : State) : Host.Outcome State Fault Refusal :=
  let n := s.hrd Reg.sagRun
  if s.bus.everOn && !s.pads.b4 && (n ≤ s.run rcSag || n ≤ s.run rcSagHu) then .next (s.declareSag.b2Trigger 2)
  else .next s

end Sys2Proof.Machine
end

