-- ==== Sys2Proof/Machine/Holdup.lean ====
section
/-! DEFINITION. The holdup's commands (spec/09_holdup.md R229-R239). -/
namespace Sys2Proof.Machine

/-- HOLDUP_ARM (R229): every arming condition has held for 8 ticks. -/
def execHoldupArm (s : State) : Host.Outcome State Fault Refusal :=
  if s.hu = Hs.off && s.sup.main && 8 ≤ s.run rcArm then .next (s.setHu Hs.armed) else .next s

/-- HOLDUP_TRIP (R233): the input current has stood at `ma` for `us` microseconds. The curve's four timers and the stage model
are stepped, and whichever reaches its limit latches the holdup in every state and releases SHARE; a self-test under way fails by it
(R236). -/
def execHoldupTrip (ma us : Nat) (s : State) : Host.Outcome State Fault Refusal :=
  let curve := s.hrd Reg.huItCurve
  let h := s.hux
  let why := tripAt curve 4 ma us h.timers
  let s := { s with hux := { h with timers := stepTimers curve 4 ma us h.timers } }.stageSteps ma (us / 10)
  let live := s.hu ≠ Hs.latched
  let self := h.self = 1 || h.self = 2
  let done := fun (s : State) => s.endDraws.iff self (·.huFail 4)
  if live && why.isSome then .next (done (s.tripHoldup 1))
  else if live && s.hrdI Reg.huTmax ≤ s.hrdI Reg.huTemp then .next (done (s.tripHoldup 2))
  else .next s

/-- HU_SELF_TEST (R236): what the self-test that this N2 window's ticks have run (`State.tickN2`) has measured: the gate drive in mV,
VDRV in range, the averaged input current, how far VBUS moved. -/
def execHuSelfTest (gateMv : Nat) (vdrv : Bool) (avgMa movedMv : Nat) (s : State) : Host.Outcome State Fault Refusal :=
  if s.sup.main && s.sup.running && s.hux.self = 3 then
    if gateMv < 8000 || !vdrv then .next (s.huFail 6)
    else if !within15 avgMa (s.hrd Reg.huTestI) then .next (s.huFail 2)
    else if 1000 < movedMv then .next (s.huFail 3)
    else .next { s with hux := { s.hux with self := 0 } }.huPass
  else .next s

/-- DROOP_FALLBACK (R239): the trim has stood at a limit for 64 ticks while the member carried (`pinned`), or SHARE has read above
4500 mV for 64 ticks. -/
def execDroopFallback (pinned : Bool) (s : State) : Host.Outcome State Fault Refusal :=
  let on := s.hrd Reg.huGroup ≠ 0 && !s.hux.droop
  if on && 64 ≤ s.run (if pinned then rcPinned else rcShareHigh) then .next s.fallToDroop else .next s

end Sys2Proof.Machine
end

