-- ==== Sys2Proof/Machine/LogOps.lean ====
section
/-! DEFINITION. Reading the log (spec/18_events_and_faults.md R474, R475) and its flush (R471). -/
namespace Sys2Proof.Machine

/-! ### Cursors -/

/-- Cursors held in the module (R474). -/
def State.cursors (s : State) : Nat := (s.svc.srcs.filter (fun e => e.2.cursor.isSome)).length

/-- A source may hold one more cursor, or holds one. -/
def State.cursorFree (s : State) (j : Nat) : Bool := (s.srcOf j).cursor.isSome || s.cursors < 8

/-- The newest valid slot. -/
def State.newestSlot (s : State) : Option Nat :=
  ((s.validSlots (fun _ => true)).map (·.1)).foldl (fun acc n => match acc with
    | none => some n
    | some m => if s.ringOrder m < s.ringOrder n then some n else some m) none

/-- Place a source's cursor; LOG_READ_TORN counts from there. -/
def State.placeCursor (s : State) (j n : Nat) : State :=
  s.setSrc j { s.srcOf j with cursor := some n, logResult := 1, readTorn := 0 }

/-- LOG_CMD 1 (R474): the oldest valid slot, or the head of an empty ring. -/
def State.seekOldest (s : State) (j : Nat) : State := s.placeCursor j (s.oldestSlot.getD s.log.head)

/-- LOG_CMD 2 (R474): the own record with LOG_SEEK_SEQ; where none is present LOG_CMD reads 3. -/
def State.seekSeq (s : State) (j : Nat) : State :=
  match s.firstSlot ((s.validSlots (fun r => r.kind = 1 && r.seq = (s.srcOf j).seekSeq)).map (·.1)) with
  | some n => s.placeCursor j n
  | none => s.setSrc j { s.srcOf j with logResult := 3 }

/-- LOG_CMD 3 (R474): the newest valid slot. -/
def State.seekNewest (s : State) (j : Nat) : State := s.placeCursor j (s.newestSlot.getD s.log.head)

/-- LOG_CMD 4 (R474). -/
def State.closeCursor (s : State) (j : Nat) : State := s.setSrc j { s.srcOf j with cursor := none, logResult := 2 }

/-! ### Batches (R475) -/

/-- A record passes a source's LOG_FILTER: its severity's bit, and bit 4 for own or bit 5 for member entries. -/
def filterPasses (f : Nat) (r : LogRec) : Bool := f.testBit (min 3 r.sev) && f.testBit (if r.kind = 1 then 4 else 5)

/-- The ring's slots that are not blank, in order from a slot to the head. -/
def State.slotsFrom (s : State) (c : Nat) : List (Nat × Slot) :=
  let l := s.log.ring
  ((l.filter (fun e => s.log.head < e.1)) ++ (l.filter (fun e => e.1 < s.log.head))).filter
    (fun e => s.ringOrder c ≤ s.ringOrder e.1)

/-- A batch as it is gathered: the records' bytes, torn slots passed, slots examined, and the slot after the last of these. -/
structure Batch where
  recs : List (List Nat) := []
  torn : Nat := 0
  seen : List Nat := []
  next : Option Nat := none

/-- Walk the slots until 16 records have been taken. -/
def walkBatch (f : Nat) : List (Nat × Slot) → Batch → Batch
  | [], b => b
  | (n, x) :: t, b =>
    if 16 ≤ b.recs.length then { b with next := some n }
    else
      let b := { b with seen := n :: b.seen }
      match x with
      | .torn => walkBatch f t { b with torn := b.torn + 1 }
      | .valid r i => walkBatch f t (if filterPasses f r then { b with recs := b.recs ++ [recBytes r i.toNat] } else b)
      | .blank => walkBatch f t b

/-- What a read of LOG_BATCH gives a source: an abort, or the 1024 bytes with what its serving does to the cursor. -/
def State.batch (s : State) (j : Nat) : Except (Nat × Nat) (List Nat × (Nat × Nat × Bool)) :=
  let x := s.srcOf j
  match x.cursor with
  | none => .error (0x04120000, 0)
  | some c =>
    let lost := c = ringSlots
    let from_ := if lost then s.oldestSlot.getD s.log.head else c
    let b := walkBatch x.filter (s.slotsFrom from_) {}
    if b.seen.any (fun n => s.dataBusy (slotBank n)) then .error (0x01030000, 2)
    else .ok (padTo 1024 0 b.recs.flatten, (b.next.getD s.log.head, b.torn, lost))

/-- A batch has been served whole: the cursor advances (R475). -/
def State.batchServed (s : State) (j : Nat) (b : Nat × Nat × Bool) : State :=
  let x := s.srcOf j
  (s.setSrc j { x with cursor := some b.1, readTorn := (x.readTorn + b.2.1) % 2 ^ 32 }).iff b.2.2 (·.flag Reg.evFlags 2)

/-! ### The flush window -/

/-- LOG_FLUSH (R471, Table MA-2 row 9): the first tick of the flush window, in a due cycle. -/
def execLogFlush (s : State) : Host.Outcome State Fault Refusal :=
  if s.sup.running && s.loaded && !s.coldRead && dueCycle s.clk.cyc (s.rd Reg.logFlushPeriod / 1024) 0
      && s.clk.tic = windowTick 63488 s.clk.shift then .next s.flushLog
  else .next s

end Sys2Proof.Machine
end

