-- ==== Sys2Proof/Machine/PadCmds.lean ====
section
/-! DEFINITION. Pad contention (spec/03_package_and_pads.md R107-R110, Table PK-5). -/
namespace Sys2Proof.Machine

/-- PAD_LIMIT (R108, R109): a mismatch of a driven pad in Normal counts. -/
def execPadLimit (p : Pad) (s : State) : Host.Outcome State Fault Refusal :=
  if (s.padDriven p).isSome && !s.padLimited p && !s.padIsOff p then
    let s := { s with pads := { s.pads with lim := tset 0 s.pads.lim p (s.tick + 1) } }.setRun (rcPadClean p) 0
    .next (s.iff s.sup.running (fun s => ((s.flag Reg.padContention p).bumpSat (Reg.contCount p) 65535).padEvent p 1))
  else .next s

/-- PAD_NORMAL (R108): 8 clean ticks in Limited. -/
def execPadNormal (p : Pad) (s : State) : Host.Outcome State Fault Refusal :=
  if s.padLimited p && 8 ≤ s.run (rcPadClean p) then .next (s.padToNormal p) else .next s

/-- PAD_OFF (R108): CONT_OFF_DELAY ticks in Limited. Of a pad limited while it is held through a warm reset (R110), the default counts
until CONFIG_LOAD has set the parameter (DESIGN CHOICE, log entry 90). -/
def execPadOff (p : Pad) (s : State) : Host.Outcome State Fault Refusal :=
  if s.padLimited p && tget 0 s.pads.lim p + s.rd Reg.contOffDelay ≤ s.tick + 1 then
    let s := { s with pads := { s.pads with lim := terase s.pads.lim p, off := s.pads.off ||| 2 ^ p.val } }
    .next (s.padEvent p 3)
  else .next s

end Sys2Proof.Machine
end

