-- ==== Sys2Proof/Machine/Commands.lean ====
section
/-! DEFINITION. What an accepted write does, parameter by parameter: commands (CMD), flags, holds and settings
(spec/02_object_dictionary.md R50-R70; the chapters' own rules for their commands). -/
namespace Sys2Proof.Machine

/-- How a request ends: an abort with its code, detail, further data and the violation class it counts in; an answer with its data
and status bits, and what follows it; an answer due later. -/
inductive ROut where
  | abort (s : State) (code detail : Nat) (extra : List Nat := []) (viol : Nat := 0)
  | ok (s : State) (data : List Nat := []) (bits : Nat := 0) (post : State → State := id)
  | later (s : State)

/-- A write's outcome as a request's. -/
def WOut.out (s : State) : WOut → ROut
  | .abort c d => .abort s c d
  | .ok t => .ok t
  | .later t => .later t

/-- A command that takes the value 1 only. -/
def only1 (s : State) (v : Nat) (o : ROut) : ROut := if v = 1 then o else .abort s 0x03040000 0

/-! ### Locks (R63-R65) -/

/-- OEM_UNLOCK with a password (R63, R64). -/
def State.doUnlock (s : State) (j v : Nat) : ROut :=
  if s.svc.attempts = 0 then .abort s 0x02070000 0
  else if v = s.prot.password then
    let s := { s with svc := { s.svc with attempts := 8 } }.wr Reg.pwAttemptsLeft 8
    .ok (s.setSrc j { s.srcOf j with unlocked := true })
  else
    let n := s.svc.attempts - 1
    let s := { s with svc := { s.svc with attempts := n } }.wr Reg.pwAttemptsLeft n
    .abort (if n = 0 then (s.flag Reg.serviceFlags 4).event 0x1105 j else s) 0x02060000 n

/-- OEM_LOCK 1 (R63). -/
def State.doLock (s : State) (j : Nat) : State := s.setSrc j { s.srcOf j with unlocked := false, oemLock := 1 }

/-- A protection record waits to be written for a register's write. -/
def State.protBusy (s : State) (what : Nat) : Bool := s.fw.writing.any (fun w => w.2.1 = what)

/-- OEM_PW_CHANGE (R65): the new password is stored before the write is answered. -/
def State.doPwChange (s : State) (j tag v : Nat) : ROut :=
  if !s.unlocked j then .abort s 0x02050000 0
  else if s.protBusy 1 then .abort s 0x04050000 0
  else .later (s.writeProt { s.protNext with password := v } 1 j tag)

/-! ### Holds (R66) -/

/-- What refuses an IDLE_HOLD value outside pour and rest (R66): its abort and detail. -/
def State.holdFault (s : State) (v : Nat) : Option (Nat × Nat) :=
  if v % 128 = 0 || s.atStep Step.configHeld then none
  else if s.phase = .guard then some (0x04060000, 0)
  else some (0x04110000, ((List.range 7).find? (fun i => v.testBit i)).getD 0)

/-- A block is held by some bit of a mask. -/
def heldBy (v mask : Nat) : Bool := v &&& mask ≠ 0

/-- An accepted IDLE_HOLD value (R66, Table OD-5): the link's bits 7 and 8, CAN's bit 9, the eye scans' bit 10; clearing the last
of bits 0-6 in CONFIG_HELD makes the takeover tick (R160). -/
def State.holdWritten (s : State) (v : Nat) : State :=
  let old := s.rd Reg.idleHold
  let s := s.wr Reg.idleHold v
  let s := if heldBy v 0x180 && !heldBy old 0x180 then s.linkDisable 11
    else if heldBy old 0x180 && !heldBy v 0x180 then s.linkEnable else s
  let s := s.refreshBus
  let s := if heldBy v 0x400 && !heldBy old 0x400 then s.endScans 3 else s
  if s.atStep Step.configHeld && v % 128 = 0 then s.takeover else s

/-! ### Link and eye scan -/

/-- LINK_RETRAIN 1 or 2 (Table LP-9 cause 6): started in ACTIVE and BANKED, refused elsewhere. -/
def State.doRetrain (s : State) (v : Nat) : State :=
  if s.wasActive || s.ls = Ls.banked then
    let s := s.wr Reg.linkRetrain 1
    if v = 1 then s.fastRetrain 6 else s.fullTraining 6
  else s.wr Reg.linkRetrain 2

/-- A lane's scan starts with the settings of its object (R296). One started while IDLE_HOLD holds the eye scan is stopped at once:
Table OD-5 says that scans stop and names no refusal (DESIGN CHOICE, log entry 81). -/
def State.scanLane (s : State) (p : Nat) : State :=
  let s := s.startScan p (s.rd (Reg.eyeType p)) (s.rd (Reg.eyeHStep p)) (s.rd (Reg.eyeVStep p)) (s.rd (Reg.eyeDwell p))
  if s.bitOf Reg.idleHold 10 then s.endScan p 3 else s

/-- The points a scan of a lane would have. -/
def State.lanePoints (s : State) (p : Nat) : Nat := eyeCount (s.rd (Reg.eyeType p)) (s.rd (Reg.eyeHStep p)) (s.rd (Reg.eyeVStep p))

/-- EYE_CMD 1 or 2 (R296, R300). -/
def State.doEye (s : State) (p v : Nat) : ROut :=
  if v = 1 then
    if s.rd (Reg.eyeCmd p) = 1 then .abort s 0x04050000 0
    else if s.rd Reg.widthNow = 0 || !s.laneIn p then .abort s 0x04090000 0
    else if 1024 < s.lanePoints p then .abort s 0x03060000 (0x3080 + p)
    else .ok (s.scanLane p)
  else if v = 2 then .ok (if s.rd (Reg.eyeCmd p) = 1 then s.endScan p 3 else s)
  else .abort s 0x03040000 0

/-! ### Reports (R489, R490) -/

/-- SVC_REPORT_CMD with a kind. -/
def State.doReport (s : State) (j v : Nat) : ROut :=
  let lanes := (List.range 4).filter s.laneIn
  let begin_ := fun (s : State) =>
    { (s.wr Reg.svcReportCmd 1) with
      rep := { kind := v, src := j, locked := !s.unlocked j, cyc := s.clk.cyc, lanes := (lanes.map (fun p => bitIf true p)).sum } }
  if s.rep.kind ≠ 0 then .abort s 0x04050000 0
  else if v = 1 || v = 2 then
    if s.taken then .ok (begin_ s).finishReport else .abort s 0x040D0000 0
  else if v = 3 then
    if s.phase ≠ .guard then .abort s 0x040D0000 0
    else if s.anyOpen then .abort s 0x04080000 0
    else .ok (begin_ s)
  else if v = 4 then
    if s.phase ≠ .guard then .abort s 0x040D0000 0
    else if s.rd Reg.linkUp ≠ 1 then .abort s 0x040F0000 0
    else if lanes.any (fun p => s.rd (Reg.eyeCmd p) = 1) then .abort s 0x04050000 0
    else match lanes.find? (fun p => decide (1024 < s.lanePoints p)) with
      | some p => .abort s 0x03060000 (0x3080 + p)
      | none => .ok (((begin_ s).each lanes (fun p s => s.scanLane p)).reportScans)
  else .abort s 0x03040000 0

/-! ### Cascade, log, start -/

/-- FW_DIST 1 or 2 (R460, R462). -/
def State.doDist (s : State) (j v : Nat) : ROut :=
  let refused := s.wr Reg.fwDist 3
  if !s.unlocked j then .abort (if v = 1 && s.cas.dist.isNone then refused else s) 0x02050000 0
  else if v = 1 then
    if s.cas.dist.isSome then .abort s 0x04050000 0
    else if s.phase ≠ .guard then .abort refused 0x04100000 0
    else if s.rd Reg.fwState ≠ 3 || !s.slotValid s.inactiveSlot then .abort refused 0x040C0000 0
    else
      let m := s.rd Reg.fwDistMask
      let todo := ((List.range 64).filter (fun k => k ≠ 0 && m.testBit k)).map (· + 1)
      let s := s.each (List.range 64) (fun k s => s.wr (Reg.fwDistResult k) 0)
      .ok (State.distNext 65 { (s.wr Reg.fwDist 1) with cas := { s.cas with dist := some { todo := todo } } })
  else if v = 2 then .ok (s.stopDist 8 4)
  else .abort s 0x03040000 0

/-- LOG_CMD 1 to 4 (R474). -/
def State.doLog (s : State) (j v : Nat) : ROut :=
  if v = 4 then .ok (s.closeCursor j)
  else if v = 0 || 4 < v then .abort s 0x03040000 0
  else if !s.cursorFree j then .abort s 0x01030000 0
  else .ok (if v = 1 then s.seekOldest j else if v = 2 then s.seekSeq j else s.seekNewest j)

/-- START_RETRY 1 (R173). -/
def State.doStartRetry (s : State) : ROut :=
  if s.atStep Step.stopped then .ok s.resumeStart else .abort (s.wr Reg.startRetry 2) 0x04070000 0

/-- SHAKE_ABANDON 1 (R371). -/
def State.doAbandon (s : State) (j : Nat) : ROut :=
  if !s.unlocked j then .abort s 0x02050000 0
  else if s.rd Reg.shakeState = 0 || 4 < s.rd Reg.shakeState then .abort s 0x040E0000 0
  else .ok ((s.confirmShake true).wr Reg.shakeAbandon 1)

/-- The answer sent before a reset stands after it. -/
def State.answeredAs (t s : State) : State := { t with svc := { t.svc with answer := s.svc.answer, wire := s.svc.wire } }

/-- RESTART 1 or 2 (R68): the answer goes first and stands after the reset. -/
def State.doRestart (s : State) (v : Nat) : ROut :=
  if v = 1 || v = 2 then
    .ok (s.wr Reg.restart v) [] 0 (fun s => (s.warmReset 2 (v = 2)).answeredAs s)
  else .abort s 0x03040000 0

/-- REST_WAKE 1 (R365): rest ends with reason 3 once the write is answered. -/
def State.doWake (s : State) : ROut :=
  if s.phase = .rest then
    .ok (s.wr Reg.restWake 1) [] 0 (fun s => (s.restExit 3).answeredAs s)
  else .ok s

/-! ### Every command of the dictionary -/

/-- A write of a CMD parameter (R53) from source `j` with a tag. -/
def State.doCmd (s : State) (j tag k v : Nat) : ROut :=
  let lane := k / 256 - 0x3080
  if k = Reg.configCommit then (s.doCommit v).out s
  else if k = Reg.oemUnlock then s.doUnlock j v
  else if k = Reg.oemLock then only1 s v (.ok (s.doLock j))
  else if k = Reg.oemPwChange then s.doPwChange j tag v
  else if k = Reg.restart then s.doRestart v
  else if k = Reg.contRearm then .ok ((s.rearmPads v).wr Reg.contRearm v)
  else if k = Reg.startRetry then only1 s v s.doStartRetry
  else if k = Reg.fetDmgClear 0 then only1 s v (.ok (s.doDmgClear 0))
  else if k = Reg.fetDmgClear 1 then only1 s v (.ok (s.doDmgClear 1))
  else if k = Reg.ladleClear then only1 s v (.ok s.doLadleClear)
  else if k = Reg.dampLearn then
    only1 s v (if s.lad.learn then .abort s 0x04050000 0 else if s.anyOpen then .abort s 0x04080000 0
      else .ok { s with lad := { s.lad with learn := true } })
  else if k = Reg.huClear then (if v = 1 || v = 2 then .ok (s.doHuClear v) else .abort s 0x03040000 0)
  else if k = Reg.seqClear then only1 s v (.ok s.doSeqClear)
  else if k = Reg.linkRetrain then
    (if v = 1 || v = 2 then .ok s [] 0 (·.doRetrain v) else .abort s 0x03040000 0)
  else if lane < 4 && k = Reg.eyeCmd lane then s.doEye lane v
  else if k = Reg.restWake then only1 s v s.doWake
  else if k = Reg.shakeAbandon then only1 s v (s.doAbandon j)
  else if k = Reg.fwCmd then (s.doFwCmd j tag v).out s
  else if k = Reg.protCodeSet then (if s.protBusy 3 then .abort s 0x04050000 0 else (s.doProtCode j tag v).out s)
  else if k = Reg.debugClose then (if s.protBusy 4 then .abort s 0x04050000 0 else (s.doDebugClose j tag v).out s)
  else if k = Reg.fwDist then s.doDist j v
  else if k = Reg.logCmd then s.doLog j v
  else s.doReport j v

/-! ### Every other write -/

/-- A setting of an eye scan that runs (R296). -/
def State.scanSetting (s : State) (k : Nat) : Bool :=
  decide (0x3080 ≤ k / 256 ∧ k / 256 ≤ 0x3083) && s.rd (Reg.eyeCmd (k / 256 - 0x3080)) = 1

/-- An accepted value of a parameter that is neither a command nor a flag. -/
def State.doSet (s : State) (j k v : Nat) : ROut :=
  if k = Reg.idleHold then
    match s.holdFault v with
    | some (c, d) => .abort s c d
    | none => .ok s [] 0 (·.holdWritten v)
  else if k = Reg.feedEn 0 then
    (if s.feedEnRefused 0 v then .abort s 0x03060000 0x2040 else .ok (s.writeSetting k v))
  else if k = Reg.feedEn 1 then
    (if s.feedEnRefused 1 v then .abort s 0x03060000 0x2000 else .ok (s.writeSetting k v))
  else if k = Reg.cellTarget then .ok (s.writeSetting k v).targetWritten
  else if k = Reg.logSeekSeq then .ok (s.setSrc j { s.srcOf j with seekSeq := v })
  else if k = Reg.logFilter then .ok (s.setSrc j { s.srcOf j with filter := v })
  else if s.scanSetting k then .abort s 0x04050000 0
  else if isSetting k then .ok (s.writeSetting k v)
  else .ok (s.wr k v)

end Sys2Proof.Machine
end

