-- ==== Sys2Proof/Machine/Request.lean ====
section
/-! DEFINITION. The parameter service (spec/02_object_dictionary.md R45-R90): who is answered, limits, readiness, and every opcode
of Table OD-7. All carriers end in `State.request`. -/
namespace Sys2Proof.Machine

/-! ### Opcodes (Table OD-7) -/
namespace Op
def read : Nat := 0x01
def write : Nat := 0x02
def readLow : Nat := 0x03
def readHigh : Nat := 0x04
def clearIfEqual : Nat := 0x05
def describe : Nat := 0x06
def segReadInit : Nat := 0x08
def segWriteInit : Nat := 0x09
def segData : Nat := 0x0A
def segAbort : Nat := 0x0B
end Op

/-- Opcodes that write (R73). -/
def opWrites (op : Nat) : Bool := op = Op.write || op = Op.clearIfEqual || op = Op.segWriteInit

/-- The opcodes of the table. -/
def opKnown (op : Nat) : Bool := [0x01, 0x02, 0x03, 0x04, 0x05, 0x06, 0x08, 0x09, 0x0A, 0x0B].contains op

/-- Index and sub-index as a register number. -/
def reqKey (r : Req) : Nat := r.index.toNat * 256 + r.sub.toNat
def reqBytes (r : Req) : List Nat := r.data.map (·.toNat)

/-- The maximum L by source: 248 on the link, 1024 on USB, 56 on CAN FD (R76, R323). -/
def maxL (j : Nat) : Nat := if j = 0 then 248 else if j = 1 then 1024 else 56

/-! ### Who is answered (R71, R72, R89) -/

/-- A CAN requester address no requester may have: 0, 127, or the module's own node (Table OD-9). -/
def State.badAddr (s : State) (j : Nat) : Bool := j = 2 || (3 ≤ j && j - 2 = s.node)

/-- The carrier of a source brings requests to a service that answers: the link in a session, USB once attached, CAN from cycle 10
of the boot on (R72, R170). -/
def State.carries (s : State) (j : Nat) : Bool :=
  if j = 0 then s.sup.running && s.sessionUp
  else if j = 1 then s.sup.usbUp && (s.sup.running || s.sup.romOnly)
  else !s.badAddr j && s.canQueues

/-- Requests of a source are dropped: its carrier brings none, or it is quarantined. -/
def State.deaf (s : State) (j : Nat) : Bool := !s.carries j || (s.srcOf j).quarLeft ≠ 0

/-- An answer due to the source is still to come, so that its later requests wait (R71). -/
def State.awaits (s : State) (j : Nat) : Bool :=
  s.fw.writing.any (fun w => w.2.1 ≠ 0 && w.2.2.1 = j) || s.fw.write.elim false (fun w => w.src = j)

/-- A header or length that no request may have (Table OD-9): reserved bits, a response opcode, more data than the carrier takes. -/
def badForm (op : Nat) (r : Req) : Bool :=
  r.flags.toNat % 128 ≠ 0 || (op ≠ Op.segData && 128 ≤ r.flags.toNat) || 128 ≤ op || maxL r.src.val < r.data.length

/-- The answer to a malformed request: none on CAN, NAK 3 on USB, an abort on the link; then the violation (Tables OD-9, LL-7). -/
def State.malformed (s : State) (op : Nat) (r : Req) (reason : Nat := 3) : State :=
  let j := r.src.val
  let s := if j = 0 then s.replyAbort 0 r.tag.toNat (op % 128) (reqKey r) 0x01070000 0
    else if j = 1 then s.reply { src := 1, tag := r.tag.toNat, opcode := 0x7F, status := 0, index := 0, sub := 0, data := [reason] }
    else s
  s.serviceViolation j Vc.format

/-- A source as a request finds it: its unlock and its transfer ended where they have run out, its bucket full at first, its
retry-afters that still run (R63, R74, R82). -/
def State.touched (s : State) (j : Nat) : SrcState :=
  let x := s.srcOf j
  let c := s.clk.cyc
  let late := x.xfer.elim false (fun t => decide (t.at_ + 64 ≤ c))
  { x with
    known := true
    tokens := if x.known then x.tokens else s.bucket
    unlocked := x.unlocked && decide (c < x.lastReq + 3000)
    lastReq := c
    retries := x.retries.filter (fun e => decide (c < e.2.2.1))
    xfer := if late then none else x.xfer
    timedOut := x.timedOut || (late && x.xfer.elim false (fun t => !t.fin)) }

/-- Keep a retry-after: the same request before it ends is a FLOOD violation (Table OD-9, Table SU-4). -/
def State.noteRetry (s : State) (j op key code detail : Nat) : State :=
  if (code = 0x01030000 || code = 0x01040000 || code = 0x01050000) && detail ≠ 0 && !s.sup.romOnly then
    s.setSrc j { s.srcOf j with retries := (s.srcOf j).retries ++ [(op, key, s.clk.cyc + detail, code)] }
  else s

/-! ### Readiness (R30, R72, R171, R421) -/

/-- The key a request is judged by: that of its open transfer for SEG_DATA and SEG_ABORT. -/
def State.effKey (s : State) (op : Nat) (r : Req) : Nat :=
  if op = Op.segData || op = Op.segAbort then (s.srcOf r.src.val).xfer.elim (reqKey r) (·.key) else (reqKey r)

/-- The cycles a not-ready answer names: 16 while start waits at POWER_WAKE, else at least 1 and left open (R72, R171). -/
def State.readyIn (s : State) : Nat := if s.atStep Step.powerWake then 16 else 1 + s.freeVal % 65535

/-- The parameters cold read answers, and the commands it executes (R30). -/
def coldAllows (op k : Nat) : Bool :=
  let i := k / 256
  op = Op.describe || (0x6100 ≤ i && i ≤ 0x61FF && !opWrites op)
    || ((op = Op.write || op = Op.segWriteInit) && [Reg.logCmd, Reg.logSeekSeq, Reg.logFilter].contains k)
    || (!opWrites op && (i = 0x1000 || (0x6000 ≤ i && i ≤ 0x60FF) || i = 0x4201 || i = 0x4202))

/-- The abort of a service that is not ready for a request: none where it is. -/
def State.unready (s : State) (op k : Nat) : Option (Nat × Nat) :=
  let early := op = Op.describe || (k / 256 = 0x1000 && !opWrites op)
  if s.sup.romOnly then
    (if early || k / 256 = 0x4200 || k / 256 = 0x7F00 then none else some (0x01040000, 0xFFFF))
  else if s.coldRead then (if coldAllows op k then none else some (0x04040000, 0))
  else if s.loaded || early then none
  else some (0x01040000, s.readyIn)

/-! ### Existence and access (R47, R50, R55, R73, R457) -/

/-- A parameter that only the master has (R457). -/
def masterOnly (k : Nat) : Bool := decide (0x5100 ≤ k / 256 ∧ k / 256 ≤ 0x513F) || k = Reg.fwDist || k = Reg.fwDistMask

/-- No such index or sub-index (R47), or not the master (R457). -/
def State.absent (s : State) (op k : Nat) : Option (Nat × Nat) :=
  if s.node ≠ 1 && op ≠ Op.describe && masterOnly k then some (0x040B0000, 0)
  else if (rowsOf (k / 256)).isEmpty then some (0x02010000, 0)
  else if (rowIn k).isNone then some (0x02020000, 0)
  else none

/-- What bars a read of an existing parameter (R50, R55). -/
def State.readBar (s : State) (j k : Nat) (r : Row) : Option (Nat × Nat) :=
  if r.acc = .wo then some (0x02030000, 0)
  else if s.hidden k && !s.unlocked j then some (0x02080000, 0)
  else none

/-- What R362 permits to write in pour and rest. -/
def State.pourPermits (s : State) (k : Nat) (r : Row) : Bool :=
  r.flag || k = Reg.oemUnlock || k = Reg.oemLock || k / 256 = 0x6100 || (k = Reg.restWake && s.phase = .rest)

/-- The refusal of pour and rest (R73). -/
def State.pourBar (s : State) : Option (Nat × Nat) :=
  if s.phase = .pour then some (0x04020000, 0) else if s.phase = .rest then some (0x04030000, 0) else none

/-- What bars a write of an existing parameter: its access class, pour and rest, its block (R50, R73). -/
def State.writeBar (s : State) (j k : Nat) (r : Row) : Option (Nat × Nat) :=
  if r.acc = .ro then some (0x02040000, 0)
  else if r.acc = .rwu && !s.unlocked j then some (0x02050000, 0)
  else if s.pouring && !s.pourPermits k r then s.pourBar
  else if s.rwiBusy k then some (0x04010000, holdBit (k / 256))
  else none

/-! ### Reads (R60, R61, R77) -/

/-- READ, and the snapshot of a SEG_READ_INIT: the bytes, and for LOG_BATCH what its serving does. -/
def State.readBytes (s : State) (j k : Nat) : Except (Nat × Nat) (List Nat × Option (Nat × Nat × Bool)) :=
  if k = Reg.logBatch then
    match s.batch j with
    | .error e => .error e
    | .ok b => .ok (b.1, some b.2)
  else .ok (s.viewBytes j k, none)

/-- A LOG_BATCH served whole moves the cursor. -/
def State.served (s : State) (j : Nat) (b : Option (Nat × Nat × Bool)) : State :=
  match b with
  | some b => s.batchServed j b
  | none => s

/-- READ (R50, R77). -/
def State.doRead (s : State) (j k : Nat) (r : Row) : ROut :=
  let n := tySize r.ty
  if maxL j < n || k = Reg.winData then .abort s 0x03010000 n
  else match s.readBytes j k with
    | .error e => .abort s e.1 e.2
    | .ok (l, b) => .ok (s.served j b) l

/-- Half reads are allowed (R60). -/
def halves (r : Row) : Bool := r.ty = .u64 || r.ty = .stamp48

/-- READ_LOW (R60, R61): the low half, and the high half kept as the source's shadow for 12 800 ticks, the oldest of four giving
way. -/
def State.doLow (s : State) (j k : Nat) (r : Row) : ROut :=
  if !halves r then .abort s 0x020A0000 0
  else
    let v := s.view j k
    let x := s.srcOf j
    let l := x.shadows.filter (fun h => h.key ≠ k && s.tick < h.expiry)
    let l := if 4 ≤ l.length then l.drop 1 else l
    let sh : Shadow := { key := k, high := v / 2 ^ 32, expiry := s.tick + 12800 }
    .ok (s.setSrc j { x with shadows := l ++ [sh] }) (leBytes 4 v)

/-- READ_HIGH (R61): the live shadow with status bit 4, else the live high half. -/
def State.doHigh (s : State) (j k : Nat) (r : Row) : ROut :=
  if !halves r then .abort s 0x020A0000 0
  else match (s.srcOf j).shadows.find? (fun h => h.key = k && s.tick < h.expiry) with
    | some h => .ok s (leBytes 4 h.high) 0x10
    | none => .ok s (leBytes 4 (s.view j k / 2 ^ 32))

/-! ### Writes (R52, R69, R70) -/

/-- A value applied after its bars have been passed: every check of R52, then its effect by kind of parameter. -/
def State.doValue (s : State) (j tag k : Nat) (r : Row) (l : List Nat) : ROut :=
  match s.checkWrite k r l with
  | .error (c, d) => .abort s c d
  | .ok v =>
    if r.flag then .ok (s.clearWritten k v)
    else if r.acc = .cmd then s.doCmd j tag k v
    else s.doSet j k v

/-- WRITE (R52, R77). -/
def State.doWrite (s : State) (j tag k : Nat) (r : Row) (l : List Nat) : ROut :=
  match s.writeBar j k r with
  | some (c, d) => .abort s c d
  | none => if maxL j < tySize r.ty || k = Reg.winData then .abort s 0x03010000 (tySize r.ty) else s.doValue j tag k r l

/-- CLEAR_IF_EQUAL (R70). -/
def State.doClear (s : State) (k : Nat) (r : Row) (l : List Nat) : ROut :=
  if !r.flag then .abort s 0x020A0000 0
  else if l.length ≠ 4 then .abort s 0x03010000 4
  else if leValue l = s.rd k then .ok (s.wr k 0)
  else .abort s 0x03070000 0 (leBytes 4 (s.rd k))

/-! ### Segmented transfers (R77-R83) -/

/-- A transfer that is open ends at a new INIT with abort 0x05050000 (R78). The rule names no request for that answer: it bears the
tag of the transfer's last request, its parameter and SEG_DATA's opcode (DESIGN CHOICE, log entry 54). -/
def State.endOpen (s : State) (j : Nat) : State :=
  match (s.srcOf j).xfer with
  | some t => if t.fin then s else s.replyAbort j t.tag Op.segData t.key 0x05050000 0
  | none => s

/-- Put a source's transfer in place; one that was open ends (R78). -/
def State.openXfer (s : State) (j tag : Nat) (t : Transfer) : State :=
  let s := s.endOpen j
  { s.setSrc j { s.srcOf j with xfer := some { t with at_ := s.clk.cyc, tag := tag }, timedOut := false } with
    ll := { s.ll with lostXfer := s.ll.lostXfer && j ≠ 0 } }

def State.dropXfer (s : State) (j : Nat) : State := s.setSrc j { s.srcOf j with xfer := none }

/-- Eight transfers of other sources are open (R78). -/
def State.xfersFull (s : State) (j : Nat) : Bool := 8 ≤ (s.dropXfer j).openTransfers

/-- The length of a window read: what the request gives, or all up to the end of Table OF-8 where it gives none (R428). -/
def winTotal (addr : Nat) (l : List Nat) : Nat := if l.isEmpty then min 65536 (0x280000 - addr) else leValue l

/-- SEG_READ_INIT (R78, R80, R428). -/
def State.doReadInit (s : State) (j tag k : Nat) (l : List Nat) : ROut :=
  if s.xfersFull j then .abort s 0x01030000 0
  else if k = Reg.winData then
    let a := s.rd Reg.winAddr
    let n := winTotal a l
    if l.length ≠ 4 && !l.isEmpty then .abort s 0x03010000 4
    else if 65536 < n then .abort s 0x03010000 0
    else .ok (s.openXfer j tag { write := false, key := k, total := n, addr := a }) (leBytes 4 n)
  else if !l.isEmpty then .abort s 0x03010000 0
  else match s.readBytes j k with
    | .error e => .abort s e.1 e.2
    | .ok (b, f) =>
      .ok (s.openXfer j tag { write := false, key := k, total := b.length, data := b, batch := f }) (leBytes 4 b.length)

/-- A total length fits a parameter (R81): its size, at most its size for a STR, any for the window, which is checked at the
close. -/
def fitsTotal (k : Nat) (r : Row) (n : Nat) : Bool :=
  k = Reg.winData || (match r.ty with | .str m => decide (n ≤ m) | t => decide (n = tySize t))

/-- SEG_WRITE_INIT (R78, R81). -/
def State.doWriteInit (s : State) (j tag k : Nat) (r : Row) (l : List Nat) : ROut :=
  match s.writeBar j k r with
  | some (c, d) => .abort s c d
  | none =>
    if l.length ≠ 4 then .abort s 0x03010000 4
    else if !fitsTotal k r (leValue l) then .abort s 0x03010000 (tySize r.ty)
    else if s.xfersFull j then .abort s 0x01030000 0
    else .ok (s.openXfer j tag { write := true, key := k, total := leValue l, addr := s.rd Reg.winAddr })

/-- The bytes of segment `i` of a read (R79, R80): of the snapshot, or of memory in the tick it is served. -/
def State.segBytes (s : State) (j : Nat) (t : Transfer) (i : Nat) : List Nat :=
  let n := maxL j - 1
  if t.key = Reg.winData then (List.range (min n (t.total - i * n))).map (fun b => s.winByte (t.addr + i * n + b))
  else (t.data.drop (i * n)).take n

/-- Serve segment `i` of a read (R80, R475, R428). -/
def State.serveSeg (s : State) (j : Nat) (t : Transfer) (i num ecc : Nat) : ROut :=
  let n := maxL j - 1
  let last := decide (t.total ≤ (i + 1) * n)
  let f := if t.key = Reg.winData then s.winReadFault (t.addr + i * n) (min n (t.total - i * n)) (ecc = 2) else (0, 0)
  if f.1 ≠ 0 then .abort ((s.dropXfer j).winAbort f.1 f.2 (t.addr + i * n) (min n (t.total - i * n))) f.1 f.2
  else
    let data := num :: s.segBytes j t i
    let s := s.iff (t.key = Reg.winData && ecc = 1) (·.bump Reg.eccCorrected)
    let s := s.setSrc j { s.srcOf j with xfer := some { t with count := max t.count (i + 1), fin := t.fin || last, at_ := s.clk.cyc } }
    .ok (if last && !t.fin then s.served j t.batch else s) data (if last then 0x80 else 0)

/-- A closed window write (R423): checked in full, then its words are programmed; answered once they are. -/
def State.closeWindow (s : State) (j tag num : Nat) (t : Transfer) : ROut :=
  let f := s.winWriteFault j t.addr t.data.length
  if f.1 ≠ 0 then .abort (s.winAbort f.1 f.2) f.1 f.2
  else
    let w : WinWrite := { addr := t.addr, data := t.data, src := j, tag := tag, seg := num }
    .later { (s.wr Reg.fwState 3) with fw := { (s.wr Reg.fwState 3).fw with write := some w } }

/-- The outcome of a closed write carries its segment number (R81). -/
def ROut.seg (num : Nat) : ROut → ROut
  | .abort s c d x v => .abort s c d x v
  | .ok s _ b p => .ok s [num] b p
  | .later s => .later s

/-- The last segment closes a write: the whole value is checked and applied (R81). A protection record's answer keeps the segment
number above the tag. -/
def State.closeWrite (s : State) (j tag num : Nat) (t : Transfer) : ROut :=
  if t.data.length ≠ t.total then .abort s 0x03010000 t.total
  else if t.key = Reg.winData then s.closeWindow j tag num t
  else match rowIn t.key with
    | none => .abort s 0x02020000 0
    | some r =>
      match s.writeBar j t.key r with
      | some (c, d) => .abort s c d
      | none => (s.doValue j (tag + 256 * (num + 1)) t.key r t.data).seg num

/-- Take the next segment of a write (R81). R79 lets the last segment be shorter and says nothing of another one that is: the model
takes the bytes that come (DESIGN CHOICE, log entry 78). -/
def State.takeSeg (s : State) (j tag num : Nat) (t : Transfer) (l : List Nat) (close : Bool) : ROut :=
  let t := { t with data := t.data ++ l, count := t.count + 1, at_ := s.clk.cyc, tag := tag }
  if t.total < t.data.length then .abort (s.dropXfer j) 0x03010000 t.total
  else if close then (s.dropXfer j).closeWrite j tag num t
  else .ok (s.setSrc j { s.srcOf j with xfer := some t }) [num]

/-- SEG_DATA with no open transfer (R82, R316, R83, Table OD-9). -/
def State.noXfer (s : State) (j : Nat) (writes : Bool) : ROut :=
  let x := s.srcOf j
  if x.timedOut || (j = 0 && s.ll.lostXfer) then
    .abort { s.setSrc j { x with timedOut := false } with ll := { s.ll with lostXfer := s.ll.lostXfer && j ≠ 0 } } 0x05020000 0
  else if writes && s.pouring then (match s.pourBar with | some (c, d) => .abort s c d | none => .ok s)
  else .abort s 0x05010000 0 [] Vc.segment

/-- SEG_DATA (R79-R82): the next segment number or the previous one; any other ends the transfer. -/
def State.doSegment (s : State) (r : Req) (ecc : Nat) : ROut :=
  let j := r.src.val
  let close := decide (128 ≤ r.flags.toNat)
  match (s.srcOf j).xfer, (reqBytes r) with
  | none, l => s.noXfer j (close || 1 < l.length)
  | some _, [] => .abort s 0x03010000 1
  | some t, num :: l =>
    let next := num = t.count % 256 && !t.fin
    let again := t.count ≠ 0 && num = (t.count - 1) % 256
    if !next && !again then .abort (s.dropXfer j) 0x05010000 (t.count % 256) [] Vc.segment
    else if t.write then
      (if next then s.takeSeg j r.tag.toNat num t l close
       else .ok (s.setSrc j { s.srcOf j with xfer := some { t with at_ := s.clk.cyc, tag := r.tag.toNat } }) [num])
    else if !l.isEmpty then .abort s 0x03010000 1
    else s.serveSeg j { t with tag := r.tag.toNat } (if next then t.count else t.count - 1) num ecc

/-! ### One request -/

/-- A request that has used its token, by opcode (Table OD-7). -/
def State.perform (s : State) (op : Nat) (r : Req) (ecc : Nat) : ROut :=
  let j := r.src.val
  let k := (reqKey r)
  let l := (reqBytes r)
  if !opKnown op then .abort s 0x01010000 0 [] Vc.opcode
  else match s.unready op (s.effKey op r) with
    | some (c, d) => .abort s.freeNext c d
    | none =>
      if op = Op.segData then s.doSegment r ecc
      else if op = Op.segAbort then .ok (s.dropXfer j)
      else match s.absent op k with
        | some (c, d) => .abort s c d
        | none =>
          match rowIn k with
          | none => .abort s 0x02020000 0
          | some w =>
            if op = Op.describe then (if l.isEmpty then .ok s (s.descriptor k) else .abort s 0x03010000 0)
            else if op = Op.write then s.doWrite j r.tag.toNat k w l
            else if op = Op.clearIfEqual then
              (match if w.flag then s.writeBar j k w else none with
               | some (c, d) => .abort s c d
               | none => s.doClear k w l)
            else if op = Op.segWriteInit then s.doWriteInit j r.tag.toNat k w l
            else match s.readBar j k w with
              | some (c, d) => .abort s c d
              | none =>
                if op = Op.segReadInit then s.doReadInit j r.tag.toNat k l
                else if !l.isEmpty then .abort s 0x03010000 0
                else if op = Op.readLow then s.doLow j k w
                else if op = Op.readHigh then s.doHigh j k w
                else s.doRead j k w

/-- Answer a request with its outcome (R76): an abort with its data, counted where it is a violation; a success, then what
follows it. -/
def State.finish (op : Nat) (r : Req) (o : ROut) : State :=
  let j := r.src.val
  match o with
  | .abort t c d x v =>
    let a : Answer :=
      { src := j, tag := r.tag.toNat, opcode := (op + 0x80) % 256, status := 1
        index := reqKey r / 256, sub := reqKey r % 256, data := leBytes 4 (c + d % 65536) ++ x }
    let t := (t.noteRetry j op (reqKey r) c d).reply a
    if v = 0 then t else t.serviceViolation j v
  | .ok t l b post => post (t.replyOk j r.tag.toNat op (reqKey r) l b)
  | .later t => t

/-- A request uses one token, but for the SEG_DATA of an open transfer (R74). -/
def SrcState.free (x : SrcState) (op : Nat) : Bool := op = Op.segData && x.xfer.isSome

/-- What a request meets before its opcode is looked at: a retry-after that runs, an empty bucket, 64 requests in this cycle
(R74, R75, Table OD-9). The boot ROM's service counts none of these (R421). -/
def State.limited (s : State) (op : Nat) (r : Req) : Option (Nat × Nat × Nat) :=
  let x := s.srcOf r.src.val
  if s.sup.romOnly then none else
  match x.retries.find? (fun e => e.1 = op && e.2.1 = (reqKey r)) with
  | some e => some (e.2.2.2, e.2.2.1 - s.clk.cyc, Vc.flood)
  | none =>
    if !x.free op && x.tokens = 0 then some (0x01050000, 1, 0)
    else if 64 ≤ s.svc.load then some (0x01030000, 1, 0)
    else none

/-- The token a request uses, where its source has one (R74). -/
def State.useToken (s : State) (op j : Nat) : State :=
  let x := s.srcOf j
  s.setSrc j { x with tokens := if x.free op then x.tokens else x.tokens - 1 }

/-- Take a request into execution: its token, its place among the 64 of the cycle. -/
def State.spend (s : State) (op j : Nat) : State :=
  let s := s.useToken op j
  { s with svc := { s.svc with load := s.svc.load + 1 } }

/-- Execute a well-formed request of a source that is answered. -/
def State.execute (s : State) (op : Nat) (r : Req) (ecc : Nat := 0) : State :=
  let j := r.src.val
  let s := s.setSrc j (s.touched j)
  match s.limited op r with
  | some (c, d, v) =>
    let s := s.useToken op j
    if v = 0 then State.finish op r (.abort s c d)
    else (s.replyAbort j r.tag.toNat op (reqKey r) c d).serviceViolation j v
  | none =>
    let s := s.spend op j
    State.finish op r (s.perform op r ecc)

/-- Requests that waited for an answer to their source are executed in their order, as far as no answer is due again (R71). -/
def State.releaseHeld (s : State) (j : Nat) : Nat → State
  | 0 => s
  | n + 1 =>
    if s.awaits j then s
    else match (s.srcOf j).held with
      | [] => s
      | (op, r) :: t =>
        let s := s.setSrc j { s.srcOf j with held := t }
        (if (s.srcOf j).quarLeft ≠ 0 then s else s.execute op r).releaseHeld j n

/-- A request of a source that is served (R45, R71): malformed, waiting behind an answer due to the same source, or executed. -/
def State.serve (s : State) (op : Nat) (r : Req) (ecc : Nat := 0) : State :=
  let j := r.src.val
  if badForm op r then s.malformed op r
  else if s.awaits j then s.setSrc j { s.srcOf j with held := (s.srcOf j).held ++ [(op, r)] }
  else s.execute op r ecc

/-- No answer stands. -/
def State.unanswered (s : State) : State := { s with svc := { s.svc with answer := none, wire := [] } }

/-- A request arrives: dropped where its source is not answered, dropped and counted where its CAN address is none a requester may
have (Table OD-9), else served. The answer stands in `svc.answer`. -/
def State.request (s : State) (op : Nat) (r : Req) (ecc : Nat := 0) : State :=
  let s := s.unanswered
  let j := r.src.val
  if s.badAddr j then s.iff (s.canQueues && (s.srcOf j).quarLeft = 0) (·.serviceViolation j Vc.address)
  else if s.deaf j then s else s.serve op r ecc

/-- A request that names a register, with a value of its size. -/
def valueReq (src : Src) (tag : Byte) (k v : Nat) : Req :=
  { src := src, tag := tag, index := BitVec.ofNat 16 (k / 256), sub := BitVec.ofNat 8 (k % 256)
    data := (leBytes (sizeAt k) v).map (BitVec.ofNat 8) }

/-- A WRITE of a value to a register. -/
def State.writeReq (s : State) (src : Src) (tag : Byte) (k v : Nat) : State := s.request Op.write (valueReq src tag k v)

end Sys2Proof.Machine
end

