-- ==== Sys2Proof/Machine/Requests.lean ====
section
/-! DEFINITION. The commands that are requests of the parameter service (spec/02_object_dictionary.md Tables OD-6 to OD-9), the
carriers' frames (R84-R87, R323), and the service's timers. -/
namespace Sys2Proof.Machine

/-! ### Opcodes of Table OD-7 -/

/-- READ (R50). -/
def execRead (r : Req) (s : State) : Host.Outcome State Fault Refusal := .next (s.request Op.read r)

/-- WRITE (R52): a value to any parameter. -/
def execWrite (r : Req) (s : State) : Host.Outcome State Fault Refusal := .next (s.request Op.write r)

/-- FLAG_WRITE (R69): a WRITE to a flag parameter. -/
def execFlagWrite (r : Req) (s : State) : Host.Outcome State Fault Refusal := .next (s.request Op.write r)

/-- READ_LOW (R60, R61). -/
def execReadLow (r : Req) (s : State) : Host.Outcome State Fault Refusal := .next (s.request Op.readLow r)

/-- READ_HIGH (R60, R61). -/
def execReadHigh (r : Req) (s : State) : Host.Outcome State Fault Refusal := .next (s.request Op.readHigh r)

/-- CLEAR_IF_EQUAL (R70). -/
def execClearIfEqual (r : Req) (s : State) : Host.Outcome State Fault Refusal := .next (s.request Op.clearIfEqual r)

/-- DESCRIBE (R54). -/
def execDescribe (r : Req) (s : State) : Host.Outcome State Fault Refusal := .next (s.request Op.describe r)

/-- SEG_READ_INIT (R80). -/
def execSegReadInit (r : Req) (s : State) : Host.Outcome State Fault Refusal := .next (s.request Op.segReadInit r)

/-- SEG_WRITE_INIT (R81). -/
def execSegWriteInit (r : Req) (s : State) : Host.Outcome State Fault Refusal := .next (s.request Op.segWriteInit r)

/-- SEG_DATA (R80-R82). -/
def execSegData (r : Req) (s : State) : Host.Outcome State Fault Refusal := .next (s.request Op.segData r)

/-- SEG_ABORT (R82). -/
def execSegAbort (r : Req) (s : State) : Host.Outcome State Fault Refusal := .next (s.request Op.segAbort r)

/-- WINDOW_WRITE (R423): the closing SEG_DATA of a write of WIN_DATA. -/
def execWindowWrite (r : Req) (s : State) : Host.Outcome State Fault Refusal := .next (s.request Op.segData r)

/-- WINDOW_READ (R428): a SEG_DATA of a read of WIN_DATA. `ecc` is what the range's words show: 0 clean, 1 corrected, 2
uncorrectable (R404). -/
def execWindowRead (r : Req) (ecc : Fin 3) (s : State) : Host.Outcome State Fault Refusal := .next (s.request Op.segData r ecc)

/-- LOG_BATCH (R475): a READ of LOG_BATCH. -/
def execLogBatch (src : Src) (tag : Byte) (s : State) : Host.Outcome State Fault Refusal :=
  .next (s.request Op.read { src := src, tag := tag, index := 0x6100, sub := 0x03 })

/-! ### Timers of a source -/

/-- SEG_TIMEOUT (R82): no SEG_DATA has come for 64 cycles. -/
def execSegTimeout (src : Src) (s : State) : Host.Outcome State Fault Refusal :=
  let x := s.srcOf src
  match x.xfer with
  | some t =>
    if t.at_ + 64 ≤ s.clk.cyc then .next (s.setSrc src { x with xfer := none, timedOut := x.timedOut || !t.fin }) else .next s
  | none => .next s

/-- SHADOW_EXPIRY (R61): shadows of a source that have lived 12 800 ticks go. -/
def execShadowExpiry (src : Src) (s : State) : Host.Outcome State Fault Refusal :=
  let x := s.srcOf src
  .next (s.setSrc src { x with shadows := x.shadows.filter (fun h => s.tick < h.expiry) })

/-- UNLOCK_TIMEOUT (R63): 3 000 cycles without a request of the source. -/
def execUnlockTimeout (src : Src) (s : State) : Host.Outcome State Fault Refusal :=
  let x := s.srcOf src
  if x.unlocked && x.lastReq + 3000 ≤ s.clk.cyc then .next (s.setSrc src { x with unlocked := false }) else .next s

/-- QUARANTINE_END (R480, R89): the last tick of a source's quarantine. Its bucket is full again; the master's table shows the
member present (R458). -/
def execQuarantineEnd (src : Src) (s : State) : Host.Outcome State Fault Refusal :=
  let j : Nat := src
  if (s.srcOf j).quarLeft = 1 then
    let s := s.endQuarantine j
    let s := s.setSrc j { s.srcOf j with known := false }
    let s := s.iff (3 ≤ j && j < 67 && s.master && s.rd (Reg.mState (j - 3)) = 3) (·.wr (Reg.mState (j - 3)) 2)
    .next (s.iff (j = 0) (·.statusIfChanged))
  else .next s

/-! ### Carriers -/

/-- The request in a body of Table OD-6, for a source. -/
def bodyReq (src : Src) (b : List Byte) : Req :=
  { src := src, tag := b.getD 1 0, flags := b.getD 3 0, index := BitVec.ofNat 16 ((b.getD 4 0).toNat + 256 * (b.getD 5 0).toNat)
    sub := b.getD 6 0, data := b.drop 8 }

/-- The opcode of a body. -/
def bodyOp (b : List Byte) : Nat := (b.getD 2 0).toNat

/-- CTRL_REQ_RX (R323, R326): the next accepted CTRL_REQ is passed on, or dropped in quarantine; its fate is recorded. -/
def execCtrlReqRx (s : State) : Host.Outcome State Fault Refusal :=
  match s.takeAny (fun f => f.ty = 0x20) with
  | none => .next s
  | some (f, t) =>
    if !s.sup.running then .next s
    else
      let b := f.payload.map (BitVec.ofNat 8)
      let t := t.unanswered
      if (t.srcOf 0).quarLeft ≠ 0 then .next (t.noteCtrl (f.payload.getD 1 0) (bodyOp b) 3)
      else
        let t := t.noteCtrl (f.payload.getD 1 0) (bodyOp b) 1
        let r := bodyReq 0 b
        let target := f.payload.getD 0 0
        if (b.getD 7 0).toNat + 8 ≠ b.length || (target ≠ 0 && target ≠ t.node) then .next (t.malformed (bodyOp b) r)
        else .next (t.serve (bodyOp b) r)

/-- CAN_REQUEST_RX (R84, R85, Table OD-9): a frame with identifier (5 << 7) | `addr`, in CAN FD or classical form. R84 accepts a
classical frame that carries no data and names no answer to another one: it counts as a FORMAT violation (DESIGN CHOICE, log entry
79). -/
def execCanRequestRx (addr : BitVec 7) (fd : Bool) (bytes : List Byte) (s : State) : Host.Outcome State Fault Refusal :=
  let a := addr.toNat
  let j := if a = 0 || a = 127 then 2 else a + 2
  let s := s.unanswered
  let l := (bytes.getD 7 0).toNat
  if !s.canQueues || bytes.isEmpty || (bytes.getD 0 0).toNat ≠ s.node then .next s
  else if (s.srcOf j).quarLeft ≠ 0 then .next s
  else if j = 2 || a = s.node then .next (s.serviceViolation j Vc.address)
  else
    let r := bodyReq (Fin.ofNat 129 j) (bytes.take (8 + l))
    if bytes.length < 8 || bytes.length < 8 + l || (!fd && (bytes.length ≠ 8 || l ≠ 0)) then .next (s.malformed (bodyOp bytes) r)
    else .next (s.serve (bodyOp bytes) r)

/-- A USB NAK (R87) and the violation it answers. -/
def State.usbNak (s : State) (tag reason cls : Nat) : State :=
  (s.reply { src := 1, tag := tag, opcode := 0x7F, status := 0, index := 0, sub := 0, data := [reason] }).serviceViolation 1 cls

/-- What follows the bytes hunted over: from the first sync on, or a first sync byte at the very end (R87). -/
def huntSync : List Byte → List Byte
  | [] => []
  | [b] => if b = 0x4B then [b] else []
  | b :: c :: t => if b = 0x4B && c = 0x6F then b :: c :: t else huntSync (c :: t)

/-- The receiver holds these bytes of a frame whose first byte came in that tick. -/
def State.usbHolds (s : State) (l : List Byte) (at_ : Option Nat) : State :=
  { s with svc := { s.svc with usbBuf := l, usbFrame := at_ } }

/-- A whole USB frame with a length in range (Tables OD-8, OD-9). Where the rules leave it open the model chooses (log entry 80): the tag
of a frame whose CRC fails is read all the same, a length byte agrees with N where it holds the low eight bits of N - 8, and a target
that is neither 0 nor the own node makes the header inconsistent. -/
def State.usbWhole (s : State) (bytes : List Byte) (n : Nat) : State :=
  let b := bytes.map (·.toNat)
  let body := (bytes.drop 4).take n
  if crc32 ((b.drop 2).take (n + 2)) ≠ field b (n + 4) 4 then s.usbNak (b.getD 5 0) 2 Vc.framing
  else if b.getD 11 0 ≠ (n - 8) % 256 || (b.getD 4 0 ≠ 0 && b.getD 4 0 ≠ s.node) then s.usbNak (b.getD 5 0) 3 Vc.format
  else s.serve (bodyOp body) (bodyReq 1 body)

/-- Take what the receiver holds apart (R87): hunt for the sync, wait for the rest of a frame, refuse a length out of range (its tag
counts as unreadable, log entry 80), or take a frame whole; then go on with the bytes behind it. -/
def State.usbFrames (s : State) : Nat → State
  | 0 => s
  | fuel + 1 =>
    let buf := s.svc.usbBuf
    if buf.isEmpty then s
    else if s.deaf 1 then s.usbHolds [] none
    else
      let l := huntSync buf
      let n := field (l.map (·.toNat)) 2 2
      if l.isEmpty then s.usbHolds [] none
      else if l.length < 4 || (8 ≤ n && n ≤ 1032 && l.length < n + 8) then
        s.usbHolds l (some (if l.length = buf.length then s.svc.usbFrame.getD s.tick else s.tick))
      else if n < 8 || 1032 < n then ((s.usbHolds (l.drop 4) none).usbNak 0 1 Vc.format).usbFrames fuel
      else ((s.usbHolds (l.drop (n + 8)) none).usbWhole (l.take (n + 8)) n).usbFrames fuel

/-- A frame that is incomplete 2 cycles after its first byte is discarded and counted, in quarantine uncounted (R87, R89). -/
def State.usbStale (s : State) : State :=
  match s.svc.usbFrame with
  | some t =>
    if t + 2048 ≤ s.tick then
      (s.usbHolds [] none).iff ((s.srcOf 1).quarLeft = 0) (·.serviceViolation 1 Vc.framing)
    else s
  | none => s

/-- USB_FRAME_RX (R86, R87, Table OD-8): bytes arrive, behind those of a frame not complete yet. -/
def execUsbFrameRx (bytes : List Byte) (s : State) : Host.Outcome State Fault Refusal :=
  let s := s.unanswered
  if !s.carries 1 then .next s
  else
    let s := s.usbStale
    let l := s.svc.usbBuf ++ bytes
    .next ((s.usbHolds l s.svc.usbFrame).usbFrames (l.length + 1))

/-- USB_FRAME_TIMEOUT (R87): a frame is incomplete 2 cycles after its first byte. -/
def execUsbFrameTimeout (s : State) : Host.Outcome State Fault Refusal := .next s.usbStale

/-! ### Answers that were due later -/

/-- After a late answer the requests held back behind it are executed. -/
def State.released (s : State) (j : Nat) : State := s.releaseHeld j ((s.srcOf j).held.length)

/-- WINDOW_WRITE_DONE (R423): the words are programmed, or a program has failed; the last segment is answered. -/
def execWindowWriteDone (ok : Bool) (s : State) : Host.Outcome State Fault Refusal :=
  match s.fw.write with
  | none => .next s
  | some w =>
    let s := s.unanswered
    let n := w.data.length / 8
    if ok then
      let s := { s with fw := { s.fw with write := none, code := progWords s.fw.code (w.addr / 8) n w.data } }
      let s := (s.bumpBy Reg.wordsProgrammed n).bumpBy Reg.fwProgress (8 * n)
      .next ((s.replyOk w.src w.tag Op.segData Reg.winData [w.seg]).released w.src)
    else .next ((((s.cutWrite.fwFail 3 0).winAbort 0x06090000 0).replyAbort w.src w.tag Op.segData Reg.winData 0x06090000 0).released w.src)

/-- Answer the write that a protection record was written for: a WRITE, or the last SEG_DATA of a transfer, whose number stands above
the tag. -/
def State.answerProt (s : State) (ok : Bool) (what j tag : Nat) : State :=
  let op := if tag < 256 then Op.write else Op.segData
  if ok then s.replyOk j (tag % 256) op (protKey what) (if tag < 256 then [] else [tag / 256 - 1])
  else s.replyAbort j (tag % 256) op (protKey what) 0x06090000 0

/-- PROTECTION_RECORD_WRITTEN (R429): the record at the front of those being written is durable, or has failed; the write that
caused it is answered. -/
def execProtectionRecordWritten (ok : Bool) (s : State) : Host.Outcome State Fault Refusal :=
  match s.fw.writing with
  | [] => .next s
  | (p, what, j, tag) :: rest =>
    let s := { s.unanswered with fw := { s.fw with writing := rest } }
    let s := if ok then ({ s with fw := { s.fw with record := some p } }.refreshProt).protDone what else s.protFailed what
    if what = 0 then .next s else .next ((s.answerProt ok what j tag).released j)

end Sys2Proof.Machine
end

