-- ==== Sys2Proof/Machine/Sequencer.lean ====
section
/-! DEFINITION. The rail sequencer's commands (spec/10_sequencer.md R242-R262). -/
namespace Sys2Proof.Machine

/-- The sequencer runs: from the takeover on, with the logic side's firmware. -/
def State.seqRuns (s : State) : Bool := s.taken && s.sup.running

/-- A rail's fault or failure is recorded: its stamp and cause (Table SQ-5). -/
def State.railFault (s : State) (n cause : Nat) : State :=
  (s.wr (Reg.lastFault n) s.stamp).wr (Reg.faultCause n) cause

/-- A FAULT# pulse, relayed while the line is stuck (R256, R448). -/
def State.pulseAndRelay (s : State) (n : Nat) : State := s.faultPulse.relayFault n

/-- ON_SLOT (R246, R261): a rail's on-slot is reached. With every earlier rail RUNNING its EN turns on and it is RISING, or
RUNNING where it came up early; else it is WAITING. -/
def execOnSlot (n : Rail) (s : State) : Host.Outcome State Fault Refusal :=
  let st := s.railSt n
  match s.seq.onStart with
  | none => .next s
  | some t =>
    if !(s.seqRuns && s.atStep Step.onSlots && s.rd Reg.seqState = 1 && s.railUsed n && (st = Rs.off || st = Rs.waiting)
        && s.rd (Reg.onSlot n) ≤ s.tick - t) then .next s
    else if !s.earlierUp n then .next (s.setRail n Rs.waiting)
    else if s.railMonitor n then .next (s.setRail n Rs.rising)
    else
      let s := (s.setEn n true).bump (Reg.onCount n)
      if s.seq.early.testBit n then .next (s.setRail n Rs.running).checkOnDone else .next (s.setRail n Rs.rising)

/-- RAIL_GOOD (R247): a rising rail's judgement has held for GOOD_FILTER ticks. -/
def execRailGood (n : Rail) (s : State) : Host.Outcome State Fault Refusal :=
  if s.seqRuns && s.railSt n = Rs.rising && s.rd (Reg.goodFilter n) ≤ s.run (rcGood n) then
    let d := s.tick - tget 0 s.seq.riseAt n
    let s := (s.setRail n Rs.running).wr (Reg.riseLast n) d
    .next (s.wr (Reg.riseMax n) (max d (s.rd (Reg.riseMax n)))).checkOnDone
  else .next s

/-- Why a rising rail fails to come up in this tick: 4, 5 or 6, or 0 (R248). -/
def State.failUpCause (s : State) (n : Nat) : Nat :=
  if s.rd (Reg.onTimeout n) ≤ s.tick - tget 0 s.seq.riseAt n then (if s.padIsOff n then 6 else 4)
  else if s.judgesV n && s.rd (Reg.faultFilter n) ≤ s.run (rcOv n) then 5 else 0

/-- RAIL_FAIL_UP (R248, R254): a rising rail fails to come up; no further EN turns on and the reverse shutdown begins, or goes on, with
the failed rail waited for. -/
def execRailFailUp (n : Rail) (s : State) : Host.Outcome State Fault Refusal :=
  let cause := s.failUpCause n
  if s.seqRuns && s.atStep Step.onSlots && (s.rd Reg.seqState = 1 || s.rd Reg.seqState = 3) && s.railSt n = Rs.rising && cause ≠ 0 then
    let s := ((s.setRail n Rs.failed).setEn n false).bump (Reg.failUp n)
    let s := ((s.railFault n cause).wr Reg.failedRail n).flag Reg.seqFlags 1
    let s := (s.flag (Reg.railFlags n) 3).event 0x2302 n cause (s.railNow n)
    let s := s.iff (s.bitOf (Reg.railAction n) 2) (·.pulseAndRelay n)
    let s := s.each allRails (fun m s => if s.railSt m = Rs.waiting then s.setRail m Rs.off else s)
    .next { (s.wr Reg.seqState 3) with seq := { s.seq with waiting := s.seq.waiting ||| 2 ^ n.val } }
  else .next s

/-- The condition a running rail has failed for FAULT_FILTER ticks: 1 undervoltage, 2 overvoltage, 3 power-good, 0 none
(R249). -/
def State.runFault (s : State) (n : Nat) : Nat :=
  let k := s.rd (Reg.faultFilter n)
  if k ≤ s.run (rcUv n) then 1 else if k ≤ s.run (rcOv n) then 2 else if k ≤ s.run (rcPg n) then 3 else 0

/-- The pour trigger and the grace timer of a running-rail fault (R249, R250): RF_GRACE starts with a trigger, or with a
fault in a pour, unless it runs. -/
def State.graceAndTrigger (s : State) (n : Nat) : State :=
  let trig := s.bitOf (Reg.railAction n) 0
  let inPour := s.phase = .pour
  let s := if (trig || inPour) && s.seq.rfAt.isNone then { s with seq := { s.seq with rfAt := some s.tick } } else s
  if !trig then s
  else
    let s := s.trigger 4
    if s.phase = .pour && s.pour.at_ = s.tick then s.bump Reg.rfTriggers else s

/-- RUNNING_RAIL_FAULT (R249, Table SQ-2, Table SQ-3): the rail is FAULTED and RAIL_ACTION acts; during the off-slots
undervoltage and power-good faults are only logged. -/
def execRunningRailFault (n : Rail) (s : State) : Host.Outcome State Fault Refusal :=
  let cause := s.runFault n
  if !(s.seqRuns && s.railSt n = Rs.running && cause ≠ 0) then .next s
  else
    let logged := fun (s : State) => s.event 0x2301 n cause (s.railNow n)
    if s.rd Reg.seqState = 5 && cause ≠ 2 then
      .next (logged ((s.setRun (rcUv n) 0).setRun (rcPg n) 0))
    else
      let s := (s.setRail n Rs.faulted).railFault n cause
      let s := s.bump (if cause = 1 then Reg.runUv n else if cause = 2 then Reg.runOv n else Reg.runPg n)
      let s := logged ((s.flag Reg.seqFlags 0).flag (Reg.railFlags n) 2)
      let s := s.iff (s.bitOf (Reg.railAction n) 1) (·.pulseAndRelay n)
      let s := s.iff (s.bitOf (Reg.railAction n) 3) (·.fallRail n)
      .next (s.graceAndTrigger n)

/-- RF_GRACE_EXPIRY (R250): the grace timer runs out before the off release, which it then gives. -/
def execRfGraceExpiry (s : State) : Host.Outcome State Fault Refusal :=
  match s.seq.rfAt with
  | some t =>
    if s.phase = .pour && s.seq.offRel.isNone && s.rd Reg.rfGrace ≤ s.tick - t then
      .next (((s.flag Reg.seqFlags 8).bump Reg.rfForced).event 0x2309).offRelease
    else .next s
  | none => .next s

/-- OFF_START (R252): the first 0 au after the off release is the off common start; rails in WAITING go to OFF. -/
def execOffStart (s : State) : Host.Outcome State Fault Refusal :=
  match s.seq.offRel with
  | some t =>
    if s.phase = .pour && s.seq.offStart.isNone && s.clk.tic = 0 && t < s.tick then
      let s := ((s.seqPour.wr Reg.seqState 5).wr Reg.offStartStamp s.stamp)
      .next { s with seq := { s.seq with offStart := some s.tick } }.offCheck
    else .next s
  | none => .next s

/-- Every rail of the off-slots with a smaller OFF_SLOT has been turned off and has left FALLING (R252). -/
def State.earlierDown (s : State) (n : Nat) : Bool :=
  allRails.all (fun m => s.rd (Reg.offSlot n) ≤ s.rd (Reg.offSlot m)
    || (!s.offLeft.contains m && s.railSt m ≠ Rs.falling))

/-- OFF_SLOT (R252): a rail's off-slot is reached and every earlier one has fallen. -/
def execOffSlot (n : Rail) (s : State) : Host.Outcome State Fault Refusal :=
  match s.seq.offStart with
  | some t =>
    if s.phase = .pour && s.rd Reg.seqState = 5 && s.offLeft.contains n && s.rd (Reg.offSlot n) ≤ s.tick - t
        && s.earlierDown n then .next (s.fallRail n)
    else .next s
  | none => .next s

/-- A rail whose fall is awaited: FALLING, or FAILED in the reverse shutdown (R253, R254). -/
def State.awaitsFall (s : State) (n : Nat) : Bool :=
  s.seqRuns && (s.railSt n = Rs.falling || (s.railSt n = Rs.failed && s.seq.waiting.testBit n))

/-- RAIL_FALLEN (R253): a falling rail is judged fallen and enters OFF. -/
def execRailFallen (n : Rail) (s : State) : Host.Outcome State Fault Refusal :=
  if s.awaitsFall n && s.fallRun n ≤ s.run (rcFallen n) then .next (s.railDown n).offCheck else .next s

/-- OFF_WAIT_EXPIRY (R253): a rail has not fallen within OFF_WAIT_MAX and is taken as OFF. -/
def execOffWaitExpiry (n : Rail) (s : State) : Host.Outcome State Fault Refusal :=
  if s.awaitsFall n && s.rd (Reg.offWaitMax n) ≤ s.tick - tget 0 s.seq.fallAt n then
    let s := ((s.flag Reg.seqFlags 4).bump (Reg.slowFall n)).flag (Reg.railFlags n) 5
    .next ((s.event 0x2305 n 0 (s.railNow n)).railDown n).offCheck
  else .next s

/-- Enter a warning of a rail: 0 undervoltage, 1 overvoltage (R251). -/
def State.warnRail (s : State) (n which : Nat) : State :=
  let s := if which = 0 then { s with seq := { s.seq with warnUv := s.seq.warnUv ||| 2 ^ n } }
    else { s with seq := { s.seq with warnOv := s.seq.warnOv ||| 2 ^ n } }
  ((s.flag Reg.seqFlags 2).flag (Reg.railFlags n) which).bump (if which = 0 then Reg.warnUv n else Reg.warnOv n)
    |>.event 0x2303 n (which + 1) (s.railNow n)

/-- RAIL_WARNING (R251): a running rail has stayed between its fault and warning levels for WARN_FILTER ticks. -/
def execRailWarning (n : Rail) (s : State) : Host.Outcome State Fault Refusal :=
  let k := s.rd (Reg.warnFilter n)
  if !(s.seqRuns && s.railSt n = Rs.running) then .next s
  else if !s.seq.warnUv.testBit n && k ≤ s.run (rcWarnUv n) then .next (s.warnRail n 0)
  else if !s.seq.warnOv.testBit n && k ≤ s.run (rcWarnOv n) then .next (s.warnRail n 1)
  else .next s

/-- FAULT_PULSE_END (R256, R257): the pulse has run, of a line that the sequencer has taken over (R99); the line is released and 16 ticks are not counted. -/
def execFaultPulseEnd (s : State) : Host.Outcome State Fault Refusal :=
  if s.taken && s.pads.fault && s.seq.pulseEnd ≤ s.tick then
    .next { s with pads := { s.pads with fault := false }, seq := { s.seq with quiet := 16 } }
  else .next s

/-- FAULT_IN_TRIGGER (R257): the armed input has read low for FAULT_IN_FILTER ticks. -/
def execFaultInTrigger (s : State) : Host.Outcome State Fault Refusal :=
  if s.seqRuns && s.seq.armed && s.rd Reg.faultInEn = 1 && s.rd Reg.faultInFilter ≤ s.run rcFaultLow then
    let s := { s with seq := { s.seq with armed := false } }
    .next ((((s.bump Reg.faultInCount).flag Reg.seqFlags 5).event 0x2306).trigger 5)
  else .next s

/-- FAULT_STUCK (R258): FAULT# has read low, not driven by this module, for 2560 ticks. -/
def execFaultStuck (s : State) : Host.Outcome State Fault Refusal :=
  if s.seqRuns && !s.seq.stuck && 2560 ≤ s.run rcFaultStuck then
    let s := { s with seq := { s.seq with stuck := true, armed := false } }
    .next ((((s.wr Reg.faultState 3).bump Reg.faultStuckCount).flag Reg.seqFlags 6).event 0x2307 0xFF 1)
  else .next s

/-- FAULT_REARM (R257, R258): FAULT# has read high for 64 ticks, or for 1024 after it was stuck. -/
def execFaultRearm (s : State) : Host.Outcome State Fault Refusal :=
  let high := s.run rcFaultHigh
  if s.seqRuns && s.seq.stuck && 1024 ≤ high then
    let s := { s with seq := { s.seq with stuck := false, armed := true } }
    .next ((s.wr Reg.faultState 0).event 0x2307 0xFF 0)
  else if s.seqRuns && !s.seq.stuck && !s.seq.armed && 64 ≤ high then
    .next { s with seq := { s.seq with armed := true } }
  else .next s

/-- HOST_RST#'s release point has come (R259). -/
def State.hostReady (s : State) : Bool :=
  let r := s.rd Reg.hostRail
  if r < 8 then
    s.railSt r = Rs.running && decide (s.rd Reg.hostRstDelay ≤ s.tick - tget 0 s.seq.runAt r)
  else match s.seq.onDone with
    | some t => decide (s.rd Reg.hostRstDelay ≤ s.tick - t)
    | none => false

/-- HOST_RST_RELEASE (R259): HOST_RST# is released; in a pour too, unless DRAIN's end drove it low (R352), not in rest. -/
def execHostRstRelease (s : State) : Host.Outcome State Fault Refusal :=
  if s.seqRuns && (s.phase = .start || s.phase = .guard || s.phase = .pour) && s.pads.hostHold && !s.pads.hostDrain
      && s.hostReady then
    .next { s with pads := { s.pads with hostRst := false, hostHold := false } }
  else .next s

/-- RAIL_ALIVE_IN_REST (R260): a rail has read above OFF_LEVEL for 1024 ticks of rest; once per rest. -/
def execRailAliveInRest (n : Rail) (s : State) : Host.Outcome State Fault Refusal :=
  if s.seqRuns && s.phase = .rest && !s.seq.alive && 1024 ≤ s.run (rcAlive n) then
    .next (({ s with seq := { s.seq with alive := true } }.flag Reg.seqFlags 7).event 0x2308 n 0 (s.railNow n))
  else .next s

end Sys2Proof.Machine
end

