-- ==== Sys2Proof/Machine/Tick.lean ====
section
/-! DEFINITION. A tick and a cycle: what is sampled and done at each tick's start (spec/00_scope.md R499), the supplies' windows
(spec/04_electrical.md R120, R132), the mirror's steps in a tick (spec/13_mirror_and_admission.md R329), and 0 au
(spec/05_mains_angle.md R143). -/
namespace Sys2Proof.Machine

/-! ### Time and samples -/

/-- A source's window of Table EL-4: available from the upper threshold until below the lower one. -/
def windowed (was : Bool) (mv up down : Nat) : Bool := if was then decide (down ≤ mv) else decide (up ≤ mv)

/-- The supplies by this tick's readings (R25, R119, R120). -/
def State.tickSupply (s : State) : State :=
  let p := s.sup
  let x := s.smp
  { s with sup := { p with
    iso := p.main && windowed p.iso x.viso 3100 3000
    vlog := windowed p.vlog x.vlog 3050 2950
    usb := windowed p.usb x.usb 4400 4100
    reduced := p.main && p.reduced && decide (x.vbusIn < 9000) } }

/-- The tick counters move on: the follower's tick (not after a CYCLE_START, which has set it), the HV NCO's. -/
def State.tickClock (s : State) : State :=
  let c := s.clk
  let runs := s.sup.running && c.synced
  let tic := if runs && !c.fresh then (c.tic + 1) % 1024 else c.tic
  let hv := if s.sup.main then c.hvTic + 1 else c.hvTic
  { s with clk := { c with
    now := c.now + 1, tic := tic, fresh := false
    zeroed := c.zeroed && decide (tic < 512)
    hvTic := hv % 1024, hvCyc := c.hvCyc + hv / 1024
    b0Gap := c.b0Gap + 1
    tbAtTick := s.rd Reg.tbState } }

/-- The barrier's counts of a tick (R19, R20, R22, R23). -/
def State.tickBarrier (s : State) : State :=
  let b := s.bar
  let bad := (b.lost || b.pathLost) && s.sup.iso && (s.phase = .start || s.phase = .guard)
  { s with bar := { b with
    b1Gap := if s.sup.main then b.b1Gap + 1 else 0
    hbGap := if s.beats || !s.sup.main then 0 else b.hbGap + 1
    hbLen := if b.hbLost then b.hbLen + 1 else b.hbLen
    stall := if b.unapplied.isEmpty then 0 else b.stall + 1
    lostTicks := if bad then b.lostTicks + 1 else 0 } }

/-- Quarantines run down (R480); the last tick waits for QUARANTINE_END. -/
def State.tickQuarantine (s : State) : State :=
  { s with svc := { s.svc with srcs := tmap {} s.svc.srcs (fun (x : SrcState) =>
      { x with quarLeft := if 2 ≤ x.quarLeft then x.quarLeft - 1 else x.quarLeft }) } }

/-! ### Readings (spec/04_electrical.md Table of 0x7000; R245, R265, R268) -/

/-- The case temperature's estimate in 0.1 degrees (R132): a die's temperature less its rise of Table EL-11 at its present dissipation
in mW, the logic die's that of LOGIC_I at 3.30 V, the HV die's by Table EL-3; the higher of the two (log entry 91). -/
def State.caseNow (s : State) : Int :=
  let x := s.smp
  let p := 3300 * x.logicI / 1000
  let logic := x.logicTemp - 5 * p / 100
  if s.sup.main then
    let out := if s.sup.source = .iso then p else 0
    let eff := if 300 ≤ out then 72 else 55
    let q := 25 * x.vbusIn / 1000 + out * (100 - eff) / eff + 125 * x.vdrv / 100
    max logic (x.hvTemp - 6 * q / 100)
  else logic

/-- The measurements of the logic die, cut to their registers; RAIL_V is the snapshot of P2 (R245, Table MA-2 row 3). -/
def State.tickReadings (s : State) : State :=
  let x := s.smp
  let u16 := fun (v : Nat) => min 65535 v
  let s := (((s.wr Reg.visoV (u16 x.viso)).wr Reg.vlogV (u16 x.vlog)).wr Reg.usbVbusV (u16 x.usb)).wr Reg.logicI (u16 x.logicI)
  let t := clampInt (-32768) 32767 s.caseNow
  let s := (s.wrI Reg.caseTemp t).wrI Reg.caseTempMax (max t (s.rdI Reg.caseTempMax))
  let s := if s.sup.main then s else (s.wr Reg.vbusInV 0).wr Reg.hvDieTemp 0
  let s := s.iff (!s.coldRead && s.clk.tic = windowTick 16384 s.clk.shift && !s.bitOf Reg.idleHold 3)
    (·.each allRails (fun n s => s.wr (Reg.railV n) (u16 (s.railNow n))))
  s.each allLanes (fun p s => s.iff (s.laneOn p) (fun s =>
    let n := x.codeErrs.getD p 0
    (((s.bumpBy (Reg.codeErrs p) n).bumpBy (Reg.skpAdj p) (x.skpAdj.getD p 0)).bumpBy Reg.codeErrsAll n).phyViolations
      (x.codeViols.getD p 0)))

/-- The HV die's own measurements. -/
def State.tickHvReadings (s : State) : State :=
  if s.sup.main then
    (s.hwr Reg.vbusInV (min 65535 s.smp.vbusIn)).hwrI Reg.hvDieTemp (clampInt (-32768) 32767 s.smp.hvTemp)
  else s

/-- The case temperature's thresholds (R132): the warning once per rise, the admission hold. -/
def State.tickCase (s : State) : State :=
  let t := s.rdI Reg.caseTemp
  let w := s.rdI Reg.caseWarn
  let s := if !s.caseWarned && decide (w ≤ t) then
      (({ s with caseWarned := true }.flag Reg.elecFlags 0).event 0x7004 0xFF 0 (ofSigned 4 t))
    else if s.caseWarned && decide (t < w - 20) then { s with caseWarned := false } else s
  let s := if !s.admHold && s.phase = .guard && decide (1180 ≤ t) then s.setAdmHold true
    else if s.admHold && decide (t < 1130) then s.setAdmHold false else s
  s.iff s.admHold (·.bump Reg.admHoldTicks)

/-! ### The logic die's work -/

/-- Steps 2 to 6 of R329. -/
def State.tickMirror (s : State) : State :=
  let s := s.commitAll.takeCounts
  let s := { s with pour := { s.pour with lastFill := s.rd Reg.crucibleFill } }
  s.computeMargin.grants.admission

/-- The link's part: memory errors of what was sent (R312, R325); a replay has been sent, unless the transmitter is still idle, and
waiting frames go out; taps adapt, eye-scan windows are counted. Stamp syncs that were not sent by 16384 au are dropped. -/
def State.tickLink (s : State) : State :=
  let s := s.iff (s.smp.txErr && decide (s.tick ≤ s.ll.sentAt + 1)) (·.abortTx)
  let s := (s.iff s.smp.retryErr (·.linkRequest)).tickTaps.tickEyes
  let s := { s with
    ll := (if s.rd Reg.txIdle = 0 then { s.ll with replaying := false, resent := [] } else s.ll)
    cas := { s.cas with txq := s.cas.txq.filter (fun f => !(f.fn = 7 && 256 < s.clk.tic)) } }
  s.llPump

/-- The present members that are quarantined lose their presence (R458). -/
def State.tickMembers (s : State) : State :=
  s.each (List.range 64) (fun k s => s.iff ((s.srcOf (k + 3)).quarLeft ≠ 0) (·.memberGone k))

/-- What the next tick's acceptance of a pour looks back on (R348, R350), and rest's supply (R365). -/
def State.tickPour (s : State) : State :=
  { s with pour := { s.pour with
    lastOpen := s.openNow
    lastMargin := if s.phase = .guard && s.sto.bounded then some (s.sto.marginUj / 1000) else none
    supplyRun := if s.phase = .rest && s.supplyPresent then s.pour.supplyRun + 1 else 0 } }

/-- Requests that wait behind an answer no longer due are executed. -/
def State.tickHeld (s : State) : State :=
  let l := (s.svc.srcs.filter (fun e => !e.2.held.isEmpty)).map (·.1)
  (s.iff (!l.isEmpty) (·.unanswered)).each l (fun j s => s.released j)

/-- What the firmware does in a tick of an activity. -/
def State.tickActivity (s : State) : State :=
  let s := (s.tickSeq.tickCascade.tickLink.tickMembers.tickCase).refreshEst
  let s := s.tickMirror.pump.shakePump.flushCheck
  (s.refreshOpen.refreshFettle.statusIfChanged).tickPour

/-- The firmware's part of a tick. -/
def State.tickLogic (s : State) : State :=
  if !s.sup.running then s.iff s.sup.romOnly (·.tickQuarantine)
  else
    let s := s.tickReadings.tickQuarantine.tickHeld
    if s.coldRead || s.phase = .idle then s else s.tickActivity

/-- TICK (R499): a tick starts with its samples. -/
def execTick (x : Sample) (s : State) : Host.Outcome State Fault Refusal :=
  let s := ({ s with smp := x, setNow := if s.clk.fresh then s.setNow else [], log := { s.log with writing := [] } }.tickClock).tickSupply.tickBarrier
  let s := s.tickHvReadings.tickTracker.tickFeeds.tickLadle.tickHoldup
  .next s.tickPads.tickLogic

/-! ### 0 au -/

/-- Buckets are refilled (R74), the cycle's limits start again (R75, R455). -/
def State.refillAll (s : State) : State :=
  let top := s.bucket
  let add := s.refill
  { s with
    svc := { s.svc with
      load := 0
      srcs := tmap {} s.svc.srcs (fun (x : SrcState) => { x with tokens := if x.known then min top (x.tokens + add) else x.tokens }) }
    cas := { s.cas with evCycle := 0 } }

/-- The once-per-cycle STATUS (R322): not while the link is Banked, nor in Idle with nothing else waiting. -/
def State.cycleStatus (s : State) : State :=
  if s.rd Reg.llState = 0 || s.ls = Ls.banked || (s.rd Reg.txIdle = 1 && !s.somethingToSend) then s else s.sendStatus

/-- ON_SLOTS' common start is the first 0 au after the takeover (R163); SCHED_SHIFT applies from the same 0 au (R149). -/
def State.cycleStart (s : State) : State :=
  if !s.taken then s
  else
    let s := { s with clk := { s.clk with shift := s.rd Reg.schedShift } }
    if s.phase = .start && s.seq.onStart.isNone && s.step ≠ Step.stopped then s.beginOnSlots else s

/-- Cycle 0 begins, or the next cycle (R143, R157). -/
def State.nextCycle (s : State) : State :=
  let c := s.clk
  let first := !c.begun
  let s := { s with clk := { c with
    tic := 0, fresh := true, zeroed := true, count := c.count + 1, cyc := if first then 0 else c.cyc + 1, begun := true } }
  if first then
    let s := s.wr Reg.startBootStamp s.stamp
    if s.atStep Step.logicBoot then s.wr Reg.startStep Step.powerWake else s
  else s

/-- CYCLE_START (R143): the follower's 0 au, before the tick that begins there. -/
def execCycleStart (s : State) : Host.Outcome State Fault Refusal :=
  let c := s.clk
  if s.sup.running && c.synced && !c.fresh && !c.zeroed && (c.tic = 1023 || c.tic = 0) then
    .next { s with setNow := [] }.nextCycle.applyStep.refillAll.cycleStart.cycleStatus
  else .next s

/-- ADMISSION_OPEN (R342): ADM_OPEN_RUN ticks in a row of non-negative margin. -/
def execAdmissionOpen (s : State) : Host.Outcome State Fault Refusal :=
  if s.rd Reg.admState = 1 && s.rd Reg.admOpenRun ≤ s.sto.okRun then
    .next (((s.wr Reg.admState 0).event 0x3201 0xFF 0 (s.rd Reg.margin) (s.rd Reg.admCause)).statusIfChanged)
  else .next s

end Sys2Proof.Machine
end

