-- ==== Sys2Proof/Machine/WriteCmds.lean ====
section
/-! DEFINITION. The commands that are a WRITE of one parameter: each is a request of a source (spec/02_object_dictionary.md R50-R70;
the chapters' own command parameters). -/
namespace Sys2Proof.Machine

/-! ### Communication, locks, holds, restart, pads (Tables OD-12, OD-13, PK-6) -/

/-- CONFIG_COMMIT (R56): CONFIG_COMMIT 1. -/
def execConfigCommit (src : Src) (tag : Byte) (s : State) : Host.Outcome State Fault Refusal :=
  .next (s.writeReq src tag Reg.configCommit 1)

/-- CONFIG_DEFAULTS (R51): CONFIG_COMMIT 2. -/
def execConfigDefaults (src : Src) (tag : Byte) (s : State) : Host.Outcome State Fault Refusal :=
  .next (s.writeReq src tag Reg.configCommit 2)

/-- CONFIG_RELOAD (R59): CONFIG_COMMIT 3. -/
def execConfigReload (src : Src) (tag : Byte) (s : State) : Host.Outcome State Fault Refusal :=
  .next (s.writeReq src tag Reg.configCommit 3)

/-- OEM_UNLOCK (R63, R64) with a password. -/
def execOemUnlock (src : Src) (tag : Byte) (password : BitVec 64) (s : State) : Host.Outcome State Fault Refusal :=
  .next (s.writeReq src tag Reg.oemUnlock password.toNat)

/-- OEM_LOCK (R63): OEM_LOCK 1. -/
def execOemLock (src : Src) (tag : Byte) (s : State) : Host.Outcome State Fault Refusal :=
  .next (s.writeReq src tag Reg.oemLock 1)

/-- OEM_PW_CHANGE (R65) with a new password. -/
def execOemPwChange (src : Src) (tag : Byte) (password : BitVec 64) (s : State) : Host.Outcome State Fault Refusal :=
  .next (s.writeReq src tag Reg.oemPwChange password.toNat)

/-- IDLE_HOLD (R66): the holds requested. -/
def execIdleHold (src : Src) (tag : Byte) (holds : BitVec 16) (s : State) : Host.Outcome State Fault Refusal :=
  .next (s.writeReq src tag Reg.idleHold holds.toNat)

/-- RESTART (R68): RESTART 1. -/
def execRestart (src : Src) (tag : Byte) (s : State) : Host.Outcome State Fault Refusal :=
  .next (s.writeReq src tag Reg.restart 1)

/-- RESTART_HELD (R68): RESTART 2. -/
def execRestartHeld (src : Src) (tag : Byte) (s : State) : Host.Outcome State Fault Refusal :=
  .next (s.writeReq src tag Reg.restart 2)

/-- CONT_REARM (R108): a mask of pads to return from Off to Normal. -/
def execContRearm (src : Src) (tag : Byte) (mask : BitVec 16) (s : State) : Host.Outcome State Fault Refusal :=
  .next (s.writeReq src tag Reg.contRearm mask.toNat)

/-- START_RETRY (R173): START_RETRY 1. -/
def execStartRetry (src : Src) (tag : Byte) (s : State) : Host.Outcome State Fault Refusal :=
  .next (s.writeReq src tag Reg.startRetry 1)

/-! ### Feeds, ladle, holdup, sequencer -/

/-- FEED_EN_OFF (R189): FEED_EN 0 of a feed. -/
def execFeedEnOff (src : Src) (tag : Byte) (f : Feed) (s : State) : Host.Outcome State Fault Refusal :=
  .next (s.writeReq src tag (Reg.feedEn f) 0)

/-- FEED_EN_ON (R189): FEED_EN 1 of a feed. -/
def execFeedEnOn (src : Src) (tag : Byte) (f : Feed) (s : State) : Host.Outcome State Fault Refusal :=
  .next (s.writeReq src tag (Reg.feedEn f) 1)

/-- FET_DMG_CLEAR (R193): FET_DMG_CLEAR 1 of a feed. -/
def execFetDmgClear (src : Src) (tag : Byte) (f : Feed) (s : State) : Host.Outcome State Fault Refusal :=
  .next (s.writeReq src tag (Reg.fetDmgClear f) 1)

/-- CELL_TARGET_WRITE (R204): a target in mV. -/
def execCellTargetWrite (src : Src) (tag : Byte) (mv : BitVec 16) (s : State) : Host.Outcome State Fault Refusal :=
  .next (s.writeReq src tag Reg.cellTarget mv.toNat)

/-- LADLE_CLEAR (R224): LADLE_CLEAR 1. -/
def execLadleClear (src : Src) (tag : Byte) (s : State) : Host.Outcome State Fault Refusal :=
  .next (s.writeReq src tag Reg.ladleClear 1)

/-- HU_CLEAR (R234): HU_CLEAR 1. -/
def execHuClear (src : Src) (tag : Byte) (s : State) : Host.Outcome State Fault Refusal :=
  .next (s.writeReq src tag Reg.huClear 1)

/-- HU_CLEAR_GROUP (R234): HU_CLEAR 2. -/
def execHuClearGroup (src : Src) (tag : Byte) (s : State) : Host.Outcome State Fault Refusal :=
  .next (s.writeReq src tag Reg.huClear 2)

/-- SEQ_CLEAR (R255): SEQ_CLEAR 1. -/
def execSeqClear (src : Src) (tag : Byte) (s : State) : Host.Outcome State Fault Refusal :=
  .next (s.writeReq src tag Reg.seqClear 1)

/-! ### Link -/

/-- LINK_RETRAIN_FAST (Table LP-9): LINK_RETRAIN 1. -/
def execLinkRetrainFast (src : Src) (tag : Byte) (s : State) : Host.Outcome State Fault Refusal :=
  .next (s.writeReq src tag Reg.linkRetrain 1)

/-- LINK_RETRAIN_FULL (Table LP-9): LINK_RETRAIN 2. -/
def execLinkRetrainFull (src : Src) (tag : Byte) (s : State) : Host.Outcome State Fault Refusal :=
  .next (s.writeReq src tag Reg.linkRetrain 2)

/-- EYE_START (R296): EYE_CMD 1 of a lane. -/
def execEyeStart (src : Src) (tag : Byte) (p : Lane) (s : State) : Host.Outcome State Fault Refusal :=
  .next (s.writeReq src tag (Reg.eyeCmd p) 1)

/-- EYE_STOP (R300): EYE_CMD 2 of a lane. -/
def execEyeStop (src : Src) (tag : Byte) (p : Lane) (s : State) : Host.Outcome State Fault Refusal :=
  .next (s.writeReq src tag (Reg.eyeCmd p) 2)

/-! ### Rest, shakeout, firmware, cascade, log, service -/

/-- REST_WAKE (R365): REST_WAKE 1. -/
def execRestWake (src : Src) (tag : Byte) (s : State) : Host.Outcome State Fault Refusal :=
  .next (s.writeReq src tag Reg.restWake 1)

/-- SHAKE_ABANDON (R371): SHAKE_ABANDON 1. -/
def execShakeAbandon (src : Src) (tag : Byte) (s : State) : Host.Outcome State Fault Refusal :=
  .next (s.writeReq src tag Reg.shakeAbandon 1)

/-- FW_ERASE (R422): FW_CMD 1. -/
def execFwErase (src : Src) (tag : Byte) (s : State) : Host.Outcome State Fault Refusal :=
  .next (s.writeReq src tag Reg.fwCmd 1)

/-- FW_VERIFY (R424): FW_CMD 2. -/
def execFwVerify (src : Src) (tag : Byte) (s : State) : Host.Outcome State Fault Refusal :=
  .next (s.writeReq src tag Reg.fwCmd 2)

/-- FW_ACTIVATE (R422): FW_CMD 3. -/
def execFwActivate (src : Src) (tag : Byte) (s : State) : Host.Outcome State Fault Refusal :=
  .next (s.writeReq src tag Reg.fwCmd 3)

/-- FW_ACCEPT_TRIAL (R425): FW_CMD 4. -/
def execFwAcceptTrial (src : Src) (tag : Byte) (s : State) : Host.Outcome State Fault Refusal :=
  .next (s.writeReq src tag Reg.fwCmd 4)

/-- FW_CANCEL (R422): FW_CMD 5. -/
def execFwCancel (src : Src) (tag : Byte) (s : State) : Host.Outcome State Fault Refusal :=
  .next (s.writeReq src tag Reg.fwCmd 5)

/-- PROT_CODE_SET (R430): a new map. -/
def execProtCodeSet (src : Src) (tag : Byte) (map : BitVec 32) (s : State) : Host.Outcome State Fault Refusal :=
  .next (s.writeReq src tag Reg.protCodeSet map.toNat)

/-- DEBUG_CLOSE (R431): DEBUG_CLOSE 1. -/
def execDebugClose (src : Src) (tag : Byte) (s : State) : Host.Outcome State Fault Refusal :=
  .next (s.writeReq src tag Reg.debugClose 1)

/-- DEBUG_OPEN (R431): DEBUG_CLOSE 2. -/
def execDebugOpen (src : Src) (tag : Byte) (s : State) : Host.Outcome State Fault Refusal :=
  .next (s.writeReq src tag Reg.debugClose 2)

/-- FW_DIST_START (R460): FW_DIST 1. -/
def execFwDistStart (src : Src) (tag : Byte) (s : State) : Host.Outcome State Fault Refusal :=
  .next (s.writeReq src tag Reg.fwDist 1)

/-- FW_DIST_STOP (R462): FW_DIST 2. -/
def execFwDistStop (src : Src) (tag : Byte) (s : State) : Host.Outcome State Fault Refusal :=
  .next (s.writeReq src tag Reg.fwDist 2)

/-- LOG_SEEK_OLDEST (R474): LOG_CMD 1. -/
def execLogSeekOldest (src : Src) (tag : Byte) (s : State) : Host.Outcome State Fault Refusal :=
  .next (s.writeReq src tag Reg.logCmd 1)

/-- LOG_SEEK_SEQ (R474): LOG_CMD 2. -/
def execLogSeekSeq (src : Src) (tag : Byte) (s : State) : Host.Outcome State Fault Refusal :=
  .next (s.writeReq src tag Reg.logCmd 2)

/-- LOG_SEEK_NEWEST (R474): LOG_CMD 3. -/
def execLogSeekNewest (src : Src) (tag : Byte) (s : State) : Host.Outcome State Fault Refusal :=
  .next (s.writeReq src tag Reg.logCmd 3)

/-- LOG_CLOSE (R474): LOG_CMD 4. -/
def execLogClose (src : Src) (tag : Byte) (s : State) : Host.Outcome State Fault Refusal :=
  .next (s.writeReq src tag Reg.logCmd 4)

/-- SVC_LADLE_HEALTH (R490): SVC_REPORT_CMD 1. -/
def execSvcLadleHealth (src : Src) (tag : Byte) (s : State) : Host.Outcome State Fault Refusal :=
  .next (s.writeReq src tag Reg.svcReportCmd 1)

/-- SVC_HOT_PANEL (R490): SVC_REPORT_CMD 2. -/
def execSvcHotPanel (src : Src) (tag : Byte) (s : State) : Host.Outcome State Fault Refusal :=
  .next (s.writeReq src tag Reg.svcReportCmd 2)

/-- SVC_WASHDOWN (R490): SVC_REPORT_CMD 3. -/
def execSvcWashdown (src : Src) (tag : Byte) (s : State) : Host.Outcome State Fault Refusal :=
  .next (s.writeReq src tag Reg.svcReportCmd 3)

/-- SVC_LINK (R490): SVC_REPORT_CMD 4. -/
def execSvcLink (src : Src) (tag : Byte) (s : State) : Host.Outcome State Fault Refusal :=
  .next (s.writeReq src tag Reg.svcReportCmd 4)

end Sys2Proof.Machine
end

