-- ==== Sys2Proof/Machine/Dispatch.lean ====
section
/-! DEFINITION. One arm per command: its meaning, or its rejection by name. -/
namespace Sys2Proof.Machine

/-- The effect of a command on everything but the queue. -/
def exec (i : Instr) (s : State) : Host.Outcome State Fault Refusal :=
  match i with
  | .tick x => Sys2Proof.Machine.execTick x s
  | .cycleStart => Sys2Proof.Machine.execCycleStart s
  | .admissionOpen => Sys2Proof.Machine.execAdmissionOpen s
  | .statusFrameRx crcOk => Sys2Proof.Machine.execStatusFrameRx crcOk s
  | .statusStreamLost => Sys2Proof.Machine.execStatusStreamLost s
  | .heartbeatArm => Sys2Proof.Machine.execHeartbeatArm s
  | .heartbeatLost => Sys2Proof.Machine.execHeartbeatLost s
  | .hwWatchdogExpiry => Sys2Proof.Machine.execHwWatchdogExpiry s
  | .barrierReset => Sys2Proof.Machine.execBarrierReset s
  | .commandFrameRx crcOk seq => Sys2Proof.Machine.execCommandFrameRx crcOk seq s
  | .commandResend => Sys2Proof.Machine.execCommandResend s
  | .sourceSwitch => Sys2Proof.Machine.execSourceSwitch s
  | .powerOnReset => Sys2Proof.Machine.execPowerOnReset s
  | .logicSupplyLoss => Sys2Proof.Machine.execLogicSupplyLoss s
  | .usbAttach => Sys2Proof.Machine.execUsbAttach s
  | .usbDetach => Sys2Proof.Machine.execUsbDetach s
  | .wakeStageStart => Sys2Proof.Machine.execWakeStageStart s
  | .wakeStageStop => Sys2Proof.Machine.execWakeStageStop s
  | .mainSupplyStart => Sys2Proof.Machine.execMainSupplyStart s
  | .mainSupplyStop => Sys2Proof.Machine.execMainSupplyStop s
  | .visoReduced => Sys2Proof.Machine.execVisoReduced s
  | .visoCurrentLimit => Sys2Proof.Machine.execVisoCurrentLimit s
  | .read r => Sys2Proof.Machine.execRead r s
  | .write r => Sys2Proof.Machine.execWrite r s
  | .flagWrite r => Sys2Proof.Machine.execFlagWrite r s
  | .readLow r => Sys2Proof.Machine.execReadLow r s
  | .readHigh r => Sys2Proof.Machine.execReadHigh r s
  | .clearIfEqual r => Sys2Proof.Machine.execClearIfEqual r s
  | .describe r => Sys2Proof.Machine.execDescribe r s
  | .segReadInit r => Sys2Proof.Machine.execSegReadInit r s
  | .segWriteInit r => Sys2Proof.Machine.execSegWriteInit r s
  | .segData r => Sys2Proof.Machine.execSegData r s
  | .segAbort r => Sys2Proof.Machine.execSegAbort r s
  | .segTimeout src => Sys2Proof.Machine.execSegTimeout src s
  | .shadowExpiry src => Sys2Proof.Machine.execShadowExpiry src s
  | .usbFrameRx bytes => Sys2Proof.Machine.execUsbFrameRx bytes s
  | .usbFrameTimeout => Sys2Proof.Machine.execUsbFrameTimeout s
  | .quarantineEnd src => Sys2Proof.Machine.execQuarantineEnd src s
  | .unlockTimeout src => Sys2Proof.Machine.execUnlockTimeout src s
  | .configCommit src tag => Sys2Proof.Machine.execConfigCommit src tag s
  | .commitDone ok => Sys2Proof.Machine.execCommitDone ok s
  | .configDefaults src tag => Sys2Proof.Machine.execConfigDefaults src tag s
  | .configReload src tag => Sys2Proof.Machine.execConfigReload src tag s
  | .oemUnlock src tag password => Sys2Proof.Machine.execOemUnlock src tag password s
  | .oemLock src tag => Sys2Proof.Machine.execOemLock src tag s
  | .oemPwChange src tag password => Sys2Proof.Machine.execOemPwChange src tag password s
  | .idleHold src tag holds => Sys2Proof.Machine.execIdleHold src tag holds s
  | .restart src tag => Sys2Proof.Machine.execRestart src tag s
  | .restartHeld src tag => Sys2Proof.Machine.execRestartHeld src tag s
  | .padLimit p => Sys2Proof.Machine.execPadLimit p s
  | .padNormal p => Sys2Proof.Machine.execPadNormal p s
  | .padOff p => Sys2Proof.Machine.execPadOff p s
  | .contRearm src tag mask => Sys2Proof.Machine.execContRearm src tag mask s
  | .zeroCrossing us ampPos ampNeg err => Sys2Proof.Machine.execZeroCrossing us ampPos ampNeg err s
  | .qualificationFail => Sys2Proof.Machine.execQualificationFail s
  | .lockAcquired => Sys2Proof.Machine.execLockAcquired s
  | .lockLeft => Sys2Proof.Machine.execLockLeft s
  | .mainsLossDeclared => Sys2Proof.Machine.execMainsLossDeclared s
  | .seekLimitExpiry => Sys2Proof.Machine.execSeekLimitExpiry s
  | .b0Pulse double => Sys2Proof.Machine.execB0Pulse double s
  | .followerFree => Sys2Proof.Machine.execFollowerFree s
  | .followerAligned => Sys2Proof.Machine.execFollowerAligned s
  | .logicBoot straps tmode => Sys2Proof.Machine.execLogicBoot straps tmode s
  | .powerWakeDone => Sys2Proof.Machine.execPowerWakeDone s
  | .configLoad => Sys2Proof.Machine.execConfigLoad s
  | .powerSideReapply => Sys2Proof.Machine.execPowerSideReapply s
  | .chargePermit => Sys2Proof.Machine.execChargePermit s
  | .guardBegin => Sys2Proof.Machine.execGuardBegin s
  | .startRetry src tag => Sys2Proof.Machine.execStartRetry src tag s
  | .seatQualify f => Sys2Proof.Machine.execSeatQualify f s
  | .seatRelease f => Sys2Proof.Machine.execSeatRelease f s
  | .softStartBegin f => Sys2Proof.Machine.execSoftStartBegin f s
  | .softStartDone f => Sys2Proof.Machine.execSoftStartDone f s
  | .softStartTimeout f => Sys2Proof.Machine.execSoftStartTimeout f s
  | .fastTrip f uv => Sys2Proof.Machine.execFastTrip f uv s
  | .itTrip f ma us => Sys2Proof.Machine.execItTrip f ma us s
  | .fetTempStep f => Sys2Proof.Machine.execFetTempStep f s
  | .gateDriveTrip f mv us => Sys2Proof.Machine.execGateDriveTrip f mv us s
  | .backfeedBlock f feedMv busMv shuntUv => Sys2Proof.Machine.execBackfeedBlock f feedMv busMv shuntUv s
  | .ovBlock f mv us => Sys2Proof.Machine.execOvBlock f mv us s
  | .blockExit f => Sys2Proof.Machine.execBlockExit f s
  | .feedEnOff src tag f => Sys2Proof.Machine.execFeedEnOff src tag f s
  | .feedEnOn src tag f => Sys2Proof.Machine.execFeedEnOn src tag f s
  | .fetDamageFinding f => Sys2Proof.Machine.execFetDamageFinding f s
  | .fetCheckStart => Sys2Proof.Machine.execFetCheckStart s
  | .fetCheckEnd => Sys2Proof.Machine.execFetCheckEnd s
  | .fetDmgClear src tag f => Sys2Proof.Machine.execFetDmgClear src tag f s
  | .shareFault => Sys2Proof.Machine.execShareFault s
  | .vbusSagDeclared => Sys2Proof.Machine.execVbusSagDeclared s
  | .tapScan taps stack lt1 lt2 => Sys2Proof.Machine.execTapScan taps stack lt1 lt2 s
  | .cellTargetWrite src tag mv => Sys2Proof.Machine.execCellTargetWrite src tag mv s
  | .targetComplete => Sys2Proof.Machine.execTargetComplete s
  | .chargerDone => Sys2Proof.Machine.execChargerDone s
  | .chargerFault => Sys2Proof.Machine.execChargerFault s
  | .capTestStart => Sys2Proof.Machine.execCapTestStart s
  | .capTestEnd => Sys2Proof.Machine.execCapTestEnd s
  | .capTestDefer => Sys2Proof.Machine.execCapTestDefer s
  | .esrPulse before after st0 st1 ma => Sys2Proof.Machine.execEsrPulse before after st0 st1 ma s
  | .tapResponseTest resp stack => Sys2Proof.Machine.execTapResponseTest resp stack s
  | .dampLearn resp stack => Sys2Proof.Machine.execDampLearn resp stack s
  | .ladleClear src tag => Sys2Proof.Machine.execLadleClear src tag s
  | .holdupArm => Sys2Proof.Machine.execHoldupArm s
  | .holdupTrip ma us => Sys2Proof.Machine.execHoldupTrip ma us s
  | .huClear src tag => Sys2Proof.Machine.execHuClear src tag s
  | .huClearGroup src tag => Sys2Proof.Machine.execHuClearGroup src tag s
  | .huSelfTest gateMv vdrv avgMa movedMv => Sys2Proof.Machine.execHuSelfTest gateMv vdrv avgMa movedMv s
  | .droopFallback pinned => Sys2Proof.Machine.execDroopFallback pinned s
  | .onSlot n => Sys2Proof.Machine.execOnSlot n s
  | .railGood n => Sys2Proof.Machine.execRailGood n s
  | .railFailUp n => Sys2Proof.Machine.execRailFailUp n s
  | .runningRailFault n => Sys2Proof.Machine.execRunningRailFault n s
  | .rfGraceExpiry => Sys2Proof.Machine.execRfGraceExpiry s
  | .offSlot n => Sys2Proof.Machine.execOffSlot n s
  | .railFallen n => Sys2Proof.Machine.execRailFallen n s
  | .offWaitExpiry n => Sys2Proof.Machine.execOffWaitExpiry n s
  | .railWarning n => Sys2Proof.Machine.execRailWarning n s
  | .seqClear src tag => Sys2Proof.Machine.execSeqClear src tag s
  | .faultPulseEnd => Sys2Proof.Machine.execFaultPulseEnd s
  | .faultInTrigger => Sys2Proof.Machine.execFaultInTrigger s
  | .faultStuck => Sys2Proof.Machine.execFaultStuck s
  | .faultRearm => Sys2Proof.Machine.execFaultRearm s
  | .hostRstRelease => Sys2Proof.Machine.execHostRstRelease s
  | .railAliveInRest n => Sys2Proof.Machine.execRailAliveInRest n s
  | .symbolLock p => Sys2Proof.Machine.execSymbolLock p s
  | .lockLoss p => Sys2Proof.Machine.execLockLoss p s
  | .trainingSetRx p set rx => Sys2Proof.Machine.execTrainingSetRx p set rx s
  | .alignComplete => Sys2Proof.Machine.execAlignComplete s
  | .alignTimeout => Sys2Proof.Machine.execAlignTimeout s
  | .rateIdleExpiry => Sys2Proof.Machine.execRateIdleExpiry s
  | .eqDone ctle taps => Sys2Proof.Machine.execEqDone ctle taps s
  | .confirmComplete skew us => Sys2Proof.Machine.execConfirmComplete skew us s
  | .confirmTimeout => Sys2Proof.Machine.execConfirmTimeout s
  | .idleEntry => Sys2Proof.Machine.execIdleEntry s
  | .idleExit => Sys2Proof.Machine.execIdleExit s
  | .eiosRx => Sys2Proof.Machine.execEiosRx s
  | .bankStart => Sys2Proof.Machine.execBankStart s
  | .bnkRx => Sys2Proof.Machine.execBnkRx s
  | .bankNoAnswer => Sys2Proof.Machine.execBankNoAnswer s
  | .bankWake signal => Sys2Proof.Machine.execBankWake signal s
  | .wakeComplete => Sys2Proof.Machine.execWakeComplete s
  | .wakeFail => Sys2Proof.Machine.execWakeFail s
  | .codeErrorRetrain errs => Sys2Proof.Machine.execCodeErrorRetrain errs s
  | .silenceTimeout => Sys2Proof.Machine.execSilenceTimeout s
  | .refclkFault => Sys2Proof.Machine.execRefclkFault s
  | .refclkGood => Sys2Proof.Machine.execRefclkGood s
  | .linkRetrainFast src tag => Sys2Proof.Machine.execLinkRetrainFast src tag s
  | .linkRetrainFull src tag => Sys2Proof.Machine.execLinkRetrainFull src tag s
  | .eyeStart src tag p => Sys2Proof.Machine.execEyeStart src tag p s
  | .eyeStop src tag p => Sys2Proof.Machine.execEyeStop src tag p s
  | .eyeStep p => Sys2Proof.Machine.execEyeStep p s
  | .eyeStepEnd p errs => Sys2Proof.Machine.execEyeStepEnd p errs s
  | .frameRx bytes ending => Sys2Proof.Machine.execFrameRx bytes ending s
  | .ackTimer => Sys2Proof.Machine.execAckTimer s
  | .ackRx => Sys2Proof.Machine.execAckRx s
  | .nakRx => Sys2Proof.Machine.execNakRx s
  | .replayTimeout => Sys2Proof.Machine.execReplayTimeout s
  | .dataRx => Sys2Proof.Machine.execDataRx s
  | .closeRx => Sys2Proof.Machine.execCloseRx s
  | .retireRx => Sys2Proof.Machine.execRetireRx s
  | .dirtyRx => Sys2Proof.Machine.execDirtyRx s
  | .shutdownRx => Sys2Proof.Machine.execShutdownRx s
  | .ctrlReqRx => Sys2Proof.Machine.execCtrlReqRx s
  | .resumeSend => Sys2Proof.Machine.execResumeSend s
  | .pageProgramDone d bits => Sys2Proof.Machine.execPageProgramDone d bits s
  | .programFail d q => Sys2Proof.Machine.execProgramFail d q s
  | .pageWaitExpiry => Sys2Proof.Machine.execPageWaitExpiry s
  | .drainWindowExpiry => Sys2Proof.Machine.execDrainWindowExpiry s
  | .pwdDrainExpiry => Sys2Proof.Machine.execPwdDrainExpiry s
  | .pwdSealExpiry => Sys2Proof.Machine.execPwdSealExpiry s
  | .summaryWritten ok => Sys2Proof.Machine.execSummaryWritten ok s
  | .offStart => Sys2Proof.Machine.execOffStart s
  | .pwdOffExpiry => Sys2Proof.Machine.execPwdOffExpiry s
  | .restSupplyPresent => Sys2Proof.Machine.execRestSupplyPresent s
  | .restWake src tag => Sys2Proof.Machine.execRestWake src tag s
  | .shakeStart => Sys2Proof.Machine.execShakeStart s
  | .shakePause => Sys2Proof.Machine.execShakePause s
  | .shakeConfirm => Sys2Proof.Machine.execShakeConfirm s
  | .shakeAbandon src tag => Sys2Proof.Machine.execShakeAbandon src tag s
  | .shakeoutReadDone d bits crcOk => Sys2Proof.Machine.execShakeoutReadDone d bits crcOk s
  | .eraseStart => Sys2Proof.Machine.execEraseStart s
  | .eraseDone outcome => Sys2Proof.Machine.execEraseDone outcome s
  | .eraseSuspend => Sys2Proof.Machine.execEraseSuspend s
  | .eraseResume => Sys2Proof.Machine.execEraseResume s
  | .scanDone dies maps half outcome us => Sys2Proof.Machine.execScanDone dies maps half outcome us s
  | .dfEraseStart => Sys2Proof.Machine.execDfEraseStart s
  | .dfEraseSuspend => Sys2Proof.Machine.execDfEraseSuspend s
  | .dfEraseDone ok => Sys2Proof.Machine.execDfEraseDone ok s
  | .busyBankFault bank => Sys2Proof.Machine.execBusyBankFault bank s
  | .fwErase src tag => Sys2Proof.Machine.execFwErase src tag s
  | .fwEraseDone ok => Sys2Proof.Machine.execFwEraseDone ok s
  | .windowWrite r => Sys2Proof.Machine.execWindowWrite r s
  | .windowWriteDone ok => Sys2Proof.Machine.execWindowWriteDone ok s
  | .windowRead r ecc => Sys2Proof.Machine.execWindowRead r ecc s
  | .fwVerify src tag => Sys2Proof.Machine.execFwVerify src tag s
  | .fwVerifyDone => Sys2Proof.Machine.execFwVerifyDone s
  | .fwActivate src tag => Sys2Proof.Machine.execFwActivate src tag s
  | .fwAcceptTrial src tag => Sys2Proof.Machine.execFwAcceptTrial src tag s
  | .fwCancel src tag => Sys2Proof.Machine.execFwCancel src tag s
  | .protCodeSet src tag map => Sys2Proof.Machine.execProtCodeSet src tag map s
  | .debugClose src tag => Sys2Proof.Machine.execDebugClose src tag s
  | .debugOpen src tag => Sys2Proof.Machine.execDebugOpen src tag s
  | .debugPasswordEntry password => Sys2Proof.Machine.execDebugPasswordEntry password s
  | .bootAnnouncement => Sys2Proof.Machine.execBootAnnouncement s
  | .heartbeatTx => Sys2Proof.Machine.execHeartbeatTx s
  | .heartbeatRx node payload => Sys2Proof.Machine.execHeartbeatRx node payload s
  | .bootAnnouncementRx node payload => Sys2Proof.Machine.execBootAnnouncementRx node payload s
  | .memberAbsent k => Sys2Proof.Machine.execMemberAbsent k s
  | .pourCommandRx node payload => Sys2Proof.Machine.execPourCommandRx node payload s
  | .faultRelayRx node payload => Sys2Proof.Machine.execFaultRelayRx node payload s
  | .pourPulseEnd => Sys2Proof.Machine.execPourPulseEnd s
  | .pourCommandAbandon => Sys2Proof.Machine.execPourCommandAbandon s
  | .pourInTrigger => Sys2Proof.Machine.execPourInTrigger s
  | .pourStuck => Sys2Proof.Machine.execPourStuck s
  | .busDominant => Sys2Proof.Machine.execBusDominant s
  | .busDominantEnd => Sys2Proof.Machine.execBusDominantEnd s
  | .staggerReferenceRx node payload => Sys2Proof.Machine.execStaggerReferenceRx node payload s
  | .heatAssignmentRx node payload => Sys2Proof.Machine.execHeatAssignmentRx node payload s
  | .heatBroadcastAbandon => Sys2Proof.Machine.execHeatBroadcastAbandon s
  | .stampSyncTx => Sys2Proof.Machine.execStampSyncTx s
  | .stampSyncRx node payload => Sys2Proof.Machine.execStampSyncRx node payload s
  | .eventFrameRx node payload => Sys2Proof.Machine.execEventFrameRx node payload s
  | .fwDistStart src tag => Sys2Proof.Machine.execFwDistStart src tag s
  | .fwDistStep abort data => Sys2Proof.Machine.execFwDistStep abort data s
  | .fwDistGuardTimeout => Sys2Proof.Machine.execFwDistGuardTimeout s
  | .fwDistStop src tag => Sys2Proof.Machine.execFwDistStop src tag s
  | .logFlush => Sys2Proof.Machine.execLogFlush s
  | .logSeekOldest src tag => Sys2Proof.Machine.execLogSeekOldest src tag s
  | .logSeekSeq src tag => Sys2Proof.Machine.execLogSeekSeq src tag s
  | .logSeekNewest src tag => Sys2Proof.Machine.execLogSeekNewest src tag s
  | .logClose src tag => Sys2Proof.Machine.execLogClose src tag s
  | .logBatch src tag => Sys2Proof.Machine.execLogBatch src tag s
  | .svcLadleHealth src tag => Sys2Proof.Machine.execSvcLadleHealth src tag s
  | .svcHotPanel src tag => Sys2Proof.Machine.execSvcHotPanel src tag s
  | .svcWashdown src tag => Sys2Proof.Machine.execSvcWashdown src tag s
  | .svcWashdownAbandon => Sys2Proof.Machine.execSvcWashdownAbandon s
  | .svcLink src tag => Sys2Proof.Machine.execSvcLink src tag s
  | .heartbeatReturn => Sys2Proof.Machine.execHeartbeatReturn s
  | .deskewLoss p => Sys2Proof.Machine.execDeskewLoss p s
  | .idleExitLockTimeout p => Sys2Proof.Machine.execIdleExitLockTimeout p s
  | .rxIdleExit => Sys2Proof.Machine.execRxIdleExit s
  | .bankRefusalRx eios => Sys2Proof.Machine.execBankRefusalRx eios s
  | .dfeTapAtLimit p tap low => Sys2Proof.Machine.execDfeTapAtLimit p tap low s
  | .commitGapExpiry => Sys2Proof.Machine.execCommitGapExpiry s
  | .confirmationWritten => Sys2Proof.Machine.execConfirmationWritten s
  | .protectionRecordWritten ok => Sys2Proof.Machine.execProtectionRecordWritten ok s
  | .busOff => Sys2Proof.Machine.execBusOff s
  | .busOffRecovery => Sys2Proof.Machine.execBusOffRecovery s
  | .debugHalt => Sys2Proof.Machine.execDebugHalt s
  | .debugResume => Sys2Proof.Machine.execDebugResume s
  | .canRequestRx addr fd bytes => Sys2Proof.Machine.execCanRequestRx addr fd bytes s

end Sys2Proof.Machine
end

