-- ==== Sys2Proof/Safety.lean ====
section
/-! DEFINITION. What a sound state is, which registers and stores a command leaves alone, and when a request is executed at
once: the terms the statements use. -/
namespace Sys2Proof.Machine

/-- A register table of either die in its canonical form, every value within its type's size (spec/02_object_dictionary.md
Table OD-1). -/
def regTableOk (t : Table Nat) : Bool := twfAt dfltAt t && t.all (fun e => decide (e.2 < 256 ^ sizeAt e.1))

/-- Both dies' registers are sound. -/
def State.regsOk (s : State) : Bool := regTableOk s.reg && regTableOk s.hv

/-- The follower's and the HV die's ticks lie within their cycle of 1024 (spec/00_scope.md R8; spec/05_mains_angle.md R143). -/
def State.ticsOk (s : State) : Bool := decide (s.clk.tic < 1024) && decide (s.clk.hvTic < 1024)

/-- The invariant of the machine: sound registers, ticks within their cycle. -/
def State.inv (s : State) : Bool := s.regsOk && s.ticsOk

/-- The command answers a next state of which `P` holds. -/
def Does (c : Instr) (s : State) (P : State → Prop) : Prop := ∃ t, exec c s = .next t ∧ P t

/-- The registers that the creation of an event may change (spec/18_events_and_faults.md R464-R472; spec/17_cascade.md
R455): its number, the last fault, the counters and flags of what is dropped, the words programmed. -/
def eventKeys : List Nat :=
  [Reg.eventSeq, Reg.lastFaultCode, Reg.lastFaultStamp, Reg.eventTxDrops, Reg.casFlags, Reg.logDrops, Reg.evFlags,
   Reg.startLogDrops, Reg.wordsProgrammed]

/-- Every register of the logic die outside `K` and every register of the HV die outside `H` reads as before. -/
def Quiet (K H : List Nat) (s t : State) : Prop := (∀ k, k ∉ K → t.rd k = s.rd k) ∧ ∀ k, k ∉ H → t.hrd k = s.hrd k

/-- Every record slot that was not blank holds what it held: the log only grows (spec/16_onchip_flash.md R413). -/
def RingKept (s t : State) : Prop := ∀ n, s.slot n ≠ .blank → t.slot n = s.slot n

/-- Every byte of the code flash and the dies, the protection record, the config copies and the summary slots are as before,
and every record of the log. -/
def SameStores (s t : State) : Prop :=
  (∀ a, t.codeByte a = s.codeByte a) ∧ t.fw.record = s.fw.record ∧ t.sto.nand = s.sto.nand ∧ t.fla.cope = s.fla.cope ∧
  t.fla.drag = s.fla.drag ∧ t.fla.sums = s.fla.sums ∧ RingKept s t

/-- Every byte of the code flash outside a window write under way is as before: what that one leaves behind where it is cut off is
free (log entry 41). -/
def CodeKept (s t : State) : Prop :=
  ∀ a, (∀ w, s.fw.write = some w → a / 8 < w.addr / 8 ∨ w.addr / 8 + w.data.length / 8 ≤ a / 8) → t.codeByte a = s.codeByte a

/-- The stores are as before but for the words of a window write that was cut off. -/
def StoresKept (s t : State) : Prop :=
  CodeKept s t ∧ t.fw.record = s.fw.record ∧ t.sto.nand = s.sto.nand ∧ t.fla.cope = s.fla.cope ∧ t.fla.drag = s.fla.drag ∧
  t.fla.sums = s.fla.sums ∧ RingKept s t

/-- The registers outside the lists and all stores are as before. -/
def Frame (K H : List Nat) (s t : State) : Prop := Quiet K H s t ∧ SameStores s t

/-- A value cut to the size of a register. -/
def fit (k v : Nat) : Nat := v % 256 ^ sizeAt k

/-- A counter counts one, wrapping at its width (spec/18_events_and_faults.md R477). -/
def Counts (k : Nat) (s t : State) : Prop := t.rd k = fit k (s.rd k + 1)

/-- The state just after an event of a code was created in a state that had created none since `s` (R464). -/
def Creates (code : Nat) (s t : State) : Prop :=
  ∃ (u : State) (obj detail a b : Nat), t = u.event code obj detail a b ∧ u.rd Reg.eventSeq = s.rd Reg.eventSeq

/-- A finding of the HV die waits for a B1 frame, with the tick it was taken in, behind those that wait
(spec/01_architecture.md R18; spec/05_mains_angle.md R143). -/
def Reports (l : List Note) (s t : State) : Prop := t.bar.reports = s.bar.reports ++ [(s.clk.hvTic, l)]

/-- Every persisted setting that a reset of the logic side takes back on the HV die is at its built-in value there, every other of its
registers as before (spec/05_mains_angle.md R142; spec/06_start_up.md R160; spec/07_feeds_and_efuse.md R175). -/
def HvKept (held : Bool) (s t : State) : Prop :=
  ∀ k, t.hrd k = if isSetting k = true ∧ builtInAgain held k = true then dfltAt k else s.hrd k

/-- The registers that a trip of a feed may change on the HV die (spec/07_feeds_and_efuse.md R185). -/
def feedHv (f : Nat) : List Nat := [Reg.feedState f, Reg.feedWait 0, Reg.feedWait 1]
def tripHv (f : Nat) : List Nat := feedHv f ++ [Reg.tripCause f, Reg.tripDetail f, Reg.busLatch]

/-- A feed is latched on a trip; what the logic die records of it waits for a B1 frame (R185). -/
def Trips (f cause detail : Nat) (s t : State) : Prop :=
  t.feedSt f = Fs.latched ∧ t.hrd (Reg.tripCause f) = cause ∧ t.hrd (Reg.tripDetail f) = fit (Reg.tripDetail f) detail ∧
  t.bar.b2 = true ∧
  Reports [.stamp (Reg.tripStamp f), .count (tripCounter f cause) 1, .flag (Reg.feedFlags f) 0,
    .event 0x2001 f cause (ofSigned 4 (s.feedMa f)) detail] s t

/-- The registers of the HV die that a command frame may change besides those it sets: what its feeds, its time base and its holdup do
on it (spec/01_architecture.md R23; spec/07_feeds_and_efuse.md R189, R193; spec/09_holdup.md R234). -/
def frameHv : List Nat :=
  [Reg.tbState, Reg.freqMeas, Reg.feedState 0, Reg.feedState 1, Reg.feedWait 0, Reg.feedWait 1, Reg.busLatch, Reg.damage 0,
   Reg.damage 1, Reg.holdupBarred, Reg.huState, Reg.huOffWhy, Reg.huReady]

/-- The registers that the acceptance of a pour may change on the logic die (spec/14_pour_and_shakeout.md R348-R350, and the rules
of the parts that act in that tick), where no commit, erase, firmware change or distribution is under way; and on the HV die. -/
def pourKeys : List Nat :=
  eventKeys ++ [Reg.pourAllow, Reg.pourCause, Reg.pourCmdsTx, Reg.pourFlags, Reg.pourMargin, Reg.pourPulsesTx, Reg.pourRx,
    Reg.pourStamp, Reg.pourState, Reg.pourTriggers, Reg.pours, Reg.drainEnd, Reg.heatAssigned, Reg.idleHold, Reg.startFlags,
    Reg.huFlags, Reg.canBusState, Reg.linkState, Reg.txReversed, Reg.rxReversed, Reg.eraseState, Reg.shakeState, Reg.shakeReleased,
    Reg.svcReportCmd, Reg.railsGood, Reg.txNextSeq, Reg.retryBytes, Reg.framesTx]
  ++ allRails.map Reg.railState ++ allStreams.map Reg.streamOpen
  ++ allLanes.flatMap (fun p => [Reg.laneLogical p, Reg.laneStatus p, Reg.ctleNow p, Reg.dfeTaps p, Reg.eyeCmd p])
def pourHv : List Nat :=
  [Reg.feedState 0, Reg.feedState 1, Reg.feedWait 0, Reg.feedWait 1, Reg.huState, Reg.huOffWhy, Reg.huReady]

/-- Guard, with records to cast and nothing under way that a pour cuts off: a trigger is accepted as it stands (R346, R348). -/
def State.pourReady (s : State) : Bool :=
  s.sup.running && s.taken && decide (s.phase = .guard) && !s.emptyPour && s.svc.commit.isNone && s.fla.erase.isNone
    && s.cas.dist.isNone && s.fw.write.isNone && decide (s.rd Reg.fwState = 0 ∨ 4 ≤ s.rd Reg.fwState)

/-- A trigger of a cause is accepted (R348): the pour begins with its drain, its cause, stamp and count; B4 is asserted and PFW# is
low; nothing outside `pourKeys` and the registers named changes. -/
def Accepts (cause : Nat) (K : List Nat) (s t : State) : Prop :=
  t.phase = .pour ∧ t.rd Reg.pourState = 1 ∧ t.rd Reg.pourCause = cause ∧ t.rd Reg.pourTriggers = 2 ^ (cause - 1) ∧
  t.rd Reg.pourStamp = fit Reg.pourStamp s.stamp ∧ Counts Reg.pours s t ∧ t.bitOf Reg.pourFlags 0 = true ∧
  t.rd Reg.idleHold = 0 ∧ t.pads.b4 = true ∧ t.pads.pfw = some false ∧ t.pour.at_ = s.tick ∧ Frame (pourKeys ++ K) pourHv s t

/-- The registers that sending a link frame may change (spec/12_link_layer.md R306), those that counting a violation of a source may
change (spec/18_events_and_faults.md R478-R481), and a counted violation. An answer to the link sends a frame and, where it is an
abort, is the fate of the last control request (R323). -/
def sendKeys : List Nat := [Reg.txNextSeq, Reg.retryBytes, Reg.framesTx]
def answerKeys : List Nat := Reg.lastCtrl :: sendKeys
def violKeys (j : Nat) : List Nat :=
  eventKeys ++ answerKeys ++ [Reg.serviceFlags, Reg.llFlags, Reg.llQuarantines, Reg.llViolations, Reg.srcQuarantines j,
    Reg.violTotal j] ++ (List.range 15).map (Reg.viol j)
def Violates (j cls : Nat) (s t : State) : Prop := Counts (Reg.viol j (cls - 1)) s t ∧ Counts (Reg.violTotal j) s t

/-- The registers that leaving the up states may change, those that a full training's start may change (spec/11_link_phy.md R274,
R275, R291), and what leaving them leaves: in a tick without an earlier drop the cause is recorded and counted, whichever state the
link was in. -/
def downKeys : List Nat :=
  eventKeys ++ [Reg.linkState, Reg.linkUp, Reg.linkDownCause, Reg.linkDowns, Reg.rateNow, Reg.widthNow, Reg.txIdle, Reg.rxIdle,
    Reg.llState, Reg.llFlags, Reg.retryBytes, Reg.shakeState] ++ allStreams.map Reg.limit
def detectKeys : List Nat :=
  [Reg.linkState, Reg.rxReversed, Reg.txReversed]
  ++ allLanes.flatMap (fun p => [Reg.laneLogical p, Reg.laneStatus p, Reg.ctleNow p, Reg.dfeTaps p])
def LinkDrops (cause next : Nat) (s t : State) : Prop :=
  t.rd Reg.linkState = next ∧ t.rd Reg.linkUp = 0 ∧ t.rd Reg.llState = 0 ∧ t.rd Reg.rateNow = 0xFF ∧ t.rd Reg.widthNow = 0 ∧
  t.rd Reg.txIdle = 0 ∧ t.rd Reg.rxIdle = 0 ∧
  t.rd Reg.linkDownCause = cause ∧ Counts Reg.linkDowns s t

/-- The registers that placing records into pages may change (spec/15_ingot_store.md R381-R384), and those a record's refusal may. -/
def pumpKeys : List Nat :=
  [Reg.pageSeqNext, Reg.rowSeqNow, Reg.rowsOpened, Reg.openRowMask] ++ (List.range 4).map Reg.dieState

/-- A received cascade frame whose contents count, with nothing in it to be counted as a violation (Table CA-7; spec/17_cascade.md
R458, R459). -/
def State.casTakes (s : State) (fn node : Nat) (p : List Nat) (dirty : Bool) : Bool :=
  s.canOn && !s.cas.dominant && decide (1 ≤ node ∧ node ≤ 64) && decide (node ≠ s.node)
    && (decide (fn = 0) || decide ((s.srcOf (node + 2)).quarLeft = 0)) && (decide (fn ≠ 4 ∧ fn ≠ 7) || decide (node = 1)) && decide (p.length = casLen fn)
    && (decide (fn = 0 ∨ fn = 2) || decide ((s.member (node - 1)).cyc ≠ s.clk.cyc) || decide ((s.member (node - 1)).frames < 8))
    && !dirty

/-- The registers of node 1's entry for a member (Table CA-10). -/
def memberKeys (k : Nat) : List Nat :=
  [Reg.mState k, Reg.mLastHeard k, Reg.mActivity k, Reg.mFlags k, Reg.mStartStep k, Reg.mHeatLast k, Reg.mFwVersion k, Reg.mHuGroup k,
   Reg.mHuWeight k, Reg.mLoadPeak k, Reg.mBoots k, Reg.mSerial k, Reg.mEventSeq k, Reg.mMissedEvents k]

/-- The state in which a request is executed at once (spec/02_object_dictionary.md R71, R74, R75): its source is answered, its
form is good, no answer to it is due, no limit is met; its token is spent. None where it is not. -/
def State.intake (s : State) (op : Nat) (r : Req) : Option State :=
  let u := s.unanswered
  let j := r.src.val
  if u.deaf j || badForm op r || u.awaits j then none
  else
    let u := u.setSrc j (u.touched j)
    if (u.limited op r).isSome then none else some (u.spend op j)

/-- The state in which an opcode does its own work on a request (R72, R457, R47): the service is ready for it and, but for a transfer's
own opcodes, the parameter exists. -/
def State.admits (s : State) (op : Nat) (r : Req) : Option State :=
  match s.intake op r with
  | none => none
  | some u =>
    if (u.unready op (u.effKey op r)).isNone && (op = Op.segData || op = Op.segAbort || (u.absent op (reqKey r)).isNone)
    then some u else none

/-- The state and the value of a write that R50, R73 and R52 let through. -/
def State.takes (s : State) (r : Req) : Option (State × Nat) :=
  match s.admits Op.write r, rowIn (reqKey r) with
  | some u, some w =>
    if (u.writeBar r.src.val (reqKey r) w).isSome || decide (maxL r.src.val < tySize w.ty) || reqKey r = Reg.winData then none
    else match u.checkWrite (reqKey r) w (reqBytes r) with
      | .ok v => some (u, v)
      | .error _ => none
  | _, _ => none

/-- A write of a value to a register, let through. -/
def State.lets (s : State) (src : Src) (tag : Byte) (k v : Nat) : Option State := (s.takes (valueReq src tag k v)).map (·.1)

/-- A request is refused with an abort (R76); the state before the answer satisfies `P`. -/
def Refuses (c : Instr) (op : Nat) (r : Req) (code detail : Nat) (s : State) (P : State → Prop) : Prop :=
  ∃ t, exec c s = .next (t.replyAbort r.src.val r.tag.toNat op (reqKey r) code detail) ∧ P t

/-- A request is answered with success, its data and its status bits; the state before the answer satisfies `P`. -/
def Serves (c : Instr) (op : Nat) (r : Req) (data : List Nat) (bits : Nat) (s : State) (P : State → Prop) : Prop :=
  ∃ t, exec c s = .next (t.replyOk r.src.val r.tag.toNat op (reqKey r) data bits) ∧ P t

/-- Nothing but the service's own state differs (the sources, what is answered and counted in a cycle). -/
def SvcOnly (s t : State) : Prop := t = { s with svc := t.svc }

/-- A command that writes one register is answered with success; what it did stands in a state of which `P` holds. -/
def Answers (c : Instr) (src : Src) (tag : Byte) (key : Nat) (s : State) (P : State → Prop) : Prop :=
  ∃ t, exec c s = .next (t.replyOk src.val tag.toNat Op.write key []) ∧ P t

end Sys2Proof.Machine
end

