-- ==== Sys2Proof/Certificates/Slice0/Obligations.lean ====
section
/-! DEFINITION. The statements for the provers. -/
open Sys2Proof Sys2Proof.Machine

/-- ZERO_CROSSING while it is tracked, QUALIFICATION_FAIL, LOCK_ACQUIRED and LOCK_LEFT: the states of the time base they lead to,
what they count and flag, and that nothing else changes. MAINS_LOSS_DECLARED in rest, where its trigger is only logged, and
SEEK_LIMIT_EXPIRY. Where the rules leave it open the model chooses: log entries 8, 20, 86. -/
def Obligations.TrackerMovesTheTimeBase : Prop :=
  (∀ (s : State) (us ap an : Nat) (err : Int), s.sup.main = true → s.hrd Reg.mainsSense ≠ 0 →
    s.trk.sidePos = true → 8 ≤ s.trk.sideRun → s.trk.crossed = false → (s.tb = Tb.acquiring ∨ s.tb = Tb.locked) → 1 ≤ us →
    Does (.zeroCrossing us ap an err) s fun t =>
      t.hrd Reg.freqMeas = freqOfUs us ∧ t.tb = s.tb ∧ t.trk.freq = freqOfUs us ∧ t.trk.crossed = true ∧
      Frame [] [Reg.amplitude, Reg.freqMeas, Reg.phaseErr] s t) ∧
  (∀ (s : State) (us ap an : Nat) (err : Int), s.sup.main = true → s.hrd Reg.mainsSense ≠ 0 →
    s.trk.sidePos = true → 8 ≤ s.trk.sideRun → s.trk.crossed = false → (s.tb = Tb.seeking ∨ s.tb = Tb.lost) →
    2 ≤ s.trk.crossings → s.hrd Reg.qualMin ≤ ap → s.hrd Reg.qualMin ≤ an → crossingInRange us = true →
    Does (.zeroCrossing us ap an err) s fun t =>
      t.tb = Tb.acquiring ∧ t.trk.freq = freqOfUs ((s.trk.lastUs + us) / 2) ∧
      Frame [] [Reg.amplitude, Reg.freqMeas, Reg.phaseErr, Reg.tbState] s t) ∧
  (∀ (s : State) (us ap an : Nat) (err : Int), (s.trk.sidePos = false ∨ s.trk.sideRun < 8 ∨ s.trk.crossed = true) →
    Does (.zeroCrossing us ap an err) s fun t => t = s) ∧
  (∀ s : State, s.tb = Tb.acquiring → 2 ≤ s.trk.failCycles →
    Does .qualificationFail s fun t =>
      t.tb = Tb.lost ∧ t.hrd Reg.freqMeas = 0 ∧ Frame [] [Reg.tbState, Reg.freqMeas] s t) ∧
  (∀ s : State, s.tb = Tb.acquiring → 1024 ≤ s.trk.inPhase → s.trk.failCycles = 0 → s.sup.running = true →
    Does .lockAcquired s fun t =>
      t.tb = Tb.locked ∧ t.trk.lockedTicks = 0 ∧ t.trk.seekTicks = none ∧
      (∃ l, Reports (.count Reg.lockCount 1 :: .event 0x1202 0xFF 0 (s.hrd Reg.freqMeas) 0 :: l) s t) ∧
      Frame [] [Reg.tbState] s t) ∧
  (∀ s : State, s.tb = Tb.locked → (2 ≤ s.trk.outPhase ∨ 4 ≤ s.trk.outFreq) → s.sup.running = true →
    Does .lockLeft s fun t =>
      t.tb = Tb.acquiring ∧
      Reports [.flag Reg.tbFlags 1, .event 0x1203 0xFF 0 (ofSigned 4 (s.hrdI Reg.phaseErr)) 0] s t ∧
      Frame [] [Reg.tbState] s t) ∧
  (∀ s : State, s.tb = Tb.locked → 2048 ≤ s.trk.lockedTicks → s.hrd Reg.lossRun ≤ s.trk.failing →
    s.sup.running = true → s.taken = true → s.phase = .rest →
    Does .mainsLossDeclared s fun t =>
      t.tb = Tb.lost ∧ t.bar.b2 = true ∧ t.phase = .rest ∧
      Reports [.stamp Reg.lastLoss, .put Reg.lossDetect s.trk.sincePass, .count Reg.lossCount 1, .flag Reg.tbFlags 0,
        .event 0x1201 0xFF 0 s.trk.sincePass 0] s t ∧
      Frame eventKeys [Reg.tbState, Reg.freqMeas] s t) ∧
  (∀ (s : State) (n : Nat), s.sup.main = true → s.trk.seekTicks = some n → s.hrd Reg.mainsSense = 1 → s.hrd Reg.seekLimit ≤ n →
    s.sup.running = true →
    Does .seekLimitExpiry s fun t =>
      t.trk.seekTicks = none ∧ Reports [.flag Reg.tbFlags 3, .event 0x1205 0xFF 0 0 0] s t ∧ Frame [] [] s t)

/-- The follower: B0_PULSE in its three cases, FOLLOWER_FREE, FOLLOWER_ALIGNED. TICK, CYCLE_START and ADMISSION_OPEN: what a
tick samples and counts, what 0 au counts, when admission reopens. STAMP_STEP at CYCLE_START: the pending step is taken
whole after the increment, counted and flagged. Where the rules leave it open the model chooses: log entries 8, 10, 16. -/
def Obligations.FollowerTicksAndCyclesCount : Prop :=
  (∀ s : State, s.sup.main = true → s.sup.running = true → s.coldRead = false → s.clk.synced = false →
    Does (.b0Pulse true) s fun t =>
      t.clk.synced = true ∧ t.clk.tic = 0 ∧ t.clk.hvTic = s.clk.hvTic ∧ t.clk.count = s.clk.count ∧ Frame [] [] s t) ∧
  (∀ s : State, s.sup.main = true → s.sup.running = true → s.coldRead = false → s.clk.synced = true → s.rd Reg.follower = 0 →
    Does (.b0Pulse false) s fun t => t = { s with clk := { s.clk with b0Gap := 0, b0Double := false } }) ∧
  (∀ s : State, s.sup.main = true → s.sup.running = true → s.coldRead = false → s.clk.synced = true → s.rd Reg.follower = 0 →
    s.clk.zeroed = false →
    Does (.b0Pulse true) s fun t => t = { s with clk := { s.clk with b0Gap := 0, b0Double := true, tic := 1023 } }) ∧
  (∀ (s : State) (d : Bool), s.sup.main = true → s.sup.running = true → s.coldRead = false → s.clk.synced = true →
    s.rd Reg.follower ≠ 0 → s.clk.tic < 1024 →
    Does (.b0Pulse d) s fun t =>
      t.clk.hvTic = s.clk.hvTic ∧ (t.clk.tic = s.clk.tic ∨ t.clk.tic = (s.clk.tic + 1) % 1024 ∨ t.clk.tic = (s.clk.tic + 1023) % 1024) ∧
      (t.clk.tic ≠ s.clk.tic → t.clk.slew = 0) ∧ t.clk.count = s.clk.count ∧ Frame [] [] s t) ∧
  (∀ s : State, s.sup.running = true → s.rd Reg.follower = 0 → 2 ≤ s.clk.b0Gap →
    Does .followerFree s fun t =>
      t.rd Reg.follower = 1 ∧ t.clk.synced = true ∧ t.clk.tic = s.clk.tic ∧ t.bitOf Reg.tbFlags 5 = true ∧ Creates 0x1206 s t ∧
      Frame (eventKeys ++ [Reg.follower, Reg.tbFlags]) [] s t) ∧
  (∀ s : State, s.sup.running = true → s.sup.main = true → s.rd Reg.follower = 1 → s.clk.b0Gap = 0 →
    s.clk.b0Double = true → (s.clk.tic = 1023 ∨ s.clk.tic = 0 ∨ s.clk.tic = 1) →
    Does .followerAligned s fun t =>
      t.rd Reg.follower = 0 ∧ t.clk.hvTic = s.clk.hvTic ∧ t.clk.tic = s.clk.tic ∧ Creates 0x1206 s t ∧
      Frame (eventKeys ++ [Reg.follower]) [] s t) ∧
  (∀ (s : State) (x : Sample), (∀ e ∈ s.svc.srcs, e.2.held = []) →
    Does (.tick x) s fun t =>
      t.smp = x ∧ t.clk.now = s.clk.now + 1 ∧ t.clk.fresh = false ∧ t.clk.count = s.clk.count ∧
      t.clk.tic = (if s.sup.running = true ∧ s.clk.synced = true ∧ s.clk.fresh = false then (s.clk.tic + 1) % 1024 else s.clk.tic) ∧
      t.sup.iso = (s.sup.main && windowed s.sup.iso x.viso 3100 3000) ∧
      t.sup.vlog = windowed s.sup.vlog x.vlog 3050 2950 ∧ t.sup.usb = windowed s.sup.usb x.usb 4400 4100 ∧
      t.phase = s.phase ∧ SameStores s t) ∧
  (∀ (s : State) (x : Sample), s.sup.running = true → (∀ e ∈ s.svc.srcs, e.2.held = []) →
    Does (.tick x) s fun t => t.rd Reg.visoV = min 65535 x.viso ∧ t.rd Reg.vlogV = min 65535 x.vlog) ∧
  (∀ s : State, s.sup.running = true → s.clk.synced = true → s.clk.fresh = false → s.clk.zeroed = false → s.clk.begun = true →
    s.clk.tic = 1023 → s.clk.step = 0 → s.taken = false →
    Does .cycleStart s fun t =>
      t.clk.tic = 0 ∧ t.clk.fresh = true ∧ t.clk.count = s.clk.count + 1 ∧ t.clk.cyc = s.clk.cyc + 1 ∧ t.svc.load = 0 ∧
      Frame sendKeys [] s t) ∧
  (∀ s : State, s.rd Reg.admState = 1 → s.rd Reg.admOpenRun ≤ s.sto.okRun →
    Does .admissionOpen s fun t => t.rd Reg.admState = 0 ∧ Frame (Reg.admState :: eventKeys ++ sendKeys) [] s t) ∧
  (∀ s : State, s.sup.running = true → s.clk.synced = true → s.clk.fresh = false → s.clk.zeroed = false → s.clk.begun = true →
    s.clk.tic = 1023 → s.clk.step ≠ 0 → s.taken = false →
    Does .cycleStart s fun t =>
      t.clk.count = s.clk.count + 1 + s.clk.step ∧ t.clk.step = 0 ∧ Counts Reg.stampSteps s t ∧ t.bitOf Reg.tbFlags 6 = true ∧
      Frame (eventKeys ++ sendKeys ++ [Reg.stampSteps, Reg.tbFlags]) [] s t)

/-- SOURCE_SWITCH, USB_ATTACH, USB_DETACH, VISO_REDUCED and VISO_CURRENT_LIMIT. The HV die's supplies: WAKE_STAGE_START,
WAKE_STAGE_STOP, MAIN_SUPPLY_START on the built-in settings, MAIN_SUPPLY_STOP with the barrier down and the time base off.
Where the rules leave it open the model chooses: log entries 8, 14, 15, 17. -/
def Obligations.SuppliesStartAndStop : Prop :=
  (∀ s : State, ((s.sup.source = .iso ∧ s.firstSource = .vlog) ∨ (s.sup.source = .vlog ∧ s.firstSource = .iso)) →
    Does .sourceSwitch s fun t =>
      t.sup.source = s.firstSource ∧ Counts Reg.sourceSwitches s t ∧ t.sup.running = s.sup.running ∧ t.phase = s.phase ∧
      Frame (Reg.sourceSwitches :: eventKeys) [] s t) ∧
  (∀ s : State, s.sup.usb = true → (s.sup.running = true ∨ s.sup.romOnly = true) → s.sup.usbUp = false →
    Does .usbAttach s fun t => t = { s with sup := { s.sup with usbUp := true } }) ∧
  (∀ s : State, s.sup.usbUp = true →
    Does .usbDetach s fun t =>
      t.sup.usbUp = false ∧ t.svc.usbFrame = none ∧ (t.srcOf 1).shadows = [] ∧ (t.srcOf 1).unlocked = false ∧
      (t.srcOf 1).cursor = none ∧ (t.srcOf 1).xfer = none ∧ (∀ j, j ≠ 1 → t.srcOf j = s.srcOf j) ∧ Frame [] [] s t) ∧
  (∀ s : State, s.sup.main = true → s.sup.reduced = false → s.smp.vbusIn < 9000 → s.sup.running = true →
    Does .visoReduced s fun t =>
      t.sup.reduced = true ∧ Reports [.flag Reg.elecFlags 2, .event 0x7006 0xFF 1 0 0] s t ∧ Frame [] [] s t) ∧
  (∀ s : State, s.sup.main = true → s.sup.running = true →
    Does .visoCurrentLimit s fun t =>
      Counts Reg.isoLimitCount s t ∧ t.bitOf Reg.elecFlags 3 = true ∧ Creates 0x7006 s t ∧
      Frame (eventKeys ++ [Reg.isoLimitCount, Reg.elecFlags]) [] s t) ∧
  (∀ s : State, s.sup.wake = false → (16000 ≤ s.smp.feedA ∨ 16000 ≤ s.smp.feedB) →
    Does .wakeStageStart s fun t => t = { s with sup := { s.sup with wake := true } }) ∧
  (∀ s : State, s.sup.wake = true → s.sup.main = true → s.smp.feedA < 14000 → s.smp.feedB < 14000 →
    Does .wakeStageStop s fun t => t = { s with sup := { s.sup with wake := false } }) ∧
  (∀ s : State, s.sup.wake = true → s.sup.main = false → s.smp.feedA < 14000 → s.smp.feedB < 14000 →
    Does .wakeStageStop s fun t =>
      t.sup.wake = false ∧ (∀ k, t.hrd k = dfltAt k) ∧ t.feeds = [] ∧ (∀ k, t.rd k = s.rd k) ∧ SameStores s t) ∧
  (∀ s : State, s.sup.main = false → 9000 ≤ s.smp.vbusIn →
    Does .mainSupplyStart s fun t =>
      t.sup.main = true ∧ t.hrd Reg.tbState = Tb.seeking ∧ t.clk.hvTic = 0 ∧ t.bar.hbArmed = false ∧ t.bar.hvConfigured = false ∧
      (s.inv = true → ∀ k, k ≠ Reg.tbState → t.hrd k = if wakeHolds (k, s.hrd k) = true then s.hrd k else dfltAt k) ∧
      (∀ k, t.rd k = s.rd k) ∧ SameStores s t) ∧
  (∀ s : State, s.sup.main = true → s.smp.vbusIn < 6500 → s.sup.wake = true →
    Does .mainSupplyStop s fun t =>
      t.sup.main = false ∧ t.sup.iso = false ∧ t.rd Reg.tbState = Tb.off ∧ t.rd Reg.barrierState = 0 ∧ t.bar.up = false ∧
      t.rd Reg.huReady = 0 ∧ (t.rd Reg.huState = Hs.off ∨ t.rd Reg.huState = Hs.latched) ∧
      (s.inv = true → ∀ k, t.hrd k = if wakeHolds (k, s.hrd k) = true then s.hrd k else dfltAt k) ∧
      (∀ k, k ∉ [Reg.tbState, Reg.barrierState, Reg.startStep, Reg.huState, Reg.huOffWhy, Reg.huReady] → t.rd k = s.rd k) ∧
      SameStores s t)

/-- POWER_ON_RESET, LOGIC_SUPPLY_LOSS and HW_WATCHDOG_EXPIRY: the registers of the logic die are new but for the four that tell
of the reset, what they tell, and that a reset with nothing being written leaves every store as it was. BARRIER_RESET and
BUSY_BANK_FAULT: warm resets that name their cause. Where the rules leave it open the model chooses: log entries 8, 17, 41,
45, 46, 65, 89. -/
def Obligations.ResetsLeaveTheStores : Prop :=
  (∀ s : State, s.sup.source = .off → s.firstSource ≠ .off → s.pads.b4 = false →
    s.fla.erase = none → s.rd Reg.fwState ≠ 1 → s.log.writing = [] →
    Does .powerOnReset s fun t =>
      t.sup.source = s.firstSource ∧ t.sup.bootDue = true ∧ t.sup.coldBoot = true ∧ t.sup.running = false ∧ t.phase = .idle ∧
      t.rd Reg.resetCause = 0 ∧ t.rd Reg.seqLatch = 0 ∧ t.rd Reg.pwAttemptsLeft = 8 ∧ t.clk.count = 0 ∧
      (∀ k, k ∉ [Reg.resetCause, Reg.seqLatch, Reg.failedRail, Reg.pwAttemptsLeft] → t.rd k = dfltAt k) ∧ HvKept false s t ∧
      CodeKept s t ∧ t.fw.record = s.fw.record ∧ t.log.ring = s.log.ring) ∧
  (∀ s : State, s.sup.source ≠ .off → s.firstSource = .off → s.pads.b4 = false →
    s.fla.erase = none → s.rd Reg.fwState ≠ 1 →
    Does .logicSupplyLoss s fun t =>
      t.sup.source = .off ∧ t.sup.bootDue = false ∧ t.sup.running = false ∧ t.phase = .idle ∧
      (∀ k, k ∉ [Reg.resetCause, Reg.seqLatch, Reg.failedRail, Reg.pwAttemptsLeft] → t.rd k = dfltAt k) ∧ HvKept false s t ∧
      CodeKept s t ∧ t.fw.record = s.fw.record ∧
      (∀ n, t.slot n = if s.log.writing.contains n = true then .torn else s.slot n)) ∧
  (∀ s : State, s.bar.halted = false → s.sup.source ≠ .off → s.pads.b4 = false →
    s.rd Reg.fwState ≠ 1 → s.fla.erase = none → s.svc.commit = none → s.sto.erase = none → (∀ p ∈ s.sto.pages, p.busy = false) →
    Does .hwWatchdogExpiry s fun t =>
      t.rd Reg.resetCause = 1 ∧ t.sup.bootDue = true ∧ t.sup.coldBoot = false ∧ t.sup.running = false ∧ t.phase = .idle ∧
      t.clk.count = s.clk.count ∧ t.rd Reg.seqLatch = fit Reg.seqLatch (s.rd Reg.seqLatch) ∧ t.log.queue = [] ∧
      (∀ k, k ∉ [Reg.resetCause, Reg.seqLatch, Reg.failedRail, Reg.pwAttemptsLeft] → t.rd k = dfltAt k) ∧ HvKept false s t ∧
      t.log.ring = s.log.ring ∧ StoresKept s t) ∧
  (∀ s : State, s.sup.running = true → s.phase = .guard → s.sup.iso = true → (s.bar.lost = true ∨ s.bar.pathLost = true) →
    65536 ≤ s.bar.lostTicks → s.sup.source ≠ .off → s.pads.b4 = false →
    s.rd Reg.fwState ≠ 1 → s.fla.erase = none → s.svc.commit = none → s.sto.erase = none → (∀ p ∈ s.sto.pages, p.busy = false) →
    Does .barrierReset s fun t =>
      t.rd Reg.resetCause = 3 ∧ t.sup.bootDue = true ∧ t.sup.running = false ∧ t.phase = .idle ∧ t.bar.up = false ∧
      (∀ k, k ∉ [Reg.resetCause, Reg.seqLatch, Reg.failedRail, Reg.pwAttemptsLeft] → t.rd k = dfltAt k) ∧ HvKept false s t ∧
      StoresKept s t) ∧
  (∀ (s : State) (b : Fin 4), s.sup.running = true → s.bankBusyNow.testBit b = true → s.sup.source ≠ .off → s.pads.b4 = false →
    Does (.busyBankFault b) s fun t =>
      t.rd Reg.resetCause = 4 ∧ t.sup.bootDue = true ∧ t.sup.running = false ∧ t.phase = .idle ∧
      (∀ k, k ∉ [Reg.resetCause, Reg.seqLatch, Reg.failedRail, Reg.pwAttemptsLeft] → t.rd k = dfltAt k) ∧ HvKept false s t)

/-- LOGIC_BOOT: outside TMODE, where the ROM finds an image, the straps give the node, the die runs, the boot event comes first,
and outside cold read start begins. POWER_WAKE_DONE, CONFIG_LOAD held by a hold of IDLE_HOLD, CHARGE_PERMIT and GUARD_BEGIN:
the steps of start. Where the rules leave it open the model chooses: log entries 8, 13, 14, 17, 30. -/
def Obligations.BootAndStartStepsFollowEachOther : Prop :=
  (∀ (s : State) (straps : BitVec 6), s.sup.bootDue = true → s.romChoice.isSome = true → s.coldRead = false →
    s.heldBoot = false →
    Does (.logicBoot straps false) s fun t =>
      t.sup.running = true ∧ t.sup.bootDue = false ∧ t.phase = .start ∧ t.rd Reg.idStraps = straps.toNat ∧
      t.rd Reg.nodeId = straps.toNat + 1 ∧ t.hv = s.hv ∧ (∀ a, t.codeByte a = s.codeByte a) ∧ t.sto.nand = s.sto.nand ∧
      t.fla.cope = s.fla.cope ∧ t.fla.drag = s.fla.drag ∧ t.fla.sums = s.fla.sums) ∧
  (∀ (s : State) (straps : BitVec 6), s.sup.bootDue = true →
    Does (.logicBoot straps true) s fun t => t = { s with sup := { s.sup with bootDue := false }, pads := {} }) ∧
  (∀ s : State, s.phase = .start → s.rd Reg.startStep = Step.powerWake → s.bar.up = true → s.rd Reg.barrierState = 1 →
    s.rd Reg.follower = 0 →
    Does .powerWakeDone s fun t => t = s.wr Reg.startStep Step.configLoad) ∧
  (∀ s : State, s.phase = .start → s.rd Reg.startStep = Step.configLoad → s.taken = false → s.rd Reg.idleHold % 128 ≠ 0 →
    s.bestBank = none →
    Does .configLoad s fun t =>
      t.loaded = true ∧ t.taken = s.taken ∧ t.rd Reg.startStep = Step.configHeld ∧ t.rd Reg.configLoadResult = 0 ∧
      t.bitOf Reg.startFlags 1 = true ∧ (∀ k, isSetting k = true → t.rd k = dfltAt k) ∧ t.hv = s.hv ∧ SameStores s t) ∧
  (∀ s : State, s.phase = .start → s.rd Reg.startStep = Step.configLoad → s.taken = false → s.rd Reg.idleHold % 128 = 0 →
    s.bar.shareSent = false →
    Does .configLoad s fun t =>
      t.loaded = true ∧ t.taken = true ∧ t.pads.pfw = some false ∧ t.rd Reg.isState = 1 ∧ t.phase = .start ∧
      t.bar.shareSent = true ∧
      t.bar.unapplied = s.bar.unapplied ++ [{ seq := s.bar.nextSeq, sets := t.hvSettings, share := true }] ∧
      (∀ k, t.hrd k = s.hrd k) ∧ SameStores s t) ∧
  (∀ s : State, s.taken = true → s.sup.main = true → s.bar.shareSent = false → s.rd Reg.barrierState = 1 →
    s.rd Reg.follower = 0 →
    Does .powerSideReapply s fun t =>
      t = { s with bar := { s.bar with
                            unapplied := s.bar.unapplied ++ [{ seq := s.bar.nextSeq, sets := s.hvSettings, share := true }],
                            nextSeq := s.bar.nextSeq + 1, shareSent := true } }) ∧
  (∀ s : State, s.phase = .start → s.rd Reg.startStep = Step.chargeWait → s.chargeSlot ≠ 0 →
    Does .chargePermit s fun t =>
      t.rd Reg.startStep = Step.charge ∧ t.lad.permit = true ∧ (s.chargeSlot = 2 → t.bitOf Reg.startFlags 6 = true) ∧
      Frame [Reg.startStep, Reg.startFlags] [] s t) ∧
  (∀ s : State, s.phase = .start → s.rd Reg.startStep = Step.charge → s.rd Reg.isState = 2 → 2 ≤ s.lad.okCycles →
    s.rd Reg.ladleReserve ≤ s.rd Reg.ladleE →
    Does .guardBegin s fun t =>
      t.phase = .guard ∧ t.rd Reg.startStep = Step.done ∧ t.pads.pfw = some true ∧
      t.rd Reg.startGuardStamp = fit Reg.startGuardStamp s.stamp ∧ t.rd Reg.startElapsed = fit Reg.startElapsed s.elapsed ∧
      t.lad.capFrom = some (s.clk.cyc, decide (s.lad.measured = 0)) ∧
      Frame (eventKeys ++ [Reg.startStep, Reg.startGuardStamp, Reg.startElapsed, Reg.fwState, Reg.fwFlags, Reg.elecFlags,
        Reg.estZero, Reg.ladleE, Reg.ladleAvail, Reg.shakeHeat, Reg.shakeReleased, Reg.shakeState, Reg.shakeouts]) [] s t)

/-- PAD_LIMIT, PAD_NORMAL and PAD_OFF: a pad goes from Normal to Limited, back, and to Off. FAULT#: FAULT_PULSE_END,
FAULT_IN_TRIGGER accepted in guard, FAULT_STUCK, FAULT_REARM; HOST_RST_RELEASE and RAIL_ALIVE_IN_REST. Where the rules leave
it open the model chooses: log entries 8, 65, 90. -/
def Obligations.PadsAndTheFaultLine : Prop :=
  (∀ (s : State) (p : Pad), (s.padDriven p.val).isSome = true → s.padLimited p.val = false → s.padIsOff p.val = false →
    s.sup.running = true →
    Does (.padLimit p) s fun t =>
      t.padLimited p.val = true ∧ t.bitOf Reg.padContention p.val = true ∧
      t.rd (Reg.contCount p.val) = fit (Reg.contCount p.val) (min 65535 (s.rd (Reg.contCount p.val) + 1)) ∧ Creates 0x7003 s t ∧
      Frame (eventKeys ++ [Reg.padContention, Reg.contCount p.val]) [] s t) ∧
  (∀ (s : State) (p : Pad), s.padLimited p.val = true → 8 ≤ s.run (rcPadClean p.val) →
    Does (.padNormal p) s fun t => t.padLimited p.val = false ∧ t.padIsOff p.val = false ∧ Frame eventKeys [] s t) ∧
  (∀ (s : State) (p : Pad), s.padLimited p.val = true → tget 0 s.pads.lim p.val + s.rd Reg.contOffDelay ≤ s.tick + 1 →
    Does (.padOff p) s fun t => t.padLimited p.val = false ∧ t.padIsOff p.val = true ∧ Frame eventKeys [] s t) ∧
  (∀ s : State, s.taken = true → s.pads.fault = true → s.seq.pulseEnd ≤ s.tick →
    Does .faultPulseEnd s fun t =>
      t = { s with pads := { s.pads with fault := false }, seq := { s.seq with quiet := 16 } }) ∧
  (∀ s : State, s.pourReady = true → s.seq.armed = true → s.rd Reg.faultInEn = 1 → s.rd Reg.faultInFilter ≤ s.run rcFaultLow →
    Does .faultInTrigger s fun t =>
      t.seq.armed = false ∧ Counts Reg.faultInCount s t ∧ t.bitOf Reg.seqFlags 5 = true ∧
      Accepts 5 [Reg.faultInCount, Reg.seqFlags] s t) ∧
  (∀ s : State, s.taken = true → s.sup.running = true → s.seq.stuck = false → 2560 ≤ s.run rcFaultStuck →
    Does .faultStuck s fun t =>
      t.seq.stuck = true ∧ t.seq.armed = false ∧ t.rd Reg.faultState = 3 ∧ Counts Reg.faultStuckCount s t ∧
      t.bitOf Reg.seqFlags 6 = true ∧ Creates 0x2307 s t ∧
      Frame (eventKeys ++ [Reg.faultState, Reg.faultStuckCount, Reg.seqFlags]) [] s t) ∧
  (∀ s : State, s.taken = true → s.sup.running = true → s.seq.stuck = true → 1024 ≤ s.run rcFaultHigh →
    Does .faultRearm s fun t =>
      t.seq.stuck = false ∧ t.seq.armed = true ∧ t.rd Reg.faultState = 0 ∧ Creates 0x2307 s t ∧
      Frame (eventKeys ++ [Reg.faultState]) [] s t) ∧
  (∀ s : State, s.taken = true → s.sup.running = true → s.seq.stuck = false → s.seq.armed = false → 64 ≤ s.run rcFaultHigh →
    Does .faultRearm s fun t => t = { s with seq := { s.seq with armed := true } }) ∧
  (∀ s : State, s.taken = true → s.sup.running = true → (s.phase = .start ∨ s.phase = .guard ∨ s.phase = .pour) →
    s.pads.hostHold = true → s.pads.hostDrain = false → s.hostReady = true →
    Does .hostRstRelease s fun t => t = { s with pads := { s.pads with hostRst := false, hostHold := false } }) ∧
  (∀ (s : State) (n : Rail), s.taken = true → s.sup.running = true → s.phase = .rest → s.seq.alive = false →
    1024 ≤ s.run (rcAlive n) →
    Does (.railAliveInRest n) s fun t =>
      t.seq.alive = true ∧ t.bitOf Reg.seqFlags 7 = true ∧ Creates 0x2308 s t ∧
      Frame (eventKeys ++ [Reg.seqFlags]) [] s t)

/-- SEAT_QUALIFY outside rest and without a finding, SEAT_RELEASE where it is no trigger: the seat state and the feed's state.
SOFT_START_BEGIN, SOFT_START_DONE, BACKFEED_BLOCK, OV_BLOCK and BLOCK_EXIT: the feed's next state, what is counted and
flagged. Where the rules leave it open the model chooses: log entries 8, 20, 85. -/
def Obligations.FeedsSeatStartAndBlock : Prop :=
  (∀ (s : State) (f : Feed), s.feedsRun = true → (s.hrd (Reg.seatState f.val)).testBit 2 = false →
    s.hrd (Reg.seatQual f.val) ≤ s.run (rcSeat f.val) → s.feedSt f.val = Fs.unseated → s.damageNew f.val = false → s.phase ≠ .rest →
    Does (.seatQualify f) s fun t =>
      t.hrd (Reg.seatState f.val) = fit (Reg.seatState f.val) (s.hrd (Reg.seatState f.val) + 4) ∧
      (t.feedSt f.val = Fs.seated ∨ t.feedSt f.val = Fs.on) ∧ (s.hrd (Reg.feedEn f.val) = 0 → t.feedSt f.val = Fs.seated) ∧
      Frame [] (feedHv f.val ++ [Reg.seatState f.val, Reg.busLatch]) s t) ∧
  (∀ (s : State) (f : Feed), s.feedsRun = true → (s.hrd (Reg.seatState f.val)).testBit 2 = false →
    s.hrd (Reg.seatQual f.val) ≤ s.run (rcSeat f.val) → s.damageNew f.val = true → s.phase ≠ .rest →
    Does (.seatQualify f) s fun t =>
      t.feedSt f.val = Fs.damaged ∧ t.hrd (Reg.damage f.val) = fit (Reg.damage f.val) (s.damageNext f.val) ∧
      t.hrd (Reg.seatState f.val) = fit (Reg.seatState f.val) (s.hrd (Reg.seatState f.val) + 4) ∧
      ((s.feedX f.val).wasLatched = true → t.hrd Reg.busLatch = 0) ∧
      Frame [] [Reg.damage f.val, Reg.feedState 0, Reg.feedState 1, Reg.feedWait 0, Reg.feedWait 1, Reg.seatState f.val,
        Reg.busLatch, Reg.holdupBarred] s t) ∧
  (∀ (s : State) (f : Feed), s.feedsRun = true → (s.hrd (Reg.seatState f.val)).testBit 2 = true →
    s.hrd (Reg.seatRel f.val) ≤ s.run (rcRel f.val) → s.feedSt f.val ≠ Fs.damaged → s.hrd Reg.seatPour = 0 → s.sup.running = true →
    Does (.seatRelease f) s fun t =>
      t.feedSt f.val = Fs.unseated ∧
      Reports [.count (Reg.seatReleases f.val) 1, .flag (Reg.feedFlags f.val) 1, .event 0x2002 f.val 0 0 0] s t ∧
      Frame [] (feedHv f.val ++ [Reg.seatState f.val]) s t) ∧
  (∀ (s : State) (f : Feed), s.feedsRun = true → s.feedSt f.val = Fs.seated → s.ssAllowed f.val = true →
    s.feedHigh f.val = true → s.checking f.val = false → (f.val = 0 ∨ s.feedSt 0 ≠ Fs.seated) → s.sup.running = true →
    Does (.softStartBegin f) s fun t =>
      t.feedSt f.val = Fs.softStart ∧ (t.feedX f.val).ssFrom = s.tick ∧ Reports [.count (Reg.softStarts f.val) 1] s t ∧
      Frame [] (feedHv f.val) s t) ∧
  (∀ (s : State) (f : Feed), s.feedSt f.val = Fs.softStart → 8 ≤ s.run (rcSs f.val) →
    Does (.softStartDone f) s fun t => t.feedSt f.val = Fs.on ∧ Frame [] (feedHv f.val) s t) ∧
  (∀ (s : State) (f : Feed) (a b : Nat) (x : Int), s.feedSt f.val = Fs.on → (a + 100 < b ∨ x < -1000) → s.sup.running = true →
    Does (.backfeedBlock f a b x) s fun t =>
      t.feedSt f.val = Fs.blocked ∧
      Reports [.count (Reg.backfeedBlocks f.val) 1, .flag (Reg.feedFlags f.val) 2,
        .event 0x2003 f.val 0 (s.feedMv f.val) s.smp.vbus] s t ∧
      Frame [] (feedHv f.val) s t) ∧
  (∀ (s : State) (f : Feed) (mv us : Nat), s.feedSt f.val = Fs.on → s.hrd (Reg.feedOv f.val) < mv → 10 ≤ us → s.sup.running = true →
    Does (.ovBlock f mv us) s fun t =>
      t.feedSt f.val = Fs.blocked ∧
      Reports [.count (Reg.ovEvents f.val) 1, .flag (Reg.feedFlags f.val) 3, .event 0x2004 f.val 0 mv 0] s t ∧
      Frame [] (feedHv f.val) s t) ∧
  (∀ (s : State) (f : Feed), s.feedSt f.val = Fs.blocked →
    (if (s.feedX f.val).blockOv = true then 1024 ≤ s.run (rcOvOk f.val) else 8 ≤ s.run (rcBack f.val)) → s.pads.b4 = false →
    s.hrd (Reg.feedUv f.val) ≤ s.feedMv f.val →
    Does (.blockExit f) s fun t =>
      t.feedSt f.val = (if s.feedHigh f.val = false then Fs.on else if s.ssAllowed f.val = true then Fs.softStart else Fs.seated) ∧
      Frame [] (feedHv f.val) s t)

/-- The five trips of a feed while the other one is ON: the feed latches, the trip is recorded with its cause and reported. A
trip while the status stream is lost is taken as mains loss. FET_TEMP_STEP with the HV die's temperature as reference: the
model's new temperature, and the trip at FET_TMAX. Where the rules leave it open the model chooses: log entries 8, 9, 20, 21,
24, 84. -/
def Obligations.FeedsTripAndLatch : Prop :=
  (∀ (s : State) (f : Feed), s.sup.running = true → s.bar.lost = false → s.feedSt (1 - f.val) = Fs.on →
    s.feedSt f.val = Fs.softStart → 2 * s.hrd (Reg.ssTime f.val) ≤ s.tick - (s.feedX f.val).ssFrom →
    Does (.softStartTimeout f) s fun t =>
      Trips f.val 4 0 s t ∧ t.hrd Reg.busLatch = 1 ∧ Frame [] (tripHv f.val) s t) ∧
  (∀ (s : State) (f : Feed) (uv : Nat), s.sup.running = true → s.bar.lost = false → s.feedSt (1 - f.val) = Fs.on →
    s.feedSt f.val = Fs.on → s.hrd (Reg.fastTrip f.val) * 1000 ≤ uv →
    Does (.fastTrip f uv) s fun t => Trips f.val 1 0 s t ∧ Frame [] (tripHv f.val) s t) ∧
  (∀ (s : State) (f : Feed) (uv : Nat), s.pourReady = true → s.bar.lost = true → s.feedSt (1 - f.val) = Fs.on →
    s.feedSt f.val = Fs.on → s.hrd (Reg.fastTrip f.val) * 1000 ≤ uv →
    Does (.fastTrip f uv) s fun t =>
      t.feedSt f.val = Fs.latched ∧ t.hrd (Reg.tripCause f.val) = 1 ∧ t.phase = .pour ∧ t.rd Reg.pourCause = 1 ∧
      t.pads.b4 = true ∧ Frame pourKeys (pourHv ++ tripHv f.val) s t) ∧
  (∀ (s : State) (f : Feed) (ma us k : Nat), s.sup.running = true → s.bar.lost = false → s.feedSt (1 - f.val) = Fs.on → s.feedSt f.val = Fs.on →
    tripAt (s.hrd (Reg.itCurve f.val)) 8 ma us (s.feedX f.val).timers = some k →
    Does (.itTrip f ma us) s fun t => Trips f.val 2 k s t ∧ Frame [] (tripHv f.val) s t) ∧
  (∀ (s : State) (f : Feed) (ma us : Nat), tripAt (s.hrd (Reg.itCurve f.val)) 8 ma us (s.feedX f.val).timers = none →
    Does (.itTrip f ma us) s fun t =>
      (t.feedX f.val).timers = stepTimers (s.hrd (Reg.itCurve f.val)) 8 ma us (s.feedX f.val).timers ∧ Frame [] [] s t) ∧
  (∀ (s : State) (f : Feed) (mv us : Nat), s.sup.running = true → s.bar.lost = false → s.feedSt (1 - f.val) = Fs.on →
    s.feedSt f.val = Fs.on → (s.feedX f.val).drop = 0 → mv < 7000 → 20 ≤ us →
    Does (.gateDriveTrip f mv us) s fun t => Trips f.val 5 0 s t ∧ Frame [] (tripHv f.val) s t) ∧
  (∀ (s : State) (f : Feed) (mv us : Nat), s.feedSt f.val = Fs.on → (s.feedX f.val).drop ≠ 0 →
    Does (.gateDriveTrip f mv us) s fun t => t = s) ∧
  (∀ (s : State) (f : Feed) (T : Int), s.hrd (Reg.fetTempSrc f.val) = 0 →
    T = s.smp.hvTemp + poleStep (s.feedX f.val).rise (s.fetPower f.val) (s.hrd (Reg.fetRth f.val)) (s.hrd (Reg.fetTau f.val))
      / riseUnit →
    T < s.hrdI (Reg.fetTwarn f.val) → T < s.hrdI (Reg.fetTmax f.val) → -32768 ≤ T → T ≤ 32767 →
    Does (.fetTempStep f) s fun t =>
      t.hrdI (Reg.fetTemp f.val) = T ∧ t.feedSt f.val = s.feedSt f.val ∧ Frame [] [Reg.fetTemp f.val] s t) ∧
  (∀ (s : State) (f : Feed) (T : Int), s.hrd (Reg.fetTempSrc f.val) = 0 →
    T = s.smp.hvTemp + poleStep (s.feedX f.val).rise (s.fetPower f.val) (s.hrd (Reg.fetRth f.val)) (s.hrd (Reg.fetTau f.val))
      / riseUnit →
    T < s.hrdI (Reg.fetTwarn f.val) → s.hrdI (Reg.fetTmax f.val) ≤ T → s.sup.running = true → s.bar.lost = false →
    s.feedSt (1 - f.val) = Fs.on → s.feedSt f.val = Fs.on →
    Does (.fetTempStep f) s fun t =>
      Trips f.val 3 0 s t ∧ Frame [] (Reg.fetTemp f.val :: tripHv f.val) s t) ∧
  (∀ (s : State) (f : Feed) (T : Int), s.hrd (Reg.fetTempSrc f.val) = 0 →
    T = s.smp.hvTemp + poleStep (s.feedX f.val).rise (s.fetPower f.val) (s.hrd (Reg.fetRth f.val)) (s.hrd (Reg.fetTau f.val))
      / riseUnit →
    s.hrdI (Reg.fetTwarn f.val) ≤ T → s.hrdI (Reg.fetTmax f.val) ≤ T → s.sup.running = true → s.bar.lost = false →
    s.feedSt (1 - f.val) = Fs.on → s.feedSt f.val = Fs.on →
    Does (.fetTempStep f) s fun t =>
      t.feedSt f.val = Fs.latched ∧ t.hrd (Reg.tripCause f.val) = 3 ∧ t.bar.b2 = true ∧
      (∃ l, t.bar.reports = s.bar.reports ++ [(s.clk.hvTic, .flag (Reg.feedFlags f.val) 7 :: l),
        (s.clk.hvTic, [.stamp (Reg.tripStamp f.val), .count (Reg.tripsTemp f.val) 1, .flag (Reg.feedFlags f.val) 0,
          .event 0x2001 f.val 3 (ofSigned 4 (s.feedMa f.val)) 0])]) ∧
      Frame [] (Reg.fetTemp f.val :: tripHv f.val) s t)

/-- FET_DAMAGE_FINDING, FET_CHECK_START in both outcomes and FET_CHECK_END. SHARE_FAULT, and VBUS_SAG_DECLARED in rest, where its
trigger is only logged. Where the rules leave it open the model chooses: log entries 8, 20, 85. -/
def Obligations.FetsAreCheckedAndSagIsDeclared : Prop :=
  (∀ (s : State) (f : Feed), s.feedsRun = true → s.testable f.val = true →
    (s.feedSt f.val ≠ Fs.unseated ∨ s.positive f.val 2 = true) → s.damageNew f.val = true → s.sup.running = true →
    Does (.fetDamageFinding f) s fun t =>
      t.feedSt f.val = Fs.damaged ∧ t.hrd (Reg.damage f.val) = fit (Reg.damage f.val) (s.damageNext f.val) ∧
      t.feedSt (1 - f.val) ≠ Fs.on ∧ t.bus.check = none ∧
      Reports [.count (Reg.damageFindings f.val) ([1, 2, 3].filter (fun t => s.positive f.val t)).length,
        .flag (Reg.feedFlags f.val) 4, .event 0x2005 f.val (s.damageNext f.val) (s.damageTest f.val) 0] s t ∧
      Frame []
        [Reg.damage f.val, Reg.feedState 0, Reg.feedState 1, Reg.feedWait 0, Reg.feedWait 1, Reg.holdupBarred] s t) ∧
  (∀ s : State, s.sup.main = true → dueCycle s.clk.hvCyc (s.hrd Reg.fetCheckPeriod / 1024) 0 = true →
    s.clk.hvTic = windowTick 16384 s.clk.shift → s.bus.checkCyc ≠ s.clk.hvCyc + 1 → s.bus.check = none →
    s.bitOf Reg.idleHold 0 = false → s.phase = .guard → s.feedSt 0 = Fs.on → s.feedSt 1 = Fs.on → s.bus.nextCheck < 2 →
    s.smp.iA + s.smp.iB ≤ (s.hrd (Reg.feedRated (1 - s.bus.nextCheck)) : Int) →
    Does .fetCheckStart s fun t =>
      t.bus.check = some (s.bus.nextCheck, s.tick) ∧ t.feedSt s.bus.nextCheck = Fs.seated ∧
      t.bus.nextCheck = 1 - s.bus.nextCheck ∧ Frame [] (feedHv s.bus.nextCheck) s t) ∧
  (∀ s : State, (s.hrd (Reg.feedRated (1 - s.bus.nextCheck)) : Int) < s.smp.iA + s.smp.iB →
    Does .fetCheckStart s fun t => t = s) ∧
  (∀ (s : State) (f at_ : Nat), s.bus.check = some (f, at_) → f < 2 → 2048 ≤ s.tick - at_ →
    Does .fetCheckEnd s fun t =>
      t.bus.check = none ∧ (t.feedSt f = s.feedSt f ∨ t.feedSt f = Fs.on) ∧ Frame [] (feedHv f) s t) ∧
  (∀ s : State, 64 ≤ s.run rcShare → s.sup.running = true →
    Does .shareFault s fun t =>
      t.run rcShare = 0 ∧
      Reports [.flag (Reg.feedFlags 0) 6, .flag (Reg.feedFlags 1) 6,
        .event 0x2007 0xFF 0 (ofSigned 4 (s.hrdI Reg.shareErr)) 0] s t ∧
      Frame [] [] s t) ∧
  (∀ s : State, s.bus.everOn = true → s.pads.b4 = false → (s.hrd Reg.sagRun ≤ s.run rcSag ∨ s.hrd Reg.sagRun ≤ s.run rcSagHu) →
    s.sup.running = true → s.taken = true → s.phase = .rest →
    Does .vbusSagDeclared s fun t =>
      t.bar.b2 = true ∧ t.run rcSag = 0 ∧ t.run rcSagHu = 0 ∧ t.phase = .rest ∧
      Reports [.count Reg.sagCount 1, .event 0x2009 0xFF 0 s.smp.vbus (s.hrd Reg.vbusAvg)] s t ∧ Frame eventKeys [] s t)

/-- TAP_SCAN in the power side's run: what it reports, a late one reports only, a usable one is taken. TARGET_COMPLETE,
CHARGER_DONE and CHARGER_FAULT. Where the rules leave it open the model chooses: log entries 8, 20, 87. -/
def Obligations.TapScansAndTheCharger : Prop :=
  (∀ (s : State) (taps : List Nat) (stack l1 l2 : Nat), s.sup.main = true → s.lad.scanned = true →
    Does (.tapScan taps stack l1 l2) s fun t =>
      t.hrd Reg.stackV = fit Reg.stackV stack ∧ t.lad = { s.lad with lt1 := t.lad.lt1, lt2 := t.lad.lt2 } ∧
      Frame (Reg.ladleFlags :: eventKeys)
        (s.cellList.map Reg.cellV ++ [Reg.stackV, Reg.tapSum, Reg.sumErr, Reg.ltemp1T, Reg.ltemp2T, Reg.ladleTemp]) s t) ∧
  (∀ (s : State) (taps : List Nat) (stack l1 l2 : Nat), s.sup.main = true → s.lad.scanned = false →
    inWindow s.clk.hvTic 10240 16383 s.clk.shift = true → s.bitOf Reg.idleHold 1 = false →
    Does (.tapScan taps stack l1 l2) s fun t =>
      t.lad.v = s.cellList.map (fun n => ((taps.getD n 0 : Nat) : Int) - (taps.getD (n - 1) 0 : Nat)) ∧
      t.lad.sum = t.lad.v.sum ∧ t.lad.stack = stack ∧ t.lad.scanned = true ∧ t.lad.missed = 0 ∧
      (s.sup.running = true → (s.hrd Reg.ltempFitted).testBit 0 = true → (ntcValidTemp l1 (s.hrd Reg.ltempBeta)).isNone = true →
        s.lad.lt1 ≠ some false → t.bitOf Reg.ladleFlags 6 = true) ∧ SameStores s t) ∧
  (∀ s : State, s.lad.pendingTarget = true → 2 ≤ s.lad.targetRun →
    Does .targetComplete s fun t =>
      t.lad.pendingTarget = false ∧ t.bitOf Reg.ladleFlags 1 = true ∧
      Frame (eventKeys ++ [Reg.ladleFlags, Reg.targetState]) [] s t) ∧
  (∀ s : State, s.hrd Reg.chgState = Cs.cv → 64 ≤ s.lad.termRun →
    Does .chargerDone s fun t => t.hrd Reg.chgState = Cs.done ∧ t.lad.termRun = 0 ∧ Frame [] [Reg.chgState] s t) ∧
  (∀ s : State, s.bitOf Reg.ladleFault 4 = false → (8 ≤ s.lad.limRun ∨ 64 ≤ s.lad.lowRun) →
    Does .chargerFault s fun t =>
      t.bitOf Reg.ladleFault 4 = true ∧ Counts Reg.chgFaults s t ∧
      (s.phase = .start → s.rd Reg.startStep = Step.charge → t.rd Reg.startStep = Step.stopped ∧ t.rd Reg.startStop = 3) ∧
      Frame (eventKeys ++ [Reg.chgFaults, Reg.ladleFault, Reg.startStep, Reg.startStop]) [Reg.chgStop] s t)

/-- CAP_TEST_START, CAP_TEST_END and CAP_TEST_DEFER. ESR_PULSE run and skipped, TAP_RESPONSE_TEST in guard and skipped,
DAMP_LEARN. Where the rules leave it open the model chooses: log entries 8, 20, 87. -/
def Obligations.LadleTestsMeasure : Prop :=
  (∀ (s : State) (d : Nat), s.capDueAt = some d → s.clk.hvTic = 0 → s.sup.main = true → s.phase = .guard → d ≤ s.clk.cyc →
    s.clk.cyc < d + 1024 → s.lad.draw = none → s.hrd Reg.chgState = Cs.done → s.anyOpen = false → s.hrd Reg.holdupBarred = 0 →
    s.hu = Hs.armed → s.bar.hbLost = false → s.sto.bounded = true → s.capNeed ≤ (s.sto.marginUj : Rat) →
    Does .capTestStart s fun t =>
      t.hu = Hs.test ∧ t.hux.test = 1 ∧ (t.lad.draw.map (·.1)) = some s.tick ∧
      t.lad.capFrom = some (d, false) ∧ Frame [] [Reg.huState, Reg.huOffWhy, Reg.huReady] s t) ∧
  (∀ (s : State) (at_ : Nat) (g : CapSeg), s.lad.draw = some (at_, g) → s.hu = Hs.test →
    (s.lad.stack + s.cells * s.hrd Reg.capDip ≤ g.stack ∨ s.hrd Reg.capTestMax ≤ s.tick - at_) →
    Does .capTestEnd s fun t =>
      t.hu = Hs.armed ∧ t.lad.draw = none ∧ t.lad.capAfter = some g ∧
      Frame [] [Reg.huState, Reg.huOffWhy, Reg.huReady] s t) ∧
  (∀ (s : State) (d : Nat), s.capDueAt = some d → d + 1024 ≤ s.clk.cyc →
    Does .capTestDefer s fun t =>
      Counts Reg.capDeferred s t ∧ t.lad.capFrom = some (d, false) ∧ Frame [Reg.capDeferred] [] s t) ∧
  (∀ (s : State) (b a : List Nat) (st0 st1 ma : Nat), s.sup.main = true → s.sup.running = true → s.lad.pulse = 3 →
    Does (.esrPulse b a st0 st1 ma) s fun t =>
      Counts Reg.esrPulses s t ∧ t.rd Reg.esrStack = fit Reg.esrStack ((st0 - st1) * 1000000 / max 1 ma) ∧
      t.rd Reg.esrStamp = fit Reg.esrStamp s.stamp ∧ t.lad.pulse = 0 ∧
      (within15 ma (s.hrd Reg.esrPulseI) = true → t.hux.passed = true) ∧
      Frame (eventKeys ++ [Reg.esrStack, Reg.esrStamp, Reg.esrPulses, Reg.ladleFault]
        ++ s.cellList.map Reg.cellEsr ++ s.cellList.map Reg.cellFaults) [Reg.huReady] s t) ∧
  (∀ (s : State) (b a : List Nat) (st0 st1 ma : Nat), s.lad.pulse ≠ 3 →
    Does (.esrPulse b a st0 st1 ma) s fun t => t = s) ∧
  (∀ (s : State) (resp : List Nat) (stack : Nat), s.n1Ended = true → s.lad.n1 = 1 → s.dampDue = false → s.rep.kind ≠ 3 →
    Does (.tapResponseTest resp stack) s fun t =>
      Counts Reg.owTests s t ∧ t.lad.n1 = 0 ∧
      (∀ k : Fin 13, k.val ≤ s.cells → s.verdict k (resp.getD k 0) = 2 → t.rd (Reg.tapState k) = 2) ∧
      Frame (eventKeys ++ [Reg.owTests, Reg.owFindings, Reg.ladleFlags, Reg.cEq, Reg.esrStack, Reg.estZero, Reg.ladleE,
        Reg.ladleAvail] ++ (stackTap :: s.tapList).map Reg.tapState ++ (stackTap :: s.tapList).map Reg.tapResp
        ++ s.cellList.map Reg.cellC ++ s.cellList.map Reg.cellTMeas ++ s.cellList.map Reg.cellEsr) [Reg.chgSetpoint] s t) ∧
  (∀ (s : State) (resp : List Nat) (stack : Nat), s.lad.n1 ≠ 1 →
    Does (.tapResponseTest resp stack) s fun t => t = s) ∧
  (∀ (s : State) (resp : List Nat) (stack : Nat), s.n1Ended = true → s.lad.n1 = 2 →
    Does (.dampLearn resp stack) s fun t =>
      Counts Reg.owTests s t ∧ t.lad.learn = false ∧ t.lad.n1 = 0 ∧ (t.rd Reg.dampLearn = 1 ∨ t.rd Reg.dampLearn = 2) ∧
      Frame (eventKeys ++ [Reg.dampLearn, Reg.owTests, Reg.owFindings, Reg.ladleFlags, Reg.cEq, Reg.esrStack, Reg.estZero,
        Reg.ladleE, Reg.ladleAvail] ++ (stackTap :: s.tapList).map Reg.tapState ++ (stackTap :: s.tapList).map Reg.tapResp
        ++ (stackTap :: s.tapList).map Reg.tapRef ++ s.cellList.map Reg.cellC ++ s.cellList.map Reg.cellTMeas
        ++ s.cellList.map Reg.cellEsr) [Reg.chgSetpoint] s t)

/-- HOLDUP_ARM, HOLDUP_TRIP by the curve and where it does not run, HU_SELF_TEST passed and failed, DROOP_FALLBACK. Where the
rules leave it open the model chooses: log entries 8, 20, 21, 88. -/
def Obligations.HoldupArmsTripsAndTests : Prop :=
  (∀ s : State, s.hu = Hs.off → s.sup.main = true → 8 ≤ s.run rcArm →
    Does .holdupArm s fun t =>
      t.hu = Hs.armed ∧ t.hrd Reg.huOffWhy = 0 ∧ Frame [] [Reg.huState, Reg.huOffWhy, Reg.huReady] s t) ∧
  (∀ (s : State) (ma us k : Nat), s.hu ≠ Hs.latched → s.hux.self ≠ 1 → s.hux.self ≠ 2 → s.sup.running = true →
    tripAt (s.hrd Reg.huItCurve) 4 ma us s.hux.timers = some k →
    Does (.holdupTrip ma us) s fun t =>
      t.hu = Hs.latched ∧ t.lad.draw = none ∧
      Reports [.stamp Reg.huTripStamp, .flag Reg.huFlags 1, .count Reg.huTripsIt 1,
        .event 0x2201 0xFF 1 (ofSigned 4 s.smp.huI) 0] s t ∧
      Frame [] [Reg.huState, Reg.huOffWhy, Reg.huReady, Reg.huTemp] s t) ∧
  (∀ (s : State) (ma us k : Nat), s.hu ≠ Hs.latched → (s.hux.self = 1 ∨ s.hux.self = 2) → s.sup.running = true →
    tripAt (s.hrd Reg.huItCurve) 4 ma us s.hux.timers = some k →
    Does (.holdupTrip ma us) s fun t =>
      t.hu = Hs.latched ∧ t.hux.self = 0 ∧
      (∃ l, t.bar.reports = s.bar.reports ++ [(s.clk.hvTic, l), (s.clk.hvTic, [.put Reg.huTestResult 4, .stamp Reg.huTestStamp,
        .flag Reg.huFlags 2, .count Reg.huTestFails 1, .event 0x2202 0xFF 4 0 0])]) ∧
      Frame [] [Reg.huState, Reg.huOffWhy, Reg.huReady, Reg.huTemp] s t) ∧
  (∀ (s : State) (ma us : Nat), s.hu = Hs.latched →
    Does (.holdupTrip ma us) s fun t =>
      t.hu = Hs.latched ∧ t.bar.reports = s.bar.reports ∧ t.hux.timers = stepTimers (s.hrd Reg.huItCurve) 4 ma us s.hux.timers ∧ Frame [] [Reg.huTemp] s t) ∧
  (∀ (s : State) (gate avg moved : Nat), s.sup.main = true → s.sup.running = true → s.hux.self = 3 → 8000 ≤ gate →
    within15 avg (s.hrd Reg.huTestI) = true → moved ≤ 1000 →
    Does (.huSelfTest gate true avg moved) s fun t =>
      t.hux.passed = true ∧ t.hux.self = 0 ∧ t.hu = s.hu ∧
      Reports [.put Reg.huTestResult 1, .stamp Reg.huTestStamp] s t ∧ Frame [] [Reg.huReady] s t) ∧
  (∀ (s : State) (gate avg moved : Nat) (vdrv : Bool), s.sup.main = true → s.sup.running = true → s.hux.self = 3 →
    (gate < 8000 ∨ vdrv = false) →
    Does (.huSelfTest gate vdrv avg moved) s fun t =>
      t.hu = Hs.latched ∧ t.hux.self = 0 ∧
      Reports [.put Reg.huTestResult 6, .stamp Reg.huTestStamp, .flag Reg.huFlags 2, .count Reg.huTestFails 1,
        .event 0x2202 0xFF 6 0 0] s t ∧
      Frame [] [Reg.huState, Reg.huOffWhy, Reg.huReady] s t) ∧
  (∀ (s : State) (pinned : Bool), s.hrd Reg.huGroup ≠ 0 → s.hux.droop = false →
    64 ≤ s.run (if pinned = true then rcPinned else rcShareHigh) →
    s.sup.running = true →
    Does (.droopFallback pinned) s fun t =>
      t.hux.droop = true ∧ t.hux.drive = none ∧ t.hrd Reg.huShareState = 2 ∧
      Reports [.flag Reg.huFlags 3, .count Reg.huShareFaults 1, .event 0x2203 0xFF 0 s.smp.share 0] s t ∧
      Frame [] [Reg.huShareState] s t)

/-- STATUS_FRAME_RX and STATUS_STREAM_LOST: a valid frame brings the HV die's readings and ends a loss, the fourth in a row
brings the barrier up; a bad one is counted; four ticks without one are a loss. HEARTBEAT_ARM, HEARTBEAT_LOST,
HEARTBEAT_RETURN: the HV die's watch over B5 and the charger it stops. COMMAND_FRAME_RX in order, out of order and damaged;
COMMAND_RESEND again and after the eighth sending. Where the rules leave it open the model chooses: log entries 8, 12, 13,
20, 65. -/
def Obligations.BarrierFramesCarryTheSides : Prop :=
  (∀ s : State, s.sup.main = true → s.sup.running = true → s.coldRead = false → s.bar.reports = [] →
    Does (.statusFrameRx true) s fun t =>
      (∀ k ∈ hvStatusKeys, t.rd k = fit k (s.hrd k)) ∧ t.bar.lost = false ∧ t.bar.seen = true ∧ t.bar.b1Gap = 0 ∧
      t.bar.b2 = false ∧ t.bar.hbReported = s.bar.hbLost ∧ (s.bar.b1Run = 3 → s.bar.b1Gap = 1 → t.bar.up = true) ∧
      (s.bar.up = true → t.bar.up = true) ∧
      Frame (hvStatusKeys ++ eventKeys ++ [Reg.barrierCrcErrs, Reg.hbLosses, Reg.barrierState, Reg.estZero, Reg.ladleE,
        Reg.ladleAvail]) [] s t) ∧
  (∀ (s : State) (tic a b c d n i v : Nat), s.sup.main = true → s.sup.running = true → s.coldRead = false →
    s.bar.reports = [(tic, [.stamp a, .count b n, .flag c i, .put d v])] → [a, b, c, d].Nodup →
    (∀ k ∈ [a, b, c, d], k ∉ hvStatusKeys ++ eventKeys ++ [Reg.barrierCrcErrs, Reg.hbLosses, Reg.barrierState, Reg.estZero,
      Reg.ladleE, Reg.ladleAvail]) →
    Does (.statusFrameRx true) s fun t =>
      t.bar.reports = [] ∧
      t.rd a = fit a ((if s.clk.tic < tic then s.clk.count - 1 else s.clk.count).toNat * 65536 + tic % 1024 * 64) ∧
      t.rd b = fit b (s.rd b + n) ∧ t.rd c = fit c (s.rd c ||| 2 ^ i) ∧ t.rd d = fit d v ∧ t.clk.tic = s.clk.tic ∧
      t.clk.count = s.clk.count) ∧
  (∀ s : State, s.sup.main = true → s.sup.running = true → s.coldRead = false →
    Does (.statusFrameRx false) s fun t =>
      t.bar.b1Run = 0 ∧ t.bar.lost = s.bar.lost ∧ Counts Reg.barrierCrcErrs s t ∧ Frame [Reg.barrierCrcErrs] [] s t) ∧
  (∀ s : State, s.sup.running = true → s.sup.main = true → s.coldRead = false → s.bar.lost = false → 4 ≤ s.bar.b1Gap →
    Does .statusStreamLost s fun t =>
      t.bar.lost = true ∧ t.bar.b1Run = 0 ∧ Counts Reg.barrierLosses s t ∧ t.rd Reg.barrierState = 2 ∧
      Frame (eventKeys ++ [Reg.barrierLosses, Reg.barrierState, Reg.estZero, Reg.ladleE, Reg.ladleAvail]) [] s t) ∧
  (∀ s : State, s.sup.main = true → s.bar.hbArmed = false → s.sup.running = true → s.bar.halted = false →
    Does .heartbeatArm s fun t => t = { s with bar := { s.bar with hbArmed := true, hbGap := 0 } }) ∧
  (∀ s : State, s.sup.main = true → s.bar.hbArmed = true → s.bar.hbLost = false → 4 ≤ s.bar.hbGap →
    Does .heartbeatLost s fun t =>
      t.bar.hbLost = true ∧ t.bar.hbLen = 0 ∧ (t.hrd Reg.chgStop).testBit 3 = true ∧ Frame [] [Reg.chgStop] s t) ∧
  (∀ s : State, s.sup.main = true → s.bar.hbArmed = true → s.bar.hbLost = true → s.sup.running = true → s.bar.halted = false →
    Does .heartbeatReturn s fun t =>
      t.bar.hbLost = false ∧ t.bar.episode = some s.bar.hbLen ∧ (t.hrd Reg.chgStop).testBit 3 = false ∧
      Frame [] [Reg.chgStop] s t) ∧
  (∀ (s : State) (f : CmdFrame), s.sup.main = true → s.bar.unapplied.find? (fun g => g.seq = s.bar.hvSeq + 1) = some f →
    f.share = false →
    Does (.commandFrameRx true (s.bar.hvSeq + 1)) s fun t =>
      t.bar.hvSeq = s.bar.hvSeq + 1 ∧ t.bar.hvDiscards = s.bar.hvDiscards ∧
      (∀ k v, f.sets = [(k, v)] → k ∉ frameHv → k ∉ [Reg.fetDmgClear 0, Reg.fetDmgClear 1, Reg.huClear] → t.hrd k = fit k v) ∧
      Frame [] (f.sets.map (·.1) ++ frameHv) s t) ∧
  (∀ (s : State) (f : CmdFrame), s.sup.main = true → s.bar.unapplied.find? (fun g => g.seq = s.bar.hvSeq + 1) = some f →
    f.share = true → f.sets = s.hvSettings →
    Does (.commandFrameRx true (s.bar.hvSeq + 1)) s fun t =>
      t.bar.hvSeq = s.bar.hvSeq + 1 ∧ t.bar.hvConfigured = true ∧ t.lad.vcmd = max (t.rd Reg.targetEff * 1000) s.meanUv ∧
      (s.inv = true → ∀ k, hvShare k = true → isSetting k = true → t.hrd k = s.rd k) ∧
      (∀ k, k ∉ [Reg.targetEff, Reg.targetState] → t.rd k = s.rd k) ∧ SameStores s t) ∧
  (∀ (s : State) (f : Feed), s.sup.main = true → s.feedsRun = true → s.feedSt f.val = Fs.latched →
    s.hrd (Reg.feedEn f.val) = 0 →
    s.bar.unapplied = [{ seq := s.bar.hvSeq + 1, sets := [(Reg.feedEn f.val, 1)] }] →
    Does (.commandFrameRx true (s.bar.hvSeq + 1)) s fun t =>
      t.feedSt f.val = Fs.seated ∧ t.hrd Reg.busLatch = 0 ∧ t.hrd (Reg.feedEn f.val) = 1) ∧
  (∀ (s : State) (f : Feed), s.sup.main = true → s.feedsRun = true →
    (s.feedSt f.val = Fs.on ∨ s.feedSt f.val = Fs.softStart ∨ s.feedSt f.val = Fs.blocked) →
    s.bar.unapplied = [{ seq := s.bar.hvSeq + 1, sets := [(Reg.feedEn f.val, 0)] }] →
    Does (.commandFrameRx true (s.bar.hvSeq + 1)) s fun t =>
      t.feedSt f.val = Fs.seated ∧ t.hrd (Reg.feedEn f.val) = 0 ∧
      Frame [] [Reg.feedEn f.val, Reg.feedState f.val, Reg.feedWait 0, Reg.feedWait 1] s t) ∧
  (∀ (s : State) (f : Feed), s.sup.main = true → s.feedSt f.val = Fs.damaged →
    s.bar.unapplied = [{ seq := s.bar.hvSeq + 1, sets := [(Reg.fetDmgClear f.val, 1)] }] →
    Does (.commandFrameRx true (s.bar.hvSeq + 1)) s fun t =>
      t.feedSt f.val = Fs.seated ∧ t.hrd (Reg.damage f.val) = 0 ∧
      Frame [] [Reg.damage f.val, Reg.feedState f.val, Reg.feedWait 0, Reg.feedWait 1, Reg.holdupBarred] s t) ∧
  (∀ (s : State) (v : Nat), s.sup.main = true → s.bar.unapplied = [{ seq := s.bar.hvSeq + 1, sets := [(Reg.huClear, v)] }] →
    Does (.commandFrameRx true (s.bar.hvSeq + 1)) s fun t =>
      (s.hu = Hs.latched → t.hu = Hs.off) ∧ (s.hu ≠ Hs.latched → t.hu = s.hu) ∧ t.hux.droop = false ∧
      Frame [] [Reg.huState, Reg.huOffWhy, Reg.huReady] s t) ∧
  (∀ (s : State) (ok : Bool) (n : BitVec 16), s.sup.main = true →
    (ok = false ∨ n ≠ s.bar.hvSeq + 1 ∨ s.bar.unapplied.find? (fun g => g.seq = n) = none) →
    Does (.commandFrameRx ok n) s fun t => t = { s with bar := { s.bar with hvDiscards := s.bar.hvDiscards + 1 } }) ∧
  (∀ s : State, s.sup.running = true → s.sup.main = true → 2 ≤ s.bar.stall → (∀ f ∈ s.bar.unapplied, f.sends < 8) →
    Does .commandResend s fun t =>
      t.rd Reg.cmdResends = fit Reg.cmdResends (s.rd Reg.cmdResends + s.bar.unapplied.length) ∧ t.bar.stall = 0 ∧ t.bar.unapplied.map (·.seq) = s.bar.unapplied.map (·.seq) ∧ Frame [Reg.cmdResends] [] s t) ∧
  (∀ (s : State) (f : CmdFrame), s.sup.running = true → s.sup.main = true → s.bar.up = true → 2 ≤ s.bar.stall →
    f ∈ s.bar.unapplied → 8 ≤ f.sends → s.bar.pathLost = false → s.bar.lost = false →
    Does .commandResend s fun t =>
      t.bar.pathLost = true ∧ Counts Reg.cmdPathLosses s t ∧ t.rd Reg.barrierState = 4 ∧
      t.rd Reg.cmdResends = fit Reg.cmdResends (s.rd Reg.cmdResends + (s.bar.unapplied.filter (fun g => g.sends < 8)).length) ∧
      t.rd Reg.ladleE = 0 ∧
      Frame (eventKeys ++ [Reg.cmdPathLosses, Reg.cmdResends, Reg.barrierState, Reg.estZero, Reg.ladleE, Reg.ladleAvail]) [] s t)

/-- ON_SLOT with every earlier rail running, and without; RAIL_GOOD; RAIL_FAIL_UP. Where the rules leave it open the model
chooses: log entries 8, 37, 92. -/
def Obligations.RailsRiseInTheirSlots : Prop :=
  (∀ (s : State) (n : Rail) (t0 : Nat), s.seq.onStart = some t0 → s.taken = true → s.sup.running = true → s.phase = .start →
    s.rd Reg.startStep = Step.onSlots → s.rd Reg.seqState = 1 → s.rd (Reg.railMode n) = 1 →
    (s.rd (Reg.railState n) = 1 ∨ s.rd (Reg.railState n) = 2) → s.rd (Reg.onSlot n) ≤ s.tick - t0 → s.earlierUp n = true →
    s.seq.early.testBit n = false →
    Does (.onSlot n) s fun t =>
      t.rd (Reg.railState n) = 3 ∧ t.bitOf Reg.railsOn n = true ∧ t.bitOf Reg.railsGood n = false ∧ Counts (Reg.onCount n) s t ∧
      tget 0 t.seq.riseAt n = s.tick ∧ tget 0 t.pads.en n = enOnLevel (s.rd (Reg.enDrive n)) ∧
      Frame [Reg.onCount n, Reg.railState n, Reg.railsGood, Reg.railsOn] [] s t) ∧
  (∀ (s : State) (n : Rail) (t0 : Nat), s.seq.onStart = some t0 → s.taken = true → s.sup.running = true → s.phase = .start →
    s.rd Reg.startStep = Step.onSlots → s.rd Reg.seqState = 1 → s.rd (Reg.railMode n) = 1 →
    (s.rd (Reg.railState n) = 1 ∨ s.rd (Reg.railState n) = 2) → s.rd (Reg.onSlot n) ≤ s.tick - t0 → s.earlierUp n = false →
    Does (.onSlot n) s fun t =>
      t.rd (Reg.railState n) = 2 ∧ t.pads = s.pads ∧ Frame [Reg.railState n, Reg.railsGood] [] s t) ∧
  (∀ (s : State) (n : Rail), s.taken = true → s.sup.running = true → s.rd (Reg.railState n) = 3 →
    s.rd (Reg.goodFilter n) ≤ s.run (rcGood n) →
    Does (.railGood n) s fun t =>
      t.rd (Reg.railState n) = 4 ∧ t.bitOf Reg.railsGood n = true ∧ tget 0 t.seq.runAt n = s.tick ∧
      t.rd (Reg.riseLast n) = fit (Reg.riseLast n) (s.tick - tget 0 s.seq.riseAt n) ∧
      Frame [Reg.railState n, Reg.railsGood, Reg.riseLast n, Reg.riseMax n, Reg.startStep, Reg.seqState] [] s t) ∧
  (∀ (s : State) (n : Rail), s.taken = true → s.sup.running = true → s.phase = .start → s.rd Reg.startStep = Step.onSlots →
    (s.rd Reg.seqState = 1 ∨ s.rd Reg.seqState = 3) → s.rd (Reg.railState n) = 3 → s.rd (Reg.railMode n) = 1 →
    s.rd (Reg.onTimeout n) ≤ s.tick - tget 0 s.seq.riseAt n → s.padIsOff n = false →
    Does (.railFailUp n) s fun t =>
      t.rd (Reg.railState n) = 7 ∧ t.rd (Reg.faultCause n) = 4 ∧ t.rd Reg.failedRail = n ∧ t.rd Reg.seqState = 3 ∧
      t.bitOf Reg.railsOn n = false ∧ t.seq.waiting = s.seq.waiting ||| 2 ^ n.val ∧ t.bitOf Reg.seqFlags 1 = true ∧
      t.bitOf (Reg.railFlags n) 3 = true ∧ Counts (Reg.failUp n) s t ∧
      t.rd (Reg.lastFault n) = fit (Reg.lastFault n) s.stamp ∧
      Frame (eventKeys ++ [Reg.failUp n, Reg.failedRail, Reg.faultCause n, Reg.lastFault n, Reg.railFlags n, Reg.seqFlags,
        Reg.seqState, Reg.railsOn, Reg.railsGood, Reg.faultOutCount, Reg.faultRelayTx] ++ allRails.map Reg.railState) [] s t)

/-- RUNNING_RAIL_FAULT without and with the pour trigger of RAIL_ACTION, RAIL_WARNING, RF_GRACE_EXPIRY. OFF_START with rails
still to turn off, OFF_SLOT, RAIL_FALLEN and OFF_WAIT_EXPIRY outside a pour and a reverse shutdown. Where the rules leave
it open the model chooses: log entries 8, 37. -/
def Obligations.RailsFaultAndFall : Prop :=
  (∀ (s : State) (n : Rail), s.taken = true → s.sup.running = true → s.rd (Reg.railState n) = 4 → s.runFault n = 1 →
    s.rd Reg.seqState ≠ 5 → s.bitOf (Reg.railAction n) 0 = false →
    Does (.runningRailFault n) s fun t =>
      t.rd (Reg.railState n) = (if s.bitOf (Reg.railAction n) 3 = true then 6 else 5) ∧ t.rd (Reg.faultCause n) = 1 ∧
      Counts (Reg.runUv n) s t ∧ t.rd (Reg.lastFault n) = fit (Reg.lastFault n) s.stamp ∧ t.bitOf Reg.seqFlags 0 = true ∧
      t.bitOf (Reg.railFlags n) 2 = true ∧ t.bitOf Reg.railsGood n = false ∧ t.phase = s.phase ∧
      Frame (eventKeys ++ [Reg.railState n, Reg.runUv n, Reg.faultCause n, Reg.lastFault n, Reg.railFlags n, Reg.seqFlags,
        Reg.railsOn, Reg.railsGood, Reg.faultOutCount, Reg.faultRelayTx]) [] s t) ∧
  (∀ (s : State) (n : Rail), s.pourReady = true → s.rd (Reg.railState n) = 4 → s.runFault n = 2 → s.rd Reg.seqState ≠ 5 →
    s.bitOf (Reg.railAction n) 0 = true → s.bitOf (Reg.railAction n) 1 = false → s.bitOf (Reg.railAction n) 3 = false →
    s.seq.rfAt = none →
    Does (.runningRailFault n) s fun t =>
      t.rd (Reg.railState n) = 5 ∧ t.rd (Reg.faultCause n) = 2 ∧ Counts (Reg.runOv n) s t ∧ t.seq.rfAt = some s.tick ∧
      Counts Reg.rfTriggers s t ∧
      Accepts 4 [Reg.railState n, Reg.runOv n, Reg.faultCause n, Reg.lastFault n, Reg.railFlags n, Reg.seqFlags, Reg.rfTriggers]
        s t) ∧
  (∀ (s : State) (n : Rail), s.taken = true → s.sup.running = true → s.rd (Reg.railState n) = 4 →
    s.seq.warnUv.testBit n = false → s.rd (Reg.warnFilter n) ≤ s.run (rcWarnUv n) →
    Does (.railWarning n) s fun t =>
      t.seq.warnUv.testBit n = true ∧ t.bitOf Reg.seqFlags 2 = true ∧ t.bitOf (Reg.railFlags n) 0 = true ∧
      Counts (Reg.warnUv n) s t ∧ Creates 0x2303 s t ∧
      Frame (eventKeys ++ [Reg.railFlags n, Reg.seqFlags, Reg.warnUv n]) [] s t) ∧
  (∀ (s : State) (t0 : Nat), s.seq.rfAt = some t0 → s.phase = .pour → s.seq.offRel = none → s.rd Reg.rfGrace ≤ s.tick - t0 →
    Does .rfGraceExpiry s fun t =>
      t.seq.offRel = some s.tick ∧ t.bitOf Reg.seqFlags 8 = true ∧ Counts Reg.rfForced s t ∧
      Frame (eventKeys ++ [Reg.rfForced, Reg.seqFlags]) [] s t) ∧
  (∀ (s : State) (t0 : Nat) (n : Rail), s.seq.offRel = some t0 → s.phase = .pour → s.seq.offStart = none → s.clk.tic = 0 →
    t0 < s.tick → s.bitOf Reg.railsOn n = true → s.rd (Reg.railState n) = 4 →
    Does .offStart s fun t =>
      t.seq.offStart = some s.tick ∧ t.rd Reg.seqState = 5 ∧ t.rd Reg.offStartStamp = fit Reg.offStartStamp s.stamp ∧
      t.phase = .pour ∧ (∀ m, t.rd (Reg.railState m) ≠ 2 ∨ 8 ≤ m) ∧
      Frame ([Reg.seqState, Reg.offStartStamp, Reg.railsGood] ++ allRails.map Reg.railState) [] s t) ∧
  (∀ (s : State) (n : Rail) (t0 : Nat), s.seq.offStart = some t0 → s.phase = .pour → s.rd Reg.seqState = 5 →
    s.offLeft.contains n.val = true → s.rd (Reg.offSlot n) ≤ s.tick - t0 → s.earlierDown n = true →
    Does (.offSlot n) s fun t =>
      t.rd (Reg.railState n) = 6 ∧ t.bitOf Reg.railsOn n = false ∧ t.bitOf Reg.railsGood n = false ∧
      tget 0 t.seq.fallAt n = s.tick ∧ t.phase = .pour ∧ Frame [Reg.railState n, Reg.railsGood, Reg.railsOn] [] s t) ∧
  (∀ (s : State) (n : Rail), s.taken = true → s.sup.running = true → s.rd (Reg.railState n) = 6 →
    s.fallRun n ≤ s.run (rcFallen n) → s.phase ≠ .pour → s.rd Reg.seqState ≠ 3 →
    Does (.railFallen n) s fun t =>
      t.rd (Reg.railState n) = 1 ∧ t.bitOf Reg.railsGood n = false ∧ Frame [Reg.railState n, Reg.railsGood] [] s t) ∧
  (∀ (s : State) (n : Rail), s.taken = true → s.sup.running = true → s.rd (Reg.railState n) = 6 →
    s.rd (Reg.offWaitMax n) ≤ s.tick - tget 0 s.seq.fallAt n → s.phase ≠ .pour → s.rd Reg.seqState ≠ 3 →
    Does (.offWaitExpiry n) s fun t =>
      t.rd (Reg.railState n) = 1 ∧ t.bitOf Reg.seqFlags 4 = true ∧ Counts (Reg.slowFall n) s t ∧
      t.bitOf (Reg.railFlags n) 5 = true ∧
      Frame (eventKeys ++ [Reg.railState n, Reg.railsGood, Reg.seqFlags, Reg.slowFall n, Reg.railFlags n]) [] s t)

/-- SYMBOL_LOCK; LOCK_LOSS outside ACTIVE, and in ACTIVE on a lane of the width, where a fast retrain follows.
TRAINING_SET_RX: a valid TS1 in DETECT and in ALIGN, in ACTIVE, an inverted one, one of role keeper, and one with a code
error. Where the rules leave it open the model chooses: log entries 8, 26, 50. -/
def Obligations.TrainingSetsAreTaken : Prop :=
  (∀ (s : State) (p : Lane), s.rd Reg.linkState ≠ Ls.disabled → s.rd Reg.linkState ≠ Ls.banked → s.laneOn p = true →
    (s.lane p).locked = false →
    Does (.symbolLock p) s fun t =>
      (t.lane p).locked = true ∧ t.bitOf (Reg.laneStatus p) 0 = true ∧ Frame [Reg.laneStatus p] [] s t) ∧
  (∀ (s : State) (p : Lane), (s.lane p).locked = true → s.wasActive = false →
    Does (.lockLoss p) s fun t =>
      (t.lane p).locked = false ∧ t.bitOf (Reg.laneStatus p) 0 = false ∧ Counts (Reg.lockLosses p) s t ∧
      Frame [Reg.laneStatus p, Reg.lockLosses p] [] s t) ∧
  (∀ (s : State) (p : Lane), (s.lane p).locked = true → s.rd Reg.linkState = Ls.active → s.laneIn p = true → s.dropped = false →
    Does (.lockLoss p) s fun t =>
      (t.lane p).locked = false ∧ Counts (Reg.lockLosses p) s t ∧ Counts Reg.fastRetrains s t ∧ t.phy.fast = true ∧
      LinkDrops 1 Ls.eq s t ∧ (∀ q : Lane, t.bitOf (Reg.laneStatus q) 3 = false) ∧
      Frame (downKeys ++ [Reg.lockLosses p, Reg.fastRetrains] ++ allLanes.map Reg.laneStatus) [] s t) ∧
  (∀ (s : State) (p : Lane) (b : List Byte) (n : Nat) (early : Bool), s.laneOn p = true → (s.lane p).locked = true → b.length = 16 →
    b.getD 1 0 = 0x4A → setInRange (b.map (·.toNat)) = true → b.getD 9 0 = 2 → s.rd Reg.linkState = Ls.detect →
    Does (.trainingSetRx p b ⟨true, n, early⟩) s fun t =>
      t.rd Reg.linkState = Ls.align ∧ (t.lane p).num = some (b.getD 2 0).toNat ∧ t.phy.reqRate = (b.getD 5 0).toNat ∧
      t.phy.reqWidth = (b.getD 6 0).toNat ∧ t.rd Reg.partnerRates = (b.getD 3 0).toNat % 32 ∧
      Frame [Reg.linkState, Reg.partnerRates, Reg.partnerWidths, Reg.partnerBank] [] s t) ∧
  (∀ (s : State) (p : Lane) (b : List Byte) (n : Nat) (early : Bool), s.laneOn p = true → (s.lane p).locked = true → b.length = 16 →
    b.getD 1 0 = 0x4A → setInRange (b.map (·.toNat)) = true → b.getD 9 0 = 2 → (b.getD 7 0).getLsbD 0 = true →
    s.rd Reg.linkState = Ls.align →
    Does (.trainingSetRx p b ⟨true, n, early⟩) s fun t =>
      t.rd Reg.linkState = Ls.align ∧ (t.lane p).acked = (s.lane p).acked + 1 ∧ (t.lane p).ackSeen = true ∧
      ((s.lane p).ackSeen = true → (t.lane p).sinceAck = (s.lane p).sinceAck + n) ∧
      (t.lane p).num = some (b.getD 2 0).toNat ∧ (t.lane p).sent = (s.lane p).sent + n ∧
      (n ≠ 0 → (t.lane p).set = s.ownSet p ((s.lane p).sent + n - 1)) ∧
      Frame [Reg.partnerRates, Reg.partnerWidths, Reg.partnerBank, Reg.txReversed, Reg.phyFlags] [] s t) ∧
  (∀ (s : State) (p : Lane) (b : List Byte) (n : Nat) (early : Bool), s.laneOn p = true → (s.lane p).locked = true → b.length = 16 →
    b.getD 1 0 = 0x4A → setInRange (b.map (·.toNat)) = true → b.getD 9 0 = 2 → s.rd Reg.linkState = Ls.active → s.dropped = false →
    Does (.trainingSetRx p b ⟨true, n, early⟩) s fun t =>
      LinkDrops 4 Ls.eq s t ∧ Counts Reg.fastRetrains s t ∧
      Frame (downKeys ++ [Reg.fastRetrains] ++ allLanes.map Reg.laneStatus) [] s t) ∧
  (∀ (s : State) (p : Lane) (b : List Byte) (n : Nat) (early : Bool), s.laneOn p = true → (s.lane p).locked = true → (s.lane p).inverted = false →
    b.length = 16 → b.getD 1 0 = 0xB5 → s.rd Reg.linkState = Ls.align →
    Does (.trainingSetRx p b ⟨true, n, early⟩) s fun t =>
      (t.lane p).inverted = true ∧ (t.lane p).acked = 0 ∧ t.bitOf (Reg.laneStatus p) 2 = true ∧ t.bitOf Reg.phyFlags 2 = true ∧
      Creates 0x3003 s t ∧ Frame (eventKeys ++ [Reg.laneStatus p, Reg.phyFlags]) [] s t) ∧
  (∀ (s : State) (p : Lane) (b : List Byte) (n : Nat) (early : Bool), s.laneOn p = true → (s.lane p).locked = true → b.length = 16 →
    b.getD 1 0 = 0x4A → setInRange (b.map (·.toNat)) = true → b.getD 9 0 = 1 → s.rd Reg.linkState = Ls.align →
    Does (.trainingSetRx p b ⟨true, n, early⟩) s fun t =>
      t.phy.role = true ∧ t.rd Reg.linkState = Ls.align ∧ Counts Reg.phyViolations s t ∧ Violates 0 Vc.phy s t ∧
      Frame (violKeys 0 ++ [Reg.phyViolations, Reg.phyFlags]) [] s t) ∧
  (∀ (s : State) (p : Lane) (b : List Byte) (n : Nat) (early : Bool), s.laneOn p = true → s.rd Reg.linkState = Ls.confirm →
    Does (.trainingSetRx p b ⟨false, n, early⟩) s fun t => (t.lane p).acked = 0 ∧ (t.lane p).ts2 = 0 ∧ Frame [] [] s t) ∧
  (∀ (s : State) (p : Lane) (b : List Byte) (n : Nat) (early : Bool), s.laneOn p = true → (s.lane p).locked = true → b.length = 16 →
    b.getD 1 0 = 0x45 → setInRange (b.map (·.toNat)) = true → b.getD 9 0 = 2 → s.rd Reg.linkState = Ls.confirm →
    (b.getD 5 0).toNat = s.phy.rate → (b.getD 6 0).toNat = s.phy.width →
    Does (.trainingSetRx p b ⟨true, n, early⟩) s fun t =>
      (t.lane p).ts2 = (s.lane p).ts2 + 1 ∧ (t.lane p).gotTs2 = (s.lane p).gotTs2 + 1 ∧
      ((s.lane p).gotTs2 ≠ 0 → s.sends p = true → (t.lane p).sinceTs2 = (s.lane p).sinceTs2 + n) ∧
      Frame [Reg.partnerRates, Reg.partnerWidths, Reg.partnerBank] [] s t) ∧
  (∀ (s : State) (p : Lane) (b : List Byte) (clean : Bool) (n : Nat), s.laneOn p = true → s.rd Reg.linkState = Ls.rateChange →
    Does (.trainingSetRx p b ⟨clean, n, true⟩) s fun t =>
      t.rd Reg.linkState = Ls.rateChange ∧ Counts Reg.phyViolations s t ∧ Violates 0 Vc.phy s t ∧
      Frame (violKeys 0 ++ [Reg.phyViolations]) [] s t)

/-- ALIGN_COMPLETE and ALIGN_TIMEOUT, RATE_IDLE_EXPIRY, EQ_DONE in table mode. CONFIRM_COMPLETE enters ACTIVE and begins a
session; CONFIRM_TIMEOUT falls back, fails, or goes on to a full training. Where the rules leave it open the model
chooses: log entries 8, 25, 27, 29, 50. -/
def Obligations.TrainingPassesThroughItsStates : Prop :=
  (∀ (s : State) (r w : Nat), s.rd Reg.linkState = Ls.align → s.bestRate 4 = some r → s.bestWidth = some w →
    s.phy.role = false → (List.range w).all (fun l => (s.physOf l).all s.laneAligned) = true → s.misfits = [] →
    Does .alignComplete s fun t =>
      t.rd Reg.linkState = Ls.rateChange ∧ t.phy.rate = agreed r s.phy.reqRate ∧ t.phy.width = agreed w s.phy.reqWidth ∧
      Frame (eventKeys ++ [Reg.linkState, Reg.rxReversed, Reg.phyFlags] ++ allLanes.map Reg.laneLogical
        ++ allLanes.map Reg.laneStatus) [] s t) ∧
  (∀ s : State, s.rd Reg.linkState = Ls.align → s.misfits = [] →
    Does .alignTimeout s fun t =>
      t.rd Reg.linkState = Ls.detect ∧ t.phy.rate = 0 ∧ (∀ p : Lane, (t.lane p).locked = false ∧ (t.lane p).num = none) ∧ t.rd Reg.txReversed = 0 ∧ t.rd Reg.rxReversed = 0 ∧
      (∀ p : Lane, t.rd (Reg.laneLogical p) = 0xFF ∧ t.rd (Reg.laneStatus p) = 0) ∧ Frame detectKeys [] s t) ∧
  (∀ s : State, s.rd Reg.linkState = Ls.align → s.misfits ≠ [] →
    Does .alignTimeout s fun t =>
      t.rd Reg.linkState = Ls.detect ∧ t.bitOf Reg.phyFlags 4 = true ∧
      Frame (violKeys 0 ++ detectKeys ++ [Reg.phyViolations, Reg.phyFlags]) [] s t) ∧
  (∀ s : State, s.rd Reg.linkState = Ls.rateChange →
    Does .rateIdleExpiry s fun t => t.rd Reg.linkState = Ls.eq ∧ Frame [Reg.linkState] [] s t) ∧
  (∀ (s : State) (c : List Nat) (l : List (List Nat)), s.rd Reg.linkState = Ls.eq → s.rd Reg.eqMode = 0 →
    Does (.eqDone c l) s fun t =>
      t.rd Reg.linkState = Ls.confirm ∧
      (∀ p : Lane, s.laneIn p = true → t.rd (Reg.ctleNow p) = fit (Reg.ctleNow p) ((s.laneProfile p).getD 2 0)) ∧
      Frame ([Reg.linkState] ++ allLanes.map Reg.ctleNow ++ allLanes.map Reg.dfeTaps) [] s t) ∧
  (∀ (s : State) (skew : List Nat) (us : BitVec 32), s.rd Reg.linkState = Ls.confirm →
    (allLanes.filter s.laneIn).all (fun p => 16 ≤ (s.lane p).ts2 && 16 ≤ (s.lane p).sinceTs2 && decide (skew.getD p 0 ≤ 16)) = true →
    Does (.confirmComplete skew us) s fun t =>
      t.rd Reg.linkState = Ls.active ∧ t.rd Reg.linkUp = 1 ∧ t.rd Reg.linkUpStamp = fit Reg.linkUpStamp s.stamp ∧
      t.rd Reg.rateNow = fit Reg.rateNow s.phy.rate ∧ t.rd Reg.widthNow = fit Reg.widthNow s.phy.width ∧
      t.rd Reg.trainTime = us.toNat ∧ Counts Reg.trainings s t ∧ Counts Reg.session s t ∧ t.rd Reg.llState = 1 ∧
      t.rd Reg.rxExpected = 0 ∧ t.rd Reg.txOldestSeq = 0 ∧ (∀ st : Stream, t.rd (Reg.limit st) = 0 ∧ t.rd (Reg.rxunits st) = 0) ∧
      Frame (eventKeys ++ sendKeys ++ [Reg.linkState, Reg.linkUp, Reg.linkUpStamp, Reg.rateNow, Reg.widthNow, Reg.trainTime,
        Reg.trainings, Reg.session, Reg.llState, Reg.rxExpected, Reg.txOldestSeq, Reg.svcReport, Reg.svcReportCmd, Reg.svcReports,
        Reg.svcSummary] ++ allStreams.map Reg.limit ++ allStreams.map Reg.rxunits
        ++ allLanes.flatMap (fun p => [Reg.laneSkew p, Reg.laneStatus p, Reg.eyeCmd p])) [] s t) ∧
  (∀ s : State, s.rd Reg.linkState = Ls.confirm → s.phy.fast = true → s.dropped = false →
    Does .confirmTimeout s fun t =>
      LinkDrops 8 Ls.detect s t ∧ Counts Reg.fullRetrains s t ∧ t.phy.fast = false ∧
      Frame (downKeys ++ detectKeys ++ [Reg.fullRetrains]) [] s t) ∧
  (∀ (s : State) (r w f : Nat), s.rd Reg.linkState = Ls.confirm → s.phy.fast = false → s.fallback = some (r, w, f) →
    Does .confirmTimeout s fun t =>
      t.rd Reg.linkState = Ls.rateChange ∧ t.phy.rate = r ∧ t.phy.width = w ∧ Counts Reg.rateFallbacks s t ∧
      t.bitOf Reg.phyFlags f = true ∧
      Frame ([Reg.linkState, Reg.rateFallbacks, Reg.phyFlags, Reg.svcReport, Reg.svcReportCmd, Reg.svcReports, Reg.svcSummary]
        ++ allLanes.flatMap (fun p => [Reg.laneLogical p, Reg.laneStatus p, Reg.eyeCmd p])) [] s t) ∧
  (∀ s : State, s.rd Reg.linkState = Ls.confirm → s.phy.fast = false → s.fallback = none →
    Does .confirmTimeout s fun t =>
      t.rd Reg.linkState = Ls.detect ∧ Counts Reg.trainFails s t ∧ Frame (detectKeys ++ [Reg.trainFails]) [] s t)

/-- Idle and banked: IDLE_ENTRY, IDLE_EXIT, EIOS_RX, RX_IDLE_EXIT, IDLE_EXIT_LOCK_TIMEOUT, BANK_START, BNK_RX, BANK_NO_ANSWER,
BANK_REFUSAL_RX, BANK_WAKE, WAKE_COMPLETE, WAKE_FAIL. Where the rules leave it open the model chooses: log entries 8, 25, 28. -/
def Obligations.LinkIdlesBanksAndWakes : Prop :=
  (∀ s : State, s.rd Reg.linkState = Ls.active → s.rd Reg.txIdle = 0 → s.somethingToSend = false →
    Does .idleEntry s fun t => t.rd Reg.txIdle = 1 ∧ Counts Reg.idleEntries s t ∧ Frame [Reg.txIdle, Reg.idleEntries] [] s t) ∧
  (∀ s : State, s.rd Reg.linkState = Ls.active → s.rd Reg.txIdle = 1 → s.somethingToSend = true →
    Does .idleExit s fun t => t.rd Reg.txIdle = 0 ∧ t.ll.acksDue = [] ∧ Frame (Reg.txIdle :: sendKeys) [] s t) ∧
  (∀ s : State, s.rd Reg.linkState = Ls.active →
    Does .eiosRx s fun t => t.rd Reg.rxIdle = 1 ∧ Frame [Reg.rxIdle] [] s t) ∧
  (∀ s : State, s.rd Reg.linkState = Ls.active → s.rd Reg.rxIdle = 1 →
    Does .rxIdleExit s fun t => t.rd Reg.rxIdle = 0 ∧ Frame [Reg.rxIdle] [] s t) ∧
  (∀ (s : State) (p : Lane), s.rd Reg.linkState = Ls.active → s.laneIn p = true → s.rd Reg.rxIdle = 0 → s.dropped = false →
    Does (.idleExitLockTimeout p) s fun t =>
      (t.lane p).locked = false ∧ LinkDrops 9 Ls.eq s t ∧ Counts Reg.fastRetrains s t ∧
      Frame (downKeys ++ [Reg.fastRetrains] ++ allLanes.map Reg.laneStatus) [] s t) ∧
  (∀ s : State, s.rd Reg.linkState = Ls.active → s.rd Reg.txIdle = 1 → s.rd Reg.rxIdle = 1 → s.bankOk = true →
    s.somethingToSend = false →
    Does .bankStart s fun t =>
      t.rd Reg.linkState = Ls.banking ∧ t.phy.bnkOut = true ∧ t.phy.bnkIn = false ∧ Frame [Reg.linkState] [] s t) ∧
  (∀ s : State, (s.rd Reg.linkState = Ls.banking ∨ (s.rd Reg.linkState = Ls.active ∧ s.bankOk = true)) →
    Does .bnkRx s fun t =>
      t.rd Reg.linkState = Ls.banked ∧ Counts Reg.bankEntries s t ∧ Frame [Reg.linkState, Reg.bankEntries] [] s t) ∧
  (∀ s : State, s.rd Reg.linkState = Ls.active → s.phy.bankSent = false →
    Does .bnkRx s fun t =>
      t.rd Reg.linkState = Ls.active ∧ Counts Reg.phyViolations s t ∧ Violates 0 Vc.phy s t ∧
      Frame (violKeys 0 ++ [Reg.phyViolations]) [] s t) ∧
  (∀ s : State, s.rd Reg.linkState = Ls.banking →
    Does .bankNoAnswer s fun t => t.rd Reg.linkState = Ls.active ∧ t.phy.bnkOut = false ∧ Frame [Reg.linkState] [] s t) ∧
  (∀ (s : State) (e : Bool), s.rd Reg.linkState = Ls.banking →
    Does (.bankRefusalRx e) s fun t =>
      t.rd Reg.linkState = Ls.active ∧ t.rd Reg.rxIdle = (if e then 1 else 0) ∧ Frame [Reg.linkState, Reg.rxIdle] [] s t) ∧
  (∀ (s : State) (sig : Bool), s.rd Reg.linkState = Ls.banked → (sig = true ∨ s.pads.b4 = true ∨ s.somethingToSend = true) →
    Does (.bankWake sig) s fun t => t.rd Reg.linkState = Ls.waking ∧ Frame [Reg.linkState] [] s t) ∧
  (∀ s : State, s.rd Reg.linkState = Ls.waking →
    Does .wakeComplete s fun t =>
      t.rd Reg.linkState = Ls.active ∧ t.rd Reg.txIdle = 0 ∧ t.rd Reg.rxIdle = 0 ∧
      Frame (sendKeys ++ [Reg.linkState, Reg.txIdle, Reg.rxIdle]) [] s t) ∧
  (∀ s : State, s.rd Reg.linkState = Ls.waking → s.dropped = false →
    Does .wakeFail s fun t =>
      LinkDrops 7 Ls.detect s t ∧ Counts Reg.bankWakeFails s t ∧ t.bitOf Reg.phyFlags 7 = true ∧ Counts Reg.fullRetrains s t ∧
      Frame (downKeys ++ detectKeys ++ [Reg.bankWakeFails, Reg.phyFlags, Reg.fullRetrains]) [] s t)

/-- CODE_ERROR_RETRAIN, DESKEW_LOSS, SILENCE_TIMEOUT, REFCLK_FAULT, REFCLK_GOOD, DFE_TAP_AT_LIMIT. Where the rules leave it
open the model chooses: log entries 8, 25. -/
def Obligations.FaultsRetrainTheLink : Prop :=
  (∀ (s : State) (n : Nat), s.rd Reg.linkState = Ls.active → s.dropped = false → s.rd Reg.errRetrain ≤ n →
    Does (.codeErrorRetrain n) s fun t =>
      LinkDrops 2 Ls.eq s t ∧ Counts Reg.fastRetrains s t ∧
      Frame (downKeys ++ [Reg.fastRetrains] ++ allLanes.map Reg.laneStatus) [] s t) ∧
  (∀ (s : State) (p : Lane), s.rd Reg.linkState = Ls.active → s.laneIn p = true → s.rd (Reg.laneLogical p) ≠ 0 →
    s.dropped = false →
    Does (.deskewLoss p) s fun t =>
      LinkDrops 3 Ls.eq s t ∧ Counts Reg.fastRetrains s t ∧
      Frame (downKeys ++ [Reg.fastRetrains] ++ allLanes.map Reg.laneStatus) [] s t) ∧
  (∀ s : State, s.rd Reg.linkState = Ls.active → s.rd Reg.rxIdle = 0 → s.dropped = false →
    Does .silenceTimeout s fun t =>
      LinkDrops 10 Ls.detect s t ∧ Counts Reg.fullRetrains s t ∧
      Frame (downKeys ++ detectKeys ++ [Reg.fullRetrains]) [] s t) ∧
  (∀ s : State, s.sup.running = true → s.taken = true → s.phy.refBad = false → s.rd Reg.linkState ≠ Ls.disabled → s.dropped = false →
    Does .refclkFault s fun t =>
      t.phy.refBad = true ∧ t.bitOf Reg.phyFlags 5 = true ∧ LinkDrops 12 Ls.disabled s t ∧
      Frame (downKeys ++ [Reg.phyFlags] ++ allLanes.map Reg.laneLogical ++ allLanes.map Reg.laneStatus) [] s t) ∧
  (∀ s : State, s.sup.running = true → s.phy.refBad = true → s.rd Reg.linkState ≠ Ls.disabled →
    Does .refclkGood s fun t => t.phy.refBad = false ∧ Creates 0x3005 s t ∧ Frame eventKeys [] s t) ∧
  (∀ s : State, s.sup.running = true → s.phy.refBad = true → s.rd Reg.linkState = Ls.disabled → s.taken = true →
    s.phase = .guard → s.bitOf Reg.idleHold 7 = false → s.bitOf Reg.idleHold 8 = false →
    Does .refclkGood s fun t =>
      t.phy.refBad = false ∧ t.rd Reg.linkState = Ls.detect ∧ Frame (eventKeys ++ detectKeys) [] s t) ∧
  (∀ (s : State) (p : Lane) (tap : Fin 5) (low : Bool), s.rd Reg.linkState = Ls.active → s.rd Reg.eqMode = 1 →
    s.laneIn p = true →
    Does (.dfeTapAtLimit p tap low) s fun t =>
      t.bitOf Reg.phyFlags 6 = true ∧ t.phy.tapLogged = true ∧ t.rd Reg.linkState = Ls.active ∧
      Frame (eventKeys ++ [Reg.dfeTaps p, Reg.phyFlags]) [] s t)

/-- EYE_STEP begun, and waiting for the link, EYE_STEP_END of a step and of the last one. Where the rules leave it open the model chooses:
log entries 8, 28. -/
def Obligations.EyeScansStep : Prop :=
  (∀ (s : State) (p : Lane), (s.scanOf p).running = true → (s.scanOf p).counting = false → (s.scanOf p).from_ ≤ s.tick →
    s.clk.tic = windowTick 49152 s.clk.shift → s.rd Reg.linkUp = 1 → s.laneIn p = true →
    Does (.eyeStep p) s fun t => (t.scanOf p).counting = true ∧ (t.scanOf p).done = (s.scanOf p).done ∧ Frame [] [] s t) ∧
  (∀ (s : State) (p : Lane), (s.rd Reg.linkUp ≠ 1 ∨ s.laneIn p = false) → Does (.eyeStep p) s fun t => t = s) ∧
  (∀ (s : State) (p : Lane) (errs : BitVec 32), (s.scanOf p).counting = true →
    (s.scanOf p).done.length + 1 < (s.scanOf p).points.length →
    Does (.eyeStepEnd p errs) s fun t =>
      (t.scanOf p).done = (s.scanOf p).done ++ [errs.toNat] ∧ (t.scanOf p).counting = false ∧
      t.rd (Reg.eyeDone p) = fit (Reg.eyeDone p) ((s.scanOf p).done.length + 1) ∧
      t.rd (Reg.eyeStamp p) = fit (Reg.eyeStamp p) s.stamp ∧ Frame [Reg.eyeDone p, Reg.eyeStamp p] [] s t) ∧
  (∀ (s : State) (p : Lane) (errs : BitVec 32), (s.scanOf p).counting = true →
    (s.scanOf p).points.length ≤ (s.scanOf p).done.length + 1 → s.rep.kind ≠ 4 →
    Does (.eyeStepEnd p errs) s fun t =>
      (t.scanOf p).running = false ∧ t.rd (Reg.eyeCmd p) = 2 ∧
      t.rd (Reg.eyeWidth p) = fit (Reg.eyeWidth p) (t.scanOf p).dims.1 ∧
      t.rd (Reg.eyeHeight p) = fit (Reg.eyeHeight p) (t.scanOf p).dims.2 ∧
      Frame [Reg.eyeDone p, Reg.eyeStamp p, Reg.eyeWidth p, Reg.eyeHeight p, Reg.eyeCmd p] [] s t)

/-- FRAME_RX: a sequenced frame in order, a duplicate, one out of order, one with a bad CRC, one that ends by ABT, one with a
framing error. Where the rules leave it open the model chooses: log entries 43, 71, 93. -/
def Obligations.FramesAreCheckedInOrder : Prop :=
  (∀ (s : State) (b : List Byte) (l : List Nat) (ty seqw flags len : Nat) (p : List Nat), s.sessionUp = true →
    l = b.map (·.toNat) → 12 ≤ l.length → l.length ≤ 65568 →
    crc32 (l.take (l.length - 4)) = field l (l.length - 4) 4 → ty = l.getD 0 0 → seqw = field l 1 2 → flags = l.getD 3 0 →
    len = field l 4 4 → p = (l.take (l.length - 4)).drop 8 → hostType ty = true → (ty = 0x20 → s.ctrlWaiting < 8) → len = p.length →
    lenFits ty p = true → rsvBad ty seqw flags p = false → seqw % 4096 = s.rd Reg.rxExpected →
    Does (.frameRx b 0) s fun t =>
      t.rd Reg.rxExpected = (s.rd Reg.rxExpected + 1) % 4096 ∧ Counts Reg.framesRx s t ∧
      t.ll.rxq = s.ll.rxq ++ [{ ty := ty, stream := seqw / 4096 % 8, payload := p, session := s.rd Reg.session }] ∧
      t.ll.nakSent = false ∧
      Frame [Reg.rxExpected, Reg.framesRx] [] s t) ∧
  (∀ (s : State) (b : List Byte) (l : List Nat) (d : Nat), s.sessionUp = true → l = b.map (·.toNat) → 12 ≤ l.length →
    l.length ≤ 65568 → crc32 (l.take (l.length - 4)) = field l (l.length - 4) 4 → l.getD 0 0 ≠ 1 → l.getD 0 0 ≠ 2 →
    d = (s.rd Reg.rxExpected + 4096 - field l 1 2 % 4096) % 4096 → 1 ≤ d → d ≤ 2048 →
    Does (.frameRx b 0) s fun t =>
      Counts Reg.dupsDropped s t ∧ Counts Reg.framesRx s t ∧ 
      (s.rd Reg.txIdle = 0 → t.ll.lastAck = some (1, (s.rd Reg.rxExpected + 4095) % 4096, 0)) ∧
      (s.rd Reg.txIdle ≠ 0 → (1, 0) ∈ t.ll.acksDue) ∧ t.ll.uncovered = 0 ∧ t.ll.rxq = s.ll.rxq ∧
      Frame [Reg.framesRx, Reg.dupsDropped] [] s t) ∧
  (∀ (s : State) (b : List Byte) (l : List Nat) (d : Nat), s.sessionUp = true → l = b.map (·.toNat) → 12 ≤ l.length →
    l.length ≤ 65568 → crc32 (l.take (l.length - 4)) = field l (l.length - 4) 4 → l.getD 0 0 ≠ 1 → l.getD 0 0 ≠ 2 →
    d = (s.rd Reg.rxExpected + 4096 - field l 1 2 % 4096) % 4096 → 2048 < d → s.ll.nakSent = false →
    Does (.frameRx b 0) s fun t =>
      Counts Reg.naksSent s t ∧ 
      (s.rd Reg.txIdle = 0 → t.ll.lastAck = some (2, (s.rd Reg.rxExpected + 4095) % 4096, 2)) ∧
      (s.rd Reg.txIdle ≠ 0 → (2, 2) ∈ t.ll.acksDue) ∧ t.ll.nakSent = true ∧ t.ll.uncovered = s.ll.uncovered ∧ t.ll.rxq = s.ll.rxq ∧
      Frame [Reg.framesRx, Reg.naksSent] [] s t) ∧
  (∀ (s : State) (b : List Byte) (l : List Nat), s.sessionUp = true → l = b.map (·.toNat) → 12 ≤ l.length →
    l.length ≤ 65568 → crc32 (l.take (l.length - 4)) ≠ field l (l.length - 4) 4 → s.ll.nakSent = false →
    Does (.frameRx b 0) s fun t =>
      Counts Reg.crcErrs s t ∧ Counts Reg.llViolations s t ∧ Violates 0 Vc.crc s t ∧ t.ll.nakSent = true ∧
      t.rd Reg.rxExpected = s.rd Reg.rxExpected ∧ Frame (violKeys 0 ++ [Reg.crcErrs, Reg.naksSent]) [] s t) ∧
  (∀ (s : State) (b : List Byte), s.sessionUp = true → Does (.frameRx b 1) s fun t => t = s) ∧
  (∀ (s : State) (b : List Byte), s.sessionUp = true →
    Does (.frameRx b 2) s fun t =>
      Counts Reg.framingErrs s t ∧ Violates 0 Vc.framing s t ∧ t.ll.nakSent = true ∧
      Frame (violKeys 0 ++ [Reg.framingErrs, Reg.naksSent]) [] s t)

/-- ACK_TIMER, ACK_RX valid and not, NAK_RX, REPLAY_TIMEOUT with a replay and with the retrain after too many. Where the rules
leave it open the model chooses: log entries 8, 43, 93. -/
def Obligations.FramesAreAcknowledgedAndReplayed : Prop :=
  (∀ (s : State) (a : Nat), s.sessionUp = true → s.ll.uncovered ≠ 0 → s.rd Reg.txIdle = 0 → a = (s.rd Reg.rxExpected + 4095) % 4096 →
    Does .ackTimer s fun t =>
      t = { s with ll := { s.ll with
                           lastAck := some (1, a, 0), wire := frameBytes 1 0 0 (leBytes 2 a ++ [0, 0]), uncovered := 0 } }) ∧
  (∀ s : State, s.sessionUp = true → s.ll.uncovered ≠ 0 → s.rd Reg.txIdle ≠ 0 →
    Does .ackTimer s fun t =>
      (1, 0) ∈ t.ll.acksDue ∧ t.ll.uncovered = 0 ∧ t.ll.lastAck = s.ll.lastAck ∧ Frame [] [] s t) ∧
  (∀ (s u : State) (f : RxFrame) (a : Nat), s.takeAny (fun g => g.ty = 1) = some (f, u) → a = field f.payload 0 2 % 4096 →
    s.ackValid a = true → s.ll.retry ≠ [] → (a + 1 + 4096 - s.rd Reg.txOldestSeq) % 4096 ≠ 0 →
    Does .ackRx s fun t =>
      t.rd Reg.txOldestSeq = (a + 1) % 4096 ∧ t.ll.replayRun = 0 ∧ t.ll.rxq = u.ll.rxq ∧
      Frame (sendKeys ++ [Reg.txOldestSeq, Reg.shakeReleased, Reg.shakeState] ++ allStreams.map Reg.shakePos
        ++ allStreams.map Reg.streamOpen) [] s t) ∧
  (∀ (s u : State) (f : RxFrame), s.takeAny (fun g => g.ty = 1) = some (f, u) →
    s.ackValid (field f.payload 0 2 % 4096) = false →
    Does .ackRx s fun t =>
      Violates 0 Vc.ackseq s t ∧ Counts Reg.llViolations s t ∧ t.rd Reg.txOldestSeq = s.rd Reg.txOldestSeq ∧
      Frame (violKeys 0) [] s t) ∧
  (∀ (s u : State) (f : RxFrame) (a : Nat), s.takeAny (fun g => g.ty = 2) = some (f, u) → a = field f.payload 0 2 % 4096 →
    s.ackValid a = true → (a + 1 + 4096 - s.rd Reg.txOldestSeq) % 4096 = 0 → s.ll.retry ≠ [] → s.ll.replaying = false →
    s.ll.replayRun < s.rd Reg.replayLimit →
    Does .nakRx s fun t =>
      Counts Reg.naksRx s t ∧ Counts Reg.replays s t ∧ t.ll.replaying = true ∧ t.ll.retry = s.ll.retry ∧
      t.ll.resent = s.ll.retry.map (fun e => e.2.bytes e.1 true) ∧ t.bitOf Reg.llFlags 0 = true ∧ Frame [Reg.naksRx, Reg.replays, Reg.llFlags] [] s t) ∧
  (∀ s : State, s.sessionUp = true → s.ll.retry ≠ [] → s.ll.replaying = false → s.ll.replayRun < s.rd Reg.replayLimit →
    Does .replayTimeout s fun t =>
      Counts Reg.replays s t ∧ t.ll.replaying = true ∧ t.ll.replayRun = s.ll.replayRun + 1 ∧ t.bitOf Reg.llFlags 0 = true ∧
      t.ll.resent = s.ll.retry.map (fun e => e.2.bytes e.1 true) ∧
      Frame [Reg.replays, Reg.llFlags] [] s t) ∧
  (∀ s : State, s.sessionUp = true → s.ll.retry ≠ [] → s.ll.replaying = false → s.rd Reg.replayLimit ≤ s.ll.replayRun →
    s.dropped = false →
    Does .replayTimeout s fun t =>
      Counts Reg.replayRetrains s t ∧ t.bitOf Reg.llFlags 1 = true ∧ LinkDrops 5 Ls.eq s t ∧ Counts Reg.fastRetrains s t ∧
      Frame (downKeys ++ [Reg.replayRetrains, Reg.fastRetrains] ++ allLanes.map Reg.laneStatus) [] s t)

/-- DATA_RX accepted, repeated, without credit, and accepted in a session that has ended meanwhile; CLOSE_RX accepted. Where the rules leave it open the model chooses: log
entries 8, 43. -/
def Obligations.RecordsAreAcceptedAndRefused : Prop :=
  (∀ (s u : State) (f : RxFrame) (r : Rec), s.takeRx (fun g => g.ty = 0x10) = some (f, u) → r = f.record → f.session = s.rd Reg.session →
    r.slots ≤ s.outOf r.stream → s.rd Reg.llState = 2 → s.ll.expect.testBit r.stream = true →
    r.seq = s.rd (Reg.nextRec r.stream) → s.rd (Reg.streamOpen r.stream) = 1 → s.epochOk r.stream r.epoch = true →
    Does .dataRx s fun t =>
      t.rd (Reg.nextRec r.stream) = (r.seq + 1) % 2 ^ 32 ∧ Counts Reg.recordsAccepted s t ∧
      t.rd (Reg.rxunits r.stream) = fit (Reg.rxunits r.stream) (s.rd (Reg.rxunits r.stream) + r.slots) ∧
      t.rd Reg.crucibleFill = fit Reg.crucibleFill ((s.sto.crucible.map (fun c => c.r.slots)).sum + r.slots) ∧
      t.rd (Reg.epochState r.stream) = (if r.closes then 2 else 1) ∧ t.bitOf Reg.stalled r.stream = false ∧
      t.sto.since = true ∧ t.ll.rxq = u.ll.rxq ∧
      Frame (eventKeys ++ sendKeys ++ pumpKeys ++ [Reg.nextRec r.stream, Reg.recordsAccepted, Reg.rxunits r.stream,
        Reg.epochState r.stream, Reg.openEpoch r.stream, Reg.stalled, Reg.rxSinceDecl, Reg.pourRx, Reg.crucibleFill, Reg.mirrored]
        ++ allStreams.map Reg.crucibleUnits ++ allStreams.map Reg.mirroredUnits) [] s t) ∧
  (∀ (s u : State) (f : RxFrame) (r : Rec), s.takeRx (fun g => g.ty = 0x10) = some (f, u) → r = f.record → f.session = s.rd Reg.session →
    r.slots ≤ s.outOf r.stream → s.rd Reg.llState = 2 → s.ll.expect.testBit r.stream = true →
    r.seq ≠ s.rd (Reg.nextRec r.stream) → later32 r.seq (s.rd (Reg.nextRec r.stream)) = true →
    Does .dataRx s fun t =>
      Counts Reg.recDups s t ∧
      t.rd (Reg.rxunits r.stream) = fit (Reg.rxunits r.stream) (s.rd (Reg.rxunits r.stream) + r.slots) ∧
      t.sto.crucible = s.sto.crucible ∧ Frame [Reg.rxunits r.stream, Reg.recDups] [] s t) ∧
  (∀ (s u : State) (f : RxFrame) (r : Rec), s.takeRx (fun g => g.ty = 0x10) = some (f, u) → r = f.record → f.session = s.rd Reg.session →
    s.rd Reg.llState ≠ 0 → s.outOf r.stream < r.slots →
    Does .dataRx s fun t =>
      t.bitOf Reg.stalled r.stream = true ∧ t.bitOf Reg.llFlags 5 = true ∧ Violates 0 Vc.credit s t ∧
      Counts Reg.llViolations s t ∧ t.sto.crucible = s.sto.crucible ∧
      Frame (violKeys 0 ++ [Reg.rxunits r.stream, Reg.stalled]) [] s t) ∧
  (∀ (s u : State) (f : RxFrame) (r : Rec), s.takeRx (fun g => g.ty = 0x10) = some (f, u) → r = f.record → f.session ≠ s.rd Reg.session →
    r.slots ≤ tget 0 s.ll.lapsed r.stream → s.ll.expect.testBit r.stream = true → r.seq = s.rd (Reg.nextRec r.stream) →
    s.rd (Reg.streamOpen r.stream) = 1 → s.epochOk r.stream r.epoch = true →
    Does .dataRx s fun t =>
      t.rd (Reg.nextRec r.stream) = (r.seq + 1) % 2 ^ 32 ∧ Counts Reg.recordsAccepted s t ∧
      t.rd (Reg.rxunits r.stream) = s.rd (Reg.rxunits r.stream) ∧
      tget 0 t.ll.lapsed r.stream = tget 0 s.ll.lapsed r.stream - r.slots) ∧
  (∀ (s u : State) (f : RxFrame) (r : Rec), s.takeRx (fun g => g.ty = 0x11) = some (f, u) → r = f.record → f.ty = 0x11 → f.session = s.rd Reg.session →
    r.slots ≤ s.outOf r.stream → s.rd Reg.llState = 2 → s.ll.expect.testBit r.stream = false →
    s.rd (Reg.streamOpen r.stream) = 1 → s.epochOk r.stream r.epoch = true →
    Does .closeRx s fun t =>
      t.rd (Reg.epochState r.stream) = 2 ∧ tget 0 t.sto.lastClosed r.stream = r.epoch + 1 ∧
      t.rd (Reg.nextRec r.stream) = (r.seq + 1) % 2 ^ 32 ∧ Counts Reg.recordsAccepted s t ∧
      Frame (eventKeys ++ sendKeys ++ pumpKeys ++ [Reg.nextRec r.stream, Reg.recordsAccepted, Reg.rxunits r.stream,
        Reg.epochState r.stream, Reg.stalled, Reg.rxSinceDecl, Reg.pourRx, Reg.crucibleFill, Reg.mirrored]
        ++ allStreams.map Reg.crucibleUnits ++ allStreams.map Reg.mirroredUnits) [] s t)

/-- RETIRE_RX of a complete epoch and of one that is not, DIRTY_RX, SHUTDOWN_RX accepted and of another kind, RESUME_SEND,
COMMIT_GAP_EXPIRY with a frame due and without. Where the rules leave it open the model chooses: log entries 8, 35. -/
def Obligations.ControlFramesOfTheSession : Prop :=
  (∀ (s u : State) (f : RxFrame) (st ep : Nat), s.takeRx (fun g => g.ty = 0x12) = some (f, u) → st = f.stream % 8 →
    ep = field f.payload 0 4 → s.phase = .guard → s.bitOf (Reg.streamHas st) 2 = false → s.bitOf (Reg.streamHas st) 1 = true →
    atOrBefore ep (s.rd (Reg.lastComplete st)) = true →
    Does .retireRx s fun t =>
      t.rd (Reg.lastRetired st) = fit (Reg.lastRetired st) ep ∧ t.bitOf (Reg.streamHas st) 2 = true ∧ Counts Reg.retires s t ∧
      t.sto.unret = s.sto.unret.filter (fun e => !(e.1 = st && atOrBefore e.2.1 ep)) ∧
      Frame (pumpKeys ++ [Reg.lastRetired st, Reg.streamHas st, Reg.retires, Reg.mirrored] ++ allStreams.map Reg.mirroredUnits)
        [] s t) ∧
  (∀ (s u : State) (f : RxFrame) (st ep : Nat), s.takeRx (fun g => g.ty = 0x12) = some (f, u) → st = f.stream % 8 →
    ep = field f.payload 0 4 → s.phase = .guard → s.bitOf (Reg.streamHas st) 2 = false → s.bitOf (Reg.streamHas st) 1 = false →
    Does .retireRx s fun t =>
      Counts Reg.retiresRefused s t ∧ t.bitOf Reg.mrFlags 1 = true ∧ Violates 0 Vc.order s t ∧
      Frame (violKeys 0 ++ [Reg.mrFlags, Reg.retiresRefused]) [] s t) ∧
  (∀ (s u : State) (f : RxFrame), s.takeRx (fun g => g.ty = 0x13) = some (f, u) →
    Does .dirtyRx s fun t =>
      t.rd Reg.declaredDirty = fit Reg.declaredDirty (field f.payload 0 8) ∧ t.rd Reg.rxSinceDecl = 0 ∧
      Counts Reg.dirtyFrames s t ∧ Frame [Reg.declaredDirty, Reg.rxSinceDecl, Reg.dirtyFrames] [] s t) ∧
  (∀ (s u : State) (f : RxFrame), s.takeAny (fun g => g.ty = 0x14) = some (f, u) → f.payload.getD 0 0 = 1 →
    s.pourReady = true → s.dirtyNow ≠ 0 →
    Does .shutdownRx s fun t => Accepts 8 [] s t) ∧
  (∀ (s u : State) (f : RxFrame), s.takeAny (fun g => g.ty = 0x14) = some (f, u) → f.payload.getD 0 0 ≠ 1 →
    Does .shutdownRx s fun t => Violates 0 Vc.type s t ∧ t.phase = s.phase ∧ Frame (violKeys 0) [] s t) ∧
  (∀ s : State, s.sessionUp = true → s.rd Reg.llState = 1 → 2 ≤ s.rd Reg.isState →
    s.sto.crucible.all (fun c => c.session = s.rd Reg.session) = true → s.ll.rxq.all (fun f => f.session = s.rd Reg.session) = true →
    Does .resumeSend s fun t =>
      t.rd Reg.llState = 2 ∧ t.bitOf Reg.llFlags 6 = true ∧
      Frame (eventKeys ++ sendKeys ++ [Reg.llState, Reg.llFlags]) [] s t) ∧
  (∀ s : State, s.ll.gapRuns = true → s.ll.commitDue = true → s.rd Reg.llState = 2 →
    Does .commitGapExpiry s fun t => t.ll.gapRuns = true ∧ t.ll.commitDue = false ∧ Frame sendKeys [] s t) ∧
  (∀ s : State, s.ll.gapRuns = true → s.ll.commitDue = false →
    Does .commitGapExpiry s fun t => t = { s with ll := { s.ll with gapRuns := false, commitDue := false } })

/-- DRAIN_WINDOW_EXPIRY and PWD_DRAIN_EXPIRY with records still in the crucible, PWD_SEAL_EXPIRY. SUMMARY_WRITTEN, where a
slot takes the record and where the write failed, PWD_OFF_EXPIRY, and REST_SUPPLY_PRESENT, which ends rest by a warm
reset. Where the rules leave it open the model chooses: log entries 8, 9, 34, 35, 41. -/
def Obligations.ThePourDrainsSealsAndRests : Prop :=
  (∀ s : State, s.sup.running = true → s.rd Reg.pourState = Ps.drain → s.rd Reg.drainWindow ≤ s.tick - s.pour.at_ →
    s.sto.crucible ≠ [] →
    Does .drainWindowExpiry s fun t =>
      t.rd Reg.pourState = Ps.flush ∧ t.rd Reg.drainEnd = 1 ∧ t.phase = s.phase ∧
      Frame (eventKeys ++ sendKeys ++ pumpKeys ++ [Reg.pourState, Reg.drainEnd, Reg.pourFlags, Reg.hostResets]
        ++ allStreams.map Reg.streamOpen) [] s t) ∧
  (∀ s : State, s.sup.running = true → s.rd Reg.pourState = Ps.drain → s.sto.crucible ≠ [] →
    Does .pwdDrainExpiry s fun t =>
      t.rd Reg.pourState = Ps.flush ∧ t.rd Reg.drainEnd = 3 ∧ t.bitOf Reg.pourFlags 2 = true ∧ t.phase = s.phase ∧
      Frame (eventKeys ++ sendKeys ++ pumpKeys ++ [Reg.pourState, Reg.drainEnd, Reg.pourFlags, Reg.hostResets]
        ++ allStreams.map Reg.streamOpen) [] s t) ∧
  (∀ s : State, s.sup.running = true → s.rd Reg.pourState = Ps.flush →
    Does .pwdSealExpiry s fun t =>
      t.rd Reg.pourState = Ps.sealing ∧ t.bitOf Reg.pourFlags 3 = true ∧ t.pour.sealing.isSome = true ∧
      Frame (eventKeys ++ pumpKeys ++ [Reg.pourState, Reg.pourFlags, Reg.crucibleFill, Reg.mirrored, Reg.drossTotal, Reg.heatLast,
        Reg.heatLocal, Reg.heatRx] ++ allStreams.flatMap (fun st => [Reg.drossRecs st, Reg.drossEpoch st, Reg.epochState st,
          Reg.crucibleUnits st, Reg.mirroredUnits st])) [] s t) ∧
  (∀ (s : State) (x : Seal) (h i : Nat), s.sup.running = true → s.rd Reg.pourState = Ps.summary → s.sto.cast = some x →
    s.sumHalf = some h → s.sumSlot h = some i → s.seq.offRel = none →
    Does (.summaryWritten true) s fun t =>
      t.rd Reg.pourState = Ps.offSlots ∧ t.seq.offRel = some s.tick ∧
      t.fla.sums = tput s.fla.sums (64 * h + i) (some { s.summaryRec x with seq := s.sumSeqNext }) ∧
      t.rd Reg.wordsProgrammed = fit Reg.wordsProgrammed (s.rd Reg.wordsProgrammed + 32) ∧
      Quiet [Reg.pourState, Reg.wordsProgrammed, Reg.castPending, Reg.sumSeqLast, Reg.sumValid] [] s t ∧
      (∀ a, t.codeByte a = s.codeByte a) ∧ t.fw.record = s.fw.record ∧ t.sto.nand = s.sto.nand ∧ t.fla.cope = s.fla.cope ∧
      t.fla.drag = s.fla.drag ∧ RingKept s t) ∧
  (∀ s : State, s.sup.running = true → s.rd Reg.pourState = Ps.summary → s.seq.offRel = none →
    Does (.summaryWritten false) s fun t =>
      t.rd Reg.pourState = Ps.offSlots ∧ t.seq.offRel = some s.tick ∧ t.bitOf Reg.pourFlags 7 = true ∧
      Frame (eventKeys ++ [Reg.pourState, Reg.pourFlags]) [] s t) ∧
  (∀ s : State, s.sup.running = true → s.phase = .pour → s.seq.offRel = none →
    Does .pwdOffExpiry s fun t =>
      t.rd Reg.pourState = Ps.offSlots ∧ t.seq.offRel = some s.tick ∧ t.bitOf Reg.pourFlags 4 = true ∧ Counts Reg.pwdFires s t ∧
      (s.rd Reg.pourState = Ps.drain ∨ s.rd Reg.pourState = Ps.flush ∨ s.rd Reg.pourState = Ps.sealing →
        t.bitOf Reg.pourFlags 9 = true ∧ t.pour.sealing = none) ∧
      Frame (eventKeys ++ sendKeys ++ [Reg.pourState, Reg.pourFlags, Reg.pwdFires] ++ allStreams.map Reg.streamOpen) [] s t) ∧
  (∀ s : State, s.phase = .rest → s.sup.running = true → s.rd Reg.restReturn ≤ s.pour.supplyRun → s.sup.source ≠ .off →
    s.pads.b4 = false → s.rd Reg.fwState ≠ 1 → s.fla.erase = none → s.svc.commit = none → s.sto.erase = none →
    (∀ p ∈ s.sto.pages, p.busy = false) →
    Does .restSupplyPresent s fun t =>
      t.rd Reg.resetCause = 5 ∧ t.sup.bootDue = true ∧ t.sup.coldBoot = false ∧ t.sup.running = false ∧ t.phase = .idle ∧
      t.clk.count = s.clk.count ∧ t.rd Reg.seqLatch = fit Reg.seqLatch (s.rd Reg.seqLatch) ∧ HvKept false s t ∧
      (∀ k, k ∉ [Reg.resetCause, Reg.seqLatch, Reg.failedRail, Reg.pwAttemptsLeft] → t.rd k = dfltAt k) ∧ StoresKept s t)

/-- PAGE_PROGRAM_DONE of a data page and of the seal's page, PROGRAM_FAIL, PAGE_WAIT_EXPIRY. Where the rules leave it open the
model chooses: log entries 8, 38, 75. -/
def Obligations.PagesAreProgrammed : Prop :=
  (∀ (s : State) (d : Die) (bits : Nat) (p : Page), s.rd Reg.isState = 2 →
    s.sto.pages.filter (fun q => q.busy && dieOf q.pos = d.val) = [p] → p.kind ≠ 5 → p.kind ≠ 4 → p.cast = none →
    Does (.pageProgramDone d bits) s fun t =>
      (t.blk (blkKey p.pos p.block)).pages = (s.blk (blkKey p.pos p.block)).pages ++ [{ p with busy := false, torn := false, image := p.bytes }] ∧
      (∀ k, k ≠ blkKey p.pos p.block → t.blk k = s.blk k) ∧ Counts Reg.pagesProgrammed s t ∧
      Quiet (pumpKeys ++ [Reg.pagesProgrammed] ++ allStreams.map Reg.retireDurable) [] s t ∧
      (∀ a, t.codeByte a = s.codeByte a) ∧ t.fla.cope = s.fla.cope ∧ t.fla.drag = s.fla.drag ∧ t.fla.sums = s.fla.sums ∧ RingKept s t) ∧
  (∀ (s : State) (d : Die) (bits : Nat) (p : Page) (x : Seal), s.rd Reg.isState = 2 →
    s.sto.pages.filter (fun q => q.busy && dieOf q.pos = d.val) = [p] → p.kind ≠ 5 → p.cast = some x →
    s.rd Reg.pourState = Ps.sealing → bits ≤ s.rd Reg.verifyBits →
    Does (.pageProgramDone d bits) s fun t =>
      t.rd Reg.pourState = Ps.summary ∧ Counts Reg.seals s t ∧ t.rd Reg.sealStamp = fit Reg.sealStamp s.stamp ∧
      t.rd Reg.lastSealPage = fit Reg.lastSealPage p.seq ∧ t.sto.cast = some x ∧ t.sto.unconfirmed = true ∧
      (t.blk (blkKey p.pos p.block)).pages = (s.blk (blkKey p.pos p.block)).pages ++ [{ p with busy := false, torn := false, image := p.bytes }] ∧
      Quiet (eventKeys ++ sendKeys ++ pumpKeys ++ [Reg.pagesProgrammed, Reg.maxCorrected d, Reg.isFlags, Reg.sealStamp, Reg.seals,
        Reg.lastSealPage, Reg.pourState] ++ allStreams.map Reg.retireDurable) [] s t) ∧
  (∀ (s : State) (d : Die) (q : Plane) (p : Page), s.rd Reg.isState = 2 →
    s.sto.pages.find? (fun x => x.busy && x.pos = 4 * q.val + d.val) = some p → p.kind ≠ 5 →
    Does (.programFail d q) s fun t =>
      Counts Reg.progFails s t ∧ t.bitOf Reg.isFlags 1 = true ∧ t.isBad (blkKey p.pos p.block) = true ∧
      (t.blk (blkKey p.pos p.block)).pages = (s.blk (blkKey p.pos p.block)).pages ++ [{ p with busy := false, torn := true, image := [] }] ∧
      (∀ k, k ≠ blkKey p.pos p.block → t.blk k = s.blk k) ∧
      Quiet (eventKeys ++ pumpKeys ++ [Reg.progFails, Reg.isFlags, Reg.grownBadCount]) [] s t ∧
      (∀ a, t.codeByte a = s.codeByte a) ∧ t.fla.cope = s.fla.cope ∧ t.fla.drag = s.fla.drag ∧ t.fla.sums = s.fla.sums ∧ RingKept s t) ∧
  (∀ (s : State) (p : Page), s.rd Reg.isState = 2 → s.curPage = some p → s.sto.todo = [] →
    Does .pageWaitExpiry s fun t => t.curPage = none ∧ Frame pumpKeys [] s t)

/-- ERASE_START with its intent record, ERASE_DONE passed and failed, ERASE_SUSPEND, ERASE_RESUME. Where the rules leave it
open the model chooses: log entries 8, 39. -/
def Obligations.BlocksAreErased : Prop :=
  (∀ (s : State) (k reason : Nat), s.nextErase = some (k, reason) → s.phase = .guard → s.rd Reg.isState = 2 →
    s.sto.erase = none → s.storeRuns = true → s.dieBusy (dieOf (k / 1024)) = false → s.dieReading (dieOf (k / 1024)) = false → s.coldRead = false →
    s.flushLog.log.queue.isEmpty = true → s.flushLog.canWrite = true →
    Does .eraseStart s fun t =>
      t.sto.erase = some { die := dieOf (k / 1024), plane := planeOf (k / 1024), block := k % 1024, reason := reason } ∧
      t.rd Reg.eraseState = 1 ∧
      (∃ r i, t.slot s.flushLog.log.head = .valid r i ∧ r.code = 0x4101 ∧
        r.ext = eraseExt (k / 1024) (k % 1024) ((s.blk k).erases + 1) reason 0xFF (s.blk k).lastRow) ∧
      Frame (eventKeys ++ [Reg.eraseState, Reg.eraseBlock] ++ (List.range 4).map Reg.dieState) [] s t) ∧
  (∀ (s : State) (e : BlkErase) (k : Nat), s.sto.erase = some e → e.state = 1 → k = blkKey (4 * e.plane + e.die) e.block →
    Does (.eraseDone 0) s fun t =>
      t.sto.erase = none ∧ t.rd Reg.eraseState = 0 ∧ Counts Reg.erases s t ∧
      t.blk k = { s.blk k with erases := (s.blk k).erases + 1, pages := [], garbage := false } ∧
      (∀ j, j ≠ k → t.blk j = s.blk j) ∧
      Quiet (eventKeys ++ pumpKeys ++ [Reg.eraseState, Reg.erases, Reg.fettleEligible, Reg.dieState e.die]) [] s t ∧
      (∀ a, t.codeByte a = s.codeByte a) ∧ t.fla.cope = s.fla.cope ∧ t.fla.drag = s.fla.drag ∧ t.fla.sums = s.fla.sums ∧ RingKept s t) ∧
  (∀ (s : State) (e : BlkErase) (k : Nat), s.sto.erase = some e → e.state = 1 → k = blkKey (4 * e.plane + e.die) e.block →
    Does (.eraseDone 1) s fun t =>
      t.sto.erase = none ∧ t.rd Reg.eraseState = 0 ∧ Counts Reg.erases s t ∧ Counts Reg.eraseFails s t ∧
      t.bitOf Reg.isFlags 2 = true ∧ t.isBad k = true ∧
      t.blk k = { s.blk k with erases := (s.blk k).erases + 1, garbage := true } ∧ (∀ j, j ≠ k → t.blk j = s.blk j) ∧
      Quiet (eventKeys ++ pumpKeys ++ [Reg.eraseState, Reg.erases, Reg.fettleEligible, Reg.dieState e.die, Reg.eraseFails, Reg.isFlags,
        Reg.grownBadCount]) [] s t ∧
      (∀ a, t.codeByte a = s.codeByte a) ∧ t.fla.cope = s.fla.cope ∧ t.fla.drag = s.fla.drag ∧ t.fla.sums = s.fla.sums ∧ RingKept s t) ∧
  (∀ (s : State) (e : BlkErase), s.sto.erase = some e → e.state = 1 → s.phase = .pour →
    Does .eraseSuspend s fun t =>
      t.sto.erase = some { e with state := 3, suspends := e.suspends + 1 } ∧ t.rd Reg.eraseState = 3 ∧
      Counts Reg.eraseSuspends s t ∧ Frame [Reg.eraseState, Reg.eraseSuspends, Reg.dieState e.die] [] s t) ∧
  (∀ (s : State) (e : BlkErase), s.sto.erase = some e → e.state = 1 → s.phase ≠ .pour → s.dieWaits e.die = true →
    e.suspends < s.rd Reg.eraseSuspendMax →
    Does .eraseSuspend s fun t =>
      t.sto.erase = some { e with state := 2, suspends := e.suspends + 1 } ∧ t.rd Reg.eraseState = 2 ∧
      Counts Reg.eraseSuspends s t ∧ Frame [Reg.eraseState, Reg.eraseSuspends, Reg.dieState e.die] [] s t) ∧
  (∀ (s : State) (e : BlkErase), s.sto.erase = some e → e.state = 2 → s.phase = .guard →
    s.dieWaits e.die = false → s.dieBusy e.die = false →
    Does .eraseResume s fun t =>
      t.sto.erase = some { e with state := 1 } ∧ t.rd Reg.eraseState = 1 ∧
      Frame [Reg.eraseState, Reg.dieState e.die] [] s t)

/-- SCAN_DONE: with every plane prepared and nothing unsettled the store runs; where a die does not answer, where no map is found, and
where some plane can give no block, start stops, or stays stopped. Where the rules leave it
open the model chooses: log entries 8, 39. -/
def Obligations.TheScanEnds : Prop :=
  (∀ (s : State) (h : Bool) (o : Fin 3) (us : Nat), s.phase = .start → s.taken = true → s.storeRuns = true →
    s.rd Reg.isState = 1 → s.unsettled = [] → (∀ r ∈ s.rowsFound, ∀ k ∈ s.rowBlocks r, (s.blk k).hasPage 63 = true) →
    s.sto.row = none → (∀ p ∈ allPos, (s.pickBlock p).isSome = true) →
    Does (.scanDone 15 true h o us) s fun t =>
      t.rd Reg.isState = 2 ∧ t.rd Reg.scanResult = 1 ∧ t.rd Reg.scanTime = fit Reg.scanTime us ∧
      t.rd Reg.startStep = s.rd Reg.startStep ∧ t.rd Reg.startStop = s.rd Reg.startStop ∧ t.phase = .start ∧
      (∀ a, t.codeByte a = s.codeByte a) ∧ t.fw.record = s.fw.record ∧ t.fla.cope = s.fla.cope ∧ t.fla.drag = s.fla.drag ∧ RingKept s t) ∧
  (∀ (s : State) (dies : BitVec 4) (m h : Bool) (o : Fin 3) (us : Nat), s.phase = .start → s.taken = true → s.storeRuns = true →
    s.rd Reg.isState = 1 → dies ≠ 15 → s.rd Reg.startStep ≠ Step.stopped →
    Does (.scanDone dies m h o us) s fun t =>
      t.rd Reg.isState = 3 ∧ t.rd Reg.scanResult = 4 ∧ t.rd Reg.startStep = Step.stopped ∧ t.rd Reg.startStop = 4 ∧
      t.stopAt = s.rd Reg.startStep ∧ t.rd Reg.scanTime = fit Reg.scanTime us ∧
      Frame (eventKeys ++ [Reg.isState, Reg.scanResult, Reg.scanTime, Reg.startStep, Reg.startStop]
        ++ (List.range 4).map Reg.dieState) [] s t) ∧
  (∀ (s : State) (dies : BitVec 4) (m h : Bool) (o : Fin 3) (us : Nat), s.phase = .start → s.taken = true → s.storeRuns = true →
    s.rd Reg.isState = 1 → dies ≠ 15 → s.rd Reg.startStep = Step.stopped →
    Does (.scanDone dies m h o us) s fun t =>
      t.rd Reg.isState = 3 ∧ t.rd Reg.scanResult = 4 ∧ t.rd Reg.startStop = s.rd Reg.startStop ∧ t.stopAt = s.stopAt ∧
      Frame (eventKeys ++ [Reg.isState, Reg.scanResult, Reg.scanTime] ++ (List.range 4).map Reg.dieState) [] s t) ∧
  (∀ (s : State) (h : Bool) (o : Fin 3) (us : Nat), s.phase = .start → s.taken = true → s.storeRuns = true →
    s.rd Reg.isState = 1 → s.rd Reg.startStep ≠ Step.stopped →
    Does (.scanDone 15 false h o us) s fun t =>
      t.rd Reg.isState = 3 ∧ t.rd Reg.scanResult = 2 ∧ t.rd Reg.startStep = Step.stopped ∧ t.rd Reg.startStop = 4 ∧
      Frame (eventKeys ++ [Reg.isState, Reg.scanResult, Reg.scanTime, Reg.startStep, Reg.startStop]
        ++ (List.range 4).map Reg.dieState) [] s t) ∧
  (∀ (s : State) (h : Bool) (o : Fin 3) (us : Nat), s.phase = .start → s.taken = true → s.storeRuns = true →
    s.rd Reg.isState = 1 → s.rd Reg.startStep ≠ Step.stopped →
    Does (.scanDone 15 true h o us) s fun t =>
      ((t.rd Reg.isState = 2 ∧ t.rd Reg.scanResult = 1) ∨
        (t.rd Reg.isState = 3 ∧ t.rd Reg.scanResult = 3 ∧ t.rd Reg.startStep = Step.stopped ∧ t.rd Reg.startStop = 4)) ∧
      t.rd Reg.scanTime = fit Reg.scanTime us ∧
      Quiet (eventKeys ++ pumpKeys ++ [Reg.isState, Reg.scanResult, Reg.scanTime, Reg.startStep, Reg.startStop, Reg.castPending,
        Reg.eraseFails, Reg.erases, Reg.grownBadCount, Reg.halfErased, Reg.heatLast, Reg.heatLocal, Reg.isFlags,
        Reg.lastSealPage, Reg.mirrored, Reg.pagesProgrammed, Reg.recoveredSeals, Reg.reerases, Reg.rowsClosedAtStart,
        Reg.sumSeqLast, Reg.sumValid] ++ allStreams.flatMap (fun st => [Reg.drossEpoch st, Reg.drossRecs st, Reg.epochState st,
          Reg.lastCommit st, Reg.lastComplete st, Reg.lastRetired st, Reg.nextRec st, Reg.openEpoch st, Reg.retireDurable st,
          Reg.streamHas st, Reg.mirroredUnits st])) [] s t ∧
      (∀ a, t.codeByte a = s.codeByte a) ∧ t.fw.record = s.fw.record ∧ t.fla.cope = s.fla.cope ∧ t.fla.drag = s.fla.drag ∧ RingKept s t)

/-- SHAKE_START from the beginning and with another heat, SHAKE_PAUSE, SHAKE_CONFIRM, CONFIRMATION_WRITTEN.
SHAKEOUT_READ_DONE: the last page of a record, a page to be read again, and one that stays unreadable. Where the rules
leave it open the model chooses: log entries 8, 42. -/
def Obligations.ShakeoutIsCommandedAndReads : Prop :=
  (∀ (s u : State) (f : RxFrame), s.takeRx (fun g => g.ty = 0x15 && g.payload.getD 4 0 ≠ 2 && g.payload.getD 4 0 ≠ 3) = some (f, u) →
    f.payload.getD 4 0 = 1 → f.payload.getD 5 0 = 0 → field f.payload 0 4 = s.rd Reg.shakeHeat →
    (s.rd Reg.shakeState = 1 ∨ s.rd Reg.shakeState = 2 ∨ s.rd Reg.shakeState = 3) →
    Does .shakeStart s fun t =>
      t.rd Reg.shakeState = 2 ∧ t.shk.fixed = true ∧ (s.shk.fixed = true → Counts Reg.shakeResumes s t) ∧
      Frame (eventKeys ++ sendKeys ++ [Reg.shakeState, Reg.shakeResumes, Reg.isFlags, Reg.unreadableRecs]
        ++ allStreams.map Reg.unreadableEpoch ++ (List.range 4).map Reg.dieState) [] s t) ∧
  (∀ (s u : State) (f : RxFrame), s.takeRx (fun g => g.ty = 0x15 && g.payload.getD 4 0 ≠ 2 && g.payload.getD 4 0 ≠ 3) = some (f, u) →
    field f.payload 0 4 ≠ s.rd Reg.shakeHeat →
    Does .shakeStart s fun t =>
      Violates 0 Vc.order s t ∧ t.rd Reg.shakeState = s.rd Reg.shakeState ∧ Frame (violKeys 0) [] s t) ∧
  (∀ (s u : State) (f : RxFrame), s.takeRx (fun g => g.ty = 0x15 && g.payload.getD 4 0 = 2) = some (f, u) →
    field f.payload 0 4 = s.rd Reg.shakeHeat → s.rd Reg.shakeState = 2 →
    Does .shakePause s fun t => t.rd Reg.shakeState = 3 ∧ t.ll.rxq = u.ll.rxq ∧ Frame [Reg.shakeState] [] s t) ∧
  (∀ (s u : State) (f : RxFrame), s.takeRx (fun g => g.ty = 0x15 && g.payload.getD 4 0 = 3) = some (f, u) →
    field f.payload 0 4 = s.rd Reg.shakeHeat → s.rd Reg.shakeState ≠ 0 →
    Does .shakeConfirm s fun t =>
      t.rd Reg.shakeState = 0 ∧ t.rd Reg.shakeReleased = 0xFF ∧ t.shake = false ∧ t.sto.unconfirmed = s.sto.unconfirmed ∧
      (t.shk.confirm.map (fun r => (r.kind, r.heat))) = some (2, s.rd Reg.shakeHeat) ∧
      Frame (eventKeys ++ sendKeys ++ [Reg.shakeState, Reg.shakeReleased] ++ allStreams.map Reg.streamOpen) [] s t) ∧
  (∀ (s : State) (r : SumRec) (h i : Nat), s.shk.confirm = some r → s.sumHalf = some h → s.sumSlot h = some i →
    Does .confirmationWritten s fun t =>
      t.shk.confirm = none ∧ t.fla.sums = tput s.fla.sums (64 * h + i) (some { r with stamp := s.stamp, seq := s.sumSeqNext }) ∧
      t.rd Reg.shakeStamp = fit Reg.shakeStamp s.stamp ∧ Counts Reg.confirms s t ∧
      (s.sto.cast.map (·.heat) = some r.heat → t.sto.unconfirmed = false) ∧
      Quiet (sendKeys ++ [Reg.castPending, Reg.confirms, Reg.shakeStamp, Reg.sumSeqLast, Reg.sumValid, Reg.wordsProgrammed]) [] s t ∧
      (∀ a, t.codeByte a = s.codeByte a) ∧ t.sto.nand = s.sto.nand ∧ t.fla.cope = s.fla.cope ∧ t.fla.drag = s.fla.drag ∧
      RingKept s t) ∧
  (∀ (s : State) (d : Die) (bits st : Nat) (r : Rec), tget 0 s.sto.reads d ≠ 0 → st = (tget 0 s.sto.reads d - 1) % 8 →
    (s.shakeOf st).recs[(s.shakeOf st).next]? = some r → bits ≤ 40 → s.rd Reg.shakeState = 2 →
    (s.recDies st r.seq).length ≤ (s.shakeOf st).read + 1 →
    Does (.shakeoutReadDone d bits true) s fun t =>
      (t.shakeOf st).next = (s.shakeOf st).next + 1 ∧ t.rd Reg.shakeState = 2 ∧
      Frame (eventKeys ++ sendKeys ++ [Reg.maxCorrected d, Reg.isFlags, Reg.readRetriesOk, Reg.unreadableRecs]
        ++ allStreams.map Reg.unreadableEpoch ++ (List.range 4).map Reg.dieState) [] s t) ∧
  (∀ (s : State) (d : Die) (bits st : Nat) (ok : Bool) (r : Rec), tget 0 s.sto.reads d ≠ 0 →
    st = (tget 0 s.sto.reads d - 1) % 8 → (s.shakeOf st).recs[(s.shakeOf st).next]? = some r → 40 < bits →
    (s.shakeOf st).tries < s.rd Reg.readRetries →
    Does (.shakeoutReadDone d bits ok) s fun t =>
      t = s.setShake st { s.shakeOf st with tries := (s.shakeOf st).tries + 1 }) ∧
  (∀ (s : State) (d : Die) (bits st : Nat) (ok : Bool) (r : Rec), tget 0 s.sto.reads d ≠ 0 →
    st = (tget 0 s.sto.reads d - 1) % 8 → (s.shakeOf st).recs[(s.shakeOf st).next]? = some r → 40 < bits →
    s.rd Reg.readRetries ≤ (s.shakeOf st).tries →
    Does (.shakeoutReadDone d bits ok) s fun t =>
      (t.shakeOf st).stop = some (s.shakeOf st).next ∧ t.bitOf Reg.isFlags 5 = true ∧
      t.rd (Reg.unreadableEpoch st) = fit (Reg.unreadableEpoch st) r.epoch ∧
      Frame (eventKeys ++ sendKeys ++ [Reg.isFlags, Reg.unreadableRecs] ++ allStreams.map Reg.unreadableEpoch
        ++ (List.range 4).map Reg.dieState) [] s t)

/-- DF_ERASE_START, DF_ERASE_SUSPEND, DF_ERASE_DONE of a sector of the log, well and not: its slots read blank or torn, every
other slot and store as before. COMMIT_DONE written and failed, LOG_FLUSH with room for what waits, SVC_WASHDOWN_ABANDON.
Where the rules leave it open the model chooses: log entries 8, 61, 82, 83, 94. -/
def Obligations.DataFlashErasesCommitsAndFlushes : Prop :=
  (∀ (s : State) (b c : Nat) (q : List (Nat × Nat)), s.fla.queue = (b, c) :: q → s.sup.running = true → s.loaded = true →
    s.coldRead = false → (s.phase = .start ∨ s.phase = .guard ∨ s.phase = .rest) → s.fla.erase = none → s.svc.commit = none → s.fla.nested = none →
    Does .dfEraseStart s fun t =>
      t = { s with fla := { s.fla with queue := q, erase := some { bank := b, sector := c } } }) ∧
  (∀ (s : State) (e : DfErase), s.fla.erase = some e → e.suspended = false → s.svc.commit.isSome = true →
    Does .dfEraseSuspend s fun t =>
      t.fla.erase = some { e with suspended := true } ∧ Counts Reg.dfSuspends s t ∧ Frame [Reg.dfSuspends] [] s t) ∧
  (∀ (s : State) (e : DfErase) (pos : Nat), s.fla.erase = some e → e.suspended = false → 40 ≤ e.sector →
    pos = (e.sector - 40) * 2 + e.bank → s.log.wanted = false → s.fla.nested = none →
    Does (.dfEraseDone true) s fun t =>
      t.fla.erase = none ∧ (∀ n, t.slot n = if n / 32 = pos then .blank else s.slot n) ∧ Counts Reg.dataErases s t ∧
      Quiet [Reg.dataErases] [] s t ∧ (∀ a, t.codeByte a = s.codeByte a) ∧ t.sto.nand = s.sto.nand ∧
      t.fla.cope = s.fla.cope ∧ t.fla.drag = s.fla.drag ∧ t.fla.sums = s.fla.sums) ∧
  (∀ (s : State) (e : DfErase) (pos : Nat), s.fla.erase = some e → e.suspended = false → 40 ≤ e.sector →
    pos = (e.sector - 40) * 2 + e.bank → s.log.wanted = false → s.fla.nested = none →
    Does (.dfEraseDone false) s fun t =>
      t.fla.erase = none ∧ (∀ n, n / 32 ≠ pos → t.slot n = s.slot n) ∧
      (∀ n, n / 32 = pos → t.slot n = .torn ∨ t.slot n = .blank) ∧ (e.bank, e.sector) ∈ t.fla.queue ∧
      Counts Reg.dataErases s t ∧ Quiet [Reg.dataErases] [] s t ∧ (∀ a, t.codeByte a = s.codeByte a) ∧
      t.sto.nand = s.sto.nand ∧ t.fla.cope = s.fla.cope ∧ t.fla.drag = s.fla.drag ∧ t.fla.sums = s.fla.sums) ∧
  (∀ (s : State) (bank x : Nat) (snap : List (Nat × Nat)) (rest : List Nat), s.svc.commit = some (bank, snap) →
    s.fla.left = x :: rest → s.fla.nested = none → s.dataErasing 0 = false → s.dataErasing 1 = false →
    Does .dfEraseStart s fun t =>
      t.fla.nested = some bank ∧ t.fla.left = rest ∧ t.fla.erase = s.fla.erase ∧ t.copyOf bank = Copy.torn ∧ Quiet [] [] s t) ∧
  (∀ (s : State) (ok : Bool) (bank : Nat), s.fla.nested = some bank → s.svc.commit.isSome = true → s.log.wanted = false →
    Does (.dfEraseDone ok) s fun t =>
      t.fla.nested = none ∧ t.fla.left = (if ok then s.fla.left else 0 :: s.fla.left) ∧ t.fla.erase = s.fla.erase ∧
      Counts Reg.dataErases s t ∧ Frame [Reg.dataErases] [] s t) ∧
  (∀ (s : State) (snap : List (Nat × Nat)), s.svc.commit = some (0, snap) → s.fla.nested = none → s.fla.left = [] →
    Does (.commitDone true) s fun t =>
      t.svc.commit = none ∧ t.fla.cope = Copy.valid s.commitSeq s.stamp (s.rd Reg.fwVersion) (entriesOf snap) ∧
      t.fla.drag = s.fla.drag ∧ t.rd Reg.configCommit = 2 ∧ t.rd Reg.configBank = 1 ∧
      t.rd Reg.configSeq = fit Reg.configSeq s.commitSeq ∧ t.rd Reg.configStamp = fit Reg.configStamp s.stamp ∧
      t.bitOf Reg.serviceFlags 0 = true ∧
      Quiet (eventKeys ++ [Reg.configCommit, Reg.configBank, Reg.configSeq, Reg.configStamp, Reg.serviceFlags]) [] s t ∧
      (∀ a, t.codeByte a = s.codeByte a) ∧ t.sto.nand = s.sto.nand ∧ t.fla.sums = s.fla.sums ∧ RingKept s t) ∧
  (∀ (s : State) (snap : List (Nat × Nat)), s.svc.commit = some (1, snap) → s.fla.nested = none →
    Does (.commitDone false) s fun t =>
      t.svc.commit = none ∧ t.fla.drag = (if s.fla.begun then Copy.torn else s.fla.drag) ∧ t.fla.cope = s.fla.cope ∧ t.rd Reg.configCommit = 3 ∧
      t.bitOf Reg.serviceFlags 1 = true ∧ Quiet (eventKeys ++ [Reg.configCommit, Reg.serviceFlags]) [] s t ∧
      (∀ a, t.codeByte a = s.codeByte a) ∧ t.sto.nand = s.sto.nand ∧ t.fla.sums = s.fla.sums ∧ RingKept s t) ∧
  (∀ (s : State) (r : LogRec), s.sup.running = true → s.loaded = true → s.coldRead = false →
    dueCycle s.clk.cyc (s.rd Reg.logFlushPeriod / 1024) 0 = true → s.clk.tic = windowTick 63488 s.clk.shift →
    s.log.queue = [r] → s.canWrite = true → s.log.owed = false →
    Does .logFlush s fun t =>
      t.log.queue = [] ∧ t.slot s.log.head = .valid r s.log.index ∧ t.log.index = s.log.index + 1 ∧
      t.log.head = (s.log.head + 1) % ringSlots ∧
      t.rd Reg.wordsProgrammed = fit Reg.wordsProgrammed (s.rd Reg.wordsProgrammed + 8) ∧
      Frame [Reg.wordsProgrammed] [] s t) ∧
  (∀ s : State, s.rep.kind = 3 → s.rep.cyc + 16 ≤ s.clk.cyc →
    Does .svcWashdownAbandon s fun t => t.rd Reg.svcReportCmd = 3 ∧ t.rep.kind = 0 ∧ Frame [Reg.svcReportCmd] [] s t)

/-- FW_ERASE_DONE well and not, FW_VERIFY_DONE with a valid image and with another. DEBUG_PASSWORD_ENTRY right, wrong and with no
attempts left; DEBUG_HALT and DEBUG_RESUME. Where the rules leave it open the model chooses: log entries 3, 5, 8, 94. -/
def Obligations.FirmwareUpdatesAndTheDebugPort : Prop :=
  (∀ s : State, s.rd Reg.fwState = 1 →
    Does (.fwEraseDone true) s fun t =>
      t.rd Reg.fwState = 2 ∧ t.rd Reg.fwCmd = 2 ∧ t.rd Reg.fwProgress = fit Reg.fwProgress 256 ∧
      t.rd Reg.codeErases = fit Reg.codeErases (s.rd Reg.codeErases + 256) ∧
      (∀ a, a / bankSize = s.inactiveSlot → t.codeByte a = 0xFF) ∧
      (∀ a, a / bankSize ≠ s.inactiveSlot → t.codeByte a = s.codeByte a) ∧
      Quiet [Reg.fwState, Reg.fwCmd, Reg.fwProgress, Reg.codeErases] [] s t ∧ t.fw.record = s.fw.record ∧
      t.sto.nand = s.sto.nand ∧ t.fla.cope = s.fla.cope ∧ t.fla.drag = s.fla.drag ∧ t.fla.sums = s.fla.sums ∧ RingKept s t) ∧
  (∀ s : State, s.rd Reg.fwState = 1 →
    Does (.fwEraseDone false) s fun t =>
      t.rd Reg.fwState = 7 ∧ t.rd Reg.fwCmd = 3 ∧ t.bitOf Reg.fwFlags 3 = true ∧ t.fw.cut = some s.inactiveSlot ∧
      (∃ n, 1 ≤ n ∧ n ≤ 256 ∧ t.rd Reg.codeErases = fit Reg.codeErases (s.rd Reg.codeErases + n)) ∧ Creates 0x4204 s t ∧
      Quiet (eventKeys ++ [Reg.fwState, Reg.fwCmd, Reg.fwFlags, Reg.codeErases]) [] s t ∧ t.fw.record = s.fw.record ∧
      t.sto.nand = s.sto.nand ∧ t.fla.cope = s.fla.cope ∧ t.fla.drag = s.fla.drag ∧ t.fla.sums = s.fla.sums ∧ RingKept s t) ∧
  (∀ s : State, s.fw.verifying = true → s.verifyResult = 1 →
    Does .fwVerifyDone s fun t =>
      t.rd Reg.fwState = 4 ∧ t.rd Reg.fwCmd = 2 ∧ t.rd Reg.fwVerifyResult = 1 ∧ t.fw.verifying = false ∧
      Frame [Reg.fwState, Reg.fwCmd, Reg.fwVerifyResult] [] s t) ∧
  (∀ s : State, s.fw.verifying = true → s.verifyResult ≠ 1 →
    Does .fwVerifyDone s fun t =>
      t.rd Reg.fwState = 7 ∧ t.rd Reg.fwCmd = 3 ∧ t.rd Reg.fwVerifyResult = fit Reg.fwVerifyResult s.verifyResult ∧
      t.bitOf Reg.fwFlags 2 = true ∧ Creates 0x4204 s t ∧
      Frame (eventKeys ++ [Reg.fwState, Reg.fwCmd, Reg.fwVerifyResult, Reg.fwFlags]) [] s t) ∧
  (∀ s : State, s.sup.running = true → s.prot.debugClosed = true → s.prot.password ≠ 0 → s.prot.password < 2 ^ 64 →
    s.fw.debugOpen = false → s.svc.attempts ≠ 0 →
    Does (.debugPasswordEntry (BitVec.ofNat 64 s.prot.password)) s fun t =>
      t.fw.debugOpen = true ∧ t.svc.attempts = 8 ∧ t.rd Reg.pwAttemptsLeft = 8 ∧ t.debugPort = true ∧ Creates 0x4206 s t ∧
      Frame (eventKeys ++ [Reg.pwAttemptsLeft, Reg.bootPref, Reg.rollbackMin, Reg.protCode, Reg.protFlags]) [] s t) ∧
  (∀ (s : State) (pw : BitVec 64), s.sup.running = true → s.prot.debugClosed = true → s.prot.password ≠ 0 →
    s.fw.debugOpen = false → 1 < s.svc.attempts → s.svc.attempts ≤ 8 → pw.toNat ≠ s.prot.password →
    Does (.debugPasswordEntry pw) s fun t =>
      t.fw.debugOpen = false ∧ t.svc.attempts = s.svc.attempts - 1 ∧ t.rd Reg.pwAttemptsLeft = s.svc.attempts - 1 ∧
      Frame [Reg.pwAttemptsLeft] [] s t) ∧
  (∀ (s : State) (pw : BitVec 64), s.sup.running = true → s.prot.debugClosed = true → s.prot.password ≠ 0 →
    s.fw.debugOpen = false → s.svc.attempts = 0 →
    Does (.debugPasswordEntry pw) s fun t => t = s) ∧
  (∀ s : State, s.sup.running = true → s.debugPort = true →
    Does .debugHalt s fun t => t = { s with bar := { s.bar with halted := true } }) ∧
  (∀ s : State, Does .debugResume s fun t => t = { s with bar := { s.bar with halted := false } })

/-- BOOT_ANNOUNCEMENT, HEARTBEAT_TX, STAMP_SYNC_TX queue their frames; POUR_COMMAND_ABANDON and HEAT_BROADCAST_ABANDON drop
frames that have waited 2048 ticks. BUS_DOMINANT and BUS_DOMINANT_END, BUS_OFF and BUS_OFF_RECOVERY. Where the rules leave it
open the model chooses: log entries 8, 44, 95. -/
def Obligations.CanFramesAndTheBus : Prop :=
  (∀ s : State, s.canQueues = true → s.cas.announced = false →
    Does .bootAnnouncement s fun t =>
      t = { s with cas := { s.cas with txq := s.cas.txq ++ [{ fn := 1, at_ := s.tick }], announced := true } }) ∧
  (∀ s : State, s.canQueues = true → s.clk.tic = 0 →
    dueCycle s.clk.cyc (cyclesOf (s.rd Reg.hbPeriod)) ((s.node - 1) * cyclesOf (s.rd Reg.hbPeriod) / 64) = true →
    Does .heartbeatTx s fun t =>
      t = { s with cas := { s.cas with txq := s.cas.txq.filter (fun f => f.fn ≠ 3) ++ [{ fn := 3, at_ := s.tick }] } }) ∧
  (∀ s : State, s.canQueues = true → s.master = true → s.clk.tic = 0 →
    dueCycle s.clk.cyc (cyclesOf (s.rd Reg.hbPeriod)) (cyclesOf (s.rd Reg.hbPeriod) / 2) = true →
    Does .stampSyncTx s fun t =>
      t = { s with cas := { s.cas with
                            txq := s.cas.txq ++ [{ fn := 7, payload := leBytes 6 s.stamp ++ [s.rd Reg.tbState] ++ List.replicate 9 0, at_ := s.tick }] } }) ∧
  (∀ s : State, Does .pourCommandAbandon s fun t =>
    t = { s with cas := { s.cas with txq := s.cas.txq.filter (fun f => !(f.fn = 0 && decide (f.at_ + 2048 ≤ s.tick))) } }) ∧
  (∀ s : State, Does .heatBroadcastAbandon s fun t =>
    t = { s with cas := { s.cas with
                          txq := s.cas.txq.filter (fun f => !((f.fn = 4 && f.payload.getD 0 0 = 2) && decide (f.at_ + 2048 ≤ s.tick))) } }) ∧
  (∀ s : State, s.canOn = true → s.cas.dominant = false →
    Does .busDominant s fun t =>
      t.cas.dominant = true ∧ t.cas.dominantSince = true ∧ t.rd Reg.canBusState = 3 ∧ Counts Reg.canDominantEpisodes s t ∧
      t.bitOf Reg.casFlags 3 = true ∧ Creates 0x5005 s t ∧
      Frame (eventKeys ++ [Reg.canBusState, Reg.canDominantEpisodes]) [] s t) ∧
  (∀ s : State, s.cas.dominant = true →
    Does .busDominantEnd s fun t =>
      t.cas.dominant = false ∧ t.rd Reg.canBusState = (if s.cas.busOff then 2 else if s.smp.canPassive then 1 else 0) ∧ Creates 0x5005 s t ∧
      Frame (eventKeys ++ [Reg.canBusState]) [] s t) ∧
  (∀ s : State, s.canOn = true → s.cas.busOff = false →
    Does .busOff s fun t =>
      t.cas.busOff = true ∧ t.rd Reg.canBusState = (if s.cas.dominant then 3 else 2) ∧ Counts Reg.busOffCount s t ∧
      t.bitOf Reg.casFlags 4 = true ∧ Creates 0x5007 s t ∧
      Frame (eventKeys ++ [Reg.canBusState, Reg.busOffCount]) [] s t) ∧
  (∀ s : State, s.cas.busOff = true →
    Does .busOffRecovery s fun t =>
      t.cas.busOff = false ∧ t.rd Reg.canBusState = (if s.cas.dominant then 3 else if s.smp.canPassive then 1 else 0) ∧ Creates 0x5007 s t ∧
      Frame (eventKeys ++ [Reg.canBusState]) [] s t)

/-- HEARTBEAT_RX and BOOT_ANNOUNCEMENT_RX at node 1, MEMBER_ABSENT, EVENT_FRAME_RX, and a frame of a wrong length or node; a STAMP_SYNC_RX
of a wrong node is a violation of the source that stands for none.
Where the rules leave it open the model chooses: log entry 44. -/
def Obligations.MembersAreHeardAndMissed : Prop :=
  (∀ (s : State) (n : Fin 128) (b : List Byte) (p : List Nat) (k : Nat), p = byteList b → k = n.val - 1 →
    s.casTakes 3 n.val p (anySet p [26, 27]) = true → s.master = true →
    Does (.heartbeatRx n b) s fun t =>
      t.rd (Reg.mState k) = 1 ∧ t.rd (Reg.mLastHeard k) = fit (Reg.mLastHeard k) s.stamp ∧
      t.rd (Reg.mActivity k) = field p 0 2 ∧ t.rd (Reg.mHeatLast k) = field p 12 4 ∧
      t.rd (Reg.mLoadPeak k) = field p 8 4 ∧ (t.member k).heard = true ∧ (t.member k).here = true ∧
      (t.member k).hbAt = s.tick + 1 ∧ (t.member k).period = 16 * p.getD 6 0 ∧ t.clk.count = s.clk.count ∧
      Frame (eventKeys ++ memberKeys k ++ [Reg.masterState]) [] s t) ∧
  (∀ (s : State) (n : Fin 128) (b : List Byte) (p : List Nat) (k : Nat), p = byteList b → k = n.val - 1 →
    s.casTakes 1 n.val p (anySet p ((List.range 9).map (· + 23))) = true → s.master = true →
    Does (.bootAnnouncementRx n b) s fun t =>
      Counts (Reg.mBoots k) s t ∧ t.rd (Reg.mSerial k) = field p 32 16 ∧ t.rd (Reg.mFwVersion k) = field p 4 4 ∧
      t.rd (Reg.mHeatLast k) = field p 8 4 ∧ t.rd (Reg.mLastHeard k) = fit (Reg.mLastHeard k) s.stamp ∧
      (t.member k).heard = true ∧ Frame (memberKeys k ++ [Reg.masterState]) [] s t) ∧
  (∀ (s : State) (k : NodeIx), s.sup.running = true → s.memberHere k = false → (s.member k).here = true → s.master = true →
    (s.srcOf (k.val + 3)).quarLeft = 0 →
    Does (.memberAbsent k) s fun t =>
      (t.member k).here = false ∧ t.rd (Reg.mState k) = 2 ∧ Frame (eventKeys ++ [Reg.mState k, Reg.masterState]) [] s t) ∧
  (∀ (s : State) (n : Fin 128) (b : List Byte) (p : List Nat) (k : Nat), p = byteList b → k = n.val - 1 →
    s.casTakes 2 n.val p (eventDirty p) = true → crc16 (p.take 62) = field p 62 2 → s.master = true →
    s.queueTakes (p.getD 14 0) = true →
    Does (.eventFrameRx n b) s fun t =>
      t.log.queue = s.log.queue ++ [memberEntry p] ∧ t.rd (Reg.mEventSeq k) = field p 4 4 ∧
      (t.member k).evSeq = field p 4 4 + 1 ∧ ((s.member k).evSeq = field p 4 4 → t.rd (Reg.mMissedEvents k) =
        fit (Reg.mMissedEvents k) (s.rd (Reg.mMissedEvents k))) ∧
      Frame [Reg.mEventSeq k, Reg.mMissedEvents k, Reg.mLastHeard k] [] s t) ∧
  (∀ (s : State) (n : Fin 128) (b : List Byte), s.canOn = true → s.cas.dominant = false → n.val = 0 ∨ 64 < n.val →
    Does (.heartbeatRx n b) s fun t => Counts Reg.casBadFrames s t ∧ Frame [Reg.casBadFrames] [] s t) ∧
  (∀ (s : State) (n : Fin 128) (b : List Byte), s.canOn = true → s.cas.dominant = false → n.val = 0 ∨ 64 < n.val →
    Does (.stampSyncRx n b) s fun t => Violates 2 Vc.cascade s t ∧ t.clk = s.clk ∧ Frame (violKeys 2) [] s t) ∧
  (∀ (s : State) (n : Fin 128) (b : List Byte), s.canOn = true → s.cas.dominant = false → 1 ≤ n.val → n.val ≤ 64 →
    n.val ≠ s.node → (s.srcOf (n.val + 2)).quarLeft = 0 → b.length ≠ 32 →
    Does (.heartbeatRx n b) s fun t =>
      Violates (n.val + 2) Vc.cascade s t ∧ t.cas.members = s.cas.members ∧
      Frame (violKeys (n.val + 2) ++ [Reg.mViolations (n.val - 1)]) [] s t)

/-- POUR_COMMAND_RX and FAULT_RELAY_RX accepted in guard, POUR_IN_TRIGGER accepted in guard, POUR_PULSE_END, POUR_STUCK.
STAGGER_REFERENCE_RX, HEAT_ASSIGNMENT_RX and STAMP_SYNC_RX at a member other than node 1. Where the rules leave it open the
model chooses: log entries 44, 95. -/
def Obligations.PoursAndBroadcastsComeOverTheCascade : Prop :=
  (∀ (s : State) (n : Fin 128) (b : List Byte), s.pourReady = true → s.casTakes 0 n.val (byteList b) (pourCmdDirty (byteList b)) = true →
    (byteList b).getD 0 0 = 1 → s.rd Reg.cmdInEn = 1 →
    Does (.pourCommandRx n b) s fun t =>
      Counts Reg.pourCmdsRx s t ∧ t.bitOf Reg.casFlags 1 = true ∧
      Accepts 7 [Reg.pourCmdsRx, Reg.mHeatLast (n.val - 1), Reg.mLastHeard (n.val - 1)] s t) ∧
  (∀ (s : State) (n : Fin 128) (b : List Byte), s.pourReady = true → s.casTakes 0 n.val (byteList b) (pourCmdDirty (byteList b)) = true →
    (byteList b).getD 0 0 = 2 → s.rd Reg.faultInEn = 1 →
    Does (.faultRelayRx n b) s fun t =>
      Counts Reg.faultRelayRx s t ∧ t.bitOf Reg.casFlags 9 = true ∧
      Accepts 5 [Reg.faultRelayRx, Reg.mHeatLast (n.val - 1), Reg.mLastHeard (n.val - 1)] s t) ∧
  (∀ s : State, s.pourReady = true → s.cas.armed = true → s.cas.stuck = false → s.rd Reg.pourInEn = 1 →
    s.rd Reg.pourInFilter ≤ s.run rcPourLow →
    Does .pourInTrigger s fun t =>
      t.cas.armed = false ∧ Counts Reg.pourInCount s t ∧ Accepts 6 [Reg.pourInCount] s t) ∧
  (∀ s : State, s.taken = true → s.pads.pour = true → s.cas.pulseEnd ≤ s.tick →
    Does .pourPulseEnd s fun t =>
      t = { s with pads := { s.pads with pour := false }, cas := { s.cas with quiet := 16 } }) ∧
  (∀ s : State, s.taken = true → s.sup.running = true → s.cas.stuck = false → 2560 ≤ s.run rcPourStuck →
    Does .pourStuck s fun t =>
      t.cas.stuck = true ∧ t.cas.armed = false ∧ t.rd Reg.pourLineState = 3 ∧ Counts Reg.pourStuckCount s t ∧
      t.bitOf Reg.casFlags 2 = true ∧ Creates 0x5004 s t ∧
      Frame (eventKeys ++ [Reg.pourLineState, Reg.pourStuckCount]) [] s t) ∧
  (∀ (s : State) (b : List Byte), s.casTakes 4 1 (byteList b) (broadcastDirty (byteList b)) = true → (byteList b).getD 0 0 = 1 →
    s.phase = .start → s.lad.permit = false →
    Does (.staggerReferenceRx 1 b) s fun t =>
      t.cas.stagger = some s.clk.cyc ∧ t.cas.heat = s.cas.heat ∧ t.phase = .start ∧ Frame [] [] s t) ∧
  (∀ (s : State) (b : List Byte), s.casTakes 4 1 (byteList b) (broadcastDirty (byteList b)) = true → (byteList b).getD 0 0 = 2 →
    Does (.heatAssignmentRx 1 b) s fun t =>
      t.cas.heat = some (field (byteList b) 4 4, s.tick) ∧ t.cas.stagger = s.cas.stagger ∧ Frame [] [] s t) ∧
  (∀ (s : State) (b : List Byte), s.casTakes 7 1 (byteList b) (anySet (byteList b) ((List.range 9).map (· + 7))) = true →
    Does (.stampSyncRx 1 b) s fun t =>
      t.clk = (s.pairStamp (field (byteList b) 0 6)).clk ∧ t.clk.count = s.clk.count ∧ Counts Reg.stampSyncRx s t ∧
      Frame [Reg.stampSyncRx] [] s t)

/-- FW_DIST_STEP: an answer moves a step on, an abort at the first step gives the member result 4 and with none left the
distribution is done, an abort that says pour or rest stops it; FW_DIST_GUARD_TIMEOUT. Where the rules leave it open the
model chooses: log entries 8, 40. -/
def Obligations.DistributionStepsAndStops : Prop :=
  (∀ (s : State) (d : Dist) (a : BitVec 32) (b : List Byte), s.cas.dist = some d → d.node ≠ 0 → d.step = 0 →
    a.toNat / 65536 = 0 →
    Does (.fwDistStep a b) s fun t =>
      t.cas.dist = some { d with step := 1, addr := 0, since := s.clk.cyc } ∧ Frame [] [] s t) ∧
  (∀ (s : State) (d : Dist) (a : BitVec 32) (b : List Byte), s.cas.dist = some d → d.node ≠ 0 → d.step = 0 → d.todo = [] →
    a.toNat / 65536 ≠ 0 → a.toNat / 65536 ≠ 0x0402 → a.toNat / 65536 ≠ 0x0403 →
    Does (.fwDistStep a b) s fun t =>
      t.cas.dist = none ∧ t.rd Reg.fwDist = 2 ∧ t.rd Reg.fwDistNode = 0 ∧ t.rd (Reg.fwDistResult ((d.node - 1) % 64)) = 4 ∧
      Frame [Reg.fwDist, Reg.fwDistNode, Reg.fwDistResult ((d.node - 1) % 64)] [] s t) ∧
  (∀ (s : State) (d : Dist) (a : BitVec 32) (b : List Byte), s.cas.dist = some d → d.node ≠ 0 → d.step ≠ 11 →
    (a.toNat / 65536 = 0x0402 ∨ a.toNat / 65536 = 0x0403) →
    Does (.fwDistStep a b) s fun t =>
      t.cas.dist = none ∧ t.rd Reg.fwDist = 4 ∧ t.rd Reg.fwDistNode = 0 ∧ t.rd (Reg.fwDistResult ((d.node - 1) % 64)) = 8 ∧
      Frame [Reg.fwDist, Reg.fwDistNode, Reg.fwDistResult ((d.node - 1) % 64)] [] s t) ∧
  (∀ (s : State) (d : Dist), s.cas.dist = some d → d.node ≠ 0 → d.step = 11 → d.since + 4096 ≤ s.clk.cyc →
    Does .fwDistGuardTimeout s fun t =>
      t.cas.dist = none ∧ t.rd Reg.fwDist = 4 ∧ t.rd Reg.fwDistNode = 0 ∧ t.rd (Reg.fwDistResult ((d.node - 1) % 64)) = 9 ∧
      Frame [Reg.fwDist, Reg.fwDistNode, Reg.fwDistResult ((d.node - 1) % 64)] [] s t)

/-- A request that is executed spends one token and one place of the cycle and renews the unlock; it changes nothing else before
its own work. One without a token, one past the 64 of the cycle, one inside its own retry-after and one to a source in
quarantine are not executed; one behind a due answer waits. SHADOW_EXPIRY, UNLOCK_TIMEOUT, QUARANTINE_END, USB_FRAME_TIMEOUT,
and PROTECTION_RECORD_WRITTEN for a password well, and for a map not. Where the rules leave it open the model chooses: log
entries 8, 51, 72, 77. -/
def Obligations.RequestsAreCountedLimitedAndTimedOut : Prop :=
  (∀ (s u : State) (op : Nat) (r : Req), s.intake op r = some u →
    SvcOnly s u ∧ u.svc.load = s.svc.load + 1 ∧ u.svc.answer = none ∧ (u.srcOf r.src).known = true ∧
    (u.srcOf r.src).lastReq = s.clk.cyc ∧
    (u.srcOf r.src).tokens = (s.touched r.src).tokens - (if (s.touched r.src).free op then 0 else 1) ∧
    (∀ j, j ≠ r.src.val → u.srcOf j = s.srcOf j)) ∧
  (∀ (s : State) (r : Req), s.deaf r.src = false → badForm Op.read r = false → s.awaits r.src = false → s.sup.romOnly = false →
    (s.srcOf r.src).retries = [] → (s.touched r.src).tokens = 0 →
    ∃ t a, exec (.read r) s = .next t ∧ t.svc.answer = some a ∧ a.status = 1 ∧ a.data = leBytes 4 0x01050001 ∧
      Frame answerKeys [] s t) ∧
  (∀ (s : State) (r : Req), s.deaf r.src = false → badForm Op.read r = false → s.awaits r.src = false → s.sup.romOnly = false →
    (s.srcOf r.src).retries = [] → (s.touched r.src).tokens ≠ 0 → 64 ≤ s.svc.load →
    ∃ t a, exec (.read r) s = .next t ∧ t.svc.answer = some a ∧ a.status = 1 ∧ a.data = leBytes 4 0x01030001 ∧
      (t.srcOf r.src).tokens = (s.touched r.src).tokens - 1 ∧ Frame answerKeys [] s t) ∧
  (∀ (s : State) (r : Req) (until_ code : Nat), s.deaf r.src = false → badForm Op.read r = false → s.awaits r.src = false →
    s.sup.romOnly = false → (s.srcOf r.src).retries = [(Op.read, reqKey r, until_, code)] → s.clk.cyc < until_ →
    Does (.read r) s fun t => Violates r.src Vc.flood s t ∧ Frame (violKeys r.src) [] s t) ∧
  (∀ (s : State) (r : Req), s.deaf r.src = true → s.badAddr r.src = false → Does (.read r) s fun t => t = s.unanswered) ∧
  (∀ (s : State) (r : Req), s.badAddr r.src = true → s.canQueues = true → (s.srcOf r.src).quarLeft = 0 →
    Does (.read r) s fun t => Violates r.src Vc.address s t ∧ t.svc.answer = none ∧ Frame (violKeys r.src) [] s t) ∧
  (∀ (s : State) (r : Req), s.deaf r.src = false → badForm Op.read r = false → s.awaits r.src = true →
    Does (.read r) s fun t =>
      (t.srcOf r.src).held = (s.srcOf r.src).held ++ [(Op.read, r)] ∧ t.svc.answer = none ∧ SvcOnly s t) ∧
  (∀ (s : State) (j : Src), Does (.shadowExpiry j) s fun t =>
      (∀ h, h ∈ (t.srcOf j).shadows ↔ h ∈ (s.srcOf j).shadows ∧ s.tick < h.expiry) ∧ SvcOnly s t) ∧
  (∀ (s : State) (j : Src), (s.srcOf j).unlocked = true → (s.srcOf j).lastReq + 3000 ≤ s.clk.cyc →
    Does (.unlockTimeout j) s fun t => (t.srcOf j).unlocked = false ∧ SvcOnly s t) ∧
  (∀ (s : State) (j : Src), (s.srcOf j).unlocked = true → s.clk.cyc < (s.srcOf j).lastReq + 3000 →
    Does (.unlockTimeout j) s fun t => t = s) ∧
  (∀ (s : State) (j : Src), (s.srcOf j).quarLeft = 1 →
    Does (.quarantineEnd j) s fun t =>
      (t.srcOf j).quarLeft = 0 ∧ (t.srcOf j).window = [] ∧ (t.srcOf j).known = false ∧
      Frame (eventKeys ++ sendKeys ++ [Reg.mState (j.val - 3)]) [] s t) ∧
  (∀ (s : State) (a : Nat), s.svc.usbFrame = some a → a + 2048 ≤ s.tick → (s.srcOf 1).quarLeft = 0 →
    Does .usbFrameTimeout s fun t =>
      t.svc.usbFrame = none ∧ t.svc.usbBuf = [] ∧ Violates 1 Vc.framing s t ∧ Frame (violKeys 1) [] s t) ∧
  (∀ (s : State) (a : Nat), s.svc.usbFrame = some a → a + 2048 ≤ s.tick → (s.srcOf 1).quarLeft ≠ 0 →
    Does .usbFrameTimeout s fun t => t = { s with svc := { s.svc with usbFrame := none, usbBuf := [] } }) ∧
  (∀ (s : State) (p : ProtRec) (j tag : Nat) (l : List (ProtRec × Nat × Nat × Nat)), s.fw.writing = (p, 1, j, tag) :: l →
    tag < 256 → (s.srcOf j).held = [] →
    Does (.protectionRecordWritten true) s fun t =>
      t.fw.record = some p ∧ t.fw.writing = l ∧ t.rd Reg.oemPwChange = 1 ∧ t.rd Reg.bootPref = fit Reg.bootPref p.bootPref ∧
      t.rd Reg.protCode = fit Reg.protCode p.protCode ∧
      t.svc.answer.map (fun a => (a.src, a.tag, a.status)) = some (j, tag, 0) ∧
      Quiet (sendKeys ++ [Reg.oemPwChange, Reg.bootPref, Reg.rollbackMin, Reg.protCode, Reg.protFlags]) [] s t ∧
      (∀ a, t.codeByte a = s.codeByte a) ∧ t.sto.nand = s.sto.nand ∧ t.fla.cope = s.fla.cope ∧ t.fla.drag = s.fla.drag ∧
      t.fla.sums = s.fla.sums ∧ RingKept s t) ∧
  (∀ (s : State) (p : ProtRec) (j tag : Nat) (l : List (ProtRec × Nat × Nat × Nat)), s.fw.writing = (p, 3, j, tag) :: l →
    tag < 256 → (s.srcOf j).held = [] →
    Does (.protectionRecordWritten false) s fun t =>
      t.fw.record = s.fw.record ∧ t.fw.writing = l ∧ t.rd Reg.protCodeSet = 2 ∧
      t.svc.answer.map (fun a => (a.src, a.tag, a.status, a.data)) = some (j, tag, 1, leBytes 4 0x06090000) ∧
      Frame (answerKeys ++ [Reg.protCodeSet]) [] s t)

/-- READ and DESCRIBE; reads of a hidden parameter and of an index that does not exist. Where the rules leave it open the
model chooses: log entry 51. -/
def Obligations.ParametersAreReadAndDescribed : Prop :=
  (∀ (s u : State) (r : Req) (w : Row), s.admits Op.read r = some u → rowIn (reqKey r) = some w →
    u.readBar r.src (reqKey r) w = none → r.data = [] → tySize w.ty ≤ maxL r.src → reqKey r ≠ Reg.logBatch → reqKey r ≠ Reg.winData →
    Serves (.read r) Op.read r (u.viewBytes r.src (reqKey r)) 0 s fun t => t = u) ∧
  (∀ (s u : State) (r : Req) (w : Row), s.admits Op.read r = some u → rowIn (reqKey r) = some w → w.acc ≠ .wo →
    u.hidden (reqKey r) = true → u.unlocked r.src = false →
    Refuses (.read r) Op.read r 0x02080000 0 s fun t => t = u) ∧
  (∀ (s u : State) (r : Req), s.intake Op.read r = some u → u.unready Op.read (reqKey r) = none → (rowsOf (reqKey r / 256)).isEmpty = true →
    masterOnly (reqKey r) = false →
    Refuses (.read r) Op.read r 0x02010000 0 s fun t => t = u) ∧
  (∀ (s u : State) (r : Req), s.admits Op.describe r = some u → r.data = [] →
    Serves (.describe r) Op.describe r (s.descriptor (reqKey r)) 0 s fun t => t = u)

/-- WRITE of a setting or another plain parameter, and FLAG_WRITE. What bars a write: a read-only parameter, a lock, pour,
rest, and a block that is not idle, each with its abort. Where the rules leave it open the model chooses: log entries 51,
60. -/
def Obligations.ParametersAreWrittenOrBarred : Prop :=
  (∀ (s u : State) (r : Req) (w : Row) (v : Nat), s.takes r = some (u, v) → rowIn (reqKey r) = some w → w.flag = false →
    w.acc ≠ .cmd → reqKey r ∉ [Reg.idleHold, Reg.feedEn 0, Reg.feedEn 1, Reg.cellTarget, Reg.logSeekSeq, Reg.logFilter] →
    s.scanSetting (reqKey r) = false →
    Serves (.write r) Op.write r [] 0 s fun t =>
      t.rd (reqKey r) = fit (reqKey r) v ∧
      (isSetting (reqKey r) = true → hvShare (reqKey r) = true → s.bar.shareSent = true →
        t.bar.unapplied = s.bar.unapplied ++ [{ seq := s.bar.nextSeq, sets := [(reqKey r, v)] }]) ∧
      Frame ([reqKey r] ++ sendKeys ++ allStreams.map Reg.streamOpen) [] s t) ∧
  (∀ (s u : State) (r : Req) (w : Row) (v : Nat), s.takes r = some (u, v) → rowIn (reqKey r) = some w → w.flag = false →
    w.acc ≠ .cmd → (reqKey r = Reg.logSeekSeq ∨ reqKey r = Reg.logFilter) →
    Serves (.write r) Op.write r [] 0 s fun t =>
      t.view r.src (reqKey r) = v ∧ (∀ j, j ≠ r.src.val → t.srcOf j = u.srcOf j) ∧ SvcOnly s t) ∧
  (∀ (s u : State) (r : Req) (w : Row) (v : Nat), s.takes r = some (u, v) → rowIn (reqKey r) = some w → w.flag = true →
    Serves (.flagWrite r) Op.write r [] 0 s fun t =>
      (∀ i, t.bitOf (reqKey r) i =
        (s.bitOf (reqKey r) i && (!v.testBit i || (tget 0 s.setNow (reqKey r)).testBit i))) ∧ Frame [reqKey r] [] s t) ∧
  (∀ (s u : State) (r : Req) (w : Row), s.admits Op.write r = some u → rowIn (reqKey r) = some w → w.acc = .ro →
    Refuses (.write r) Op.write r 0x02040000 0 s fun t => t = u) ∧
  (∀ (s u : State) (r : Req) (w : Row), s.admits Op.write r = some u → rowIn (reqKey r) = some w → w.acc = .rwu →
    u.unlocked r.src = false →
    Refuses (.write r) Op.write r 0x02050000 0 s fun t => t = u) ∧
  (∀ (s u : State) (r : Req) (w : Row), s.admits Op.write r = some u → rowIn (reqKey r) = some w → w.acc ≠ .ro → w.acc ≠ .rwu →
    s.phase = .pour → u.pourPermits (reqKey r) w = false →
    Refuses (.write r) Op.write r 0x04020000 0 s fun t => t = u) ∧
  (∀ (s u : State) (r : Req) (w : Row), s.admits Op.write r = some u → rowIn (reqKey r) = some w → w.acc ≠ .ro → w.acc ≠ .rwu →
    s.phase = .rest → u.pourPermits (reqKey r) w = false →
    Refuses (.write r) Op.write r 0x04030000 0 s fun t => t = u) ∧
  (∀ (s u : State) (r : Req) (w : Row), s.admits Op.write r = some u → rowIn (reqKey r) = some w → w.acc = .rwi →
    s.phase = .guard → s.idleStateNow.testBit (holdBit (reqKey r / 256)) = false →
    Refuses (.write r) Op.write r 0x04010000 (holdBit (reqKey r / 256)) s fun t => t = u)

/-- SEG_READ_INIT, SEG_WRITE_INIT, SEG_DATA of a read and of a write, its wrong segment number, SEG_ABORT, and SEG_TIMEOUT. Where
the rules leave it open the model chooses: log entries 51, 54, 78. -/
def Obligations.TransfersRunInSegments : Prop :=
  (∀ (s u : State) (r : Req) (w : Row), s.admits Op.segReadInit r = some u → rowIn (reqKey r) = some w →
    u.readBar r.src (reqKey r) w = none → r.data = [] → u.xfersFull r.src = false → reqKey r ≠ Reg.logBatch →
    reqKey r ≠ Reg.winData →
    Serves (.segReadInit r) Op.segReadInit r (leBytes 4 (u.viewBytes r.src (reqKey r)).length) 0 s fun t =>
      (t.srcOf r.src).xfer = some { write := false, key := reqKey r, total := (u.viewBytes r.src (reqKey r)).length,
                                    data := u.viewBytes r.src (reqKey r), at_ := s.clk.cyc, tag := r.tag.toNat } ∧
      ((u.srcOf r.src).xfer = none → Frame [] [] s t) ∧ Frame answerKeys [] s t) ∧
  (∀ (s u : State) (r : Req) (w : Row) (x : Transfer), s.admits Op.segReadInit r = some u → rowIn (reqKey r) = some w →
    u.readBar r.src (reqKey r) w = none → r.data = [] → u.xfersFull r.src = false → reqKey r ≠ Reg.logBatch →
    reqKey r ≠ Reg.winData → (u.srcOf r.src).xfer = some x → x.fin = false →
    Serves (.segReadInit r) Op.segReadInit r (leBytes 4 (u.viewBytes r.src (reqKey r)).length) 0 s fun t =>
      t.svc.answer = some { src := r.src, tag := x.tag, opcode := Op.segData + 0x80, status := 1, index := x.key / 256,
                            sub := x.key % 256, data := leBytes 4 0x05050000 }) ∧
  (∀ (s u : State) (r : Req) (w : Row), s.admits Op.segWriteInit r = some u → rowIn (reqKey r) = some w →
    u.writeBar r.src (reqKey r) w = none → r.data.length = 4 → fitsTotal (reqKey r) w (leValue (reqBytes r)) = true →
    u.xfersFull r.src = false →
    Serves (.segWriteInit r) Op.segWriteInit r [] 0 s fun t =>
      (t.srcOf r.src).xfer = some { write := true, key := reqKey r, total := leValue (reqBytes r), addr := s.rd Reg.winAddr,
                                    at_ := s.clk.cyc, tag := r.tag.toNat } ∧
      ((u.srcOf r.src).xfer = none → Frame [] [] s t) ∧ Frame answerKeys [] s t) ∧
  (∀ (s u : State) (r : Req) (x : Transfer), s.admits Op.segData r = some u → (u.srcOf r.src).xfer = some x → x.write = false →
    x.key ≠ Reg.winData → x.fin = false → reqBytes r = [x.count % 256] →
    Serves (.segData r) Op.segData r (x.count % 256 :: u.segBytes r.src x x.count)
      (if x.total ≤ (x.count + 1) * (maxL r.src - 1) then 0x80 else 0) s fun t =>
      (t.srcOf r.src).xfer.map (fun y => (y.count, y.data)) = some (x.count + 1, x.data) ∧ Frame [Reg.evFlags] [] s t) ∧
  (∀ (s u : State) (r : Req) (x : Transfer) (l : List Nat), s.admits Op.segData r = some u → (u.srcOf r.src).xfer = some x →
    x.write = true → x.fin = false → reqBytes r = x.count % 256 :: l → r.flags.toNat < 128 → x.data.length + l.length ≤ x.total →
    Serves (.segData r) Op.segData r [x.count % 256] 0 s fun t =>
      (t.srcOf r.src).xfer = some { x with data := x.data ++ l, count := x.count + 1, at_ := s.clk.cyc, tag := r.tag.toNat } ∧ Frame [] [] s t) ∧
  (∀ (s u : State) (r : Req) (x : Transfer) (w : Row) (l : List Nat) (v : Nat), s.admits Op.segData r = some u →
    (u.srcOf r.src).xfer = some x → x.write = true → x.fin = false → reqBytes r = x.count % 256 :: l → 128 ≤ r.flags.toNat →
    x.data.length + l.length = x.total → rowIn x.key = some w → u.writeBar r.src x.key w = none →
    u.checkWrite x.key w (x.data ++ l) = .ok v → w.flag = false → w.acc ≠ .cmd → x.key ≠ Reg.winData →
    x.key ∉ [Reg.idleHold, Reg.feedEn 0, Reg.feedEn 1, Reg.cellTarget, Reg.logSeekSeq, Reg.logFilter] →
    s.scanSetting x.key = false →
    Serves (.segData r) Op.segData r [x.count % 256] 0 s fun t =>
      (t.srcOf r.src).xfer = none ∧ t.rd x.key = fit x.key v ∧
      Frame ([x.key] ++ sendKeys ++ allStreams.map Reg.streamOpen) [] s t) ∧
  (∀ (s u : State) (r : Req) (x : Transfer) (n : Nat) (l : List Nat), s.admits Op.segData r = some u → (u.srcOf r.src).xfer = some x →
    reqBytes r = n :: l → n ≠ x.count % 256 → (x.count = 0 ∨ n ≠ (x.count - 1) % 256) → (s.srcOf r.src).window = [] →
    Does (.segData r) s fun t =>
      (t.srcOf r.src).xfer = none ∧ Violates r.src Vc.segment s t ∧
      (∃ a, t.svc.answer = some a ∧ a.data = leBytes 4 (0x05010000 + x.count % 256)) ∧ Frame (violKeys r.src) [] s t) ∧
  (∀ (s u : State) (r : Req), s.admits Op.segAbort r = some u →
    Serves (.segAbort r) Op.segAbort r [] 0 s fun t => (t.srcOf r.src).xfer = none ∧ SvcOnly s t) ∧
  (∀ (s : State) (j : Src) (x : Transfer), (s.srcOf j).xfer = some x → x.at_ + 64 ≤ s.clk.cyc →
    Does (.segTimeout j) s fun t => (t.srcOf j).xfer = none ∧ (x.fin = false → (t.srcOf j).timedOut = true) ∧ SvcOnly s t)

/-- WINDOW_READ of the code flash, WINDOW_WRITE of a range that may be programmed and of one that may not, WINDOW_WRITE_DONE well
and not, LOG_BATCH over USB and over the link, which cannot carry it. Where the rules leave it open the model chooses: log
entries 41, 51, 55, 57, 94. -/
def Obligations.WindowsAndBatches : Prop :=
  (∀ (s u : State) (r : Req) (x : Transfer), s.admits Op.segData r = some u → (u.srcOf r.src).xfer = some x → x.write = false →
    x.key = Reg.winData → x.fin = false → reqBytes r = [x.count % 256] →
    s.winReadFault (x.addr + x.count * (maxL r.src - 1)) (min (maxL r.src - 1) (x.total - x.count * (maxL r.src - 1))) false = (0, 0) →
    Serves (.windowRead r 0) Op.segData r
      (x.count % 256 :: (List.range (min (maxL r.src - 1) (x.total - x.count * (maxL r.src - 1)))).map
        (fun b => s.winByte (x.addr + x.count * (maxL r.src - 1) + b)))
      (if x.total ≤ (x.count + 1) * (maxL r.src - 1) then 0x80 else 0) s fun t => Frame [Reg.evFlags] [] s t) ∧
  (∀ (s u : State) (r : Req) (x : Transfer) (l : List Nat), s.admits Op.segData r = some u → (u.srcOf r.src).xfer = some x →
    x.write = true → x.key = Reg.winData → x.fin = false → reqBytes r = x.count % 256 :: l → 128 ≤ r.flags.toNat →
    x.data.length + l.length = x.total → u.winWriteFault r.src x.addr x.total = (0, 0) →
    Does (.windowWrite r) s fun t =>
      t.rd Reg.fwState = 3 ∧ t.svc.answer = none ∧ (t.srcOf r.src).xfer = none ∧
      t.fw.write.map (fun y => (y.addr, y.data, y.src, y.tag, y.seg)) =
        some (x.addr, x.data ++ l, r.src.val, r.tag.toNat, x.count % 256) ∧
      Frame [Reg.fwState] [] s t) ∧
  (∀ (s u : State) (r : Req) (x : Transfer) (l : List Nat), s.admits Op.segData r = some u → (u.srcOf r.src).xfer = some x →
    x.write = true → x.key = Reg.winData → x.fin = false → reqBytes r = x.count % 256 :: l → 128 ≤ r.flags.toNat →
    x.data.length + l.length = x.total → 0x280000 < x.addr + x.total →
    Refuses (.windowWrite r) Op.segData r 0x06020000 0 s fun t =>
      t.rd Reg.winLastAbort = 0x06020000 ∧ t.fw = s.fw ∧ Frame [Reg.winLastAbort] [] s t) ∧
  (∀ (s : State) (w : WinWrite), s.fw.write = some w → (s.srcOf w.src).held = [] →
    Does (.windowWriteDone true) s fun t =>
      t.fw.write = none ∧ t.fw.code = progWords s.fw.code (w.addr / 8) (w.data.length / 8) w.data ∧
      t.rd Reg.wordsProgrammed = fit Reg.wordsProgrammed (s.rd Reg.wordsProgrammed + w.data.length / 8) ∧
      t.rd Reg.fwProgress = fit Reg.fwProgress (s.rd Reg.fwProgress + 8 * (w.data.length / 8)) ∧
      t.svc.answer.map (fun a => (a.src, a.tag, a.status, a.data)) = some (w.src, w.tag, 0, [w.seg]) ∧
      Quiet (sendKeys ++ [Reg.wordsProgrammed, Reg.fwProgress]) [] s t ∧ t.fw.record = s.fw.record ∧ t.sto.nand = s.sto.nand ∧
      t.fla.cope = s.fla.cope ∧ t.fla.drag = s.fla.drag ∧ t.fla.sums = s.fla.sums ∧ RingKept s t) ∧
  (∀ (s : State) (w : WinWrite), s.fw.write = some w → (s.srcOf w.src).held = [] →
    Does (.windowWriteDone false) s fun t =>
      t.fw.write = none ∧ t.rd Reg.fwState = 7 ∧ t.rd Reg.fwCmd = 3 ∧ t.bitOf Reg.fwFlags 3 = true ∧
      t.rd Reg.winLastAbort = 0x06090000 ∧
      t.svc.answer.map (fun a => (a.src, a.tag, a.status, a.data)) = some (w.src, w.tag, 1, leBytes 4 0x06090000) ∧
      Quiet (eventKeys ++ answerKeys ++ [Reg.fwState, Reg.fwCmd, Reg.fwFlags, Reg.winLastAbort, Reg.fwProgress]) [] s t ∧ StoresKept s t) ∧
  (∀ (s u : State) (src : Src) (tag : Byte) (b : List Nat × (Nat × Nat × Bool)),
    s.admits Op.read { src := src, tag := tag, index := 0x6100, sub := 0x03 } = some u → src.val = 1 → u.batch src = .ok b →
    Serves (.logBatch src tag) Op.read { src := src, tag := tag, index := 0x6100, sub := 0x03 } b.1 0 s fun t =>
      (t.srcOf src).cursor = some b.2.1 ∧
      (t.srcOf src).readTorn = ((u.srcOf src).readTorn + b.2.2.1) % 2 ^ 32 ∧ Frame [Reg.evFlags] [] s t) ∧
  (∀ (s u : State) (src : Src) (tag : Byte),
    s.admits Op.read { src := src, tag := tag, index := 0x6100, sub := 0x03 } = some u → src.val ≠ 1 →
    Refuses (.logBatch src tag) Op.read { src := src, tag := tag, index := 0x6100, sub := 0x03 } 0x03010000 1024 s fun t => t = u)

/-- A request that comes in a CTRL_REQ, in a CAN frame or in a USB frame is executed as the request it carries (here a READ); a
CTRL_REQ of a quarantined link is dropped and noted, a USB frame with a wrong CRC is counted, and one that is not complete
waits; bytes before a sync are hunted over. Where the rules leave it open the model chooses: log entries 44, 51, 76, 79, 80. -/
def Obligations.CarriersBringRequests : Prop :=
  (∀ (s v : State) (f : RxFrame) (b : List Byte), s.takeAny (fun g => g.ty = 0x20) = some (f, v) → s.sup.running = true →
    s.sessionUp = true → (s.srcOf 0).quarLeft = 0 → b = f.payload.map (BitVec.ofNat 8) → (b.getD 7 0).toNat + 8 = b.length →
    (f.payload.getD 0 0 = 0 ∨ f.payload.getD 0 0 = s.node) → bodyOp b = Op.read →
    Does .ctrlReqRx s fun t => exec (.read (bodyReq 0 b)) (v.noteCtrl (f.payload.getD 1 0) (bodyOp b) 1) = .next t) ∧
  (∀ (s v : State) (f : RxFrame), s.takeAny (fun g => g.ty = 0x20) = some (f, v) → s.sup.running = true → (s.srcOf 0).quarLeft ≠ 0 →
    Does .ctrlReqRx s fun t => t.ll.rxq = s.ll.rxq.erase f ∧ t.svc.answer = none ∧ Frame [Reg.lastCtrl] [] s t) ∧
  (∀ (s : State) (a : BitVec 7) (b : List Byte), s.canQueues = true → 0 < a.toNat → a.toNat < 127 → a.toNat ≠ s.node →
    (s.srcOf (a.toNat + 2)).quarLeft = 0 → 8 ≤ b.length → (b.getD 0 0).toNat = s.node → 8 + (b.getD 7 0).toNat ≤ b.length →
    bodyOp b = Op.read →
    Does (.canRequestRx a true b) s fun t =>
      exec (.read (bodyReq (Fin.ofNat 129 (a.toNat + 2)) (b.take (8 + (b.getD 7 0).toNat)))) s = .next t) ∧
  (∀ (s : State) (b f : List Byte) (n : Nat), s.deaf 1 = false → (∀ a, s.svc.usbFrame = some a → s.tick < a + 2048) →
    f = huntSync (s.svc.usbBuf ++ b) → f.take 2 = [0x4B, 0x6F] → n = field (f.map (·.toNat)) 2 2 → 8 ≤ n →
    n ≤ 1032 → f.length = n + 8 → crc32 (((f.map (·.toNat)).drop 2).take (n + 2)) = field (f.map (·.toNat)) (n + 4) 4 →
    (f.getD 11 0).toNat = (n - 8) % 256 → ((f.getD 4 0).toNat = 0 ∨ (f.getD 4 0).toNat = s.node) → bodyOp ((f.drop 4).take n) = Op.read →
    Does (.usbFrameRx b) s fun t =>
      exec (.read (bodyReq 1 ((f.drop 4).take n))) { s with svc := { s.svc with usbFrame := none, usbBuf := [] } } = .next t) ∧
  (∀ (s : State) (b f : List Byte) (n : Nat), s.deaf 1 = false → (∀ a, s.svc.usbFrame = some a → s.tick < a + 2048) →
    f = huntSync (s.svc.usbBuf ++ b) → f.take 2 = [0x4B, 0x6F] → n = field (f.map (·.toNat)) 2 2 → 8 ≤ n →
    n ≤ 1032 → f.length = n + 8 → crc32 (((f.map (·.toNat)).drop 2).take (n + 2)) ≠ field (f.map (·.toNat)) (n + 4) 4 →
    (s.srcOf 1).window = [] →
    Does (.usbFrameRx b) s fun t =>
      Violates 1 Vc.framing s t ∧ t.svc.answer.map (fun a => (a.src, a.opcode, a.data)) = some (1, 0x7F, [2]) ∧
      Frame (violKeys 1) [] s t) ∧
  (∀ (s : State) (b f : List Byte), s.deaf 1 = false → s.svc.usbFrame = none → s.svc.usbBuf ++ b ≠ [] →
    f = huntSync (s.svc.usbBuf ++ b) → f ≠ [] → f.length < 4 →
    Does (.usbFrameRx b) s fun t =>
      t.svc.usbBuf = f ∧ t.svc.usbFrame = some s.tick ∧ t.svc.answer = none ∧ SvcOnly s t)

/-- CONFIG_COMMIT takes its snapshot for the bank that does not hold the copy in force; CONFIG_DEFAULTS and CONFIG_RELOAD put a
whole set in force but for settings whose block is not idle. Where the rules leave it open the model chooses: log entries 51,
61, 82, 83. -/
def Obligations.ConfigCommandsActOnTheSet : Prop :=
  (∀ (s u : State) (src : Src) (tag : Byte), s.lets src tag Reg.configCommit 1 = some u → s.svc.commit = none →
    Answers (.configCommit src tag) src tag Reg.configCommit s fun t =>
      t.rd Reg.configCommit = 1 ∧ t.fla.left = commitSectors s.workingSet ∧ t.fla.begun = false ∧ t.svc.commit = some (if s.bestBank = some 0 then 1 else 0, s.workingSet) ∧
      Frame [Reg.configCommit] [] s t) ∧
  (∀ (s u : State) (src : Src) (tag : Byte), s.lets src tag Reg.configCommit 2 = some u → s.svc.commit = none →
    Answers (.configDefaults src tag) src tag Reg.configCommit s fun t =>
      t.rd Reg.configCommit = 2 ∧ t.rd Reg.reloadSkipped = fit Reg.reloadSkipped s.firstSkipped ∧
      (∀ k, isSetting k = true → t.rd k = if s.rwiBusy k then s.rd k else dfltAt k) ∧
      (∀ k, isSetting k = false → k ∉ [Reg.configCommit, Reg.reloadSkipped] ++ sendKeys ++ allStreams.map Reg.streamOpen →
        t.rd k = s.rd k) ∧
      (s.bar.shareSent = true → ∀ k, isSetting k = true → hvShare k = true → t.rd k ≠ s.rd k →
        ∃ f ∈ t.bar.unapplied, f.sets = [(k, t.rd k)]) ∧
      (∀ k, t.hrd k = s.hrd k) ∧ SameStores s t) ∧
  (∀ (s u : State) (src : Src) (tag : Byte) (b : Nat), s.lets src tag Reg.configCommit 3 = some u → s.svc.commit = none →
    (s.svc.lastBank = 0 ∧ s.bestBank = some b ∨ s.svc.lastBank = b + 1) →
    Answers (.configReload src tag) src tag Reg.configCommit s fun t =>
      t.rd Reg.configCommit = 2 ∧ t.rd Reg.reloadSkipped = fit Reg.reloadSkipped s.firstSkipped ∧
      (∀ k, isSetting k = true → t.rd k = if s.rwiBusy k then s.rd k else fit k (loadedAt (s.loadBank b).1 k)) ∧
      (∀ k, isSetting k = false → k ∉ [Reg.configCommit, Reg.reloadSkipped, Reg.configBank, Reg.configSeq, Reg.configStamp,
        Reg.configLoadSkips, Reg.dfSuspends] ++ sendKeys ++ allStreams.map Reg.streamOpen → t.rd k = s.rd k) ∧
      (s.dataErasing b = true → Counts Reg.dfSuspends s t) ∧ (∀ k, t.hrd k = s.hrd k) ∧ SameStores s t)

/-- OEM_UNLOCK with the password, with another and with no attempts left, OEM_LOCK, and OEM_PW_CHANGE, PROT_CODE_SET,
DEBUG_CLOSE and DEBUG_OPEN of an unlocked source, whose record waits to be written before the answer. Where the rules
leave it open the model chooses: log entry 51. -/
def Obligations.LocksAndProtectionAreWritten : Prop :=
  (∀ (s u : State) (src : Src) (tag : Byte) (pw : BitVec 64), s.lets src tag Reg.oemUnlock pw.toNat = some u →
    s.svc.attempts ≠ 0 → pw.toNat = s.prot.password →
    Answers (.oemUnlock src tag pw) src tag Reg.oemUnlock s fun t =>
      t.unlocked src = true ∧ t.svc.attempts = 8 ∧ t.rd Reg.pwAttemptsLeft = 8 ∧ Frame [Reg.pwAttemptsLeft] [] s t) ∧
  (∀ (s u : State) (src : Src) (tag : Byte) (pw : BitVec 64), s.lets src tag Reg.oemUnlock pw.toNat = some u →
    1 < s.svc.attempts → s.svc.attempts ≤ 8 → pw.toNat ≠ s.prot.password →
    Refuses (.oemUnlock src tag pw) Op.write (valueReq src tag Reg.oemUnlock pw.toNat) 0x02060000 (s.svc.attempts - 1) s fun t =>
      t.unlocked src = u.unlocked src ∧ t.svc.attempts = s.svc.attempts - 1 ∧ t.rd Reg.pwAttemptsLeft = s.svc.attempts - 1 ∧
      Frame [Reg.pwAttemptsLeft] [] s t) ∧
  (∀ (s u : State) (src : Src) (tag : Byte) (pw : BitVec 64), s.lets src tag Reg.oemUnlock pw.toNat = some u →
    s.svc.attempts = 0 →
    Refuses (.oemUnlock src tag pw) Op.write (valueReq src tag Reg.oemUnlock pw.toNat) 0x02070000 0 s fun t => t = u) ∧
  (∀ (s u : State) (src : Src) (tag : Byte), s.lets src tag Reg.oemLock 1 = some u → s.prot.password ≠ 0 →
    Answers (.oemLock src tag) src tag Reg.oemLock s fun t => t.unlocked src = false ∧ Frame [] [] s t) ∧
  (∀ (s u : State) (src : Src) (tag : Byte) (pw : BitVec 64), s.lets src tag Reg.oemPwChange pw.toNat = some u →
    u.unlocked src = true → s.protBusy 1 = false →
    Does (.oemPwChange src tag pw) s fun t =>
      t.fw.writing = s.fw.writing ++ [({ s.protNext with password := pw.toNat, seq := s.protNext.seq + 1 }, 1, src.val, tag.toNat)] ∧
      t.svc.answer = none ∧ Frame [] [] s t) ∧
  (∀ (s u : State) (src : Src) (tag : Byte) (pm : BitVec 32), s.lets src tag Reg.protCodeSet pm.toNat = some u →
    u.unlocked src = true → s.protBusy 3 = false →
    Does (.protCodeSet src tag pm) s fun t =>
      t.fw.writing = s.fw.writing ++ [({ s.protNext with protCode := pm.toNat, seq := s.protNext.seq + 1 }, 3, src.val, tag.toNat)] ∧
      t.svc.answer = none ∧ Frame [] [] s t) ∧
  (∀ (s u : State) (src : Src) (tag : Byte), s.lets src tag Reg.debugClose 1 = some u → u.unlocked src = true →
    s.protBusy 4 = false →
    Does (.debugClose src tag) s fun t =>
      t.fw.writing = s.fw.writing ++ [({ s.protNext with debugClosed := true, seq := s.protNext.seq + 1 }, 4, src.val, tag.toNat)] ∧
      t.svc.answer = none ∧ Frame [] [] s t) ∧
  (∀ (s u : State) (src : Src) (tag : Byte), s.lets src tag Reg.debugClose 2 = some u → u.unlocked src = true →
    s.protBusy 4 = false →
    Does (.debugOpen src tag) s fun t =>
      t.fw.writing = s.fw.writing ++ [({ s.protNext with debugClosed := false, seq := s.protNext.seq + 1 }, 4, src.val, tag.toNat)] ∧
      t.svc.answer = none ∧ Frame [] [] s t)

/-- IDLE_HOLD: a value that changes no held block of the link or the eye scans, a value that disables the link, the one that
makes the takeover tick, and its refusal in guard. RESTART and RESTART_HELD end in a warm reset after their answer, and so
does REST_WAKE in rest; outside rest it does nothing. Where the rules leave it open the model chooses: log entries 41, 51,
58, 63. -/
def Obligations.HoldsAndRestartsAreCommanded : Prop :=
  (∀ (s u : State) (src : Src) (tag : Byte) (h : BitVec 16), s.lets src tag Reg.idleHold h.toNat = some u →
    s.holdFault h.toNat = none → (s.atStep Step.configHeld && decide (h.toNat % 128 = 0)) = false →
    h.toNat &&& 0x780 = s.rd Reg.idleHold &&& 0x780 →
    Does (.idleHold src tag h) s fun t => t.rd Reg.idleHold = h.toNat ∧
      Frame ([Reg.idleHold, Reg.canBusState] ++ sendKeys) [] s t) ∧
  (∀ (s u : State) (src : Src) (tag : Byte) (h : BitVec 16), s.lets src tag Reg.idleHold h.toNat = some u →
    s.holdFault h.toNat = none → (s.atStep Step.configHeld && decide (h.toNat % 128 = 0)) = false →
    heldBy h.toNat 0x180 = true → heldBy (s.rd Reg.idleHold) 0x180 = false → heldBy h.toNat 0x400 = heldBy (s.rd Reg.idleHold) 0x400 →
    s.ls ≠ Ls.disabled → s.dropped = false →
    Does (.idleHold src tag h) s fun t => t.rd Reg.idleHold = h.toNat ∧ LinkDrops 11 Ls.disabled s t ∧
      Frame (downKeys ++ sendKeys ++ [Reg.idleHold, Reg.canBusState] ++ allLanes.flatMap (fun p => [Reg.laneLogical p, Reg.laneStatus p]))
        [] s t) ∧
  (∀ (s u : State) (src : Src) (tag : Byte) (h : BitVec 16), s.lets src tag Reg.idleHold h.toNat = some u →
    s.atStep Step.configHeld = true → h.toNat % 128 = 0 → h.toNat &&& 0x780 = s.rd Reg.idleHold &&& 0x780 →
    Does (.idleHold src tag h) s fun t => t.rd Reg.idleHold = h.toNat ∧ t.taken = true ∧ t.rd Reg.isState = 1 ∧
      t.bar.shareSent = true ∧
      t.bar.unapplied = s.bar.unapplied ++ [{ seq := s.bar.nextSeq, sets := s.hvSettings, share := true }] ∧
      (∀ k, t.hrd k = s.hrd k) ∧ SameStores s t) ∧
  (∀ (s u : State) (src : Src) (tag : Byte) (h : BitVec 16), s.lets src tag Reg.idleHold h.toNat = some u →
    s.phase = .guard → h.toNat % 128 ≠ 0 →
    Refuses (.idleHold src tag h) Op.write (valueReq src tag Reg.idleHold h.toNat) 0x04060000 0 s fun t => t = u) ∧
  (∀ (s u : State) (src : Src) (tag : Byte), s.lets src tag Reg.restart 1 = some u → s.sup.source ≠ .off →
    Does (.restart src tag) s fun t =>
      t.rd Reg.resetCause = 2 ∧ t.heldBoot = false ∧ t.sup.bootDue = true ∧ t.sup.coldBoot = false ∧ t.sup.running = false ∧
      t.phase = .idle ∧ t.clk.count = s.clk.count ∧
      t.svc.answer.map (fun a => (a.src, a.tag, a.status)) = some (src.val, tag.toNat, 0) ∧
      (s.pads.b4 = false → HvKept false s t) ∧
      (∀ k, k ∉ [Reg.resetCause, Reg.seqLatch, Reg.failedRail, Reg.pwAttemptsLeft] → t.rd k = dfltAt k) ∧
      (s.rd Reg.fwState ≠ 1 → s.fla.erase = none → s.svc.commit = none → s.sto.erase = none →
        (∀ p ∈ s.sto.pages, p.busy = false) → StoresKept s t)) ∧
  (∀ (s u : State) (src : Src) (tag : Byte), s.lets src tag Reg.restart 2 = some u → s.sup.source ≠ .off →
    Does (.restartHeld src tag) s fun t =>
      t.rd Reg.resetCause = 2 ∧ t.heldBoot = true ∧ t.sup.bootDue = true ∧ t.sup.coldBoot = false ∧ t.sup.running = false ∧
      t.phase = .idle ∧ t.clk.count = s.clk.count ∧
      t.svc.answer.map (fun a => (a.src, a.tag, a.status)) = some (src.val, tag.toNat, 0) ∧ (s.pads.b4 = false → HvKept true s t) ∧
      (∀ k, k ∉ [Reg.resetCause, Reg.seqLatch, Reg.failedRail, Reg.pwAttemptsLeft] → t.rd k = dfltAt k) ∧
      (s.rd Reg.fwState ≠ 1 → s.fla.erase = none → s.svc.commit = none → s.sto.erase = none →
        (∀ p ∈ s.sto.pages, p.busy = false) → StoresKept s t)) ∧
  (∀ (s u : State) (src : Src) (tag : Byte), s.lets src tag Reg.restWake 1 = some u → s.phase = .rest → s.sup.running = true →
    s.sup.source ≠ .off →
    Does (.restWake src tag) s fun t =>
      t.rd Reg.resetCause = 5 ∧ t.heldBoot = false ∧ t.sup.bootDue = true ∧ t.sup.coldBoot = false ∧ t.sup.running = false ∧
      t.phase = .idle ∧ t.clk.count = s.clk.count ∧
      t.svc.answer.map (fun a => (a.src, a.tag, a.status)) = some (src.val, tag.toNat, 0) ∧ (s.pads.b4 = false → HvKept false s t) ∧
      (∀ k, k ∉ [Reg.resetCause, Reg.seqLatch, Reg.failedRail, Reg.pwAttemptsLeft] → t.rd k = dfltAt k) ∧
      (s.rd Reg.fwState ≠ 1 → s.fla.erase = none → s.svc.commit = none → s.sto.erase = none →
        (∀ p ∈ s.sto.pages, p.busy = false) → StoresKept s t)) ∧
  (∀ (s u : State) (src : Src) (tag : Byte), s.lets src tag Reg.restWake 1 = some u → s.phase ≠ .rest →
    Answers (.restWake src tag) src tag Reg.restWake s fun t => t = u)

/-- CONT_REARM returns the pads of its mask from Off; START_RETRY resumes a stopped start by its cause, and is refused while
start does not stand stopped; SEQ_CLEAR with and without a latch. Where the rules leave it open the model chooses: log
entries 51, 59. -/
def Obligations.PadsStartAndSequencerAreCleared : Prop :=
  (∀ (s u : State) (src : Src) (tag : Byte) (m : BitVec 16), s.lets src tag Reg.contRearm m.toNat = some u →
    Answers (.contRearm src tag m) src tag Reg.contRearm s fun t =>
      t.rd Reg.contRearm = m.toNat ∧ (∀ p, p < 12 → t.padIsOff p = (s.padIsOff p && !m.toNat.testBit p)) ∧
      Frame (eventKeys ++ [Reg.contRearm]) [] s t) ∧
  (∀ (s u : State) (src : Src) (tag : Byte), s.lets src tag Reg.startRetry 1 = some u → s.atStep Step.stopped = true →
    s.rd Reg.startStop = 1 → s.rd Reg.seqLatch ≠ 1 → s.rd Reg.isState ≠ 3 →
    Answers (.startRetry src tag) src tag Reg.startRetry s fun t =>
      t.seq.early = 0 ∧ t.rd Reg.startRetry = 1 ∧ t.rd Reg.startStop = 0 ∧ t.rd Reg.startStep = Step.onSlots ∧ t.rd Reg.seqState = 0 ∧
      Frame [Reg.startRetry, Reg.startStop, Reg.startStep, Reg.seqState] [] s t) ∧
  (∀ (s u : State) (src : Src) (tag : Byte), s.lets src tag Reg.startRetry 1 = some u → s.atStep Step.stopped = true →
    s.rd Reg.startStop = 1 → s.rd Reg.seqLatch = 1 →
    Answers (.startRetry src tag) src tag Reg.startRetry s fun t =>
      t.rd Reg.startRetry = 2 ∧ t.atStep Step.stopped = true ∧ Frame [Reg.startRetry] [] s t) ∧
  (∀ (s u : State) (src : Src) (tag : Byte), s.lets src tag Reg.startRetry 1 = some u → s.atStep Step.stopped = true →
    s.rd Reg.startStop ≠ 1 → s.rd Reg.startStop ≠ 4 → s.rd Reg.isState ≠ 3 →
    Answers (.startRetry src tag) src tag Reg.startRetry s fun t =>
      t.rd Reg.startRetry = 1 ∧ t.rd Reg.startStop = 0 ∧ t.rd Reg.startStep = Step.damp ∧
      (s.rd Reg.startStop = 2 → t.rd Reg.dampCount = 0) ∧
      Frame [Reg.startRetry, Reg.startStop, Reg.startStep, Reg.dampCount] [] s t) ∧
  (∀ (s u : State) (src : Src) (tag : Byte), s.lets src tag Reg.startRetry 1 = some u → s.atStep Step.stopped = true →
    s.rd Reg.startStop = 2 → s.rd Reg.isState = 3 →
    Answers (.startRetry src tag) src tag Reg.startRetry s fun t =>
      t.rd Reg.startRetry = 1 ∧ t.rd Reg.startStop = 4 ∧ t.atStep Step.stopped = true ∧ t.stopAt = Step.damp ∧ t.rd Reg.dampCount = 0 ∧
      Creates 0x1004 s t) ∧
  (∀ (s u : State) (src : Src) (tag : Byte), s.lets src tag Reg.startRetry 1 = some u → s.atStep Step.stopped = true →
    s.rd Reg.startStop = 4 → s.stopAt ≠ Step.onSlots → s.stopAt < 256 →
    Answers (.startRetry src tag) src tag Reg.startRetry s fun t =>
      t.rd Reg.startRetry = 1 ∧ t.rd Reg.startStop = 0 ∧ t.rd Reg.startStep = s.stopAt ∧ t.rd Reg.isState = 1 ∧
      Frame [Reg.startRetry, Reg.startStop, Reg.startStep, Reg.isState] [] s t) ∧
  (∀ (s u : State) (src : Src) (tag : Byte), s.lets src tag Reg.startRetry 1 = some u → s.atStep Step.stopped = false →
    Refuses (.startRetry src tag) Op.write (valueReq src tag Reg.startRetry 1) 0x04070000 0 s fun t =>
      t.rd Reg.startRetry = 2 ∧ Frame [Reg.startRetry] [] s t) ∧
  (∀ (s u : State) (src : Src) (tag : Byte), s.lets src tag Reg.seqClear 1 = some u → s.rd Reg.seqLatch ≠ 0 →
    Answers (.seqClear src tag) src tag Reg.seqClear s fun t =>
      t.rd Reg.seqClear = 1 ∧ t.rd Reg.seqLatch = 0 ∧ t.rd Reg.failedRail = 0xFF ∧ t.rd Reg.seqState = 0 ∧
      (∀ n, n < 8 → t.railSt n = if s.railSt n = Rs.failed then Rs.off else s.railSt n) ∧
      (∀ p, p < 8 → t.padIsOff p = false) ∧
      Frame (eventKeys ++ [Reg.seqClear, Reg.seqLatch, Reg.failedRail, Reg.seqState, Reg.railsGood] ++ allRails.map Reg.railState)
        [] s t) ∧
  (∀ (s u : State) (src : Src) (tag : Byte), s.lets src tag Reg.seqClear 1 = some u → s.rd Reg.seqLatch = 0 →
    Answers (.seqClear src tag) src tag Reg.seqClear s fun t => t.rd Reg.seqClear = 2 ∧ Frame [Reg.seqClear] [] s t)

/-- FEED_EN_OFF, FEED_EN_ON, FET_DMG_CLEAR, HU_CLEAR and HU_CLEAR_GROUP: each is put into a command frame for the HV die (what it
does there is COMMAND_FRAME_RX's); a write that would leave no feed and a clear of no damage are refused. CELL_TARGET_WRITE
leaves its target to be taken, LADLE_CLEAR clears every latch whose condition has gone; HU_CLEAR while the holdup is hot is
refused. Where the rules leave it open the model chooses: log entries 13, 51. -/
def Obligations.FeedsLadleAndHoldupAreCommanded : Prop :=
  (∀ (s u : State) (src : Src) (tag : Byte) (f : Feed), s.lets src tag (Reg.feedEn f) 0 = some u →
    s.feedEnRefused f 0 = false → s.bar.shareSent = true →
    Answers (.feedEnOff src tag f) src tag (Reg.feedEn f) s fun t =>
      t.rd (Reg.feedEn f) = 0 ∧ t.bar.unapplied = s.bar.unapplied ++ [{ seq := s.bar.nextSeq, sets := [(Reg.feedEn f, 0)] }] ∧
      Frame [Reg.feedEn f] [] s t) ∧
  (∀ (s u : State) (src : Src) (tag : Byte) (f : Feed), s.lets src tag (Reg.feedEn f) 0 = some u →
    s.feedEnRefused f 0 = true →
    Refuses (.feedEnOff src tag f) Op.write (valueReq src tag (Reg.feedEn f) 0) 0x03060000 (if f.val = 0 then 0x2040 else 0x2000) s
      fun t => t = u) ∧
  (∀ (s u : State) (src : Src) (tag : Byte) (f : Feed), s.lets src tag (Reg.feedEn f) 1 = some u → s.bar.shareSent = true →
    Answers (.feedEnOn src tag f) src tag (Reg.feedEn f) s fun t =>
      t.rd (Reg.feedEn f) = 1 ∧ t.bar.unapplied = s.bar.unapplied ++ [{ seq := s.bar.nextSeq, sets := [(Reg.feedEn f, 1)] }] ∧
      Frame [Reg.feedEn f] [] s t) ∧
  (∀ (s u : State) (src : Src) (tag : Byte) (f : Feed), s.lets src tag (Reg.feedEn f) 1 = some u →
    s.bar.shareSent = false →
    Answers (.feedEnOn src tag f) src tag (Reg.feedEn f) s fun t =>
      t.rd (Reg.feedEn f) = 1 ∧ t.bar.unapplied = s.bar.unapplied ∧ Frame [Reg.feedEn f] [] s t) ∧
  (∀ (s u : State) (src : Src) (tag : Byte) (f : Feed), s.lets src tag (Reg.fetDmgClear f) 1 = some u →
    s.rd (Reg.feedState f) = Fs.damaged →
    Answers (.fetDmgClear src tag f) src tag (Reg.fetDmgClear f) s fun t =>
      t.rd (Reg.fetDmgClear f) = 1 ∧
      t.bar.unapplied = s.bar.unapplied ++ [{ seq := s.bar.nextSeq, sets := [(Reg.fetDmgClear f, 1)] }] ∧
      Frame [Reg.fetDmgClear f] [] s t) ∧
  (∀ (s u : State) (src : Src) (tag : Byte) (f : Feed), s.lets src tag (Reg.fetDmgClear f) 1 = some u →
    s.rd (Reg.feedState f) ≠ Fs.damaged →
    Answers (.fetDmgClear src tag f) src tag (Reg.fetDmgClear f) s fun t =>
      t.rd (Reg.fetDmgClear f) = 2 ∧ Frame [Reg.fetDmgClear f] [] s t) ∧
  (∀ (s u : State) (src : Src) (tag : Byte) (mv : BitVec 16), s.lets src tag Reg.cellTarget mv.toNat = some u →
    Answers (.cellTargetWrite src tag mv) src tag Reg.cellTarget s fun t =>
      t.rd Reg.cellTarget = mv.toNat ∧ t.lad.pendingTarget = true ∧ t.lad.targetRun = 0 ∧
      (s.lad.pendingTarget = true → Counts Reg.targetsSuperseded s t) ∧
      Frame ([Reg.cellTarget, Reg.targetState, Reg.targetsSuperseded] ++ sendKeys ++ allStreams.map Reg.streamOpen) [] s t) ∧
  (∀ (s u : State) (src : Src) (tag : Byte), s.lets src tag Reg.ladleClear 1 = some u →
    Answers (.ladleClear src tag) src tag Reg.ladleClear s fun t =>
      (∀ i, 1 ≤ i → i ≤ 4 → t.bitOf Reg.ladleFault i = (s.bitOf Reg.ladleFault i && s.latchHolds i)) ∧
      t.rd Reg.ladleClear = (if t.ladleLatched then 2 else 1) ∧
      Frame (eventKeys ++ [Reg.ladleClear, Reg.ladleFault] ++ s.cellList.map Reg.cellFaults) [] s t) ∧
  (∀ (s u : State) (src : Src) (tag : Byte), s.lets src tag Reg.huClear 1 = some u → s.rdI Reg.huTemp < s.rdI Reg.huTmax →
    Answers (.huClear src tag) src tag Reg.huClear s fun t =>
      t.rd Reg.huClear = 1 ∧ t.hux.left = s.hux.left ∧ (2 ≤ s.rd Reg.huTestResult → s.rd Reg.huTestResult ≤ 4 → t.rd Reg.huTestResult = 0) ∧
      t.bar.unapplied = s.bar.unapplied ++ [{ seq := s.bar.nextSeq, sets := [(Reg.huClear, 1)] }] ∧
      Frame [Reg.huClear, Reg.huTestResult] [] s t) ∧
  (∀ (s u : State) (src : Src) (tag : Byte), s.lets src tag Reg.huClear 2 = some u → s.rdI Reg.huTemp < s.rdI Reg.huTmax →
    Answers (.huClearGroup src tag) src tag Reg.huClear s fun t =>
      t.rd Reg.huClear = 1 ∧ t.hux.left = [] ∧
      t.bar.unapplied = s.bar.unapplied ++ [{ seq := s.bar.nextSeq, sets := [(Reg.huClear, 2)] }] ∧
      Frame [Reg.huClear, Reg.huTestResult] [] s t) ∧
  (∀ (s u : State) (src : Src) (tag : Byte), s.lets src tag Reg.huClear 1 = some u → s.rdI Reg.huTmax ≤ s.rdI Reg.huTemp →
    Answers (.huClear src tag) src tag Reg.huClear s fun t =>
      t.rd Reg.huClear = 2 ∧ t.bar.unapplied = s.bar.unapplied ∧ Frame [Reg.huClear] [] s t)

/-- LINK_RETRAIN_FAST and LINK_RETRAIN_FULL of a running link, and where it is turned away; EYE_START with its points and
EYE_STOP. Where the rules leave it open the model chooses: log entries 51, 58, 81. -/
def Obligations.LinkAndEyeScansAreCommanded : Prop :=
  (∀ (s u : State) (src : Src) (tag : Byte), s.lets src tag Reg.linkRetrain 1 = some u → (s.ls = Ls.active ∨ s.ls = Ls.banked) → s.dropped = false →
    Does (.linkRetrainFast src tag) s fun t =>
      t.rd Reg.linkRetrain = 1 ∧ LinkDrops 6 Ls.eq s t ∧ Counts Reg.fastRetrains s t ∧
      Frame (downKeys ++ sendKeys ++ [Reg.linkRetrain, Reg.fastRetrains] ++ allLanes.map Reg.laneStatus) [] s t) ∧
  (∀ (s u : State) (src : Src) (tag : Byte), s.lets src tag Reg.linkRetrain 2 = some u → (s.ls = Ls.active ∨ s.ls = Ls.banked) → s.dropped = false →
    Does (.linkRetrainFull src tag) s fun t =>
      t.rd Reg.linkRetrain = 1 ∧ LinkDrops 6 Ls.detect s t ∧ Counts Reg.fullRetrains s t ∧
      Frame (downKeys ++ detectKeys ++ sendKeys ++ [Reg.linkRetrain, Reg.fullRetrains]) [] s t) ∧
  (∀ (s u : State) (src : Src) (tag : Byte), s.lets src tag Reg.linkRetrain 2 = some u → s.wasActive = false → s.ls ≠ Ls.banked →
    Does (.linkRetrainFull src tag) s fun t => t.rd Reg.linkRetrain = 2 ∧ t.ls = s.ls ∧ Frame ([Reg.linkRetrain] ++ sendKeys) [] s t) ∧
  (∀ (s u : State) (src : Src) (tag : Byte) (p : Lane), s.lets src tag (Reg.eyeCmd p) 1 = some u → s.rd (Reg.eyeCmd p) ≠ 1 →
    s.rd Reg.widthNow ≠ 0 → s.laneIn p = true → s.lanePoints p ≤ 1024 → s.bitOf Reg.idleHold 10 = false →
    Answers (.eyeStart src tag p) src tag (Reg.eyeCmd p) s fun t =>
      t.rd (Reg.eyeCmd p) = 1 ∧ t.rd (Reg.eyeDone p) = 0 ∧ (t.scanOf p).running = true ∧
      (t.scanOf p).points = eyePointsOf (s.rd (Reg.eyeType p)) (s.rd (Reg.eyeHStep p)) (s.rd (Reg.eyeVStep p)) ∧
      t.rd (Reg.eyePoints p) = fit (Reg.eyePoints p) (t.scanOf p).points.length ∧
      Frame [Reg.eyeCmd p, Reg.eyeDone p, Reg.eyePoints p] [] s t) ∧
  (∀ (s u : State) (src : Src) (tag : Byte) (p : Lane), s.lets src tag (Reg.eyeCmd p) 1 = some u → s.rd (Reg.eyeCmd p) ≠ 1 →
    (s.rd Reg.widthNow = 0 ∨ s.laneIn p = false) →
    Refuses (.eyeStart src tag p) Op.write (valueReq src tag (Reg.eyeCmd p) 1) 0x04090000 0 s fun t => t = u) ∧
  (∀ (s u : State) (src : Src) (tag : Byte) (p : Lane), s.lets src tag (Reg.eyeCmd p) 2 = some u → s.rd (Reg.eyeCmd p) = 1 →
    (s.scanOf p).running = true →
    Answers (.eyeStop src tag p) src tag (Reg.eyeCmd p) s fun t =>
      t.rd (Reg.eyeCmd p) = 3 ∧ (t.scanOf p).running = false ∧ (t.scanOf p).done = (s.scanOf p).done ∧
      Frame [Reg.eyeCmd p, Reg.svcReport, Reg.svcReportCmd, Reg.svcReports, Reg.svcSummary] [] s t)

/-- FW_ERASE, FW_VERIFY, FW_ACTIVATE, FW_ACCEPT_TRIAL and FW_CANCEL in the states that take them; a command in another is
refused. Where the rules leave it open the model chooses: log entries 41, 51, 59, 94. -/
def Obligations.FirmwareIsCommanded : Prop :=
  (∀ (s u : State) (src : Src) (tag : Byte), s.lets src tag Reg.fwCmd 1 = some u → s.cas.dist = none → s.rd Reg.fwCmd ≠ 1 →
    s.rd Reg.fwState ∈ [0, 2, 3, 4, 7] → (∀ c ∈ List.range 256, u.sectorProtected src s.inactiveSlot c = false) →
    Answers (.fwErase src tag) src tag Reg.fwCmd s fun t =>
      t.rd Reg.fwState = 1 ∧ t.rd Reg.fwCmd = 1 ∧ t.rd Reg.fwProgress = 0 ∧ t.rd Reg.fwVerifyResult = 0 ∧ t.fw.write = none ∧
      Quiet ([Reg.fwState, Reg.fwCmd, Reg.fwProgress, Reg.fwVerifyResult, Reg.wordsProgrammed] ++ sendKeys) [] s t ∧
      StoresKept s t ∧ (s.fw.write = none → t.rd Reg.wordsProgrammed = s.rd Reg.wordsProgrammed)) ∧
  (∀ (s u : State) (src : Src) (tag : Byte), s.lets src tag Reg.fwCmd 2 = some u → s.cas.dist = none → s.rd Reg.fwCmd ≠ 1 →
    (s.rd Reg.fwState = 2 ∨ s.rd Reg.fwState = 3) →
    Answers (.fwVerify src tag) src tag Reg.fwCmd s fun t =>
      t.fw.verifying = true ∧ t.rd Reg.fwCmd = 1 ∧ Frame [Reg.fwCmd] [] s t) ∧
  (∀ (s u : State) (src : Src) (tag : Byte), s.lets src tag Reg.fwCmd 3 = some u → s.cas.dist = none → s.rd Reg.fwCmd ≠ 1 →
    s.rd Reg.fwState = 4 →
    Does (.fwActivate src tag) s fun t =>
      t.fw.writing = s.fw.writing ++ [({ s.protNext with bootPref := s.inactiveSlot, trial := 1, seq := s.protNext.seq + 1 }, 2,
        src.val, tag.toNat)] ∧ t.rd Reg.fwCmd = 1 ∧ t.svc.answer = none ∧ Frame [Reg.fwCmd] [] s t) ∧
  (∀ (s u : State) (src : Src) (tag : Byte), s.lets src tag Reg.fwCmd 4 = some u → s.cas.dist = none → s.rd Reg.fwCmd ≠ 1 →
    s.rd Reg.fwState = 6 →
    Does (.fwAcceptTrial src tag) s fun t =>
      t.rd Reg.fwState = 0 ∧ t.rd Reg.fwCmd = 1 ∧ t.bitOf Reg.fwFlags 1 = true ∧ t.fw.writing.length = s.fw.writing.length + 1 ∧
      t.protNext.trial = 0 ∧ s.protNext.rollbackMin ≤ t.protNext.rollbackMin ∧ t.svc.answer = none ∧
      Frame (eventKeys ++ [Reg.fwState, Reg.fwCmd, Reg.fwFlags]) [] s t) ∧
  (∀ (s u : State) (src : Src) (tag : Byte), s.lets src tag Reg.fwCmd 5 = some u → s.cas.dist = none → s.rd Reg.fwCmd ≠ 1 →
    (s.rd Reg.fwState = 2 ∨ s.rd Reg.fwState = 3 ∨ s.rd Reg.fwState = 4) →
    Answers (.fwCancel src tag) src tag Reg.fwCmd s fun t =>
      t.rd Reg.fwState = 0 ∧ t.rd Reg.fwCmd = 2 ∧ t.fw.verifying = false ∧ t.fw.write = none ∧
      Quiet ([Reg.fwState, Reg.fwCmd, Reg.fwProgress, Reg.wordsProgrammed] ++ sendKeys) [] s t ∧ StoresKept s t ∧
      (s.fw.write = none → t.rd Reg.fwProgress = s.rd Reg.fwProgress ∧ t.rd Reg.wordsProgrammed = s.rd Reg.wordsProgrammed)) ∧
  (∀ (s u : State) (src : Src) (tag : Byte), s.lets src tag Reg.fwCmd 5 = some u → s.cas.dist = none → s.rd Reg.fwCmd ≠ 1 →
    s.rd Reg.fwState = 5 →
    Does (.fwCancel src tag) s fun t =>
      t.fw.writing = s.fw.writing ++ [({ s.protNext with bootPref := s.runningSlot, trial := 0, seq := s.protNext.seq + 1 }, 6,
        src.val, tag.toNat)] ∧ t.rd Reg.fwCmd = 1 ∧ t.svc.answer = none ∧ Frame [Reg.fwCmd] [] s t) ∧
  (∀ (s u : State) (src : Src) (tag : Byte), s.lets src tag Reg.fwCmd 3 = some u → s.rd Reg.fwCmd ≠ 1 → s.rd Reg.fwState ≠ 4 →
    Refuses (.fwActivate src tag) Op.write (valueReq src tag Reg.fwCmd 3) 0x040A0000 0 s fun t => t = u) ∧
  (∀ (s u : State) (src : Src) (tag : Byte), s.lets src tag Reg.fwCmd 3 = some u → s.rd Reg.fwCmd = 1 →
    Refuses (.fwActivate src tag) Op.write (valueReq src tag Reg.fwCmd 3) 0x04050000 0 s fun t => t = u)

/-- SHAKE_ABANDON of an unlocked source; FW_DIST_START with an addressed member here, and with none addressed; FW_DIST_STOP.
LOG_SEEK_OLDEST, LOG_SEEK_SEQ with the record in the ring and without, LOG_SEEK_NEWEST, LOG_CLOSE, a ninth cursor; the
reports SVC_LADLE_HEALTH and SVC_HOT_PANEL at once, SVC_WASHDOWN and SVC_LINK begun. Where the rules leave it open the
model chooses: log entries 40, 51, 60, 62. -/
def Obligations.ReportsLogAndDistributionAreCommanded : Prop :=
  (∀ (s u : State) (src : Src) (tag : Byte), s.lets src tag Reg.shakeAbandon 1 = some u → u.unlocked src = true →
    1 ≤ s.rd Reg.shakeState → s.rd Reg.shakeState ≤ 4 →
    Answers (.shakeAbandon src tag) src tag Reg.shakeAbandon s fun t =>
      t.rd Reg.shakeAbandon = 1 ∧ t.rd Reg.shakeState = 0 ∧ t.rd Reg.shakeReleased = 0xFF ∧ t.shake = false ∧
      t.shk.confirm.isSome = true ∧
      Frame (eventKeys ++ sendKeys ++ [Reg.shakeAbandon, Reg.shakeState, Reg.shakeReleased] ++ allStreams.map Reg.streamOpen) [] s t) ∧
  (∀ (s u : State) (src : Src) (tag : Byte) (k : NodeIx), s.lets src tag Reg.fwDist 1 = some u → u.unlocked src = true →
    s.cas.dist = none → s.phase = .guard → s.rd Reg.fwState = 3 → s.slotValid s.inactiveSlot = true → k.val ≠ 0 →
    (s.rd Reg.fwDistMask).testBit k = true → (∀ i ∈ List.range k.val, 0 < i → (s.rd Reg.fwDistMask).testBit i = false) →
    s.memberHere k = true →
    Answers (.fwDistStart src tag) src tag Reg.fwDist s fun t =>
      t.rd Reg.fwDist = 1 ∧ t.rd Reg.fwDistNode = k.val + 1 ∧ (∀ i, i < 64 → t.rd (Reg.fwDistResult i) = 0) ∧
      (t.cas.dist.elim 0 (·.node)) = k.val + 1 ∧
      Frame ([Reg.fwDist, Reg.fwDistNode] ++ (List.range 64).map Reg.fwDistResult) [] s t) ∧
  (∀ (s u : State) (src : Src) (tag : Byte), s.lets src tag Reg.fwDist 1 = some u → u.unlocked src = true →
    s.cas.dist = none → s.phase = .guard → s.rd Reg.fwState = 3 → s.slotValid s.inactiveSlot = true →
    (∀ i ∈ List.range 64, 0 < i → (s.rd Reg.fwDistMask).testBit i = false) →
    Answers (.fwDistStart src tag) src tag Reg.fwDist s fun t =>
      t.rd Reg.fwDist = 2 ∧ t.rd Reg.fwDistNode = 0 ∧ t.cas.dist = none ∧
      Frame ([Reg.fwDist, Reg.fwDistNode] ++ (List.range 64).map Reg.fwDistResult) [] s t) ∧
  (∀ (s u : State) (src : Src) (tag : Byte) (d : Dist), s.lets src tag Reg.fwDist 2 = some u → u.unlocked src = true →
    s.cas.dist = some d → 1 ≤ d.node → d.node ≤ 64 →
    Answers (.fwDistStop src tag) src tag Reg.fwDist s fun t =>
      t.rd Reg.fwDist = 4 ∧ t.rd Reg.fwDistNode = 0 ∧ t.rd (Reg.fwDistResult (d.node - 1)) = 8 ∧ t.cas.dist = none ∧
      Frame [Reg.fwDist, Reg.fwDistNode, Reg.fwDistResult (d.node - 1)] [] s t) ∧
  (∀ (s u : State) (src : Src) (tag : Byte), s.lets src tag Reg.logCmd 1 = some u → u.cursorFree src = true →
    Answers (.logSeekOldest src tag) src tag Reg.logCmd s fun t =>
      (t.srcOf src).cursor = some (s.oldestSlot.getD s.log.head) ∧ (t.srcOf src).logResult = 1 ∧ (t.srcOf src).readTorn = 0 ∧
      Frame [] [] s t) ∧
  (∀ (s u : State) (src : Src) (tag : Byte) (n : Nat), s.lets src tag Reg.logCmd 2 = some u → u.cursorFree src = true →
    s.firstSlot ((s.validSlots (fun r => r.kind = 1 && r.seq = (s.srcOf src).seekSeq)).map (·.1)) = some n →
    Answers (.logSeekSeq src tag) src tag Reg.logCmd s fun t =>
      (t.srcOf src).cursor = some n ∧ (t.srcOf src).logResult = 1 ∧ Frame [] [] s t) ∧
  (∀ (s u : State) (src : Src) (tag : Byte), s.lets src tag Reg.logCmd 2 = some u → u.cursorFree src = true →
    s.validSlots (fun r => r.kind = 1 && r.seq = (s.srcOf src).seekSeq) = [] →
    Answers (.logSeekSeq src tag) src tag Reg.logCmd s fun t =>
      (t.srcOf src).logResult = 3 ∧ (t.srcOf src).cursor = (u.srcOf src).cursor ∧ Frame [] [] s t) ∧
  (∀ (s u : State) (src : Src) (tag : Byte), s.lets src tag Reg.logCmd 3 = some u → u.cursorFree src = true →
    Answers (.logSeekNewest src tag) src tag Reg.logCmd s fun t =>
      (t.srcOf src).cursor = some (s.newestSlot.getD s.log.head) ∧ (t.srcOf src).logResult = 1 ∧ Frame [] [] s t) ∧
  (∀ (s u : State) (src : Src) (tag : Byte), s.lets src tag Reg.logCmd 4 = some u →
    Answers (.logClose src tag) src tag Reg.logCmd s fun t =>
      (t.srcOf src).cursor = none ∧ (t.srcOf src).logResult = 2 ∧ Frame [] [] s t) ∧
  (∀ (s u : State) (src : Src) (tag : Byte), s.lets src tag Reg.svcReportCmd 1 = some u → s.rep.kind = 0 → s.taken = true →
    Answers (.svcLadleHealth src tag) src tag Reg.svcReportCmd s fun t =>
      t.rd Reg.svcReportCmd = 2 ∧ Counts Reg.svcReports s t ∧ t.rep.kind = 0 ∧
      Frame [Reg.svcReport, Reg.svcReportCmd, Reg.svcReports, Reg.svcSummary] [] s t) ∧
  (∀ (s u : State) (src : Src) (tag : Byte), s.lets src tag Reg.svcReportCmd 2 = some u → s.rep.kind = 0 → s.taken = true →
    Answers (.svcHotPanel src tag) src tag Reg.svcReportCmd s fun t =>
      t.rd Reg.svcReportCmd = 2 ∧ Counts Reg.svcReports s t ∧ t.rep.kind = 0 ∧
      Frame [Reg.svcReport, Reg.svcReportCmd, Reg.svcReports, Reg.svcSummary] [] s t) ∧
  (∀ (s u : State) (src : Src) (tag : Byte), s.lets src tag Reg.svcReportCmd 3 = some u → s.rep.kind = 0 → s.phase = .guard →
    s.anyOpen = false →
    Answers (.svcWashdown src tag) src tag Reg.svcReportCmd s fun t =>
      t.rd Reg.svcReportCmd = 1 ∧ t.rep.kind = 3 ∧ t.rep.cyc = s.clk.cyc ∧ t.rep.src = src.val ∧ Frame [Reg.svcReportCmd] [] s t) ∧
  (∀ (s u : State) (src : Src) (tag : Byte) (p : Lane), s.lets src tag Reg.svcReportCmd 4 = some u → s.rep.kind = 0 →
    s.phase = .guard → s.rd Reg.linkUp = 1 → s.laneIn p = true → s.bitOf Reg.idleHold 10 = false →
    (∀ q : Lane, s.laneIn q = true → s.rd (Reg.eyeCmd q) ≠ 1 ∧ s.lanePoints q ≤ 1024) →
    Answers (.svcLink src tag) src tag Reg.svcReportCmd s fun t =>
      t.rd Reg.svcReportCmd = 1 ∧ t.rep.kind = 4 ∧ t.rd (Reg.eyeCmd p) = 1 ∧
      Frame ([Reg.svcReportCmd] ++ allLanes.flatMap (fun q => [Reg.eyeCmd q, Reg.eyeDone q, Reg.eyePoints q])) [] s t) ∧
  (∀ (s u : State) (src : Src) (tag : Byte), s.lets src tag Reg.svcReportCmd 3 = some u → s.rep.kind ≠ 0 →
    Refuses (.svcWashdown src tag) Op.write (valueReq src tag Reg.svcReportCmd 3) 0x04050000 0 s fun t => t = u)

/-- From every sound state a step leads to a sound state, and it takes exactly the command at the front of the queue off it. -/
def Obligations.EveryStepKeepsTheInvariant : Prop :=
  (∀ s t : State, step s = .next t → s.inv = true → t.inv = true) ∧
  (∀ s t : State, step s = .next t → t.pending = s.pending.tail)

/-- No command ends in a fault or a refusal: every command answers a next state in every state. Where the rules leave it open
the model chooses: log entries 8, 74. -/
def Obligations.EveryCommandCompletes : Prop :=
  ∀ (c : Instr) (s : State), ∃ t, exec c s = .next t

/-- Reset leaves the invariant true, nothing queued, both dies unpowered and every register at its default. Where the rules
leave it open the model chooses: log entries 6, 11. -/
def Obligations.ResetIsSoundAndUnpowered : Prop :=
  State.reset.inv = true ∧ State.reset.pending = [] ∧ State.reset.phase = .idle ∧ State.reset.sup.source = .off ∧
  State.reset.sup.main = false ∧ (∀ k, State.reset.rd k = dfltAt k) ∧ ∀ k, State.reset.hrd k = dfltAt k

/-- A step executes the command at the front of the queue on the state with the queue's rest; an empty queue idles (log entry
7). Where the rules leave it open the model chooses: log entry 7. -/
def Obligations.StepExecutesTheFrontCommand : Prop :=
  (∀ (c : Instr) (s : State), step { s with pending := c :: s.pending } = exec c s) ∧
  (∀ s : State, s.pending = [] → step s = .next s)

/-- An event outside cold read that is not written at once takes the next EVENT_SEQ and waits at the end of the queue with its
stamp, severity and parameters; one that finds the queue full is counted as dropped, is marked on the next one and owes
event 0x6001. Where the rules leave it open the model chooses: log entry 33. -/
def Obligations.EventsAreNumberedAndQueued : Prop :=
  (∀ (s : State) (code obj detail a b : Nat), s.coldRead = false → atOnceOf code (sevOf code detail) detail = false →
    s.queueTakes (sevOf code detail) = true → s.cas.evTx.length < 32 →
    ∃ t : State, t = s.event code obj detail a b ∧ t.rd Reg.eventSeq = (s.rd Reg.eventSeq + 1) % 2 ^ 32 ∧
      (∃ r : LogRec, t.log.queue = s.log.queue ++ [r] ∧ r.kind = 1 ∧ r.code = code ∧ r.seq = t.rd Reg.eventSeq ∧ r.stamp = s.stamp ∧
        r.sev = sevOf code detail ∧ r.node = s.rd Reg.nodeId ∧ r.boot = s.rd Reg.bootCount ∧ r.obj = obj ∧ r.detail = detail ∧
        r.a = a % 2 ^ 32 ∧ r.b = b % 2 ^ 32 ∧ r.dropped = s.log.mark) ∧
      (sevOf code detail = 2 → t.rd Reg.lastFaultCode = fit Reg.lastFaultCode code ∧ t.rd Reg.lastFaultStamp = fit Reg.lastFaultStamp s.stamp) ∧
      t.log.mark = false ∧ t.log.ring = s.log.ring ∧ Frame [Reg.eventSeq, Reg.lastFaultCode, Reg.lastFaultStamp] [] s t) ∧
  (∀ (s : State) (code obj detail a b : Nat), s.coldRead = false → atOnceOf code (sevOf code detail) detail = false →
    s.queueTakes (sevOf code detail) = false → s.cas.evTx.length < 32 →
    ∃ t : State, t = s.event code obj detail a b ∧ t.rd Reg.eventSeq = (s.rd Reg.eventSeq + 1) % 2 ^ 32 ∧
      t.log.queue = s.log.queue ∧ Counts Reg.logDrops s t ∧ t.bitOf Reg.evFlags 0 = true ∧ t.log.mark = true ∧ t.log.owed = true ∧
      (s.loaded = false → Counts Reg.startLogDrops s t) ∧ Frame eventKeys [] s t)

/-- Sub-index 0x00 of every existing index (R48): U8, RO, volatile, the highest sub-index present; no table lists it.
PROTECTED reads 1 while guard runs and 0 at every other time (R6), and 0 on VLOG without the power
side (R35). -/
def Obligations.SubIndexZeroAndProtected : Prop :=
  (∀ i : Nat, (rowsOf i).isEmpty = false →
    (∃ w, rowIn (i * 256) = some w ∧ w.ty = .u8 ∧ w.acc = .ro ∧ w.per = .volatile) ∧ (∀ w ∈ rowsOf i, w.sub ≠ 0)) ∧
  (∀ (s : State) (j i : Nat), (rowsOf i).isEmpty = false →
    s.view j (i * 256) < 256 ∧ (rowIn (i * 256 + s.view j (i * 256))).isSome = true ∧
    ∀ sub, s.view j (i * 256) < sub → sub < 256 → rowIn (i * 256 + sub) = none) ∧
  (∀ (s u : State) (r : Req), s.admits Op.read r = some u → reqKey r % 256 = 0 → r.data = [] →
    Serves (.read r) Op.read r [maxSub (reqKey r / 256)] 0 s fun t => t = u) ∧
  (∀ (s : State) (j : Nat), s.view j Reg.protectedFlag = 1 ↔ s.phase = .guard ∧ s.vlogAlone = false) ∧
  (∀ (s u : State) (r : Req), s.admits Op.read r = some u → reqKey r = Reg.protectedFlag → r.data = [] →
    Serves (.read r) Op.read r [if s.phase = .guard ∧ s.vlogAlone = false then 1 else 0] 0 s fun t => t = u)

/-- On a member k ≥ 2, the reads and writes of the master's parameters are refused (R457). -/
def Obligations.MembersAreNotTheMaster : Prop :=
  (∀ (s u : State) (r : Req) (c : Instr) (op : Nat), (c, op) ∈ [(.read r, Op.read), (.readLow r, Op.readLow), (.readHigh r, Op.readHigh),
      (.segReadInit r, Op.segReadInit), (.write r, Op.write), (.flagWrite r, Op.write), (.clearIfEqual r, Op.clearIfEqual),
      (.segWriteInit r, Op.segWriteInit)] →
    s.intake op r = some u → u.unready op (reqKey r) = none → 2 ≤ s.node → 0x5100 ≤ r.index.toNat → r.index.toNat ≤ 0x513F →
    Refuses c op r 0x040B0000 0 s fun t => t = u) ∧
  (∀ (s u : State) (r : Req) (c : Instr) (op : Nat), (c, op) ∈ [(.read r, Op.read), (.readLow r, Op.readLow), (.readHigh r, Op.readHigh),
      (.segReadInit r, Op.segReadInit), (.write r, Op.write), (.flagWrite r, Op.write), (.clearIfEqual r, Op.clearIfEqual),
      (.segWriteInit r, Op.segWriteInit)] →
    s.intake op r = some u → u.unready op (reqKey r) = none → 2 ≤ s.node → (reqKey r = Reg.fwDist ∨ reqKey r = Reg.fwDistMask) →
    Refuses c op r 0x040B0000 0 s fun t => t = u)

/-- A value longer than the transport's maximum L, and the memory window, move only in segments (R77). -/
def Obligations.LongValuesMoveInSegments : Prop :=
  (∀ (s u : State) (r : Req) (w : Row), s.admits Op.read r = some u → rowIn (reqKey r) = some w → u.readBar r.src (reqKey r) w = none →
    r.data = [] → (maxL r.src < tySize w.ty ∨ reqKey r = Reg.winData) →
    Refuses (.read r) Op.read r 0x03010000 (tySize w.ty) s fun t => t = u) ∧
  (∀ (s u : State) (r : Req) (w : Row), s.admits Op.write r = some u → rowIn (reqKey r) = some w → u.writeBar r.src (reqKey r) w = none →
    (maxL r.src < tySize w.ty ∨ reqKey r = Reg.winData) →
    Refuses (.write r) Op.write r 0x03010000 (tySize w.ty) s fun t => t = u) ∧
  (∀ (s u : State) (r : Req) (w : Row), s.admits Op.segReadInit r = some u → rowIn (reqKey r) = some w →
    u.readBar r.src (reqKey r) w = none → r.data = [] → u.xfersFull r.src = false → reqKey r ≠ Reg.logBatch →
    Does (.segReadInit r) s fun t => (t.srcOf r.src).xfer.map (fun x => (x.write, x.key)) = some (false, reqKey r) ∧ Frame answerKeys [] s t) ∧
  (∀ (s u : State) (r : Req) (w : Row), s.admits Op.segWriteInit r = some u → rowIn (reqKey r) = some w →
    u.writeBar r.src (reqKey r) w = none → r.data.length = 4 → fitsTotal (reqKey r) w (leValue (reqBytes r)) = true →
    u.xfersFull r.src = false →
    Does (.segWriteInit r) s fun t => (t.srcOf r.src).xfer.map (fun x => (x.write, x.key)) = some (true, reqKey r) ∧ Frame answerKeys [] s t)

/-- What a write of CELL_TARGET (R205) and one of CHG_I or CHG_RSENSE (R209) must meet: it is refused where it breaks the
rule, and a value let through meets it. -/
def Obligations.ChargeSettingsMeetTheirRules : Prop :=
  (∀ (s u : State) (r : Req) (w : Row), s.admits Op.write r = some u → reqKey r = Reg.cellTarget → rowIn (reqKey r) = some w →
    u.writeBar r.src (reqKey r) w = none → r.data.length = 2 → 2000 ≤ leValue (reqBytes r) → leValue (reqBytes r) ≤ 3000 →
    leValue (reqBytes r) % 5 ≠ 0 →
    Refuses (.write r) Op.write r 0x03080000 0 s fun t => t = u) ∧
  (∀ (s u : State) (r : Req) (w : Row), s.admits Op.write r = some u → reqKey r = Reg.cellTarget → rowIn (reqKey r) = some w →
    u.writeBar r.src (reqKey r) w = none → r.data.length = 2 → 2000 ≤ leValue (reqBytes r) → leValue (reqBytes r) ≤ 3000 →
    leValue (reqBytes r) % 5 = 0 → s.rd Reg.cellVmax < leValue (reqBytes r) + 50 →
    Refuses (.write r) Op.write r 0x03060000 0x2100 s fun t => t = u) ∧
  (∀ (s u : State) (r : Req) (v : Nat), s.takes r = some (u, v) → reqKey r = Reg.cellTarget →
    v % 5 = 0 ∧ v + 50 ≤ s.rd Reg.cellVmax) ∧
  (∀ (s u : State) (r : Req) (w : Row), s.admits Op.write r = some u → reqKey r = Reg.chgI → rowIn (reqKey r) = some w →
    u.writeBar r.src (reqKey r) w = none → valueFault (reqKey r) w (reqBytes r) = none →
    100000000 < leValue (reqBytes r) * s.rd Reg.chgRsense →
    Refuses (.write r) Op.write r 0x03060000 0x2101 s fun t => t = u) ∧
  (∀ (s u : State) (r : Req) (w : Row), s.admits Op.write r = some u → reqKey r = Reg.chgRsense → rowIn (reqKey r) = some w →
    u.writeBar r.src (reqKey r) w = none → valueFault (reqKey r) w (reqBytes r) = none →
    100000000 < s.rd Reg.chgI * leValue (reqBytes r) →
    Refuses (.write r) Op.write r 0x03060000 0x2101 s fun t => t = u) ∧
  (∀ (s u : State) (r : Req) (v : Nat), s.takes r = some (u, v) → reqKey r = Reg.chgI → v * s.rd Reg.chgRsense ≤ 100000000) ∧
  (∀ (s u : State) (r : Req) (v : Nat), s.takes r = some (u, v) → reqKey r = Reg.chgRsense → s.rd Reg.chgI * v ≤ 100000000)

/-- READ_LOW, READ_HIGH and the shadows (R60, R61). -/
def Obligations.HalfReadsUseShadows : Prop :=
  (∀ (s u : State) (r : Req) (w : Row) (live : List Shadow), s.admits Op.readLow r = some u → rowIn (reqKey r) = some w →
    u.readBar r.src (reqKey r) w = none → r.data = [] → halves w = true →
    live = (s.srcOf r.src).shadows.filter (fun h => h.key ≠ reqKey r && s.tick < h.expiry) →
    Serves (.readLow r) Op.readLow r (leBytes 4 (u.view r.src (reqKey r))) 0 s fun t =>
      (t.srcOf r.src).shadows = (if 4 ≤ live.length then live.drop 1 else live) ++
        [{ key := reqKey r, high := u.view r.src (reqKey r) / 2 ^ 32, expiry := s.tick + 12800 }] ∧
      (∀ j, j ≠ r.src.val → t.srcOf j = s.srcOf j) ∧ SvcOnly s t) ∧
  (∀ (s u : State) (r : Req) (w : Row) (h : Shadow), s.admits Op.readHigh r = some u → rowIn (reqKey r) = some w →
    u.readBar r.src (reqKey r) w = none → r.data = [] → halves w = true →
    (s.srcOf r.src).shadows.find? (fun h => h.key = reqKey r && s.tick < h.expiry) = some h →
    Serves (.readHigh r) Op.readHigh r (leBytes 4 h.high) 0x10 s fun t => t = u ∧ (t.srcOf r.src).shadows = (s.srcOf r.src).shadows) ∧
  (∀ (s u : State) (r : Req) (w : Row), s.admits Op.readHigh r = some u → rowIn (reqKey r) = some w →
    u.readBar r.src (reqKey r) w = none → r.data = [] → halves w = true →
    (∀ h ∈ (s.srcOf r.src).shadows, h.key = reqKey r → h.expiry ≤ s.tick) →
    Serves (.readHigh r) Op.readHigh r (leBytes 4 (u.view r.src (reqKey r) / 2 ^ 32)) 0 s fun t => t = u) ∧
  (∀ (s u : State) (r : Req) (w : Row), s.admits Op.readLow r = some u → rowIn (reqKey r) = some w →
    u.readBar r.src (reqKey r) w = none → r.data = [] → halves w = false →
    Refuses (.readLow r) Op.readLow r 0x020A0000 0 s fun t => t = u) ∧
  (∀ (s u : State) (r : Req) (w : Row), s.admits Op.readHigh r = some u → rowIn (reqKey r) = some w →
    u.readBar r.src (reqKey r) w = none → r.data = [] → halves w = false →
    Refuses (.readHigh r) Op.readHigh r 0x020A0000 0 s fun t => t = u) ∧
  (∀ (s u : State) (r : Req) (w : Row), s.admits Op.read r = some u → rowIn (reqKey r) = some w →
    u.readBar r.src (reqKey r) w = none → r.data = [] → halves w = true →
    Serves (.read r) Op.read r (leBytes (tySize w.ty) (u.view r.src (reqKey r))) 0 s fun t =>
      t = u ∧ (t.srcOf r.src).shadows = (s.srcOf r.src).shadows)

/-- CLEAR_IF_EQUAL compares with the current value: equal clears every bit, different clears nothing and returns it, and a
parameter that is no flag parameter is refused (R70). -/
def Obligations.ClearIfEqualComparesFirst : Prop :=
  (∀ (s u : State) (r : Req) (w : Row), s.admits Op.clearIfEqual r = some u → rowIn (reqKey r) = some w → w.flag = true →
    u.writeBar r.src (reqKey r) w = none → r.data.length = 4 → leValue (reqBytes r) = s.rd (reqKey r) →
    Serves (.clearIfEqual r) Op.clearIfEqual r [] 0 s fun t => t.rd (reqKey r) = 0 ∧ Frame [reqKey r] [] s t) ∧
  (∀ (s u : State) (r : Req) (w : Row), s.admits Op.clearIfEqual r = some u → rowIn (reqKey r) = some w → w.flag = true →
    u.writeBar r.src (reqKey r) w = none → r.data.length = 4 → leValue (reqBytes r) ≠ s.rd (reqKey r) →
    ∃ t a, exec (.clearIfEqual r) s = .next t ∧ t.svc.answer = some a ∧ a.status = 1 ∧
      a.data = leBytes 4 0x03070000 ++ leBytes 4 (s.rd (reqKey r)) ∧ Frame answerKeys [] s t) ∧
  (∀ (s u : State) (r : Req) (w : Row), s.admits Op.clearIfEqual r = some u → rowIn (reqKey r) = some w → w.flag = false →
    Refuses (.clearIfEqual r) Op.clearIfEqual r 0x020A0000 0 s fun t => t = u)
end

