-- ==== Sys2Proof/Laws/State.lean ====
section
/-! SUPPORT. What each plain update of the state leaves alone: one lemma per field and update, each true by definition. -/
namespace Sys2Proof.Machine

variable (s : State)

@[simp] theorem State.wr_pending (k v : Nat) : (s.wr k v).pending = s.pending := rfl
@[simp] theorem State.wr_hv (k v : Nat) : (s.wr k v).hv = s.hv := rfl
@[simp] theorem State.wr_phase (k v : Nat) : (s.wr k v).phase = s.phase := rfl
@[simp] theorem State.wr_shake (k v : Nat) : (s.wr k v).shake = s.shake := rfl
@[simp] theorem State.wr_fettling (k v : Nat) : (s.wr k v).fettling = s.fettling := rfl
@[simp] theorem State.wr_loaded (k v : Nat) : (s.wr k v).loaded = s.loaded := rfl
@[simp] theorem State.wr_taken (k v : Nat) : (s.wr k v).taken = s.taken := rfl
@[simp] theorem State.wr_admHold (k v : Nat) : (s.wr k v).admHold = s.admHold := rfl
@[simp] theorem State.wr_caseWarned (k v : Nat) : (s.wr k v).caseWarned = s.caseWarned := rfl
@[simp] theorem State.wr_stopAt (k v : Nat) : (s.wr k v).stopAt = s.stopAt := rfl
@[simp] theorem State.wr_heldBoot (k v : Nat) : (s.wr k v).heldBoot = s.heldBoot := rfl
@[simp] theorem State.wr_runs (k v : Nat) : (s.wr k v).runs = s.runs := rfl
@[simp] theorem State.wr_setNow (k v : Nat) : (s.wr k v).setNow = s.setNow := rfl
@[simp] theorem State.wr_smp (k v : Nat) : (s.wr k v).smp = s.smp := rfl
@[simp] theorem State.wr_clk (k v : Nat) : (s.wr k v).clk = s.clk := rfl
@[simp] theorem State.wr_trk (k v : Nat) : (s.wr k v).trk = s.trk := rfl
@[simp] theorem State.wr_sup (k v : Nat) : (s.wr k v).sup = s.sup := rfl
@[simp] theorem State.wr_bar (k v : Nat) : (s.wr k v).bar = s.bar := rfl
@[simp] theorem State.wr_pads (k v : Nat) : (s.wr k v).pads = s.pads := rfl
@[simp] theorem State.wr_svc (k v : Nat) : (s.wr k v).svc = s.svc := rfl
@[simp] theorem State.wr_log (k v : Nat) : (s.wr k v).log = s.log := rfl
@[simp] theorem State.wr_fla (k v : Nat) : (s.wr k v).fla = s.fla := rfl
@[simp] theorem State.wr_feeds (k v : Nat) : (s.wr k v).feeds = s.feeds := rfl
@[simp] theorem State.wr_bus (k v : Nat) : (s.wr k v).bus = s.bus := rfl
@[simp] theorem State.wr_lad (k v : Nat) : (s.wr k v).lad = s.lad := rfl
@[simp] theorem State.wr_hux (k v : Nat) : (s.wr k v).hux = s.hux := rfl
@[simp] theorem State.wr_seq (k v : Nat) : (s.wr k v).seq = s.seq := rfl
@[simp] theorem State.wr_phy (k v : Nat) : (s.wr k v).phy = s.phy := rfl
@[simp] theorem State.wr_ll (k v : Nat) : (s.wr k v).ll = s.ll := rfl
@[simp] theorem State.wr_sto (k v : Nat) : (s.wr k v).sto = s.sto := rfl
@[simp] theorem State.wr_pour (k v : Nat) : (s.wr k v).pour = s.pour := rfl
@[simp] theorem State.wr_shk (k v : Nat) : (s.wr k v).shk = s.shk := rfl
@[simp] theorem State.wr_fw (k v : Nat) : (s.wr k v).fw = s.fw := rfl
@[simp] theorem State.wr_cas (k v : Nat) : (s.wr k v).cas = s.cas := rfl
@[simp] theorem State.wr_rep (k v : Nat) : (s.wr k v).rep = s.rep := rfl
@[simp] theorem State.wr_free (k v : Nat) : (s.wr k v).free = s.free := rfl

@[simp] theorem State.hwr_pending (k v : Nat) : (s.hwr k v).pending = s.pending := rfl
@[simp] theorem State.hwr_reg (k v : Nat) : (s.hwr k v).reg = s.reg := rfl
@[simp] theorem State.hwr_phase (k v : Nat) : (s.hwr k v).phase = s.phase := rfl
@[simp] theorem State.hwr_shake (k v : Nat) : (s.hwr k v).shake = s.shake := rfl
@[simp] theorem State.hwr_fettling (k v : Nat) : (s.hwr k v).fettling = s.fettling := rfl
@[simp] theorem State.hwr_loaded (k v : Nat) : (s.hwr k v).loaded = s.loaded := rfl
@[simp] theorem State.hwr_taken (k v : Nat) : (s.hwr k v).taken = s.taken := rfl
@[simp] theorem State.hwr_admHold (k v : Nat) : (s.hwr k v).admHold = s.admHold := rfl
@[simp] theorem State.hwr_caseWarned (k v : Nat) : (s.hwr k v).caseWarned = s.caseWarned := rfl
@[simp] theorem State.hwr_stopAt (k v : Nat) : (s.hwr k v).stopAt = s.stopAt := rfl
@[simp] theorem State.hwr_heldBoot (k v : Nat) : (s.hwr k v).heldBoot = s.heldBoot := rfl
@[simp] theorem State.hwr_runs (k v : Nat) : (s.hwr k v).runs = s.runs := rfl
@[simp] theorem State.hwr_setNow (k v : Nat) : (s.hwr k v).setNow = s.setNow := rfl
@[simp] theorem State.hwr_smp (k v : Nat) : (s.hwr k v).smp = s.smp := rfl
@[simp] theorem State.hwr_clk (k v : Nat) : (s.hwr k v).clk = s.clk := rfl
@[simp] theorem State.hwr_trk (k v : Nat) : (s.hwr k v).trk = s.trk := rfl
@[simp] theorem State.hwr_sup (k v : Nat) : (s.hwr k v).sup = s.sup := rfl
@[simp] theorem State.hwr_bar (k v : Nat) : (s.hwr k v).bar = s.bar := rfl
@[simp] theorem State.hwr_pads (k v : Nat) : (s.hwr k v).pads = s.pads := rfl
@[simp] theorem State.hwr_svc (k v : Nat) : (s.hwr k v).svc = s.svc := rfl
@[simp] theorem State.hwr_log (k v : Nat) : (s.hwr k v).log = s.log := rfl
@[simp] theorem State.hwr_fla (k v : Nat) : (s.hwr k v).fla = s.fla := rfl
@[simp] theorem State.hwr_feeds (k v : Nat) : (s.hwr k v).feeds = s.feeds := rfl
@[simp] theorem State.hwr_bus (k v : Nat) : (s.hwr k v).bus = s.bus := rfl
@[simp] theorem State.hwr_lad (k v : Nat) : (s.hwr k v).lad = s.lad := rfl
@[simp] theorem State.hwr_hux (k v : Nat) : (s.hwr k v).hux = s.hux := rfl
@[simp] theorem State.hwr_seq (k v : Nat) : (s.hwr k v).seq = s.seq := rfl
@[simp] theorem State.hwr_phy (k v : Nat) : (s.hwr k v).phy = s.phy := rfl
@[simp] theorem State.hwr_ll (k v : Nat) : (s.hwr k v).ll = s.ll := rfl
@[simp] theorem State.hwr_sto (k v : Nat) : (s.hwr k v).sto = s.sto := rfl
@[simp] theorem State.hwr_pour (k v : Nat) : (s.hwr k v).pour = s.pour := rfl
@[simp] theorem State.hwr_shk (k v : Nat) : (s.hwr k v).shk = s.shk := rfl
@[simp] theorem State.hwr_fw (k v : Nat) : (s.hwr k v).fw = s.fw := rfl
@[simp] theorem State.hwr_cas (k v : Nat) : (s.hwr k v).cas = s.cas := rfl
@[simp] theorem State.hwr_rep (k v : Nat) : (s.hwr k v).rep = s.rep := rfl
@[simp] theorem State.hwr_free (k v : Nat) : (s.hwr k v).free = s.free := rfl

@[simp] theorem State.wrI_pending (k : Nat) (v : Int) : (s.wrI k v).pending = s.pending := rfl
@[simp] theorem State.wrI_hv (k : Nat) (v : Int) : (s.wrI k v).hv = s.hv := rfl
@[simp] theorem State.wrI_phase (k : Nat) (v : Int) : (s.wrI k v).phase = s.phase := rfl
@[simp] theorem State.wrI_shake (k : Nat) (v : Int) : (s.wrI k v).shake = s.shake := rfl
@[simp] theorem State.wrI_fettling (k : Nat) (v : Int) : (s.wrI k v).fettling = s.fettling := rfl
@[simp] theorem State.wrI_loaded (k : Nat) (v : Int) : (s.wrI k v).loaded = s.loaded := rfl
@[simp] theorem State.wrI_taken (k : Nat) (v : Int) : (s.wrI k v).taken = s.taken := rfl
@[simp] theorem State.wrI_admHold (k : Nat) (v : Int) : (s.wrI k v).admHold = s.admHold := rfl
@[simp] theorem State.wrI_caseWarned (k : Nat) (v : Int) : (s.wrI k v).caseWarned = s.caseWarned := rfl
@[simp] theorem State.wrI_stopAt (k : Nat) (v : Int) : (s.wrI k v).stopAt = s.stopAt := rfl
@[simp] theorem State.wrI_heldBoot (k : Nat) (v : Int) : (s.wrI k v).heldBoot = s.heldBoot := rfl
@[simp] theorem State.wrI_runs (k : Nat) (v : Int) : (s.wrI k v).runs = s.runs := rfl
@[simp] theorem State.wrI_setNow (k : Nat) (v : Int) : (s.wrI k v).setNow = s.setNow := rfl
@[simp] theorem State.wrI_smp (k : Nat) (v : Int) : (s.wrI k v).smp = s.smp := rfl
@[simp] theorem State.wrI_clk (k : Nat) (v : Int) : (s.wrI k v).clk = s.clk := rfl
@[simp] theorem State.wrI_trk (k : Nat) (v : Int) : (s.wrI k v).trk = s.trk := rfl
@[simp] theorem State.wrI_sup (k : Nat) (v : Int) : (s.wrI k v).sup = s.sup := rfl
@[simp] theorem State.wrI_bar (k : Nat) (v : Int) : (s.wrI k v).bar = s.bar := rfl
@[simp] theorem State.wrI_pads (k : Nat) (v : Int) : (s.wrI k v).pads = s.pads := rfl
@[simp] theorem State.wrI_svc (k : Nat) (v : Int) : (s.wrI k v).svc = s.svc := rfl
@[simp] theorem State.wrI_log (k : Nat) (v : Int) : (s.wrI k v).log = s.log := rfl
@[simp] theorem State.wrI_fla (k : Nat) (v : Int) : (s.wrI k v).fla = s.fla := rfl
@[simp] theorem State.wrI_feeds (k : Nat) (v : Int) : (s.wrI k v).feeds = s.feeds := rfl
@[simp] theorem State.wrI_bus (k : Nat) (v : Int) : (s.wrI k v).bus = s.bus := rfl
@[simp] theorem State.wrI_lad (k : Nat) (v : Int) : (s.wrI k v).lad = s.lad := rfl
@[simp] theorem State.wrI_hux (k : Nat) (v : Int) : (s.wrI k v).hux = s.hux := rfl
@[simp] theorem State.wrI_seq (k : Nat) (v : Int) : (s.wrI k v).seq = s.seq := rfl
@[simp] theorem State.wrI_phy (k : Nat) (v : Int) : (s.wrI k v).phy = s.phy := rfl
@[simp] theorem State.wrI_ll (k : Nat) (v : Int) : (s.wrI k v).ll = s.ll := rfl
@[simp] theorem State.wrI_sto (k : Nat) (v : Int) : (s.wrI k v).sto = s.sto := rfl
@[simp] theorem State.wrI_pour (k : Nat) (v : Int) : (s.wrI k v).pour = s.pour := rfl
@[simp] theorem State.wrI_shk (k : Nat) (v : Int) : (s.wrI k v).shk = s.shk := rfl
@[simp] theorem State.wrI_fw (k : Nat) (v : Int) : (s.wrI k v).fw = s.fw := rfl
@[simp] theorem State.wrI_cas (k : Nat) (v : Int) : (s.wrI k v).cas = s.cas := rfl
@[simp] theorem State.wrI_rep (k : Nat) (v : Int) : (s.wrI k v).rep = s.rep := rfl
@[simp] theorem State.wrI_free (k : Nat) (v : Int) : (s.wrI k v).free = s.free := rfl

@[simp] theorem State.hwrI_pending (k : Nat) (v : Int) : (s.hwrI k v).pending = s.pending := rfl
@[simp] theorem State.hwrI_reg (k : Nat) (v : Int) : (s.hwrI k v).reg = s.reg := rfl
@[simp] theorem State.hwrI_phase (k : Nat) (v : Int) : (s.hwrI k v).phase = s.phase := rfl
@[simp] theorem State.hwrI_shake (k : Nat) (v : Int) : (s.hwrI k v).shake = s.shake := rfl
@[simp] theorem State.hwrI_fettling (k : Nat) (v : Int) : (s.hwrI k v).fettling = s.fettling := rfl
@[simp] theorem State.hwrI_loaded (k : Nat) (v : Int) : (s.hwrI k v).loaded = s.loaded := rfl
@[simp] theorem State.hwrI_taken (k : Nat) (v : Int) : (s.hwrI k v).taken = s.taken := rfl
@[simp] theorem State.hwrI_admHold (k : Nat) (v : Int) : (s.hwrI k v).admHold = s.admHold := rfl
@[simp] theorem State.hwrI_caseWarned (k : Nat) (v : Int) : (s.hwrI k v).caseWarned = s.caseWarned := rfl
@[simp] theorem State.hwrI_stopAt (k : Nat) (v : Int) : (s.hwrI k v).stopAt = s.stopAt := rfl
@[simp] theorem State.hwrI_heldBoot (k : Nat) (v : Int) : (s.hwrI k v).heldBoot = s.heldBoot := rfl
@[simp] theorem State.hwrI_runs (k : Nat) (v : Int) : (s.hwrI k v).runs = s.runs := rfl
@[simp] theorem State.hwrI_setNow (k : Nat) (v : Int) : (s.hwrI k v).setNow = s.setNow := rfl
@[simp] theorem State.hwrI_smp (k : Nat) (v : Int) : (s.hwrI k v).smp = s.smp := rfl
@[simp] theorem State.hwrI_clk (k : Nat) (v : Int) : (s.hwrI k v).clk = s.clk := rfl
@[simp] theorem State.hwrI_trk (k : Nat) (v : Int) : (s.hwrI k v).trk = s.trk := rfl
@[simp] theorem State.hwrI_sup (k : Nat) (v : Int) : (s.hwrI k v).sup = s.sup := rfl
@[simp] theorem State.hwrI_bar (k : Nat) (v : Int) : (s.hwrI k v).bar = s.bar := rfl
@[simp] theorem State.hwrI_pads (k : Nat) (v : Int) : (s.hwrI k v).pads = s.pads := rfl
@[simp] theorem State.hwrI_svc (k : Nat) (v : Int) : (s.hwrI k v).svc = s.svc := rfl
@[simp] theorem State.hwrI_log (k : Nat) (v : Int) : (s.hwrI k v).log = s.log := rfl
@[simp] theorem State.hwrI_fla (k : Nat) (v : Int) : (s.hwrI k v).fla = s.fla := rfl
@[simp] theorem State.hwrI_feeds (k : Nat) (v : Int) : (s.hwrI k v).feeds = s.feeds := rfl
@[simp] theorem State.hwrI_bus (k : Nat) (v : Int) : (s.hwrI k v).bus = s.bus := rfl
@[simp] theorem State.hwrI_lad (k : Nat) (v : Int) : (s.hwrI k v).lad = s.lad := rfl
@[simp] theorem State.hwrI_hux (k : Nat) (v : Int) : (s.hwrI k v).hux = s.hux := rfl
@[simp] theorem State.hwrI_seq (k : Nat) (v : Int) : (s.hwrI k v).seq = s.seq := rfl
@[simp] theorem State.hwrI_phy (k : Nat) (v : Int) : (s.hwrI k v).phy = s.phy := rfl
@[simp] theorem State.hwrI_ll (k : Nat) (v : Int) : (s.hwrI k v).ll = s.ll := rfl
@[simp] theorem State.hwrI_sto (k : Nat) (v : Int) : (s.hwrI k v).sto = s.sto := rfl
@[simp] theorem State.hwrI_pour (k : Nat) (v : Int) : (s.hwrI k v).pour = s.pour := rfl
@[simp] theorem State.hwrI_shk (k : Nat) (v : Int) : (s.hwrI k v).shk = s.shk := rfl
@[simp] theorem State.hwrI_fw (k : Nat) (v : Int) : (s.hwrI k v).fw = s.fw := rfl
@[simp] theorem State.hwrI_cas (k : Nat) (v : Int) : (s.hwrI k v).cas = s.cas := rfl
@[simp] theorem State.hwrI_rep (k : Nat) (v : Int) : (s.hwrI k v).rep = s.rep := rfl
@[simp] theorem State.hwrI_free (k : Nat) (v : Int) : (s.hwrI k v).free = s.free := rfl

@[simp] theorem State.bump_pending (k : Nat) : (s.bump k).pending = s.pending := rfl
@[simp] theorem State.bump_hv (k : Nat) : (s.bump k).hv = s.hv := rfl
@[simp] theorem State.bump_phase (k : Nat) : (s.bump k).phase = s.phase := rfl
@[simp] theorem State.bump_shake (k : Nat) : (s.bump k).shake = s.shake := rfl
@[simp] theorem State.bump_fettling (k : Nat) : (s.bump k).fettling = s.fettling := rfl
@[simp] theorem State.bump_loaded (k : Nat) : (s.bump k).loaded = s.loaded := rfl
@[simp] theorem State.bump_taken (k : Nat) : (s.bump k).taken = s.taken := rfl
@[simp] theorem State.bump_admHold (k : Nat) : (s.bump k).admHold = s.admHold := rfl
@[simp] theorem State.bump_caseWarned (k : Nat) : (s.bump k).caseWarned = s.caseWarned := rfl
@[simp] theorem State.bump_stopAt (k : Nat) : (s.bump k).stopAt = s.stopAt := rfl
@[simp] theorem State.bump_heldBoot (k : Nat) : (s.bump k).heldBoot = s.heldBoot := rfl
@[simp] theorem State.bump_runs (k : Nat) : (s.bump k).runs = s.runs := rfl
@[simp] theorem State.bump_setNow (k : Nat) : (s.bump k).setNow = s.setNow := rfl
@[simp] theorem State.bump_smp (k : Nat) : (s.bump k).smp = s.smp := rfl
@[simp] theorem State.bump_clk (k : Nat) : (s.bump k).clk = s.clk := rfl
@[simp] theorem State.bump_trk (k : Nat) : (s.bump k).trk = s.trk := rfl
@[simp] theorem State.bump_sup (k : Nat) : (s.bump k).sup = s.sup := rfl
@[simp] theorem State.bump_bar (k : Nat) : (s.bump k).bar = s.bar := rfl
@[simp] theorem State.bump_pads (k : Nat) : (s.bump k).pads = s.pads := rfl
@[simp] theorem State.bump_svc (k : Nat) : (s.bump k).svc = s.svc := rfl
@[simp] theorem State.bump_log (k : Nat) : (s.bump k).log = s.log := rfl
@[simp] theorem State.bump_fla (k : Nat) : (s.bump k).fla = s.fla := rfl
@[simp] theorem State.bump_feeds (k : Nat) : (s.bump k).feeds = s.feeds := rfl
@[simp] theorem State.bump_bus (k : Nat) : (s.bump k).bus = s.bus := rfl
@[simp] theorem State.bump_lad (k : Nat) : (s.bump k).lad = s.lad := rfl
@[simp] theorem State.bump_hux (k : Nat) : (s.bump k).hux = s.hux := rfl
@[simp] theorem State.bump_seq (k : Nat) : (s.bump k).seq = s.seq := rfl
@[simp] theorem State.bump_phy (k : Nat) : (s.bump k).phy = s.phy := rfl
@[simp] theorem State.bump_ll (k : Nat) : (s.bump k).ll = s.ll := rfl
@[simp] theorem State.bump_sto (k : Nat) : (s.bump k).sto = s.sto := rfl
@[simp] theorem State.bump_pour (k : Nat) : (s.bump k).pour = s.pour := rfl
@[simp] theorem State.bump_shk (k : Nat) : (s.bump k).shk = s.shk := rfl
@[simp] theorem State.bump_fw (k : Nat) : (s.bump k).fw = s.fw := rfl
@[simp] theorem State.bump_cas (k : Nat) : (s.bump k).cas = s.cas := rfl
@[simp] theorem State.bump_rep (k : Nat) : (s.bump k).rep = s.rep := rfl
@[simp] theorem State.bump_free (k : Nat) : (s.bump k).free = s.free := rfl

@[simp] theorem State.bumpBy_pending (k n : Nat) : (s.bumpBy k n).pending = s.pending := rfl
@[simp] theorem State.bumpBy_hv (k n : Nat) : (s.bumpBy k n).hv = s.hv := rfl
@[simp] theorem State.bumpBy_phase (k n : Nat) : (s.bumpBy k n).phase = s.phase := rfl
@[simp] theorem State.bumpBy_shake (k n : Nat) : (s.bumpBy k n).shake = s.shake := rfl
@[simp] theorem State.bumpBy_fettling (k n : Nat) : (s.bumpBy k n).fettling = s.fettling := rfl
@[simp] theorem State.bumpBy_loaded (k n : Nat) : (s.bumpBy k n).loaded = s.loaded := rfl
@[simp] theorem State.bumpBy_taken (k n : Nat) : (s.bumpBy k n).taken = s.taken := rfl
@[simp] theorem State.bumpBy_admHold (k n : Nat) : (s.bumpBy k n).admHold = s.admHold := rfl
@[simp] theorem State.bumpBy_caseWarned (k n : Nat) : (s.bumpBy k n).caseWarned = s.caseWarned := rfl
@[simp] theorem State.bumpBy_stopAt (k n : Nat) : (s.bumpBy k n).stopAt = s.stopAt := rfl
@[simp] theorem State.bumpBy_heldBoot (k n : Nat) : (s.bumpBy k n).heldBoot = s.heldBoot := rfl
@[simp] theorem State.bumpBy_runs (k n : Nat) : (s.bumpBy k n).runs = s.runs := rfl
@[simp] theorem State.bumpBy_setNow (k n : Nat) : (s.bumpBy k n).setNow = s.setNow := rfl
@[simp] theorem State.bumpBy_smp (k n : Nat) : (s.bumpBy k n).smp = s.smp := rfl
@[simp] theorem State.bumpBy_clk (k n : Nat) : (s.bumpBy k n).clk = s.clk := rfl
@[simp] theorem State.bumpBy_trk (k n : Nat) : (s.bumpBy k n).trk = s.trk := rfl
@[simp] theorem State.bumpBy_sup (k n : Nat) : (s.bumpBy k n).sup = s.sup := rfl
@[simp] theorem State.bumpBy_bar (k n : Nat) : (s.bumpBy k n).bar = s.bar := rfl
@[simp] theorem State.bumpBy_pads (k n : Nat) : (s.bumpBy k n).pads = s.pads := rfl
@[simp] theorem State.bumpBy_svc (k n : Nat) : (s.bumpBy k n).svc = s.svc := rfl
@[simp] theorem State.bumpBy_log (k n : Nat) : (s.bumpBy k n).log = s.log := rfl
@[simp] theorem State.bumpBy_fla (k n : Nat) : (s.bumpBy k n).fla = s.fla := rfl
@[simp] theorem State.bumpBy_feeds (k n : Nat) : (s.bumpBy k n).feeds = s.feeds := rfl
@[simp] theorem State.bumpBy_bus (k n : Nat) : (s.bumpBy k n).bus = s.bus := rfl
@[simp] theorem State.bumpBy_lad (k n : Nat) : (s.bumpBy k n).lad = s.lad := rfl
@[simp] theorem State.bumpBy_hux (k n : Nat) : (s.bumpBy k n).hux = s.hux := rfl
@[simp] theorem State.bumpBy_seq (k n : Nat) : (s.bumpBy k n).seq = s.seq := rfl
@[simp] theorem State.bumpBy_phy (k n : Nat) : (s.bumpBy k n).phy = s.phy := rfl
@[simp] theorem State.bumpBy_ll (k n : Nat) : (s.bumpBy k n).ll = s.ll := rfl
@[simp] theorem State.bumpBy_sto (k n : Nat) : (s.bumpBy k n).sto = s.sto := rfl
@[simp] theorem State.bumpBy_pour (k n : Nat) : (s.bumpBy k n).pour = s.pour := rfl
@[simp] theorem State.bumpBy_shk (k n : Nat) : (s.bumpBy k n).shk = s.shk := rfl
@[simp] theorem State.bumpBy_fw (k n : Nat) : (s.bumpBy k n).fw = s.fw := rfl
@[simp] theorem State.bumpBy_cas (k n : Nat) : (s.bumpBy k n).cas = s.cas := rfl
@[simp] theorem State.bumpBy_rep (k n : Nat) : (s.bumpBy k n).rep = s.rep := rfl
@[simp] theorem State.bumpBy_free (k n : Nat) : (s.bumpBy k n).free = s.free := rfl

@[simp] theorem State.bumpSat_pending (k n : Nat) : (s.bumpSat k n).pending = s.pending := rfl
@[simp] theorem State.bumpSat_hv (k n : Nat) : (s.bumpSat k n).hv = s.hv := rfl
@[simp] theorem State.bumpSat_phase (k n : Nat) : (s.bumpSat k n).phase = s.phase := rfl
@[simp] theorem State.bumpSat_shake (k n : Nat) : (s.bumpSat k n).shake = s.shake := rfl
@[simp] theorem State.bumpSat_fettling (k n : Nat) : (s.bumpSat k n).fettling = s.fettling := rfl
@[simp] theorem State.bumpSat_loaded (k n : Nat) : (s.bumpSat k n).loaded = s.loaded := rfl
@[simp] theorem State.bumpSat_taken (k n : Nat) : (s.bumpSat k n).taken = s.taken := rfl
@[simp] theorem State.bumpSat_admHold (k n : Nat) : (s.bumpSat k n).admHold = s.admHold := rfl
@[simp] theorem State.bumpSat_caseWarned (k n : Nat) : (s.bumpSat k n).caseWarned = s.caseWarned := rfl
@[simp] theorem State.bumpSat_stopAt (k n : Nat) : (s.bumpSat k n).stopAt = s.stopAt := rfl
@[simp] theorem State.bumpSat_heldBoot (k n : Nat) : (s.bumpSat k n).heldBoot = s.heldBoot := rfl
@[simp] theorem State.bumpSat_runs (k n : Nat) : (s.bumpSat k n).runs = s.runs := rfl
@[simp] theorem State.bumpSat_setNow (k n : Nat) : (s.bumpSat k n).setNow = s.setNow := rfl
@[simp] theorem State.bumpSat_smp (k n : Nat) : (s.bumpSat k n).smp = s.smp := rfl
@[simp] theorem State.bumpSat_clk (k n : Nat) : (s.bumpSat k n).clk = s.clk := rfl
@[simp] theorem State.bumpSat_trk (k n : Nat) : (s.bumpSat k n).trk = s.trk := rfl
@[simp] theorem State.bumpSat_sup (k n : Nat) : (s.bumpSat k n).sup = s.sup := rfl
@[simp] theorem State.bumpSat_bar (k n : Nat) : (s.bumpSat k n).bar = s.bar := rfl
@[simp] theorem State.bumpSat_pads (k n : Nat) : (s.bumpSat k n).pads = s.pads := rfl
@[simp] theorem State.bumpSat_svc (k n : Nat) : (s.bumpSat k n).svc = s.svc := rfl
@[simp] theorem State.bumpSat_log (k n : Nat) : (s.bumpSat k n).log = s.log := rfl
@[simp] theorem State.bumpSat_fla (k n : Nat) : (s.bumpSat k n).fla = s.fla := rfl
@[simp] theorem State.bumpSat_feeds (k n : Nat) : (s.bumpSat k n).feeds = s.feeds := rfl
@[simp] theorem State.bumpSat_bus (k n : Nat) : (s.bumpSat k n).bus = s.bus := rfl
@[simp] theorem State.bumpSat_lad (k n : Nat) : (s.bumpSat k n).lad = s.lad := rfl
@[simp] theorem State.bumpSat_hux (k n : Nat) : (s.bumpSat k n).hux = s.hux := rfl
@[simp] theorem State.bumpSat_seq (k n : Nat) : (s.bumpSat k n).seq = s.seq := rfl
@[simp] theorem State.bumpSat_phy (k n : Nat) : (s.bumpSat k n).phy = s.phy := rfl
@[simp] theorem State.bumpSat_ll (k n : Nat) : (s.bumpSat k n).ll = s.ll := rfl
@[simp] theorem State.bumpSat_sto (k n : Nat) : (s.bumpSat k n).sto = s.sto := rfl
@[simp] theorem State.bumpSat_pour (k n : Nat) : (s.bumpSat k n).pour = s.pour := rfl
@[simp] theorem State.bumpSat_shk (k n : Nat) : (s.bumpSat k n).shk = s.shk := rfl
@[simp] theorem State.bumpSat_fw (k n : Nat) : (s.bumpSat k n).fw = s.fw := rfl
@[simp] theorem State.bumpSat_cas (k n : Nat) : (s.bumpSat k n).cas = s.cas := rfl
@[simp] theorem State.bumpSat_rep (k n : Nat) : (s.bumpSat k n).rep = s.rep := rfl
@[simp] theorem State.bumpSat_free (k n : Nat) : (s.bumpSat k n).free = s.free := rfl

@[simp] theorem State.flag_pending (k i : Nat) : (s.flag k i).pending = s.pending := rfl
@[simp] theorem State.flag_hv (k i : Nat) : (s.flag k i).hv = s.hv := rfl
@[simp] theorem State.flag_phase (k i : Nat) : (s.flag k i).phase = s.phase := rfl
@[simp] theorem State.flag_shake (k i : Nat) : (s.flag k i).shake = s.shake := rfl
@[simp] theorem State.flag_fettling (k i : Nat) : (s.flag k i).fettling = s.fettling := rfl
@[simp] theorem State.flag_loaded (k i : Nat) : (s.flag k i).loaded = s.loaded := rfl
@[simp] theorem State.flag_taken (k i : Nat) : (s.flag k i).taken = s.taken := rfl
@[simp] theorem State.flag_admHold (k i : Nat) : (s.flag k i).admHold = s.admHold := rfl
@[simp] theorem State.flag_caseWarned (k i : Nat) : (s.flag k i).caseWarned = s.caseWarned := rfl
@[simp] theorem State.flag_stopAt (k i : Nat) : (s.flag k i).stopAt = s.stopAt := rfl
@[simp] theorem State.flag_heldBoot (k i : Nat) : (s.flag k i).heldBoot = s.heldBoot := rfl
@[simp] theorem State.flag_runs (k i : Nat) : (s.flag k i).runs = s.runs := rfl
@[simp] theorem State.flag_smp (k i : Nat) : (s.flag k i).smp = s.smp := rfl
@[simp] theorem State.flag_clk (k i : Nat) : (s.flag k i).clk = s.clk := rfl
@[simp] theorem State.flag_trk (k i : Nat) : (s.flag k i).trk = s.trk := rfl
@[simp] theorem State.flag_sup (k i : Nat) : (s.flag k i).sup = s.sup := rfl
@[simp] theorem State.flag_bar (k i : Nat) : (s.flag k i).bar = s.bar := rfl
@[simp] theorem State.flag_pads (k i : Nat) : (s.flag k i).pads = s.pads := rfl
@[simp] theorem State.flag_svc (k i : Nat) : (s.flag k i).svc = s.svc := rfl
@[simp] theorem State.flag_log (k i : Nat) : (s.flag k i).log = s.log := rfl
@[simp] theorem State.flag_fla (k i : Nat) : (s.flag k i).fla = s.fla := rfl
@[simp] theorem State.flag_feeds (k i : Nat) : (s.flag k i).feeds = s.feeds := rfl
@[simp] theorem State.flag_bus (k i : Nat) : (s.flag k i).bus = s.bus := rfl
@[simp] theorem State.flag_lad (k i : Nat) : (s.flag k i).lad = s.lad := rfl
@[simp] theorem State.flag_hux (k i : Nat) : (s.flag k i).hux = s.hux := rfl
@[simp] theorem State.flag_seq (k i : Nat) : (s.flag k i).seq = s.seq := rfl
@[simp] theorem State.flag_phy (k i : Nat) : (s.flag k i).phy = s.phy := rfl
@[simp] theorem State.flag_ll (k i : Nat) : (s.flag k i).ll = s.ll := rfl
@[simp] theorem State.flag_sto (k i : Nat) : (s.flag k i).sto = s.sto := rfl
@[simp] theorem State.flag_pour (k i : Nat) : (s.flag k i).pour = s.pour := rfl
@[simp] theorem State.flag_shk (k i : Nat) : (s.flag k i).shk = s.shk := rfl
@[simp] theorem State.flag_fw (k i : Nat) : (s.flag k i).fw = s.fw := rfl
@[simp] theorem State.flag_cas (k i : Nat) : (s.flag k i).cas = s.cas := rfl
@[simp] theorem State.flag_rep (k i : Nat) : (s.flag k i).rep = s.rep := rfl
@[simp] theorem State.flag_free (k i : Nat) : (s.flag k i).free = s.free := rfl

@[simp] theorem State.clearBits_pending (k m : Nat) : (s.clearBits k m).pending = s.pending := rfl
@[simp] theorem State.clearBits_hv (k m : Nat) : (s.clearBits k m).hv = s.hv := rfl
@[simp] theorem State.clearBits_phase (k m : Nat) : (s.clearBits k m).phase = s.phase := rfl
@[simp] theorem State.clearBits_shake (k m : Nat) : (s.clearBits k m).shake = s.shake := rfl
@[simp] theorem State.clearBits_fettling (k m : Nat) : (s.clearBits k m).fettling = s.fettling := rfl
@[simp] theorem State.clearBits_loaded (k m : Nat) : (s.clearBits k m).loaded = s.loaded := rfl
@[simp] theorem State.clearBits_taken (k m : Nat) : (s.clearBits k m).taken = s.taken := rfl
@[simp] theorem State.clearBits_admHold (k m : Nat) : (s.clearBits k m).admHold = s.admHold := rfl
@[simp] theorem State.clearBits_caseWarned (k m : Nat) : (s.clearBits k m).caseWarned = s.caseWarned := rfl
@[simp] theorem State.clearBits_stopAt (k m : Nat) : (s.clearBits k m).stopAt = s.stopAt := rfl
@[simp] theorem State.clearBits_heldBoot (k m : Nat) : (s.clearBits k m).heldBoot = s.heldBoot := rfl
@[simp] theorem State.clearBits_runs (k m : Nat) : (s.clearBits k m).runs = s.runs := rfl
@[simp] theorem State.clearBits_setNow (k m : Nat) : (s.clearBits k m).setNow = s.setNow := rfl
@[simp] theorem State.clearBits_smp (k m : Nat) : (s.clearBits k m).smp = s.smp := rfl
@[simp] theorem State.clearBits_clk (k m : Nat) : (s.clearBits k m).clk = s.clk := rfl
@[simp] theorem State.clearBits_trk (k m : Nat) : (s.clearBits k m).trk = s.trk := rfl
@[simp] theorem State.clearBits_sup (k m : Nat) : (s.clearBits k m).sup = s.sup := rfl
@[simp] theorem State.clearBits_bar (k m : Nat) : (s.clearBits k m).bar = s.bar := rfl
@[simp] theorem State.clearBits_pads (k m : Nat) : (s.clearBits k m).pads = s.pads := rfl
@[simp] theorem State.clearBits_svc (k m : Nat) : (s.clearBits k m).svc = s.svc := rfl
@[simp] theorem State.clearBits_log (k m : Nat) : (s.clearBits k m).log = s.log := rfl
@[simp] theorem State.clearBits_fla (k m : Nat) : (s.clearBits k m).fla = s.fla := rfl
@[simp] theorem State.clearBits_feeds (k m : Nat) : (s.clearBits k m).feeds = s.feeds := rfl
@[simp] theorem State.clearBits_bus (k m : Nat) : (s.clearBits k m).bus = s.bus := rfl
@[simp] theorem State.clearBits_lad (k m : Nat) : (s.clearBits k m).lad = s.lad := rfl
@[simp] theorem State.clearBits_hux (k m : Nat) : (s.clearBits k m).hux = s.hux := rfl
@[simp] theorem State.clearBits_seq (k m : Nat) : (s.clearBits k m).seq = s.seq := rfl
@[simp] theorem State.clearBits_phy (k m : Nat) : (s.clearBits k m).phy = s.phy := rfl
@[simp] theorem State.clearBits_ll (k m : Nat) : (s.clearBits k m).ll = s.ll := rfl
@[simp] theorem State.clearBits_sto (k m : Nat) : (s.clearBits k m).sto = s.sto := rfl
@[simp] theorem State.clearBits_pour (k m : Nat) : (s.clearBits k m).pour = s.pour := rfl
@[simp] theorem State.clearBits_shk (k m : Nat) : (s.clearBits k m).shk = s.shk := rfl
@[simp] theorem State.clearBits_fw (k m : Nat) : (s.clearBits k m).fw = s.fw := rfl
@[simp] theorem State.clearBits_cas (k m : Nat) : (s.clearBits k m).cas = s.cas := rfl
@[simp] theorem State.clearBits_rep (k m : Nat) : (s.clearBits k m).rep = s.rep := rfl
@[simp] theorem State.clearBits_free (k m : Nat) : (s.clearBits k m).free = s.free := rfl

@[simp] theorem State.count_pending (c : Nat) (h : Bool) : (s.count c h).pending = s.pending := rfl
@[simp] theorem State.count_reg (c : Nat) (h : Bool) : (s.count c h).reg = s.reg := rfl
@[simp] theorem State.count_hv (c : Nat) (h : Bool) : (s.count c h).hv = s.hv := rfl
@[simp] theorem State.count_phase (c : Nat) (h : Bool) : (s.count c h).phase = s.phase := rfl
@[simp] theorem State.count_shake (c : Nat) (h : Bool) : (s.count c h).shake = s.shake := rfl
@[simp] theorem State.count_fettling (c : Nat) (h : Bool) : (s.count c h).fettling = s.fettling := rfl
@[simp] theorem State.count_loaded (c : Nat) (h : Bool) : (s.count c h).loaded = s.loaded := rfl
@[simp] theorem State.count_taken (c : Nat) (h : Bool) : (s.count c h).taken = s.taken := rfl
@[simp] theorem State.count_admHold (c : Nat) (h : Bool) : (s.count c h).admHold = s.admHold := rfl
@[simp] theorem State.count_caseWarned (c : Nat) (h : Bool) : (s.count c h).caseWarned = s.caseWarned := rfl
@[simp] theorem State.count_stopAt (c : Nat) (h : Bool) : (s.count c h).stopAt = s.stopAt := rfl
@[simp] theorem State.count_heldBoot (c : Nat) (h : Bool) : (s.count c h).heldBoot = s.heldBoot := rfl
@[simp] theorem State.count_smp (c : Nat) (h : Bool) : (s.count c h).smp = s.smp := rfl
@[simp] theorem State.count_clk (c : Nat) (h : Bool) : (s.count c h).clk = s.clk := rfl
@[simp] theorem State.count_trk (c : Nat) (h : Bool) : (s.count c h).trk = s.trk := rfl
@[simp] theorem State.count_sup (c : Nat) (h : Bool) : (s.count c h).sup = s.sup := rfl
@[simp] theorem State.count_bar (c : Nat) (h : Bool) : (s.count c h).bar = s.bar := rfl
@[simp] theorem State.count_pads (c : Nat) (h : Bool) : (s.count c h).pads = s.pads := rfl
@[simp] theorem State.count_svc (c : Nat) (h : Bool) : (s.count c h).svc = s.svc := rfl
@[simp] theorem State.count_log (c : Nat) (h : Bool) : (s.count c h).log = s.log := rfl
@[simp] theorem State.count_fla (c : Nat) (h : Bool) : (s.count c h).fla = s.fla := rfl
@[simp] theorem State.count_feeds (c : Nat) (h : Bool) : (s.count c h).feeds = s.feeds := rfl
@[simp] theorem State.count_bus (c : Nat) (h : Bool) : (s.count c h).bus = s.bus := rfl
@[simp] theorem State.count_lad (c : Nat) (h : Bool) : (s.count c h).lad = s.lad := rfl
@[simp] theorem State.count_hux (c : Nat) (h : Bool) : (s.count c h).hux = s.hux := rfl
@[simp] theorem State.count_seq (c : Nat) (h : Bool) : (s.count c h).seq = s.seq := rfl
@[simp] theorem State.count_phy (c : Nat) (h : Bool) : (s.count c h).phy = s.phy := rfl
@[simp] theorem State.count_ll (c : Nat) (h : Bool) : (s.count c h).ll = s.ll := rfl
@[simp] theorem State.count_sto (c : Nat) (h : Bool) : (s.count c h).sto = s.sto := rfl
@[simp] theorem State.count_pour (c : Nat) (h : Bool) : (s.count c h).pour = s.pour := rfl
@[simp] theorem State.count_shk (c : Nat) (h : Bool) : (s.count c h).shk = s.shk := rfl
@[simp] theorem State.count_fw (c : Nat) (h : Bool) : (s.count c h).fw = s.fw := rfl
@[simp] theorem State.count_cas (c : Nat) (h : Bool) : (s.count c h).cas = s.cas := rfl
@[simp] theorem State.count_rep (c : Nat) (h : Bool) : (s.count c h).rep = s.rep := rfl
@[simp] theorem State.count_free (c : Nat) (h : Bool) : (s.count c h).free = s.free := rfl

@[simp] theorem State.setRun_pending (c n : Nat) : (s.setRun c n).pending = s.pending := rfl
@[simp] theorem State.setRun_reg (c n : Nat) : (s.setRun c n).reg = s.reg := rfl
@[simp] theorem State.setRun_hv (c n : Nat) : (s.setRun c n).hv = s.hv := rfl
@[simp] theorem State.setRun_phase (c n : Nat) : (s.setRun c n).phase = s.phase := rfl
@[simp] theorem State.setRun_shake (c n : Nat) : (s.setRun c n).shake = s.shake := rfl
@[simp] theorem State.setRun_fettling (c n : Nat) : (s.setRun c n).fettling = s.fettling := rfl
@[simp] theorem State.setRun_loaded (c n : Nat) : (s.setRun c n).loaded = s.loaded := rfl
@[simp] theorem State.setRun_taken (c n : Nat) : (s.setRun c n).taken = s.taken := rfl
@[simp] theorem State.setRun_admHold (c n : Nat) : (s.setRun c n).admHold = s.admHold := rfl
@[simp] theorem State.setRun_caseWarned (c n : Nat) : (s.setRun c n).caseWarned = s.caseWarned := rfl
@[simp] theorem State.setRun_stopAt (c n : Nat) : (s.setRun c n).stopAt = s.stopAt := rfl
@[simp] theorem State.setRun_heldBoot (c n : Nat) : (s.setRun c n).heldBoot = s.heldBoot := rfl
@[simp] theorem State.setRun_smp (c n : Nat) : (s.setRun c n).smp = s.smp := rfl
@[simp] theorem State.setRun_clk (c n : Nat) : (s.setRun c n).clk = s.clk := rfl
@[simp] theorem State.setRun_trk (c n : Nat) : (s.setRun c n).trk = s.trk := rfl
@[simp] theorem State.setRun_sup (c n : Nat) : (s.setRun c n).sup = s.sup := rfl
@[simp] theorem State.setRun_bar (c n : Nat) : (s.setRun c n).bar = s.bar := rfl
@[simp] theorem State.setRun_pads (c n : Nat) : (s.setRun c n).pads = s.pads := rfl
@[simp] theorem State.setRun_svc (c n : Nat) : (s.setRun c n).svc = s.svc := rfl
@[simp] theorem State.setRun_log (c n : Nat) : (s.setRun c n).log = s.log := rfl
@[simp] theorem State.setRun_fla (c n : Nat) : (s.setRun c n).fla = s.fla := rfl
@[simp] theorem State.setRun_feeds (c n : Nat) : (s.setRun c n).feeds = s.feeds := rfl
@[simp] theorem State.setRun_bus (c n : Nat) : (s.setRun c n).bus = s.bus := rfl
@[simp] theorem State.setRun_lad (c n : Nat) : (s.setRun c n).lad = s.lad := rfl
@[simp] theorem State.setRun_hux (c n : Nat) : (s.setRun c n).hux = s.hux := rfl
@[simp] theorem State.setRun_seq (c n : Nat) : (s.setRun c n).seq = s.seq := rfl
@[simp] theorem State.setRun_phy (c n : Nat) : (s.setRun c n).phy = s.phy := rfl
@[simp] theorem State.setRun_ll (c n : Nat) : (s.setRun c n).ll = s.ll := rfl
@[simp] theorem State.setRun_sto (c n : Nat) : (s.setRun c n).sto = s.sto := rfl
@[simp] theorem State.setRun_pour (c n : Nat) : (s.setRun c n).pour = s.pour := rfl
@[simp] theorem State.setRun_shk (c n : Nat) : (s.setRun c n).shk = s.shk := rfl
@[simp] theorem State.setRun_fw (c n : Nat) : (s.setRun c n).fw = s.fw := rfl
@[simp] theorem State.setRun_cas (c n : Nat) : (s.setRun c n).cas = s.cas := rfl
@[simp] theorem State.setRun_rep (c n : Nat) : (s.setRun c n).rep = s.rep := rfl
@[simp] theorem State.setRun_free (c n : Nat) : (s.setRun c n).free = s.free := rfl

@[simp] theorem State.setSrc_pending (j : Nat) (x : SrcState) : (s.setSrc j x).pending = s.pending := rfl
@[simp] theorem State.setSrc_reg (j : Nat) (x : SrcState) : (s.setSrc j x).reg = s.reg := rfl
@[simp] theorem State.setSrc_hv (j : Nat) (x : SrcState) : (s.setSrc j x).hv = s.hv := rfl
@[simp] theorem State.setSrc_phase (j : Nat) (x : SrcState) : (s.setSrc j x).phase = s.phase := rfl
@[simp] theorem State.setSrc_shake (j : Nat) (x : SrcState) : (s.setSrc j x).shake = s.shake := rfl
@[simp] theorem State.setSrc_fettling (j : Nat) (x : SrcState) : (s.setSrc j x).fettling = s.fettling := rfl
@[simp] theorem State.setSrc_loaded (j : Nat) (x : SrcState) : (s.setSrc j x).loaded = s.loaded := rfl
@[simp] theorem State.setSrc_taken (j : Nat) (x : SrcState) : (s.setSrc j x).taken = s.taken := rfl
@[simp] theorem State.setSrc_admHold (j : Nat) (x : SrcState) : (s.setSrc j x).admHold = s.admHold := rfl
@[simp] theorem State.setSrc_caseWarned (j : Nat) (x : SrcState) : (s.setSrc j x).caseWarned = s.caseWarned := rfl
@[simp] theorem State.setSrc_stopAt (j : Nat) (x : SrcState) : (s.setSrc j x).stopAt = s.stopAt := rfl
@[simp] theorem State.setSrc_heldBoot (j : Nat) (x : SrcState) : (s.setSrc j x).heldBoot = s.heldBoot := rfl
@[simp] theorem State.setSrc_runs (j : Nat) (x : SrcState) : (s.setSrc j x).runs = s.runs := rfl
@[simp] theorem State.setSrc_setNow (j : Nat) (x : SrcState) : (s.setSrc j x).setNow = s.setNow := rfl
@[simp] theorem State.setSrc_smp (j : Nat) (x : SrcState) : (s.setSrc j x).smp = s.smp := rfl
@[simp] theorem State.setSrc_clk (j : Nat) (x : SrcState) : (s.setSrc j x).clk = s.clk := rfl
@[simp] theorem State.setSrc_trk (j : Nat) (x : SrcState) : (s.setSrc j x).trk = s.trk := rfl
@[simp] theorem State.setSrc_sup (j : Nat) (x : SrcState) : (s.setSrc j x).sup = s.sup := rfl
@[simp] theorem State.setSrc_bar (j : Nat) (x : SrcState) : (s.setSrc j x).bar = s.bar := rfl
@[simp] theorem State.setSrc_pads (j : Nat) (x : SrcState) : (s.setSrc j x).pads = s.pads := rfl
@[simp] theorem State.setSrc_log (j : Nat) (x : SrcState) : (s.setSrc j x).log = s.log := rfl
@[simp] theorem State.setSrc_fla (j : Nat) (x : SrcState) : (s.setSrc j x).fla = s.fla := rfl
@[simp] theorem State.setSrc_feeds (j : Nat) (x : SrcState) : (s.setSrc j x).feeds = s.feeds := rfl
@[simp] theorem State.setSrc_bus (j : Nat) (x : SrcState) : (s.setSrc j x).bus = s.bus := rfl
@[simp] theorem State.setSrc_lad (j : Nat) (x : SrcState) : (s.setSrc j x).lad = s.lad := rfl
@[simp] theorem State.setSrc_hux (j : Nat) (x : SrcState) : (s.setSrc j x).hux = s.hux := rfl
@[simp] theorem State.setSrc_seq (j : Nat) (x : SrcState) : (s.setSrc j x).seq = s.seq := rfl
@[simp] theorem State.setSrc_phy (j : Nat) (x : SrcState) : (s.setSrc j x).phy = s.phy := rfl
@[simp] theorem State.setSrc_ll (j : Nat) (x : SrcState) : (s.setSrc j x).ll = s.ll := rfl
@[simp] theorem State.setSrc_sto (j : Nat) (x : SrcState) : (s.setSrc j x).sto = s.sto := rfl
@[simp] theorem State.setSrc_pour (j : Nat) (x : SrcState) : (s.setSrc j x).pour = s.pour := rfl
@[simp] theorem State.setSrc_shk (j : Nat) (x : SrcState) : (s.setSrc j x).shk = s.shk := rfl
@[simp] theorem State.setSrc_fw (j : Nat) (x : SrcState) : (s.setSrc j x).fw = s.fw := rfl
@[simp] theorem State.setSrc_cas (j : Nat) (x : SrcState) : (s.setSrc j x).cas = s.cas := rfl
@[simp] theorem State.setSrc_rep (j : Nat) (x : SrcState) : (s.setSrc j x).rep = s.rep := rfl
@[simp] theorem State.setSrc_free (j : Nat) (x : SrcState) : (s.setSrc j x).free = s.free := rfl

@[simp] theorem State.sendCmd_pending (l : List (Nat × Nat)) : (s.sendCmd l).pending = s.pending := rfl
@[simp] theorem State.sendCmd_reg (l : List (Nat × Nat)) : (s.sendCmd l).reg = s.reg := rfl
@[simp] theorem State.sendCmd_hv (l : List (Nat × Nat)) : (s.sendCmd l).hv = s.hv := rfl
@[simp] theorem State.sendCmd_phase (l : List (Nat × Nat)) : (s.sendCmd l).phase = s.phase := rfl
@[simp] theorem State.sendCmd_shake (l : List (Nat × Nat)) : (s.sendCmd l).shake = s.shake := rfl
@[simp] theorem State.sendCmd_fettling (l : List (Nat × Nat)) : (s.sendCmd l).fettling = s.fettling := rfl
@[simp] theorem State.sendCmd_loaded (l : List (Nat × Nat)) : (s.sendCmd l).loaded = s.loaded := rfl
@[simp] theorem State.sendCmd_taken (l : List (Nat × Nat)) : (s.sendCmd l).taken = s.taken := rfl
@[simp] theorem State.sendCmd_admHold (l : List (Nat × Nat)) : (s.sendCmd l).admHold = s.admHold := rfl
@[simp] theorem State.sendCmd_caseWarned (l : List (Nat × Nat)) : (s.sendCmd l).caseWarned = s.caseWarned := rfl
@[simp] theorem State.sendCmd_stopAt (l : List (Nat × Nat)) : (s.sendCmd l).stopAt = s.stopAt := rfl
@[simp] theorem State.sendCmd_heldBoot (l : List (Nat × Nat)) : (s.sendCmd l).heldBoot = s.heldBoot := rfl
@[simp] theorem State.sendCmd_runs (l : List (Nat × Nat)) : (s.sendCmd l).runs = s.runs := rfl
@[simp] theorem State.sendCmd_setNow (l : List (Nat × Nat)) : (s.sendCmd l).setNow = s.setNow := rfl
@[simp] theorem State.sendCmd_smp (l : List (Nat × Nat)) : (s.sendCmd l).smp = s.smp := rfl
@[simp] theorem State.sendCmd_clk (l : List (Nat × Nat)) : (s.sendCmd l).clk = s.clk := rfl
@[simp] theorem State.sendCmd_trk (l : List (Nat × Nat)) : (s.sendCmd l).trk = s.trk := rfl
@[simp] theorem State.sendCmd_sup (l : List (Nat × Nat)) : (s.sendCmd l).sup = s.sup := rfl
@[simp] theorem State.sendCmd_pads (l : List (Nat × Nat)) : (s.sendCmd l).pads = s.pads := rfl
@[simp] theorem State.sendCmd_svc (l : List (Nat × Nat)) : (s.sendCmd l).svc = s.svc := rfl
@[simp] theorem State.sendCmd_log (l : List (Nat × Nat)) : (s.sendCmd l).log = s.log := rfl
@[simp] theorem State.sendCmd_fla (l : List (Nat × Nat)) : (s.sendCmd l).fla = s.fla := rfl
@[simp] theorem State.sendCmd_feeds (l : List (Nat × Nat)) : (s.sendCmd l).feeds = s.feeds := rfl
@[simp] theorem State.sendCmd_bus (l : List (Nat × Nat)) : (s.sendCmd l).bus = s.bus := rfl
@[simp] theorem State.sendCmd_lad (l : List (Nat × Nat)) : (s.sendCmd l).lad = s.lad := rfl
@[simp] theorem State.sendCmd_hux (l : List (Nat × Nat)) : (s.sendCmd l).hux = s.hux := rfl
@[simp] theorem State.sendCmd_seq (l : List (Nat × Nat)) : (s.sendCmd l).seq = s.seq := rfl
@[simp] theorem State.sendCmd_phy (l : List (Nat × Nat)) : (s.sendCmd l).phy = s.phy := rfl
@[simp] theorem State.sendCmd_ll (l : List (Nat × Nat)) : (s.sendCmd l).ll = s.ll := rfl
@[simp] theorem State.sendCmd_sto (l : List (Nat × Nat)) : (s.sendCmd l).sto = s.sto := rfl
@[simp] theorem State.sendCmd_pour (l : List (Nat × Nat)) : (s.sendCmd l).pour = s.pour := rfl
@[simp] theorem State.sendCmd_shk (l : List (Nat × Nat)) : (s.sendCmd l).shk = s.shk := rfl
@[simp] theorem State.sendCmd_fw (l : List (Nat × Nat)) : (s.sendCmd l).fw = s.fw := rfl
@[simp] theorem State.sendCmd_cas (l : List (Nat × Nat)) : (s.sendCmd l).cas = s.cas := rfl
@[simp] theorem State.sendCmd_rep (l : List (Nat × Nat)) : (s.sendCmd l).rep = s.rep := rfl
@[simp] theorem State.sendCmd_free (l : List (Nat × Nat)) : (s.sendCmd l).free = s.free := rfl

@[simp] theorem State.unanswered_pending : (s.unanswered).pending = s.pending := rfl
@[simp] theorem State.unanswered_reg : (s.unanswered).reg = s.reg := rfl
@[simp] theorem State.unanswered_hv : (s.unanswered).hv = s.hv := rfl
@[simp] theorem State.unanswered_phase : (s.unanswered).phase = s.phase := rfl
@[simp] theorem State.unanswered_shake : (s.unanswered).shake = s.shake := rfl
@[simp] theorem State.unanswered_fettling : (s.unanswered).fettling = s.fettling := rfl
@[simp] theorem State.unanswered_loaded : (s.unanswered).loaded = s.loaded := rfl
@[simp] theorem State.unanswered_taken : (s.unanswered).taken = s.taken := rfl
@[simp] theorem State.unanswered_admHold : (s.unanswered).admHold = s.admHold := rfl
@[simp] theorem State.unanswered_caseWarned : (s.unanswered).caseWarned = s.caseWarned := rfl
@[simp] theorem State.unanswered_stopAt : (s.unanswered).stopAt = s.stopAt := rfl
@[simp] theorem State.unanswered_heldBoot : (s.unanswered).heldBoot = s.heldBoot := rfl
@[simp] theorem State.unanswered_runs : (s.unanswered).runs = s.runs := rfl
@[simp] theorem State.unanswered_setNow : (s.unanswered).setNow = s.setNow := rfl
@[simp] theorem State.unanswered_smp : (s.unanswered).smp = s.smp := rfl
@[simp] theorem State.unanswered_clk : (s.unanswered).clk = s.clk := rfl
@[simp] theorem State.unanswered_trk : (s.unanswered).trk = s.trk := rfl
@[simp] theorem State.unanswered_sup : (s.unanswered).sup = s.sup := rfl
@[simp] theorem State.unanswered_bar : (s.unanswered).bar = s.bar := rfl
@[simp] theorem State.unanswered_pads : (s.unanswered).pads = s.pads := rfl
@[simp] theorem State.unanswered_log : (s.unanswered).log = s.log := rfl
@[simp] theorem State.unanswered_fla : (s.unanswered).fla = s.fla := rfl
@[simp] theorem State.unanswered_feeds : (s.unanswered).feeds = s.feeds := rfl
@[simp] theorem State.unanswered_bus : (s.unanswered).bus = s.bus := rfl
@[simp] theorem State.unanswered_lad : (s.unanswered).lad = s.lad := rfl
@[simp] theorem State.unanswered_hux : (s.unanswered).hux = s.hux := rfl
@[simp] theorem State.unanswered_seq : (s.unanswered).seq = s.seq := rfl
@[simp] theorem State.unanswered_phy : (s.unanswered).phy = s.phy := rfl
@[simp] theorem State.unanswered_ll : (s.unanswered).ll = s.ll := rfl
@[simp] theorem State.unanswered_sto : (s.unanswered).sto = s.sto := rfl
@[simp] theorem State.unanswered_pour : (s.unanswered).pour = s.pour := rfl
@[simp] theorem State.unanswered_shk : (s.unanswered).shk = s.shk := rfl
@[simp] theorem State.unanswered_fw : (s.unanswered).fw = s.fw := rfl
@[simp] theorem State.unanswered_cas : (s.unanswered).cas = s.cas := rfl
@[simp] theorem State.unanswered_rep : (s.unanswered).rep = s.rep := rfl
@[simp] theorem State.unanswered_free : (s.unanswered).free = s.free := rfl

@[simp] theorem State.freeNext_pending : (s.freeNext).pending = s.pending := rfl
@[simp] theorem State.freeNext_reg : (s.freeNext).reg = s.reg := rfl
@[simp] theorem State.freeNext_hv : (s.freeNext).hv = s.hv := rfl
@[simp] theorem State.freeNext_phase : (s.freeNext).phase = s.phase := rfl
@[simp] theorem State.freeNext_shake : (s.freeNext).shake = s.shake := rfl
@[simp] theorem State.freeNext_fettling : (s.freeNext).fettling = s.fettling := rfl
@[simp] theorem State.freeNext_loaded : (s.freeNext).loaded = s.loaded := rfl
@[simp] theorem State.freeNext_taken : (s.freeNext).taken = s.taken := rfl
@[simp] theorem State.freeNext_admHold : (s.freeNext).admHold = s.admHold := rfl
@[simp] theorem State.freeNext_caseWarned : (s.freeNext).caseWarned = s.caseWarned := rfl
@[simp] theorem State.freeNext_stopAt : (s.freeNext).stopAt = s.stopAt := rfl
@[simp] theorem State.freeNext_heldBoot : (s.freeNext).heldBoot = s.heldBoot := rfl
@[simp] theorem State.freeNext_runs : (s.freeNext).runs = s.runs := rfl
@[simp] theorem State.freeNext_setNow : (s.freeNext).setNow = s.setNow := rfl
@[simp] theorem State.freeNext_smp : (s.freeNext).smp = s.smp := rfl
@[simp] theorem State.freeNext_clk : (s.freeNext).clk = s.clk := rfl
@[simp] theorem State.freeNext_trk : (s.freeNext).trk = s.trk := rfl
@[simp] theorem State.freeNext_sup : (s.freeNext).sup = s.sup := rfl
@[simp] theorem State.freeNext_bar : (s.freeNext).bar = s.bar := rfl
@[simp] theorem State.freeNext_pads : (s.freeNext).pads = s.pads := rfl
@[simp] theorem State.freeNext_svc : (s.freeNext).svc = s.svc := rfl
@[simp] theorem State.freeNext_log : (s.freeNext).log = s.log := rfl
@[simp] theorem State.freeNext_fla : (s.freeNext).fla = s.fla := rfl
@[simp] theorem State.freeNext_feeds : (s.freeNext).feeds = s.feeds := rfl
@[simp] theorem State.freeNext_bus : (s.freeNext).bus = s.bus := rfl
@[simp] theorem State.freeNext_lad : (s.freeNext).lad = s.lad := rfl
@[simp] theorem State.freeNext_hux : (s.freeNext).hux = s.hux := rfl
@[simp] theorem State.freeNext_seq : (s.freeNext).seq = s.seq := rfl
@[simp] theorem State.freeNext_phy : (s.freeNext).phy = s.phy := rfl
@[simp] theorem State.freeNext_ll : (s.freeNext).ll = s.ll := rfl
@[simp] theorem State.freeNext_sto : (s.freeNext).sto = s.sto := rfl
@[simp] theorem State.freeNext_pour : (s.freeNext).pour = s.pour := rfl
@[simp] theorem State.freeNext_shk : (s.freeNext).shk = s.shk := rfl
@[simp] theorem State.freeNext_fw : (s.freeNext).fw = s.fw := rfl
@[simp] theorem State.freeNext_cas : (s.freeNext).cas = s.cas := rfl
@[simp] theorem State.freeNext_rep : (s.freeNext).rep = s.rep := rfl

end Sys2Proof.Machine
end

