-- ==== Sys2Proof/Laws/Table.lean ====
section
/-! SUPPORT. Laws of the sparse tables: reading after writing, and the canonical form. -/
namespace Sys2Proof.Machine

variable {α : Type}

theorem tget_tput (d : α) (t : Table α) (q x r) : tget d (tput t q x) r = if r = q then x else tget d t r := by
  induction t with
  | nil => simp [tput, tget]
  | cons e t ih =>
    obtain ⟨k, v⟩ := e
    simp only [tput]
    split
    · rfl
    · split
      · subst_vars; simp only [tget]; split <;> rfl
      · rename_i h
        simp only [tget, ih]
        by_cases h1 : r = k
        · subst h1; simp [Ne.symm h]
        · simp [h1]

theorem tget_terase (d : α) (t : Table α) (q r) : tget d (terase t q) r = if r = q then d else tget d t r := by
  induction t with
  | nil => simp [terase, tget]
  | cons e t ih =>
    obtain ⟨k, v⟩ := e
    simp only [terase]
    split
    · rename_i h; subst h; simp only [ih, tget]; split <;> rfl
    · rename_i h
      simp only [tget, ih]
      by_cases h1 : r = k
      · subst h1; simp [Ne.symm h]
      · simp [h1]

/-- Reading after setting: the value at its key, every other key as before. -/
theorem tget_tset [DecidableEq α] (d : α) (t : Table α) (q x r) :
    tget d (tset d t q x) r = if r = q then x else tget d t r := by
  unfold tset
  split
  · rename_i h; subst h; exact tget_terase ..
  · exact tget_tput ..

@[simp] theorem tget_tset_same [DecidableEq α] (d : α) (t : Table α) (q x) : tget d (tset d t q x) q = x := by
  simp [tget_tset]

/-- Setting with one default and reading with another differ only where the default was set. -/
theorem tget_tset_ne [DecidableEq α] (d e : α) (t : Table α) {q r} (x) (h : r ≠ q) :
    tget e (tset d t q x) r = tget e t r := by
  unfold tset
  split
  · rw [tget_terase]; simp [h]
  · rw [tget_tput]; simp [h]

/-! ### The canonical form -/

/-- Every key of the table lies above a bound. -/
def tabove (lo : Nat) (t : Table α) : Prop := ∀ e ∈ t, lo < e.1

theorem tsorted_cons (k : Nat) (v : α) (t : Table α) : tsorted ((k, v) :: t) = true ↔ tabove k t ∧ tsorted t = true := by
  induction t generalizing k v with
  | nil => simp [tsorted, tabove]
  | cons e t ih =>
    obtain ⟨k', v'⟩ := e
    rw [tsorted, Bool.and_eq_true, decide_eq_true_iff]
    constructor
    · rintro ⟨h1, h2⟩
      refine ⟨?_, h2⟩
      have := ((ih k' v').1 h2).1
      intro e he
      rcases List.mem_cons.1 he with rfl | he
      · exact h1
      · exact Nat.lt_trans h1 (this e he)
    · rintro ⟨h1, h2⟩
      exact ⟨h1 _ List.mem_cons_self, h2⟩

theorem mem_terase {t : Table α} {q e} (h : e ∈ terase t q) : e ∈ t := by
  induction t with
  | nil => simp [terase] at h
  | cons a t ih =>
    obtain ⟨k, v⟩ := a
    simp only [terase] at h
    split at h
    · exact List.mem_cons_of_mem _ (ih h)
    · rcases List.mem_cons.1 h with rfl | h
      · exact List.mem_cons_self
      · exact List.mem_cons_of_mem _ (ih h)

theorem mem_tput {t : Table α} {q x e} (h : e ∈ tput t q x) : e = (q, x) ∨ e ∈ t := by
  induction t with
  | nil => simpa [tput] using h
  | cons a t ih =>
    obtain ⟨k, v⟩ := a
    simp only [tput] at h
    split at h
    · simpa using h
    · split at h
      · rcases List.mem_cons.1 h with rfl | h
        · exact .inl rfl
        · exact .inr (List.mem_cons_of_mem _ h)
      · rcases List.mem_cons.1 h with rfl | h
        · exact .inr List.mem_cons_self
        · rcases ih h with h | h
          · exact .inl h
          · exact .inr (List.mem_cons_of_mem _ h)

theorem tsorted_terase {t : Table α} (q) (h : tsorted t = true) : tsorted (terase t q) = true := by
  induction t with
  | nil => rfl
  | cons a t ih =>
    obtain ⟨k, v⟩ := a
    obtain ⟨h1, h2⟩ := (tsorted_cons ..).1 h
    simp only [terase]
    split
    · exact ih h2
    · exact (tsorted_cons ..).2 ⟨fun e he => h1 e (mem_terase he), ih h2⟩

theorem tsorted_tput {t : Table α} (q x) (h : tsorted t = true) : tsorted (tput t q x) = true := by
  induction t with
  | nil => rfl
  | cons a t ih =>
    obtain ⟨k, v⟩ := a
    obtain ⟨h1, h2⟩ := (tsorted_cons ..).1 h
    simp only [tput]
    split
    · rename_i hq
      refine (tsorted_cons ..).2 ⟨?_, h⟩
      intro e he
      rcases List.mem_cons.1 he with rfl | he
      · exact hq
      · exact Nat.lt_trans hq (h1 e he)
    · split
      · rename_i hq; subst hq; exact (tsorted_cons ..).2 ⟨h1, h2⟩
      · refine (tsorted_cons ..).2 ⟨?_, ih h2⟩
        intro e he
        rcases mem_tput he with rfl | he
        · simp only; omega
        · exact h1 e he

theorem tsorted_filter {t : Table α} (c : Nat × α → Bool) (h : tsorted t = true) : tsorted (t.filter c) = true := by
  induction t with
  | nil => rfl
  | cons a t ih =>
    obtain ⟨k, v⟩ := a
    obtain ⟨h1, h2⟩ := (tsorted_cons ..).1 h
    rw [List.filter_cons]
    split
    · exact (tsorted_cons ..).2 ⟨fun e he => h1 e (List.mem_filter.1 he).1, ih h2⟩
    · exact ih h2

theorem tsorted_map {t : Table α} (f : α → α) (h : tsorted t = true) :
    tsorted (t.map (fun e => (e.1, f e.2))) = true := by
  induction t with
  | nil => rfl
  | cons a t ih =>
    obtain ⟨k, v⟩ := a
    obtain ⟨h1, h2⟩ := (tsorted_cons ..).1 h
    rw [List.map_cons]
    refine (tsorted_cons ..).2 ⟨?_, ih h2⟩
    intro e he
    obtain ⟨a, ha, rfl⟩ := List.mem_map.1 he
    exact h1 a ha

/-- Setting a value keeps the canonical form. -/
theorem twf_tset [DecidableEq α] {d : α} {t : Table α} (q x) (h : twf d t = true) : twf d (tset d t q x) = true := by
  simp only [twf, Bool.and_eq_true, List.all_eq_true, decide_eq_true_eq] at h ⊢
  unfold tset
  split
  · exact ⟨tsorted_terase q h.1, fun e he => h.2 e (mem_terase he)⟩
  · rename_i hx
    refine ⟨tsorted_tput q x h.1, fun e he => ?_⟩
    rcases mem_tput he with rfl | he
    · simpa using hx
    · exact h.2 e he

theorem twf_filter [DecidableEq α] {d : α} {t : Table α} (c : Nat × α → Bool) (h : twf d t = true) :
    twf d (t.filter c) = true := by
  simp only [twf, Bool.and_eq_true, List.all_eq_true, decide_eq_true_eq] at h ⊢
  exact ⟨tsorted_filter c h.1, fun e he => h.2 e (List.mem_filter.1 he).1⟩

/-- Changing every value keeps the canonical form. -/
theorem twf_tmap [DecidableEq α] {d : α} {t : Table α} (f : α → α) (h : twf d t = true) : twf d (tmap d t f) = true := by
  simp only [twf, tmap, Bool.and_eq_true, List.all_eq_true, decide_eq_true_eq] at h ⊢
  exact ⟨tsorted_filter _ (tsorted_map f h.1), fun e he => by simpa using (List.mem_filter.1 he).2⟩

/-- Setting a register keeps the canonical form of a table with a default for each key. -/
theorem twfAt_tset {d : Nat → Nat} {t : Table Nat} (q x) (h : twfAt d t = true) : twfAt d (tset (d q) t q x) = true := by
  simp only [twfAt, Bool.and_eq_true, List.all_eq_true, decide_eq_true_eq] at h ⊢
  unfold tset
  split
  · exact ⟨tsorted_terase q h.1, fun e he => h.2 e (mem_terase he)⟩
  · rename_i hx
    refine ⟨tsorted_tput q x h.1, fun e he => ?_⟩
    rcases mem_tput he with rfl | he
    · simpa using hx
    · exact h.2 e he

theorem twfAt_filter {d : Nat → Nat} {t : Table Nat} (c : Nat × Nat → Bool) (h : twfAt d t = true) :
    twfAt d (t.filter c) = true := by
  simp only [twfAt, Bool.and_eq_true, List.all_eq_true, decide_eq_true_eq] at h ⊢
  exact ⟨tsorted_filter c h.1, fun e he => h.2 e (List.mem_filter.1 he).1⟩

end Sys2Proof.Machine
end

