-- ==== Sys2Proof/Laws/Frame.lean ====
section
/-! SUPPORT. Registers after a write, and the frames of the shared operations: what each leaves alone. -/
namespace Sys2Proof.Machine

/-! ### A register after a write -/

theorem State.rd_wr (s : State) (k v q) : (s.wr k v).rd q = if q = k then v % 256 ^ sizeAt k else s.rd q := by
  by_cases h : q = k
  · subst h; simp [State.rd, State.wr, regSet]
  · simp only [State.rd, State.wr, regSet, h, if_false]; exact tget_tset_ne _ _ _ _ h

@[simp] theorem State.rd_wr_same (s : State) (k v) : (s.wr k v).rd k = v % 256 ^ sizeAt k := by simp [State.rd_wr]

theorem State.rd_wr_ne (s : State) {k q} (v) (h : q ≠ k) : (s.wr k v).rd q = s.rd q := by simp [State.rd_wr, h]

theorem State.hrd_hwr (s : State) (k v q) : (s.hwr k v).hrd q = if q = k then v % 256 ^ sizeAt k else s.hrd q := by
  by_cases h : q = k
  · subst h; simp [State.hrd, State.hwr, regSet]
  · simp only [State.hrd, State.hwr, regSet, h, if_false]; exact tget_tset_ne _ _ _ _ h

@[simp] theorem State.hrd_hwr_same (s : State) (k v) : (s.hwr k v).hrd k = v % 256 ^ sizeAt k := by
  simp [State.hrd_hwr]

theorem State.hrd_hwr_ne (s : State) {k q} (v) (h : q ≠ k) : (s.hwr k v).hrd q = s.hrd q := by simp [State.hrd_hwr, h]

@[simp] theorem State.rd_hwr (s : State) (k v q) : (s.hwr k v).rd q = s.rd q := rfl
@[simp] theorem State.hrd_wr (s : State) (k v q) : (s.wr k v).hrd q = s.hrd q := rfl

/-- The registers read alike where the tables are equal. -/
theorem State.rd_congr {s t : State} (h : t.reg = s.reg) (k) : t.rd k = s.rd k := by simp [State.rd, h]
theorem State.hrd_congr {s t : State} (h : t.hv = s.hv) (k) : t.hrd k = s.hrd k := by simp [State.hrd, h]

/-! ### Quiet and Frame -/

theorem Quiet.refl (K H : List Nat) (s) : Quiet K H s s := ⟨fun _ _ => rfl, fun _ _ => rfl⟩

theorem Quiet.trans {K H s t u} (h1 : Quiet K H s t) (h2 : Quiet K H t u) : Quiet K H s u :=
  ⟨fun k hk => (h2.1 k hk).trans (h1.1 k hk), fun k hk => (h2.2 k hk).trans (h1.2 k hk)⟩

theorem Quiet.mono {K H K' H' s t} (h : Quiet K H s t) (hK : K ⊆ K') (hH : H ⊆ H') : Quiet K' H' s t :=
  ⟨fun k hk => h.1 k (fun hm => hk (hK hm)), fun k hk => h.2 k (fun hm => hk (hH hm))⟩

/-- A state whose registers are those of a quiet one is quiet. -/
theorem Quiet.of_eq {K H s t u} (h : Quiet K H s t) (h1 : u.reg = t.reg) (h2 : u.hv = t.hv) : Quiet K H s u :=
  ⟨fun k hk => (State.rd_congr h1 k).trans (h.1 k hk), fun k hk => (State.hrd_congr h2 k).trans (h.2 k hk)⟩

theorem Quiet.wr {K H s t} (k v) (h : Quiet K H s t) (hk : k ∈ K) : Quiet K H s (t.wr k v) :=
  ⟨fun q hq => (State.rd_wr_ne t v (fun (e : q = k) => hq (e ▸ hk))).trans (h.1 q hq), h.2⟩

theorem Quiet.hwr {K H s t} (k v) (h : Quiet K H s t) (hk : k ∈ H) : Quiet K H s (t.hwr k v) :=
  ⟨h.1, fun q hq => (State.hrd_hwr_ne t v (fun (e : q = k) => hq (e ▸ hk))).trans (h.2 q hq)⟩

/-- The log is kept where the ring is the same. -/
theorem RingKept.of_eq {s t : State} (h : t.log.ring = s.log.ring) : RingKept s t := fun n _ => by simp [State.slot, h]

theorem RingKept.trans {s t u} (h1 : RingKept s t) (h2 : RingKept t u) : RingKept s u :=
  fun n hn => (h2 n (by rw [h1 n hn]; exact hn)).trans (h1 n hn)

theorem SameStores.refl (s) : SameStores s s := ⟨fun _ => rfl, rfl, rfl, rfl, rfl, rfl, .of_eq rfl⟩

theorem SameStores.trans {s t u} (h1 : SameStores s t) (h2 : SameStores t u) : SameStores s u := by
  obtain ⟨a1, a2, a3, a4, a5, a6, a7⟩ := h1
  obtain ⟨b1, b2, b3, b4, b5, b6, b7⟩ := h2
  exact ⟨fun a => (b1 a).trans (a1 a), b2.trans a2, b3.trans a3, b4.trans a4, b5.trans a5, b6.trans a6, a7.trans b7⟩

theorem Frame.refl (K H : List Nat) (s) : Frame K H s s := ⟨Quiet.refl .., SameStores.refl s⟩

theorem Frame.trans {K H s t u} (h1 : Frame K H s t) (h2 : Frame K H t u) : Frame K H s u :=
  ⟨h1.1.trans h2.1, h1.2.trans h2.2⟩

theorem Frame.mono {K H K' H' s t} (h : Frame K H s t) (hK : K ⊆ K') (hH : H ⊆ H') : Frame K' H' s t :=
  ⟨h.1.mono hK hH, h.2⟩

/-- An update of a field that is neither registers nor stores. -/
theorem Frame.of_eq {K H s t u} (h : Frame K H s t) (h1 : u.reg = t.reg) (h2 : u.hv = t.hv) (h3 : SameStores t u) :
    Frame K H s u := ⟨h.1.of_eq h1 h2, h.2.trans h3⟩

theorem Frame.wr {K H s t} (k v) (h : Frame K H s t) (hk : k ∈ K) : Frame K H s (t.wr k v) :=
  ⟨h.1.wr k v hk, h.2.trans ⟨fun _ => rfl, rfl, rfl, rfl, rfl, rfl, .of_eq rfl⟩⟩

theorem Frame.hwr {K H s t} (k v) (h : Frame K H s t) (hk : k ∈ H) : Frame K H s (t.hwr k v) :=
  ⟨h.1.hwr k v hk, h.2.trans ⟨fun _ => rfl, rfl, rfl, rfl, rfl, rfl, .of_eq rfl⟩⟩

/-- Where one of two frames holds by a condition. -/
theorem Frame.ite {K H s a b} {c : Prop} [Decidable c] (h1 : c → Frame K H s a) (h2 : ¬c → Frame K H s b) :
    Frame K H s (if c then a else b) := by
  split
  · exact h1 ‹_›
  · exact h2 ‹_›

theorem Frame.each {K H s t} {α : Type} (l : List α) (f : α → State → State)
    (hf : ∀ a u, Frame K H s u → Frame K H s (f a u)) (h : Frame K H s t) : Frame K H s (t.each l f) := by
  unfold State.each
  induction l generalizing t with
  | nil => exact h
  | cons a l ih => exact ih (hf a t h)

theorem Frame.iff {K H s t} (c : Bool) (f : State → State) (hf : Frame K H s t → Frame K H s (f t)) (h : Frame K H s t) :
    Frame K H s (t.iff c f) := by
  unfold State.iff
  split
  · exact hf h
  · exact h

/-! ### Findings that wait for a B1 frame -/

/-- What a finding of the HV die does at once: it waits for a frame (R18). -/
theorem State.told_eq (s : State) (l : List Note) :
    s.told l = { s with bar := { s.bar with reports := if s.sup.running then s.bar.reports ++ [(s.clk.hvTic, l)] else s.bar.reports } } := by
  unfold State.told
  split <;> simp_all

@[simp] theorem State.told_reg (s : State) (l) : (s.told l).reg = s.reg := by rw [State.told_eq]
@[simp] theorem State.told_hv (s : State) (l) : (s.told l).hv = s.hv := by rw [State.told_eq]
@[simp] theorem State.rd_told (s : State) (l k) : (s.told l).rd k = s.rd k := by simp [State.rd]
@[simp] theorem State.hrd_told (s : State) (l k) : (s.told l).hrd k = s.hrd k := by simp [State.hrd]

theorem Frame.told {K H s t} (l) (h : Frame K H s t) : Frame K H s (t.told l) := by
  rw [State.told_eq]
  exact h.of_eq rfl rfl ⟨fun _ => rfl, rfl, rfl, rfl, rfl, rfl, .of_eq rfl⟩

/-- Queueing a B3 command frame: it waits for the HV die. -/
theorem Frame.sendCmd {K H s t} (l) (h : Frame K H s t) : Frame K H s (t.sendCmd l) :=
  h.of_eq rfl rfl ⟨fun _ => rfl, rfl, rfl, rfl, rfl, rfl, .of_eq rfl⟩

/-! ### Events -/

/-- What an operation of the event queue may touch: registers of `eventKeys`, the log, the erase queue, the frames to send, and what
is kept in mind of the flags set in this tick; no record that stands in the log. -/
def LogOnly (s t : State) : Prop :=
  ∃ reg now log queue evTx, t = { s with reg := reg, setNow := now, log := log, fla := { s.fla with queue := queue },
                                         cas := { s.cas with evTx := evTx } }
    ∧ (∀ k, k ∉ eventKeys → t.rd k = s.rd k) ∧ RingKept s t

theorem LogOnly.refl (s) : LogOnly s s := ⟨s.reg, s.setNow, s.log, s.fla.queue, s.cas.evTx, rfl, fun _ _ => rfl, .of_eq rfl⟩

theorem LogOnly.trans {s t u} (h1 : LogOnly s t) (h2 : LogOnly t u) : LogOnly s u := by
  obtain ⟨r, w, l, q, e, rfl, k1, n1⟩ := h1
  obtain ⟨r', w', l', q', e', rfl, k2, n2⟩ := h2
  exact ⟨r', w', l', q', e', rfl, fun k hk => (k2 k hk).trans (k1 k hk), n1.trans n2⟩

theorem LogOnly.wr {s t} (k v) (hk : k ∈ eventKeys) (h : LogOnly s t) : LogOnly s (t.wr k v) :=
  h.trans ⟨_, _, _, _, _, rfl, fun q hq => State.rd_wr_ne t v (fun (e : q = k) => hq (e ▸ hk)), .of_eq rfl⟩

theorem LogOnly.bump {s t} (k) (hk : k ∈ eventKeys) (h : LogOnly s t) : LogOnly s (t.bump k) := h.wr _ _ hk

theorem LogOnly.flag {s t} (k i) (hk : k ∈ eventKeys) (h : LogOnly s t) : LogOnly s (t.flag k i) :=
  h.trans ⟨_, _, _, _, _, rfl, fun q hq => State.rd_wr_ne t _ (fun (e : q = k) => hq (e ▸ hk)), .of_eq rfl⟩

theorem LogOnly.log {s t} (l : Log) (h : LogOnly s t) (hr : l.ring = t.log.ring := by rfl) : LogOnly s { t with log := l } :=
  h.trans ⟨_, _, _, _, _, rfl, fun _ _ => rfl, .of_eq hr⟩

/-- A blank slot takes a record. -/
theorem LogOnly.put {s t} (l : Log) (i : Nat) (x : Slot) (h : LogOnly s t) (hb : t.slot i = .blank)
    (hr : l.ring = tset .blank t.log.ring i x) : LogOnly s { t with log := l } := by
  refine h.trans ⟨_, _, _, _, _, rfl, fun _ _ => rfl, fun n hn => ?_⟩
  have hi : n ≠ i := fun e => hn (e ▸ hb)
  simp only [State.slot, hr]
  exact tget_tset_ne _ _ _ _ hi

theorem LogOnly.ite {s a b} {c : Prop} [Decidable c] (h1 : LogOnly s a) (h2 : LogOnly s b) : LogOnly s (if c then a else b) := by
  split
  · exact h1
  · exact h2

theorem logOnly_queueErase {s t} (b c) (h : LogOnly s t) : LogOnly s (t.queueErase b c) :=
  h.trans (.ite (.refl t) ⟨_, _, _, _, _, rfl, fun _ _ => rfl, .of_eq rfl⟩)

theorem logOnly_queuePos {s t} (r) (h : LogOnly s t) : LogOnly s (t.queuePos r) := by
  unfold State.queuePos
  exact .ite h (logOnly_queueErase _ _ h)

theorem logOnly_putRecord {s t} (r) (h : LogOnly s t) (hw : t.canWrite = true) : LogOnly s (t.putRecord r) := by
  have hb : t.slot t.log.head = .blank := by simp [State.canWrite] at hw; exact hw.2
  have h0 := h.put { t.log with
      ring := tset .blank t.log.ring t.log.head (.valid r t.log.index)
      index := t.log.index + 1
      head := (t.log.head + 1) % ringSlots
      writing := t.log.head :: t.log.writing } t.log.head (.valid r t.log.index) hb rfl
  have h1 := h0.wr Reg.wordsProgrammed (t.rd Reg.wordsProgrammed + 8) (by decide)
  unfold State.putRecord State.bumpBy
  exact .ite (logOnly_queuePos _ h1) h1

theorem logOnly_drain {s} (l : List LogRec) : ∀ {t}, LogOnly s t → LogOnly s (t.drain l) := by
  induction l with
  | nil => intro t h; exact h.log _
  | cons r l ih =>
    intro t h
    unfold State.drain
    split
    · exact ih (logOnly_putRecord r h ‹_›)
    · exact h.log _

theorem logOnly_dropRecord {s t} (h : LogOnly s t) : LogOnly s t.dropRecord := by
  unfold State.dropRecord
  refine .log _ (.ite ?_ ?_)
  · exact (h.bump _ (by decide)).flag _ _ (by decide)
  · exact ((h.bump _ (by decide)).flag _ _ (by decide)).bump _ (by decide)

theorem logOnly_enqueue {s t} (r) (h : LogOnly s t) : LogOnly s (t.enqueue r) := by
  unfold State.enqueue
  exact .ite (h.log _) (logOnly_dropRecord h)

theorem logOnly_sendEvent {s t} (r) (h : LogOnly s t) : LogOnly s (t.sendEvent r) := by
  unfold State.sendEvent
  refine .ite h (.ite (h.trans ⟨_, _, _, _, _, rfl, fun _ _ => rfl, .of_eq rfl⟩) ?_)
  have h1 : LogOnly s ((t.bump Reg.eventTxDrops).flag Reg.casFlags 10) := (h.bump _ (by decide)).flag _ _ (by decide)
  exact .ite (logOnly_enqueue _ (h1.wr _ _ (by decide))) h1

theorem logOnly_payOwed {s t} (h : LogOnly s t) : LogOnly s t.payOwed := by
  unfold State.payOwed
  exact .ite (logOnly_sendEvent _ (logOnly_enqueue _ ((h.wr _ _ (by decide)).log _))) h

theorem logOnly_flushLog {s t} (h : LogOnly s t) : LogOnly s t.flushLog := by
  unfold State.flushLog
  exact logOnly_payOwed (.log _ (logOnly_drain _ h))

theorem logOnly_coldRecord {s t} (r) (h : LogOnly s t) : LogOnly s (t.coldRecord r) := by
  unfold State.coldRecord
  split
  · rename_i hc
    simp only [Bool.and_eq_true, decide_eq_true_eq] at hc
    exact h.put _ t.log.head (.valid r t.log.index) hc.1.1 rfl
  · exact h

/-- All that creating an event can do (R464-R472). -/
theorem logOnly_eventSev {s t} (sev code obj detail a b ext) (h : LogOnly s t) :
    LogOnly s (t.eventSev sev code obj detail a b ext) := by
  unfold State.eventSev
  refine .ite h ?_
  extract_lets seq s1 s2 r
  have h1 : LogOnly s s1 := h.wr _ _ (by decide)
  have h2 : LogOnly s s2 := .ite ((h1.wr _ _ (by decide)).wr _ _ (by decide)) h1
  have h3 : LogOnly s s2.flushLog := logOnly_flushLog h2
  refine .ite (logOnly_coldRecord _ h2) (.ite ?_ (logOnly_sendEvent _ (logOnly_enqueue _ h2)))
  split
  · rename_i hc
    simp only [Bool.and_eq_true] at hc
    exact logOnly_sendEvent _ (.log _ (logOnly_putRecord _ h3 hc.2))
  · exact logOnly_sendEvent _ (.log _ (logOnly_enqueue _ h3))

theorem logOnly_event (s : State) (code obj detail a b) : LogOnly s (s.event code obj detail a b) :=
  logOnly_eventSev _ _ _ _ _ _ _ (.refl s)

theorem LogOnly.rd {s t} (h : LogOnly s t) {k} (hk : k ∉ eventKeys) : t.rd k = s.rd k := 
  h.choose_spec.choose_spec.choose_spec.choose_spec.choose_spec.2.1 k hk

theorem LogOnly.frame {s t u K H} (h : LogOnly t u) (hK : eventKeys ⊆ K) (hf : Frame K H s t) : Frame K H s u := by
  obtain ⟨r, w, l, q, e, rfl, k1, n1⟩ := h
  exact hf.trans ⟨⟨fun k hk => k1 k (fun hm => hk (hK hm)), fun _ _ => rfl⟩, fun _ => rfl, rfl, rfl, rfl, rfl, rfl, n1⟩

theorem Frame.event {K H s t} (code obj detail a b) (h : Frame K H s t) (hK : eventKeys ⊆ K) :
    Frame K H s (t.event code obj detail a b) := (logOnly_event ..).frame hK h

/-- A register outside `eventKeys` after an event. -/
theorem State.rd_event (s : State) {k} (code obj detail a b) (hk : k ∉ eventKeys) :
    (s.event code obj detail a b).rd k = s.rd k := (logOnly_event ..).rd hk

section
variable (s : State) (c o d a b : Nat)
@[simp] theorem State.event_pending : (s.event c o d a b).pending = s.pending := by
  obtain ⟨_, _, _, _, _, h, _⟩ := logOnly_event s c o d a b; rw [h]
@[simp] theorem State.event_hv : (s.event c o d a b).hv = s.hv := by
  obtain ⟨_, _, _, _, _, h, _⟩ := logOnly_event s c o d a b; rw [h]
@[simp] theorem State.event_phase : (s.event c o d a b).phase = s.phase := by
  obtain ⟨_, _, _, _, _, h, _⟩ := logOnly_event s c o d a b; rw [h]
@[simp] theorem State.event_shake : (s.event c o d a b).shake = s.shake := by
  obtain ⟨_, _, _, _, _, h, _⟩ := logOnly_event s c o d a b; rw [h]
@[simp] theorem State.event_fettling : (s.event c o d a b).fettling = s.fettling := by
  obtain ⟨_, _, _, _, _, h, _⟩ := logOnly_event s c o d a b; rw [h]
@[simp] theorem State.event_loaded : (s.event c o d a b).loaded = s.loaded := by
  obtain ⟨_, _, _, _, _, h, _⟩ := logOnly_event s c o d a b; rw [h]
@[simp] theorem State.event_taken : (s.event c o d a b).taken = s.taken := by
  obtain ⟨_, _, _, _, _, h, _⟩ := logOnly_event s c o d a b; rw [h]
@[simp] theorem State.event_admHold : (s.event c o d a b).admHold = s.admHold := by
  obtain ⟨_, _, _, _, _, h, _⟩ := logOnly_event s c o d a b; rw [h]
@[simp] theorem State.event_caseWarned : (s.event c o d a b).caseWarned = s.caseWarned := by
  obtain ⟨_, _, _, _, _, h, _⟩ := logOnly_event s c o d a b; rw [h]
@[simp] theorem State.event_stopAt : (s.event c o d a b).stopAt = s.stopAt := by
  obtain ⟨_, _, _, _, _, h, _⟩ := logOnly_event s c o d a b; rw [h]
@[simp] theorem State.event_heldBoot : (s.event c o d a b).heldBoot = s.heldBoot := by
  obtain ⟨_, _, _, _, _, h, _⟩ := logOnly_event s c o d a b; rw [h]
@[simp] theorem State.event_runs : (s.event c o d a b).runs = s.runs := by
  obtain ⟨_, _, _, _, _, h, _⟩ := logOnly_event s c o d a b; rw [h]
@[simp] theorem State.event_smp : (s.event c o d a b).smp = s.smp := by
  obtain ⟨_, _, _, _, _, h, _⟩ := logOnly_event s c o d a b; rw [h]
@[simp] theorem State.event_clk : (s.event c o d a b).clk = s.clk := by
  obtain ⟨_, _, _, _, _, h, _⟩ := logOnly_event s c o d a b; rw [h]
@[simp] theorem State.event_trk : (s.event c o d a b).trk = s.trk := by
  obtain ⟨_, _, _, _, _, h, _⟩ := logOnly_event s c o d a b; rw [h]
@[simp] theorem State.event_sup : (s.event c o d a b).sup = s.sup := by
  obtain ⟨_, _, _, _, _, h, _⟩ := logOnly_event s c o d a b; rw [h]
@[simp] theorem State.event_bar : (s.event c o d a b).bar = s.bar := by
  obtain ⟨_, _, _, _, _, h, _⟩ := logOnly_event s c o d a b; rw [h]
@[simp] theorem State.event_pads : (s.event c o d a b).pads = s.pads := by
  obtain ⟨_, _, _, _, _, h, _⟩ := logOnly_event s c o d a b; rw [h]
@[simp] theorem State.event_svc : (s.event c o d a b).svc = s.svc := by
  obtain ⟨_, _, _, _, _, h, _⟩ := logOnly_event s c o d a b; rw [h]
@[simp] theorem State.event_feeds : (s.event c o d a b).feeds = s.feeds := by
  obtain ⟨_, _, _, _, _, h, _⟩ := logOnly_event s c o d a b; rw [h]
@[simp] theorem State.event_bus : (s.event c o d a b).bus = s.bus := by
  obtain ⟨_, _, _, _, _, h, _⟩ := logOnly_event s c o d a b; rw [h]
@[simp] theorem State.event_lad : (s.event c o d a b).lad = s.lad := by
  obtain ⟨_, _, _, _, _, h, _⟩ := logOnly_event s c o d a b; rw [h]
@[simp] theorem State.event_hux : (s.event c o d a b).hux = s.hux := by
  obtain ⟨_, _, _, _, _, h, _⟩ := logOnly_event s c o d a b; rw [h]
@[simp] theorem State.event_seq : (s.event c o d a b).seq = s.seq := by
  obtain ⟨_, _, _, _, _, h, _⟩ := logOnly_event s c o d a b; rw [h]
@[simp] theorem State.event_phy : (s.event c o d a b).phy = s.phy := by
  obtain ⟨_, _, _, _, _, h, _⟩ := logOnly_event s c o d a b; rw [h]
@[simp] theorem State.event_ll : (s.event c o d a b).ll = s.ll := by
  obtain ⟨_, _, _, _, _, h, _⟩ := logOnly_event s c o d a b; rw [h]
@[simp] theorem State.event_sto : (s.event c o d a b).sto = s.sto := by
  obtain ⟨_, _, _, _, _, h, _⟩ := logOnly_event s c o d a b; rw [h]
@[simp] theorem State.event_pour : (s.event c o d a b).pour = s.pour := by
  obtain ⟨_, _, _, _, _, h, _⟩ := logOnly_event s c o d a b; rw [h]
@[simp] theorem State.event_shk : (s.event c o d a b).shk = s.shk := by
  obtain ⟨_, _, _, _, _, h, _⟩ := logOnly_event s c o d a b; rw [h]
@[simp] theorem State.event_fw : (s.event c o d a b).fw = s.fw := by
  obtain ⟨_, _, _, _, _, h, _⟩ := logOnly_event s c o d a b; rw [h]
@[simp] theorem State.event_rep : (s.event c o d a b).rep = s.rep := by
  obtain ⟨_, _, _, _, _, h, _⟩ := logOnly_event s c o d a b; rw [h]
@[simp] theorem State.event_free : (s.event c o d a b).free = s.free := by
  obtain ⟨_, _, _, _, _, h, _⟩ := logOnly_event s c o d a b; rw [h]
@[simp] theorem State.hrd_event (k) : (s.event c o d a b).hrd k = s.hrd k := by simp [State.hrd]
end

end Sys2Proof.Machine
end

