-- ==== Sys2Proof/Laws/Keeps.lean ====
section
/-! SUPPORT. What every operation keeps: the queue of waiting commands, and the invariant. The rules by which the lemmas of
the operations are put together. -/
namespace Sys2Proof.Machine

/-- The queue is as it was, and the invariant goes over. -/
def Keeps (s t : State) : Prop := t.pending = s.pending ∧ (s.inv = true → t.inv = true)

theorem Keeps.refl (s) : Keeps s s := ⟨rfl, id⟩

theorem Keeps.trans {s t u} (h1 : Keeps s t) (h2 : Keeps t u) : Keeps s u := ⟨h2.1.trans h1.1, fun h => h2.2 (h1.2 h)⟩

/-- An update of fields that neither the queue nor the invariant speaks of. -/
theorem Keeps.upd {s t u : State} (h : Keeps s t) (h1 : u.pending = t.pending) (h2 : u.reg = t.reg) (h3 : u.hv = t.hv)
    (h4 : u.clk = t.clk) : Keeps s u :=
  ⟨h1.trans h.1, fun hi => by have := h.2 hi; simpa only [State.inv, State.regsOk, State.ticsOk, h2, h3, h4] using this⟩

/-- The same, in the form a record update takes. -/
theorem keeps_mk {s t : State}
    {phase_ : Phase} {shake_ : Bool} {fettling_ : Bool} {loaded_ : Bool} {taken_ : Bool} {admHold_ : Bool} {caseWarned_
    : Bool} {stopAt_ : Nat} {heldBoot_ : Bool} {runs_ : Table Nat} {setNow_ : Table Nat} {smp_ : Sample} {trk_ : Tracker} {sup_ : Supply}
    {bar_ : Barrier} {pads_ : Pads} {svc_ : Service} {log_ : Log} {fla_ : Flash} {feeds_ : Table FeedX} {bus_ : Bus}
    {lad_ : Ladle} {hux_ : Holdup} {seq_ : Seq} {phy_ : Phy} {ll_ : LinkLayer} {sto_ : Store} {pour_ : Pour} {shk_ :
    Shake} {fw_ : Firm} {cas_ : Cascade} {rep_ : Report} {free_ : Nat}
    : Keeps s
      { pending := t.pending, reg := t.reg, hv := t.hv, clk := t.clk,
        phase := phase_, shake := shake_, fettling := fettling_, loaded := loaded_, taken := taken_,
        admHold := admHold_, caseWarned := caseWarned_, stopAt := stopAt_, heldBoot := heldBoot_, runs := runs_,
        setNow := setNow_, smp := smp_, trk := trk_, sup := sup_, bar := bar_, pads := pads_, svc := svc_, log := log_, fla := fla_,
        feeds := feeds_, bus := bus_, lad := lad_, hux := hux_, seq := seq_, phy := phy_, ll := ll_, sto := sto_,
        pour := pour_, shk := shk_, fw := fw_, cas := cas_, rep := rep_, free := free_ } ↔ Keeps s t :=
  ⟨fun h => h.upd rfl rfl rfl rfl, fun h => h.upd rfl rfl rfl rfl⟩

/-- An update of the clock that leaves both ticks within their cycle. -/
theorem Keeps.clk {s t u : State} (h : Keeps s t) (h1 : u.pending = t.pending) (h2 : u.reg = t.reg) (h3 : u.hv = t.hv)
    (h4 : t.ticsOk = true → u.ticsOk = true) : Keeps s u :=
  ⟨h1.trans h.1, fun hi => by
    have := h.2 hi
    simp only [State.inv, State.regsOk, Bool.and_eq_true] at this ⊢
    rw [h2, h3]
    exact ⟨this.1, h4 this.2⟩⟩

/-- Setting a register keeps its table sound. -/
theorem regTableOk_regSet {t : Table Nat} (k v) (h : regTableOk t = true) :
    regTableOk (regSet t k v) = true := by
  simp only [regSet, regTableOk, Bool.and_eq_true] at h ⊢
  refine ⟨twfAt_tset (d := dfltAt) k _ h.1, ?_⟩
  simp only [List.all_eq_true, decide_eq_true_eq] at h ⊢
  intro e he
  unfold tset at he
  split at he
  · exact h.2 e (mem_terase he)
  · rcases mem_tput he with rfl | he
    · exact Nat.mod_lt _ (Nat.pow_pos (by decide))
    · exact h.2 e he

theorem regTableOk_filter {t : Table Nat} (c : Nat × Nat → Bool) (h : regTableOk t = true) :
    regTableOk (t.filter c) = true := by
  simp only [regTableOk, Bool.and_eq_true] at h ⊢
  refine ⟨twfAt_filter c h.1, ?_⟩
  simp only [List.all_eq_true, decide_eq_true_eq] at h ⊢
  exact fun e he => h.2 e (List.mem_filter.1 he).1

theorem regTableOk_foldl (l t : Table Nat) (h : regTableOk t = true) :
    regTableOk (l.foldl (fun t e => regSet t e.1 e.2) t) = true := by
  induction l generalizing t with
  | nil => exact h
  | cons e l ih => exact ih _ (regTableOk_regSet e.1 e.2 h)

/-- New register tables that are sound where the old ones were. -/
theorem Keeps.regs {s t u : State} (h : Keeps s t) (h1 : u.pending = t.pending)
    (h2 : regTableOk t.reg = true → regTableOk u.reg = true) (h3 : regTableOk t.hv = true → regTableOk u.hv = true)
    (h4 : u.clk = t.clk) : Keeps s u :=
  ⟨h1.trans h.1, fun hi => by
    have := h.2 hi
    simp only [State.inv, State.regsOk, State.ticsOk, Bool.and_eq_true] at this ⊢
    rw [h4]
    exact ⟨⟨h2 this.1.1, h3 this.1.2⟩, this.2⟩⟩

theorem State.wr_keeps {s t : State} (k v) (h : Keeps s t) : Keeps s (t.wr k v) :=
  h.regs rfl (regTableOk_regSet k v) id rfl

theorem State.hwr_keeps {s t : State} (k v) (h : Keeps s t) : Keeps s (t.hwr k v) :=
  h.regs rfl id (regTableOk_regSet k v) rfl

theorem Keeps.ite {s a b} {c : Prop} [Decidable c] (h1 : Keeps s a) (h2 : Keeps s b) : Keeps s (if c then a else b) := by
  split
  · exact h1
  · exact h2

theorem State.each_keeps {s t : State} {α : Type} (l : List α) (f : α → State → State)
    (hf : ∀ a u, Keeps s u → Keeps s (f a u)) (h : Keeps s t) : Keeps s (t.each l f) := by
  unfold State.each
  induction l generalizing t with
  | nil => exact h
  | cons a l ih => exact ih (hf a t h)

theorem foldl_keeps {s t : State} {α : Type} (l : List α) (f : State → α → State)
    (hf : ∀ u a, Keeps s u → Keeps s (f u a)) (h : Keeps s t) : Keeps s (l.foldl f t) := by
  induction l generalizing t with
  | nil => exact h
  | cons a l ih => exact ih (hf t a h)

theorem State.iff_keeps {s t : State} (c : Bool) (f : State → State) (hf : ∀ u, Keeps s u → Keeps s (f u)) (h : Keeps s t) :
    Keeps s (t.iff c f) := by
  unfold State.iff
  split
  · exact hf t h
  · exact h

theorem id_keeps {s t : State} (h : Keeps s t) : Keeps s (id t) := h

/-- A state with an answer beside it. -/
def KeepsP {α : Type} (s : State) (p : State × α) : Prop := Keeps s p.1

theorem KeepsP.mk {α : Type} {s t} {a : α} (h : Keeps s t) : KeepsP s (t, a) := h

theorem KeepsP.ite {α : Type} {s} {a b : State × α} {c : Prop} [Decidable c] (h1 : KeepsP s a) (h2 : KeepsP s b) :
    KeepsP s (if c then a else b) := by
  split
  · exact h1
  · exact h2

/-- What a write comes to. -/
def KeepsW (s : State) : WOut → Prop
  | .abort _ _ => True
  | .ok t => Keeps s t
  | .later t => Keeps s t

theorem KeepsW.abort {s c d} : KeepsW s (.abort c d) := trivial
theorem KeepsW.ok {s t} (h : Keeps s t) : KeepsW s (.ok t) := h
theorem KeepsW.later {s t} (h : Keeps s t) : KeepsW s (.later t) := h

theorem KeepsW.ite {s a b} {c : Prop} [Decidable c] (h1 : KeepsW s a) (h2 : KeepsW s b) : KeepsW s (if c then a else b) := by
  split
  · exact h1
  · exact h2

/-- What a request comes to. -/
def KeepsR (s : State) : ROut → Prop
  | .abort t _ _ _ _ => Keeps s t
  | .ok t _ _ p => Keeps s t ∧ ∀ u, Keeps s u → Keeps s (p u)
  | .later t => Keeps s t

theorem KeepsR.abort {s t c d x v} (h : Keeps s t) : KeepsR s (.abort t c d x v) := h
theorem KeepsR.ok {s t l b p} (h : Keeps s t) (hp : ∀ u, Keeps s u → Keeps s (p u)) : KeepsR s (.ok t l b p) := ⟨h, hp⟩
theorem KeepsR.later {s t} (h : Keeps s t) : KeepsR s (.later t) := h

theorem KeepsR.ite {s a b} {c : Prop} [Decidable c] (h1 : KeepsR s a) (h2 : KeepsR s b) : KeepsR s (if c then a else b) := by
  split
  · exact h1
  · exact h2

/-- A command's outcome: a next state. -/
def KeepsX (s : State) : Host.Outcome State Fault Refusal → Prop
  | .next t => Keeps s t
  | .fault _ => False
  | .refused _ => False

theorem KeepsX.next {s t} (h : Keeps s t) : KeepsX s (.next t) := h

theorem KeepsX.ite {s a b} {c : Prop} [Decidable c] (h1 : KeepsX s a) (h2 : KeepsX s b) : KeepsX s (if c then a else b) := by
  split
  · exact h1
  · exact h2

end Sys2Proof.Machine
end

