-- ==== Sys2Proof/Laws/KeepsOps.lean ====
section
/-! SUPPORT. What the shared operations of registers, flags, events, start, the feeds, the ladle, the holdup, the store and the reports keep: one lemma each. -/
set_option linter.unusedVariables false
set_option linter.unusedSimpArgs false
namespace Sys2Proof.Machine

theorem State.wrI_keeps {s t : State} (k : Nat) (v : Int) (h : Keeps s t) : Keeps s (State.wrI t k v) := by
  unfold State.wrI
  with_reducible repeat'
    first | intro _ | assumption | apply Keeps.ite | apply State.wr_keeps | simp only [keeps_mk] | apply foldl_keeps
          | split | dsimp only

theorem State.hwrI_keeps {s t : State} (k : Nat) (v : Int) (h : Keeps s t) : Keeps s (State.hwrI t k v) := by
  unfold State.hwrI
  with_reducible repeat'
    first | intro _ | assumption | apply Keeps.ite | apply State.hwr_keeps | simp only [keeps_mk] | apply foldl_keeps
          | split | dsimp only

theorem State.bump_keeps {s t : State} (k : Nat) (h : Keeps s t) : Keeps s (State.bump t k) := by
  unfold State.bump
  with_reducible repeat'
    first | intro _ | assumption | apply Keeps.ite | apply State.wr_keeps | simp only [keeps_mk] | apply foldl_keeps
          | split | dsimp only

theorem State.bumpBy_keeps {s t : State} (k : Nat) (n : Nat) (h : Keeps s t) : Keeps s (State.bumpBy t k n) := by
  unfold State.bumpBy
  with_reducible repeat'
    first | intro _ | assumption | apply Keeps.ite | apply State.wr_keeps | simp only [keeps_mk] | apply foldl_keeps
          | split | dsimp only

theorem State.bumpSat_keeps {s t : State} (k : Nat) (top : Nat) (h : Keeps s t) : Keeps s (State.bumpSat t k top) := by
  unfold State.bumpSat
  with_reducible repeat'
    first | intro _ | assumption | apply Keeps.ite | apply State.wr_keeps | simp only [keeps_mk] | apply foldl_keeps
          | split | dsimp only

theorem State.count_keeps {s t : State} (c : Nat) (holds : Bool) (h : Keeps s t) : Keeps s (State.count t c holds) := by
  unfold State.count
  with_reducible repeat'
    first | intro _ | assumption | apply Keeps.ite | simp only [keeps_mk] | apply foldl_keeps | split | dsimp only

theorem State.setRun_keeps {s t : State} (c : Nat) (n : Nat) (h : Keeps s t) : Keeps s (State.setRun t c n) := by
  unfold State.setRun
  with_reducible repeat'
    first | intro _ | assumption | apply Keeps.ite | simp only [keeps_mk] | apply foldl_keeps | split | dsimp only

theorem State.freeNext_keeps {s t : State} (h : Keeps s t) : Keeps s (State.freeNext t) := by
  unfold State.freeNext
  with_reducible repeat'
    first | intro _ | assumption | apply Keeps.ite | simp only [keeps_mk] | apply foldl_keeps | split | dsimp only

theorem State.sendCmd_keeps {s t : State} (sets : List (Nat × Nat)) (share : Bool) (h : Keeps s t) : Keeps s
    (State.sendCmd t sets share) := by
  unfold State.sendCmd
  with_reducible repeat'
    first | intro _ | assumption | apply Keeps.ite | simp only [keeps_mk] | apply foldl_keeps | split | dsimp only

theorem State.hwrs_keeps {s t : State} (sets : List (Nat × Nat)) (h : Keeps s t) : Keeps s (State.hwrs t sets) := by
  unfold State.hwrs
  with_reducible repeat'
    first | intro _ | assumption | apply Keeps.ite | apply State.each_keeps | apply State.hwr_keeps
          | simp only [keeps_mk] | apply foldl_keeps | split | dsimp only

theorem State.sendShare_keeps {s t : State} (h : Keeps s t) : Keeps s (State.sendShare t) := by
  unfold State.sendShare
  with_reducible repeat'
    first | intro _ | assumption | apply Keeps.ite | apply State.sendCmd_keeps | simp only [keeps_mk]
          | apply foldl_keeps | split | dsimp only

theorem State.applyShare_keeps {s t : State} (sets : List (Nat × Nat)) (h : Keeps s t) : Keeps s (t.applyShare sets) := by
  unfold State.applyShare
  exact State.hwrs_keeps _ (h.regs rfl id (regTableOk_filter _) rfl)

theorem State.flag_keeps {s t : State} (k : Nat) (i : Nat) (h : Keeps s t) : Keeps s (State.flag t k i) := by
  unfold State.flag
  with_reducible repeat'
    first | intro _ | assumption | apply Keeps.ite | apply State.wr_keeps | simp only [keeps_mk] | apply foldl_keeps
          | split | dsimp only

theorem State.clearBits_keeps {s t : State} (k : Nat) (mask : Nat) (h : Keeps s t) : Keeps s (State.clearBits t k mask)
    := by
  unfold State.clearBits
  with_reducible repeat'
    first | intro _ | assumption | apply Keeps.ite | apply State.wr_keeps | simp only [keeps_mk] | apply foldl_keeps
          | split | dsimp only

theorem State.clearWritten_keeps {s t : State} (k : Nat) (v : Nat) (h : Keeps s t) : Keeps s (State.clearWritten t k v)
    := by
  unfold State.clearWritten
  with_reducible repeat'
    first | intro _ | assumption | apply Keeps.ite | apply State.clearBits_keeps | simp only [keeps_mk]
          | apply foldl_keeps | split | dsimp only

theorem State.putBit_keeps {s t : State} (k : Nat) (i : Nat) (v : Bool) (h : Keeps s t) : Keeps s (State.putBit t k i v)
    := by
  unfold State.putBit
  with_reducible repeat'
    first | intro _ | assumption | apply Keeps.ite | apply State.flag_keeps | apply State.clearBits_keeps
          | simp only [keeps_mk] | apply foldl_keeps | split | dsimp only

theorem State.queueErase_keeps {s t : State} (bank : Nat) (sector : Nat) (h : Keeps s t) : Keeps s (State.queueErase t
    bank sector) := by
  unfold State.queueErase
  with_reducible repeat'
    first | intro _ | assumption | apply Keeps.ite | simp only [keeps_mk] | apply foldl_keeps | split | dsimp only

theorem State.queuePos_keeps {s t : State} (r : Nat) (h : Keeps s t) : Keeps s (State.queuePos t r) := by
  unfold State.queuePos
  with_reducible repeat'
    first | intro _ | assumption | apply Keeps.ite | apply State.queueErase_keeps | simp only [keeps_mk]
          | apply foldl_keeps | split | dsimp only

theorem State.putRecord_keeps {s t : State} (r : LogRec) (h : Keeps s t) : Keeps s (State.putRecord t r) := by
  unfold State.putRecord
  with_reducible repeat'
    first | intro _ | assumption | apply Keeps.ite | apply State.bumpBy_keeps | apply State.queuePos_keeps
          | simp only [keeps_mk] | apply foldl_keeps | split | dsimp only

theorem State.drain_keeps {s t : State} (l : List LogRec) (h : Keeps s t) : Keeps s (t.drain l) := by
  induction l generalizing t with
  | nil => unfold State.drain; exact keeps_mk.2 h
  | cons r l ih =>
    unfold State.drain
    exact Keeps.ite (ih (State.putRecord_keeps r h)) (keeps_mk.2 h)

theorem State.dropRecord_keeps {s t : State} (h : Keeps s t) : Keeps s (State.dropRecord t) := by
  unfold State.dropRecord
  with_reducible repeat'
    first | intro _ | assumption | apply Keeps.ite | apply State.bump_keeps | apply State.flag_keeps
          | simp only [keeps_mk] | apply foldl_keeps | split | dsimp only

theorem State.enqueue_keeps {s t : State} (r : LogRec) (h : Keeps s t) : Keeps s (State.enqueue t r) := by
  unfold State.enqueue
  with_reducible repeat'
    first | intro _ | assumption | apply Keeps.ite | apply State.dropRecord_keeps | simp only [keeps_mk]
          | apply foldl_keeps | split | dsimp only

theorem State.sendEvent_keeps {s t : State} (r : LogRec) (h : Keeps s t) : Keeps s (State.sendEvent t r) := by
  unfold State.sendEvent
  with_reducible repeat'
    first | intro _ | assumption | apply Keeps.ite | apply State.bump_keeps | apply State.flag_keeps
          | apply State.wr_keeps | apply State.enqueue_keeps | simp only [keeps_mk] | apply foldl_keeps | split
          | dsimp only

theorem State.payOwed_keeps {s t : State} (h : Keeps s t) : Keeps s (State.payOwed t) := by
  unfold State.payOwed
  with_reducible repeat'
    first | intro _ | assumption | apply Keeps.ite | apply State.wr_keeps | apply State.enqueue_keeps
          | apply State.sendEvent_keeps | simp only [keeps_mk] | apply foldl_keeps | split | dsimp only

theorem State.flushLog_keeps {s t : State} (h : Keeps s t) : Keeps s (State.flushLog t) := by
  unfold State.flushLog
  with_reducible repeat'
    first | intro _ | assumption | apply Keeps.ite | apply State.drain_keeps | apply State.payOwed_keeps
          | simp only [keeps_mk] | apply foldl_keeps | split | dsimp only

theorem State.coldRecord_keeps {s t : State} (r : LogRec) (h : Keeps s t) : Keeps s (State.coldRecord t r) := by
  unfold State.coldRecord
  with_reducible repeat'
    first | intro _ | assumption | apply Keeps.ite | simp only [keeps_mk] | apply foldl_keeps | split | dsimp only

theorem State.eventSev_keeps {s t : State} (sev : Nat) (code : Nat) (obj : Nat) (detail : Nat) (a : Nat) (b : Nat) (ext
    : List Nat) (h : Keeps s t) : Keeps s (State.eventSev t sev code obj detail a b ext) := by
  unfold State.eventSev
  with_reducible repeat'
    first | intro _ | assumption | apply Keeps.ite | apply State.wr_keeps | apply State.boot_keeps
          | apply State.coldRecord_keeps | apply State.flushLog_keeps | apply State.putRecord_keeps
          | apply State.sendEvent_keeps | apply State.enqueue_keeps | simp only [keeps_mk] | apply foldl_keeps | split
          | dsimp only

theorem State.event_keeps {s t : State} (code : Nat) (obj : Nat) (detail : Nat) (a : Nat) (b : Nat) (h : Keeps s t) :
    Keeps s (State.event t code obj detail a b) := by
  unfold State.event
  with_reducible repeat'
    first | intro _ | assumption | apply Keeps.ite | apply State.eventSev_keeps | simp only [keeps_mk]
          | apply foldl_keeps | split | dsimp only

theorem State.stopStart_keeps {s t : State} (cause : Nat) (h : Keeps s t) : Keeps s (State.stopStart t cause) := by
  unfold State.stopStart
  with_reducible repeat'
    first | intro _ | assumption | apply Keeps.ite | apply State.wr_keeps | apply State.event_keeps
          | simp only [keeps_mk] | apply foldl_keeps | split | dsimp only

theorem State.padEvent_keeps {s t : State} (p : Nat) (detail : Nat) (h : Keeps s t) : Keeps s (State.padEvent t p
    detail) := by
  unfold State.padEvent
  with_reducible repeat'
    first | intro _ | assumption | apply Keeps.ite | apply State.iff_keeps | apply State.event_keeps
          | simp only [keeps_mk] | apply foldl_keeps | split | dsimp only

theorem State.padToNormal_keeps {s t : State} (p : Nat) (h : Keeps s t) : Keeps s (State.padToNormal t p) := by
  unfold State.padToNormal
  with_reducible repeat'
    first | intro _ | assumption | apply Keeps.ite | apply State.padEvent_keeps | simp only [keeps_mk]
          | apply foldl_keeps | split | dsimp only

theorem State.rearmPads_keeps {s t : State} (mask : Nat) (h : Keeps s t) : Keeps s (State.rearmPads t mask) := by
  unfold State.rearmPads
  with_reducible repeat'
    first | intro _ | assumption | apply Keeps.ite | apply State.each_keeps | apply State.padToNormal_keeps
          | simp only [keeps_mk] | apply foldl_keeps | split | dsimp only

theorem State.tickPads_keeps {s t : State} (h : Keeps s t) : Keeps s (State.tickPads t) := by
  unfold State.tickPads
  with_reducible repeat'
    first | intro _ | assumption | apply Keeps.ite | apply State.each_keeps | apply State.count_keeps
          | simp only [keeps_mk] | apply foldl_keeps | split | dsimp only

theorem State.told_keeps {s t : State} (l : List Note) (h : Keeps s t) : Keeps s (t.told l) := by
  unfold State.told
  exact Keeps.ite (keeps_mk.2 h) h

theorem State.setFeedX_keeps {s t : State} (f : Nat) (x : FeedX) (h : Keeps s t) : Keeps s (State.setFeedX t f x) := by
  unfold State.setFeedX
  with_reducible repeat'
    first | intro _ | assumption | apply Keeps.ite | simp only [keeps_mk] | apply foldl_keeps | split | dsimp only

theorem State.refreshWait_keeps {s t : State} (h : Keeps s t) : Keeps s (State.refreshWait t) := by
  unfold State.refreshWait
  with_reducible repeat'
    first | intro _ | assumption | apply Keeps.ite | apply State.hwr_keeps | simp only [keeps_mk] | apply foldl_keeps
          | split | dsimp only

theorem State.setFeed_keeps {s t : State} (f : Nat) (st : Nat) (h : Keeps s t) : Keeps s (State.setFeed t f st) := by
  unfold State.setFeed
  with_reducible repeat'
    first | intro _ | assumption | apply Keeps.ite | apply State.hwr_keeps | apply State.refreshWait_keeps
          | simp only [keeps_mk] | apply foldl_keeps | split | dsimp only

theorem State.beginSs_keeps {s t : State} (f : Nat) (h : Keeps s t) : Keeps s (State.beginSs t f) := by
  unfold State.beginSs
  with_reducible repeat'
    first | intro _ | assumption | apply Keeps.ite | apply State.setFeed_keeps | apply State.told_keeps
          | apply State.count_keeps | apply State.setFeedX_keeps | simp only [keeps_mk] | apply foldl_keeps | split
          | dsimp only

theorem State.tickRamp_keeps {s t : State} (f : Nat) (h : Keeps s t) : Keeps s (State.tickRamp t f) := by
  unfold State.tickRamp
  with_reducible repeat'
    first | intro _ | assumption | apply Keeps.ite | apply State.setFeedX_keeps | simp only [keeps_mk]
          | apply foldl_keeps | split | dsimp only

theorem State.recordTrip_keeps {s t : State} (f : Nat) (cause : Nat) (detail : Nat) (h : Keeps s t) : Keeps s
    (State.recordTrip t f cause detail) := by
  unfold State.recordTrip
  with_reducible repeat'
    first | intro _ | assumption | apply Keeps.ite | apply State.hwr_keeps | apply State.told_keeps
          | apply State.count_keeps | apply State.flag_keeps | apply State.event_keeps | simp only [keeps_mk]
          | apply foldl_keeps | split | dsimp only

theorem State.declareSag_keeps {s t : State} (h : Keeps s t) : Keeps s (State.declareSag t) := by
  unfold State.declareSag
  with_reducible repeat'
    first | intro _ | assumption | apply Keeps.ite | apply State.setRun_keeps | apply State.told_keeps
          | apply State.count_keeps | apply State.event_keeps | simp only [keeps_mk] | apply foldl_keeps | split
          | dsimp only

theorem State.latchFeed_keeps {s t : State} (f : Nat) (cause : Nat) (detail : Nat) (h : Keeps s t) : Keeps s
    (State.latchFeed t f cause detail).1 := by
  show KeepsP s _
  unfold State.latchFeed
  with_reducible repeat'
    first | apply KeepsP.ite | refine KeepsP.mk ?_ | intro _ | assumption | apply Keeps.ite
          | apply State.recordTrip_keeps | apply State.setFeed_keeps | apply State.refreshWait_keeps
          | apply State.hwr_keeps | apply State.declareSag_keeps | simp only [keeps_mk] | apply foldl_keeps | split
          | dsimp only

theorem State.blockBack_keeps {s t : State} (f : Nat) (h : Keeps s t) : Keeps s (State.blockBack t f) := by
  unfold State.blockBack
  with_reducible repeat'
    first | intro _ | assumption | apply Keeps.ite | apply State.setFeed_keeps | apply State.setFeedX_keeps
          | apply State.told_keeps | apply State.count_keeps | apply State.flag_keeps | apply State.event_keeps
          | simp only [keeps_mk] | apply foldl_keeps | split | dsimp only

theorem State.feedsB4_keeps {s t : State} (h : Keeps s t) : Keeps s (State.feedsB4 t) := by
  unfold State.feedsB4
  with_reducible repeat'
    first | intro _ | assumption | apply Keeps.ite | apply State.each_keeps | apply State.blockBack_keeps
          | simp only [keeps_mk] | apply foldl_keeps | split | dsimp only

theorem State.unlatch_keeps {s t : State} (f : Nat) (h : Keeps s t) : Keeps s (State.unlatch t f) := by
  unfold State.unlatch
  with_reducible repeat'
    first | intro _ | assumption | apply Keeps.ite | apply State.setFeed_keeps | apply State.hwr_keeps
          | apply State.refreshWait_keeps | simp only [keeps_mk] | apply foldl_keeps | split | dsimp only

theorem State.feedEnWritten_keeps {s t : State} (f : Nat) (old : Nat) (v : Nat) (h : Keeps s t) : Keeps s
    (State.feedEnWritten t f old v) := by
  unfold State.feedEnWritten
  with_reducible repeat'
    first | intro _ | assumption | apply Keeps.ite | apply State.hwr_keeps | apply State.refreshWait_keeps
          | apply State.setFeed_keeps | apply State.unlatch_keeps | simp only [keeps_mk] | apply foldl_keeps | split
          | dsimp only

theorem State.findDamage_keeps {s t : State} (f : Nat) (h : Keeps s t) : Keeps s (State.findDamage t f) := by
  unfold State.findDamage
  with_reducible repeat'
    first | intro _ | assumption | apply Keeps.ite | apply State.each_keeps | apply State.setRun_keeps
          | apply State.hwr_keeps | apply State.setFeed_keeps | apply State.refreshWait_keeps | apply State.told_keeps
          | apply State.count_keeps | apply State.flag_keeps | apply State.event_keeps | simp only [keeps_mk]
          | apply foldl_keeps | split | dsimp only

theorem State.dmgCleared_keeps {s t : State} (f : Nat) (h : Keeps s t) : Keeps s (State.dmgCleared t f) := by
  unfold State.dmgCleared
  with_reducible repeat'
    first | intro _ | assumption | apply Keeps.ite | apply State.hwr_keeps | apply State.setFeed_keeps
          | apply State.refreshWait_keeps | simp only [keeps_mk] | apply foldl_keeps | split | dsimp only

theorem State.doDmgClear_keeps {s t : State} (f : Nat) (h : Keeps s t) : Keeps s (State.doDmgClear t f) := by
  unfold State.doDmgClear
  with_reducible repeat'
    first | intro _ | assumption | apply Keeps.ite | apply State.wr_keeps | apply State.sendCmd_keeps
          | simp only [keeps_mk] | apply foldl_keeps | split | dsimp only

theorem State.skipCheck_keeps {s t : State} (h : Keeps s t) : Keeps s (State.skipCheck t) := by
  unfold State.skipCheck
  with_reducible repeat'
    first | intro _ | assumption | apply Keeps.ite | apply State.told_keeps | apply State.count_keeps
          | simp only [keeps_mk] | apply foldl_keeps | split | dsimp only

theorem State.tickShare_keeps {s t : State} (h : Keeps s t) : Keeps s (State.tickShare t) := by
  unfold State.tickShare
  with_reducible repeat'
    first | intro _ | assumption | apply Keeps.ite | apply State.setFeedX_keeps | apply State.freeNext_keeps
          | simp only [keeps_mk] | apply foldl_keeps | split | dsimp only

theorem State.ntcTick_keeps {s t : State} (f : Nat) (h : Keeps s t) : Keeps s (State.ntcTick t f) := by
  unfold State.ntcTick
  with_reducible repeat'
    first | intro _ | assumption | apply Keeps.ite | apply State.iff_keeps | apply State.hwrI_keeps
          | apply State.setFeedX_keeps | apply State.told_keeps | apply State.flag_keeps | apply State.event_keeps
          | simp only [keeps_mk] | apply foldl_keeps | split | dsimp only

theorem State.skipSnap_keeps {s t : State} (h : Keeps s t) : Keeps s (State.skipSnap t) := by
  unfold State.skipSnap
  with_reducible repeat'
    first | intro _ | assumption | apply Keeps.ite | apply State.iff_keeps | apply State.told_keeps
          | apply State.count_keeps | simp only [keeps_mk] | apply foldl_keeps | split | dsimp only

theorem State.tickFeed_keeps {s t : State} (f : Nat) (h : Keeps s t) : Keeps s (State.tickFeed t f) := by
  unfold State.tickFeed
  with_reducible repeat'
    first | intro _ | assumption | apply Keeps.ite | apply State.iff_keeps | apply State.hwr_keeps
          | apply State.hwrI_keeps | apply State.ntcTick_keeps | apply State.count_keeps | apply State.each_keeps
          | apply State.tickRamp_keeps | apply State.setFeed_keeps | simp only [keeps_mk] | apply foldl_keeps | split
          | dsimp only

theorem State.tickBus_keeps {s t : State} (h : Keeps s t) : Keeps s (State.tickBus t) := by
  unfold State.tickBus
  with_reducible repeat'
    first | intro _ | assumption | apply Keeps.ite | apply State.hwr_keeps | apply State.count_keeps
          | simp only [keeps_mk] | apply foldl_keeps | split | dsimp only

theorem State.tickFeeds_keeps {s t : State} (h : Keeps s t) : Keeps s (State.tickFeeds t) := by
  unfold State.tickFeeds
  with_reducible repeat'
    first | intro _ | assumption | apply Keeps.ite | apply State.skipSnap_keeps | apply State.iff_keeps
          | apply State.hwr_keeps | apply State.tickFeed_keeps | apply State.tickBus_keeps | apply State.tickShare_keeps
          | apply State.hwrI_keeps | apply State.count_keeps | apply State.skipCheck_keeps
          | apply State.refreshWait_keeps | simp only [keeps_mk] | apply foldl_keeps | split | dsimp only

theorem State.reportCmd_keeps {s t : State} (h : Keeps s t) : Keeps s (State.reportCmd t) := by
  unfold State.reportCmd
  with_reducible repeat'
    first | intro _ | assumption | apply Keeps.ite | apply State.hwr_keeps | simp only [keeps_mk] | apply foldl_keeps
          | split | dsimp only

theorem State.refreshTarget_keeps {s t : State} (h : Keeps s t) : Keeps s (State.refreshTarget t) := by
  unfold State.refreshTarget
  with_reducible repeat'
    first | intro _ | assumption | apply Keeps.ite | apply State.wr_keeps | simp only [keeps_mk] | apply foldl_keeps
          | split | dsimp only

theorem State.setVcmd_keeps {s t : State} (h : Keeps s t) : Keeps s (State.setVcmd t) := by
  unfold State.setVcmd
  with_reducible repeat'
    first | intro _ | assumption | apply Keeps.ite | apply State.wr_keeps | apply State.reportCmd_keeps
          | apply State.refreshTarget_keeps | simp only [keeps_mk] | apply foldl_keeps | split | dsimp only

theorem State.refreshChill_keeps {s t : State} (t' : Nat) (h : Keeps s t) : Keeps s (State.refreshChill t t') := by
  unfold State.refreshChill
  with_reducible repeat'
    first | intro _ | assumption | apply Keeps.ite | apply State.putBit_keeps | apply State.iff_keeps
          | apply State.event_keeps | simp only [keeps_mk] | apply foldl_keeps | split | dsimp only

theorem State.cycleTarget_keeps {s t : State} (h : Keeps s t) : Keeps s (State.cycleTarget t) := by
  unfold State.cycleTarget
  with_reducible repeat'
    first | intro _ | assumption | apply Keeps.ite | apply State.wr_keeps | apply State.refreshChill_keeps
          | apply State.reportCmd_keeps | apply State.refreshTarget_keeps | simp only [keeps_mk] | apply foldl_keeps
          | split | dsimp only

theorem State.targetWritten_keeps {s t : State} (h : Keeps s t) : Keeps s (State.targetWritten t) := by
  unfold State.targetWritten
  with_reducible repeat'
    first | intro _ | assumption | apply Keeps.ite | apply State.bump_keeps | apply State.refreshTarget_keeps
          | simp only [keeps_mk] | apply foldl_keeps | split | dsimp only

theorem State.cellWarn_keeps {s t : State} (n : Nat) (i : Nat) (on : Bool) (h : Keeps s t) : Keeps s (State.cellWarn t n
    i on) := by
  unfold State.cellWarn
  with_reducible repeat'
    first | intro _ | assumption | apply Keeps.ite | apply State.flag_keeps | apply State.event_keeps
          | apply State.clearBits_keeps | apply State.putBit_keeps | simp only [keeps_mk] | apply foldl_keeps | split
          | dsimp only

theorem State.cellJudge_keeps {s t : State} (n : Nat) (i : Nat) (bad : Bool) (good : Bool) (h : Keeps s t) : Keeps s
    (State.cellJudge t n i bad good) := by
  unfold State.cellJudge
  with_reducible repeat'
    first | intro _ | assumption | apply Keeps.ite | apply State.cellWarn_keeps | simp only [keeps_mk]
          | apply foldl_keeps | split | dsimp only

theorem State.stackJudge_keeps {s t : State} (bad : Bool) (good : Bool) (h : Keeps s t) : Keeps s (State.stackJudge t
    bad good) := by
  unfold State.stackJudge
  with_reducible repeat'
    first | intro _ | assumption | apply Keeps.ite | apply State.flag_keeps | apply State.event_keeps
          | apply State.putBit_keeps | simp only [keeps_mk] | apply foldl_keeps | split | dsimp only

theorem State.capResult_keeps {s t : State} (l : List (Nat × Nat × Int)) (h : Keeps s t) : Keeps s (State.capResult t l)
    := by
  unfold State.capResult
  with_reducible repeat'
    first | intro _ | assumption | apply Keeps.ite | apply State.each_keeps | apply State.event_keeps
          | apply State.wr_keeps | apply State.wrI_keeps | apply State.cellJudge_keeps | apply State.flag_keeps
          | simp only [keeps_mk] | apply foldl_keeps | split | dsimp only

theorem State.segResult_keeps {s t : State} (g : CapSeg) (h : Keeps s t) : Keeps s (State.segResult t g) := by
  unfold State.segResult
  with_reducible repeat'
    first | intro _ | assumption | apply Keeps.ite | apply State.capResult_keeps | simp only [keeps_mk]
          | apply foldl_keeps | split | dsimp only

theorem State.endSeg_keeps {s t : State} (h : Keeps s t) : Keeps s (State.endSeg t) := by
  unfold State.endSeg
  with_reducible repeat'
    first | intro _ | assumption | apply Keeps.ite | apply ROut.seg_keeps | apply State.segResult_keeps
          | simp only [keeps_mk] | apply foldl_keeps | split | dsimp only

theorem State.scanAfterSeg_keeps {s t : State} (h : Keeps s t) : Keeps s (State.scanAfterSeg t) := by
  unfold State.scanAfterSeg
  with_reducible repeat'
    first | intro _ | assumption | apply Keeps.ite | apply State.segResult_keeps | simp only [keeps_mk]
          | apply foldl_keeps | split | dsimp only

theorem State.beginSeg_keeps {s t : State} (h : Keeps s t) : Keeps s (State.beginSeg t) := by
  unfold State.beginSeg
  with_reducible repeat'
    first | intro _ | assumption | apply Keeps.ite | apply ROut.seg_keeps | simp only [keeps_mk] | apply foldl_keeps
          | split | dsimp only

theorem State.bootCaps_keeps {s t : State} (h : Keeps s t) : Keeps s (State.bootCaps t) := by
  unfold State.bootCaps
  with_reducible repeat'
    first | intro _ | assumption | apply Keeps.ite | apply State.each_keeps | apply State.wr_keeps
          | apply State.wrI_keeps | simp only [keeps_mk] | apply foldl_keeps | split | dsimp only

theorem State.refreshEst_keeps {s t : State} (h : Keeps s t) : Keeps s (State.refreshEst t) := by
  unfold State.refreshEst
  with_reducible repeat'
    first | intro _ | assumption | apply Keeps.ite | apply State.wr_keeps | apply State.wrI_keeps | simp only [keeps_mk]
          | apply foldl_keeps | split | dsimp only

theorem State.reckon_keeps {s t : State} (h : Keeps s t) : Keeps s (State.reckon t) := by
  unfold State.reckon
  with_reducible repeat'
    first | intro _ | assumption | apply Keeps.ite | apply State.bootCaps_keeps | apply State.wr_keeps
          | apply State.freeNext_keeps | apply State.refreshEst_keeps | simp only [keeps_mk] | apply foldl_keeps | split
          | dsimp only

theorem State.runEstimate_keeps {s t : State} (h : Keeps s t) : Keeps s (State.runEstimate t) := by
  unfold State.runEstimate
  with_reducible repeat'
    first | intro _ | assumption | apply Keeps.ite | apply State.reckon_keeps | simp only [keeps_mk] | apply foldl_keeps
          | split | dsimp only

theorem State.countSig_keeps {s t : State} (k : Nat) (h : Keeps s t) : Keeps s (State.countSig t k) := by
  unfold State.countSig
  with_reducible repeat'
    first | intro _ | assumption | apply Keeps.ite | apply State.count_keeps | apply State.setRun_keeps
          | apply State.wr_keeps | apply State.event_keeps | simp only [keeps_mk] | apply foldl_keeps | split
          | dsimp only

theorem State.latchLadle_keeps {s t : State} (n : Nat) (i : Nat) (h : Keeps s t) : Keeps s (State.latchLadle t n i) :=
    by
  unfold State.latchLadle
  with_reducible repeat'
    first | intro _ | assumption | apply Keeps.ite | apply State.flag_keeps | apply State.event_keeps
          | apply State.stopStart_keeps | simp only [keeps_mk] | apply foldl_keeps | split | dsimp only

theorem State.ovEpisode_keeps {s t : State} (h : Keeps s t) : Keeps s (State.ovEpisode t) := by
  unfold State.ovEpisode
  with_reducible repeat'
    first | intro _ | assumption | apply Keeps.ite | apply State.bump_keeps | apply State.latchLadle_keeps
          | simp only [keeps_mk] | apply foldl_keeps | split | dsimp only

theorem State.cellFault_keeps {s t : State} (n : Nat) (h : Keeps s t) : Keeps s (State.cellFault t n) := by
  unfold State.cellFault
  with_reducible repeat'
    first | intro _ | assumption | apply Keeps.ite | apply State.count_keeps | apply State.cellWarn_keeps
          | apply State.iff_keeps | apply State.ovEpisode_keeps | apply State.flag_keeps | apply State.latchLadle_keeps
          | apply State.cellJudge_keeps | simp only [keeps_mk] | apply foldl_keeps | split | dsimp only

theorem State.scanFaults_keeps {s t : State} (h : Keeps s t) : Keeps s (State.scanFaults t) := by
  unfold State.scanFaults
  with_reducible repeat'
    first | intro _ | assumption | apply Keeps.ite | apply State.each_keeps | apply State.cellFault_keeps
          | apply State.cellWarn_keeps | apply State.count_keeps | apply State.latchLadle_keeps | simp only [keeps_mk]
          | apply foldl_keeps | split | dsimp only

theorem State.scanHeat_keeps {s t : State} (h : Keeps s t) : Keeps s (State.scanHeat t) := by
  unfold State.scanHeat
  with_reducible repeat'
    first | intro _ | assumption | apply Keeps.ite | apply State.flag_keeps | apply State.event_keeps
          | apply State.clearBits_keeps | simp only [keeps_mk] | apply foldl_keeps | split | dsimp only

theorem State.doLadleClear_keeps {s t : State} (h : Keeps s t) : Keeps s (State.doLadleClear t) := by
  unfold State.doLadleClear
  with_reducible repeat'
    first | intro _ | assumption | apply Keeps.ite | apply State.each_keeps | apply State.clearBits_keeps
          | apply State.event_keeps | apply State.wr_keeps | simp only [keeps_mk] | apply foldl_keeps | split
          | dsimp only

theorem State.tickBalance_keeps {s t : State} (h : Keeps s t) : Keeps s (State.tickBalance t) := by
  unfold State.tickBalance
  with_reducible repeat'
    first | intro _ | assumption | apply Keeps.ite | apply State.each_keeps | apply State.hwr_keeps
          | apply State.iff_keeps | apply State.bump_keeps | simp only [keeps_mk] | apply foldl_keeps | split
          | dsimp only

theorem State.reportScan_keeps {s t : State} (v : List Int) (stack : Nat) (t1 : Option Int) (t2 : Option Int) (h : Keeps
    s t) : Keeps s (State.reportScan t v stack t1 t2) := by
  unfold State.reportScan
  with_reducible repeat'
    first | intro _ | assumption | apply Keeps.ite | apply State.each_keeps | apply State.hwr_keeps
          | apply State.hwrI_keeps | simp only [keeps_mk] | apply foldl_keeps | split | dsimp only

theorem State.sensorLost_keeps {s t : State} (i : Nat) (was : Option Bool) (ok : Bool) (h : Keeps s t) : Keeps s
    (State.sensorLost t i was ok) := by
  unfold State.sensorLost
  with_reducible repeat'
    first | intro _ | assumption | apply Keeps.ite | apply State.flag_keeps | apply State.event_keeps
          | simp only [keeps_mk] | apply foldl_keeps | split | dsimp only

theorem State.noteSensors_keeps {s t : State} (ok1 : Bool) (ok2 : Bool) (h : Keeps s t) : Keeps s (State.noteSensors t
    ok1 ok2) := by
  unfold State.noteSensors
  with_reducible repeat'
    first | intro _ | assumption | apply Keeps.ite | apply State.sensorLost_keeps | simp only [keeps_mk]
          | apply foldl_keeps | split | dsimp only

theorem State.scanCharger_keeps {s t : State} (h : Keeps s t) : Keeps s (State.scanCharger t) := by
  unfold State.scanCharger
  with_reducible repeat'
    first | intro _ | assumption | apply Keeps.ite | apply State.hwr_keeps | apply State.endSeg_keeps
          | apply State.beginSeg_keeps | simp only [keeps_mk] | apply foldl_keeps | split | dsimp only

theorem State.segCells_keeps {s t : State} (on : Nat) (h : Keeps s t) : Keeps s (State.segCells t on) := by
  unfold State.segCells
  with_reducible repeat'
    first | intro _ | assumption | apply Keeps.ite | apply ROut.seg_keeps | simp only [keeps_mk] | apply foldl_keeps
          | split | dsimp only

theorem State.scanAfterDraw_keeps {s t : State} (h : Keeps s t) : Keeps s (State.scanAfterDraw t) := by
  unfold State.scanAfterDraw
  with_reducible repeat'
    first | intro _ | assumption | apply Keeps.ite | apply State.bump_keeps | apply State.capResult_keeps
          | simp only [keeps_mk] | apply foldl_keeps | split | dsimp only

theorem State.scanBalance_keeps {s t : State} (h : Keeps s t) : Keeps s (State.scanBalance t) := by
  unfold State.scanBalance
  with_reducible repeat'
    first | intro _ | assumption | apply Keeps.ite | apply State.segCells_keeps | simp only [keeps_mk]
          | apply foldl_keeps | split | dsimp only

theorem State.useScan_keeps {s t : State} (v : List Int) (stack : Nat) (t' : Option Int) (h : Keeps s t) : Keeps s
    (State.useScan t v stack t') := by
  unfold State.useScan
  with_reducible repeat'
    first | intro _ | assumption | apply Keeps.ite | apply State.each_keeps | apply State.hwrI_keeps
          | apply State.iff_keeps | apply State.scanAfterDraw_keeps | apply State.scanAfterSeg_keeps
          | apply State.scanHeat_keeps | apply State.countSig_keeps | apply State.scanFaults_keeps
          | apply State.scanCharger_keeps | apply State.scanBalance_keeps | apply State.runEstimate_keeps
          | simp only [keeps_mk] | apply foldl_keeps | split | dsimp only

theorem State.dampFound_keeps {s t : State} (k : Nat) (v : Nat) (h : Keeps s t) : Keeps s (State.dampFound t k v) := by
  unfold State.dampFound
  with_reducible repeat'
    first | intro _ | assumption | apply Keeps.ite | apply State.flag_keeps | apply State.event_keeps
          | simp only [keeps_mk] | apply foldl_keeps | split | dsimp only

theorem State.judgeTap_keeps {s t : State} (k : Nat) (r : Nat) (h : Keeps s t) : Keeps s (State.judgeTap t k r) := by
  unfold State.judgeTap
  with_reducible repeat'
    first | intro _ | assumption | apply Keeps.ite | apply State.wr_keeps | apply State.bump_keeps
          | apply State.flag_keeps | apply State.event_keeps | apply State.dampFound_keeps | simp only [keeps_mk]
          | apply foldl_keeps | split | dsimp only

theorem State.judgeTaps_keeps {s t : State} (resp : List Nat) (stack : Nat) (h : Keeps s t) : Keeps s (State.judgeTaps t
    resp stack) := by
  unfold State.judgeTaps
  with_reducible repeat'
    first | intro _ | assumption | apply Keeps.ite | apply State.bump_keeps | apply State.each_keeps
          | apply State.judgeTap_keeps | simp only [keeps_mk] | apply foldl_keeps | split | dsimp only

theorem State.endDraws_keeps {s t : State} (h : Keeps s t) : Keeps s (State.endDraws t) := by
  unfold State.endDraws
  with_reducible repeat'
    first | intro _ | assumption | apply Keeps.ite | simp only [keeps_mk] | apply foldl_keeps | split | dsimp only

theorem State.ladleB4_keeps {s t : State} (h : Keeps s t) : Keeps s (State.ladleB4 t) := by
  unfold State.ladleB4
  with_reducible repeat'
    first | intro _ | assumption | apply Keeps.ite | apply State.endDraws_keeps | simp only [keeps_mk]
          | apply foldl_keeps | split | dsimp only

theorem State.tickN1_keeps {s t : State} (h : Keeps s t) : Keeps s (State.tickN1 t) := by
  unfold State.tickN1
  with_reducible repeat'
    first | intro _ | assumption | apply Keeps.ite | apply State.iff_keeps | apply State.told_keeps
          | apply State.count_keeps | simp only [keeps_mk] | apply foldl_keeps | split | dsimp only

theorem State.skipCapTest_keeps {s t : State} (h : Keeps s t) : Keeps s (State.skipCapTest t) := by
  unfold State.skipCapTest
  with_reducible repeat'
    first | intro _ | assumption | apply Keeps.ite | apply State.told_keeps | apply State.count_keeps
          | simp only [keeps_mk] | apply foldl_keeps | split | dsimp only

theorem State.capPeriodWritten_keeps {s t : State} (v : Nat) (h : Keeps s t) : Keeps s (State.capPeriodWritten t v) :=
    by
  unfold State.capPeriodWritten
  with_reducible repeat'
    first | intro _ | assumption | apply Keeps.ite | simp only [keeps_mk] | apply foldl_keeps | split | dsimp only

theorem State.tickCharger_keeps {s t : State} (h : Keeps s t) : Keeps s (State.tickCharger t) := by
  unfold State.tickCharger
  with_reducible repeat'
    first | intro _ | assumption | apply Keeps.ite | apply ROut.seg_keeps | apply State.hwr_keeps
          | apply State.beginSeg_keeps | simp only [keeps_mk] | apply foldl_keeps | split | dsimp only

theorem State.cycleLadle_keeps {s t : State} (h : Keeps s t) : Keeps s (State.cycleLadle t) := by
  unfold State.cycleLadle
  with_reducible repeat'
    first | intro _ | assumption | apply Keeps.ite | apply State.hwr_keeps | apply State.cycleTarget_keeps
          | apply State.skipCapTest_keeps | simp only [keeps_mk] | apply foldl_keeps | split | dsimp only

theorem State.tickScan_keeps {s t : State} (h : Keeps s t) : Keeps s (State.tickScan t) := by
  unfold State.tickScan
  with_reducible repeat'
    first | intro _ | assumption | apply Keeps.ite | apply State.told_keeps | apply State.count_keeps
          | simp only [keeps_mk] | apply foldl_keeps | split | dsimp only

theorem State.tickLadle_keeps {s t : State} (h : Keeps s t) : Keeps s (State.tickLadle t) := by
  unfold State.tickLadle
  with_reducible repeat'
    first | intro _ | assumption | apply Keeps.ite | apply State.tickCharger_keeps | apply State.tickBalance_keeps
          | apply State.cycleLadle_keeps | apply State.tickScan_keeps | apply State.tickN1_keeps | apply State.iff_keeps
          | apply State.refreshEst_keeps | simp only [keeps_mk] | apply foldl_keeps | split | dsimp only

theorem State.setHu_keeps {s t : State} (st : Nat) (h : Keeps s t) : Keeps s (State.setHu t st) := by
  unfold State.setHu
  with_reducible repeat'
    first | intro _ | assumption | apply Keeps.ite | apply State.hwr_keeps | simp only [keeps_mk] | apply foldl_keeps
          | split | dsimp only

theorem State.abandonTest_keeps {s t : State} (h : Keeps s t) : Keeps s (State.abandonTest t) := by
  unfold State.abandonTest
  with_reducible repeat'
    first | intro _ | assumption | apply Keeps.ite | apply State.told_keeps | simp only [keeps_mk] | apply foldl_keeps
          | split | dsimp only

theorem State.holdupB4_keeps {s t : State} (h : Keeps s t) : Keeps s (State.holdupB4 t) := by
  unfold State.holdupB4
  with_reducible repeat'
    first | intro _ | assumption | apply Keeps.ite | apply State.abandonTest_keeps | apply State.ladleB4_keeps
          | apply State.setHu_keeps | apply State.told_keeps | apply State.flag_keeps | apply State.event_keeps
          | simp only [keeps_mk] | apply foldl_keeps | split | dsimp only

theorem State.holdupFree_keeps {s t : State} (h : Keeps s t) : Keeps s (State.holdupFree t) := by
  unfold State.holdupFree
  with_reducible repeat'
    first | intro _ | assumption | apply Keeps.ite | apply State.setHu_keeps | simp only [keeps_mk] | apply foldl_keeps
          | split | dsimp only

theorem State.putHuTemp_keeps {s t : State} (h : Keeps s t) : Keeps s (State.putHuTemp t) := by
  unfold State.putHuTemp
  with_reducible repeat'
    first | intro _ | assumption | apply Keeps.ite | apply State.hwrI_keeps | simp only [keeps_mk] | apply foldl_keeps
          | split | dsimp only

theorem State.stageSteps_keeps {s t : State} (ma n : Nat) (h : Keeps s t) : Keeps s (t.stageSteps ma n) := by
  induction n generalizing t with
  | zero => unfold State.stageSteps; exact State.putHuTemp_keeps h
  | succ n ih =>
    unfold State.stageSteps
    exact Keeps.ite (State.putHuTemp_keeps (keeps_mk.2 h)) (ih (keeps_mk.2 h))

theorem State.tripHoldup_keeps {s t : State} (why : Nat) (h : Keeps s t) : Keeps s (State.tripHoldup t why) := by
  unfold State.tripHoldup
  with_reducible repeat'
    first | intro _ | assumption | apply Keeps.ite | apply State.setHu_keeps | apply State.told_keeps
          | apply State.flag_keeps | apply State.count_keeps | apply State.event_keeps | simp only [keeps_mk]
          | apply foldl_keeps | split | dsimp only

theorem State.huCleared_keeps {s t : State} (h : Keeps s t) : Keeps s (State.huCleared t) := by
  unfold State.huCleared
  with_reducible repeat'
    first | intro _ | assumption | apply Keeps.ite | apply State.setHu_keeps | simp only [keeps_mk] | apply foldl_keeps
          | split | dsimp only

theorem State.doHuClear_keeps {s t : State} (v : Nat) (h : Keeps s t) : Keeps s (State.doHuClear t v) := by
  unfold State.doHuClear
  with_reducible repeat'
    first | intro _ | assumption | apply Keeps.ite | apply State.wr_keeps | apply State.sendCmd_keeps
          | simp only [keeps_mk] | apply foldl_keeps | split | dsimp only

theorem State.huPass_keeps {s t : State} (h : Keeps s t) : Keeps s (State.huPass t) := by
  unfold State.huPass
  with_reducible repeat'
    first | intro _ | assumption | apply Keeps.ite | apply State.hwr_keeps | apply State.told_keeps
          | simp only [keeps_mk] | apply foldl_keeps | split | dsimp only

theorem State.huFail_keeps {s t : State} (why : Nat) (h : Keeps s t) : Keeps s (State.huFail t why) := by
  unfold State.huFail
  with_reducible repeat'
    first | intro _ | assumption | apply Keeps.ite | apply State.setHu_keeps | apply State.told_keeps
          | apply State.flag_keeps | apply State.count_keeps | apply State.event_keeps | simp only [keeps_mk]
          | apply foldl_keeps | split | dsimp only

theorem State.tickTrim_keeps {s t : State} (h : Keeps s t) : Keeps s (State.tickTrim t) := by
  unfold State.tickTrim
  with_reducible repeat'
    first | intro _ | assumption | apply Keeps.ite | apply State.freeNext_keeps | simp only [keeps_mk]
          | apply foldl_keeps | split | dsimp only

theorem State.tickShareLine_keeps {s t : State} (h : Keeps s t) : Keeps s (State.tickShareLine t) := by
  unfold State.tickShareLine
  with_reducible repeat'
    first | intro _ | assumption | apply Keeps.ite | apply State.tickTrim_keeps | simp only [keeps_mk]
          | apply foldl_keeps | split | dsimp only

theorem State.fallToDroop_keeps {s t : State} (h : Keeps s t) : Keeps s (State.fallToDroop t) := by
  unfold State.fallToDroop
  with_reducible repeat'
    first | intro _ | assumption | apply Keeps.ite | apply State.setRun_keeps | apply State.hwr_keeps
          | apply State.told_keeps | apply State.flag_keeps | apply State.count_keeps | apply State.event_keeps
          | simp only [keeps_mk] | apply foldl_keeps | split | dsimp only

theorem State.trackGroup_keeps {s t : State} (h : Keeps s t) : Keeps s (State.trackGroup t) := by
  unfold State.trackGroup
  with_reducible repeat'
    first | intro _ | assumption | apply Keeps.ite | simp only [keeps_mk] | apply foldl_keeps | split | dsimp only

theorem State.checkOverfull_keeps {s t : State} (h : Keeps s t) : Keeps s (State.checkOverfull t) := by
  unfold State.checkOverfull
  with_reducible repeat'
    first | intro _ | assumption | apply Keeps.ite | apply State.flag_keeps | apply State.event_keeps
          | simp only [keeps_mk] | apply foldl_keeps | split | dsimp only

theorem State.sizing_keeps {s t : State} (was : Bool) (now : Bool) (i : Nat) (h : Keeps s t) : Keeps s (State.sizing t
    was now i) := by
  unfold State.sizing
  with_reducible repeat'
    first | intro _ | assumption | apply Keeps.ite | apply State.flag_keeps | apply State.event_keeps
          | apply State.iff_keeps | simp only [keeps_mk] | apply foldl_keeps | split | dsimp only

theorem State.cycleHoldup_keeps {s t : State} (h : Keeps s t) : Keeps s (State.cycleHoldup t) := by
  unfold State.cycleHoldup
  with_reducible repeat'
    first | intro _ | assumption | apply Keeps.ite | apply State.wr_keeps | apply State.checkOverfull_keeps
          | apply State.trackGroup_keeps | apply State.sizing_keeps | simp only [keeps_mk] | apply foldl_keeps | split
          | dsimp only

theorem State.stepHu_keeps {s t : State} (h : Keeps s t) : Keeps s (State.stepHu t) := by
  unfold State.stepHu
  with_reducible repeat'
    first | intro _ | assumption | apply Keeps.ite | apply State.setHu_keeps | apply State.abandonTest_keeps
          | apply State.endDraws_keeps | apply State.told_keeps | apply State.count_keeps | apply State.flag_keeps
          | apply State.event_keeps | simp only [keeps_mk] | apply foldl_keeps | split | dsimp only

theorem State.carryEdge_keeps {s t : State} (h : Keeps s t) : Keeps s (State.carryEdge t) := by
  unfold State.carryEdge
  with_reducible repeat'
    first | intro _ | assumption | apply Keeps.ite | apply State.told_keeps | apply State.count_keeps
          | apply State.flag_keeps | apply State.event_keeps | simp only [keeps_mk] | apply foldl_keeps | split
          | dsimp only

theorem State.beginTest_keeps {s t : State} (what : Nat) (h : Keeps s t) : Keeps s (State.beginTest t what) := by
  unfold State.beginTest
  with_reducible repeat'
    first | intro _ | assumption | apply Keeps.ite | apply State.setHu_keeps | simp only [keeps_mk] | apply foldl_keeps
          | split | dsimp only

theorem State.planPulse_keeps {s t : State} (h : Keeps s t) : Keeps s (State.planPulse t) := by
  unfold State.planPulse
  with_reducible repeat'
    first | intro _ | assumption | apply Keeps.ite | apply State.told_keeps | apply State.count_keeps
          | apply State.iff_keeps | simp only [keeps_mk] | apply foldl_keeps | split | dsimp only

theorem State.planSelf_keeps {s t : State} (h : Keeps s t) : Keeps s (State.planSelf t) := by
  unfold State.planSelf
  with_reducible repeat'
    first | intro _ | assumption | apply Keeps.ite | apply State.told_keeps | apply State.count_keeps
          | simp only [keeps_mk] | apply foldl_keeps | split | dsimp only

theorem State.tickN2_keeps {s t : State} (h : Keeps s t) : Keeps s (State.tickN2 t) := by
  unfold State.tickN2
  with_reducible repeat'
    first | intro _ | assumption | apply Keeps.ite | apply State.planPulse_keeps | apply State.planSelf_keeps
          | apply State.beginTest_keeps | apply State.told_keeps | apply State.count_keeps
          | apply State.abandonTest_keeps | apply State.setHu_keeps | simp only [keeps_mk] | apply foldl_keeps | split
          | dsimp only

theorem State.firstSelf_keeps {s t : State} (h : Keeps s t) : Keeps s (State.firstSelf t) := by
  unfold State.firstSelf
  with_reducible repeat'
    first | intro _ | assumption | apply Keeps.ite | simp only [keeps_mk] | apply foldl_keeps | split | dsimp only

theorem State.tickHuDie_keeps {s t : State} (h : Keeps s t) : Keeps s (State.tickHuDie t) := by
  unfold State.tickHuDie
  with_reducible repeat'
    first | intro _ | assumption | apply Keeps.ite | apply State.iff_keeps | apply State.hwrI_keeps
          | apply State.hwr_keeps | apply State.putHuTemp_keeps | apply State.stepHu_keeps | apply State.firstSelf_keeps
          | apply State.tickN2_keeps | apply State.carryEdge_keeps | apply State.count_keeps
          | apply State.tickShareLine_keeps | simp only [keeps_mk] | apply foldl_keeps | split | dsimp only

theorem State.tickHoldup_keeps {s t : State} (h : Keeps s t) : Keeps s (State.tickHoldup t) := by
  unfold State.tickHoldup
  with_reducible repeat'
    first | intro _ | assumption | apply Keeps.ite | apply State.iff_keeps | apply State.tickHuDie_keeps
          | apply State.cycleHoldup_keeps | simp only [keeps_mk] | apply foldl_keeps | split | dsimp only

theorem State.setBlk_keeps {s t : State} (k : Nat) (b : Blk) (h : Keeps s t) : Keeps s (State.setBlk t k b) := by
  unfold State.setBlk
  with_reducible repeat'
    first | intro _ | assumption | apply Keeps.ite | simp only [keeps_mk] | apply foldl_keeps | split | dsimp only

theorem State.openRow_keeps {s t : State} (h : Keeps s t) : Keeps s (State.openRow t) := by
  unfold State.openRow
  with_reducible repeat'
    first | intro _ | assumption | apply Keeps.ite | apply State.wr_keeps | apply State.bump_keeps
          | simp only [keeps_mk] | apply foldl_keeps | split | dsimp only

theorem State.wornCheck_keeps {s t : State} (h : Keeps s t) : Keeps s (State.wornCheck t) := by
  unfold State.wornCheck
  with_reducible repeat'
    first | intro _ | assumption | apply Keeps.ite | apply State.flag_keeps | apply State.event_keeps
          | simp only [keeps_mk] | apply foldl_keeps | split | dsimp only

theorem State.queueMap_keeps {s t : State} (pos : Nat) (h : Keeps s t) : Keeps s (State.queueMap t pos) := by
  unfold State.queueMap
  with_reducible repeat'
    first | intro _ | assumption | apply Keeps.ite | simp only [keeps_mk] | apply foldl_keeps | split | dsimp only

theorem State.growBad_keeps {s t : State} (k : Nat) (h : Keeps s t) : Keeps s (State.growBad t k) := by
  unfold State.growBad
  with_reducible repeat'
    first | intro _ | assumption | apply Keeps.ite | apply State.flag_keeps | apply State.bump_keeps
          | apply State.event_keeps | apply State.wornCheck_keeps | apply State.queueMap_keeps | simp only [keeps_mk]
          | apply foldl_keeps | split | dsimp only

theorem State.editPages_keeps {s t : State} (c : Page → Bool) (f : Page → Page) (h : Keeps s t) : Keeps s
    (State.editPages t c f) := by
  unfold State.editPages
  with_reducible repeat'
    first | intro _ | assumption | apply Keeps.ite | simp only [keeps_mk] | apply foldl_keeps | split | dsimp only

theorem State.newPage_keeps {s t : State} (kind : Nat) (h : Keeps s t) : Keeps s (State.newPage t kind) := by
  unfold State.newPage
  with_reducible repeat'
    first | intro _ | assumption | apply Keeps.ite | apply State.wr_keeps | simp only [keeps_mk] | apply foldl_keeps
          | split | dsimp only

theorem State.padOpen_keeps {s t : State} (h : Keeps s t) : Keeps s (State.padOpen t) := by
  unfold State.padOpen
  with_reducible repeat'
    first | intro _ | assumption | apply Keeps.ite | apply State.editPages_keeps | simp only [keeps_mk]
          | apply foldl_keeps | split | dsimp only

theorem State.placeStep_keeps {s t u : State} (e : t.placeStep = some u) (h : Keeps s t) : Keeps s u := by
  unfold State.placeStep at e
  have hp := State.newPage_keeps 2 (State.padOpen_keeps h)
  have hn := State.newPage_keeps 1 h
  repeat' first
    | (simp only [Option.some.injEq] at e; subst e; done)
    | contradiction
    | (simp only [Option.some.injEq] at e; subst e; simp only [keeps_mk])
    | with_reducible assumption
    | with_reducible apply State.editPages_keeps
    | with_reducible apply Keeps.ite
    | split at e
    | dsimp only at e

theorem State.placeAll_keeps {s t : State} (n : Nat) (h : Keeps s t) : Keeps s (State.placeAll n t) := by
  induction n generalizing t with
  | zero => exact h
  | succ n ih =>
    unfold State.placeAll
    split
    · exact ih (State.placeStep_keeps ‹_› h)
    · exact h

theorem State.refreshDie_keeps {s t : State} (d : Nat) (h : Keeps s t) : Keeps s (State.refreshDie t d) := by
  unfold State.refreshDie
  with_reducible repeat'
    first | intro _ | assumption | apply Keeps.ite | apply State.wr_keeps | simp only [keeps_mk] | apply foldl_keeps
          | split | dsimp only

theorem State.startDie_keeps {s t : State} (d : Nat) (h : Keeps s t) : Keeps s (State.startDie t d) := by
  unfold State.startDie
  with_reducible repeat'
    first | intro _ | assumption | apply Keeps.ite | apply State.refreshDie_keeps | apply State.editPages_keeps
          | simp only [keeps_mk] | apply foldl_keeps | split | dsimp only

theorem State.startDies_keeps {s t : State} (h : Keeps s t) : Keeps s (State.startDies t) := by
  unfold State.startDies
  with_reducible repeat'
    first | intro _ | assumption | apply Keeps.ite | apply State.each_keeps | apply State.startDie_keeps
          | simp only [keeps_mk] | apply foldl_keeps | split | dsimp only

theorem State.closeRow_keeps {s t : State} (h : Keeps s t) : Keeps s (State.closeRow t) := by
  unfold State.closeRow
  with_reducible repeat'
    first | intro _ | assumption | apply Keeps.ite | apply State.openRow_keeps | apply State.wr_keeps
          | simp only [keeps_mk] | apply foldl_keeps | split | dsimp only

theorem State.pump_keeps {s t : State} (h : Keeps s t) : Keeps s (State.pump t) := by
  unfold State.pump
  with_reducible repeat'
    first | intro _ | assumption | apply Keeps.ite | apply State.closeRow_keeps | apply State.placeAll_keeps
          | apply State.padOpen_keeps | apply State.startDies_keeps | simp only [keeps_mk] | apply foldl_keeps | split
          | dsimp only

theorem State.finishReport_keeps {s t : State} (h : Keeps s t) : Keeps s (State.finishReport t) := by
  unfold State.finishReport
  with_reducible repeat'
    first | intro _ | assumption | apply Keeps.ite | apply State.wr_keeps | apply State.bump_keeps
          | simp only [keeps_mk] | apply foldl_keeps | split | dsimp only

theorem State.dropReport_keeps {s t : State} (h : Keeps s t) : Keeps s (State.dropReport t) := by
  unfold State.dropReport
  with_reducible repeat'
    first | intro _ | assumption | apply Keeps.ite | apply State.wr_keeps | simp only [keeps_mk] | apply foldl_keeps
          | split | dsimp only

theorem State.reportScans_keeps {s t : State} (h : Keeps s t) : Keeps s (State.reportScans t) := by
  unfold State.reportScans
  with_reducible repeat'
    first | intro _ | assumption | apply Keeps.ite | apply State.finishReport_keeps | simp only [keeps_mk]
          | apply foldl_keeps | split | dsimp only

theorem State.reportTest_keeps {s t : State} (h : Keeps s t) : Keeps s (State.reportTest t) := by
  unfold State.reportTest
  with_reducible repeat'
    first | intro _ | assumption | apply Keeps.ite | apply State.finishReport_keeps | simp only [keeps_mk]
          | apply foldl_keeps | split | dsimp only

end Sys2Proof.Machine
end

