-- ==== Sys2Proof/Laws/KeepsLink.lean ====
section
/-! SUPPORT. What the operations of the link, the cascade, the mirror, the flashes, the sequencer and a pour keep: one lemma each. -/
set_option linter.unusedVariables false
set_option linter.unusedSimpArgs false
namespace Sys2Proof.Machine

theorem State.txFrame_keeps {s t : State} (f : TxFrame) (h : Keeps s t) : Keeps s (State.txFrame t f) := by
  unfold State.txFrame
  with_reducible repeat'
    first | intro _ | assumption | apply Keeps.ite | apply State.wr_keeps | apply State.bump_keeps
          | simp only [keeps_mk] | apply foldl_keeps | split | dsimp only

theorem State.drainTx_keeps {s t : State} (l : List TxFrame) (h : Keeps s t) : Keeps s (t.drainTx l) := by
  induction l generalizing t with
  | nil => unfold State.drainTx; exact keeps_mk.2 h
  | cons f l ih =>
    unfold State.drainTx
    exact Keeps.ite (ih (State.txFrame_keeps f h)) (keeps_mk.2 h)

theorem State.llPump_keeps {s t : State} (h : Keeps s t) : Keeps s (State.llPump t) := by
  unfold State.llPump
  with_reducible repeat'
    first | intro _ | assumption | apply Keeps.ite | apply State.drainTx_keeps | simp only [keeps_mk]
          | apply foldl_keeps | split | dsimp only

theorem State.abortTx_keeps {s t : State} (h : Keeps s t) : Keeps s (State.abortTx t) := by
  unfold State.abortTx
  with_reducible repeat'
    first | intro _ | assumption | apply Keeps.ite | apply State.wr_keeps | simp only [keeps_mk] | apply foldl_keeps
          | split | dsimp only

theorem State.abortRec_keeps {s t : State} (h : Keeps s t) : Keeps s (State.abortRec t) := by
  unfold State.abortRec
  with_reducible repeat'
    first | intro _ | assumption | apply Keeps.ite | apply State.iff_keeps | apply State.abortTx_keeps
          | simp only [keeps_mk] | apply foldl_keeps | split | dsimp only

theorem State.putAck_keeps {s t : State} (ty : Nat) (reason : Nat) (h : Keeps s t) : Keeps s (State.putAck t ty reason)
    := by
  unfold State.putAck
  with_reducible repeat'
    first | intro _ | assumption | apply Keeps.ite | simp only [keeps_mk] | apply foldl_keeps | split | dsimp only

theorem State.ackOut_keeps {s t : State} (ty : Nat) (reason : Nat) (h : Keeps s t) : Keeps s (State.ackOut t ty reason)
    := by
  unfold State.ackOut
  with_reducible repeat'
    first | intro _ | assumption | apply Keeps.ite | apply State.putAck_keeps | simp only [keeps_mk] | apply foldl_keeps
          | split | dsimp only

theorem State.wakeTx_keeps {s t : State} (h : Keeps s t) : Keeps s (State.wakeTx t) := by
  unfold State.wakeTx
  with_reducible repeat'
    first | intro _ | assumption | apply Keeps.ite | apply State.wr_keeps | apply State.each_keeps
          | apply State.putAck_keeps | apply State.llPump_keeps | simp only [keeps_mk] | apply foldl_keeps | split
          | dsimp only

theorem State.send_keeps {s t : State} (f : TxFrame) (h : Keeps s t) : Keeps s (State.send t f) := by
  unfold State.send
  with_reducible repeat'
    first | intro _ | assumption | apply Keeps.ite | apply State.llPump_keeps | simp only [keeps_mk] | apply foldl_keeps
          | split | dsimp only

theorem State.sendStatus_keeps {s t : State} (h : Keeps s t) : Keeps s (State.sendStatus t) := by
  unfold State.sendStatus
  with_reducible repeat'
    first | intro _ | assumption | apply Keeps.ite | apply State.send_keeps | simp only [keeps_mk] | apply foldl_keeps
          | split | dsimp only

theorem State.statusIfChanged_keeps {s t : State} (h : Keeps s t) : Keeps s (State.statusIfChanged t) := by
  unfold State.statusIfChanged
  with_reducible repeat'
    first | intro _ | assumption | apply Keeps.ite | apply State.sendStatus_keeps | simp only [keeps_mk]
          | apply foldl_keeps | split | dsimp only

theorem State.sendCredit_keeps {s t : State} (h : Keeps s t) : Keeps s (State.sendCredit t) := by
  unfold State.sendCredit
  with_reducible repeat'
    first | intro _ | assumption | apply Keeps.ite | apply State.send_keeps | simp only [keeps_mk] | apply foldl_keeps
          | split | dsimp only

theorem State.sendCommit_keeps {s t : State} (h : Keeps s t) : Keeps s (State.sendCommit t) := by
  unfold State.sendCommit
  with_reducible repeat'
    first | intro _ | assumption | apply Keeps.ite | apply State.send_keeps | simp only [keeps_mk] | apply foldl_keeps
          | split | dsimp only

theorem State.commitSoon_keeps {s t : State} (h : Keeps s t) : Keeps s (State.commitSoon t) := by
  unfold State.commitSoon
  with_reducible repeat'
    first | intro _ | assumption | apply Keeps.ite | apply State.sendCommit_keeps | simp only [keeps_mk]
          | apply foldl_keeps | split | dsimp only

theorem State.sendResume_keeps {s t : State} (h : Keeps s t) : Keeps s (State.sendResume t) := by
  unfold State.sendResume
  with_reducible repeat'
    first | intro _ | assumption | apply Keeps.ite | apply State.wr_keeps | apply State.flag_keeps
          | apply State.event_keeps | apply State.send_keeps | simp only [keeps_mk] | apply foldl_keeps | split
          | dsimp only

theorem State.sessionBegin_keeps {s t : State} (h : Keeps s t) : Keeps s (State.sessionBegin t) := by
  unfold State.sessionBegin
  with_reducible repeat'
    first | intro _ | assumption | apply Keeps.ite | apply State.wr_keeps | apply State.bump_keeps
          | apply State.each_keeps | apply State.sendStatus_keeps | simp only [keeps_mk] | apply foldl_keeps | split
          | dsimp only

theorem State.shakePauseOnEnd_keeps {s t : State} (h : Keeps s t) : Keeps s (State.shakePauseOnEnd t) := by
  unfold State.shakePauseOnEnd
  with_reducible repeat'
    first | intro _ | assumption | apply Keeps.ite | apply State.wr_keeps | simp only [keeps_mk] | apply foldl_keeps
          | split | dsimp only

theorem State.sessionEnd_keeps {s t : State} (h : Keeps s t) : Keeps s (State.sessionEnd t) := by
  unfold State.sessionEnd
  with_reducible repeat'
    first | intro _ | assumption | apply Keeps.ite | apply State.flag_keeps | apply State.event_keeps
          | apply State.each_keeps | apply State.wr_keeps | apply State.shakePauseOnEnd_keeps | simp only [keeps_mk]
          | apply foldl_keeps | split | dsimp only

theorem State.setLane_keeps {s t : State} (p : Nat) (l : LaneRx) (h : Keeps s t) : Keeps s (State.setLane t p l) := by
  unfold State.setLane
  with_reducible repeat'
    first | intro _ | assumption | apply Keeps.ite | simp only [keeps_mk] | apply foldl_keeps | split | dsimp only

theorem State.setScan_keeps {s t : State} (p : Nat) (e : EyeScan) (h : Keeps s t) : Keeps s (State.setScan t p e) := by
  unfold State.setScan
  with_reducible repeat'
    first | intro _ | assumption | apply Keeps.ite | simp only [keeps_mk] | apply foldl_keeps | split | dsimp only

theorem State.endScan_keeps {s t : State} (p : Nat) (status : Nat) (h : Keeps s t) : Keeps s (State.endScan t p status)
    := by
  unfold State.endScan
  with_reducible repeat'
    first | intro _ | assumption | apply Keeps.ite | apply State.setScan_keeps | apply State.wr_keeps
          | apply State.reportScans_keeps | simp only [keeps_mk] | apply foldl_keeps | split | dsimp only

theorem State.endScans_keeps {s t : State} (status : Nat) (h : Keeps s t) : Keeps s (State.endScans t status) := by
  unfold State.endScans
  with_reducible repeat'
    first | intro _ | assumption | apply Keeps.ite | apply State.each_keeps | apply State.endScan_keeps
          | simp only [keeps_mk] | apply foldl_keeps | split | dsimp only

theorem State.repeatScans_keeps {s t : State} (h : Keeps s t) : Keeps s (State.repeatScans t) := by
  unfold State.repeatScans
  with_reducible repeat'
    first | intro _ | assumption | apply Keeps.ite | apply State.each_keeps | apply State.setScan_keeps
          | simp only [keeps_mk] | apply foldl_keeps | split | dsimp only

theorem State.linkDown_keeps {s t : State} (cause : Nat) (next : Nat) (h : Keeps s t) : Keeps s (State.linkDown t cause
    next) := by
  unfold State.linkDown
  with_reducible repeat'
    first | intro _ | assumption | apply Keeps.ite | apply State.wr_keeps | apply State.bump_keeps
          | apply State.event_keeps | apply State.sessionEnd_keeps | apply State.repeatScans_keeps
          | simp only [keeps_mk] | apply foldl_keeps | split | dsimp only

theorem State.clearSets_keeps {s t : State} (h : Keeps s t) : Keeps s (State.clearSets t) := by
  unfold State.clearSets
  with_reducible repeat'
    first | intro _ | assumption | apply Keeps.ite | apply State.each_keeps | apply State.setLane_keeps
          | simp only [keeps_mk] | apply foldl_keeps | split | dsimp only

theorem State.sendSets_keeps {s t : State} (p : Nat) (n : Nat) (h : Keeps s t) : Keeps s (State.sendSets t p n) := by
  unfold State.sendSets
  with_reducible repeat'
    first | intro _ | assumption | apply Keeps.ite | apply State.setLane_keeps | simp only [keeps_mk]
          | apply foldl_keeps | split | dsimp only

theorem State.beginSets_keeps {s t : State} (h : Keeps s t) : Keeps s (State.beginSets t) := by
  unfold State.beginSets
  with_reducible repeat'
    first | intro _ | assumption | apply Keeps.ite | apply State.each_keeps | apply State.sendSets_keeps
          | simp only [keeps_mk] | apply foldl_keeps | split | dsimp only

theorem State.fastRetrain_keeps {s t : State} (cause : Nat) (h : Keeps s t) : Keeps s (State.fastRetrain t cause) := by
  unfold State.fastRetrain
  with_reducible repeat'
    first | intro _ | assumption | apply Keeps.ite | apply State.wr_keeps | apply State.linkDown_keeps
          | apply State.bump_keeps | apply State.each_keeps | apply State.clearBits_keeps | apply State.clearSets_keeps
          | apply State.beginSets_keeps | simp only [keeps_mk] | apply foldl_keeps | split | dsimp only

theorem State.profileEq_keeps {s t : State} (p : Nat) (h : Keeps s t) : Keeps s (State.profileEq t p) := by
  unfold State.profileEq
  with_reducible repeat'
    first | intro _ | assumption | apply Keeps.ite | apply State.wr_keeps | simp only [keeps_mk] | apply foldl_keeps
          | split | dsimp only

theorem State.lanesOff_keeps {s t : State} (h : Keeps s t) : Keeps s (State.lanesOff t) := by
  unfold State.lanesOff
  with_reducible repeat'
    first | intro _ | assumption | apply Keeps.ite | apply State.each_keeps | apply State.wr_keeps
          | simp only [keeps_mk] | apply foldl_keeps | split | dsimp only

theorem State.enterDetect_keeps {s t : State} (h : Keeps s t) : Keeps s (State.enterDetect t) := by
  unfold State.enterDetect
  with_reducible repeat'
    first | intro _ | assumption | apply Keeps.ite | apply State.wr_keeps | apply State.lanesOff_keeps
          | apply State.each_keeps | apply State.profileEq_keeps | apply State.beginSets_keeps | simp only [keeps_mk]
          | apply foldl_keeps | split | dsimp only

theorem State.fullTraining_keeps {s t : State} (cause : Nat) (h : Keeps s t) : Keeps s (State.fullTraining t cause) :=
    by
  unfold State.fullTraining
  with_reducible repeat'
    first | intro _ | assumption | apply Keeps.ite | apply State.wr_keeps | apply State.linkDown_keeps
          | apply State.bump_keeps | apply State.enterDetect_keeps | simp only [keeps_mk] | apply foldl_keeps | split
          | dsimp only

theorem State.linkDisable_keeps {s t : State} (cause : Nat) (h : Keeps s t) : Keeps s (State.linkDisable t cause) := by
  unfold State.linkDisable
  with_reducible repeat'
    first | intro _ | assumption | apply Keeps.ite | apply State.linkDown_keeps | apply State.lanesOff_keeps
          | simp only [keeps_mk] | apply foldl_keeps | split | dsimp only

theorem State.linkEnable_keeps {s t : State} (h : Keeps s t) : Keeps s (State.linkEnable t) := by
  unfold State.linkEnable
  with_reducible repeat'
    first | intro _ | assumption | apply Keeps.ite | apply State.enterDetect_keeps | simp only [keeps_mk]
          | apply foldl_keeps | split | dsimp only

theorem State.linkRequest_keeps {s t : State} (h : Keeps s t) : Keeps s (State.linkRequest t) := by
  unfold State.linkRequest
  with_reducible repeat'
    first | intro _ | assumption | apply Keeps.ite | apply State.fastRetrain_keeps | simp only [keeps_mk]
          | apply foldl_keeps | split | dsimp only

theorem State.linkWake_keeps {s t : State} (h : Keeps s t) : Keeps s (State.linkWake t) := by
  unfold State.linkWake
  with_reducible repeat'
    first | intro _ | assumption | apply Keeps.ite | apply State.wr_keeps | simp only [keeps_mk] | apply foldl_keeps
          | split | dsimp only

theorem State.setSrc_keeps {s t : State} (j : Nat) (x : SrcState) (h : Keeps s t) : Keeps s (State.setSrc t j x) := by
  unfold State.setSrc
  with_reducible repeat'
    first | intro _ | assumption | apply Keeps.ite | simp only [keeps_mk] | apply foldl_keeps | split | dsimp only

theorem State.noteFate_keeps {s t : State} (a : Answer) (h : Keeps s t) : Keeps s (State.noteFate t a) := by
  unfold State.noteFate
  with_reducible repeat'
    first | intro _ | assumption | apply Keeps.ite | apply State.wr_keeps | simp only [keeps_mk] | apply foldl_keeps
          | split | dsimp only

theorem State.reply_keeps {s t : State} (a : Answer) (h : Keeps s t) : Keeps s (State.reply t a) := by
  unfold State.reply
  with_reducible repeat'
    first | intro _ | assumption | apply Keeps.ite | apply State.noteFate_keeps | apply State.send_keeps
          | simp only [keeps_mk] | apply foldl_keeps | split | dsimp only

theorem State.replyOk_keeps {s t : State} (j : Nat) (tag : Nat) (op : Nat) (key : Nat) (data : List Nat) (bits : Nat) (h
    : Keeps s t) : Keeps s (State.replyOk t j tag op key data bits) := by
  unfold State.replyOk
  with_reducible repeat'
    first | intro _ | assumption | apply Keeps.ite | apply State.reply_keeps | simp only [keeps_mk] | apply foldl_keeps
          | split | dsimp only

theorem State.replyAbort_keeps {s t : State} (j : Nat) (tag : Nat) (op : Nat) (key : Nat) (code : Nat) (detail : Nat) (h
    : Keeps s t) : Keeps s (State.replyAbort t j tag op key code detail) := by
  unfold State.replyAbort
  with_reducible repeat'
    first | intro _ | assumption | apply Keeps.ite | apply State.reply_keeps | simp only [keeps_mk] | apply foldl_keeps
          | split | dsimp only

theorem State.quarantine_keeps {s t : State} (j : Nat) (h : Keeps s t) : Keeps s (State.quarantine t j) := by
  unfold State.quarantine
  with_reducible repeat'
    first | intro _ | assumption | apply Keeps.ite | apply State.setSrc_keeps | apply State.bump_keeps
          | apply State.flag_keeps | apply State.event_keeps | apply State.reply_keeps | apply State.iff_keeps
          | apply State.statusIfChanged_keeps | simp only [keeps_mk] | apply foldl_keeps | split | dsimp only

theorem State.violate_keeps {s t : State} (j : Nat) (cls : Nat) (weighs : Bool) (h : Keeps s t) : Keeps s (State.violate
    t j cls weighs) := by
  unfold State.violate
  with_reducible repeat'
    first | intro _ | assumption | apply Keeps.ite | apply State.bump_keeps | apply State.event_keeps
          | apply State.setSrc_keeps | apply State.quarantine_keeps | simp only [keeps_mk] | apply foldl_keeps | split
          | dsimp only

theorem State.violation_keeps {s t : State} (j : Nat) (cls : Nat) (h : Keeps s t) : Keeps s (State.violation t j cls) :=
    by
  unfold State.violation
  with_reducible repeat'
    first | intro _ | assumption | apply Keeps.ite | apply State.violate_keeps | simp only [keeps_mk]
          | apply foldl_keeps | split | dsimp only

theorem State.llViolation_keeps {s t : State} (cls : Nat) (h : Keeps s t) : Keeps s (State.llViolation t cls) := by
  unfold State.llViolation
  with_reducible repeat'
    first | intro _ | assumption | apply Keeps.ite | apply State.bump_keeps | apply State.flag_keeps
          | apply State.violation_keeps | simp only [keeps_mk] | apply foldl_keeps | split | dsimp only

theorem State.serviceViolation_keeps {s t : State} (j : Nat) (cls : Nat) (h : Keeps s t) : Keeps s
    (State.serviceViolation t j cls) := by
  unfold State.serviceViolation
  with_reducible repeat'
    first | intro _ | assumption | apply Keeps.ite | apply State.llViolation_keeps | apply State.violation_keeps
          | simp only [keeps_mk] | apply foldl_keeps | split | dsimp only

theorem State.phyViolation_keeps {s t : State} (h : Keeps s t) : Keeps s (State.phyViolation t) := by
  unfold State.phyViolation
  with_reducible repeat'
    first | intro _ | assumption | apply Keeps.ite | apply State.bump_keeps | apply State.phyViolations_keeps
          | apply State.violation_keeps | simp only [keeps_mk] | apply foldl_keeps | split | dsimp only

theorem State.phyViolations_keeps {s t : State} (n : Nat) (h : Keeps s t) : Keeps s (State.phyViolations t n) := by
  unfold State.phyViolations
  with_reducible repeat'
    first | intro _ | assumption | apply Keeps.ite | apply State.each_keeps | apply State.phyViolation_keeps
          | simp only [keeps_mk] | apply foldl_keeps | split | dsimp only

theorem State.refreshBus_keeps {s t : State} (h : Keeps s t) : Keeps s (State.refreshBus t) := by
  unfold State.refreshBus
  with_reducible repeat'
    first | intro _ | assumption | apply Keeps.ite | apply State.wr_keeps | simp only [keeps_mk] | apply foldl_keeps
          | split | dsimp only

theorem State.queueCan_keeps {s t : State} (fn : Nat) (payload : List Nat) (h : Keeps s t) : Keeps s (State.queueCan t
    fn payload) := by
  unfold State.queueCan
  with_reducible repeat'
    first | intro _ | assumption | apply Keeps.ite | simp only [keeps_mk] | apply foldl_keeps | split | dsimp only

theorem State.queuePourCmd_keeps {s t : State} (payload : List Nat) (counter : Nat) (h : Keeps s t) : Keeps s
    (State.queuePourCmd t payload counter) := by
  unfold State.queuePourCmd
  with_reducible repeat'
    first | intro _ | assumption | apply Keeps.ite | apply State.bump_keeps | simp only [keeps_mk] | apply foldl_keeps
          | split | dsimp only

theorem State.sentCan_keeps {s t : State} (f : CanTx) (h : Keeps s t) : Keeps s (State.sentCan t f) := by
  unfold State.sentCan
  with_reducible repeat'
    first | intro _ | assumption | apply Keeps.ite | apply State.flag_keeps | apply State.bump_keeps
          | simp only [keeps_mk] | apply foldl_keeps | split | dsimp only

theorem State.canTick_keeps {s t : State} (n : Nat) (h : Keeps s t) : Keeps s (State.canTick n t) := by
  induction n generalizing t with
  | zero => exact h
  | succ n ih =>
    unfold State.canTick
    repeat'
      first | with_reducible assumption | with_reducible apply Keeps.ite | with_reducible apply ih
            | with_reducible apply State.sentCan_keeps | with_reducible apply State.bump_keeps | simp only [keeps_mk]
            | split

theorem State.pourLinePulse_keeps {s t : State} (h : Keeps s t) : Keeps s (State.pourLinePulse t) := by
  unfold State.pourLinePulse
  with_reducible repeat'
    first | intro _ | assumption | apply Keeps.ite | apply State.bump_keeps | simp only [keeps_mk] | apply foldl_keeps
          | split | dsimp only

theorem State.tickPourLine_keeps {s t : State} (h : Keeps s t) : Keeps s (State.tickPourLine t) := by
  unfold State.tickPourLine
  with_reducible repeat'
    first | intro _ | assumption | apply Keeps.ite | apply State.count_keeps | apply State.event_keeps
          | apply State.wr_keeps | simp only [keeps_mk] | apply foldl_keeps | split | dsimp only

theorem State.offerHeat_keeps {s t : State} (h' : Nat) (h : Keeps s t) : Keeps s (State.offerHeat t h') := by
  unfold State.offerHeat
  with_reducible repeat'
    first | intro _ | assumption | apply Keeps.ite | simp only [keeps_mk] | apply foldl_keeps | split | dsimp only

theorem State.propagatePour_keeps {s t : State} (cause : Nat) (trig : Nat) (h : Keeps s t) : Keeps s
    (State.propagatePour t cause trig) := by
  unfold State.propagatePour
  with_reducible repeat'
    first | intro _ | assumption | apply Keeps.ite | apply State.pourLinePulse_keeps | apply State.queuePourCmd_keeps
          | simp only [keeps_mk] | apply foldl_keeps | split | dsimp only

theorem State.unbump_keeps {s t : State} (k : Nat) (h : Keeps s t) : Keeps s (State.unbump t k) := by
  unfold State.unbump
  with_reducible repeat'
    first | intro _ | assumption | apply Keeps.ite | apply State.wr_keeps | simp only [keeps_mk] | apply foldl_keeps
          | split | dsimp only

theorem State.unpropagate_keeps {s t : State} (cause : Nat) (h : Keeps s t) : Keeps s (State.unpropagate t cause) := by
  unfold State.unpropagate
  with_reducible repeat'
    first | intro _ | assumption | apply Keeps.ite | apply State.unbump_keeps | simp only [keeps_mk] | apply foldl_keeps
          | split | dsimp only

theorem State.retell_keeps {s t : State} (old : Nat) (cause : Nat) (trig : Nat) (h : Keeps s t) : Keeps s (State.retell
    t old cause trig) := by
  unfold State.retell
  with_reducible repeat'
    first | intro _ | assumption | apply Keeps.ite | apply State.unpropagate_keeps | apply State.propagatePour_keeps
          | simp only [keeps_mk] | apply foldl_keeps | split | dsimp only

theorem State.assignHeat_keeps {s t : State} (cause : Nat) (h : Keeps s t) : Keeps s (State.assignHeat t cause) := by
  unfold State.assignHeat
  with_reducible repeat'
    first | intro _ | assumption | apply Keeps.ite | apply State.wr_keeps | simp only [keeps_mk] | apply foldl_keeps
          | split | dsimp only

theorem State.relayFault_keeps {s t : State} (rail : Nat) (h : Keeps s t) : Keeps s (State.relayFault t rail) := by
  unfold State.relayFault
  with_reducible repeat'
    first | intro _ | assumption | apply Keeps.ite | apply State.queuePourCmd_keeps | simp only [keeps_mk]
          | apply foldl_keeps | split | dsimp only

theorem State.setMember_keeps {s t : State} (k : Nat) (m : Member) (h : Keeps s t) : Keeps s (State.setMember t k m) :=
    by
  unfold State.setMember
  with_reducible repeat'
    first | intro _ | assumption | apply Keeps.ite | simp only [keeps_mk] | apply foldl_keeps | split | dsimp only

theorem State.casViolation_keeps {s t : State} (node : Nat) (h : Keeps s t) : Keeps s (State.casViolation t node) := by
  unfold State.casViolation
  with_reducible repeat'
    first | intro _ | assumption | apply Keeps.ite | apply State.violation_keeps | apply State.bump_keeps
          | simp only [keeps_mk] | apply foldl_keeps | split | dsimp only

theorem State.duplicate_keeps {s t : State} (h : Keeps s t) : Keeps s (State.duplicate t) := by
  unfold State.duplicate
  with_reducible repeat'
    first | intro _ | assumption | apply Keeps.ite | apply State.flag_keeps | apply State.event_keeps
          | apply State.wr_keeps | simp only [keeps_mk] | apply foldl_keeps | split | dsimp only

theorem State.casCheck_keeps {s t : State} (fn : Nat) (node : Nat) (p : List Nat) (dirty : Bool) (h : Keeps s t) :
    Keeps s (State.casCheck t fn node p dirty).1 := by
  show KeepsP s _
  unfold State.casCheck
  with_reducible repeat'
    first | apply KeepsP.ite | refine KeepsP.mk ?_ | intro _ | assumption | apply Keeps.ite | apply State.bump_keeps
          | apply State.duplicate_keeps | apply State.casViolation_keeps | apply State.setMember_keeps
          | simp only [keeps_mk] | apply foldl_keeps | split | dsimp only

theorem State.refreshMaster_keeps {s t : State} (h : Keeps s t) : Keeps s (State.refreshMaster t) := by
  unfold State.refreshMaster
  with_reducible repeat'
    first | intro _ | assumption | apply Keeps.ite | apply State.wr_keeps | simp only [keeps_mk] | apply foldl_keeps
          | split | dsimp only

theorem State.table_keeps {s t : State} (f : State → State) (hf : ∀ u, Keeps s (u) → Keeps s (f u)) (h : Keeps s t) :
    Keeps s (State.table t f) := by
  unfold State.table
  exact State.iff_keeps _ _ hf h

theorem State.memberBack_keeps {s t : State} (k : Nat) (h : Keeps s t) : Keeps s (State.memberBack t k) := by
  unfold State.memberBack
  with_reducible repeat'
    first | intro _ | assumption | apply Keeps.ite | apply State.setMember_keeps | apply State.event_keeps
          | apply State.table_keeps | apply State.wr_keeps | apply State.refreshMaster_keeps | simp only [keeps_mk]
          | apply foldl_keeps | split | dsimp only

theorem State.memberGone_keeps {s t : State} (k : Nat) (h : Keeps s t) : Keeps s (State.memberGone t k) := by
  unfold State.memberGone
  with_reducible repeat'
    first | intro _ | assumption | apply Keeps.ite | apply State.setMember_keeps | apply State.event_keeps
          | apply State.flag_keeps | apply State.table_keeps | apply State.wr_keeps | apply State.refreshMaster_keeps
          | simp only [keeps_mk] | apply foldl_keeps | split | dsimp only

theorem State.pairStamp_keeps {s t : State} (stamp : Nat) (h : Keeps s t) : Keeps s (State.pairStamp t stamp) := by
  unfold State.pairStamp
  exact Keeps.ite (h.clk rfl rfl rfl id) h

theorem State.tickCascade_keeps {s t : State} (h : Keeps s t) : Keeps s (State.tickCascade t) := by
  unfold State.tickCascade
  with_reducible repeat'
    first | intro _ | assumption | apply Keeps.ite | apply State.canTick_keeps | apply State.refreshBus_keeps
          | apply State.tickPourLine_keeps | simp only [keeps_mk] | apply foldl_keeps | split | dsimp only

theorem State.refreshFill_keeps {s t : State} (h : Keeps s t) : Keeps s (State.refreshFill t) := by
  unfold State.refreshFill
  with_reducible repeat'
    first | intro _ | assumption | apply Keeps.ite | apply State.wr_keeps | apply State.each_keeps
          | simp only [keeps_mk] | apply foldl_keeps | split | dsimp only

theorem State.refreshMirrored_keeps {s t : State} (h : Keeps s t) : Keeps s (State.refreshMirrored t) := by
  unfold State.refreshMirrored
  with_reducible repeat'
    first | intro _ | assumption | apply Keeps.ite | apply State.wr_keeps | apply State.each_keeps
          | simp only [keeps_mk] | apply foldl_keeps | split | dsimp only

theorem State.stepEpoch_keeps {s t : State} (r : Rec) (h : Keeps s t) : Keeps s (State.stepEpoch t r) := by
  unfold State.stepEpoch
  with_reducible repeat'
    first | intro _ | assumption | apply Keeps.ite | apply State.wr_keeps | simp only [keeps_mk] | apply foldl_keeps
          | split | dsimp only

theorem State.acceptRec_keeps {s t : State} (r : Rec) (session : Nat) (h : Keeps s t) : Keeps s (State.acceptRec t r
    session) := by
  unfold State.acceptRec
  with_reducible repeat'
    first | intro _ | assumption | apply Keeps.ite | apply State.stepEpoch_keeps | apply State.wr_keeps
          | apply State.bump_keeps | apply State.bumpBy_keeps | apply State.iff_keeps | apply State.clearBits_keeps
          | apply State.event_keeps | apply State.refreshFill_keeps | apply State.refreshMirrored_keeps
          | apply State.pump_keeps | apply State.commitSoon_keeps | simp only [keeps_mk] | apply foldl_keeps | split
          | dsimp only

theorem State.refuseRec_keeps {s t : State} (st : Nat) (cls : Nat) (h : Keeps s t) : Keeps s (State.refuseRec t st cls)
    := by
  unfold State.refuseRec
  with_reducible repeat'
    first | intro _ | assumption | apply Keeps.ite | apply State.flag_keeps | apply State.event_keeps
          | apply State.commitSoon_keeps | apply State.llViolation_keeps | simp only [keeps_mk] | apply foldl_keeps
          | split | dsimp only

theorem State.applyRec_keeps {s t : State} (r : Rec) (session : Nat) (h : Keeps s t) : Keeps s (State.applyRec t r
    session) := by
  unfold State.applyRec
  with_reducible repeat'
    first | intro _ | assumption | apply Keeps.ite | apply State.wr_keeps | apply State.refuseRec_keeps
          | apply State.bump_keeps | apply State.flag_keeps | apply State.acceptRec_keeps | simp only [keeps_mk]
          | apply foldl_keeps | split | dsimp only

theorem State.commitOne_keeps {s t : State} (r : Rec) (h : Keeps s t) : Keeps s (State.commitOne t r) := by
  unfold State.commitOne
  with_reducible repeat'
    first | intro _ | assumption | apply Keeps.ite | apply State.wr_keeps | apply State.flag_keeps
          | apply State.bump_keeps | simp only [keeps_mk] | apply foldl_keeps | split | dsimp only

theorem State.commitFrom_keeps {s t : State} (b : List Nat) (l : List CruRec) (h : Keeps s t) : Keeps s (t.commitFrom b
    l).1 := by
  induction l generalizing t b with
  | nil => exact h
  | cons c l ih =>
    unfold State.commitFrom
    split
    · exact ih _ h
    · exact ih _ (State.commitOne_keeps _ h)

theorem State.commitAll_keeps {s t : State} (h : Keeps s t) : Keeps s (State.commitAll t) := by
  unfold State.commitAll
  extract_lets n
  have hc := State.commitFrom_keeps [] t.sto.crucible h
  split
  rename_i x rest e
  rw [e] at hc
  exact Keeps.ite (keeps_mk.2 hc) (State.commitSoon_keeps (State.refreshFill_keeps (keeps_mk.2 hc)))

theorem State.applyRetire_keeps {s t : State} (st : Nat) (ep : Nat) (h : Keeps s t) : Keeps s (State.applyRetire t st
    ep) := by
  unfold State.applyRetire
  with_reducible repeat'
    first | intro _ | assumption | apply Keeps.ite | apply State.wr_keeps | apply State.flag_keeps
          | apply State.bump_keeps | apply State.refreshMirrored_keeps | apply State.pump_keeps
          | apply State.event_keeps | apply State.llViolation_keeps | simp only [keeps_mk] | apply foldl_keeps | split
          | dsimp only

theorem State.markDurable_keeps {s t : State} (st : Nat) (ep : Nat) (h : Keeps s t) : Keeps s (State.markDurable t st
    ep) := by
  unfold State.markDurable
  with_reducible repeat'
    first | intro _ | assumption | apply Keeps.ite | apply State.wr_keeps | simp only [keeps_mk] | apply foldl_keeps
          | split | dsimp only

theorem State.refreshOpen_keeps {s t : State} (h : Keeps s t) : Keeps s (State.refreshOpen t) := by
  unfold State.refreshOpen
  with_reducible repeat'
    first | intro _ | assumption | apply Keeps.ite | apply State.each_keeps | apply State.wr_keeps
          | apply State.sendCredit_keeps | simp only [keeps_mk] | apply foldl_keeps | split | dsimp only

theorem State.takeCounts_keeps {s t : State} (h : Keeps s t) : Keeps s (State.takeCounts t) := by
  unfold State.takeCounts
  with_reducible repeat'
    first | intro _ | assumption | apply Keeps.ite | apply State.wr_keeps | simp only [keeps_mk] | apply foldl_keeps
          | split | dsimp only

theorem State.computeMargin_keeps {s t : State} (h : Keeps s t) : Keeps s (State.computeMargin t) := by
  unfold State.computeMargin
  with_reducible repeat'
    first | intro _ | assumption | apply Keeps.ite | apply WOut.out_keeps | apply State.wr_keeps | apply State.wrI_keeps
          | apply State.flag_keeps | apply State.event_keeps | simp only [keeps_mk] | apply foldl_keeps | split
          | dsimp only

theorem State.raise_keeps {s t : State} (st : Nat) (h : Keeps s t) : Keeps s (State.raise t st) := by
  unfold State.raise
  with_reducible repeat'
    first | intro _ | assumption | apply Keeps.ite | apply State.wr_keeps | simp only [keeps_mk] | apply foldl_keeps
          | split | dsimp only

theorem State.grantPass_keeps {s t : State} (made : Bool) (l : List Nat) (h : Keeps s t) : Keeps s (t.grantPass made
    l).1 := by
  induction l generalizing t made with
  | nil => exact h
  | cons st l ih =>
    unfold State.grantPass
    split
    · exact ih _ h
    · split
      · exact ih _ (State.raise_keeps _ h)
      · exact h

theorem State.grantPasses_keeps {s t : State} (n : Nat) (a : Bool) (h : Keeps s t) : Keeps s (State.grantPasses n a t).1
    := by
  induction n generalizing t a with
  | zero => exact h
  | succ n ih =>
    unfold State.grantPasses
    dsimp only
    split
    · exact ih _ (State.grantPass_keeps _ _ h)
    · exact State.grantPass_keeps _ _ h

theorem State.grants_keeps {s t : State} (h : Keeps s t) : Keeps s (State.grants t) := by
  unfold State.grants
  exact Keeps.ite (Keeps.ite (State.sendCredit_keeps (State.grantPasses_keeps _ _ h)) (State.grantPasses_keeps _ _ h)) h

theorem State.admission_keeps {s t : State} (h : Keeps s t) : Keeps s (State.admission t) := by
  unfold State.admission
  with_reducible repeat'
    first | intro _ | assumption | apply Keeps.ite | apply State.wr_keeps | apply State.bump_keeps
          | apply State.flag_keeps | apply State.event_keeps | simp only [keeps_mk] | apply foldl_keeps | split
          | dsimp only

theorem State.setXo_keeps {s t : State} (slot : Nat) (b : Nat × Nat) (h : Keeps s t) : Keeps s (State.setXo t slot b) :=
    by
  unfold State.setXo
  with_reducible repeat'
    first | intro _ | assumption | apply Keeps.ite | simp only [keeps_mk] | apply foldl_keeps | split | dsimp only

theorem State.refreshSlots_keeps {s t : State} (h : Keeps s t) : Keeps s (State.refreshSlots t) := by
  unfold State.refreshSlots
  with_reducible repeat'
    first | intro _ | assumption | apply Keeps.ite | apply State.wr_keeps | simp only [keeps_mk] | apply foldl_keeps
          | split | dsimp only

theorem State.refreshProt_keeps {s t : State} (h : Keeps s t) : Keeps s (State.refreshProt t) := by
  unfold State.refreshProt
  with_reducible repeat'
    first | intro _ | assumption | apply Keeps.ite | apply State.wr_keeps | simp only [keeps_mk] | apply foldl_keeps
          | split | dsimp only

theorem State.putProt_keeps {s t : State} (p : ProtRec) (h : Keeps s t) : Keeps s (State.putProt t p) := by
  unfold State.putProt
  with_reducible repeat'
    first | intro _ | assumption | apply Keeps.ite | apply State.refreshProt_keeps | simp only [keeps_mk]
          | apply foldl_keeps | split | dsimp only

theorem State.writeProt_keeps {s t : State} (p : ProtRec) (what : Nat) (src : Nat) (tag : Nat) (h : Keeps s t) : Keeps s
    (State.writeProt t p what src tag) := by
  unfold State.writeProt
  with_reducible repeat'
    first | intro _ | assumption | apply Keeps.ite | simp only [keeps_mk] | apply foldl_keeps | split | dsimp only

theorem State.romBoot_keeps {s t : State} (h : Keeps s t) : Keeps s (State.romBoot t) := by
  unfold State.romBoot
  with_reducible repeat'
    first | intro _ | assumption | apply Keeps.ite | apply State.putProt_keeps | apply State.setXo_keeps
          | apply State.refreshSlots_keeps | apply State.refreshProt_keeps | apply State.wr_keeps | simp only [keeps_mk]
          | apply foldl_keeps | split | dsimp only

theorem State.noteFallback_keeps {s t : State} (h : Keeps s t) : Keeps s (State.noteFallback t) := by
  unfold State.noteFallback
  with_reducible repeat'
    first | intro _ | assumption | apply Keeps.ite | apply State.putProt_keeps | apply State.wr_keeps
          | apply State.flag_keeps | apply State.bump_keeps | apply State.event_keeps | simp only [keeps_mk]
          | apply foldl_keeps | split | dsimp only

theorem State.acceptTrial_keeps {s t : State} (what : Nat) (src : Nat) (tag : Nat) (h : Keeps s t) : Keeps s
    (State.acceptTrial t what src tag) := by
  unfold State.acceptTrial
  with_reducible repeat'
    first | intro _ | assumption | apply Keeps.ite | apply State.writeProt_keeps | apply State.wr_keeps
          | apply State.flag_keeps | apply State.event_keeps | simp only [keeps_mk] | apply foldl_keeps | split
          | dsimp only

theorem State.setCopy_keeps {s t : State} (bank : Nat) (c : Copy) (h : Keeps s t) : Keeps s (State.setCopy t bank c) :=
    by
  unfold State.setCopy
  with_reducible repeat'
    first | intro _ | assumption | apply Keeps.ite | simp only [keeps_mk] | apply foldl_keeps | split | dsimp only

theorem State.refreshSums_keeps {s t : State} (h : Keeps s t) : Keeps s (State.refreshSums t) := by
  unfold State.refreshSums
  with_reducible repeat'
    first | intro _ | assumption | apply Keeps.ite | apply State.wr_keeps | simp only [keeps_mk] | apply foldl_keeps
          | split | dsimp only

theorem State.writeSum_keeps {s t u : State} {r : SumRec} (e : t.writeSum r = some u) (h : Keeps s t) : Keeps s u := by
  unfold State.writeSum at e
  split at e
  · contradiction
  · split at e
    · contradiction
    · simp only [Option.some.injEq] at e
      subst e
      exact State.refreshSums_keeps (State.iff_keeps _ _ (fun u hu => State.queueErase_keeps _ _ hu)
        (State.bumpBy_keeps _ _ (keeps_mk.2 h)))

theorem State.blankSector_keeps {s t : State} (bank : Nat) (sector : Nat) (h : Keeps s t) : Keeps s (State.blankSector t
    bank sector) := by
  unfold State.blankSector
  with_reducible repeat'
    first | intro _ | assumption | apply Keeps.ite | apply State.setCopy_keeps | apply State.refreshSums_keeps
          | simp only [keeps_mk] | apply foldl_keeps | split | dsimp only

theorem State.tearSector_keeps {s t : State} (bank : Nat) (sector : Nat) (h : Keeps s t) : Keeps s (State.tearSector t
    bank sector) := by
  unfold State.tearSector
  with_reducible repeat'
    first | intro _ | assumption | apply Keeps.ite | apply State.setCopy_keeps | simp only [keeps_mk]
          | apply foldl_keeps | split | dsimp only

theorem State.resumeDf_keeps {s t : State} (h : Keeps s t) : Keeps s (State.resumeDf t) := by
  unfold State.resumeDf
  with_reducible repeat'
    first | intro _ | assumption | apply Keeps.ite | simp only [keeps_mk] | apply foldl_keeps | split | dsimp only

theorem State.eraseAhead_keeps {s t : State} (h : Keeps s t) : Keeps s (State.eraseAhead t) := by
  unfold State.eraseAhead
  with_reducible repeat'
    first | intro _ | assumption | apply Keeps.ite | apply State.queuePos_keeps | apply State.each_keeps
          | apply State.queueErase_keeps | apply State.iff_keeps | simp only [keeps_mk] | apply foldl_keeps | split
          | dsimp only

theorem State.fwFail_keeps {s t : State} (flag : Nat) (result : Nat) (h : Keeps s t) : Keeps s (State.fwFail t flag
    result) := by
  unfold State.fwFail
  with_reducible repeat'
    first | intro _ | assumption | apply Keeps.ite | apply State.wr_keeps | apply State.flag_keeps
          | apply State.event_keeps | simp only [keeps_mk] | apply foldl_keeps | split | dsimp only

theorem State.cutWrite_keeps {s t : State} (h : Keeps s t) : Keeps s (State.cutWrite t) := by
  unfold State.cutWrite
  with_reducible repeat'
    first | intro _ | assumption | apply Keeps.ite | apply State.bumpBy_keeps | apply State.freeNext_keeps
          | simp only [keeps_mk] | apply foldl_keeps | split | dsimp only

theorem State.dropWinWrite_keeps {s t : State} (h : Keeps s t) : Keeps s (State.dropWinWrite t) := by
  unfold State.dropWinWrite
  with_reducible repeat'
    first | intro _ | assumption | apply Keeps.ite | apply State.cutWrite_keeps | apply State.replyAbort_keeps
          | simp only [keeps_mk] | apply foldl_keeps | split | dsimp only

theorem State.doFwCmd_keeps {s t : State} (j : Nat) (tag : Nat) (v : Nat) (h : Keeps s t) : KeepsW s (State.doFwCmd t j
    tag v) := by
  unfold State.doFwCmd
  with_reducible repeat'
    first | intro _ | assumption | apply Keeps.ite | apply KeepsW.ite | apply State.dropWinWrite_keeps
          | apply State.setXo_keeps | apply State.wr_keeps | apply State.writeProt_keeps | apply State.acceptTrial_keeps
          | exact KeepsW.abort | apply KeepsW.ok | apply KeepsW.later | simp only [keeps_mk] | apply foldl_keeps | split
          | dsimp only

theorem State.doProtCode_keeps {s t : State} (j : Nat) (tag : Nat) (v : Nat) (h : Keeps s t) : KeepsW s
    (State.doProtCode t j tag v) := by
  unfold State.doProtCode
  with_reducible repeat'
    first | intro _ | assumption | apply Keeps.ite | apply KeepsW.ite | apply State.writeProt_keeps | exact KeepsW.abort
          | apply KeepsW.ok | apply KeepsW.later | simp only [keeps_mk] | apply foldl_keeps | split | dsimp only

theorem State.doDebugClose_keeps {s t : State} (j : Nat) (tag : Nat) (v : Nat) (h : Keeps s t) : KeepsW s
    (State.doDebugClose t j tag v) := by
  unfold State.doDebugClose
  with_reducible repeat'
    first | intro _ | assumption | apply Keeps.ite | apply KeepsW.ite | apply State.writeProt_keeps | exact KeepsW.abort
          | apply KeepsW.ok | apply KeepsW.later | simp only [keeps_mk] | apply foldl_keeps | split | dsimp only

theorem State.protDone_keeps {s t : State} (what : Nat) (h : Keeps s t) : Keeps s (State.protDone t what) := by
  unfold State.protDone
  with_reducible repeat'
    first | intro _ | assumption | apply Keeps.ite | apply State.wr_keeps | simp only [keeps_mk] | apply foldl_keeps
          | split | dsimp only

theorem State.protFailed_keeps {s t : State} (what : Nat) (h : Keeps s t) : Keeps s (State.protFailed t what) := by
  unfold State.protFailed
  with_reducible repeat'
    first | intro _ | assumption | apply Keeps.ite | apply State.wr_keeps | simp only [keeps_mk] | apply foldl_keeps
          | split | dsimp only

theorem State.winAbort_keeps {s t : State} (code : Nat) (detail : Nat) (a : Nat) (n : Nat) (h : Keeps s t) : Keeps s
    (State.winAbort t code detail a n) := by
  unfold State.winAbort
  with_reducible repeat'
    first | intro _ | assumption | apply Keeps.ite | apply State.wr_keeps | apply State.iff_keeps
          | apply State.bump_keeps | apply State.event_keeps | apply State.freeNext_keeps | simp only [keeps_mk]
          | apply foldl_keeps | split | dsimp only

theorem State.dropSlot_keeps {s t : State} (slot : Nat) (h : Keeps s t) : Keeps s (State.dropSlot t slot) := by
  unfold State.dropSlot
  with_reducible repeat'
    first | intro _ | assumption | apply Keeps.ite | simp only [keeps_mk] | apply foldl_keeps | split | dsimp only

theorem State.cutErase_keeps {s t : State} (h : Keeps s t) : Keeps s (State.cutErase t) := by
  unfold State.cutErase
  with_reducible repeat'
    first | intro _ | assumption | apply Keeps.ite | apply State.dropSlot_keeps | simp only [keeps_mk]
          | apply foldl_keeps | split | dsimp only

theorem State.fwPour_keeps {s t : State} (h : Keeps s t) : Keeps s (State.fwPour t) := by
  unfold State.fwPour
  with_reducible repeat'
    first | intro _ | assumption | apply Keeps.ite | apply State.cutErase_keeps | apply State.dropWinWrite_keeps
          | apply State.wr_keeps | apply State.flag_keeps | apply State.event_keeps | simp only [keeps_mk]
          | apply foldl_keeps | split | dsimp only

theorem State.setEn_keeps {s t : State} (n : Nat) (on : Bool) (h : Keeps s t) : Keeps s (State.setEn t n on) := by
  unfold State.setEn
  with_reducible repeat'
    first | intro _ | assumption | apply Keeps.ite | apply State.putBit_keeps | simp only [keeps_mk] | apply foldl_keeps
          | split | dsimp only

theorem State.hostResetLow_keeps {s t : State} (h : Keeps s t) : Keeps s (State.hostResetLow t) := by
  unfold State.hostResetLow
  with_reducible repeat'
    first | intro _ | assumption | apply Keeps.ite | simp only [keeps_mk] | apply foldl_keeps | split | dsimp only

theorem State.setRail_keeps {s t : State} (n : Nat) (st : Nat) (h : Keeps s t) : Keeps s (State.setRail t n st) := by
  unfold State.setRail
  with_reducible repeat'
    first | intro _ | assumption | apply Keeps.ite | apply State.wr_keeps | apply State.putBit_keeps
          | apply State.hostResetLow_keeps | simp only [keeps_mk] | apply foldl_keeps | split | dsimp only

theorem State.countRail_keeps {s t : State} (n : Nat) (h : Keeps s t) : Keeps s (State.countRail t n) := by
  unfold State.countRail
  with_reducible repeat'
    first | intro _ | assumption | apply Keeps.ite | apply State.count_keeps | simp only [keeps_mk] | apply foldl_keeps
          | split | dsimp only

theorem State.endWarnings_keeps {s t : State} (n : Nat) (h : Keeps s t) : Keeps s (State.endWarnings t n) := by
  unfold State.endWarnings
  with_reducible repeat'
    first | intro _ | assumption | apply Keeps.ite | apply State.event_keeps | simp only [keeps_mk] | apply foldl_keeps
          | split | dsimp only

theorem State.upEarly_keeps {s t : State} (n : Nat) (h : Keeps s t) : Keeps s (State.upEarly t n) := by
  unfold State.upEarly
  with_reducible repeat'
    first | intro _ | assumption | apply Keeps.ite | apply State.flag_keeps | apply State.event_keeps
          | simp only [keeps_mk] | apply foldl_keeps | split | dsimp only

theorem State.tickFault_keeps {s t : State} (h : Keeps s t) : Keeps s (State.tickFault t) := by
  unfold State.tickFault
  with_reducible repeat'
    first | intro _ | assumption | apply Keeps.ite | apply State.count_keeps | apply State.wr_keeps
          | simp only [keeps_mk] | apply foldl_keeps | split | dsimp only

theorem State.tickSeq_keeps {s t : State} (h : Keeps s t) : Keeps s (State.tickSeq t) := by
  unfold State.tickSeq
  with_reducible repeat'
    first | intro _ | assumption | apply Keeps.ite | apply State.each_keeps | apply State.countRail_keeps
          | apply State.endWarnings_keeps | apply State.upEarly_keeps | apply State.tickFault_keeps
          | simp only [keeps_mk] | apply foldl_keeps | split | dsimp only

theorem State.faultPulse_keeps {s t : State} (h : Keeps s t) : Keeps s (State.faultPulse t) := by
  unfold State.faultPulse
  with_reducible repeat'
    first | intro _ | assumption | apply Keeps.ite | apply State.bump_keeps | simp only [keeps_mk] | apply foldl_keeps
          | split | dsimp only

theorem State.checkOnDone_keeps {s t : State} (h : Keeps s t) : Keeps s (State.checkOnDone t) := by
  unfold State.checkOnDone
  with_reducible repeat'
    first | intro _ | assumption | apply Keeps.ite | apply State.wr_keeps | simp only [keeps_mk] | apply foldl_keeps
          | split | dsimp only

theorem State.beginOnSlots_keeps {s t : State} (h : Keeps s t) : Keeps s (State.beginOnSlots t) := by
  unfold State.beginOnSlots
  with_reducible repeat'
    first | intro _ | assumption | apply Keeps.ite | apply State.wr_keeps | apply State.stopStart_keeps
          | apply State.checkOnDone_keeps | simp only [keeps_mk] | apply foldl_keeps | split | dsimp only

theorem State.fallRail_keeps {s t : State} (n : Nat) (h : Keeps s t) : Keeps s (State.fallRail t n) := by
  unfold State.fallRail
  with_reducible repeat'
    first | intro _ | assumption | apply Keeps.ite | apply State.setRail_keeps | apply State.setEn_keeps
          | simp only [keeps_mk] | apply foldl_keeps | split | dsimp only

theorem State.dropRising_keeps {s t : State} (h : Keeps s t) : Keeps s (State.dropRising t) := by
  unfold State.dropRising
  with_reducible repeat'
    first | intro _ | assumption | apply Keeps.ite | apply State.each_keeps | apply State.setRail_keeps
          | simp only [keeps_mk] | apply foldl_keeps | split | dsimp only

theorem State.revNext_keeps {s t : State} (h : Keeps s t) : Keeps s (State.revNext t) := by
  unfold State.revNext
  with_reducible repeat'
    first | intro _ | assumption | apply Keeps.ite | apply State.dropRising_keeps | apply State.wr_keeps
          | apply State.bump_keeps | apply State.hostResetLow_keeps | apply State.event_keeps
          | apply State.stopStart_keeps | apply State.each_keeps | apply State.fallRail_keeps | simp only [keeps_mk]
          | apply foldl_keeps | split | dsimp only

theorem State.offRelease_keeps {s t : State} (h : Keeps s t) : Keeps s (State.offRelease t) := by
  unfold State.offRelease
  with_reducible repeat'
    first | intro _ | assumption | apply Keeps.ite | simp only [keeps_mk] | apply foldl_keeps | split | dsimp only

theorem State.railDown_keeps {s t : State} (n : Nat) (h : Keeps s t) : Keeps s (State.railDown t n) := by
  unfold State.railDown
  with_reducible repeat'
    first | intro _ | assumption | apply Keeps.ite | apply State.setRail_keeps | apply State.revNext_keeps
          | simp only [keeps_mk] | apply foldl_keeps | split | dsimp only

theorem State.seqTakeover_keeps {s t : State} (warm : Bool) (h : Keeps s t) : Keeps s (State.seqTakeover t warm) := by
  unfold State.seqTakeover
  with_reducible repeat'
    first | intro _ | assumption | apply Keeps.ite | apply State.each_keeps | apply State.setEn_keeps
          | apply State.setRail_keeps | apply State.flag_keeps | simp only [keeps_mk] | apply foldl_keeps | split
          | dsimp only

theorem State.seqPour_keeps {s t : State} (h : Keeps s t) : Keeps s (State.seqPour t) := by
  unfold State.seqPour
  with_reducible repeat'
    first | intro _ | assumption | apply Keeps.ite | apply State.each_keeps | apply State.setRail_keeps
          | apply State.iff_keeps | apply State.wr_keeps | simp only [keeps_mk] | apply foldl_keeps | split | dsimp only

theorem State.seqRest_keeps {s t : State} (h : Keeps s t) : Keeps s (State.seqRest t) := by
  unfold State.seqRest
  with_reducible repeat'
    first | intro _ | assumption | apply Keeps.ite | apply State.hostResetLow_keeps | apply State.wr_keeps
          | simp only [keeps_mk] | apply foldl_keeps | split | dsimp only

theorem State.doSeqClear_keeps {s t : State} (h : Keeps s t) : Keeps s (State.doSeqClear t) := by
  unfold State.doSeqClear
  with_reducible repeat'
    first | intro _ | assumption | apply Keeps.ite | apply State.wr_keeps | apply State.each_keeps
          | apply State.setRail_keeps | apply State.rearmPads_keeps | apply State.event_keeps | simp only [keeps_mk]
          | apply foldl_keeps | split | dsimp only

theorem State.endQuarantine_keeps {s t : State} (j : Nat) (h : Keeps s t) : Keeps s (State.endQuarantine t j) := by
  unfold State.endQuarantine
  with_reducible repeat'
    first | intro _ | assumption | apply Keeps.ite | apply State.setSrc_keeps | apply State.event_keeps
          | simp only [keeps_mk] | apply foldl_keeps | split | dsimp only

theorem State.endShake_keeps {s t : State} (h : Keeps s t) : Keeps s (State.endShake t) := by
  unfold State.endShake
  with_reducible repeat'
    first | intro _ | assumption | apply Keeps.ite | apply State.wr_keeps | simp only [keeps_mk] | apply foldl_keeps
          | split | dsimp only

theorem State.abandonCommit_keeps {s t : State} (h : Keeps s t) : Keeps s (State.abandonCommit t) := by
  unfold State.abandonCommit
  with_reducible repeat'
    first | intro _ | assumption | apply Keeps.ite | apply State.setCopy_keeps | apply State.iff_keeps
          | apply State.bumpBy_keeps | apply State.freeNext_keeps | apply State.wr_keeps | apply State.flag_keeps
          | apply State.event_keeps | simp only [keeps_mk] | apply foldl_keeps | split | dsimp only

theorem State.endWrites_keeps {s t : State} (h : Keeps s t) : Keeps s (State.endWrites t) := by
  unfold State.endWrites
  with_reducible repeat'
    first | intro _ | assumption | apply Keeps.ite | simp only [keeps_mk] | apply foldl_keeps | split | dsimp only

theorem State.stopDist_keeps {s t : State} (result : Nat) (reading : Nat) (h : Keeps s t) : Keeps s (State.stopDist t
    result reading) := by
  unfold State.stopDist
  with_reducible repeat'
    first | intro _ | assumption | apply Keeps.ite | apply State.wr_keeps | simp only [keeps_mk] | apply foldl_keeps
          | split | dsimp only

theorem State.erasePour_keeps {s t : State} (h : Keeps s t) : Keeps s (State.erasePour t) := by
  unfold State.erasePour
  with_reducible repeat'
    first | intro _ | assumption | apply Keeps.ite | apply State.wr_keeps | simp only [keeps_mk] | apply foldl_keeps
          | split | dsimp only

theorem State.pourPads_keeps {s t : State} (h : Keeps s t) : Keeps s (State.pourPads t) := by
  unfold State.pourPads
  with_reducible repeat'
    first | intro _ | assumption | apply Keeps.ite | apply State.seqPour_keeps | simp only [keeps_mk]
          | apply foldl_keeps | split | dsimp only

theorem State.pourB4_keeps {s t : State} (h : Keeps s t) : Keeps s (State.pourB4 t) := by
  unfold State.pourB4
  with_reducible repeat'
    first | intro _ | assumption | apply Keeps.ite | apply State.feedsB4_keeps | apply State.holdupB4_keeps
          | simp only [keeps_mk] | apply foldl_keeps | split | dsimp only

theorem State.pourEnds_keeps {s t : State} (h : Keeps s t) : Keeps s (State.pourEnds t) := by
  unfold State.pourEnds
  with_reducible repeat'
    first | intro _ | assumption | apply Keeps.ite | apply State.abortRec_keeps | apply State.dropReport_keeps
          | apply State.abandonCommit_keeps | apply State.endWrites_keeps | apply State.endQuarantine_keeps
          | apply State.erasePour_keeps | apply State.fwPour_keeps | apply State.endShake_keeps
          | apply State.endScans_keeps | apply State.stopDist_keeps | apply State.wr_keeps
          | apply State.refreshBus_keeps | apply State.linkEnable_keeps | apply State.linkWake_keeps
          | simp only [keeps_mk] | apply foldl_keeps | split | dsimp only

theorem State.drainReset_keeps {s t : State} (code : Nat) (h : Keeps s t) : Keeps s (State.drainReset t code) := by
  unfold State.drainReset
  with_reducible repeat'
    first | intro _ | assumption | apply Keeps.ite | apply State.hostResetLow_keeps | apply State.flag_keeps
          | apply State.bump_keeps | apply State.event_keeps | simp only [keeps_mk] | apply foldl_keeps | split
          | dsimp only

theorem State.dropDross_keeps {s t : State} (st : Nat) (h : Keeps s t) : Keeps s (State.dropDross t st) := by
  unfold State.dropDross
  with_reducible repeat'
    first | intro _ | assumption | apply Keeps.ite | apply State.wr_keeps | apply State.bumpBy_keeps
          | apply State.flag_keeps | simp only [keeps_mk] | apply foldl_keeps | split | dsimp only

theorem State.takeHeat_keeps {s t : State} (h : Keeps s t) : Keeps s (State.takeHeat t) := by
  unfold State.takeHeat
  with_reducible repeat'
    first | intro _ | assumption | apply Keeps.ite | apply State.bump_keeps | apply State.wr_keeps
          | apply State.flag_keeps | apply State.event_keeps | simp only [keeps_mk] | apply foldl_keeps | split
          | dsimp only

theorem State.beginSeal_keeps {s t : State} (h : Keeps s t) : Keeps s (State.beginSeal t) := by
  unfold State.beginSeal
  with_reducible repeat'
    first | intro _ | assumption | apply Keeps.ite | apply State.wr_keeps | apply State.each_keeps
          | apply State.dropDross_keeps | apply State.refreshFill_keeps | apply State.refreshMirrored_keeps
          | apply State.takeHeat_keeps | apply State.pump_keeps | simp only [keeps_mk] | apply foldl_keeps | split
          | dsimp only

theorem State.flushCheck_keeps {s t : State} (h : Keeps s t) : Keeps s (State.flushCheck t) := by
  unfold State.flushCheck
  with_reducible repeat'
    first | intro _ | assumption | apply Keeps.ite | apply State.beginSeal_keeps | simp only [keeps_mk]
          | apply foldl_keeps | split | dsimp only

theorem State.endDrain_keeps {s t : State} (code : Nat) (h : Keeps s t) : Keeps s (State.endDrain t code) := by
  unfold State.endDrain
  with_reducible repeat'
    first | intro _ | assumption | apply Keeps.ite | apply State.drain_keeps | apply State.wr_keeps
          | apply State.flag_keeps | apply State.event_keeps | apply State.drainReset_keeps
          | apply State.refreshOpen_keeps | apply State.offRelease_keeps | apply State.pump_keeps
          | apply State.flushCheck_keeps | simp only [keeps_mk] | apply foldl_keeps | split | dsimp only

theorem State.sealDurable_keeps {s t : State} (x : Seal) (page : Nat) (h : Keeps s t) : Keeps s (State.sealDurable t x
    page) := by
  unfold State.sealDurable
  with_reducible repeat'
    first | intro _ | assumption | apply Keeps.ite | apply State.wr_keeps | apply State.bump_keeps
          | apply State.event_keeps | apply State.statusIfChanged_keeps | simp only [keeps_mk] | apply foldl_keeps
          | split | dsimp only

theorem State.abandonSeal_keeps {s t : State} (h : Keeps s t) : Keeps s (State.abandonSeal t) := by
  unfold State.abandonSeal
  with_reducible repeat'
    first | intro _ | assumption | apply Keeps.ite | apply State.drain_keeps | apply State.flag_keeps
          | simp only [keeps_mk] | apply foldl_keeps | split | dsimp only

theorem State.landPage_keeps {s t : State} (p : Page) (torn : Bool) (h : Keeps s t) : Keeps s (State.landPage t p torn)
    := by
  unfold State.landPage
  with_reducible repeat'
    first | intro _ | assumption | apply Keeps.ite | apply State.setBlk_keeps | simp only [keeps_mk] | apply foldl_keeps
          | split | dsimp only

theorem State.storeOff_keeps {s t : State} (h : Keeps s t) : Keeps s (State.storeOff t) := by
  unfold State.storeOff
  with_reducible repeat'
    first | intro _ | assumption | apply Keeps.ite | apply State.each_keeps | apply State.landPage_keeps
          | apply State.wr_keeps | simp only [keeps_mk] | apply foldl_keeps | split | dsimp only

theorem State.pourEnd_keeps {s t : State} (h : Keeps s t) : Keeps s (State.pourEnd t) := by
  unfold State.pourEnd
  with_reducible repeat'
    first | intro _ | assumption | apply Keeps.ite | apply State.abandonSeal_keeps | apply State.holdupFree_keeps
          | apply State.wr_keeps | apply State.linkDisable_keeps | apply State.seqRest_keeps
          | apply State.storeOff_keeps | apply State.resumeDf_keeps | apply State.event_keeps
          | apply State.flushLog_keeps | apply State.refreshOpen_keeps | simp only [keeps_mk] | apply foldl_keeps
          | split | dsimp only

theorem State.offCheck_keeps {s t : State} (h : Keeps s t) : Keeps s (State.offCheck t) := by
  unfold State.offCheck
  with_reducible repeat'
    first | intro _ | assumption | apply Keeps.ite | apply State.pourEnd_keeps | simp only [keeps_mk]
          | apply foldl_keeps | split | dsimp only

theorem State.acceptPour_keeps {s t : State} (cause : Nat) (h : Keeps s t) : Keeps s (State.acceptPour t cause) := by
  unfold State.acceptPour
  with_reducible repeat'
    first | intro _ | assumption | apply Keeps.ite | apply State.iff_keeps | apply State.flag_keeps
          | apply State.wr_keeps | apply State.drain_keeps | apply State.wrI_keeps | apply State.bump_keeps
          | apply State.pourPads_keeps | apply State.event_keeps | apply State.pourB4_keeps | apply State.pourEnds_keeps
          | apply State.propagatePour_keeps | apply State.assignHeat_keeps | apply State.refreshOpen_keeps
          | apply State.statusIfChanged_keeps | apply State.endDrain_keeps | simp only [keeps_mk] | apply foldl_keeps
          | split | dsimp only

theorem State.joinPour_keeps {s t : State} (cause : Nat) (h : Keeps s t) : Keeps s (State.joinPour t cause) := by
  unfold State.joinPour
  with_reducible repeat'
    first | intro _ | assumption | apply Keeps.ite | apply State.wr_keeps | apply State.retell_keeps
          | simp only [keeps_mk] | apply foldl_keeps | split | dsimp only

theorem State.trigger_keeps {s t : State} (cause : Nat) (h : Keeps s t) : Keeps s (State.trigger t cause) := by
  unfold State.trigger
  with_reducible repeat'
    first | intro _ | assumption | apply Keeps.ite | apply State.flag_keeps | apply State.event_keeps
          | apply State.joinPour_keeps | apply State.wr_keeps | apply State.acceptPour_keeps | simp only [keeps_mk]
          | apply foldl_keeps | split | dsimp only

theorem State.assertB2_keeps {s t : State} (h : Keeps s t) : Keeps s (State.assertB2 t) := by
  unfold State.assertB2
  with_reducible repeat'
    first | intro _ | assumption | apply Keeps.ite | simp only [keeps_mk] | apply foldl_keeps | split | dsimp only

theorem State.b2Trigger_keeps {s t : State} (cause : Nat) (h : Keeps s t) : Keeps s (State.b2Trigger t cause) := by
  unfold State.b2Trigger
  with_reducible repeat'
    first | intro _ | assumption | apply Keeps.ite | apply State.assertB2_keeps | apply State.trigger_keeps
          | simp only [keeps_mk] | apply foldl_keeps | split | dsimp only

theorem State.b2Other_keeps {s t : State} (h : Keeps s t) : Keeps s (State.b2Other t) := by
  unfold State.b2Other
  with_reducible repeat'
    first | intro _ | assumption | apply Keeps.ite | apply State.assertB2_keeps | apply State.iff_keeps
          | apply State.trigger_keeps | simp only [keeps_mk] | apply foldl_keeps | split | dsimp only

end Sys2Proof.Machine
end

