-- ==== Sys2Proof/Laws/KeepsCmds.lean ====
section
/-! SUPPORT. What the operations that the commands of one chapter share keep: one lemma each. -/
set_option linter.unusedVariables false
set_option linter.unusedSimpArgs false
namespace Sys2Proof.Machine

theorem State.eraseIntent_keeps {s t : State} (k : Nat) (count : Nat) (reason : Nat) (row : Nat) (h : Keeps s t) : Keeps
    s (State.eraseIntent t k count reason row) := by
  unfold State.eraseIntent
  with_reducible repeat'
    first | intro _ | assumption | apply Keeps.ite | apply State.eventSev_keeps | apply State.count_keeps
          | simp only [keeps_mk] | apply foldl_keeps | split | dsimp only

theorem State.eraseCompletion_keeps {s t : State} (k : Nat) (count : Nat) (reason : Nat) (outcome : Nat) (row : Nat) (h
    : Keeps s t) : Keeps s (State.eraseCompletion t k count reason outcome row) := by
  unfold State.eraseCompletion
  with_reducible repeat'
    first | intro _ | assumption | apply Keeps.ite | apply State.eventSev_keeps | apply State.count_keeps
          | simp only [keeps_mk] | apply foldl_keeps | split | dsimp only

theorem State.settleErase_keeps {s t : State} (k : Nat) (count : Nat) (reason : Nat) (outcome : Nat) (h : Keeps s t) :
    Keeps s (State.settleErase t k count reason outcome) := by
  unfold State.settleErase
  with_reducible repeat'
    first | intro _ | assumption | apply Keeps.ite | apply State.bump_keeps | apply State.eraseCompletion_keeps
          | apply State.count_keeps | apply State.setBlk_keeps | apply State.flag_keeps | apply State.growBad_keeps
          | simp only [keeps_mk] | apply foldl_keeps | split | dsimp only

theorem State.reErase_keeps {s t : State} (half : Bool) (outcome : Nat) (k : Nat) (count : Nat) (h : Keeps s t) : Keeps
    s (State.reErase t half outcome k count) := by
  unfold State.reErase
  with_reducible repeat'
    first | intro _ | assumption | apply Keeps.ite | apply State.iff_keeps | apply State.bump_keeps
          | apply State.flag_keeps | apply State.event_keeps | apply State.settleErase_keeps | apply State.count_keeps
          | simp only [keeps_mk] | apply foldl_keeps | split | dsimp only

theorem State.scanPage_keeps {s t : State} (p : Page) (h : Keeps s t) : Keeps s (State.scanPage t p) := by
  unfold State.scanPage
  with_reducible repeat'
    first | intro _ | assumption | apply Keeps.ite | apply State.landPage_keeps | apply State.wr_keeps
          | apply State.bump_keeps | simp only [keeps_mk] | apply foldl_keeps | split | dsimp only

theorem State.closeFound_keeps {s t : State} (row : Nat) (h : Keeps s t) : Keeps s (State.closeFound t row) := by
  unfold State.closeFound
  with_reducible repeat'
    first | intro _ | assumption | apply Keeps.ite | apply State.each_keeps | apply State.scanPage_keeps
          | apply State.count_keeps | apply State.bump_keeps | simp only [keeps_mk] | apply foldl_keeps | split
          | dsimp only

theorem State.loadStream_keeps {s t : State} (st : Nat) (f : Found) (dross : Option Nat) (h : Keeps s t) : Keeps s
    (State.loadStream t st f dross) := by
  unfold State.loadStream
  with_reducible repeat'
    first | intro _ | assumption | apply Keeps.ite | apply State.wr_keeps | simp only [keeps_mk] | apply foldl_keeps
          | split | dsimp only

theorem State.recoverSeal_keeps {s t : State} (h : Keeps s t) : Keeps s (State.recoverSeal t) := by
  unfold State.recoverSeal
  with_reducible repeat'
    first | intro _ | assumption | apply Keeps.ite | apply State.wr_keeps | apply State.newPage_keeps
          | apply State.landPage_keeps | apply State.bump_keeps | apply State.flag_keeps | apply State.event_keeps
          | (refine State.writeSum_keeps (by assumption) ?_) | simp only [keeps_mk] | apply foldl_keeps | split
          | dsimp only

theorem State.loadSeqs_keeps {s t : State} (h : Keeps s t) : Keeps s (State.loadSeqs t) := by
  unfold State.loadSeqs
  with_reducible repeat'
    first | intro _ | assumption | apply Keeps.ite | apply State.wr_keeps | simp only [keeps_mk] | apply foldl_keeps
          | split | dsimp only

theorem State.loadCast_keeps {s t : State} (h : Keeps s t) : Keeps s (State.loadCast t) := by
  unfold State.loadCast
  with_reducible repeat'
    first | intro _ | assumption | apply Keeps.ite | apply State.wr_keeps | apply State.each_keeps
          | simp only [keeps_mk] | apply foldl_keeps | split | dsimp only

theorem State.rebuild_keeps {s t : State} (h : Keeps s t) : Keeps s (State.rebuild t) := by
  unfold State.rebuild
  with_reducible repeat'
    first | intro _ | assumption | apply Keeps.ite | apply State.each_keeps | apply State.loadStream_keeps
          | apply State.refreshMirrored_keeps | simp only [keeps_mk] | apply foldl_keeps | split | dsimp only

theorem State.prepareOne_keeps {s t : State} (outcome : Nat) (pos : Nat) (h : Keeps s t) : Keeps s (State.prepareOne t
    outcome pos) := by
  unfold State.prepareOne
  with_reducible repeat'
    first | intro _ | assumption | apply Keeps.ite | apply State.eraseIntent_keeps | apply State.settleErase_keeps
          | simp only [keeps_mk] | apply foldl_keeps | split | dsimp only

theorem State.unusable_keeps {s t : State} (result : Nat) (h : Keeps s t) : Keeps s (State.unusable t result) := by
  unfold State.unusable
  with_reducible repeat'
    first | intro _ | assumption | apply Keeps.ite | apply State.wr_keeps | apply State.event_keeps
          | apply State.stopStart_keeps | simp only [keeps_mk] | apply foldl_keeps | split | dsimp only

theorem State.queueGarbage_keeps {s t : State} (h : Keeps s t) : Keeps s (State.queueGarbage t) := by
  unfold State.queueGarbage
  with_reducible repeat'
    first | intro _ | assumption | apply Keeps.ite | simp only [keeps_mk] | apply foldl_keeps | split | dsimp only

theorem State.scanEnd_keeps {s t : State} (dies : Nat) (maps : Bool) (half : Bool) (outcome : Nat) (us : Nat) (h : Keeps
    s t) : Keeps s (State.scanEnd t dies maps half outcome us) := by
  unfold State.scanEnd
  with_reducible repeat'
    first | intro _ | assumption | apply Keeps.ite | apply State.wr_keeps | apply State.each_keeps
          | apply State.unusable_keeps | apply State.reErase_keeps | apply State.loadSeqs_keeps
          | apply State.queueGarbage_keeps | apply State.closeFound_keeps | apply State.loadCast_keeps
          | apply State.prepareOne_keeps | apply State.openRow_keeps | apply State.recoverSeal_keeps
          | apply State.rebuild_keeps | apply State.wornCheck_keeps | apply State.queueMap_keeps
          | apply State.pump_keeps | simp only [keeps_mk] | apply foldl_keeps | split | dsimp only

theorem State.cutFlash_keeps {s t : State} (h : Keeps s t) : Keeps s (State.cutFlash t) := by
  unfold State.cutFlash
  with_reducible repeat'
    first | intro _ | assumption | apply Keeps.ite | apply State.tearSector_keeps | apply State.setCopy_keeps
          | apply State.cutWrite_keeps | apply State.cutErase_keeps | simp only [keeps_mk] | apply foldl_keeps | split
          | dsimp only

theorem State.cutStore_keeps {s t : State} (warm : Bool) (h : Keeps s t) : Keeps s (State.cutStore t warm) := by
  unfold State.cutStore
  with_reducible repeat'
    first | intro _ | assumption | apply Keeps.ite | apply State.each_keeps | apply State.landPage_keeps
          | apply State.setBlk_keeps | simp only [keeps_mk] | apply foldl_keeps | split | dsimp only

theorem State.resetLogic_keeps {s t : State} (warm : Bool) (cause : Nat) (held : Bool) (h : Keeps s t) : Keeps s
    (State.resetLogic t warm cause held) := by
  unfold State.resetLogic
  extract_lets u _ v latch failed _ w
  have hu : Keeps s u := State.cutStore_keeps _ (State.cutFlash_keeps h)
  have hv : Keeps s v := Keeps.ite (State.holdupFree_keeps (keeps_mk.2 hu)) hu
  have hw : Keeps s w := by
    refine ⟨hv.1, fun hi => ?_⟩
    have := hv.2 hi
    simp only [State.inv, State.regsOk, State.ticsOk, Bool.and_eq_true, w] at this ⊢
    exact ⟨⟨by decide, regTableOk_filter _ this.1.2⟩, rfl, this.2.2⟩
  exact State.wr_keeps _ _ (State.wr_keeps _ _ (State.wr_keeps _ _ (State.wr_keeps _ _ hw)))

theorem State.warmReset_keeps {s t : State} (cause : Nat) (held : Bool) (h : Keeps s t) : Keeps s (State.warmReset t
    cause held) := by
  unfold State.warmReset
  with_reducible repeat'
    first | intro _ | assumption | apply Keeps.ite | apply State.flushLog_keeps | apply State.resetLogic_keeps
          | simp only [keeps_mk] | apply foldl_keeps | split | dsimp only

theorem State.restExit_keeps {s t : State} (reason : Nat) (h : Keeps s t) : Keeps s (State.restExit t reason) := by
  unfold State.restExit
  with_reducible repeat'
    first | intro _ | assumption | apply Keeps.ite | apply State.bump_keeps | apply State.event_keeps
          | apply State.warmReset_keeps | simp only [keeps_mk] | apply foldl_keeps | split | dsimp only

theorem State.scanRing_keeps {s t : State} (h : Keeps s t) : Keeps s (State.scanRing t) := by
  unfold State.scanRing
  with_reducible repeat'
    first | intro _ | assumption | apply Keeps.ite | apply State.wr_keeps | apply State.boot_keeps
          | apply State.iff_keeps | apply State.flag_keeps | simp only [keeps_mk] | apply foldl_keeps | split
          | dsimp only

theorem State.bootCycles_keeps {s t : State} (h : Keeps s t) : Keeps s (State.bootCycles t) := by
  unfold State.bootCycles
  split
  · exact h
  · exact Keeps.ite (h.clk rfl rfl rfl id) h

theorem State.bootFollower_keeps {s t : State} (h : Keeps s t) : Keeps s (State.bootFollower t) := by
  unfold State.bootFollower
  exact Keeps.ite h (State.wr_keeps _ _ (h.clk rfl rfl rfl id))

theorem State.bootHeats_keeps {s t : State} (h : Keeps s t) : Keeps s (State.bootHeats t) := by
  unfold State.bootHeats
  with_reducible repeat'
    first | intro _ | assumption | apply Keeps.ite | apply State.wr_keeps | apply State.refreshSums_keeps
          | simp only [keeps_mk] | apply foldl_keeps | split | dsimp only

theorem State.boot_keeps {s t : State} (straps : Nat) (tmode : Bool) (h : Keeps s t) : Keeps s (State.boot t straps
    tmode) := by
  unfold State.boot
  with_reducible repeat'
    first | intro _ | assumption | apply Keeps.ite | apply State.wr_keeps | apply State.romBoot_keeps
          | apply State.scanRing_keeps | apply State.bootCycles_keeps | apply State.bootFollower_keeps
          | apply State.event_keeps | apply State.bootHeats_keeps | apply State.bootCaps_keeps
          | apply State.noteFallback_keeps | simp only [keeps_mk] | apply foldl_keeps | split | dsimp only

theorem State.endSummary_keeps {s t : State} (h : Keeps s t) : Keeps s (State.endSummary t) := by
  unfold State.endSummary
  with_reducible repeat'
    first | intro _ | assumption | apply Keeps.ite | apply State.wr_keeps | apply State.offRelease_keeps
          | simp only [keeps_mk] | apply foldl_keeps | split | dsimp only

theorem State.summaryFailed_keeps {s t : State} (h : Keeps s t) : Keeps s (State.summaryFailed t) := by
  unfold State.summaryFailed
  with_reducible repeat'
    first | intro _ | assumption | apply Keeps.ite | apply State.flag_keeps | apply State.event_keeps
          | simp only [keeps_mk] | apply foldl_keeps | split | dsimp only

theorem State.sendAck_keeps {s t : State} (h : Keeps s t) : Keeps s (State.sendAck t) := by
  unfold State.sendAck
  with_reducible repeat'
    first | intro _ | assumption | apply Keeps.ite | apply State.ackOut_keeps | simp only [keeps_mk] | apply foldl_keeps
          | split | dsimp only

theorem State.sendNak_keeps {s t : State} (reason : Nat) (h : Keeps s t) : Keeps s (State.sendNak t reason) := by
  unfold State.sendNak
  with_reducible repeat'
    first | intro _ | assumption | apply Keeps.ite | apply State.ackOut_keeps | apply State.bump_keeps
          | simp only [keeps_mk] | apply foldl_keeps | split | dsimp only

theorem State.pushRx_keeps {s t : State} (ty : Nat) (stream : Nat) (p : List Nat) (h : Keeps s t) : Keeps s
    (State.pushRx t ty stream p) := by
  unfold State.pushRx
  with_reducible repeat'
    first | intro _ | assumption | apply Keeps.ite | simp only [keeps_mk] | apply foldl_keeps | split | dsimp only

theorem State.noteCtrl_keeps {s t : State} (tag : Nat) (op : Nat) (fate : Nat) (h : Keeps s t) : Keeps s (State.noteCtrl
    t tag op fate) := by
  unfold State.noteCtrl
  with_reducible repeat'
    first | intro _ | assumption | apply Keeps.ite | apply State.wr_keeps | simp only [keeps_mk] | apply foldl_keeps
          | split | dsimp only

theorem State.rxContents_keeps {s t : State} (ty : Nat) (seqw : Nat) (flags : Nat) (len : Nat) (p : List Nat) (h : Keeps
    s t) : Keeps s (State.rxContents t ty seqw flags len p) := by
  unfold State.rxContents
  with_reducible repeat'
    first | intro _ | assumption | apply Keeps.ite | apply State.llViolation_keeps | apply State.iff_keeps
          | apply State.linkRequest_keeps | apply State.noteCtrl_keeps | apply State.replyAbort_keeps
          | apply State.pushRx_keeps | simp only [keeps_mk] | apply foldl_keeps | split | dsimp only

theorem State.acceptFrame_keeps {s t : State} (h : Keeps s t) : Keeps s (State.acceptFrame t) := by
  unfold State.acceptFrame
  with_reducible repeat'
    first | intro _ | assumption | apply Keeps.ite | apply State.wr_keeps | apply State.sendAck_keeps
          | simp only [keeps_mk] | apply foldl_keeps | split | dsimp only

theorem State.takeFrame_keeps {s t : State} (b : List Nat) (h : Keeps s t) : Keeps s (State.takeFrame t b) := by
  unfold State.takeFrame
  with_reducible repeat'
    first | intro _ | assumption | apply Keeps.ite | apply State.bump_keeps | apply State.llViolation_keeps
          | apply State.sendNak_keeps | apply State.rxContents_keeps | apply State.acceptFrame_keeps
          | apply State.sendAck_keeps | simp only [keeps_mk] | apply foldl_keeps | split | dsimp only

theorem State.takeRx_keeps {s t u : State} {c : RxFrame → Bool} {f : RxFrame} (e : t.takeRx c = some (f, u)) (h : Keeps
    s t) :
    Keeps s u := by
  unfold State.takeRx at e
  split at e
  · split at e
    · simp only [Option.some.injEq, Prod.mk.injEq] at e
      obtain ⟨-, rfl⟩ := e
      exact keeps_mk.2 h
    · contradiction
  · contradiction

theorem State.takeAny_keeps {s t u : State} {c : RxFrame → Bool} {f : RxFrame} (e : t.takeAny c = some (f, u)) (h :
    Keeps s t) :
    Keeps s u := by
  unfold State.takeAny at e
  split at e
  · simp only [Option.some.injEq, Prod.mk.injEq] at e
    obtain ⟨-, rfl⟩ := e
    exact keeps_mk.2 h
  · contradiction

theorem State.releaseStream_keeps {s t : State} (st : Nat) (h : Keeps s t) : Keeps s (State.releaseStream t st) := by
  unfold State.releaseStream
  with_reducible repeat'
    first | intro _ | assumption | apply Keeps.ite | apply State.flag_keeps | apply State.wr_keeps
          | apply State.refreshOpen_keeps | simp only [keeps_mk] | apply foldl_keeps | split | dsimp only

theorem State.frameAcked_keeps {s t : State} (f : TxFrame) (h : Keeps s t) : Keeps s (State.frameAcked t f) := by
  unfold State.frameAcked
  with_reducible repeat'
    first | intro _ | assumption | apply Keeps.ite | apply State.wr_keeps | apply State.releaseStream_keeps
          | simp only [keeps_mk] | apply foldl_keeps | split | dsimp only

theorem State.freeTo_keeps {s t : State} (a : Nat) (h : Keeps s t) : Keeps s (State.freeTo t a) := by
  unfold State.freeTo
  with_reducible repeat'
    first | intro _ | assumption | apply Keeps.ite | apply State.wr_keeps | apply State.each_keeps
          | apply State.frameAcked_keeps | apply State.llPump_keeps | simp only [keeps_mk] | apply foldl_keeps | split
          | dsimp only

theorem State.startReplay_keeps {s t : State} (h : Keeps s t) : Keeps s (State.startReplay t) := by
  unfold State.startReplay
  with_reducible repeat'
    first | intro _ | assumption | apply Keeps.ite | apply State.flag_keeps | apply State.bump_keeps
          | apply State.event_keeps | apply State.linkRequest_keeps | simp only [keeps_mk] | apply foldl_keeps | split
          | dsimp only

theorem State.unlock_keeps {s t : State} (p : Nat) (h : Keeps s t) : Keeps s (State.unlock t p) := by
  unfold State.unlock
  with_reducible repeat'
    first | intro _ | assumption | apply Keeps.ite | apply State.setLane_keeps | apply State.clearBits_keeps
          | simp only [keeps_mk] | apply foldl_keeps | split | dsimp only

theorem State.notePartner_keeps {s t : State} (b : List Nat) (h : Keeps s t) : Keeps s (State.notePartner t b) := by
  unfold State.notePartner
  with_reducible repeat'
    first | intro _ | assumption | apply Keeps.ite | apply State.wr_keeps | simp only [keeps_mk] | apply foldl_keeps
          | split | dsimp only

theorem State.countSet_keeps {s t : State} (p : Nat) (b : List Nat) (h : Keeps s t) : Keeps s (State.countSet t p b) :=
    by
  unfold State.countSet
  with_reducible repeat'
    first | intro _ | assumption | apply Keeps.ite | apply State.setLane_keeps | simp only [keeps_mk]
          | apply foldl_keeps | split | dsimp only

theorem State.checkEchoes_keeps {s t : State} (h : Keeps s t) : Keeps s (State.checkEchoes t) := by
  unfold State.checkEchoes
  with_reducible repeat'
    first | intro _ | assumption | apply Keeps.ite | apply State.wr_keeps | apply State.flag_keeps
          | apply State.each_keeps | apply State.setLane_keeps | simp only [keeps_mk] | apply foldl_keeps | split
          | dsimp only

theorem State.roleConflict_keeps {s t : State} (p : Nat) (h : Keeps s t) : Keeps s (State.roleConflict t p) := by
  unfold State.roleConflict
  with_reducible repeat'
    first | intro _ | assumption | apply Keeps.ite | apply State.phyViolation_keeps | apply State.flag_keeps
          | apply State.event_keeps | simp only [keeps_mk] | apply foldl_keeps | split | dsimp only

theorem State.badSet_keeps {s t : State} (p : Nat) (h : Keeps s t) : Keeps s (State.badSet t p) := by
  unfold State.badSet
  with_reducible repeat'
    first | intro _ | assumption | apply Keeps.ite | apply State.setLane_keeps | simp only [keeps_mk]
          | apply foldl_keeps | split | dsimp only

theorem State.invert_keeps {s t : State} (p : Nat) (h : Keeps s t) : Keeps s (State.invert t p) := by
  unfold State.invert
  with_reducible repeat'
    first | intro _ | assumption | apply Keeps.ite | apply State.setLane_keeps | apply State.flag_keeps
          | apply State.event_keeps | simp only [keeps_mk] | apply foldl_keeps | split | dsimp only

theorem State.takeSet_keeps {s t : State} (p : Nat) (b : List Nat) (h : Keeps s t) : Keeps s (State.takeSet t p b) := by
  unfold State.takeSet
  with_reducible repeat'
    first | intro _ | assumption | apply Keeps.ite | apply State.badSet_keeps | apply State.invert_keeps
          | apply State.phyViolation_keeps | apply State.roleConflict_keeps | apply State.fastRetrain_keeps
          | apply State.notePartner_keeps | apply State.countSet_keeps | apply State.wr_keeps
          | apply State.checkEchoes_keeps | simp only [keeps_mk] | apply foldl_keeps | split | dsimp only

theorem State.placeLanes_keeps {s t : State} (w : Nat) (h : Keeps s t) : Keeps s (State.placeLanes t w) := by
  unfold State.placeLanes
  with_reducible repeat'
    first | intro _ | assumption | apply Keeps.ite | apply State.each_keeps | apply State.wr_keeps
          | apply State.clearBits_keeps | apply State.flag_keeps | simp only [keeps_mk] | apply foldl_keeps | split
          | dsimp only

theorem State.enterRateChange_keeps {s t : State} (r : Nat) (w : Nat) (h : Keeps s t) : Keeps s (State.enterRateChange t
    r w) := by
  unfold State.enterRateChange
  with_reducible repeat'
    first | intro _ | assumption | apply Keeps.ite | apply State.placeLanes_keeps | apply State.clearSets_keeps
          | apply State.wr_keeps | simp only [keeps_mk] | apply foldl_keeps | split | dsimp only

theorem State.misnumbered_keeps {s t : State} (p : Nat) (h : Keeps s t) : Keeps s (State.misnumbered t p) := by
  unfold State.misnumbered
  with_reducible repeat'
    first | intro _ | assumption | apply Keeps.ite | apply State.flag_keeps | apply State.event_keeps
          | apply State.phyViolation_keeps | simp only [keeps_mk] | apply foldl_keeps | split | dsimp only

theorem State.dropStaleScans_keeps {s t : State} (h : Keeps s t) : Keeps s (State.dropStaleScans t) := by
  unfold State.dropStaleScans
  with_reducible repeat'
    first | intro _ | assumption | apply Keeps.ite | apply State.each_keeps | apply State.endScan_keeps
          | simp only [keeps_mk] | apply foldl_keeps | split | dsimp only

theorem State.enterBanked_keeps {s t : State} (h : Keeps s t) : Keeps s (State.enterBanked t) := by
  unfold State.enterBanked
  with_reducible repeat'
    first | intro _ | assumption | apply Keeps.ite | apply State.bump_keeps | apply State.wr_keeps
          | simp only [keeps_mk] | apply foldl_keeps | split | dsimp only

theorem State.bankRefused_keeps {s t : State} (h : Keeps s t) : Keeps s (State.bankRefused t) := by
  unfold State.bankRefused
  with_reducible repeat'
    first | intro _ | assumption | apply Keeps.ite | apply State.wr_keeps | simp only [keeps_mk] | apply foldl_keeps
          | split | dsimp only

theorem State.tickTaps_keeps {s t : State} (h : Keeps s t) : Keeps s (State.tickTaps t) := by
  unfold State.tickTaps
  with_reducible repeat'
    first | intro _ | assumption | apply Keeps.ite | apply State.iff_keeps | apply State.each_keeps
          | apply State.wr_keeps | simp only [keeps_mk] | apply foldl_keeps | split | dsimp only

theorem State.startScan_keeps {s t : State} (p : Nat) (kind : Nat) (hStep : Nat) (vStep : Nat) (dwell : Nat) (h : Keeps
    s t) : Keeps s (State.startScan t p kind hStep vStep dwell) := by
  unfold State.startScan
  with_reducible repeat'
    first | intro _ | assumption | apply Keeps.ite | apply State.setScan_keeps | apply State.wr_keeps
          | simp only [keeps_mk] | apply foldl_keeps | split | dsimp only

theorem State.tickEyes_keeps {s t : State} (h : Keeps s t) : Keeps s (State.tickEyes t) := by
  unfold State.tickEyes
  with_reducible repeat'
    first | intro _ | assumption | apply Keeps.ite | apply State.each_keeps | apply State.iff_keeps
          | apply State.bump_keeps | simp only [keeps_mk] | apply foldl_keeps | split | dsimp only

theorem State.commitErase_keeps {s t : State} (bank : Nat) (h : Keeps s t) : Keeps s (State.commitErase t bank) := by
  unfold State.commitErase
  with_reducible repeat'
    first | intro _ | assumption | apply Keeps.ite | apply State.setCopy_keeps | simp only [keeps_mk]
          | apply foldl_keeps | split | dsimp only

theorem State.commitErased_keeps {s t : State} (ok : Bool) (h : Keeps s t) : Keeps s (State.commitErased t ok) := by
  unfold State.commitErased
  with_reducible repeat'
    first | intro _ | assumption | apply Keeps.ite | apply State.bump_keeps | apply State.iff_keeps
          | apply State.resumeDf_keeps | apply State.flushLog_keeps | simp only [keeps_mk] | apply foldl_keeps | split
          | dsimp only

theorem State.esrResult_keeps {s t : State} (before : List Nat) (after : List Nat) (st0 : Nat) (st1 : Nat) (ma : Nat) (h
    : Keeps s t) : Keeps s (State.esrResult t before after st0 st1 ma) := by
  unfold State.esrResult
  with_reducible repeat'
    first | intro _ | assumption | apply Keeps.ite | apply State.each_keeps | apply State.wr_keeps
          | apply State.event_keeps | apply State.cellJudge_keeps | apply State.stackJudge_keeps
          | apply State.bump_keeps | simp only [keeps_mk] | apply foldl_keeps | split | dsimp only

theorem State.permitCharge_keeps {s t : State} (h : Keeps s t) : Keeps s (State.permitCharge t) := by
  unfold State.permitCharge
  with_reducible repeat'
    first | intro _ | assumption | apply Keeps.ite | apply State.wr_keeps | simp only [keeps_mk] | apply foldl_keeps
          | split | dsimp only

theorem State.dampDone_keeps {s t : State} (h : Keeps s t) : Keeps s (State.dampDone t) := by
  unfold State.dampDone
  with_reducible repeat'
    first | intro _ | assumption | apply Keeps.ite | apply State.queueCan_keeps | apply State.permitCharge_keeps
          | apply State.iff_keeps | apply State.flag_keeps | apply State.wr_keeps | simp only [keeps_mk]
          | apply foldl_keeps | split | dsimp only

theorem State.dampVerdict_keeps {s t : State} (h : Keeps s t) : Keeps s (State.dampVerdict t) := by
  unfold State.dampVerdict
  with_reducible repeat'
    first | intro _ | assumption | apply Keeps.ite | apply State.iff_keeps | apply State.bump_keeps
          | apply State.dampDone_keeps | apply State.flag_keeps | apply State.event_keeps | apply State.stopStart_keeps
          | simp only [keeps_mk] | apply foldl_keeps | split | dsimp only

theorem State.abandonCan_keeps {s t : State} (c : CanTx → Bool) (h : Keeps s t) : Keeps s (State.abandonCan t c) := by
  unfold State.abandonCan
  with_reducible repeat'
    first | intro _ | assumption | apply Keeps.ite | simp only [keeps_mk] | apply foldl_keeps | split | dsimp only

theorem State.onCas_keeps {s t : State} (fn : Nat) (node : Nat) (p : List Nat) (dirty : Bool) (f : State → State) (hf
    : ∀ u, Keeps s u → Keeps s (f u)) (h : Keeps s t) : Keeps s (State.onCas t fn node p dirty f) := by
  unfold State.onCas
  exact Keeps.ite (hf _ (State.casCheck_keeps _ _ _ _ h)) (State.casCheck_keeps _ _ _ _ h)

theorem State.heardAt_keeps {s t : State} (k : Nat) (sets : List (Nat × Nat)) (h : Keeps s t) : Keeps s (State.heardAt t
    k sets) := by
  unfold State.heardAt
  with_reducible repeat'
    first | intro _ | assumption | apply Keeps.ite | apply State.table_keeps | apply State.wr_keeps
          | apply State.each_keeps | simp only [keeps_mk] | apply foldl_keeps | split | dsimp only

theorem State.markHeard_keeps {s t : State} (k : Nat) (m : Member) (h : Keeps s t) : Keeps s (State.markHeard t k m) :=
    by
  unfold State.markHeard
  with_reducible repeat'
    first | intro _ | assumption | apply Keeps.ite | apply State.setMember_keeps | apply State.table_keeps
          | apply State.wr_keeps | apply State.iff_keeps | apply State.flag_keeps | apply State.refreshMaster_keeps
          | simp only [keeps_mk] | apply foldl_keeps | split | dsimp only

theorem State.pourCmdRx_keeps {s t : State} (node : Nat) (p : List Nat) (h : Keeps s t) : Keeps s (State.pourCmdRx t
    node p) := by
  unfold State.pourCmdRx
  with_reducible repeat'
    first | intro _ | assumption | apply Keeps.ite | apply State.casViolation_keeps | apply State.offerHeat_keeps
          | apply State.heardAt_keeps | apply State.bump_keeps | apply State.flag_keeps | apply State.trigger_keeps
          | simp only [keeps_mk] | apply foldl_keeps | split | dsimp only

theorem State.broadcastRx_keeps {s t : State} (node : Nat) (p : List Nat) (h : Keeps s t) : Keeps s (State.broadcastRx t
    node p) := by
  unfold State.broadcastRx
  with_reducible repeat'
    first | intro _ | assumption | apply Keeps.ite | apply State.casViolation_keeps | apply State.heardAt_keeps
          | simp only [keeps_mk] | apply foldl_keeps | split | dsimp only

theorem State.enqueueMember_keeps {s t : State} (r : LogRec) (h : Keeps s t) : Keeps s (State.enqueueMember t r) := by
  unfold State.enqueueMember
  with_reducible repeat'
    first | intro _ | assumption | apply Keeps.ite | apply State.dropRecord_keeps | simp only [keeps_mk]
          | apply foldl_keeps | split | dsimp only

theorem State.distNext_keeps {s t : State} (n : Nat) (h : Keeps s t) : Keeps s (State.distNext n t) := by
  induction n generalizing t with
  | zero => exact h
  | succ n ih =>
    unfold State.distNext
    repeat'
      first | with_reducible assumption | with_reducible apply Keeps.ite | with_reducible apply ih
            | with_reducible apply State.wr_keeps | simp only [keeps_mk] | split

theorem State.distResult_keeps {s t : State} (d : Dist) (result : Nat) (h : Keeps s t) : Keeps s (State.distResult t d
    result) := by
  unfold State.distResult
  with_reducible repeat'
    first | intro _ | assumption | apply Keeps.ite | apply State.wr_keeps | apply State.distNext_keeps
          | simp only [keeps_mk] | apply foldl_keeps | split | dsimp only

theorem State.distGo_keeps {s t : State} (d : Dist) (step : Nat) (addr : Nat) (h : Keeps s t) : Keeps s (State.distGo t
    d step addr) := by
  unfold State.distGo
  with_reducible repeat'
    first | intro _ | assumption | apply Keeps.ite | simp only [keeps_mk] | apply foldl_keeps | split | dsimp only

theorem State.distAnswer_keeps {s t : State} (d : Dist) (data : List Nat) (h : Keeps s t) : Keeps s (State.distAnswer t
    d data) := by
  unfold State.distAnswer
  with_reducible repeat'
    first | intro _ | assumption | apply Keeps.ite | apply State.unlock_keeps | apply State.distGo_keeps
          | apply State.distResult_keeps | apply State.setMember_keeps | simp only [keeps_mk] | apply foldl_keeps
          | split | dsimp only

theorem State.settingApplied_keeps {s t : State} (k : Nat) (v : Nat) (h : Keeps s t) : Keeps s (State.settingApplied t k
    v) := by
  unfold State.settingApplied
  with_reducible repeat'
    first | intro _ | assumption | apply Keeps.ite | apply State.refreshOpen_keeps | apply State.sendCmd_keeps
          | simp only [keeps_mk] | apply foldl_keeps | split | dsimp only

theorem State.writeSetting_keeps {s t : State} (k : Nat) (v : Nat) (h : Keeps s t) : Keeps s (State.writeSetting t k v)
    := by
  unfold State.writeSetting
  with_reducible repeat'
    first | intro _ | assumption | apply Keeps.ite | apply State.wr_keeps | apply State.settingApplied_keeps
          | simp only [keeps_mk] | apply foldl_keeps | split | dsimp only

theorem State.putSet_keeps {s t : State} (l : Table Nat) (h : Keeps s t) : Keeps s (State.putSet t l) := by
  unfold State.putSet
  extract_lets old kept reg u ch
  have hu : Keeps s u := by
    refine h.regs rfl (fun hh => ?_) id rfl
    have h0 : regTableOk kept = true := regTableOk_filter _ hh
    have : ∀ (l : Table Nat) (k : Table Nat), regTableOk k = true →
        regTableOk (l.foldl (fun t e => if old.rwiBusy e.1 then t else regSet t e.1 e.2) k) = true := by
      intro l
      induction l with
      | nil => exact fun _ hk => hk
      | cons e l ih =>
        intro k hk
        simp only [List.foldl_cons]
        refine ih _ ?_
        split
        · exact hk
        · exact regTableOk_regSet _ _ hk
    exact this l kept h0
  exact State.each_keeps _ _ (fun a w hw => State.settingApplied_keeps _ _ hw) (State.wr_keeps _ _ hu)

theorem State.beginCommit_keeps {s t : State} (h : Keeps s t) : Keeps s (State.beginCommit t) := by
  unfold State.beginCommit
  with_reducible repeat'
    first | intro _ | assumption | apply Keeps.ite | apply State.wr_keeps | simp only [keeps_mk] | apply foldl_keeps
          | split | dsimp only

theorem State.commitOver_keeps {s t : State} (h : Keeps s t) : Keeps s (State.commitOver t) := by
  unfold State.commitOver
  with_reducible repeat'
    first | intro _ | assumption | apply Keeps.ite | apply State.resumeDf_keeps | apply State.flushLog_keeps
          | simp only [keeps_mk] | apply foldl_keeps | split | dsimp only

theorem State.noteCopy_keeps {s t : State} (bank : Nat) (h : Keeps s t) : Keeps s (State.noteCopy t bank) := by
  unfold State.noteCopy
  with_reducible repeat'
    first | intro _ | assumption | apply Keeps.ite | apply State.wr_keeps | simp only [keeps_mk] | apply foldl_keeps
          | split | dsimp only

theorem State.reload_keeps {s t : State} (h : Keeps s t) : Keeps s (State.reload t) := by
  unfold State.reload
  with_reducible repeat'
    first | intro _ | assumption | apply Keeps.ite | apply State.putSet_keeps | apply State.wr_keeps
          | apply State.iff_keeps | apply State.bump_keeps | apply State.noteCopy_keeps | apply State.bumpBy_keeps
          | simp only [keeps_mk] | apply foldl_keeps | split | dsimp only

theorem State.putDefaults_keeps {s t : State} (h : Keeps s t) : Keeps s (State.putDefaults t) := by
  unfold State.putDefaults
  with_reducible repeat'
    first | intro _ | assumption | apply Keeps.ite | apply State.putSet_keeps | apply State.wr_keeps
          | simp only [keeps_mk] | apply foldl_keeps | split | dsimp only

theorem State.loadConfig_keeps {s t : State} (h : Keeps s t) : Keeps s (State.loadConfig t) := by
  unfold State.loadConfig
  extract_lets u
  have hu : Keeps s u := h.regs rfl (regTableOk_filter _) id rfl
  split
  · exact State.event_keeps _ _ _ _ _ (State.flag_keeps _ _ (State.wr_keeps _ _ hu))
  · extract_lets l o r v w
    have hv : Keeps s v := hu.regs rfl (fun hh => regTableOk_foldl _ _ hh) id rfl
    have hw : Keeps s w := State.iff_keeps _ _ (fun x hx => State.flag_keeps _ _ hx)
      (State.bumpBy_keeps _ _ (State.wr_keeps _ _ (State.noteCopy_keeps _ hv)))
    exact State.event_keeps _ _ _ _ _ hw

theorem State.doCommit_keeps {s t : State} (v : Nat) (h : Keeps s t) : KeepsW s (State.doCommit t v) := by
  unfold State.doCommit
  with_reducible repeat'
    first | intro _ | assumption | apply Keeps.ite | apply KeepsW.ite | apply State.beginCommit_keeps
          | apply State.putDefaults_keeps | apply State.reload_keeps | exact KeepsW.abort | apply KeepsW.ok
          | apply KeepsW.later | simp only [keeps_mk] | apply foldl_keeps | split | dsimp only

theorem State.pageDone_keeps {s t : State} (p : Page) (h : Keeps s t) : Keeps s (State.pageDone t p) := by
  unfold State.pageDone
  with_reducible repeat'
    first | intro _ | assumption | apply Keeps.ite | apply State.landPage_keeps | apply State.bump_keeps
          | apply State.queueMap_keeps | apply State.each_keeps | apply State.markDurable_keeps
          | apply State.sealDurable_keeps | simp only [keeps_mk] | apply foldl_keeps | split | dsimp only

theorem State.pageFailed_keeps {s t : State} (p : Page) (h : Keeps s t) : Keeps s (State.pageFailed t p) := by
  unfold State.pageFailed
  with_reducible repeat'
    first | intro _ | assumption | apply Keeps.ite | apply State.bump_keeps | apply State.flag_keeps
          | apply State.event_keeps | apply State.landPage_keeps | apply State.queueMap_keeps | apply State.wr_keeps
          | apply State.growBad_keeps | simp only [keeps_mk] | apply foldl_keeps | split | dsimp only

theorem State.corrected_keeps {s t : State} (d : Nat) (bits : Nat) (h : Keeps s t) : Keeps s (State.corrected t d bits)
    := by
  unfold State.corrected
  with_reducible repeat'
    first | intro _ | assumption | apply Keeps.ite | apply State.wr_keeps | apply State.flag_keeps
          | apply State.event_keeps | simp only [keeps_mk] | apply foldl_keeps | split | dsimp only

theorem State.refreshFettle_keeps {s t : State} (h : Keeps s t) : Keeps s (State.refreshFettle t) := by
  unfold State.refreshFettle
  with_reducible repeat'
    first | intro _ | assumption | apply Keeps.ite | apply State.wr_keeps | simp only [keeps_mk] | apply foldl_keeps
          | split | dsimp only

theorem State.setShake_keeps {s t : State} (st : Nat) (x : ShakeStream) (h : Keeps s t) : Keeps s (State.setShake t st
    x) := by
  unfold State.setShake
  with_reducible repeat'
    first | intro _ | assumption | apply Keeps.ite | simp only [keeps_mk] | apply foldl_keeps | split | dsimp only

theorem State.beginShake_keeps {s t : State} (h : Keeps s t) : Keeps s (State.beginShake t) := by
  unfold State.beginShake
  with_reducible repeat'
    first | intro _ | assumption | apply Keeps.ite | apply State.wr_keeps | apply State.bump_keeps
          | simp only [keeps_mk] | apply foldl_keeps | split | dsimp only

theorem State.shakeMark_keeps {s t : State} (st : Nat) (kind : Nat) (epoch : Nat) (count : Nat) (h : Keeps s t) : Keeps
    s (State.shakeMark t st kind epoch count) := by
  unfold State.shakeMark
  with_reducible repeat'
    first | intro _ | assumption | apply Keeps.ite | apply State.send_keeps | apply State.count_keeps
          | simp only [keeps_mk] | apply foldl_keeps | split | dsimp only

theorem State.shakeRec_keeps {s t : State} (r : Rec) (h : Keeps s t) : Keeps s (State.shakeRec t r) := by
  unfold State.shakeRec
  with_reducible repeat'
    first | intro _ | assumption | apply Keeps.ite | apply State.send_keeps | simp only [keeps_mk] | apply foldl_keeps
          | split | dsimp only

theorem State.unreadable_keeps {s t : State} (st : Nat) (r : Rec) (h : Keeps s t) : Keeps s (State.unreadable t st r) :=
    by
  unfold State.unreadable
  with_reducible repeat'
    first | intro _ | assumption | apply Keeps.ite | apply State.setShake_keeps | apply State.event_keeps
          | apply State.flag_keeps | apply State.bump_keeps | apply State.wr_keeps | simp only [keeps_mk]
          | apply foldl_keeps | split | dsimp only

theorem State.shakeStep_keeps {s t : State} (st : Nat) (h : Keeps s t) : Keeps s (State.shakeStep st t) := by
  unfold State.shakeStep
  with_reducible repeat'
    first | intro _ | assumption | apply Keeps.ite | apply State.setShake_keeps | apply State.iff_keeps
          | apply State.shakeMark_keeps | apply State.unreadable_keeps | simp only [keeps_mk] | apply foldl_keeps
          | split | dsimp only

theorem State.shakePump_keeps {s t : State} (h : Keeps s t) : Keeps s (State.shakePump t) := by
  unfold State.shakePump
  with_reducible repeat'
    first | intro _ | assumption | apply Keeps.ite | apply State.each_keeps | apply State.shakeStep_keeps
          | apply State.startDies_keeps | simp only [keeps_mk] | apply foldl_keeps | split | dsimp only

theorem State.shakeStart_keeps {s t : State} (p : List Nat) (h : Keeps s t) : Keeps s (State.shakeStart t p) := by
  unfold State.shakeStart
  with_reducible repeat'
    first | intro _ | assumption | apply Keeps.ite | apply State.llViolation_keeps | apply State.iff_keeps
          | apply State.bump_keeps | apply State.each_keeps | apply State.setShake_keeps | apply State.wr_keeps
          | apply State.shakePump_keeps | simp only [keeps_mk] | apply foldl_keeps | split | dsimp only

theorem State.confirmShake_keeps {s t : State} (abandoned : Bool) (h : Keeps s t) : Keeps s (State.confirmShake t
    abandoned) := by
  unfold State.confirmShake
  with_reducible repeat'
    first | intro _ | assumption | apply Keeps.ite | apply State.endShake_keeps | apply State.event_keeps
          | apply State.refreshOpen_keeps | simp only [keeps_mk] | apply foldl_keeps | split | dsimp only

theorem State.shakeCtl_keeps {s t : State} (p : List Nat) (f : State → State) (hf : ∀ u, Keeps s (u) → Keeps s (f u)) (h
    : Keeps s t) : Keeps s (State.shakeCtl t p f) := by
  unfold State.shakeCtl
  exact Keeps.ite (State.llViolation_keeps _ h) (hf _ h)

theorem State.enterTb_keeps {s t : State} (st : Nat) (h : Keeps s t) : Keeps s (State.enterTb t st) := by
  unfold State.enterTb
  with_reducible repeat'
    first | intro _ | assumption | apply Keeps.ite | apply State.hwr_keeps | simp only [keeps_mk] | apply foldl_keeps
          | split | dsimp only

theorem State.applyStep_keeps {s t : State} (h : Keeps s t) : Keeps s (State.applyStep t) := by
  unfold State.applyStep
  exact Keeps.ite h (State.event_keeps _ _ _ _ _ (State.flag_keeps _ _ (State.bump_keeps _ (h.clk rfl rfl rfl id))))

theorem State.tickTracker_keeps {s t : State} (h : Keeps s t) : Keeps s (State.tickTracker t) := by
  unfold State.tickTracker
  with_reducible repeat'
    first | intro _ | assumption | apply Keeps.ite | apply State.hwrI_keeps | simp only [keeps_mk] | apply foldl_keeps
          | split | dsimp only

theorem State.powerReset_keeps {s t : State} (src : Source) (h : Keeps s t) : Keeps s (State.powerReset t src) := by
  unfold State.powerReset
  with_reducible repeat'
    first | intro _ | assumption | apply Keeps.ite | apply State.resetLogic_keeps | simp only [keeps_mk]
          | apply foldl_keeps | split | dsimp only

theorem State.feedsDead_keeps {s t : State} (h : Keeps s t) : Keeps s (State.feedsDead t) := by
  unfold State.feedsDead
  exact Keeps.ite h (h.regs rfl id (fun _ => rfl) rfl)

theorem State.huUnpowered_keeps {s t : State} (h : Keeps s t) : Keeps s (State.huUnpowered t) := by
  unfold State.huUnpowered
  with_reducible repeat'
    first | intro _ | assumption | apply Keeps.ite | apply State.wr_keeps | simp only [keeps_mk] | apply foldl_keeps
          | split | dsimp only

theorem State.takeMainsSense_keeps {s t : State} (h : Keeps s t) : Keeps s (State.takeMainsSense t) := by
  unfold State.takeMainsSense
  with_reducible repeat'
    first | intro _ | assumption | apply Keeps.ite | apply State.enterTb_keeps | simp only [keeps_mk]
          | apply foldl_keeps | split | dsimp only

theorem State.takeShare_keeps {s t : State} (sets : List (Nat × Nat)) (h : Keeps s t) : Keeps s (State.takeShare t sets)
    := by
  unfold State.takeShare
  with_reducible repeat'
    first | intro _ | assumption | apply Keeps.ite | apply State.applyShare_keeps | apply State.feedEnWritten_keeps
          | apply State.takeMainsSense_keeps | apply State.setVcmd_keeps | simp only [keeps_mk] | apply foldl_keeps
          | split | dsimp only

theorem State.takePads_keeps {s t : State} (h : Keeps s t) : Keeps s (State.takePads t) := by
  unfold State.takePads
  with_reducible repeat'
    first | intro _ | assumption | apply Keeps.ite | apply State.rearmPads_keeps | simp only [keeps_mk]
          | apply foldl_keeps | split | dsimp only

theorem State.takeover_keeps {s t : State} (h : Keeps s t) : Keeps s (State.takeover t) := by
  unfold State.takeover
  with_reducible repeat'
    first | intro _ | assumption | apply Keeps.ite | apply State.seqTakeover_keeps | apply State.takePads_keeps
          | apply State.linkEnable_keeps | apply State.wr_keeps | apply State.sendShare_keeps | simp only [keeps_mk]
          | apply foldl_keeps | split | dsimp only

theorem State.setAdmHold_keeps {s t : State} (on : Bool) (h : Keeps s t) : Keeps s (State.setAdmHold t on) := by
  unfold State.setAdmHold
  with_reducible repeat'
    first | intro _ | assumption | apply Keeps.ite | apply State.iff_keeps | apply State.flag_keeps
          | apply State.event_keeps | apply State.refreshEst_keeps | simp only [keeps_mk] | apply foldl_keeps | split
          | dsimp only

theorem State.beginGuard_keeps {s t : State} (h : Keeps s t) : Keeps s (State.beginGuard t) := by
  unfold State.beginGuard
  with_reducible repeat'
    first | intro _ | assumption | apply Keeps.ite | apply State.wr_keeps | apply State.iff_keeps
          | apply State.acceptTrial_keeps | apply State.event_keeps | apply State.setAdmHold_keeps
          | apply State.refreshEst_keeps | apply State.beginShake_keeps | simp only [keeps_mk] | apply foldl_keeps
          | split | dsimp only

theorem State.resumeStart_keeps {s t : State} (h : Keeps s t) : Keeps s (State.resumeStart t) := by
  unfold State.resumeStart
  with_reducible repeat'
    first | intro _ | assumption | apply Keeps.ite | apply State.wr_keeps | apply State.checkOnDone_keeps
          | apply State.iff_keeps | apply State.stopStart_keeps | simp only [keeps_mk] | apply foldl_keeps | split
          | dsimp only

theorem State.refreshBarrier_keeps {s t : State} (h : Keeps s t) : Keeps s (State.refreshBarrier t) := by
  unfold State.refreshBarrier
  with_reducible repeat'
    first | intro _ | assumption | apply Keeps.ite | apply State.wr_keeps | apply State.refreshEst_keeps
          | simp only [keeps_mk] | apply foldl_keeps | split | dsimp only

theorem State.copyStatus_keeps {s t : State} (h : Keeps s t) : Keeps s (State.copyStatus t) := by
  unfold State.copyStatus
  with_reducible repeat'
    first | intro _ | assumption | apply Keeps.ite | apply State.each_keeps | apply State.wr_keeps
          | simp only [keeps_mk] | apply foldl_keeps | split | dsimp only

theorem State.wakeReport_keeps {s t : State} (f : Nat) (h : Keeps s t) : Keeps s (State.wakeReport t f) := by
  unfold State.wakeReport
  with_reducible repeat'
    first | intro _ | assumption | apply Keeps.ite | apply State.event_keeps | simp only [keeps_mk] | apply foldl_keeps
          | split | dsimp only

theorem State.noteApplied_keeps {s t : State} (h : Keeps s t) : Keeps s (State.noteApplied t) := by
  unfold State.noteApplied
  with_reducible repeat'
    first | intro _ | assumption | apply Keeps.ite | apply State.bumpBy_keeps | apply State.iff_keeps
          | apply State.event_keeps | simp only [keeps_mk] | apply foldl_keeps | split | dsimp only

theorem State.noteHeartbeat_keeps {s t : State} (h : Keeps s t) : Keeps s (State.noteHeartbeat t) := by
  unfold State.noteHeartbeat
  with_reducible repeat'
    first | intro _ | assumption | apply Keeps.ite | apply State.bump_keeps | apply State.event_keeps
          | simp only [keeps_mk] | apply foldl_keeps | split | dsimp only

theorem State.takeNote_keeps {s t : State} (n : Note) (h : Keeps s t) : Keeps s (t.takeNote n) := by
  unfold State.takeNote
  split
  · exact State.flag_keeps _ _ h
  · exact State.bumpBy_keeps _ _ h
  · exact State.wr_keeps _ _ h
  · exact State.wr_keeps _ _ h
  · exact State.event_keeps _ _ _ _ _ h

theorem State.takeReport_keeps {s t : State} (e : Nat × List Note) (h : Keeps s t) : Keeps s (t.takeReport e) := by
  unfold State.takeReport
  have h1 : Keeps s { t with clk := t.clk.reported e.1 } := by
    refine h.clk rfl rfl rfl ?_
    simp only [State.ticsOk, Clock.reported, Bool.and_eq_true, decide_eq_true_eq]
    exact fun hh => ⟨decide_eq_true (Nat.mod_lt _ (by decide)), decide_eq_true hh.2⟩
  have h2 := State.each_keeps e.2 (fun n u => u.takeNote n) (fun n u hu => State.takeNote_keeps n hu) h1
  refine ⟨h2.1, fun hi => ?_⟩
  have hv := h2.2 hi
  have ht := h.2 hi
  simp only [State.inv, State.regsOk, State.ticsOk, Bool.and_eq_true] at hv ht ⊢
  exact ⟨hv.1, ht.2⟩

theorem State.takeReports_keeps {s t : State} (h : Keeps s t) : Keeps s (State.takeReports t) := by
  unfold State.takeReports
  with_reducible repeat'
    first | intro _ | assumption | apply Keeps.ite | apply State.each_keeps | apply State.takeReport_keeps
          | simp only [keeps_mk] | apply foldl_keeps | split | dsimp only

theorem State.takeStatus_keeps {s t : State} (h : Keeps s t) : Keeps s (State.takeStatus t) := by
  unfold State.takeStatus
  with_reducible repeat'
    first | intro _ | assumption | apply Keeps.ite | apply State.copyStatus_keeps | apply State.noteApplied_keeps
          | apply State.wakeReport_keeps | apply State.takeReports_keeps | apply State.noteHeartbeat_keeps
          | apply State.iff_keeps | apply State.event_keeps | apply State.refreshBarrier_keeps | simp only [keeps_mk]
          | apply foldl_keeps | split | dsimp only

theorem State.applySet_keeps {s t : State} (k : Nat) (v : Nat) (h : Keeps s t) : Keeps s (State.applySet t k v) := by
  unfold State.applySet
  with_reducible repeat'
    first | intro _ | assumption | apply Keeps.ite | apply State.feedEnWritten_keeps | apply State.dmgCleared_keeps
          | apply State.huCleared_keeps | apply State.capPeriodWritten_keeps | apply State.hwr_keeps
          | apply State.takeMainsSense_keeps | simp only [keeps_mk] | apply foldl_keeps | split | dsimp only

theorem State.applyFrame_keeps {s t : State} (f : CmdFrame) (h : Keeps s t) : Keeps s (State.applyFrame t f) := by
  unfold State.applyFrame
  with_reducible repeat'
    first | intro _ | assumption | apply Keeps.ite | apply State.takeShare_keeps | apply State.each_keeps
          | apply State.applySet_keeps | simp only [keeps_mk] | apply foldl_keeps | split | dsimp only

theorem State.losePath_keeps {s t : State} (h : Keeps s t) : Keeps s (State.losePath t) := by
  unfold State.losePath
  with_reducible repeat'
    first | intro _ | assumption | apply Keeps.ite | apply State.bump_keeps | apply State.event_keeps
          | apply State.refreshBarrier_keeps | simp only [keeps_mk] | apply foldl_keeps | split | dsimp only

theorem State.placeCursor_keeps {s t : State} (j : Nat) (n : Nat) (h : Keeps s t) : Keeps s (State.placeCursor t j n) :=
    by
  unfold State.placeCursor
  with_reducible repeat'
    first | intro _ | assumption | apply Keeps.ite | apply State.setSrc_keeps | simp only [keeps_mk] | apply foldl_keeps
          | split | dsimp only

theorem State.seekOldest_keeps {s t : State} (j : Nat) (h : Keeps s t) : Keeps s (State.seekOldest t j) := by
  unfold State.seekOldest
  with_reducible repeat'
    first | intro _ | assumption | apply Keeps.ite | apply State.placeCursor_keeps | simp only [keeps_mk]
          | apply foldl_keeps | split | dsimp only

theorem State.seekSeq_keeps {s t : State} (j : Nat) (h : Keeps s t) : Keeps s (State.seekSeq t j) := by
  unfold State.seekSeq
  with_reducible repeat'
    first | intro _ | assumption | apply Keeps.ite | apply State.placeCursor_keeps | apply State.setSrc_keeps
          | simp only [keeps_mk] | apply foldl_keeps | split | dsimp only

theorem State.seekNewest_keeps {s t : State} (j : Nat) (h : Keeps s t) : Keeps s (State.seekNewest t j) := by
  unfold State.seekNewest
  with_reducible repeat'
    first | intro _ | assumption | apply Keeps.ite | apply State.placeCursor_keeps | simp only [keeps_mk]
          | apply foldl_keeps | split | dsimp only

theorem State.closeCursor_keeps {s t : State} (j : Nat) (h : Keeps s t) : Keeps s (State.closeCursor t j) := by
  unfold State.closeCursor
  with_reducible repeat'
    first | intro _ | assumption | apply Keeps.ite | apply State.setSrc_keeps | simp only [keeps_mk] | apply foldl_keeps
          | split | dsimp only

theorem State.batchServed_keeps {s t : State} (j : Nat) (b : Nat × Nat × Bool) (h : Keeps s t) : Keeps s
    (State.batchServed t j b) := by
  unfold State.batchServed
  with_reducible repeat'
    first | intro _ | assumption | apply Keeps.ite | apply State.setSrc_keeps | apply State.iff_keeps
          | apply State.flag_keeps | simp only [keeps_mk] | apply foldl_keeps | split | dsimp only

theorem State.tripFeed_keeps {s t : State} (f : Nat) (cause : Nat) (detail : Nat) (h : Keeps s t) : Keeps s
    (State.tripFeed t f cause detail) := by
  unfold State.tripFeed
  with_reducible repeat'
    first | intro _ | assumption | apply Keeps.ite | apply State.latchFeed_keeps | apply State.b2Trigger_keeps
          | apply State.b2Other_keeps | simp only [keeps_mk] | apply foldl_keeps | split | dsimp only

end Sys2Proof.Machine
end

