-- ==== Sys2Proof/Laws/KeepsReq.lean ====
section
/-! SUPPORT. What the operations of requests and of a tick keep: one lemma each. -/
set_option linter.unusedVariables false
set_option linter.unusedSimpArgs false
namespace Sys2Proof.Machine

theorem WOut.out_keeps {s t : State} (o : WOut) (ho : KeepsW s o) (h : Keeps s t) : KeepsR s (WOut.out t o) := by
  unfold WOut.out
  split
  · exact h
  · exact ⟨ho, fun _ hu => hu⟩
  · exact ho

theorem only1_keeps {s t : State} (v : Nat) (o : ROut) (ho : KeepsR s o) (h : Keeps s t) : KeepsR s (only1 t v o) := by
  unfold only1
  exact KeepsR.ite ho (.abort h)

theorem State.doUnlock_keeps {s t : State} (j : Nat) (v : Nat) (h : Keeps s t) : KeepsR s (State.doUnlock t j v) := by
  unfold State.doUnlock
  with_reducible repeat'
    first | intro _ | assumption | apply Keeps.ite | apply KeepsR.ite | apply State.wr_keeps | apply State.setSrc_keeps
          | apply State.flag_keeps | apply State.event_keeps | refine KeepsR.ok ?_ ?_ | refine KeepsR.abort ?_
          | refine KeepsR.later ?_ | apply id_keeps | simp only [keeps_mk] | apply foldl_keeps | split | dsimp only

theorem State.doLock_keeps {s t : State} (j : Nat) (h : Keeps s t) : Keeps s (State.doLock t j) := by
  unfold State.doLock
  with_reducible repeat'
    first | intro _ | assumption | apply Keeps.ite | apply State.setSrc_keeps | simp only [keeps_mk] | apply foldl_keeps
          | split | dsimp only

theorem State.doPwChange_keeps {s t : State} (j : Nat) (tag : Nat) (v : Nat) (h : Keeps s t) : KeepsR s
    (State.doPwChange t j tag v) := by
  unfold State.doPwChange
  with_reducible repeat'
    first | intro _ | assumption | apply Keeps.ite | apply KeepsR.ite | apply State.writeProt_keeps
          | refine KeepsR.ok ?_ ?_ | refine KeepsR.abort ?_ | refine KeepsR.later ?_ | apply id_keeps
          | simp only [keeps_mk] | apply foldl_keeps | split | dsimp only

theorem State.holdWritten_keeps {s t : State} (v : Nat) (h : Keeps s t) : Keeps s (State.holdWritten t v) := by
  unfold State.holdWritten
  with_reducible repeat'
    first | intro _ | assumption | apply Keeps.ite | apply State.wr_keeps | apply State.linkDisable_keeps
          | apply State.linkEnable_keeps | apply State.refreshBus_keeps | apply State.endScans_keeps
          | apply State.takeover_keeps | simp only [keeps_mk] | apply foldl_keeps | split | dsimp only

theorem State.doRetrain_keeps {s t : State} (v : Nat) (h : Keeps s t) : Keeps s (State.doRetrain t v) := by
  unfold State.doRetrain
  with_reducible repeat'
    first | intro _ | assumption | apply Keeps.ite | apply State.wr_keeps | apply State.fastRetrain_keeps
          | apply State.fullTraining_keeps | simp only [keeps_mk] | apply foldl_keeps | split | dsimp only

theorem State.scanLane_keeps {s t : State} (p : Nat) (h : Keeps s t) : Keeps s (State.scanLane t p) := by
  unfold State.scanLane
  with_reducible repeat'
    first | intro _ | assumption | apply Keeps.ite | apply State.startScan_keeps | apply State.endScan_keeps
          | simp only [keeps_mk] | apply foldl_keeps | split | dsimp only

theorem State.doEye_keeps {s t : State} (p : Nat) (v : Nat) (h : Keeps s t) : KeepsR s (State.doEye t p v) := by
  unfold State.doEye
  with_reducible repeat'
    first | intro _ | assumption | apply Keeps.ite | apply KeepsR.ite | apply State.scanLane_keeps
          | apply State.endScan_keeps | refine KeepsR.ok ?_ ?_ | refine KeepsR.abort ?_ | refine KeepsR.later ?_
          | apply id_keeps | simp only [keeps_mk] | apply foldl_keeps | split | dsimp only

theorem State.doReport_keeps {s t : State} (j : Nat) (v : Nat) (h : Keeps s t) : KeepsR s (State.doReport t j v) := by
  unfold State.doReport
  with_reducible repeat'
    first | intro _ | assumption | apply Keeps.ite | apply KeepsR.ite | apply State.wr_keeps
          | apply State.finishReport_keeps | apply State.each_keeps | apply State.scanLane_keeps
          | apply State.reportScans_keeps | refine KeepsR.ok ?_ ?_ | refine KeepsR.abort ?_ | refine KeepsR.later ?_
          | apply id_keeps | simp only [keeps_mk] | apply foldl_keeps | split | dsimp only

theorem State.doDist_keeps {s t : State} (j : Nat) (v : Nat) (h : Keeps s t) : KeepsR s (State.doDist t j v) := by
  unfold State.doDist
  with_reducible repeat'
    first | intro _ | assumption | apply Keeps.ite | apply KeepsR.ite | apply State.wr_keeps | apply State.each_keeps
          | apply State.distNext_keeps | apply State.stopDist_keeps | refine KeepsR.ok ?_ ?_ | refine KeepsR.abort ?_
          | refine KeepsR.later ?_ | apply id_keeps | simp only [keeps_mk] | apply foldl_keeps | split | dsimp only

theorem State.doLog_keeps {s t : State} (j : Nat) (v : Nat) (h : Keeps s t) : KeepsR s (State.doLog t j v) := by
  unfold State.doLog
  with_reducible repeat'
    first | intro _ | assumption | apply Keeps.ite | apply KeepsR.ite | apply State.closeCursor_keeps
          | apply State.seekOldest_keeps | apply State.seekSeq_keeps | apply State.seekNewest_keeps
          | refine KeepsR.ok ?_ ?_ | refine KeepsR.abort ?_ | refine KeepsR.later ?_ | apply id_keeps
          | simp only [keeps_mk] | apply foldl_keeps | split | dsimp only

theorem State.doStartRetry_keeps {s t : State} (h : Keeps s t) : KeepsR s (State.doStartRetry t) := by
  unfold State.doStartRetry
  with_reducible repeat'
    first | intro _ | assumption | apply Keeps.ite | apply KeepsR.ite | apply State.resumeStart_keeps
          | apply State.wr_keeps | refine KeepsR.ok ?_ ?_ | refine KeepsR.abort ?_ | refine KeepsR.later ?_
          | apply id_keeps | simp only [keeps_mk] | apply foldl_keeps | split | dsimp only

theorem State.doAbandon_keeps {s t : State} (j : Nat) (h : Keeps s t) : KeepsR s (State.doAbandon t j) := by
  unfold State.doAbandon
  with_reducible repeat'
    first | intro _ | assumption | apply Keeps.ite | apply KeepsR.ite | apply State.confirmShake_keeps
          | apply State.wr_keeps | refine KeepsR.ok ?_ ?_ | refine KeepsR.abort ?_ | refine KeepsR.later ?_
          | apply id_keeps | simp only [keeps_mk] | apply foldl_keeps | split | dsimp only

theorem State.answeredAs_keeps {s t : State} (u : State) (h : Keeps s t) : Keeps s (t.answeredAs u) := by
  unfold State.answeredAs
  exact keeps_mk.2 h

theorem State.doRestart_keeps {s t : State} (v : Nat) (h : Keeps s t) : KeepsR s (State.doRestart t v) := by
  unfold State.doRestart
  with_reducible repeat'
    first | intro _ | assumption | apply Keeps.ite | apply KeepsR.ite | apply State.wr_keeps
          | apply State.warmReset_keeps | apply State.answeredAs_keeps | refine KeepsR.ok ?_ ?_ | refine KeepsR.abort ?_
          | refine KeepsR.later ?_ | apply id_keeps | simp only [keeps_mk] | apply foldl_keeps | split | dsimp only

theorem State.doWake_keeps {s t : State} (h : Keeps s t) : KeepsR s (State.doWake t) := by
  unfold State.doWake
  with_reducible repeat'
    first | intro _ | assumption | apply Keeps.ite | apply KeepsR.ite | apply State.wr_keeps
          | apply State.restExit_keeps | apply State.answeredAs_keeps | refine KeepsR.ok ?_ ?_ | refine KeepsR.abort ?_
          | refine KeepsR.later ?_ | apply id_keeps | simp only [keeps_mk] | apply foldl_keeps | split | dsimp only

theorem State.doCmd_keeps {s t : State} (j : Nat) (tag : Nat) (k : Nat) (v : Nat) (h : Keeps s t) : KeepsR s
    (State.doCmd t j tag k v) := by
  have ok : ∀ u, Keeps s u → Keeps s (id u) := fun _ hu => hu
  unfold State.doCmd; extract_lets lane
  refine KeepsR.ite (WOut.out_keeps _ (State.doCommit_keeps _ h) h) ?_
  refine KeepsR.ite (State.doUnlock_keeps _ _ h) ?_
  refine KeepsR.ite (only1_keeps _ _ (.ok (State.doLock_keeps _ h) ok) h) ?_
  refine KeepsR.ite (State.doPwChange_keeps _ _ _ h) ?_
  refine KeepsR.ite (State.doRestart_keeps _ h) ?_
  refine KeepsR.ite (.ok (State.wr_keeps _ _ (State.rearmPads_keeps _ h)) ok) ?_
  refine KeepsR.ite (only1_keeps _ _ (State.doStartRetry_keeps h) h) ?_
  refine KeepsR.ite (only1_keeps _ _ (.ok (State.doDmgClear_keeps _ h) ok) h) ?_
  refine KeepsR.ite (only1_keeps _ _ (.ok (State.doDmgClear_keeps _ h) ok) h) ?_
  refine KeepsR.ite (only1_keeps _ _ (.ok (State.doLadleClear_keeps h) ok) h) ?_
  refine KeepsR.ite (only1_keeps _ _ (.ite (.abort h) (.ite (.abort h) (.ok (keeps_mk.2 h) ok))) h) ?_
  refine KeepsR.ite (.ite (.ok (State.doHuClear_keeps _ h) ok) (.abort h)) ?_
  refine KeepsR.ite (only1_keeps _ _ (.ok (State.doSeqClear_keeps h) ok) h) ?_
  refine KeepsR.ite (.ite (.ok h (fun _ hu => State.doRetrain_keeps _ hu)) (.abort h)) ?_
  with_reducible refine KeepsR.ite (State.doEye_keeps _ _ h) ?_
  refine KeepsR.ite (only1_keeps _ _ (State.doWake_keeps h) h) ?_
  refine KeepsR.ite (only1_keeps _ _ (State.doAbandon_keeps _ h) h) ?_
  refine KeepsR.ite (WOut.out_keeps _ (State.doFwCmd_keeps _ _ _ h) h) ?_
  refine KeepsR.ite (.ite (.abort h) (WOut.out_keeps _ (State.doProtCode_keeps _ _ _ h) h)) ?_
  refine KeepsR.ite (.ite (.abort h) (WOut.out_keeps _ (State.doDebugClose_keeps _ _ _ h) h)) ?_
  refine KeepsR.ite (State.doDist_keeps _ _ h) ?_
  exact KeepsR.ite (State.doLog_keeps _ _ h) (State.doReport_keeps _ _ h)

theorem State.doSet_keeps {s t : State} (j : Nat) (k : Nat) (v : Nat) (h : Keeps s t) : KeepsR s (State.doSet t j k v)
    := by
  unfold State.doSet
  with_reducible repeat'
    first | intro _ | assumption | apply Keeps.ite | apply KeepsR.ite | apply State.holdWritten_keeps
          | apply State.writeSetting_keeps | apply State.targetWritten_keeps | apply State.setSrc_keeps
          | apply State.seekSeq_keeps | apply State.wr_keeps | refine KeepsR.ok ?_ ?_ | refine KeepsR.abort ?_
          | refine KeepsR.later ?_ | apply id_keeps | simp only [keeps_mk] | apply foldl_keeps | split | dsimp only

theorem State.malformed_keeps {s t : State} (op : Nat) (r : Req) (reason : Nat) (h : Keeps s t) : Keeps s
    (State.malformed t op r reason) := by
  unfold State.malformed
  with_reducible repeat'
    first | intro _ | assumption | apply Keeps.ite | apply State.replyAbort_keeps | apply State.reply_keeps
          | apply State.serviceViolation_keeps | simp only [keeps_mk] | apply foldl_keeps | split | dsimp only

theorem State.noteRetry_keeps {s t : State} (j : Nat) (op : Nat) (key : Nat) (code : Nat) (detail : Nat) (h : Keeps s t)
    : Keeps s (State.noteRetry t j op key code detail) := by
  unfold State.noteRetry
  with_reducible repeat'
    first | intro _ | assumption | apply Keeps.ite | apply State.setSrc_keeps | simp only [keeps_mk] | apply foldl_keeps
          | split | dsimp only

theorem State.served_keeps {s t : State} (j : Nat) (b : Option (Nat × Nat × Bool)) (h : Keeps s t) : Keeps s
    (State.served t j b) := by
  unfold State.served
  with_reducible repeat'
    first | intro _ | assumption | apply Keeps.ite | apply State.batchServed_keeps | simp only [keeps_mk]
          | apply foldl_keeps | split | dsimp only

theorem State.doRead_keeps {s t : State} (j : Nat) (k : Nat) (r : Row) (h : Keeps s t) : KeepsR s (State.doRead t j k r)
    := by
  unfold State.doRead
  with_reducible repeat'
    first | intro _ | assumption | apply Keeps.ite | apply KeepsR.ite | apply State.served_keeps
          | refine KeepsR.ok ?_ ?_ | refine KeepsR.abort ?_ | refine KeepsR.later ?_ | apply id_keeps
          | simp only [keeps_mk] | apply foldl_keeps | split | dsimp only

theorem State.doLow_keeps {s t : State} (j : Nat) (k : Nat) (r : Row) (h : Keeps s t) : KeepsR s (State.doLow t j k r)
    := by
  unfold State.doLow
  with_reducible repeat'
    first | intro _ | assumption | apply Keeps.ite | apply KeepsR.ite | apply State.setSrc_keeps
          | refine KeepsR.ok ?_ ?_ | refine KeepsR.abort ?_ | refine KeepsR.later ?_ | apply id_keeps
          | simp only [keeps_mk] | apply foldl_keeps | split | dsimp only

theorem State.doHigh_keeps {s t : State} (j : Nat) (k : Nat) (r : Row) (h : Keeps s t) : KeepsR s (State.doHigh t j k r)
    := by
  unfold State.doHigh
  with_reducible repeat'
    first | intro _ | assumption | apply Keeps.ite | apply KeepsR.ite | refine KeepsR.ok ?_ ?_ | refine KeepsR.abort ?_
          | refine KeepsR.later ?_ | apply id_keeps | simp only [keeps_mk] | apply foldl_keeps | split | dsimp only

theorem State.doValue_keeps {s t : State} (j : Nat) (tag : Nat) (k : Nat) (r : Row) (l : List Nat) (h : Keeps s t) :
    KeepsR s (State.doValue t j tag k r l) := by
  unfold State.doValue
  with_reducible repeat'
    first | intro _ | assumption | apply Keeps.ite | apply KeepsR.ite | apply State.flag_keeps
          | apply State.clearWritten_keeps | apply State.doCmd_keeps | apply State.doSet_keeps | refine KeepsR.ok ?_ ?_
          | refine KeepsR.abort ?_ | refine KeepsR.later ?_ | apply id_keeps | simp only [keeps_mk] | apply foldl_keeps
          | split | dsimp only

theorem State.doWrite_keeps {s t : State} (j : Nat) (tag : Nat) (k : Nat) (r : Row) (l : List Nat) (h : Keeps s t) :
    KeepsR s (State.doWrite t j tag k r l) := by
  unfold State.doWrite
  with_reducible repeat'
    first | intro _ | assumption | apply Keeps.ite | apply KeepsR.ite | apply State.doValue_keeps
          | refine KeepsR.ok ?_ ?_ | refine KeepsR.abort ?_ | refine KeepsR.later ?_ | apply id_keeps
          | simp only [keeps_mk] | apply foldl_keeps | split | dsimp only

theorem State.doClear_keeps {s t : State} (k : Nat) (r : Row) (l : List Nat) (h : Keeps s t) : KeepsR s (State.doClear t
    k r l) := by
  unfold State.doClear
  with_reducible repeat'
    first | intro _ | assumption | apply Keeps.ite | apply KeepsR.ite | apply State.flag_keeps | apply State.wr_keeps
          | refine KeepsR.ok ?_ ?_ | refine KeepsR.abort ?_ | refine KeepsR.later ?_ | apply id_keeps
          | simp only [keeps_mk] | apply foldl_keeps | split | dsimp only

theorem State.endOpen_keeps {s t : State} (j : Nat) (h : Keeps s t) : Keeps s (State.endOpen t j) := by
  unfold State.endOpen
  with_reducible repeat'
    first | intro _ | assumption | apply Keeps.ite | apply State.replyAbort_keeps | simp only [keeps_mk]
          | apply foldl_keeps | split | dsimp only

theorem State.openXfer_keeps {s t : State} (j : Nat) (tag : Nat) (t' : Transfer) (h : Keeps s t) : Keeps s
    (State.openXfer t j tag t') := by
  unfold State.openXfer
  with_reducible repeat'
    first | intro _ | assumption | apply Keeps.ite | apply State.endOpen_keeps | apply State.setSrc_keeps
          | simp only [keeps_mk] | apply foldl_keeps | split | dsimp only

theorem State.dropXfer_keeps {s t : State} (j : Nat) (h : Keeps s t) : Keeps s (State.dropXfer t j) := by
  unfold State.dropXfer
  with_reducible repeat'
    first | intro _ | assumption | apply Keeps.ite | apply State.setSrc_keeps | simp only [keeps_mk] | apply foldl_keeps
          | split | dsimp only

theorem State.doReadInit_keeps {s t : State} (j : Nat) (tag : Nat) (k : Nat) (l : List Nat) (h : Keeps s t) : KeepsR s
    (State.doReadInit t j tag k l) := by
  unfold State.doReadInit
  with_reducible repeat'
    first | intro _ | assumption | apply Keeps.ite | apply KeepsR.ite | apply State.openXfer_keeps
          | refine KeepsR.ok ?_ ?_ | refine KeepsR.abort ?_ | refine KeepsR.later ?_ | apply id_keeps
          | simp only [keeps_mk] | apply foldl_keeps | split | dsimp only

theorem State.doWriteInit_keeps {s t : State} (j : Nat) (tag : Nat) (k : Nat) (r : Row) (l : List Nat) (h : Keeps s t) :
    KeepsR s (State.doWriteInit t j tag k r l) := by
  unfold State.doWriteInit
  with_reducible repeat'
    first | intro _ | assumption | apply Keeps.ite | apply KeepsR.ite | apply State.openXfer_keeps
          | refine KeepsR.ok ?_ ?_ | refine KeepsR.abort ?_ | refine KeepsR.later ?_ | apply id_keeps
          | simp only [keeps_mk] | apply foldl_keeps | split | dsimp only

theorem State.serveSeg_keeps {s t : State} (j : Nat) (t' : Transfer) (i : Nat) (num : Nat) (ecc : Nat) (h : Keeps s t) :
    KeepsR s (State.serveSeg t j t' i num ecc) := by
  unfold State.serveSeg
  with_reducible repeat'
    first | intro _ | assumption | apply Keeps.ite | apply KeepsR.ite | apply State.dropXfer_keeps
          | apply State.winAbort_keeps | apply State.iff_keeps | apply State.bump_keeps | apply State.setSrc_keeps
          | apply State.count_keeps | apply State.served_keeps | refine KeepsR.ok ?_ ?_ | refine KeepsR.abort ?_
          | refine KeepsR.later ?_ | apply id_keeps | simp only [keeps_mk] | apply foldl_keeps | split | dsimp only

theorem State.closeWindow_keeps {s t : State} (j : Nat) (tag : Nat) (num : Nat) (t' : Transfer) (h : Keeps s t) : KeepsR
    s (State.closeWindow t j tag num t') := by
  unfold State.closeWindow
  with_reducible repeat'
    first | intro _ | assumption | apply Keeps.ite | apply KeepsR.ite | apply State.winAbort_keeps
          | apply ROut.seg_keeps | apply State.wr_keeps | refine KeepsR.ok ?_ ?_ | refine KeepsR.abort ?_
          | refine KeepsR.later ?_ | apply id_keeps | simp only [keeps_mk] | apply foldl_keeps | split | dsimp only

theorem ROut.seg_keeps {s : State} (num : Nat) (o : ROut) (ho : KeepsR s o) : KeepsR s (o.seg num) := by
  cases o <;> exact ho

theorem State.closeWrite_keeps {s t : State} (j tag num : Nat) (x : Transfer) (h : Keeps s t) : KeepsR s (t.closeWrite j
    tag num x) := by
  unfold State.closeWrite
  refine KeepsR.ite (.abort h) (KeepsR.ite (State.closeWindow_keeps _ _ _ _ h) ?_)
  split
  · exact .abort h
  · split
    · exact .abort h
    · exact ROut.seg_keeps _ _ (State.doValue_keeps _ _ _ _ _ h)

theorem State.takeSeg_keeps {s t : State} (j : Nat) (tag : Nat) (num : Nat) (t' : Transfer) (l : List Nat) (close :
    Bool) (h : Keeps s t) : KeepsR s (State.takeSeg t j tag num t' l close) := by
  unfold State.takeSeg
  with_reducible repeat'
    first | intro _ | assumption | apply Keeps.ite | apply KeepsR.ite | apply State.count_keeps
          | apply State.dropXfer_keeps | apply State.closeWrite_keeps | apply State.setSrc_keeps
          | refine KeepsR.ok ?_ ?_ | refine KeepsR.abort ?_ | refine KeepsR.later ?_ | apply id_keeps
          | simp only [keeps_mk] | apply foldl_keeps | split | dsimp only

theorem State.noXfer_keeps {s t : State} (j : Nat) (writes : Bool) (h : Keeps s t) : KeepsR s (State.noXfer t j writes)
    := by
  unfold State.noXfer
  with_reducible repeat'
    first | intro _ | assumption | apply Keeps.ite | apply KeepsR.ite | apply State.setSrc_keeps
          | refine KeepsR.ok ?_ ?_ | refine KeepsR.abort ?_ | refine KeepsR.later ?_ | apply id_keeps
          | simp only [keeps_mk] | apply foldl_keeps | split | dsimp only

theorem State.doSegment_keeps {s t : State} (r : Req) (ecc : Nat) (h : Keeps s t) : KeepsR s (State.doSegment t r ecc)
    := by
  unfold State.doSegment
  with_reducible repeat'
    first | intro _ | assumption | apply Keeps.ite | apply KeepsR.ite | apply State.noXfer_keeps
          | apply State.count_keeps | apply State.dropXfer_keeps | apply State.takeSeg_keeps | apply State.setSrc_keeps
          | apply State.serveSeg_keeps | refine KeepsR.ok ?_ ?_ | refine KeepsR.abort ?_ | refine KeepsR.later ?_
          | apply id_keeps | simp only [keeps_mk] | apply foldl_keeps | split | dsimp only

theorem State.perform_keeps {s t : State} (op : Nat) (r : Req) (ecc : Nat) (h : Keeps s t) : KeepsR s (State.perform t
    op r ecc) := by
  unfold State.perform
  with_reducible repeat'
    first | intro _ | assumption | apply Keeps.ite | apply KeepsR.ite | apply State.freeNext_keeps
          | apply State.doSegment_keeps | apply State.dropXfer_keeps | apply State.doWrite_keeps
          | apply State.flag_keeps | apply State.doClear_keeps | apply State.doWriteInit_keeps
          | apply State.doReadInit_keeps | apply State.doLow_keeps | apply State.doHigh_keeps | apply State.doRead_keeps
          | refine KeepsR.ok ?_ ?_ | refine KeepsR.abort ?_ | refine KeepsR.later ?_ | apply id_keeps
          | simp only [keeps_mk] | apply foldl_keeps | split | dsimp only

theorem State.finish_keeps {s : State} (op : Nat) (r : Req) (o : ROut) (ho : KeepsR s o) : Keeps s (State.finish op r o)
    := by
  unfold State.finish
  split
  · exact Keeps.ite (State.reply_keeps _ (State.noteRetry_keeps _ _ _ _ _ ho))
      (State.serviceViolation_keeps _ _ (State.reply_keeps _ (State.noteRetry_keeps _ _ _ _ _ ho)))
  · exact ho.2 _ (State.replyOk_keeps _ _ _ _ _ _ ho.1)
  · exact ho

theorem State.useToken_keeps {s t : State} (op : Nat) (j : Nat) (h : Keeps s t) : Keeps s (State.useToken t op j) := by
  unfold State.useToken
  with_reducible repeat'
    first | intro _ | assumption | apply Keeps.ite | apply State.setSrc_keeps | simp only [keeps_mk] | apply foldl_keeps
          | split | dsimp only

theorem State.spend_keeps {s t : State} (op : Nat) (j : Nat) (h : Keeps s t) : Keeps s (State.spend t op j) := by
  unfold State.spend
  with_reducible repeat'
    first | intro _ | assumption | apply Keeps.ite | apply State.useToken_keeps | simp only [keeps_mk]
          | apply foldl_keeps | split | dsimp only

theorem State.execute_keeps {s t : State} (op : Nat) (r : Req) (ecc : Nat) (h : Keeps s t) : Keeps s (t.execute op r
    ecc) := by
  unfold State.execute
  extract_lets j u
  have hu : Keeps s u := State.setSrc_keeps _ _ h
  split
  · exact Keeps.ite (State.finish_keeps _ _ _ (.abort hu)) (State.serviceViolation_keeps _ _ (State.replyAbort_keeps _ _ _ _ _ _ hu))
  · exact State.finish_keeps _ _ _ (State.perform_keeps _ _ _ (State.spend_keeps _ _ hu))

theorem State.releaseHeld_keeps {s t : State} (j n : Nat) (h : Keeps s t) : Keeps s (t.releaseHeld j n) := by
  induction n generalizing t with
  | zero => exact h
  | succ n ih =>
    unfold State.releaseHeld
    repeat'
      first | with_reducible assumption | with_reducible apply Keeps.ite | with_reducible apply ih
            | with_reducible apply State.setSrc_keeps | with_reducible apply State.execute_keeps | split

theorem State.serve_keeps {s t : State} (op : Nat) (r : Req) (ecc : Nat) (h : Keeps s t) : Keeps s (State.serve t op r
    ecc) := by
  unfold State.serve
  with_reducible repeat'
    first | intro _ | assumption | apply Keeps.ite | apply State.malformed_keeps | apply State.setSrc_keeps
          | apply State.execute_keeps | simp only [keeps_mk] | apply foldl_keeps | split | dsimp only

theorem State.unanswered_keeps {s t : State} (h : Keeps s t) : Keeps s (State.unanswered t) := by
  unfold State.unanswered
  with_reducible repeat'
    first | intro _ | assumption | apply Keeps.ite | simp only [keeps_mk] | apply foldl_keeps | split | dsimp only

theorem State.request_keeps {s t : State} (op : Nat) (r : Req) (ecc : Nat) (h : Keeps s t) : Keeps s (State.request t op
    r ecc) := by
  unfold State.request
  with_reducible repeat'
    first | intro _ | assumption | apply Keeps.ite | apply State.unanswered_keeps | apply State.iff_keeps
          | apply State.serviceViolation_keeps | apply State.serve_keeps | simp only [keeps_mk] | apply foldl_keeps
          | split | dsimp only

theorem State.writeReq_keeps {s t : State} (src : Src) (tag : Byte) (k : Nat) (v : Nat) (h : Keeps s t) : Keeps s
    (State.writeReq t src tag k v) := by
  unfold State.writeReq
  with_reducible repeat'
    first | intro _ | assumption | apply Keeps.ite | apply State.request_keeps | simp only [keeps_mk]
          | apply foldl_keeps | split | dsimp only

theorem State.usbNak_keeps {s t : State} (tag : Nat) (reason : Nat) (cls : Nat) (h : Keeps s t) : Keeps s (State.usbNak
    t tag reason cls) := by
  unfold State.usbNak
  with_reducible repeat'
    first | intro _ | assumption | apply Keeps.ite | apply State.reply_keeps | apply State.serviceViolation_keeps
          | simp only [keeps_mk] | apply foldl_keeps | split | dsimp only

theorem State.usbHolds_keeps {s t : State} (l : List Byte) (at_ : Option Nat) (h : Keeps s t) : Keeps s (State.usbHolds
    t l at_) := by
  unfold State.usbHolds
  with_reducible repeat'
    first | intro _ | assumption | apply Keeps.ite | simp only [keeps_mk] | apply foldl_keeps | split | dsimp only

theorem State.usbWhole_keeps {s t : State} (bytes : List Byte) (n : Nat) (h : Keeps s t) : Keeps s (State.usbWhole t
    bytes n) := by
  unfold State.usbWhole
  with_reducible repeat'
    first | intro _ | assumption | apply Keeps.ite | apply State.usbNak_keeps | apply State.serve_keeps
          | simp only [keeps_mk] | apply foldl_keeps | split | dsimp only

theorem State.usbFrames_keeps {s t : State} (n : Nat) (h : Keeps s t) : Keeps s (t.usbFrames n) := by
  induction n generalizing t with
  | zero => exact h
  | succ n ih =>
    unfold State.usbFrames
    with_reducible repeat'
      first | assumption | apply ih | apply Keeps.ite | apply State.usbWhole_keeps | apply State.usbHolds_keeps
            | apply State.usbNak_keeps | apply State.bump_keeps | simp only [keeps_mk] | split | dsimp only

theorem State.usbStale_keeps {s t : State} (h : Keeps s t) : Keeps s (State.usbStale t) := by
  unfold State.usbStale
  with_reducible repeat'
    first | intro _ | assumption | apply Keeps.ite | apply State.usbHolds_keeps | apply State.iff_keeps
          | apply State.serviceViolation_keeps | simp only [keeps_mk] | apply foldl_keeps | split | dsimp only

theorem State.released_keeps {s t : State} (j : Nat) (h : Keeps s t) : Keeps s (State.released t j) := by
  unfold State.released
  with_reducible repeat'
    first | intro _ | assumption | apply Keeps.ite | apply State.releaseHeld_keeps | simp only [keeps_mk]
          | apply foldl_keeps | split | dsimp only

theorem State.answerProt_keeps {s t : State} (ok : Bool) (what : Nat) (j : Nat) (tag : Nat) (h : Keeps s t) : Keeps s
    (State.answerProt t ok what j tag) := by
  unfold State.answerProt
  with_reducible repeat'
    first | intro _ | assumption | apply Keeps.ite | apply State.replyOk_keeps | apply State.replyAbort_keeps
          | simp only [keeps_mk] | apply foldl_keeps | split | dsimp only

theorem State.railFault_keeps {s t : State} (n : Nat) (cause : Nat) (h : Keeps s t) : Keeps s (State.railFault t n
    cause) := by
  unfold State.railFault
  with_reducible repeat'
    first | intro _ | assumption | apply Keeps.ite | apply State.wr_keeps | simp only [keeps_mk] | apply foldl_keeps
          | split | dsimp only

theorem State.pulseAndRelay_keeps {s t : State} (n : Nat) (h : Keeps s t) : Keeps s (State.pulseAndRelay t n) := by
  unfold State.pulseAndRelay
  with_reducible repeat'
    first | intro _ | assumption | apply Keeps.ite | apply State.faultPulse_keeps | apply State.relayFault_keeps
          | simp only [keeps_mk] | apply foldl_keeps | split | dsimp only

theorem State.graceAndTrigger_keeps {s t : State} (n : Nat) (h : Keeps s t) : Keeps s (State.graceAndTrigger t n) := by
  unfold State.graceAndTrigger
  with_reducible repeat'
    first | intro _ | assumption | apply Keeps.ite | apply State.trigger_keeps | apply State.bump_keeps
          | simp only [keeps_mk] | apply foldl_keeps | split | dsimp only

theorem State.warnRail_keeps {s t : State} (n : Nat) (which : Nat) (h : Keeps s t) : Keeps s (State.warnRail t n which)
    := by
  unfold State.warnRail
  with_reducible repeat'
    first | intro _ | assumption | apply Keeps.ite | apply State.flag_keeps | apply State.bump_keeps
          | apply State.event_keeps | simp only [keeps_mk] | apply foldl_keeps | split | dsimp only

theorem State.tickSupply_keeps {s t : State} (h : Keeps s t) : Keeps s (State.tickSupply t) := by
  unfold State.tickSupply
  with_reducible repeat'
    first | intro _ | assumption | apply Keeps.ite | simp only [keeps_mk] | apply foldl_keeps | split | dsimp only

theorem State.tickClock_keeps {s t : State} (h : Keeps s t) : Keeps s (State.tickClock t) := by
  unfold State.tickClock
  refine h.clk rfl rfl rfl ?_
  simp only [State.ticsOk, Bool.and_eq_true, decide_eq_true_eq]
  intro hh
  refine ⟨?_, Nat.mod_lt _ (by decide)⟩
  split
  · exact Nat.mod_lt _ (by decide)
  · exact hh.1

theorem State.tickBarrier_keeps {s t : State} (h : Keeps s t) : Keeps s (State.tickBarrier t) := by
  unfold State.tickBarrier
  with_reducible repeat'
    first | intro _ | assumption | apply Keeps.ite | simp only [keeps_mk] | apply foldl_keeps | split | dsimp only

theorem State.tickQuarantine_keeps {s t : State} (h : Keeps s t) : Keeps s (State.tickQuarantine t) := by
  unfold State.tickQuarantine
  with_reducible repeat'
    first | intro _ | assumption | apply Keeps.ite | simp only [keeps_mk] | apply foldl_keeps | split | dsimp only

theorem State.tickReadings_keeps {s t : State} (h : Keeps s t) : Keeps s (State.tickReadings t) := by
  unfold State.tickReadings
  with_reducible repeat'
    first | intro _ | assumption | apply Keeps.ite | apply State.wr_keeps | apply State.wrI_keeps
          | apply State.iff_keeps | apply State.each_keeps | apply State.bumpBy_keeps | apply State.phyViolations_keeps
          | simp only [keeps_mk] | apply foldl_keeps | split | dsimp only

theorem State.tickHvReadings_keeps {s t : State} (h : Keeps s t) : Keeps s (State.tickHvReadings t) := by
  unfold State.tickHvReadings
  with_reducible repeat'
    first | intro _ | assumption | apply Keeps.ite | apply State.hwr_keeps | apply State.hwrI_keeps
          | simp only [keeps_mk] | apply foldl_keeps | split | dsimp only

theorem State.tickCase_keeps {s t : State} (h : Keeps s t) : Keeps s (State.tickCase t) := by
  unfold State.tickCase
  with_reducible repeat'
    first | intro _ | assumption | apply Keeps.ite | apply State.flag_keeps | apply State.event_keeps
          | apply State.setAdmHold_keeps | apply State.iff_keeps | apply State.bump_keeps | simp only [keeps_mk]
          | apply foldl_keeps | split | dsimp only

theorem State.tickMirror_keeps {s t : State} (h : Keeps s t) : Keeps s (State.tickMirror t) := by
  unfold State.tickMirror
  with_reducible repeat'
    first | intro _ | assumption | apply Keeps.ite | apply State.commitAll_keeps | apply State.takeCounts_keeps
          | apply State.computeMargin_keeps | apply State.grants_keeps | apply State.admission_keeps
          | simp only [keeps_mk] | apply foldl_keeps | split | dsimp only

theorem State.tickLink_keeps {s t : State} (h : Keeps s t) : Keeps s (State.tickLink t) := by
  unfold State.tickLink
  with_reducible repeat'
    first | intro _ | assumption | apply Keeps.ite | apply State.iff_keeps | apply State.abortTx_keeps
          | apply State.linkRequest_keeps | apply State.tickTaps_keeps | apply State.tickEyes_keeps
          | apply State.llPump_keeps | simp only [keeps_mk] | apply foldl_keeps | split | dsimp only

theorem State.tickMembers_keeps {s t : State} (h : Keeps s t) : Keeps s (State.tickMembers t) := by
  unfold State.tickMembers
  with_reducible repeat'
    first | intro _ | assumption | apply Keeps.ite | apply State.each_keeps | apply State.iff_keeps
          | apply State.memberGone_keeps | simp only [keeps_mk] | apply foldl_keeps | split | dsimp only

theorem State.tickPour_keeps {s t : State} (h : Keeps s t) : Keeps s (State.tickPour t) := by
  unfold State.tickPour
  with_reducible repeat'
    first | intro _ | assumption | apply Keeps.ite | simp only [keeps_mk] | apply foldl_keeps | split | dsimp only

theorem State.tickHeld_keeps {s t : State} (h : Keeps s t) : Keeps s (State.tickHeld t) := by
  unfold State.tickHeld
  with_reducible repeat'
    first | intro _ | assumption | apply Keeps.ite | apply State.iff_keeps | apply State.unanswered_keeps
          | apply State.each_keeps | apply State.released_keeps | simp only [keeps_mk] | apply foldl_keeps | split
          | dsimp only

theorem State.tickActivity_keeps {s t : State} (h : Keeps s t) : Keeps s (State.tickActivity t) := by
  unfold State.tickActivity
  with_reducible repeat'
    first | intro _ | assumption | apply Keeps.ite | apply State.tickSeq_keeps | apply State.tickCascade_keeps
          | apply State.tickLink_keeps | apply State.tickMembers_keeps | apply State.tickCase_keeps
          | apply State.refreshEst_keeps | apply State.tickMirror_keeps | apply State.pump_keeps
          | apply State.shakePump_keeps | apply State.flushCheck_keeps | apply State.refreshOpen_keeps
          | apply State.refreshFettle_keeps | apply State.statusIfChanged_keeps | apply State.tickPour_keeps
          | simp only [keeps_mk] | apply foldl_keeps | split | dsimp only

theorem State.tickLogic_keeps {s t : State} (h : Keeps s t) : Keeps s (State.tickLogic t) := by
  unfold State.tickLogic
  with_reducible repeat'
    first | intro _ | assumption | apply Keeps.ite | apply State.iff_keeps | apply State.tickQuarantine_keeps
          | apply State.tickReadings_keeps | apply State.tickHeld_keeps | apply State.tickActivity_keeps
          | simp only [keeps_mk] | apply foldl_keeps | split | dsimp only

theorem State.refillAll_keeps {s t : State} (h : Keeps s t) : Keeps s (State.refillAll t) := by
  unfold State.refillAll
  with_reducible repeat'
    first | intro _ | assumption | apply Keeps.ite | simp only [keeps_mk] | apply foldl_keeps | split | dsimp only

theorem State.cycleStatus_keeps {s t : State} (h : Keeps s t) : Keeps s (State.cycleStatus t) := by
  unfold State.cycleStatus
  with_reducible repeat'
    first | intro _ | assumption | apply Keeps.ite | apply State.sendStatus_keeps | simp only [keeps_mk]
          | apply foldl_keeps | split | dsimp only

theorem State.cycleStart_keeps {s t : State} (h : Keeps s t) : Keeps s (State.cycleStart t) := by
  unfold State.cycleStart
  have h1 : Keeps s { t with clk := { t.clk with shift := t.rd Reg.schedShift } } := h.clk rfl rfl rfl id
  exact Keeps.ite h (Keeps.ite (State.beginOnSlots_keeps h1) h1)

theorem State.nextCycle_keeps {s t : State} (h : Keeps s t) : Keeps s (State.nextCycle t) := by
  unfold State.nextCycle
  extract_lets c first u
  have h1 : Keeps s u := by
    refine h.clk rfl rfl rfl ?_
    simp only [State.ticsOk, Bool.and_eq_true, decide_eq_true_eq, u]
    exact fun hh => ⟨by decide, hh.2⟩
  exact Keeps.ite (Keeps.ite (State.wr_keeps _ _ (State.wr_keeps _ _ h1)) (State.wr_keeps _ _ h1)) h1

end Sys2Proof.Machine
end

