-- ==== Sys2Proof/Laws/Sends.lean ====
section
/-! SUPPORT. What sending a link frame and answering a request do: the three registers of sending, the link layer's own state,
and the answer; nothing else. -/
namespace Sys2Proof.Machine

/-- What an operation of sending may touch: registers of `sendKeys`, the link layer's state. -/
def SendOnly (s t : State) : Prop :=
  ∃ reg ll, t = { s with reg := reg, ll := ll } ∧ ∀ k, k ∉ sendKeys → t.rd k = s.rd k

theorem SendOnly.refl (s) : SendOnly s s := ⟨s.reg, s.ll, rfl, fun _ _ => rfl⟩

theorem SendOnly.trans {s t u} (h1 : SendOnly s t) (h2 : SendOnly t u) : SendOnly s u := by
  obtain ⟨r, l, rfl, k1⟩ := h1
  obtain ⟨r', l', rfl, k2⟩ := h2
  exact ⟨r', l', rfl, fun k hk => (k2 k hk).trans (k1 k hk)⟩

theorem SendOnly.wr {s t} (k v) (hk : k ∈ sendKeys) (h : SendOnly s t) : SendOnly s (t.wr k v) :=
  h.trans ⟨_, _, rfl, fun q hq => State.rd_wr_ne t v (fun (e : q = k) => hq (e ▸ hk))⟩

theorem SendOnly.ll {s t} (l : LinkLayer) (h : SendOnly s t) : SendOnly s { t with ll := l } :=
  h.trans ⟨_, _, rfl, fun _ _ => rfl⟩

theorem SendOnly.rd {s t} (h : SendOnly s t) {k} (hk : k ∉ sendKeys) : t.rd k = s.rd k := h.choose_spec.choose_spec.2 k hk

theorem SendOnly.frame {s t u K H} (h : SendOnly t u) (hK : sendKeys ⊆ K) (hf : Frame K H s t) : Frame K H s u := by
  refine hf.trans ⟨⟨fun k hk => h.rd fun h' => hk (hK h'), ?_⟩, ?_⟩
  · obtain ⟨_, _, rfl, _⟩ := h
    exact fun _ _ => rfl
  · obtain ⟨_, _, rfl, _⟩ := h
    exact ⟨fun _ => rfl, rfl, rfl, rfl, rfl, rfl, .of_eq rfl⟩

theorem sendOnly_txFrame {s t} (f) (h : SendOnly s t) : SendOnly s (t.txFrame f) := by
  unfold State.txFrame State.bump
  exact ((h.ll _).wr _ _ (by decide)).wr _ _ (by decide) |>.wr _ _ (by decide)

theorem sendOnly_drainTx {s} (l : List TxFrame) : ∀ {t}, SendOnly s t → SendOnly s (t.drainTx l) := by
  induction l with
  | nil => exact fun h => h.ll _
  | cons f fs ih =>
    intro t h
    unfold State.drainTx
    split
    · exact ih (sendOnly_txFrame f h)
    · exact h.ll _

/-- Sending a frame. -/
theorem sendOnly_send (s : State) (f) : SendOnly s (s.send f) := by
  unfold State.send
  split
  · exact .refl s
  · exact sendOnly_drainTx _ ((SendOnly.refl s).ll _)

theorem sendOnly_sendStatus (s : State) : SendOnly s s.sendStatus := by
  unfold State.sendStatus
  exact ((SendOnly.refl s).ll _).trans (sendOnly_send _ _)

theorem sendOnly_statusIfChanged (s : State) : SendOnly s s.statusIfChanged := by
  unfold State.statusIfChanged
  split
  · exact .refl s
  · exact sendOnly_sendStatus s

theorem Frame.send {K H s t} (f) (h : Frame K H s t) (hK : sendKeys ⊆ K) : Frame K H s (t.send f) :=
  (sendOnly_send t f).frame hK h

theorem Frame.statusIfChanged {K H s t} (h : Frame K H s t) (hK : sendKeys ⊆ K) : Frame K H s t.statusIfChanged :=
  (sendOnly_statusIfChanged t).frame hK h

/-- What an answer does: it stands, whatever is sent of it. -/
@[simp] theorem State.reply_answer (s : State) (a) : (s.reply a).svc.answer = some a := by
  unfold State.reply
  extract_lets _ u
  split
  · obtain ⟨_, _, h, _⟩ := sendOnly_send (u.noteFate a) { ty := 0x21, payload := a.bytes 0 }
    rw [h]
    unfold State.noteFate
    dsimp only
    split <;> rfl
  · rfl

theorem Frame.reply {K H s t} (a) (h : Frame K H s t) (hK : answerKeys ⊆ K) : Frame K H s (t.reply a) := by
  unfold State.reply
  extract_lets _ u
  have hu : Frame K H s u := h.trans ⟨⟨fun _ _ => rfl, fun _ _ => rfl⟩, ⟨fun _ => rfl, rfl, rfl, rfl, rfl, rfl, .of_eq rfl⟩⟩
  refine Frame.ite (fun _ => .send _ ?_ fun k hk => hK (.tail _ hk)) fun _ => hu
  unfold State.noteFate
  exact Frame.ite (fun _ => hu.wr _ _ (hK (.head _))) fun _ => hu

end Sys2Proof.Machine
end

