-- ==== Sys2Proof/WellFormed.lean ====
section
/-! DEFINITION. Which commands the carriers and pins of the module can bring: the bounds an operand's type does not
already say. The meanings are total on every command; a statement that needs a bound names the check here. -/
namespace Sys2Proof

/-- A request body carries at most 1024 data bytes on any carrier (spec/02_object_dictionary.md R76, R87). -/
def Req.wf (r : Req) : Bool := r.data.length ≤ 1024

/-- The sample of a tick: eight sense pads (Table PK-4), four lanes (Table LP-1), no pad high and low at once (R107). -/
def Sample.wf (x : Sample) : Bool :=
  (x.vs.length = 8 || x.vs.isEmpty) && (x.codeErrs.length = 4 || x.codeErrs.isEmpty)
    && (x.skpAdj.length = 4 || x.skpAdj.isEmpty) && x.codeViols.length ≤ 4 && x.taps.all (fun l => l.length = 5 || l.isEmpty)
    && x.pads &&& x.padsLow = 0

/-- A received cascade frame is a CAN FD frame with at most 64 bytes (spec/17_cascade.md R434). -/
def canWf (payload : List Byte) : Bool := payload.length ≤ 64

/-- Readings of taps 0 to N, of at most twelve cells (spec/08_ladle.md R197, R200). -/
def tapsWf (l : List Nat) : Bool := l.length ≤ 13

/-- The checks of a command's operands. -/
def Instr.wf : Instr → Bool
  | .tick x => x.wf
  | .read r | .write r | .flagWrite r | .readLow r | .readHigh r | .clearIfEqual r | .describe r | .segReadInit r
  | .segWriteInit r | .segData r | .segAbort r | .windowWrite r | .windowRead r _ => r.wf
  | .usbFrameRx b => 0 < b.length
  | .canRequestRx _ fd b => b.length ≤ (if fd then 64 else 8)
  | .heartbeatRx _ p | .bootAnnouncementRx _ p | .pourCommandRx _ p | .faultRelayRx _ p | .staggerReferenceRx _ p
  | .heatAssignmentRx _ p | .stampSyncRx _ p | .eventFrameRx _ p => canWf p
  | .tapScan t _ _ _ => tapsWf t
  | .esrPulse b a _ _ _ => tapsWf b && tapsWf a
  | .tapResponseTest t _ | .dampLearn t _ => tapsWf t
  | .trainingSetRx _ b _ => b.length = 16
  | .eqDone c t => c.length ≤ 4 && t.all (fun l => l.length = 5)
  | .confirmComplete k _ => k.length ≤ 4
  | _ => true

end Sys2Proof
end

