-- ==== Sys2Proof/Tests/Slice0.lean ====
section
/-! SUPPORT. Tests: for each statement with hypotheses, states and operands that meet them; for commands, one step on a small
state; for each check of WellFormed, a command that it refuses. -/
namespace Sys2Proof.Tests
open Sys2Proof Sys2Proof.Machine
set_option maxRecDepth 100000
set_option Elab.async false

/-- Registers set one after the other. -/
def puts (t : Table Nat) : List (Nat × Nat) → Table Nat
  | [] => t
  | (k, v) :: l => puts (regSet t k v) l

/-- A request for a parameter, over USB where no source is given. -/
def rq (k : Nat) (d : List Nat := []) (fl : Byte := 0) (src : Src := 1) : Req :=
  { src := src, tag := 7, flags := fl, index := BitVec.ofNat 16 (k / 256), sub := BitVec.ofNat 8 (k % 256)
    data := d.map (BitVec.ofNat 8) }

/-- A link frame with its CRC, and a USB frame with its sync, length and CRC. -/
def frame (l : List Nat) : List Byte := (l ++ leBytes 4 (crc32 l)).map (BitVec.ofNat 8)
def usbFrame (l : List Nat) : List Byte :=
  let h := leBytes 2 l.length ++ l
  ([0x4B, 0x6F] ++ h ++ leBytes 4 (crc32 h)).map (BitVec.ofNat 8)

/-- An answer that is there, as a pair. -/
theorem getPair {α β : Type} {o : Option (α × β)} (h1 h2 : o.isSome = true) : 
    o = some ((o.get h1).1, (o.get h2).2) := (Option.some_get h1).symm

/-- A running module in guard that a USB session reaches. -/
def onUsb : State :=
  { State.reset with
    sup.usbUp := true, sup.running := true, sup.source := .iso, loaded := true, taken := true, phase := .guard }

/-- States and operands that meet the hypotheses of each clause of TrackerMovesTheTimeBase. -/
theorem wit_TrackerMovesTheTimeBase :
  (∃ (s : State) (us : Nat) (ap : Nat) (an : Nat) (err : Int), s.sup.main = true ∧ s.hrd Reg.mainsSense ≠ 0 ∧ s.trk.sidePos
    = true ∧ 8 ≤ s.trk.sideRun ∧ s.trk.crossed = false ∧ (s.tb = Tb.acquiring ∨ s.tb = Tb.locked) ∧ 1 ≤ us) ∧
  (∃ (s : State) (us : Nat) (ap : Nat) (an : Nat) (err : Int), s.sup.main = true ∧ s.hrd Reg.mainsSense ≠ 0 ∧ s.trk.sidePos
    = true ∧ 8 ≤ s.trk.sideRun ∧ s.trk.crossed = false ∧ (s.tb = Tb.seeking ∨ s.tb = Tb.lost) ∧ 2 ≤ s.trk.crossings ∧ s.hrd
    Reg.qualMin ≤ ap ∧ s.hrd Reg.qualMin ≤ an ∧ crossingInRange us = true) ∧
  (∃ (s : State) (us : Nat) (ap : Nat) (an : Nat) (err : Int), (s.trk.sidePos = false ∨ s.trk.sideRun < 8 ∨ s.trk.crossed =
    true)) ∧
  (∃ (s : State), s.tb = Tb.acquiring ∧ 2 ≤ s.trk.failCycles) ∧
  (∃ (s : State), s.tb = Tb.acquiring ∧ 1024 ≤ s.trk.inPhase ∧ s.trk.failCycles = 0 ∧ s.sup.running = true) ∧
  (∃ (s : State), s.tb = Tb.locked ∧ (2 ≤ s.trk.outPhase ∨ 4 ≤ s.trk.outFreq) ∧ s.sup.running = true) ∧
  (∃ (s : State), s.tb = Tb.locked ∧ 2048 ≤ s.trk.lockedTicks ∧ s.hrd Reg.lossRun ≤ s.trk.failing ∧ s.sup.running = true ∧
    s.taken = true ∧ s.phase = .rest) ∧
  (∃ (s : State) (n : Nat), s.sup.main = true ∧ s.trk.seekTicks = some n ∧ s.hrd Reg.mainsSense = 1 ∧ s.hrd Reg.seekLimit ≤
    n ∧ s.sup.running = true) :=
  ⟨⟨{ State.reset with
        sup.main := true, trk.sidePos := true, trk.sideRun := 8, trk.crossed := false,
        hv := puts State.reset.hv [(Reg.mainsSense, 1), (Reg.tbState, Tb.acquiring)] }, 20000, 0, 0, 0, by decide +kernel⟩,
   ⟨{ State.reset with
        sup.main := true, trk.sidePos := true, trk.sideRun := 8, trk.crossed := false, trk.crossings := 2,
        hv := puts State.reset.hv [(Reg.mainsSense, 1), (Reg.tbState, Tb.seeking)] }, 20000, 100000, 100000, 0,
    by decide +kernel⟩,
   ⟨{ State.reset with trk.sidePos := false }, 20000, 0, 0, 0, by decide +kernel⟩,
   ⟨{ State.reset with trk.failCycles := 2, hv := puts State.reset.hv [(Reg.tbState, Tb.acquiring)] }, by decide +kernel⟩,
   ⟨{ State.reset with
        trk.inPhase := 1024, trk.failCycles := 0, sup.running := true,
        hv := puts State.reset.hv [(Reg.tbState, Tb.acquiring)] }, by decide +kernel⟩,
   ⟨{ State.reset with trk.outPhase := 2, sup.running := true, hv := puts State.reset.hv [(Reg.tbState, Tb.locked)] },
    by decide +kernel⟩,
   ⟨{ State.reset with
        trk.lockedTicks := 2048, trk.failing := State.reset.hrd Reg.lossRun, sup.running := true, taken := true,
        phase := .rest, hv := puts State.reset.hv [(Reg.tbState, Tb.locked)] }, by decide +kernel⟩,
   ⟨{ State.reset with
        sup.main := true, sup.running := true, trk.seekTicks := some 4000000000,
        hv := puts State.reset.hv [(Reg.mainsSense, 1)] }, 4000000000, by decide +kernel⟩⟩

/-- States and operands that meet the hypotheses of each clause of FollowerTicksAndCyclesCount. -/
theorem wit_FollowerTicksAndCyclesCount :
  (∃ (s : State), s.sup.main = true ∧ s.sup.running = true ∧ s.coldRead = false ∧ s.clk.synced = false) ∧
  (∃ (s : State), s.sup.main = true ∧ s.sup.running = true ∧ s.coldRead = false ∧ s.clk.synced = true ∧ s.rd Reg.follower =
    0) ∧
  (∃ (s : State), s.sup.main = true ∧ s.sup.running = true ∧ s.coldRead = false ∧ s.clk.synced = true ∧ s.rd Reg.follower =
    0 ∧ s.clk.zeroed = false) ∧
  (∃ (s : State) (d : Bool), s.sup.main = true ∧ s.sup.running = true ∧ s.coldRead = false ∧ s.clk.synced = true ∧ s.rd
    Reg.follower ≠ 0 ∧ s.clk.tic < 1024) ∧
  (∃ (s : State), s.sup.running = true ∧ s.rd Reg.follower = 0 ∧ 2 ≤ s.clk.b0Gap) ∧
  (∃ (s : State), s.sup.running = true ∧ s.sup.main = true ∧ s.rd Reg.follower = 1 ∧ s.clk.b0Gap = 0 ∧ s.clk.b0Double = true
    ∧ (s.clk.tic = 1023 ∨ s.clk.tic = 0 ∨ s.clk.tic = 1)) ∧
  (∃ (s : State) (x : Sample), (∀ e ∈ s.svc.srcs, e.2.held = [])) ∧
  (∃ (s : State) (x : Sample), s.sup.running = true ∧ (∀ e ∈ s.svc.srcs, e.2.held = [])) ∧
  (∃ (s : State), s.sup.running = true ∧ s.clk.synced = true ∧ s.clk.fresh = false ∧ s.clk.zeroed = false ∧ s.clk.begun =
    true ∧ s.clk.tic = 1023 ∧ s.clk.step = 0 ∧ s.taken = false) ∧
  (∃ (s : State), s.rd Reg.admState = 1 ∧ s.rd Reg.admOpenRun ≤ s.sto.okRun) ∧
  (∃ (s : State), s.sup.running = true ∧ s.clk.synced = true ∧ s.clk.fresh = false ∧ s.clk.zeroed = false ∧ s.clk.begun =
    true ∧ s.clk.tic = 1023 ∧ s.clk.step ≠ 0 ∧ s.taken = false) :=
  ⟨⟨{ State.reset with sup.main := true, sup.running := true, sup.source := .iso, clk.synced := false }, by decide +kernel⟩,
   ⟨{ State.reset with
        sup.main := true, sup.running := true, sup.source := .iso, clk.synced := true,
        reg := puts State.reset.reg [(Reg.follower, 0)] }, by decide +kernel⟩,
   ⟨{ State.reset with
        sup.main := true, sup.running := true, sup.source := .iso, clk.synced := true, clk.zeroed := false,
        reg := puts State.reset.reg [(Reg.follower, 0)] }, by decide +kernel⟩,
   ⟨{ State.reset with
        sup.main := true, sup.running := true, sup.source := .iso, clk.synced := true,
        reg := puts State.reset.reg [(Reg.follower, 1)] }, true, by decide +kernel⟩,
   ⟨{ State.reset with sup.running := true, clk.b0Gap := 2, reg := puts State.reset.reg [(Reg.follower, 0)] },
    by decide +kernel⟩,
   ⟨{ State.reset with
        sup.running := true, sup.main := true, clk.b0Gap := 0, clk.b0Double := true, clk.tic := 1023,
        reg := puts State.reset.reg [(Reg.follower, 1)] }, by decide +kernel⟩,
   ⟨State.reset, {}, by decide +kernel⟩,
   ⟨{ State.reset with sup.running := true }, {}, by decide +kernel⟩,
   ⟨{ State.reset with
        sup.running := true, clk.synced := true, clk.fresh := false, clk.zeroed := false, clk.begun := true, clk.tic := 1023,
        clk.step := 0, taken := false }, by decide +kernel⟩,
   ⟨{ State.reset with sto.okRun := State.reset.rd Reg.admOpenRun, reg := puts State.reset.reg [(Reg.admState, 1)] },
    by decide +kernel⟩,
   ⟨{ State.reset with
        sup.running := true, clk.synced := true, clk.fresh := false, clk.zeroed := false, clk.begun := true, clk.tic := 1023,
        clk.step := 1, taken := false }, by decide +kernel⟩⟩

/-- States and operands that meet the hypotheses of each clause of SuppliesStartAndStop. -/
theorem wit_SuppliesStartAndStop :
  (∃ (s : State), ((s.sup.source = .iso ∧ s.firstSource = .vlog) ∨ (s.sup.source = .vlog ∧ s.firstSource = .iso))) ∧
  (∃ (s : State), s.sup.usb = true ∧ (s.sup.running = true ∨ s.sup.romOnly = true) ∧ s.sup.usbUp = false) ∧
  (∃ (s : State), s.sup.usbUp = true) ∧
  (∃ (s : State), s.sup.main = true ∧ s.sup.reduced = false ∧ s.smp.vbusIn < 9000 ∧ s.sup.running = true) ∧
  (∃ (s : State), s.sup.main = true ∧ s.sup.running = true) ∧
  (∃ (s : State), s.sup.wake = false ∧ (16000 ≤ s.smp.feedA ∨ 16000 ≤ s.smp.feedB)) ∧
  (∃ (s : State), s.sup.wake = true ∧ s.sup.main = true ∧ s.smp.feedA < 14000 ∧ s.smp.feedB < 14000) ∧
  (∃ (s : State), s.sup.wake = true ∧ s.sup.main = false ∧ s.smp.feedA < 14000 ∧ s.smp.feedB < 14000) ∧
  (∃ (s : State), s.sup.main = false ∧ 9000 ≤ s.smp.vbusIn) ∧
  (∃ (s : State), s.sup.main = true ∧ s.smp.vbusIn < 6500 ∧ s.sup.wake = true) :=
  ⟨⟨{ State.reset with sup.source := .iso, sup.iso := false, sup.vlog := true }, by decide +kernel⟩,
   ⟨{ State.reset with sup.usb := true, sup.running := true, sup.usbUp := false }, by decide +kernel⟩,
   ⟨{ State.reset with sup.usbUp := true }, by decide +kernel⟩,
   ⟨{ State.reset with sup.main := true, sup.reduced := false, sup.running := true }, by decide +kernel⟩,
   ⟨{ State.reset with sup.main := true, sup.running := true }, by decide +kernel⟩,
   ⟨{ State.reset with sup.wake := false, smp.feedA := 16000 }, by decide +kernel⟩,
   ⟨{ State.reset with sup.wake := true, sup.main := true }, by decide +kernel⟩,
   ⟨{ State.reset with sup.wake := true, sup.main := false }, by decide +kernel⟩,
   ⟨{ State.reset with sup.main := false, smp.vbusIn := 9000 }, by decide +kernel⟩,
   ⟨{ State.reset with sup.main := true, sup.wake := true }, by decide +kernel⟩⟩

/-- States and operands that meet the hypotheses of each clause of ResetsLeaveTheStores. -/
theorem wit_ResetsLeaveTheStores :
  (∃ (s : State), s.sup.source = .off ∧ s.firstSource ≠ .off ∧ s.pads.b4 = false ∧ s.fla.erase = none ∧ s.rd Reg.fwState ≠ 1
    ∧ s.log.writing = []) ∧
  (∃ (s : State), s.sup.source ≠ .off ∧ s.firstSource = .off ∧ s.pads.b4 = false ∧ s.fla.erase = none ∧ s.rd Reg.fwState ≠
    1) ∧
  (∃ (s : State), s.bar.halted = false ∧ s.sup.source ≠ .off ∧ s.pads.b4 = false ∧ s.rd Reg.fwState ≠ 1 ∧ s.fla.erase = none
    ∧ s.svc.commit = none ∧ s.sto.erase = none ∧ (∀ p ∈ s.sto.pages, p.busy = false)) ∧
  (∃ (s : State), s.sup.running = true ∧ s.phase = .guard ∧ s.sup.iso = true ∧ (s.bar.lost = true ∨ s.bar.pathLost = true) ∧
    65536 ≤ s.bar.lostTicks ∧ s.sup.source ≠ .off ∧ s.pads.b4 = false ∧ s.rd Reg.fwState ≠ 1 ∧ s.fla.erase = none ∧
    s.svc.commit = none ∧ s.sto.erase = none ∧ (∀ p ∈ s.sto.pages, p.busy = false)) ∧
  (∃ (s : State) (b : Fin 4), s.sup.running = true ∧ s.bankBusyNow.testBit b = true ∧ s.sup.source ≠ .off ∧ s.pads.b4 =
    false) :=
  ⟨⟨{ State.reset with sup.source := .off, pads.b4 := false, fla.erase := none, log.writing := [], sup.iso := true },
    by decide +kernel⟩,
   ⟨{ State.reset with
        pads.b4 := false, fla.erase := none, sup.source := .vlog, sup.iso := false, sup.vlog := false, sup.usb := false },
    by decide +kernel⟩,
   ⟨{ State.reset with
        bar.halted := false, pads.b4 := false, fla.erase := none, svc.commit := none, sto.erase := none, sup.source := .vlog },
    by decide +kernel⟩,
   ⟨{ State.reset with
        sup.running := true, phase := .guard, sup.iso := true, bar.lost := true, bar.lostTicks := 65536, pads.b4 := false,
        fla.erase := none, svc.commit := none, sto.erase := none, sup.source := .iso }, by decide +kernel⟩,
   ⟨{ State.reset with
        sup.running := true, pads.b4 := false, sup.source := .iso,
        reg := puts State.reset.reg [(Reg.fwState, 1), (Reg.fwRunningSlot, 1)] }, 0, by decide +kernel⟩⟩

/-- States and operands that meet the hypotheses of each clause of BootAndStartStepsFollowEachOther. -/
theorem wit_BootAndStartStepsFollowEachOther :
  (∃ (s : State) (straps : BitVec 6), s.sup.bootDue = true ∧ s.romChoice.isSome = true ∧ s.coldRead = false ∧ s.heldBoot =
    false) ∧
  (∃ (s : State) (straps : BitVec 6), s.sup.bootDue = true) ∧
  (∃ (s : State), s.phase = .start ∧ s.rd Reg.startStep = Step.powerWake ∧ s.bar.up = true ∧ s.rd Reg.barrierState = 1 ∧
    s.rd Reg.follower = 0) ∧
  (∃ (s : State), s.phase = .start ∧ s.rd Reg.startStep = Step.configLoad ∧ s.taken = false ∧ s.rd Reg.idleHold % 128 ≠ 0 ∧
    s.bestBank = none) ∧
  (∃ (s : State), s.phase = .start ∧ s.rd Reg.startStep = Step.configLoad ∧ s.taken = false ∧ s.rd Reg.idleHold % 128 = 0 ∧
    s.bar.shareSent = false) ∧
  (∃ (s : State), s.taken = true ∧ s.sup.main = true ∧ s.bar.shareSent = false ∧ s.rd Reg.barrierState = 1 ∧ s.rd
    Reg.follower = 0) ∧
  (∃ (s : State), s.phase = .start ∧ s.rd Reg.startStep = Step.chargeWait ∧ s.chargeSlot ≠ 0) ∧
  (∃ (s : State), s.phase = .start ∧ s.rd Reg.startStep = Step.charge ∧ s.rd Reg.isState = 2 ∧ 2 ≤ s.lad.okCycles ∧ s.rd
    Reg.ladleReserve ≤ s.rd Reg.ladleE) :=
  ⟨⟨{ State.reset with sup.bootDue := true, heldBoot := false, sup.source := .iso }, 0, by decide +kernel⟩,
   ⟨{ State.reset with sup.bootDue := true }, 0, by decide +kernel⟩,
   ⟨{ State.reset with
        phase := .start, bar.up := true,
        reg := puts State.reset.reg [(Reg.startStep, Step.powerWake), (Reg.barrierState, 1), (Reg.follower, 0)] },
    by decide +kernel⟩,
   ⟨{ State.reset with
        phase := .start, taken := false, reg := puts State.reset.reg [(Reg.startStep, Step.configLoad), (Reg.idleHold, 1)] },
    by decide +kernel⟩,
   ⟨{ State.reset with
        phase := .start, taken := false, bar.shareSent := false,
        reg := puts State.reset.reg [(Reg.startStep, Step.configLoad)] }, by decide +kernel⟩,
   ⟨{ State.reset with
        taken := true, sup.main := true, bar.shareSent := false,
        reg := puts State.reset.reg [(Reg.barrierState, 1), (Reg.follower, 0)] }, by decide +kernel⟩,
   ⟨{ State.reset with phase := .start, reg := puts State.reset.reg [(Reg.startStep, Step.chargeWait)] }, by decide +kernel⟩,
   ⟨{ State.reset with
        phase := .start, lad.okCycles := 2,
        reg := puts State.reset.reg [(Reg.startStep, Step.charge), (Reg.isState, 2), (Reg.ladleReserve, 0)] },
    by decide +kernel⟩⟩

/-- States and operands that meet the hypotheses of each clause of PadsAndTheFaultLine. -/
theorem wit_PadsAndTheFaultLine :
  (∃ (s : State) (p : Pad), (s.padDriven p.val).isSome = true ∧ s.padLimited p.val = false ∧ s.padIsOff p.val = false ∧
    s.sup.running = true) ∧
  (∃ (s : State) (p : Pad), s.padLimited p.val = true ∧ 8 ≤ s.run (rcPadClean p.val)) ∧
  (∃ (s : State) (p : Pad), s.padLimited p.val = true ∧ tget 0 s.pads.lim p.val + s.rd Reg.contOffDelay ≤ s.tick + 1) ∧
  (∃ (s : State), s.taken = true ∧ s.pads.fault = true ∧ s.seq.pulseEnd ≤ s.tick) ∧
  (∃ (s : State), s.pourReady = true ∧ s.seq.armed = true ∧ s.rd Reg.faultInEn = 1 ∧ s.rd Reg.faultInFilter ≤ s.run
    rcFaultLow) ∧
  (∃ (s : State), s.taken = true ∧ s.sup.running = true ∧ s.seq.stuck = false ∧ 2560 ≤ s.run rcFaultStuck) ∧
  (∃ (s : State), s.taken = true ∧ s.sup.running = true ∧ s.seq.stuck = true ∧ 1024 ≤ s.run rcFaultHigh) ∧
  (∃ (s : State), s.taken = true ∧ s.sup.running = true ∧ s.seq.stuck = false ∧ s.seq.armed = false ∧ 64 ≤ s.run
    rcFaultHigh) ∧
  (∃ (s : State), s.taken = true ∧ s.sup.running = true ∧ (s.phase = .start ∨ s.phase = .guard ∨ s.phase = .pour) ∧
    s.pads.hostHold = true ∧ s.pads.hostDrain = false ∧ s.hostReady = true) ∧
  (∃ (s : State) (n : Rail), s.taken = true ∧ s.sup.running = true ∧ s.phase = .rest ∧ s.seq.alive = false ∧ 1024 ≤ s.run
    (rcAlive n)) :=
  ⟨⟨{ State.reset with sup.running := true, pads.en := [(0, 1)] }, 0, by decide +kernel⟩,
   ⟨{ State.reset with pads.lim := [(0, 1)], runs := [((rcPadClean (0 : Pad).val), 8)] }, 0, by decide +kernel⟩,
   ⟨{ State.reset with clk.now := 200000, pads.lim := [(0, 1)] }, 0, by decide +kernel⟩,
   ⟨{ State.reset with taken := true, pads.fault := true }, by decide +kernel⟩,
   ⟨{ State.reset with
        sup.running := true, taken := true, phase := .guard, sto.since := true, seq.armed := true,
        runs := [(rcFaultLow, State.reset.rd Reg.faultInFilter)], reg := puts State.reset.reg [(Reg.faultInEn, 1)] },
    by decide +kernel⟩,
   ⟨{ State.reset with
        taken := true, sup.running := true, seq.stuck := false, clk.now := 200000, runs := [(rcFaultStuck, 2560)] },
    by decide +kernel⟩,
   ⟨{ State.reset with
        taken := true, sup.running := true, seq.stuck := true, clk.now := 200000, runs := [(rcFaultHigh, 1024)] },
    by decide +kernel⟩,
   ⟨{ State.reset with
        taken := true, sup.running := true, seq.stuck := false, seq.armed := false, clk.now := 200000,
        runs := [(rcFaultHigh, 64)] }, by decide +kernel⟩,
   ⟨{ State.reset with
        taken := true, sup.running := true, phase := .start, pads.hostHold := true, pads.hostDrain := false,
        reg := puts State.reset.reg [(Reg.hostRail, 0), (Reg.railState 0, 4), (Reg.hostRstDelay, 0)] }, by decide +kernel⟩,
   ⟨{ State.reset with
        taken := true, sup.running := true, phase := .rest, seq.alive := false, runs := [((rcAlive (0 : Rail)), 1024)] }, 0,
    by decide +kernel⟩⟩

/-- States and operands that meet the hypotheses of each clause of FeedsSeatStartAndBlock. -/
theorem wit_FeedsSeatStartAndBlock :
  (∃ (s : State) (f : Feed), s.feedsRun = true ∧ (s.hrd (Reg.seatState f.val)).testBit 2 = false ∧ s.hrd (Reg.seatQual
    f.val) ≤ s.run (rcSeat f.val) ∧ s.feedSt f.val = Fs.unseated ∧ s.damageNew f.val = false ∧ s.phase ≠ .rest) ∧
  (∃ (s : State) (f : Feed), s.feedsRun = true ∧ (s.hrd (Reg.seatState f.val)).testBit 2 = false ∧ s.hrd (Reg.seatQual
    f.val) ≤ s.run (rcSeat f.val) ∧ s.damageNew f.val = true ∧ s.phase ≠ .rest) ∧
  (∃ (s : State) (f : Feed), s.feedsRun = true ∧ (s.hrd (Reg.seatState f.val)).testBit 2 = true ∧ s.hrd (Reg.seatRel f.val)
    ≤ s.run (rcRel f.val) ∧ s.feedSt f.val ≠ Fs.damaged ∧ s.hrd Reg.seatPour = 0 ∧ s.sup.running = true) ∧
  (∃ (s : State) (f : Feed), s.feedsRun = true ∧ s.feedSt f.val = Fs.seated ∧ s.ssAllowed f.val = true ∧ s.feedHigh f.val =
    true ∧ s.checking f.val = false ∧ (f.val = 0 ∨ s.feedSt 0 ≠ Fs.seated) ∧ s.sup.running = true) ∧
  (∃ (s : State) (f : Feed), s.feedSt f.val = Fs.softStart ∧ 8 ≤ s.run (rcSs f.val)) ∧
  (∃ (s : State) (f : Feed) (a : Nat) (b : Nat) (x : Int), s.feedSt f.val = Fs.on ∧ (a + 100 < b ∨ x < -1000) ∧
    s.sup.running = true) ∧
  (∃ (s : State) (f : Feed) (mv : Nat) (us : Nat), s.feedSt f.val = Fs.on ∧ s.hrd (Reg.feedOv f.val) < mv ∧ 10 ≤ us ∧
    s.sup.running = true) ∧
  (∃ (s : State) (f : Feed), s.feedSt f.val = Fs.blocked ∧ (if (s.feedX f.val).blockOv = true then 1024 ≤ s.run (rcOvOk
    f.val) else 8 ≤ s.run (rcBack f.val)) ∧ s.pads.b4 = false ∧ s.hrd (Reg.feedUv f.val) ≤ s.feedMv f.val) :=
  ⟨⟨{ State.reset with
        sup.main := true, runs := [(rcSeat 0, 4000000000)], hv := puts State.reset.hv [(Reg.feedState 0, Fs.unseated)] }, 0,
    by decide +kernel⟩,
   ⟨{ State.reset with sup.main := true, runs := [(rcSeat 0, 4000000000), (rcTest 0 2, 8)] }, 0, by decide +kernel⟩,
   ⟨{ State.reset with
        sup.wake := true, sup.running := true, runs := [(rcRel 0, State.reset.hrd (Reg.seatRel 0))],
        hv := puts State.reset.hv [(Reg.seatPour, 0), (Reg.seatState 0, 4)] }, 0, by decide +kernel⟩,
   ⟨{ State.reset with
        sup.wake := true, sup.running := true, smp.feedA := 48000,
        hv := puts State.reset.hv [(Reg.feedState 0, Fs.seated), (Reg.feedEn 0, 1)] }, 0, by decide +kernel⟩,
   ⟨{ State.reset with runs := [(rcSs 0, 8)], hv := puts State.reset.hv [(Reg.feedState 0, Fs.softStart)] }, 0,
    by decide +kernel⟩,
   ⟨{ State.reset with sup.running := true, hv := puts State.reset.hv [(Reg.feedState 0, Fs.on)] }, 0, 0, 0, -2000,
    by decide +kernel⟩,
   ⟨{ State.reset with sup.running := true, hv := puts State.reset.hv [(Reg.feedState 0, Fs.on)] }, 0, 70000, 10,
    by decide +kernel⟩,
   ⟨{ State.reset with
        pads.b4 := false, smp.feedA := 48000, runs := [(rcBack 0, 8)],
        hv := puts State.reset.hv [(Reg.feedState 0, Fs.blocked)] }, 0, by decide +kernel⟩⟩

/-- States that meet hypotheses of FeedsTripAndLatch. -/
def st1 : State :=
  { State.reset with
      sup.running := true, bar.lost := false, hv := puts State.reset.hv [(Reg.feedState 0, Fs.on), (Reg.feedState 1, Fs.on)] }
def st2 : State := { State.reset with hv := puts State.reset.hv [(Reg.fetTempSrc 0, 0)] }
def st3 : State :=
  { State.reset with
      sup.running := true, bar.lost := false, smp.hvTemp := 1500,
      hv := puts State.reset.hv [(Reg.fetTempSrc 0, 0), (Reg.feedState 0, Fs.on), (Reg.fetTwarn 0, 2000), (Reg.fetTmax 0, 1000), (Reg.feedState 1, Fs.on)] }
def st4 : State :=
  { State.reset with
      sup.running := true, bar.lost := false, smp.hvTemp := 3000,
      hv := puts State.reset.hv [(Reg.fetTempSrc 0, 0), (Reg.feedState 0, Fs.on), (Reg.feedState 1, Fs.on)] }

/-- States and operands that meet the hypotheses of each clause of FeedsTripAndLatch. -/
theorem wit_FeedsTripAndLatch :
  (∃ (s : State) (f : Feed), s.sup.running = true ∧ s.bar.lost = false ∧ s.feedSt (1 - f.val) = Fs.on ∧ s.feedSt f.val =
    Fs.softStart ∧ 2 * s.hrd (Reg.ssTime f.val) ≤ s.tick - (s.feedX f.val).ssFrom) ∧
  (∃ (s : State) (f : Feed) (uv : Nat), s.sup.running = true ∧ s.bar.lost = false ∧ s.feedSt (1 - f.val) = Fs.on ∧ s.feedSt
    f.val = Fs.on ∧ s.hrd (Reg.fastTrip f.val) * 1000 ≤ uv) ∧
  (∃ (s : State) (f : Feed) (uv : Nat), s.pourReady = true ∧ s.bar.lost = true ∧ s.feedSt (1 - f.val) = Fs.on ∧ s.feedSt
    f.val = Fs.on ∧ s.hrd (Reg.fastTrip f.val) * 1000 ≤ uv) ∧
  (∃ (s : State) (f : Feed) (ma : Nat) (us : Nat) (k : Nat), s.sup.running = true ∧ s.bar.lost = false ∧ s.feedSt (1 -
    f.val) = Fs.on ∧ s.feedSt f.val = Fs.on ∧ tripAt (s.hrd (Reg.itCurve f.val)) 8 ma us (s.feedX f.val).timers = some k) ∧
  (∃ (s : State) (f : Feed) (ma : Nat) (us : Nat), tripAt (s.hrd (Reg.itCurve f.val)) 8 ma us (s.feedX f.val).timers = none) ∧
  (∃ (s : State) (f : Feed) (mv : Nat) (us : Nat), s.sup.running = true ∧ s.bar.lost = false ∧ s.feedSt (1 - f.val) = Fs.on
    ∧ s.feedSt f.val = Fs.on ∧ (s.feedX f.val).drop = 0 ∧ mv < 7000 ∧ 20 ≤ us) ∧
  (∃ (s : State) (f : Feed) (mv : Nat) (us : Nat), s.feedSt f.val = Fs.on ∧ (s.feedX f.val).drop ≠ 0) ∧
  (∃ (s : State) (f : Feed) (T : Int), s.hrd (Reg.fetTempSrc f.val) = 0 ∧ T = s.smp.hvTemp + poleStep (s.feedX f.val).rise
    (s.fetPower f.val) (s.hrd (Reg.fetRth f.val)) (s.hrd (Reg.fetTau f.val)) / riseUnit ∧ T < s.hrdI (Reg.fetTwarn f.val) ∧
    T < s.hrdI (Reg.fetTmax f.val) ∧ -32768 ≤ T ∧ T ≤ 32767) ∧
  (∃ (s : State) (f : Feed) (T : Int), s.hrd (Reg.fetTempSrc f.val) = 0 ∧ T = s.smp.hvTemp + poleStep (s.feedX f.val).rise
    (s.fetPower f.val) (s.hrd (Reg.fetRth f.val)) (s.hrd (Reg.fetTau f.val)) / riseUnit ∧ T < s.hrdI (Reg.fetTwarn f.val) ∧
    s.hrdI (Reg.fetTmax f.val) ≤ T ∧ s.sup.running = true ∧ s.bar.lost = false ∧ s.feedSt (1 - f.val) = Fs.on ∧ s.feedSt
    f.val = Fs.on) ∧
  (∃ (s : State) (f : Feed) (T : Int), s.hrd (Reg.fetTempSrc f.val) = 0 ∧ T = s.smp.hvTemp + poleStep (s.feedX f.val).rise
    (s.fetPower f.val) (s.hrd (Reg.fetRth f.val)) (s.hrd (Reg.fetTau f.val)) / riseUnit ∧ s.hrdI (Reg.fetTwarn f.val) ≤ T ∧
    s.hrdI (Reg.fetTmax f.val) ≤ T ∧ s.sup.running = true ∧ s.bar.lost = false ∧ s.feedSt (1 - f.val) = Fs.on ∧ s.feedSt
    f.val = Fs.on) :=
  ⟨⟨{ State.reset with
        sup.running := true, bar.lost := false, clk.now := 4000000000,
        hv := puts State.reset.hv [(Reg.feedState 0, Fs.softStart), (Reg.feedState 1, Fs.on)] }, 0, by decide +kernel⟩,
   ⟨{ State.reset with
        sup.running := true, bar.lost := false,
        hv := puts State.reset.hv [(Reg.feedState 0, Fs.on), (Reg.feedState 1, Fs.on)] }, 0, 1000000, by decide +kernel⟩,
   ⟨{ State.reset with
        bar.lost := true, sup.running := true, sup.source := .iso, taken := true, phase := .guard, sto.since := true,
        hv := puts State.reset.hv [(Reg.feedState 0, Fs.on), (Reg.feedState 1, Fs.on)] }, 0, 1000000, by decide +kernel⟩,
   ⟨st1, 0, 1000000, 100000000,
    Option.get (tripAt (st1.hrd (Reg.itCurve 0)) 8 1000000 100000000 (st1.feedX 0).timers) (by decide +kernel),
    by decide +kernel, by decide +kernel, by decide +kernel, by decide +kernel, (Option.some_get _).symm⟩,
   ⟨State.reset, 0, 0, 0, by decide +kernel⟩,
   ⟨{ State.reset with
        sup.running := true, bar.lost := false,
        hv := puts State.reset.hv [(Reg.feedState 0, Fs.on), (Reg.feedState 1, Fs.on)] }, 0, 0, 20, by decide +kernel⟩,
   ⟨{ State.reset with feeds := [(0, { drop := 1 })], hv := puts State.reset.hv [(Reg.feedState 0, Fs.on)] }, 0, 0, 20,
    by decide +kernel⟩,
   ⟨st2, 0,
    st2.smp.hvTemp + poleStep (st2.feedX 0).rise (st2.fetPower 0) (st2.hrd (Reg.fetRth 0)) (st2.hrd (Reg.fetTau 0)) / riseUnit,
    by decide +kernel, rfl, by decide +kernel⟩,
   ⟨st3, 0,
    st3.smp.hvTemp + poleStep (st3.feedX 0).rise (st3.fetPower 0) (st3.hrd (Reg.fetRth 0)) (st3.hrd (Reg.fetTau 0)) / riseUnit,
    by decide +kernel, rfl, by decide +kernel⟩,
   ⟨st4, 0,
    st4.smp.hvTemp + poleStep (st4.feedX 0).rise (st4.fetPower 0) (st4.hrd (Reg.fetRth 0)) (st4.hrd (Reg.fetTau 0)) / riseUnit,
    by decide +kernel, rfl, by decide +kernel⟩⟩

/-- States and operands that meet the hypotheses of each clause of FetsAreCheckedAndSagIsDeclared. -/
theorem wit_FetsAreCheckedAndSagIsDeclared :
  (∃ (s : State) (f : Feed), s.feedsRun = true ∧ s.testable f.val = true ∧ (s.feedSt f.val ≠ Fs.unseated ∨ s.positive f.val
    2 = true) ∧ s.damageNew f.val = true ∧ s.sup.running = true) ∧
  (∃ (s : State), s.sup.main = true ∧ dueCycle s.clk.hvCyc (s.hrd Reg.fetCheckPeriod / 1024) 0 = true ∧ s.clk.hvTic =
    windowTick 16384 s.clk.shift ∧ s.bus.checkCyc ≠ s.clk.hvCyc + 1 ∧ s.bus.check = none ∧ s.bitOf Reg.idleHold 0 = false ∧
    s.phase = .guard ∧ s.feedSt 0 = Fs.on ∧ s.feedSt 1 = Fs.on ∧ s.bus.nextCheck < 2 ∧ s.smp.iA + s.smp.iB ≤ (s.hrd
    (Reg.feedRated (1 - s.bus.nextCheck)) : Int)) ∧
  (∃ (s : State), (s.hrd (Reg.feedRated (1 - s.bus.nextCheck)) : Int) < s.smp.iA + s.smp.iB) ∧
  (∃ (s : State) (f : Nat) (at_ : Nat), s.bus.check = some (f, at_) ∧ f < 2 ∧ 2048 ≤ s.tick - at_) ∧
  (∃ (s : State), 64 ≤ s.run rcShare ∧ s.sup.running = true) ∧
  (∃ (s : State), s.bus.everOn = true ∧ s.pads.b4 = false ∧ (s.hrd Reg.sagRun ≤ s.run rcSag ∨ s.hrd Reg.sagRun ≤ s.run
    rcSagHu) ∧ s.sup.running = true ∧ s.taken = true ∧ s.phase = .rest) :=
  ⟨⟨{ State.reset with
        sup.running := true, sup.main := true, runs := [(rcTest 0 1, 8)],
        hv := puts State.reset.hv [(Reg.feedState 0, Fs.seated)] }, 0, by decide +kernel⟩,
   ⟨{ State.reset with
        sup.main := true, bus.check := none, phase := .guard, clk.hvTic := windowTick 16384 0,
        hv := puts State.reset.hv [(Reg.feedState 0, Fs.on), (Reg.feedState 1, Fs.on)] }, by decide +kernel⟩,
   ⟨{ State.reset with smp.iA := 100000000 }, by decide +kernel⟩,
   ⟨{ State.reset with bus.check := some ((0 : Nat), (0 : Nat)), clk.now := 200000 }, 0, 0, by decide +kernel⟩,
   ⟨{ State.reset with sup.running := true, runs := [(rcShare, 64)] }, by decide +kernel⟩,
   ⟨{ State.reset with
        bus.everOn := true, pads.b4 := false, sup.running := true, taken := true, phase := .rest,
        runs := [(rcSag, State.reset.hrd Reg.sagRun)] }, by decide +kernel⟩⟩

/-- States and operands that meet the hypotheses of each clause of TapScansAndTheCharger. -/
theorem wit_TapScansAndTheCharger :
  (∃ (s : State) (taps : List Nat) (stack : Nat) (l1 : Nat) (l2 : Nat), s.sup.main = true ∧ s.lad.scanned = true) ∧
  (∃ (s : State) (taps : List Nat) (stack : Nat) (l1 : Nat) (l2 : Nat), s.sup.main = true ∧ s.lad.scanned = false ∧ inWindow
    s.clk.hvTic 10240 16383 s.clk.shift = true ∧ s.bitOf Reg.idleHold 1 = false) ∧
  (∃ (s : State), s.lad.pendingTarget = true ∧ 2 ≤ s.lad.targetRun) ∧
  (∃ (s : State), s.hrd Reg.chgState = Cs.cv ∧ 64 ≤ s.lad.termRun) ∧
  (∃ (s : State), s.bitOf Reg.ladleFault 4 = false ∧ (8 ≤ s.lad.limRun ∨ 64 ≤ s.lad.lowRun)) :=
  ⟨⟨{ State.reset with sup.main := true, lad.scanned := true }, [], 0, 0, 0, by decide +kernel⟩,
   ⟨{ State.reset with sup.main := true, lad.scanned := false, clk.hvTic := 160 }, [0, 2500, 5000, 7500], 7500, 0, 0,
    by decide +kernel⟩,
   ⟨{ State.reset with lad.pendingTarget := true, lad.targetRun := 2 }, by decide +kernel⟩,
   ⟨{ State.reset with lad.termRun := 64, hv := puts State.reset.hv [(Reg.chgState, Cs.cv)] }, by decide +kernel⟩,
   ⟨{ State.reset with lad.limRun := 8 }, by decide +kernel⟩⟩

/-- States and operands that meet the hypotheses of each clause of LadleTestsMeasure. -/
theorem wit_LadleTestsMeasure :
  (∃ (s : State) (d : Nat), s.capDueAt = some d ∧ s.clk.hvTic = 0 ∧ s.sup.main = true ∧ s.phase = .guard ∧ d ≤ s.clk.cyc ∧
    s.clk.cyc < d + 1024 ∧ s.lad.draw = none ∧ s.hrd Reg.chgState = Cs.done ∧ s.anyOpen = false ∧ s.hrd Reg.holdupBarred = 0
    ∧ s.hu = Hs.armed ∧ s.bar.hbLost = false ∧ s.sto.bounded = true ∧ s.capNeed ≤ (s.sto.marginUj : Rat)) ∧
  (∃ (s : State) (at_ : Nat) (g : CapSeg), s.lad.draw = some (at_, g) ∧ s.hu = Hs.test ∧ (s.lad.stack + s.cells * s.hrd
    Reg.capDip ≤ g.stack ∨ s.hrd Reg.capTestMax ≤ s.tick - at_)) ∧
  (∃ (s : State) (d : Nat), s.capDueAt = some d ∧ d + 1024 ≤ s.clk.cyc) ∧
  (∃ (s : State) (b : List Nat) (a : List Nat) (st0 : Nat) (st1 : Nat) (ma : Nat), s.sup.main = true ∧ s.sup.running = true
    ∧ s.lad.pulse = 3) ∧
  (∃ (s : State) (b : List Nat) (a : List Nat) (st0 : Nat) (st1 : Nat) (ma : Nat), s.lad.pulse ≠ 3) ∧
  (∃ (s : State) (resp : List Nat) (stack : Nat), s.n1Ended = true ∧ s.lad.n1 = 1 ∧ s.dampDue = false ∧ s.rep.kind ≠ 3) ∧
  (∃ (s : State) (resp : List Nat) (stack : Nat), s.lad.n1 ≠ 1) ∧
  (∃ (s : State) (resp : List Nat) (stack : Nat), s.n1Ended = true ∧ s.lad.n1 = 2) :=
  ⟨⟨{ State.reset with
        clk.hvTic := 0, sup.main := true, phase := .guard, lad.draw := none, bar.hbLost := false, sto.bounded := true,
        lad.capFrom := some (0, true), clk.cyc := State.reset.hrd Reg.capFirstDelay / 1024, sto.marginUj := 4000000000000,
        hv := puts State.reset.hv [(Reg.chgState, Cs.done), (Reg.holdupBarred, 0), (Reg.huState, Hs.armed)] },
    State.reset.hrd Reg.capFirstDelay / 1024, by decide +kernel⟩,
   ⟨{ State.reset with
        lad.draw := some ((0 : Nat), ({ stack := 1000000 } : CapSeg)), clk.now := 200000,
        hv := puts State.reset.hv [(Reg.huState, Hs.test)] }, 0, { stack := 1000000 }, by decide +kernel⟩,
   ⟨{ State.reset with lad.capFrom := some (0, true), clk.cyc := State.reset.hrd Reg.capFirstDelay / 1024 + 1024 },
    State.reset.hrd Reg.capFirstDelay / 1024, by decide +kernel⟩,
   ⟨{ State.reset with sup.main := true, sup.running := true, lad.pulse := 3 }, [0, 2500], [0, 2490], 20000, 19900, 100,
    by decide +kernel⟩,
   ⟨State.reset, [], [], 0, 0, 0, by decide +kernel⟩,
   ⟨{ State.reset with lad.n1 := 1, sup.main := true, sup.running := true, clk.hvTic := 751 }, [], 0, by decide +kernel⟩,
   ⟨State.reset, [], 0, by decide +kernel⟩,
   ⟨{ State.reset with lad.n1 := 2, sup.main := true, sup.running := true, clk.hvTic := 751 }, [], 0, by decide +kernel⟩⟩

/-- States that meet hypotheses of HoldupArmsTripsAndTests. -/
def st5 : State := { State.reset with sup.running := true }
def st6 : State := { State.reset with hux.self := 1, sup.running := true }
def st7 : State := { State.reset with sup.main := true, sup.running := true, hux.self := 3 }

/-- States and operands that meet the hypotheses of each clause of HoldupArmsTripsAndTests. -/
theorem wit_HoldupArmsTripsAndTests :
  (∃ (s : State), s.hu = Hs.off ∧ s.sup.main = true ∧ 8 ≤ s.run rcArm) ∧
  (∃ (s : State) (ma : Nat) (us : Nat) (k : Nat), s.hu ≠ Hs.latched ∧ s.hux.self ≠ 1 ∧ s.hux.self ≠ 2 ∧ s.sup.running = true
    ∧ tripAt (s.hrd Reg.huItCurve) 4 ma us s.hux.timers = some k) ∧
  (∃ (s : State) (ma : Nat) (us : Nat) (k : Nat), s.hu ≠ Hs.latched ∧ (s.hux.self = 1 ∨ s.hux.self = 2) ∧ s.sup.running =
    true ∧ tripAt (s.hrd Reg.huItCurve) 4 ma us s.hux.timers = some k) ∧
  (∃ (s : State) (ma : Nat) (us : Nat), s.hu = Hs.latched) ∧
  (∃ (s : State) (gate : Nat) (avg : Nat) (moved : Nat), s.sup.main = true ∧ s.sup.running = true ∧ s.hux.self = 3 ∧ 8000 ≤
    gate ∧ within15 avg (s.hrd Reg.huTestI) = true ∧ moved ≤ 1000) ∧
  (∃ (s : State) (gate : Nat) (avg : Nat) (moved : Nat) (vdrv : Bool), s.sup.main = true ∧ s.sup.running = true ∧ s.hux.self
    = 3 ∧ (gate < 8000 ∨ vdrv = false)) ∧
  (∃ (s : State) (pinned : Bool), s.hrd Reg.huGroup ≠ 0 ∧ s.hux.droop = false ∧ 64 ≤ s.run (if pinned = true then rcPinned
    else rcShareHigh) ∧ s.sup.running = true) :=
  ⟨⟨{ State.reset with sup.main := true, runs := [(rcArm, 8)], hv := puts State.reset.hv [(Reg.huState, Hs.off)] },
    by decide +kernel⟩,
   ⟨st5, 1000000, 50000, Option.get (tripAt (st5.hrd Reg.huItCurve) 4 1000000 50000 st5.hux.timers) (by decide +kernel),
    by decide +kernel, by decide +kernel, by decide +kernel, by decide +kernel, (Option.some_get _).symm⟩,
   ⟨st6, 1000000, 50000, Option.get (tripAt (st6.hrd Reg.huItCurve) 4 1000000 50000 st6.hux.timers) (by decide +kernel),
    by decide +kernel, by decide +kernel, by decide +kernel, (Option.some_get _).symm⟩,
   ⟨{ State.reset with hv := puts State.reset.hv [(Reg.huState, Hs.latched)] }, 0, 0, by decide +kernel⟩,
   ⟨st7, 9000, st7.hrd Reg.huTestI, 0, by decide +kernel⟩,
   ⟨{ State.reset with sup.main := true, sup.running := true, hux.self := 3 }, 100, 0, 0, true, by decide +kernel⟩,
   ⟨{ State.reset with
        hux.droop := false, sup.running := true, runs := [(rcPinned, 64)], hv := puts State.reset.hv [(Reg.huGroup, 1)] },
    true, by decide +kernel⟩⟩

/-- States and operands that meet the hypotheses of each clause of BarrierFramesCarryTheSides. -/
theorem wit_BarrierFramesCarryTheSides :
  (∃ (s : State), s.sup.main = true ∧ s.sup.running = true ∧ s.coldRead = false ∧ s.bar.reports = []) ∧
  (∃ (s : State) (tic : Nat) (a : Nat) (b : Nat) (c : Nat) (d : Nat) (n : Nat) (i : Nat) (v : Nat), s.sup.main = true ∧
    s.sup.running = true ∧ s.coldRead = false ∧ s.bar.reports = [(tic, [.stamp a, .count b n, .flag c i, .put d v])] ∧ [a,
    b, c, d].Nodup ∧ (∀ k ∈ [a, b, c, d], k ∉ hvStatusKeys ++ eventKeys ++ [Reg.barrierCrcErrs, Reg.hbLosses,
    Reg.barrierState, Reg.estZero, Reg.ladleE, Reg.ladleAvail])) ∧
  (∃ (s : State), s.sup.main = true ∧ s.sup.running = true ∧ s.coldRead = false) ∧
  (∃ (s : State), s.sup.running = true ∧ s.sup.main = true ∧ s.coldRead = false ∧ s.bar.lost = false ∧ 4 ≤ s.bar.b1Gap) ∧
  (∃ (s : State), s.sup.main = true ∧ s.bar.hbArmed = false ∧ s.sup.running = true ∧ s.bar.halted = false) ∧
  (∃ (s : State), s.sup.main = true ∧ s.bar.hbArmed = true ∧ s.bar.hbLost = false ∧ 4 ≤ s.bar.hbGap) ∧
  (∃ (s : State), s.sup.main = true ∧ s.bar.hbArmed = true ∧ s.bar.hbLost = true ∧ s.sup.running = true ∧ s.bar.halted =
    false) ∧
  (∃ (s : State) (f : CmdFrame), s.sup.main = true ∧ s.bar.unapplied.find? (fun g => g.seq = s.bar.hvSeq + 1) = some f ∧
    f.share = false) ∧
  (∃ (s : State) (f : CmdFrame), s.sup.main = true ∧ s.bar.unapplied.find? (fun g => g.seq = s.bar.hvSeq + 1) = some f ∧
    f.share = true ∧ f.sets = s.hvSettings) ∧
  (∃ (s : State) (f : Feed), s.sup.main = true ∧ s.feedsRun = true ∧ s.feedSt f.val = Fs.latched ∧ s.hrd (Reg.feedEn f.val)
    = 0 ∧ s.bar.unapplied = [{ seq := s.bar.hvSeq + 1, sets := [(Reg.feedEn f.val, 1)] }]) ∧
  (∃ (s : State) (f : Feed), s.sup.main = true ∧ s.feedsRun = true ∧ (s.feedSt f.val = Fs.on ∨ s.feedSt f.val = Fs.softStart
    ∨ s.feedSt f.val = Fs.blocked) ∧ s.bar.unapplied = [{ seq := s.bar.hvSeq + 1, sets := [(Reg.feedEn f.val, 0)] }]) ∧
  (∃ (s : State) (f : Feed), s.sup.main = true ∧ s.feedSt f.val = Fs.damaged ∧ s.bar.unapplied =
    [{ seq := s.bar.hvSeq + 1, sets := [(Reg.fetDmgClear f.val, 1)] }]) ∧
  (∃ (s : State) (v : Nat), s.sup.main = true ∧ s.bar.unapplied = [{ seq := s.bar.hvSeq + 1, sets := [(Reg.huClear, v)] }]) ∧
  (∃ (s : State) (ok : Bool) (n : BitVec 16), s.sup.main = true ∧ (ok = false ∨ n ≠ s.bar.hvSeq + 1 ∨ s.bar.unapplied.find?
    (fun g => g.seq = n) = none)) ∧
  (∃ (s : State), s.sup.running = true ∧ s.sup.main = true ∧ 2 ≤ s.bar.stall ∧ (∀ f ∈ s.bar.unapplied, f.sends < 8)) ∧
  (∃ (s : State) (f : CmdFrame), s.sup.running = true ∧ s.sup.main = true ∧ s.bar.up = true ∧ 2 ≤ s.bar.stall ∧ f ∈
    s.bar.unapplied ∧ 8 ≤ f.sends ∧ s.bar.pathLost = false ∧ s.bar.lost = false) :=
  ⟨⟨{ State.reset with sup.main := true, sup.running := true, sup.source := .iso, bar.reports := [] }, by decide +kernel⟩,
   ⟨{ State.reset with
        sup.main := true, sup.running := true, sup.source := .iso,
        bar.reports := [(5, [.stamp Reg.lastLoss, .count Reg.lossCount 1, .flag Reg.tbFlags 0, .put Reg.lossDetect 7])] }, 5,
    Reg.lastLoss, Reg.lossCount, Reg.tbFlags, Reg.lossDetect, 1, 0, 7, by decide +kernel⟩,
   ⟨{ State.reset with sup.main := true, sup.running := true, sup.source := .iso }, by decide +kernel⟩,
   ⟨{ State.reset with sup.running := true, sup.main := true, sup.source := .iso, bar.lost := false, bar.b1Gap := 4 },
    by decide +kernel⟩,
   ⟨{ State.reset with sup.main := true, bar.hbArmed := false, sup.running := true, bar.halted := false }, by decide +kernel⟩,
   ⟨{ State.reset with sup.main := true, bar.hbArmed := true, bar.hbLost := false, bar.hbGap := 4 }, by decide +kernel⟩,
   ⟨{ State.reset with
        sup.main := true, bar.hbArmed := true, bar.hbLost := true, sup.running := true, bar.halted := false },
    by decide +kernel⟩,
   ⟨{ State.reset with sup.main := true, bar.unapplied := [{ seq := 1, sets := [(Reg.cellVmax, 2700)] }] },
    { seq := 1, sets := [(Reg.cellVmax, 2700)] }, by decide +kernel⟩,
   ⟨{ State.reset with sup.main := true, bar.unapplied := [{ seq := 1, sets := State.reset.hvSettings, share := true }] },
    { seq := 1, sets := State.reset.hvSettings, share := true }, by decide +kernel⟩,
   ⟨{ State.reset with
        sup.main := true, bar.unapplied := [{ seq := 1, sets := [(Reg.feedEn 0, 1)] }],
        hv := puts State.reset.hv [(Reg.feedState 0, Fs.latched), (Reg.feedEn 0, 0)] }, 0, by decide +kernel⟩,
   ⟨{ State.reset with
        sup.main := true, bar.unapplied := [{ seq := 1, sets := [(Reg.feedEn 0, 0)] }],
        hv := puts State.reset.hv [(Reg.feedState 0, Fs.on)] }, 0, by decide +kernel⟩,
   ⟨{ State.reset with
        sup.main := true, bar.unapplied := [{ seq := 1, sets := [(Reg.fetDmgClear 0, 1)] }],
        hv := puts State.reset.hv [(Reg.feedState 0, Fs.damaged)] }, 0, by decide +kernel⟩,
   ⟨{ State.reset with sup.main := true, bar.unapplied := [{ seq := 1, sets := [(Reg.huClear, 3)] }] }, 3, by decide +kernel⟩,
   ⟨{ State.reset with sup.main := true }, false, 1, by decide +kernel⟩,
   ⟨{ State.reset with sup.running := true, sup.main := true, bar.stall := 2 }, by decide +kernel⟩,
   ⟨{ State.reset with
        sup.running := true, sup.main := true, bar.up := true, bar.stall := 2, bar.pathLost := false, bar.lost := false,
        bar.unapplied := [{ seq := 1, sets := [(Reg.cellVmax, 2700)], sends := 8 }] },
    { seq := 1, sets := [(Reg.cellVmax, 2700)], sends := 8 }, by decide +kernel⟩⟩

/-- States and operands that meet the hypotheses of each clause of RailsRiseInTheirSlots. -/
theorem wit_RailsRiseInTheirSlots :
  (∃ (s : State) (n : Rail) (t0 : Nat), s.seq.onStart = some t0 ∧ s.taken = true ∧ s.sup.running = true ∧ s.phase = .start ∧
    s.rd Reg.startStep = Step.onSlots ∧ s.rd Reg.seqState = 1 ∧ s.rd (Reg.railMode n) = 1 ∧ (s.rd (Reg.railState n) = 1 ∨
    s.rd (Reg.railState n) = 2) ∧ s.rd (Reg.onSlot n) ≤ s.tick - t0 ∧ s.earlierUp n = true ∧ s.seq.early.testBit n = false) ∧
  (∃ (s : State) (n : Rail) (t0 : Nat), s.seq.onStart = some t0 ∧ s.taken = true ∧ s.sup.running = true ∧ s.phase = .start ∧
    s.rd Reg.startStep = Step.onSlots ∧ s.rd Reg.seqState = 1 ∧ s.rd (Reg.railMode n) = 1 ∧ (s.rd (Reg.railState n) = 1 ∨
    s.rd (Reg.railState n) = 2) ∧ s.rd (Reg.onSlot n) ≤ s.tick - t0 ∧ s.earlierUp n = false) ∧
  (∃ (s : State) (n : Rail), s.taken = true ∧ s.sup.running = true ∧ s.rd (Reg.railState n) = 3 ∧ s.rd (Reg.goodFilter n) ≤
    s.run (rcGood n)) ∧
  (∃ (s : State) (n : Rail), s.taken = true ∧ s.sup.running = true ∧ s.phase = .start ∧ s.rd Reg.startStep = Step.onSlots ∧
    (s.rd Reg.seqState = 1 ∨ s.rd Reg.seqState = 3) ∧ s.rd (Reg.railState n) = 3 ∧ s.rd (Reg.railMode n) = 1 ∧ s.rd
    (Reg.onTimeout n) ≤ s.tick - tget 0 s.seq.riseAt n ∧ s.padIsOff n = false) :=
  ⟨⟨{ State.reset with
        seq.onStart := some (0 : Nat), taken := true, sup.running := true, phase := .start, clk.now := 200000,
        reg := puts State.reset.reg [(Reg.startStep, Step.onSlots), (Reg.seqState, 1), ((Reg.railMode (0 : Rail)), 1), ((Reg.railState (0 : Rail)), 1)] },
    0, 0, by decide +kernel⟩,
   ⟨{ State.reset with
        seq.onStart := some (0 : Nat), taken := true, sup.running := true, phase := .start, clk.now := 200000,
        reg := puts State.reset.reg [(Reg.startStep, Step.onSlots), (Reg.seqState, 1), ((Reg.railMode (0 : Rail)), 1), ((Reg.railState (0 : Rail)), 1), (Reg.railMode 1, 1), (Reg.onSlot 1, 0), ((Reg.onSlot (0 : Rail)), 100)] },
    0, 0, by decide +kernel⟩,
   ⟨{ State.reset with
        taken := true, sup.running := true, runs := [((rcGood (0 : Rail)), State.reset.rd (Reg.goodFilter (0 : Rail)))],
        reg := puts State.reset.reg [((Reg.railState (0 : Rail)), 3)] }, 0, by decide +kernel⟩,
   ⟨{ State.reset with
        taken := true, sup.running := true, phase := .start, clk.now := 4000000000,
        reg := puts State.reset.reg [(Reg.startStep, Step.onSlots), (Reg.seqState, 1), (Reg.railState 0, 3), (Reg.railMode 0, 1)] },
    0, by decide +kernel⟩⟩

/-- States and operands that meet the hypotheses of each clause of RailsFaultAndFall. -/
theorem wit_RailsFaultAndFall :
  (∃ (s : State) (n : Rail), s.taken = true ∧ s.sup.running = true ∧ s.rd (Reg.railState n) = 4 ∧ s.runFault n = 1 ∧ s.rd
    Reg.seqState ≠ 5 ∧ s.bitOf (Reg.railAction n) 0 = false) ∧
  (∃ (s : State) (n : Rail), s.pourReady = true ∧ s.rd (Reg.railState n) = 4 ∧ s.runFault n = 2 ∧ s.rd Reg.seqState ≠ 5 ∧
    s.bitOf (Reg.railAction n) 0 = true ∧ s.bitOf (Reg.railAction n) 1 = false ∧ s.bitOf (Reg.railAction n) 3 = false ∧
    s.seq.rfAt = none) ∧
  (∃ (s : State) (n : Rail), s.taken = true ∧ s.sup.running = true ∧ s.rd (Reg.railState n) = 4 ∧ s.seq.warnUv.testBit n =
    false ∧ s.rd (Reg.warnFilter n) ≤ s.run (rcWarnUv n)) ∧
  (∃ (s : State) (t0 : Nat), s.seq.rfAt = some t0 ∧ s.phase = .pour ∧ s.seq.offRel = none ∧ s.rd Reg.rfGrace ≤ s.tick - t0) ∧
  (∃ (s : State) (t0 : Nat) (n : Rail), s.seq.offRel = some t0 ∧ s.phase = .pour ∧ s.seq.offStart = none ∧ s.clk.tic = 0 ∧
    t0 < s.tick ∧ s.bitOf Reg.railsOn n = true ∧ s.rd (Reg.railState n) = 4) ∧
  (∃ (s : State) (n : Rail) (t0 : Nat), s.seq.offStart = some t0 ∧ s.phase = .pour ∧ s.rd Reg.seqState = 5 ∧
    s.offLeft.contains n.val = true ∧ s.rd (Reg.offSlot n) ≤ s.tick - t0 ∧ s.earlierDown n = true) ∧
  (∃ (s : State) (n : Rail), s.taken = true ∧ s.sup.running = true ∧ s.rd (Reg.railState n) = 6 ∧ s.fallRun n ≤ s.run
    (rcFallen n) ∧ s.phase ≠ .pour ∧ s.rd Reg.seqState ≠ 3) ∧
  (∃ (s : State) (n : Rail), s.taken = true ∧ s.sup.running = true ∧ s.rd (Reg.railState n) = 6 ∧ s.rd (Reg.offWaitMax n) ≤
    s.tick - tget 0 s.seq.fallAt n ∧ s.phase ≠ .pour ∧ s.rd Reg.seqState ≠ 3) :=
  ⟨⟨{ State.reset with
        taken := true, sup.running := true, runs := [(rcUv (0 : Rail), 1000)],
        reg := puts State.reset.reg [((Reg.railState (0 : Rail)), 4), ((Reg.railAction (0 : Rail)), 0)] }, 0,
    by decide +kernel⟩,
   ⟨{ State.reset with
        sup.running := true, taken := true, phase := .guard, sto.since := true, seq.rfAt := none,
        runs := [(rcOv (0 : Rail), 1000)],
        reg := puts State.reset.reg [((Reg.railState (0 : Rail)), 4), ((Reg.railAction (0 : Rail)), 2 ^ (0 : Nat))] }, 0,
    by decide +kernel⟩,
   ⟨{ State.reset with
        taken := true, sup.running := true, runs := [((rcWarnUv (0 : Rail)), State.reset.rd (Reg.warnFilter (0 : Rail)))],
        reg := puts State.reset.reg [((Reg.railState (0 : Rail)), 4)] }, 0, by decide +kernel⟩,
   ⟨{ State.reset with seq.rfAt := some (0 : Nat), phase := .pour, seq.offRel := none, clk.now := 200000 }, 0,
    by decide +kernel⟩,
   ⟨{ State.reset with
        seq.offRel := some (0 : Nat), phase := .pour, seq.offStart := none, clk.tic := 0, clk.now := 200000,
        reg := puts State.reset.reg [((Reg.railState (0 : Rail)), 4), (Reg.railsOn, 2 ^ ((0 : Rail) : Nat))] }, 0, 0,
    by decide +kernel⟩,
   ⟨{ State.reset with
        seq.offStart := some (0 : Nat), phase := .pour, clk.now := 200000,
        reg := puts State.reset.reg [(Reg.seqState, 5), (Reg.railsOn, 1)] }, 0, 0, by decide +kernel⟩,
   ⟨{ State.reset with
        taken := true, sup.running := true, runs := [((rcFallen (0 : Rail)), State.reset.fallRun (0 : Rail))],
        reg := puts State.reset.reg [((Reg.railState (0 : Rail)), 6)] }, 0, by decide +kernel⟩,
   ⟨{ State.reset with
        taken := true, sup.running := true, clk.now := 200000, reg := puts State.reset.reg [((Reg.railState (0 : Rail)), 6)] },
    0, by decide +kernel⟩⟩

/-- States and operands that meet the hypotheses of each clause of TrainingSetsAreTaken. -/
theorem wit_TrainingSetsAreTaken :
  (∃ (s : State) (p : Lane), s.rd Reg.linkState ≠ Ls.disabled ∧ s.rd Reg.linkState ≠ Ls.banked ∧ s.laneOn p = true ∧ (s.lane
    p).locked = false) ∧
  (∃ (s : State) (p : Lane), (s.lane p).locked = true ∧ s.wasActive = false) ∧
  (∃ (s : State) (p : Lane), (s.lane p).locked = true ∧ s.rd Reg.linkState = Ls.active ∧ s.laneIn p = true ∧ s.dropped =
    false) ∧
  (∃ (s : State) (p : Lane) (b : List Byte) (n : Nat) (early : Bool), s.laneOn p = true ∧ (s.lane p).locked = true ∧
    b.length = 16 ∧ b.getD 1 0 = 0x4A ∧ setInRange (b.map (·.toNat)) = true ∧ b.getD 9 0 = 2 ∧ s.rd Reg.linkState =
    Ls.detect) ∧
  (∃ (s : State) (p : Lane) (b : List Byte) (n : Nat) (early : Bool), s.laneOn p = true ∧ (s.lane p).locked = true ∧
    b.length = 16 ∧ b.getD 1 0 = 0x4A ∧ setInRange (b.map (·.toNat)) = true ∧ b.getD 9 0 = 2 ∧ (b.getD 7 0).getLsbD 0 = true
    ∧ s.rd Reg.linkState = Ls.align) ∧
  (∃ (s : State) (p : Lane) (b : List Byte) (n : Nat) (early : Bool), s.laneOn p = true ∧ (s.lane p).locked = true ∧
    b.length = 16 ∧ b.getD 1 0 = 0x4A ∧ setInRange (b.map (·.toNat)) = true ∧ b.getD 9 0 = 2 ∧ s.rd Reg.linkState =
    Ls.active ∧ s.dropped = false) ∧
  (∃ (s : State) (p : Lane) (b : List Byte) (n : Nat) (early : Bool), s.laneOn p = true ∧ (s.lane p).locked = true ∧ (s.lane
    p).inverted = false ∧ b.length = 16 ∧ b.getD 1 0 = 0xB5 ∧ s.rd Reg.linkState = Ls.align) ∧
  (∃ (s : State) (p : Lane) (b : List Byte) (n : Nat) (early : Bool), s.laneOn p = true ∧ (s.lane p).locked = true ∧
    b.length = 16 ∧ b.getD 1 0 = 0x4A ∧ setInRange (b.map (·.toNat)) = true ∧ b.getD 9 0 = 1 ∧ s.rd Reg.linkState =
    Ls.align) ∧
  (∃ (s : State) (p : Lane) (b : List Byte) (n : Nat) (early : Bool), s.laneOn p = true ∧ s.rd Reg.linkState = Ls.confirm) ∧
  (∃ (s : State) (p : Lane) (b : List Byte) (n : Nat) (early : Bool), s.laneOn p = true ∧ (s.lane p).locked = true ∧
    b.length = 16 ∧ b.getD 1 0 = 0x45 ∧ setInRange (b.map (·.toNat)) = true ∧ b.getD 9 0 = 2 ∧ s.rd Reg.linkState =
    Ls.confirm ∧ (b.getD 5 0).toNat = s.phy.rate ∧ (b.getD 6 0).toNat = s.phy.width) ∧
  (∃ (s : State) (p : Lane) (b : List Byte) (clean : Bool) (n : Nat), s.laneOn p = true ∧ s.rd Reg.linkState =
    Ls.rateChange) :=
  ⟨⟨{ State.reset with
        phy.lanes := [((0 : Lane), { locked := false })], reg := puts State.reset.reg [(Reg.linkState, Ls.detect)] }, 0,
    by decide +kernel⟩,
   ⟨{ State.reset with phy.lanes := [(0, { locked := true })] }, 0, by decide +kernel⟩,
   ⟨{ State.reset with
        phy.lanes := [(0, { locked := true })],
        reg := puts State.reset.reg [(Reg.linkState, Ls.active), (Reg.laneLogical 0, 0)] }, 0, by decide +kernel⟩,
   ⟨{ State.reset with phy.lanes := [(0, { locked := true })], reg := puts State.reset.reg [(Reg.linkState, Ls.detect)] }, 0,
    [0xBC, 0x4A, 0, 0, 0, 255, 255, 0, 0, 2, 0, 0, 0, 0, 0, 72], 16, false, by decide +kernel⟩,
   ⟨{ State.reset with phy.lanes := [(0, { locked := true })], reg := puts State.reset.reg [(Reg.linkState, Ls.align)] }, 0,
    [0xBC, 0x4A, 0, 0, 0, 255, 255, 1, 0, 2, 0, 0, 0, 0, 0, 73], 16, false, by decide +kernel⟩,
   ⟨{ State.reset with phy.lanes := [(0, { locked := true })], reg := puts State.reset.reg [(Reg.linkState, Ls.active)] }, 0,
    [0xBC, 0x4A, 0, 0, 0, 255, 255, 0, 0, 2, 0, 0, 0, 0, 0, 72], 0, false, by decide +kernel⟩,
   ⟨{ State.reset with
        phy.lanes := [(0, { locked := true, inverted := false })], reg := puts State.reset.reg [(Reg.linkState, Ls.align)] },
    0, [0xBC, 0xB5, 0, 0, 0, 255, 255, 0, 0, 2, 0, 0, 0, 0, 0, 183], 16, false, by decide +kernel⟩,
   ⟨{ State.reset with phy.lanes := [(0, { locked := true })], reg := puts State.reset.reg [(Reg.linkState, Ls.align)] }, 0,
    [0xBC, 0x4A, 0, 0, 0, 255, 255, 0, 0, 1, 0, 0, 0, 0, 0, 75], 16, false, by decide +kernel⟩,
   ⟨{ State.reset with reg := puts State.reset.reg [(Reg.linkState, Ls.confirm)] }, 0, [], 16, false, by decide +kernel⟩,
   ⟨{ State.reset with
        phy.lanes := [(0, { locked := true })], phy.width := 1, reg := puts State.reset.reg [(Reg.linkState, Ls.confirm)] },
    0, [0xBC, 0x45, 0, 0, 0, 0, 1, 0, 0, 2, 0, 0, 0, 0, 0, 70], 16, false, by decide +kernel⟩,
   ⟨{ State.reset with reg := puts State.reset.reg [(Reg.linkState, Ls.rateChange)] }, 0, [], true, 0, by decide +kernel⟩⟩

/-- States that meet hypotheses of TrainingPassesThroughItsStates. -/
def st8 : State :=
  { State.reset with
      phy.role := false, phy.lanes := [(0, { locked := true, num := some 0, echo := some 0, acked := 8, sinceAck := 16 })],
      reg := puts State.reset.reg [(Reg.linkState, Ls.align), (Reg.partnerRates, 1), (Reg.partnerWidths, 1)] }
def st9 : State :=
  { State.reset with
      phy.fast := false, phy.rate := 2, reg := puts State.reset.reg [(Reg.linkState, Ls.confirm), (Reg.partnerRates, 1)] }

/-- States and operands that meet the hypotheses of each clause of TrainingPassesThroughItsStates. -/
theorem wit_TrainingPassesThroughItsStates :
  (∃ (s : State) (r : Nat) (w : Nat), s.rd Reg.linkState = Ls.align ∧ s.bestRate 4 = some r ∧ s.bestWidth = some w ∧
    s.phy.role = false ∧ (List.range w).all (fun l => (s.physOf l).all s.laneAligned) = true ∧ s.misfits = []) ∧
  (∃ (s : State), s.rd Reg.linkState = Ls.align ∧ s.misfits = []) ∧
  (∃ (s : State), s.rd Reg.linkState = Ls.align ∧ s.misfits ≠ []) ∧
  (∃ (s : State), s.rd Reg.linkState = Ls.rateChange) ∧
  (∃ (s : State) (c : List Nat) (l : List (List Nat)), s.rd Reg.linkState = Ls.eq ∧ s.rd Reg.eqMode = 0) ∧
  (∃ (s : State) (skew : List Nat) (us : BitVec 32), s.rd Reg.linkState = Ls.confirm ∧ (allLanes.filter s.laneIn).all (fun p
    => 16 ≤ (s.lane p).ts2 && 16 ≤ (s.lane p).sinceTs2 && decide (skew.getD p 0 ≤ 16)) = true) ∧
  (∃ (s : State), s.rd Reg.linkState = Ls.confirm ∧ s.phy.fast = true ∧ s.dropped = false) ∧
  (∃ (s : State) (r : Nat) (w : Nat) (f : Nat), s.rd Reg.linkState = Ls.confirm ∧ s.phy.fast = false ∧ s.fallback = some (r,
    w, f)) ∧
  (∃ (s : State), s.rd Reg.linkState = Ls.confirm ∧ s.phy.fast = false ∧ s.fallback = none) :=
  ⟨⟨st8, Option.get (st8.bestRate 4) (by decide +kernel), Option.get (st8.bestWidth) (by decide +kernel), by decide +kernel,
    (Option.some_get _).symm, (Option.some_get _).symm, by decide +kernel⟩,
   ⟨{ State.reset with reg := puts State.reset.reg [(Reg.linkState, Ls.align)] }, by decide +kernel⟩,
   ⟨{ State.reset with
        phy.lanes := [(0, { locked := true, num := some 1 })],
        reg := puts State.reset.reg [(Reg.linkState, Ls.align), (Reg.laneLogical 0, 2)] }, by decide +kernel⟩,
   ⟨{ State.reset with reg := puts State.reset.reg [(Reg.linkState, Ls.rateChange)] }, by decide +kernel⟩,
   ⟨{ State.reset with reg := puts State.reset.reg [(Reg.linkState, Ls.eq), (Reg.eqMode, 0)] }, [], [], by decide +kernel⟩,
   ⟨{ State.reset with reg := puts State.reset.reg [(Reg.linkState, Ls.confirm)] }, [], 0, by decide +kernel⟩,
   ⟨{ State.reset with phy.fast := true, reg := puts State.reset.reg [(Reg.linkState, Ls.confirm)] }, by decide +kernel⟩,
   ⟨st9, ((st9.fallback).getD (0, 0, 0)).1, ((st9.fallback).getD (0, 0, 0)).2.1, ((st9.fallback).getD (0, 0, 0)).2.2,
    by decide +kernel⟩,
   ⟨{ State.reset with phy.fast := false, reg := puts State.reset.reg [(Reg.linkState, Ls.confirm)] }, by decide +kernel⟩⟩

/-- States and operands that meet the hypotheses of each clause of LinkIdlesBanksAndWakes. -/
theorem wit_LinkIdlesBanksAndWakes :
  (∃ (s : State), s.rd Reg.linkState = Ls.active ∧ s.rd Reg.txIdle = 0 ∧ s.somethingToSend = false) ∧
  (∃ (s : State), s.rd Reg.linkState = Ls.active ∧ s.rd Reg.txIdle = 1 ∧ s.somethingToSend = true) ∧
  (∃ (s : State), s.rd Reg.linkState = Ls.active) ∧
  (∃ (s : State), s.rd Reg.linkState = Ls.active ∧ s.rd Reg.rxIdle = 1) ∧
  (∃ (s : State) (p : Lane), s.rd Reg.linkState = Ls.active ∧ s.laneIn p = true ∧ s.rd Reg.rxIdle = 0 ∧ s.dropped = false) ∧
  (∃ (s : State), s.rd Reg.linkState = Ls.active ∧ s.rd Reg.txIdle = 1 ∧ s.rd Reg.rxIdle = 1 ∧ s.bankOk = true ∧
    s.somethingToSend = false) ∧
  (∃ (s : State), (s.rd Reg.linkState = Ls.banking ∨ (s.rd Reg.linkState = Ls.active ∧ s.bankOk = true))) ∧
  (∃ (s : State), s.rd Reg.linkState = Ls.active ∧ s.phy.bankSent = false) ∧
  (∃ (s : State), s.rd Reg.linkState = Ls.banking) ∧
  (∃ (s : State) (e : Bool), s.rd Reg.linkState = Ls.banking) ∧
  (∃ (s : State) (sig : Bool), s.rd Reg.linkState = Ls.banked ∧ (sig = true ∨ s.pads.b4 = true ∨ s.somethingToSend = true)) ∧
  (∃ (s : State), s.rd Reg.linkState = Ls.waking) ∧
  (∃ (s : State), s.rd Reg.linkState = Ls.waking ∧ s.dropped = false) :=
  ⟨⟨{ State.reset with reg := puts State.reset.reg [(Reg.linkState, Ls.active), (Reg.txIdle, 0)] }, by decide +kernel⟩,
   ⟨{ State.reset with ll.uncovered := 1, reg := puts State.reset.reg [(Reg.linkState, Ls.active), (Reg.txIdle, 1)] },
    by decide +kernel⟩,
   ⟨{ State.reset with reg := puts State.reset.reg [(Reg.linkState, Ls.active)] }, by decide +kernel⟩,
   ⟨{ State.reset with reg := puts State.reset.reg [(Reg.linkState, Ls.active), (Reg.rxIdle, 1)] }, by decide +kernel⟩,
   ⟨{ State.reset with reg := puts State.reset.reg [(Reg.linkState, Ls.active), (Reg.rxIdle, 0), (Reg.laneLogical 0, 0)] },
    0, by decide +kernel⟩,
   ⟨{ State.reset with
        phy.bankSent := true, phase := .guard, pads.b4 := false,
        reg := puts State.reset.reg [(Reg.linkState, Ls.active), (Reg.txIdle, 1), (Reg.rxIdle, 1), (Reg.bankEn, 1), (Reg.partnerBank, 1)] },
    by decide +kernel⟩,
   ⟨{ State.reset with reg := puts State.reset.reg [(Reg.linkState, Ls.banking)] }, by decide +kernel⟩,
   ⟨{ State.reset with phy.bankSent := false, reg := puts State.reset.reg [(Reg.linkState, Ls.active)] }, by decide +kernel⟩,
   ⟨{ State.reset with reg := puts State.reset.reg [(Reg.linkState, Ls.banking)] }, by decide +kernel⟩,
   ⟨{ State.reset with reg := puts State.reset.reg [(Reg.linkState, Ls.banking)] }, true, by decide +kernel⟩,
   ⟨{ State.reset with reg := puts State.reset.reg [(Reg.linkState, Ls.banked)] }, true, by decide +kernel⟩,
   ⟨{ State.reset with reg := puts State.reset.reg [(Reg.linkState, Ls.waking)] }, by decide +kernel⟩,
   ⟨{ State.reset with reg := puts State.reset.reg [(Reg.linkState, Ls.waking)] }, by decide +kernel⟩⟩

/-- States and operands that meet the hypotheses of each clause of FaultsRetrainTheLink. -/
theorem wit_FaultsRetrainTheLink :
  (∃ (s : State) (n : Nat), s.rd Reg.linkState = Ls.active ∧ s.dropped = false ∧ s.rd Reg.errRetrain ≤ n) ∧
  (∃ (s : State) (p : Lane), s.rd Reg.linkState = Ls.active ∧ s.laneIn p = true ∧ s.rd (Reg.laneLogical p) ≠ 0 ∧ s.dropped =
    false) ∧
  (∃ (s : State), s.rd Reg.linkState = Ls.active ∧ s.rd Reg.rxIdle = 0 ∧ s.dropped = false) ∧
  (∃ (s : State), s.sup.running = true ∧ s.taken = true ∧ s.phy.refBad = false ∧ s.rd Reg.linkState ≠ Ls.disabled ∧
    s.dropped = false) ∧
  (∃ (s : State), s.sup.running = true ∧ s.phy.refBad = true ∧ s.rd Reg.linkState ≠ Ls.disabled) ∧
  (∃ (s : State), s.sup.running = true ∧ s.phy.refBad = true ∧ s.rd Reg.linkState = Ls.disabled ∧ s.taken = true ∧ s.phase =
    .guard ∧ s.bitOf Reg.idleHold 7 = false ∧ s.bitOf Reg.idleHold 8 = false) ∧
  (∃ (s : State) (p : Lane) (tap : Fin 5) (low : Bool), s.rd Reg.linkState = Ls.active ∧ s.rd Reg.eqMode = 1 ∧ s.laneIn p =
    true) :=
  ⟨⟨{ State.reset with reg := puts State.reset.reg [(Reg.linkState, Ls.active)] }, 4000000000, by decide +kernel⟩,
   ⟨{ State.reset with
        reg := puts State.reset.reg [(Reg.linkState, Ls.active), (Reg.laneLogical 1, 1), (Reg.laneLogical 0, 1)] }, 1,
    by decide +kernel⟩,
   ⟨{ State.reset with reg := puts State.reset.reg [(Reg.linkState, Ls.active), (Reg.rxIdle, 0)] }, by decide +kernel⟩,
   ⟨{ State.reset with
        sup.running := true, taken := true, phy.refBad := false, reg := puts State.reset.reg [(Reg.linkState, Ls.detect)] },
    by decide +kernel⟩,
   ⟨{ State.reset with sup.running := true, phy.refBad := true, reg := puts State.reset.reg [(Reg.linkState, Ls.detect)] },
    by decide +kernel⟩,
   ⟨{ State.reset with
        sup.running := true, phy.refBad := true, taken := true, phase := .guard,
        reg := puts State.reset.reg [(Reg.linkState, Ls.disabled)] }, by decide +kernel⟩,
   ⟨{ State.reset with
        reg := puts State.reset.reg [(Reg.linkState, Ls.active), (Reg.eqMode, 1), ((Reg.laneLogical (0 : Lane)), 0)] }, 0, 0,
    true, by decide +kernel⟩⟩

/-- States and operands that meet the hypotheses of each clause of EyeScansStep. -/
theorem wit_EyeScansStep :
  (∃ (s : State) (p : Lane), (s.scanOf p).running = true ∧ (s.scanOf p).counting = false ∧ (s.scanOf p).from_ ≤ s.tick ∧
    s.clk.tic = windowTick 49152 s.clk.shift ∧ s.rd Reg.linkUp = 1 ∧ s.laneIn p = true) ∧
  (∃ (s : State) (p : Lane), (s.rd Reg.linkUp ≠ 1 ∨ s.laneIn p = false)) ∧
  (∃ (s : State) (p : Lane) (errs : BitVec 32), (s.scanOf p).counting = true ∧ (s.scanOf p).done.length + 1 < (s.scanOf
    p).points.length) ∧
  (∃ (s : State) (p : Lane) (errs : BitVec 32), (s.scanOf p).counting = true ∧ (s.scanOf p).points.length ≤ (s.scanOf
    p).done.length + 1 ∧ s.rep.kind ≠ 4) :=
  ⟨⟨{ State.reset with
        clk.tic := windowTick 49152 0, phy.scans := [(0, { running := true })],
        reg := puts State.reset.reg [(Reg.linkUp, 1), (Reg.laneLogical 0, 0)] }, 0, by decide +kernel⟩,
   ⟨State.reset, 0, by decide +kernel⟩,
   ⟨{ State.reset with phy.scans := [((0 : Lane), { counting := true, points := [(0, 0), (1, 0)] })] }, 0, 0,
    by decide +kernel⟩,
   ⟨{ State.reset with phy.scans := [((0 : Lane), { counting := true })] }, 0, 0, by decide +kernel⟩⟩

/-- States that meet hypotheses of FramesAreCheckedInOrder. -/
def st10 : State :=
  { State.reset with reg := puts State.reset.reg [(Reg.linkState, Ls.active), (Reg.llState, 2), (Reg.rxExpected, 5)] }
def st11 : State :=
  { State.reset with
      ll.nakSent := false, reg := puts State.reset.reg [(Reg.linkState, Ls.active), (Reg.llState, 2), (Reg.rxExpected, 0)] }

/-- States and operands that meet the hypotheses of each clause of FramesAreCheckedInOrder. -/
theorem wit_FramesAreCheckedInOrder :
  (∃ (s : State) (b : List Byte) (l : List Nat) (ty : Nat) (seqw : Nat) (flags : Nat) (len : Nat) (p : List Nat),
    s.sessionUp = true ∧ l = b.map (·.toNat) ∧ 12 ≤ l.length ∧ l.length ≤ 65568 ∧ crc32 (l.take (l.length - 4)) = field l
    (l.length - 4) 4 ∧ ty = l.getD 0 0 ∧ seqw = field l 1 2 ∧ flags = l.getD 3 0 ∧ len = field l 4 4 ∧ p = (l.take (l.length
    - 4)).drop 8 ∧ hostType ty = true ∧ (ty = 0x20 → s.ctrlWaiting < 8) ∧ len = p.length ∧ lenFits ty p = true ∧ rsvBad ty
    seqw flags p = false ∧ seqw % 4096 = s.rd Reg.rxExpected) ∧
  (∃ (s : State) (b : List Byte) (l : List Nat) (d : Nat), s.sessionUp = true ∧ l = b.map (·.toNat) ∧ 12 ≤ l.length ∧
    l.length ≤ 65568 ∧ crc32 (l.take (l.length - 4)) = field l (l.length - 4) 4 ∧ l.getD 0 0 ≠ 1 ∧ l.getD 0 0 ≠ 2 ∧ d =
    (s.rd Reg.rxExpected + 4096 - field l 1 2 % 4096) % 4096 ∧ 1 ≤ d ∧ d ≤ 2048) ∧
  (∃ (s : State) (b : List Byte) (l : List Nat) (d : Nat), s.sessionUp = true ∧ l = b.map (·.toNat) ∧ 12 ≤ l.length ∧
    l.length ≤ 65568 ∧ crc32 (l.take (l.length - 4)) = field l (l.length - 4) 4 ∧ l.getD 0 0 ≠ 1 ∧ l.getD 0 0 ≠ 2 ∧ d =
    (s.rd Reg.rxExpected + 4096 - field l 1 2 % 4096) % 4096 ∧ 2048 < d ∧ s.ll.nakSent = false) ∧
  (∃ (s : State) (b : List Byte) (l : List Nat), s.sessionUp = true ∧ l = b.map (·.toNat) ∧ 12 ≤ l.length ∧ l.length ≤ 65568
    ∧ crc32 (l.take (l.length - 4)) ≠ field l (l.length - 4) 4 ∧ s.ll.nakSent = false) ∧
  (∃ (s : State) (b : List Byte), s.sessionUp = true) ∧
  (∃ (s : State) (b : List Byte), s.sessionUp = true) :=
  ⟨⟨{ State.reset with reg := puts State.reset.reg [(Reg.linkState, Ls.active), (Reg.llState, 2), (Reg.rxExpected, 0)] },
    frame [0x14, 0, 0, 0, 4, 0, 0, 0, 1, 0, 0, 0], (frame [0x14, 0, 0, 0, 4, 0, 0, 0, 1, 0, 0, 0] : List Byte).map (·.toNat),
    ((frame [0x14, 0, 0, 0, 4, 0, 0, 0, 1, 0, 0, 0] : List Byte).map (·.toNat) : List Nat).getD 0 0,
    field ((frame [0x14, 0, 0, 0, 4, 0, 0, 0, 1, 0, 0, 0] : List Byte).map (·.toNat) : List Nat) 1 2,
    ((frame [0x14, 0, 0, 0, 4, 0, 0, 0, 1, 0, 0, 0] : List Byte).map (·.toNat) : List Nat).getD 3 0,
    field ((frame [0x14, 0, 0, 0, 4, 0, 0, 0, 1, 0, 0, 0] : List Byte).map (·.toNat) : List Nat) 4 4,
    (((frame [0x14, 0, 0, 0, 4, 0, 0, 0, 1, 0, 0, 0] : List Byte).map (·.toNat) : List Nat).take (((frame [0x14, 0, 0, 0, 4, 0, 0, 0, 1, 0, 0, 0] : List Byte).map (·.toNat) : List Nat).length - 4)).drop 8,
    by decide +kernel, rfl, by decide +kernel, by decide +kernel, by decide +kernel, rfl, rfl, rfl, rfl, rfl,
    by decide +kernel, by decide +kernel, rfl, by decide +kernel⟩,
   ⟨st10, frame [0x14, 0, 0, 0, 4, 0, 0, 0, 1, 0, 0, 0],
    (frame [0x14, 0, 0, 0, 4, 0, 0, 0, 1, 0, 0, 0] : List Byte).map (·.toNat),
    (st10.rd Reg.rxExpected + 4096 - field ((frame [0x14, 0, 0, 0, 4, 0, 0, 0, 1, 0, 0, 0] : List Byte).map (·.toNat) : List Nat) 1 2 % 4096) % 4096,
    by decide +kernel, rfl, by decide +kernel, by decide +kernel, by decide +kernel, by decide +kernel, by decide +kernel,
    rfl, by decide +kernel⟩,
   ⟨st11, frame [0x14, 5, 0, 0, 4, 0, 0, 0, 1, 0, 0, 0],
    (frame [0x14, 5, 0, 0, 4, 0, 0, 0, 1, 0, 0, 0] : List Byte).map (·.toNat),
    (st11.rd Reg.rxExpected + 4096 - field ((frame [0x14, 5, 0, 0, 4, 0, 0, 0, 1, 0, 0, 0] : List Byte).map (·.toNat) : List Nat) 1 2 % 4096) % 4096,
    by decide +kernel, rfl, by decide +kernel, by decide +kernel, by decide +kernel, by decide +kernel, by decide +kernel,
    rfl, by decide +kernel⟩,
   ⟨{ State.reset with ll.nakSent := false, reg := puts State.reset.reg [(Reg.linkState, Ls.active), (Reg.llState, 2)] },
    [0x14, 0, 0, 0, 4, 0, 0, 0, 1, 0, 0, 0, 0, 0, 0, 0],
    ([0x14, 0, 0, 0, 4, 0, 0, 0, 1, 0, 0, 0, 0, 0, 0, 0] : List Byte).map (·.toNat), by decide +kernel, rfl,
    by decide +kernel⟩,
   ⟨{ State.reset with reg := puts State.reset.reg [(Reg.linkState, Ls.active), (Reg.llState, 2)] }, [], by decide +kernel⟩,
   ⟨{ State.reset with reg := puts State.reset.reg [(Reg.linkState, Ls.active), (Reg.llState, 2)] }, [], by decide +kernel⟩⟩

/-- States that meet hypotheses of FramesAreAcknowledgedAndReplayed. -/
def st12 : State :=
  { State.reset with
      ll.rxq := [{ ty := 1, payload := [0, 0, 0, 0] }], ll.retry := [(0, { ty := 0x33 }), (1, { ty := 0x33 })],
      reg := puts State.reset.reg [(Reg.txOldestSeq, 0), (Reg.txNextSeq, 2)] }
def st13 : State :=
  { State.reset with
      ll.rxq := [{ ty := 1, payload := [9, 0, 0, 0] }], ll.retry := [(0, { ty := 0x33 }), (1, { ty := 0x33 })],
      reg := puts State.reset.reg [(Reg.txOldestSeq, 0), (Reg.txNextSeq, 2)] }
def st14 : State :=
  { State.reset with
      ll.replaying := false, ll.rxq := [{ ty := 2, payload := [0xFF, 0xF, 0, 0] }],
      ll.retry := [(0, { ty := 0x33 }), (1, { ty := 0x33 })],
      reg := puts State.reset.reg [(Reg.txOldestSeq, 0), (Reg.txNextSeq, 2)] }

/-- States and operands that meet the hypotheses of each clause of FramesAreAcknowledgedAndReplayed. -/
theorem wit_FramesAreAcknowledgedAndReplayed :
  (∃ (s : State) (a : Nat), s.sessionUp = true ∧ s.ll.uncovered ≠ 0 ∧ s.rd Reg.txIdle = 0 ∧ a = (s.rd Reg.rxExpected + 4095)
    % 4096) ∧
  (∃ (s : State), s.sessionUp = true ∧ s.ll.uncovered ≠ 0 ∧ s.rd Reg.txIdle ≠ 0) ∧
  (∃ (s : State) (u : State) (f : RxFrame) (a : Nat), s.takeAny (fun g => g.ty = 1) = some (f, u) ∧ a = field f.payload 0 2
    % 4096 ∧ s.ackValid a = true ∧ s.ll.retry ≠ [] ∧ (a + 1 + 4096 - s.rd Reg.txOldestSeq) % 4096 ≠ 0) ∧
  (∃ (s : State) (u : State) (f : RxFrame), s.takeAny (fun g => g.ty = 1) = some (f, u) ∧ s.ackValid (field f.payload 0 2 %
    4096) = false) ∧
  (∃ (s : State) (u : State) (f : RxFrame) (a : Nat), s.takeAny (fun g => g.ty = 2) = some (f, u) ∧ a = field f.payload 0 2
    % 4096 ∧ s.ackValid a = true ∧ (a + 1 + 4096 - s.rd Reg.txOldestSeq) % 4096 = 0 ∧ s.ll.retry ≠ [] ∧ s.ll.replaying =
    false ∧ s.ll.replayRun < s.rd Reg.replayLimit) ∧
  (∃ (s : State), s.sessionUp = true ∧ s.ll.retry ≠ [] ∧ s.ll.replaying = false ∧ s.ll.replayRun < s.rd Reg.replayLimit) ∧
  (∃ (s : State), s.sessionUp = true ∧ s.ll.retry ≠ [] ∧ s.ll.replaying = false ∧ s.rd Reg.replayLimit ≤ s.ll.replayRun ∧
    s.dropped = false) :=
  ⟨⟨{ State.reset with
        ll.uncovered := 1, reg := puts State.reset.reg [(Reg.txIdle, 0), (Reg.linkState, Ls.active), (Reg.llState, 2)] },
    4095, by decide +kernel⟩,
   ⟨{ State.reset with
        ll.uncovered := 1, reg := puts State.reset.reg [(Reg.txIdle, 1), (Reg.linkState, Ls.active), (Reg.llState, 2)] },
    by decide +kernel⟩,
   ⟨st12, (Option.get (st12.takeAny (fun g => g.ty = 1)) (by decide +kernel)).2,
    (Option.get (st12.takeAny (fun g => g.ty = 1)) (by decide +kernel)).1,
    field ((Option.get (st12.takeAny (fun g => g.ty = 1)) (by decide +kernel)).1 : RxFrame).payload 0 2 % 4096, getPair _ _,
    rfl, by decide +kernel⟩,
   ⟨st13, (Option.get (st13.takeAny (fun g => g.ty = 1)) (by decide +kernel)).2,
    (Option.get (st13.takeAny (fun g => g.ty = 1)) (by decide +kernel)).1, getPair _ _, by decide +kernel⟩,
   ⟨st14, (Option.get (st14.takeAny (fun g => g.ty = 2)) (by decide +kernel)).2,
    (Option.get (st14.takeAny (fun g => g.ty = 2)) (by decide +kernel)).1,
    field ((Option.get (st14.takeAny (fun g => g.ty = 2)) (by decide +kernel)).1 : RxFrame).payload 0 2 % 4096, getPair _ _,
    rfl, by decide +kernel⟩,
   ⟨{ State.reset with
        ll.replaying := false, ll.retry := [(0, { ty := 0x33 }), (1, { ty := 0x33 })],
        reg := puts State.reset.reg [(Reg.linkState, Ls.active), (Reg.llState, 2)] }, by decide +kernel⟩,
   ⟨{ State.reset with
        ll.replaying := false, ll.replayRun := 4000000000, ll.retry := [(0, { ty := 0x33 }), (1, { ty := 0x33 })],
        reg := puts State.reset.reg [(Reg.linkState, Ls.active), (Reg.llState, 2)] }, by decide +kernel⟩⟩

/-- States that meet hypotheses of RecordsAreAcceptedAndRefused. -/
def st15 : State :=
  { State.reset with
      ll.rxq := [{ ty := 0x10, payload := leBytes 4 7 ++ leBytes 4 0 ++ leBytes 8 0 ++ [1, 0, 0, 0] ++ List.replicate 512 0, session := 0 }],
      ll.expect := 1,
      reg := puts State.reset.reg [(Reg.llState, 2), (Reg.limit 0, 10), (Reg.nextRec 0, 7), (Reg.streamOpen 0, 1)] }
def st16 : State :=
  { State.reset with
      ll.rxq := [{ ty := 0x10, payload := leBytes 4 3 ++ leBytes 4 0 ++ leBytes 8 0 ++ [1, 0, 0, 0] ++ List.replicate 512 0, session := 0 }],
      ll.expect := 1, reg := puts State.reset.reg [(Reg.llState, 2), (Reg.limit 0, 10), (Reg.nextRec 0, 7)] }
def st17 : State :=
  { State.reset with
      ll.rxq := [{ ty := 0x10, payload := leBytes 4 3 ++ leBytes 4 0 ++ leBytes 8 0 ++ [1, 0, 0, 0] ++ List.replicate 512 0, session := 0 }],
      reg := puts State.reset.reg [(Reg.llState, 1)] }
def st18 : State :=
  { State.reset with
      ll.rxq := [{ ty := 0x10, payload := leBytes 4 7 ++ leBytes 4 0 ++ leBytes 8 0 ++ [1, 0, 0, 0] ++ List.replicate 512 0, session := 9 }],
      ll.expect := 1, ll.lapsed := [(0, 1)], reg := puts State.reset.reg [(Reg.nextRec 0, 7), (Reg.streamOpen 0, 1)] }
def st19 : State :=
  { State.reset with
      ll.rxq := [{ ty := 0x11, payload := leBytes 4 7 ++ leBytes 4 0 ++ leBytes 8 0 ++ [0, 0, 1, 0], session := 0 }],
      reg := puts State.reset.reg [(Reg.llState, 2), (Reg.limit 0, 10), (Reg.streamOpen 0, 1)] }

/-- States and operands that meet the hypotheses of each clause of RecordsAreAcceptedAndRefused. -/
theorem wit_RecordsAreAcceptedAndRefused :
  (∃ (s : State) (u : State) (f : RxFrame) (r : Rec), s.takeRx (fun g => g.ty = 0x10) = some (f, u) ∧ r = f.record ∧
    f.session = s.rd Reg.session ∧ r.slots ≤ s.outOf r.stream ∧ s.rd Reg.llState = 2 ∧ s.ll.expect.testBit r.stream = true ∧
    r.seq = s.rd (Reg.nextRec r.stream) ∧ s.rd (Reg.streamOpen r.stream) = 1 ∧ s.epochOk r.stream r.epoch = true) ∧
  (∃ (s : State) (u : State) (f : RxFrame) (r : Rec), s.takeRx (fun g => g.ty = 0x10) = some (f, u) ∧ r = f.record ∧
    f.session = s.rd Reg.session ∧ r.slots ≤ s.outOf r.stream ∧ s.rd Reg.llState = 2 ∧ s.ll.expect.testBit r.stream = true ∧
    r.seq ≠ s.rd (Reg.nextRec r.stream) ∧ later32 r.seq (s.rd (Reg.nextRec r.stream)) = true) ∧
  (∃ (s : State) (u : State) (f : RxFrame) (r : Rec), s.takeRx (fun g => g.ty = 0x10) = some (f, u) ∧ r = f.record ∧
    f.session = s.rd Reg.session ∧ s.rd Reg.llState ≠ 0 ∧ s.outOf r.stream < r.slots) ∧
  (∃ (s : State) (u : State) (f : RxFrame) (r : Rec), s.takeRx (fun g => g.ty = 0x10) = some (f, u) ∧ r = f.record ∧
    f.session ≠ s.rd Reg.session ∧ r.slots ≤ tget 0 s.ll.lapsed r.stream ∧ s.ll.expect.testBit r.stream = true ∧ r.seq =
    s.rd (Reg.nextRec r.stream) ∧ s.rd (Reg.streamOpen r.stream) = 1 ∧ s.epochOk r.stream r.epoch = true) ∧
  (∃ (s : State) (u : State) (f : RxFrame) (r : Rec), s.takeRx (fun g => g.ty = 0x11) = some (f, u) ∧ r = f.record ∧ f.ty =
    0x11 ∧ f.session = s.rd Reg.session ∧ r.slots ≤ s.outOf r.stream ∧ s.rd Reg.llState = 2 ∧ s.ll.expect.testBit r.stream =
    false ∧ s.rd (Reg.streamOpen r.stream) = 1 ∧ s.epochOk r.stream r.epoch = true) :=
  ⟨⟨st15, (Option.get (st15.takeRx (fun g => g.ty = 0x10)) (by decide +kernel)).2,
    (Option.get (st15.takeRx (fun g => g.ty = 0x10)) (by decide +kernel)).1,
    (Option.get (st15.takeRx (fun g => g.ty = 0x10)) (by decide +kernel)).1.record, getPair _ _, rfl, by decide +kernel⟩,
   ⟨st16, (Option.get (st16.takeRx (fun g => g.ty = 0x10)) (by decide +kernel)).2,
    (Option.get (st16.takeRx (fun g => g.ty = 0x10)) (by decide +kernel)).1,
    (Option.get (st16.takeRx (fun g => g.ty = 0x10)) (by decide +kernel)).1.record, getPair _ _, rfl, by decide +kernel⟩,
   ⟨st17, (Option.get (st17.takeRx (fun g => g.ty = 0x10)) (by decide +kernel)).2,
    (Option.get (st17.takeRx (fun g => g.ty = 0x10)) (by decide +kernel)).1,
    (Option.get (st17.takeRx (fun g => g.ty = 0x10)) (by decide +kernel)).1.record, getPair _ _, rfl, by decide +kernel⟩,
   ⟨st18, (Option.get (st18.takeRx (fun g => g.ty = 0x10)) (by decide +kernel)).2,
    (Option.get (st18.takeRx (fun g => g.ty = 0x10)) (by decide +kernel)).1,
    (Option.get (st18.takeRx (fun g => g.ty = 0x10)) (by decide +kernel)).1.record, getPair _ _, rfl, by decide +kernel⟩,
   ⟨st19, (Option.get (st19.takeRx (fun g => g.ty = 0x11)) (by decide +kernel)).2,
    (Option.get (st19.takeRx (fun g => g.ty = 0x11)) (by decide +kernel)).1,
    (Option.get (st19.takeRx (fun g => g.ty = 0x11)) (by decide +kernel)).1.record, getPair _ _, rfl, by decide +kernel⟩⟩

/-- States that meet hypotheses of ControlFramesOfTheSession. -/
def st20 : State :=
  { State.reset with
      phase := .guard, ll.rxq := [{ ty := 0x12, stream := 0, payload := [3, 0, 0, 0] }],
      reg := puts State.reset.reg [(Reg.streamHas 0, 2), (Reg.lastComplete 0, 5)] }
def st21 : State := { State.reset with phase := .guard, ll.rxq := [{ ty := 0x12, stream := 0, payload := [3, 0, 0, 0] }] }
def st22 : State := { State.reset with ll.rxq := [{ ty := 0x13, payload := [0, 2, 0, 0, 0, 0, 0, 0] }] }
def st23 : State :=
  { State.reset with
      sup.running := true, taken := true, phase := .guard, sto.since := true,
      ll.rxq := [{ ty := 0x14, payload := [1, 0, 0, 0] }], reg := puts State.reset.reg [(Reg.declaredDirty, 5120)] }
def st24 : State := { State.reset with ll.rxq := [{ ty := 0x14, payload := [2, 0, 0, 0] }] }

/-- States and operands that meet the hypotheses of each clause of ControlFramesOfTheSession. -/
theorem wit_ControlFramesOfTheSession :
  (∃ (s : State) (u : State) (f : RxFrame) (st : Nat) (ep : Nat), s.takeRx (fun g => g.ty = 0x12) = some (f, u) ∧ st =
    f.stream % 8 ∧ ep = field f.payload 0 4 ∧ s.phase = .guard ∧ s.bitOf (Reg.streamHas st) 2 = false ∧ s.bitOf
    (Reg.streamHas st) 1 = true ∧ atOrBefore ep (s.rd (Reg.lastComplete st)) = true) ∧
  (∃ (s : State) (u : State) (f : RxFrame) (st : Nat) (ep : Nat), s.takeRx (fun g => g.ty = 0x12) = some (f, u) ∧ st =
    f.stream % 8 ∧ ep = field f.payload 0 4 ∧ s.phase = .guard ∧ s.bitOf (Reg.streamHas st) 2 = false ∧ s.bitOf
    (Reg.streamHas st) 1 = false) ∧
  (∃ (s : State) (u : State) (f : RxFrame), s.takeRx (fun g => g.ty = 0x13) = some (f, u)) ∧
  (∃ (s : State) (u : State) (f : RxFrame), s.takeAny (fun g => g.ty = 0x14) = some (f, u) ∧ f.payload.getD 0 0 = 1 ∧
    s.pourReady = true ∧ s.dirtyNow ≠ 0) ∧
  (∃ (s : State) (u : State) (f : RxFrame), s.takeAny (fun g => g.ty = 0x14) = some (f, u) ∧ f.payload.getD 0 0 ≠ 1) ∧
  (∃ (s : State), s.sessionUp = true ∧ s.rd Reg.llState = 1 ∧ 2 ≤ s.rd Reg.isState ∧ s.sto.crucible.all (fun c => c.session
    = s.rd Reg.session) = true ∧ s.ll.rxq.all (fun f => f.session = s.rd Reg.session) = true) ∧
  (∃ (s : State), s.ll.gapRuns = true ∧ s.ll.commitDue = true ∧ s.rd Reg.llState = 2) ∧
  (∃ (s : State), s.ll.gapRuns = true ∧ s.ll.commitDue = false) :=
  ⟨⟨st20, (Option.get (st20.takeRx (fun g => g.ty = 0x12)) (by decide +kernel)).2,
    (Option.get (st20.takeRx (fun g => g.ty = 0x12)) (by decide +kernel)).1,
    ((Option.get (st20.takeRx (fun g => g.ty = 0x12)) (by decide +kernel)).1 : RxFrame).stream % 8,
    field ((Option.get (st20.takeRx (fun g => g.ty = 0x12)) (by decide +kernel)).1 : RxFrame).payload 0 4, getPair _ _, rfl,
    rfl, by decide +kernel⟩,
   ⟨st21, (Option.get (st21.takeRx (fun g => g.ty = 0x12)) (by decide +kernel)).2,
    (Option.get (st21.takeRx (fun g => g.ty = 0x12)) (by decide +kernel)).1,
    ((Option.get (st21.takeRx (fun g => g.ty = 0x12)) (by decide +kernel)).1 : RxFrame).stream % 8,
    field ((Option.get (st21.takeRx (fun g => g.ty = 0x12)) (by decide +kernel)).1 : RxFrame).payload 0 4, getPair _ _, rfl,
    rfl, by decide +kernel⟩,
   ⟨st22, (Option.get (st22.takeRx (fun g => g.ty = 0x13)) (by decide +kernel)).2,
    (Option.get (st22.takeRx (fun g => g.ty = 0x13)) (by decide +kernel)).1, getPair _ _⟩,
   ⟨st23, (Option.get (st23.takeAny (fun g => g.ty = 0x14)) (by decide +kernel)).2,
    (Option.get (st23.takeAny (fun g => g.ty = 0x14)) (by decide +kernel)).1, getPair _ _, by decide +kernel⟩,
   ⟨st24, (Option.get (st24.takeAny (fun g => g.ty = 0x14)) (by decide +kernel)).2,
    (Option.get (st24.takeAny (fun g => g.ty = 0x14)) (by decide +kernel)).1, getPair _ _, by decide +kernel⟩,
   ⟨{ State.reset with reg := puts State.reset.reg [(Reg.llState, 1), (Reg.linkState, Ls.active), (Reg.isState, 2)] },
    by decide +kernel⟩,
   ⟨{ State.reset with ll.gapRuns := true, ll.commitDue := true, reg := puts State.reset.reg [(Reg.llState, 2)] },
    by decide +kernel⟩,
   ⟨{ State.reset with ll.gapRuns := true, ll.commitDue := false }, by decide +kernel⟩⟩

/-- States and operands that meet the hypotheses of each clause of ThePourDrainsSealsAndRests. -/
theorem wit_ThePourDrainsSealsAndRests :
  (∃ (s : State), s.sup.running = true ∧ s.rd Reg.pourState = Ps.drain ∧ s.rd Reg.drainWindow ≤ s.tick - s.pour.at_ ∧
    s.sto.crucible ≠ []) ∧
  (∃ (s : State), s.sup.running = true ∧ s.rd Reg.pourState = Ps.drain ∧ s.sto.crucible ≠ []) ∧
  (∃ (s : State), s.sup.running = true ∧ s.rd Reg.pourState = Ps.flush) ∧
  (∃ (s : State) (x : Seal) (h : Nat) (i : Nat), s.sup.running = true ∧ s.rd Reg.pourState = Ps.summary ∧ s.sto.cast = some
    x ∧ s.sumHalf = some h ∧ s.sumSlot h = some i ∧ s.seq.offRel = none) ∧
  (∃ (s : State), s.sup.running = true ∧ s.rd Reg.pourState = Ps.summary ∧ s.seq.offRel = none) ∧
  (∃ (s : State), s.sup.running = true ∧ s.phase = .pour ∧ s.seq.offRel = none) ∧
  (∃ (s : State), s.phase = .rest ∧ s.sup.running = true ∧ s.rd Reg.restReturn ≤ s.pour.supplyRun ∧ s.sup.source ≠ .off ∧
    s.pads.b4 = false ∧ s.rd Reg.fwState ≠ 1 ∧ s.fla.erase = none ∧ s.svc.commit = none ∧ s.sto.erase = none ∧ (∀ p ∈
    s.sto.pages, p.busy = false)) :=
  ⟨⟨{ State.reset with
        sup.running := true, clk.now := 200000,
        sto.crucible := [{ r := { stream := 0, seq := 1, epoch := 0, units := 1, data := List.replicate 512 1 }, session := 0 }],
        reg := puts State.reset.reg [(Reg.pourState, Ps.drain)] }, by decide +kernel⟩,
   ⟨{ State.reset with
        sup.running := true,
        sto.crucible := [{ r := { stream := 0, seq := 1, epoch := 0, units := 1, data := List.replicate 512 1 }, session := 0 }],
        reg := puts State.reset.reg [(Reg.pourState, Ps.drain)] }, by decide +kernel⟩,
   ⟨{ State.reset with sup.running := true, reg := puts State.reset.reg [(Reg.pourState, Ps.flush)] }, by decide +kernel⟩,
   ⟨{ State.reset with
        sup.running := true, sto.cast := some ({ heat := 3 } : Seal), seq.offRel := none,
        reg := puts State.reset.reg [(Reg.pourState, Ps.summary)] }, { heat := 3 }, 0, 0, by decide +kernel⟩,
   ⟨{ State.reset with
        sup.running := true, seq.offRel := none, reg := puts State.reset.reg [(Reg.pourState, Ps.summary)] },
    by decide +kernel⟩,
   ⟨{ State.reset with sup.running := true, phase := .pour, seq.offRel := none }, by decide +kernel⟩,
   ⟨{ State.reset with
        phase := .rest, sup.running := true, pour.supplyRun := State.reset.rd Reg.restReturn, pads.b4 := false,
        fla.erase := none, svc.commit := none, sto.erase := none, sup.source := .iso }, by decide +kernel⟩⟩

/-- States and operands that meet the hypotheses of each clause of PagesAreProgrammed. -/
theorem wit_PagesAreProgrammed :
  (∃ (s : State) (d : Die) (bits : Nat) (p : Page), s.rd Reg.isState = 2 ∧ s.sto.pages.filter (fun q => q.busy && dieOf
    q.pos = d.val) = [p] ∧ p.kind ≠ 5 ∧ p.kind ≠ 4 ∧ p.cast = none) ∧
  (∃ (s : State) (d : Die) (bits : Nat) (p : Page) (x : Seal), s.rd Reg.isState = 2 ∧ s.sto.pages.filter (fun q => q.busy &&
    dieOf q.pos = d.val) = [p] ∧ p.kind ≠ 5 ∧ p.cast = some x ∧ s.rd Reg.pourState = Ps.sealing ∧ bits ≤ s.rd
    Reg.verifyBits) ∧
  (∃ (s : State) (d : Die) (q : Plane) (p : Page), s.rd Reg.isState = 2 ∧ s.sto.pages.find? (fun x => x.busy && x.pos = 4 *
    q.val + d.val) = some p ∧ p.kind ≠ 5) ∧
  (∃ (s : State) (p : Page), s.rd Reg.isState = 2 ∧ s.curPage = some p ∧ s.sto.todo = []) :=
  ⟨⟨{ State.reset with
        sto.pages := [({ row := 0, page := 0, pos := 0, block := 5, kind := 1, ready := true, busy := true } : Page)],
        reg := puts State.reset.reg [(Reg.isState, 2)] }, 0, 0,
    { row := 0, page := 0, pos := 0, block := 5, kind := 1, ready := true, busy := true }, by decide +kernel⟩,
   ⟨{ State.reset with
        sto.pages := [({ row := 0, page := 0, pos := 0, block := 5, kind := 4, ready := true, busy := true, cast := some { heat := 1 } } : Page)],
        reg := puts State.reset.reg [(Reg.isState, 2), (Reg.pourState, Ps.sealing)] }, 0, 0,
    { row := 0, page := 0, pos := 0, block := 5, kind := 4, ready := true, busy := true, cast := some { heat := 1 } },
    { heat := 1 }, by decide +kernel⟩,
   ⟨{ State.reset with
        sto.pages := [({ row := 0, page := 0, pos := 0, block := 5, kind := 1, ready := true, busy := true } : Page)],
        reg := puts State.reset.reg [(Reg.isState, 2)] }, 0, 0,
    { row := 0, page := 0, pos := 0, block := 5, kind := 1, ready := true, busy := true }, by decide +kernel⟩,
   ⟨{ State.reset with
        sto.todo := [],
        sto.pages := [({ row := 0, page := 0, pos := 0, block := 5, kind := 1, ready := false, busy := false } : Page)],
        reg := puts State.reset.reg [(Reg.isState, 2)] },
    { row := 0, page := 0, pos := 0, block := 5, kind := 1, ready := false, busy := false }, by decide +kernel⟩⟩

/-- States and operands that meet the hypotheses of each clause of BlocksAreErased. -/
theorem wit_BlocksAreErased :
  (∃ (s : State) (k : Nat) (reason : Nat), s.nextErase = some (k, reason) ∧ s.phase = .guard ∧ s.rd Reg.isState = 2 ∧
    s.sto.erase = none ∧ s.storeRuns = true ∧ s.dieBusy (dieOf (k / 1024)) = false ∧ s.dieReading (dieOf (k / 1024)) = false
    ∧ s.coldRead = false ∧ s.flushLog.log.queue.isEmpty = true ∧ s.flushLog.canWrite = true) ∧
  (∃ (s : State) (e : BlkErase) (k : Nat), s.sto.erase = some e ∧ e.state = 1 ∧ k = blkKey (4 * e.plane + e.die) e.block) ∧
  (∃ (s : State) (e : BlkErase) (k : Nat), s.sto.erase = some e ∧ e.state = 1 ∧ k = blkKey (4 * e.plane + e.die) e.block) ∧
  (∃ (s : State) (e : BlkErase), s.sto.erase = some e ∧ e.state = 1 ∧ s.phase = .pour) ∧
  (∃ (s : State) (e : BlkErase), s.sto.erase = some e ∧ e.state = 1 ∧ s.phase ≠ .pour ∧ s.dieWaits e.die = true ∧ e.suspends
    < s.rd Reg.eraseSuspendMax) ∧
  (∃ (s : State) (e : BlkErase), s.sto.erase = some e ∧ e.state = 2 ∧ s.phase = .guard ∧ s.dieWaits e.die = false ∧
    s.dieBusy e.die = false) :=
  ⟨⟨{ State.reset with
        phase := .guard, sto.erase := none, sup.source := .iso, sto.eraseQueue := [(7, 2)], loaded := true,
        reg := puts State.reset.reg [(Reg.isState, 2)] }, 7, 2, by decide +kernel⟩,
   ⟨{ State.reset with sto.erase := some ({ die := 0, plane := 0, block := 5, reason := 1, state := 1 } : BlkErase) },
    { die := 0, plane := 0, block := 5, reason := 1, state := 1 },
    blkKey (4 * ({ die := 0, plane := 0, block := 5, reason := 1, state := 1 } : BlkErase).plane + ({ die := 0, plane := 0, block := 5, reason := 1, state := 1 } : BlkErase).die) ({ die := 0, plane := 0, block := 5, reason := 1, state := 1 } : BlkErase).block,
    by decide +kernel, by decide +kernel, rfl⟩,
   ⟨{ State.reset with sto.erase := some ({ die := 0, plane := 0, block := 5, reason := 1, state := 1 } : BlkErase) },
    { die := 0, plane := 0, block := 5, reason := 1, state := 1 },
    blkKey (4 * ({ die := 0, plane := 0, block := 5, reason := 1, state := 1 } : BlkErase).plane + ({ die := 0, plane := 0, block := 5, reason := 1, state := 1 } : BlkErase).die) ({ die := 0, plane := 0, block := 5, reason := 1, state := 1 } : BlkErase).block,
    by decide +kernel, by decide +kernel, rfl⟩,
   ⟨{ State.reset with
        sto.erase := some ({ die := 0, plane := 0, block := 5, reason := 1, state := 1 } : BlkErase), phase := .pour },
    { die := 0, plane := 0, block := 5, reason := 1, state := 1 }, by decide +kernel⟩,
   ⟨{ State.reset with
        sto.erase := some ({ die := 0, plane := 0, block := 5, reason := 1, state := 1 } : BlkErase),
        sto.pages := [{ row := 0, page := 0, pos := 0, block := 5, kind := 1, ready := true, busy := false }] },
    { die := 0, plane := 0, block := 5, reason := 1, state := 1 }, by decide +kernel⟩,
   ⟨{ State.reset with
        sto.erase := some ({ die := 0, plane := 0, block := 5, reason := 1, state := 2 } : BlkErase), phase := .guard },
    { die := 0, plane := 0, block := 5, reason := 1, state := 2 }, by decide +kernel⟩⟩

/-- States and operands that meet the hypotheses of each clause of TheScanEnds. -/
theorem wit_TheScanEnds :
  (∃ (s : State) (h : Bool) (o : Fin 3) (us : Nat), s.phase = .start ∧ s.taken = true ∧ s.storeRuns = true ∧ s.rd
    Reg.isState = 1 ∧ s.unsettled = [] ∧ (∀ r ∈ s.rowsFound, ∀ k ∈ s.rowBlocks r, (s.blk k).hasPage 63 = true) ∧ s.sto.row =
    none ∧ (∀ p ∈ allPos, (s.pickBlock p).isSome = true)) ∧
  (∃ (s : State) (dies : BitVec 4) (m : Bool) (h : Bool) (o : Fin 3) (us : Nat), s.phase = .start ∧ s.taken = true ∧
    s.storeRuns = true ∧ s.rd Reg.isState = 1 ∧ dies ≠ 15 ∧ s.rd Reg.startStep ≠ Step.stopped) ∧
  (∃ (s : State) (dies : BitVec 4) (m : Bool) (h : Bool) (o : Fin 3) (us : Nat), s.phase = .start ∧ s.taken = true ∧
    s.storeRuns = true ∧ s.rd Reg.isState = 1 ∧ dies ≠ 15 ∧ s.rd Reg.startStep = Step.stopped) ∧
  (∃ (s : State) (h : Bool) (o : Fin 3) (us : Nat), s.phase = .start ∧ s.taken = true ∧ s.storeRuns = true ∧ s.rd
    Reg.isState = 1 ∧ s.rd Reg.startStep ≠ Step.stopped) ∧
  (∃ (s : State) (h : Bool) (o : Fin 3) (us : Nat), s.phase = .start ∧ s.taken = true ∧ s.storeRuns = true ∧ s.rd
    Reg.isState = 1 ∧ s.rd Reg.startStep ≠ Step.stopped) :=
  ⟨⟨{ State.reset with
        phase := .start, taken := true, sup.source := .iso, sto.row := none, reg := puts State.reset.reg [(Reg.isState, 1)] },
    true, 0, 0, by decide +kernel⟩,
   ⟨{ State.reset with
        phase := .start, taken := true, sup.source := .iso, reg := puts State.reset.reg [(Reg.isState, 1)] }, 3, true, true,
    0, 0, by decide +kernel⟩,
   ⟨{ State.reset with
        phase := .start, taken := true, sup.source := .iso,
        reg := puts State.reset.reg [(Reg.isState, 1), (Reg.startStep, Step.stopped)] }, 3, true, true, 0, 0,
    by decide +kernel⟩,
   ⟨{ State.reset with
        phase := .start, taken := true, sup.source := .iso, reg := puts State.reset.reg [(Reg.isState, 1)] }, true, 0, 0,
    by decide +kernel⟩,
   ⟨{ State.reset with
        phase := .start, taken := true, sup.source := .iso, reg := puts State.reset.reg [(Reg.isState, 1)] }, true, 0, 0,
    by decide +kernel⟩⟩

/-- States that meet hypotheses of ShakeoutIsCommandedAndReads. -/
def st25 : State :=
  { State.reset with
      ll.rxq := [{ ty := 0x15, payload := leBytes 4 9 ++ [1, 0, 0, 0] ++ List.replicate 32 0 }],
      reg := puts State.reset.reg [(Reg.shakeState, 1), (Reg.shakeHeat, 9)] }
def st26 : State :=
  { State.reset with
      ll.rxq := [{ ty := 0x15, payload := leBytes 4 9 ++ [1, 0, 0, 0] ++ List.replicate 32 0 }],
      reg := puts State.reset.reg [(Reg.shakeHeat, 8)] }
def st27 : State :=
  { State.reset with
      ll.rxq := [{ ty := 0x15, payload := leBytes 4 9 ++ [2, 0, 0, 0] ++ List.replicate 32 0 }],
      reg := puts State.reset.reg [(Reg.shakeState, 2), (Reg.shakeHeat, 9)] }
def st28 : State :=
  { State.reset with
      ll.rxq := [{ ty := 0x15, payload := leBytes 4 9 ++ [3, 0, 0, 0] ++ List.replicate 32 0 }],
      reg := puts State.reset.reg [(Reg.shakeState, 1), (Reg.shakeHeat, 9)] }
def st29 : State :=
  { State.reset with
      sto.reads := [(0, 1)],
      shk.streams := [(0, { recs := [({ stream := 0, seq := 4, epoch := 0, units := 1, data := List.replicate 512 0 } : Rec)], tries := 0 })],
      reg := puts State.reset.reg [(Reg.shakeState, 2)] }
def st30 : State :=
  { State.reset with
      sto.reads := [(0, 1)],
      shk.streams := [(0, { recs := [({ stream := 0, seq := 4, epoch := 0, units := 1, data := List.replicate 512 0 } : Rec)], tries := 0 })] }
def st31 : State :=
  { State.reset with
      sto.reads := [(0, 1)],
      shk.streams := [(0, { recs := [({ stream := 0, seq := 4, epoch := 0, units := 1, data := List.replicate 512 0 } : Rec)], tries := State.reset.rd Reg.readRetries })] }

/-- States and operands that meet the hypotheses of each clause of ShakeoutIsCommandedAndReads. -/
theorem wit_ShakeoutIsCommandedAndReads :
  (∃ (s : State) (u : State) (f : RxFrame), s.takeRx (fun g => g.ty = 0x15 && g.payload.getD 4 0 ≠ 2 && g.payload.getD 4 0 ≠
    3) = some (f, u) ∧ f.payload.getD 4 0 = 1 ∧ f.payload.getD 5 0 = 0 ∧ field f.payload 0 4 = s.rd Reg.shakeHeat ∧ (s.rd
    Reg.shakeState = 1 ∨ s.rd Reg.shakeState = 2 ∨ s.rd Reg.shakeState = 3)) ∧
  (∃ (s : State) (u : State) (f : RxFrame), s.takeRx (fun g => g.ty = 0x15 && g.payload.getD 4 0 ≠ 2 && g.payload.getD 4 0 ≠
    3) = some (f, u) ∧ field f.payload 0 4 ≠ s.rd Reg.shakeHeat) ∧
  (∃ (s : State) (u : State) (f : RxFrame), s.takeRx (fun g => g.ty = 0x15 && g.payload.getD 4 0 = 2) = some (f, u) ∧ field
    f.payload 0 4 = s.rd Reg.shakeHeat ∧ s.rd Reg.shakeState = 2) ∧
  (∃ (s : State) (u : State) (f : RxFrame), s.takeRx (fun g => g.ty = 0x15 && g.payload.getD 4 0 = 3) = some (f, u) ∧ field
    f.payload 0 4 = s.rd Reg.shakeHeat ∧ s.rd Reg.shakeState ≠ 0) ∧
  (∃ (s : State) (r : SumRec) (h : Nat) (i : Nat), s.shk.confirm = some r ∧ s.sumHalf = some h ∧ s.sumSlot h = some i) ∧
  (∃ (s : State) (d : Die) (bits : Nat) (st : Nat) (r : Rec), tget 0 s.sto.reads d ≠ 0 ∧ st = (tget 0 s.sto.reads d - 1) % 8
    ∧ (s.shakeOf st).recs[(s.shakeOf st).next]? = some r ∧ bits ≤ 40 ∧ s.rd Reg.shakeState = 2 ∧ (s.recDies st r.seq).length
    ≤ (s.shakeOf st).read + 1) ∧
  (∃ (s : State) (d : Die) (bits : Nat) (st : Nat) (ok : Bool) (r : Rec), tget 0 s.sto.reads d ≠ 0 ∧ st = (tget 0
    s.sto.reads d - 1) % 8 ∧ (s.shakeOf st).recs[(s.shakeOf st).next]? = some r ∧ 40 < bits ∧ (s.shakeOf st).tries < s.rd
    Reg.readRetries) ∧
  (∃ (s : State) (d : Die) (bits : Nat) (st : Nat) (ok : Bool) (r : Rec), tget 0 s.sto.reads d ≠ 0 ∧ st = (tget 0
    s.sto.reads d - 1) % 8 ∧ (s.shakeOf st).recs[(s.shakeOf st).next]? = some r ∧ 40 < bits ∧ s.rd Reg.readRetries ≤
    (s.shakeOf st).tries) :=
  ⟨⟨st25,
    (Option.get (st25.takeRx (fun g => g.ty = 0x15 && g.payload.getD 4 0 ≠ 2 && g.payload.getD 4 0 ≠ 3)) (by decide +kernel)).2,
    (Option.get (st25.takeRx (fun g => g.ty = 0x15 && g.payload.getD 4 0 ≠ 2 && g.payload.getD 4 0 ≠ 3)) (by decide +kernel)).1,
    getPair _ _, by decide +kernel⟩,
   ⟨st26,
    (Option.get (st26.takeRx (fun g => g.ty = 0x15 && g.payload.getD 4 0 ≠ 2 && g.payload.getD 4 0 ≠ 3)) (by decide +kernel)).2,
    (Option.get (st26.takeRx (fun g => g.ty = 0x15 && g.payload.getD 4 0 ≠ 2 && g.payload.getD 4 0 ≠ 3)) (by decide +kernel)).1,
    getPair _ _, by decide +kernel⟩,
   ⟨st27, (Option.get (st27.takeRx (fun g => g.ty = 0x15 && g.payload.getD 4 0 = 2)) (by decide +kernel)).2,
    (Option.get (st27.takeRx (fun g => g.ty = 0x15 && g.payload.getD 4 0 = 2)) (by decide +kernel)).1, getPair _ _,
    by decide +kernel⟩,
   ⟨st28, (Option.get (st28.takeRx (fun g => g.ty = 0x15 && g.payload.getD 4 0 = 3)) (by decide +kernel)).2,
    (Option.get (st28.takeRx (fun g => g.ty = 0x15 && g.payload.getD 4 0 = 3)) (by decide +kernel)).1, getPair _ _,
    by decide +kernel⟩,
   ⟨{ State.reset with shk.confirm := some ({ kind := 2 } : SumRec) }, { kind := 2 }, 0, 0, by decide +kernel⟩,
   ⟨st29, 0, 3, (tget 0 st29.sto.reads (0 : Die) - 1) % 8,
    { stream := 0, seq := 4, epoch := 0, units := 1, data := List.replicate 512 0 }, by decide +kernel, rfl,
    by decide +kernel⟩,
   ⟨st30, 0, 50, (tget 0 st30.sto.reads (0 : Die) - 1) % 8, true,
    { stream := 0, seq := 4, epoch := 0, units := 1, data := List.replicate 512 0 }, by decide +kernel, rfl,
    by decide +kernel⟩,
   ⟨st31, 0, 50, (tget 0 st31.sto.reads (0 : Die) - 1) % 8, true,
    { stream := 0, seq := 4, epoch := 0, units := 1, data := List.replicate 512 0 }, by decide +kernel, rfl,
    by decide +kernel⟩⟩

/-- States and operands that meet the hypotheses of each clause of DataFlashErasesCommitsAndFlushes. -/
theorem wit_DataFlashErasesCommitsAndFlushes :
  (∃ (s : State) (b : Nat) (c : Nat) (q : List (Nat × Nat)), s.fla.queue = (b, c) :: q ∧ s.sup.running = true ∧ s.loaded =
    true ∧ s.coldRead = false ∧ (s.phase = .start ∨ s.phase = .guard ∨ s.phase = .rest) ∧ s.fla.erase = none ∧ s.svc.commit
    = none ∧ s.fla.nested = none) ∧
  (∃ (s : State) (e : DfErase), s.fla.erase = some e ∧ e.suspended = false ∧ s.svc.commit.isSome = true) ∧
  (∃ (s : State) (e : DfErase) (pos : Nat), s.fla.erase = some e ∧ e.suspended = false ∧ 40 ≤ e.sector ∧ pos = (e.sector -
    40) * 2 + e.bank ∧ s.log.wanted = false ∧ s.fla.nested = none) ∧
  (∃ (s : State) (e : DfErase) (pos : Nat), s.fla.erase = some e ∧ e.suspended = false ∧ 40 ≤ e.sector ∧ pos = (e.sector -
    40) * 2 + e.bank ∧ s.log.wanted = false ∧ s.fla.nested = none) ∧
  (∃ (s : State) (bank : Nat) (x : Nat) (snap : List (Nat × Nat)) (rest : List Nat), s.svc.commit = some (bank, snap) ∧
    s.fla.left = x :: rest ∧ s.fla.nested = none ∧ s.dataErasing 0 = false ∧ s.dataErasing 1 = false) ∧
  (∃ (s : State) (ok : Bool) (bank : Nat), s.fla.nested = some bank ∧ s.svc.commit.isSome = true ∧ s.log.wanted = false) ∧
  (∃ (s : State) (snap : List (Nat × Nat)), s.svc.commit = some (0, snap) ∧ s.fla.nested = none ∧ s.fla.left = []) ∧
  (∃ (s : State) (snap : List (Nat × Nat)), s.svc.commit = some (1, snap) ∧ s.fla.nested = none) ∧
  (∃ (s : State) (r : LogRec), s.sup.running = true ∧ s.loaded = true ∧ s.coldRead = false ∧ dueCycle s.clk.cyc (s.rd
    Reg.logFlushPeriod / 1024) 0 = true ∧ s.clk.tic = windowTick 63488 s.clk.shift ∧ s.log.queue = [r] ∧ s.canWrite = true ∧
    s.log.owed = false) ∧
  (∃ (s : State), s.rep.kind = 3 ∧ s.rep.cyc + 16 ≤ s.clk.cyc) :=
  ⟨⟨{ State.reset with
        sup.running := true, loaded := true, sup.source := .iso, phase := .start, fla.erase := none, svc.commit := none,
        fla.nested := none, fla.queue := [(0, 41)] }, 0, 41, [], by decide +kernel⟩,
   ⟨{ State.reset with fla.erase := some { bank := 0, sector := 41 }, svc.commit := some (0, []) },
    { bank := 0, sector := 41 }, by decide +kernel⟩,
   ⟨{ State.reset with log.wanted := false, fla.nested := none, fla.erase := some { bank := 0, sector := 41 } },
    { bank := 0, sector := 41 }, 2, by decide +kernel⟩,
   ⟨{ State.reset with log.wanted := false, fla.nested := none, fla.erase := some { bank := 0, sector := 41 } },
    { bank := 0, sector := 41 }, 2, by decide +kernel⟩,
   ⟨{ State.reset with fla.nested := none, svc.commit := some (0, []), fla.left := [0, 1] }, 0, 0, [], [1],
    by decide +kernel⟩,
   ⟨{ State.reset with log.wanted := false, fla.nested := some 1, svc.commit := some (0, []) }, true, 1, by decide +kernel⟩,
   ⟨{ State.reset with fla.nested := none, fla.left := [], svc.commit := some (0, []) }, [], by decide +kernel⟩,
   ⟨{ State.reset with fla.nested := none, svc.commit := some (1, []) }, [], by decide +kernel⟩,
   ⟨{ State.reset with
        sup.running := true, loaded := true, clk.tic := windowTick 63488 State.reset.clk.shift,
        log.queue := [({ code := 0x1101 } : LogRec)], log.owed := false, clk.cyc := 0, sup.source := .iso },
    { code := 0x1101 }, by decide +kernel⟩,
   ⟨{ State.reset with rep.kind := 3, clk.cyc := State.reset.rep.cyc + 16 }, by decide +kernel⟩⟩

/-- States and operands that meet the hypotheses of each clause of FirmwareUpdatesAndTheDebugPort. -/
theorem wit_FirmwareUpdatesAndTheDebugPort :
  (∃ (s : State), s.rd Reg.fwState = 1) ∧
  (∃ (s : State), s.rd Reg.fwState = 1) ∧
  (∃ (s : State), s.fw.verifying = true ∧ s.verifyResult = 1) ∧
  (∃ (s : State), s.fw.verifying = true ∧ s.verifyResult ≠ 1) ∧
  (∃ (s : State), s.sup.running = true ∧ s.prot.debugClosed = true ∧ s.prot.password ≠ 0 ∧ s.prot.password < 2 ^ 64 ∧
    s.fw.debugOpen = false ∧ s.svc.attempts ≠ 0) ∧
  (∃ (s : State) (pw : BitVec 64), s.sup.running = true ∧ s.prot.debugClosed = true ∧ s.prot.password ≠ 0 ∧ s.fw.debugOpen =
    false ∧ 1 < s.svc.attempts ∧ s.svc.attempts ≤ 8 ∧ pw.toNat ≠ s.prot.password) ∧
  (∃ (s : State) (pw : BitVec 64), s.sup.running = true ∧ s.prot.debugClosed = true ∧ s.prot.password ≠ 0 ∧ s.fw.debugOpen =
    false ∧ s.svc.attempts = 0) ∧
  (∃ (s : State), s.sup.running = true ∧ s.debugPort = true) :=
  ⟨⟨{ State.reset with reg := puts State.reset.reg [(Reg.fwState, 1)] }, by decide +kernel⟩,
   ⟨{ State.reset with reg := puts State.reset.reg [(Reg.fwState, 1)] }, by decide +kernel⟩,
   ⟨{ State.reset with
        fw.verifying := true, fw.code := [(0, 1), (1, 24 * 2 ^ 32), (2, 0)],
        reg := puts State.reset.reg [(Reg.fwRunningSlot, 1), (Reg.fwVerifyDigest, leValue (sha256 (leBytes 8 1 ++ leBytes 8 (24 * 2 ^ 32) ++ leBytes 8 0)))] },
    by decide +kernel⟩,
   ⟨{ State.reset with fw.verifying := true }, by decide +kernel⟩,
   ⟨{ State.reset with
        sup.running := true, fw.debugOpen := false, svc.attempts := 1,
        fw.record := some { password := 5, debugClosed := true } }, by decide +kernel⟩,
   ⟨{ State.reset with
        sup.running := true, fw.debugOpen := false, fw.record := some { password := 5, debugClosed := true } }, 0,
    by decide +kernel⟩,
   ⟨{ State.reset with
        sup.running := true, fw.debugOpen := false, svc.attempts := 0,
        fw.record := some { password := 5, debugClosed := true } }, 0, by decide +kernel⟩,
   ⟨{ State.reset with sup.running := true }, by decide +kernel⟩⟩

/-- States and operands that meet the hypotheses of each clause of CanFramesAndTheBus. -/
theorem wit_CanFramesAndTheBus :
  (∃ (s : State), s.canQueues = true ∧ s.cas.announced = false) ∧
  (∃ (s : State), s.canQueues = true ∧ s.clk.tic = 0 ∧ dueCycle s.clk.cyc (cyclesOf (s.rd Reg.hbPeriod)) ((s.node - 1) *
    cyclesOf (s.rd Reg.hbPeriod) / 64) = true) ∧
  (∃ (s : State), s.canQueues = true ∧ s.master = true ∧ s.clk.tic = 0 ∧ dueCycle s.clk.cyc (cyclesOf (s.rd Reg.hbPeriod))
    (cyclesOf (s.rd Reg.hbPeriod) / 2) = true) ∧
  (∃ (s : State), s.canOn = true ∧ s.cas.dominant = false) ∧
  (∃ (s : State), s.cas.dominant = true) ∧
  (∃ (s : State), s.canOn = true ∧ s.cas.busOff = false) ∧
  (∃ (s : State), s.cas.busOff = true) :=
  ⟨⟨{ State.reset with
        cas.announced := false, sup.running := true, sup.source := .iso, phase := .guard, clk.begun := true, clk.cyc := 1024,
        clk.tic := 0 }, by decide +kernel⟩,
   ⟨{ State.reset with
        clk.tic := 0, sup.running := true, sup.source := .iso, phase := .guard, clk.begun := true, clk.cyc := 1024 },
    by decide +kernel⟩,
   ⟨{ State.reset with
        clk.tic := 0, sup.running := true, sup.source := .iso, phase := .guard, clk.begun := true,
        clk.cyc := cyclesOf (State.reset.rd Reg.hbPeriod) / 2 + cyclesOf (State.reset.rd Reg.hbPeriod),
        reg := puts State.reset.reg [(Reg.nodeId, 1)] }, by decide +kernel⟩,
   ⟨{ State.reset with sup.running := true, phase := .guard, sup.source := .iso, cas.dominant := false }, by decide +kernel⟩,
   ⟨{ State.reset with cas.dominant := true }, by decide +kernel⟩,
   ⟨{ State.reset with sup.running := true, phase := .guard, sup.source := .iso, cas.busOff := false }, by decide +kernel⟩,
   ⟨{ State.reset with cas.busOff := true }, by decide +kernel⟩⟩

/-- States and operands that meet the hypotheses of each clause of MembersAreHeardAndMissed. -/
theorem wit_MembersAreHeardAndMissed :
  (∃ (s : State) (n : Fin 128) (b : List Byte) (p : List Nat) (k : Nat), p = byteList b ∧ k = n.val - 1 ∧ s.casTakes 3 n.val
    p (anySet p [26, 27]) = true ∧ s.master = true) ∧
  (∃ (s : State) (n : Fin 128) (b : List Byte) (p : List Nat) (k : Nat), p = byteList b ∧ k = n.val - 1 ∧ s.casTakes 1 n.val
    p (anySet p ((List.range 9).map (· + 23))) = true ∧ s.master = true) ∧
  (∃ (s : State) (k : NodeIx), s.sup.running = true ∧ s.memberHere k = false ∧ (s.member k).here = true ∧ s.master = true ∧
    (s.srcOf (k.val + 3)).quarLeft = 0) ∧
  (∃ (s : State) (n : Fin 128) (b : List Byte) (p : List Nat) (k : Nat), p = byteList b ∧ k = n.val - 1 ∧ s.casTakes 2 n.val
    p (eventDirty p) = true ∧ crc16 (p.take 62) = field p 62 2 ∧ s.master = true ∧ s.queueTakes (p.getD 14 0) = true) ∧
  (∃ (s : State) (n : Fin 128) (b : List Byte), s.canOn = true ∧ s.cas.dominant = false ∧ (n.val = 0 ∨ 64 < n.val)) ∧
  (∃ (s : State) (n : Fin 128) (b : List Byte), s.canOn = true ∧ s.cas.dominant = false ∧ (n.val = 0 ∨ 64 < n.val)) ∧
  (∃ (s : State) (n : Fin 128) (b : List Byte), s.canOn = true ∧ s.cas.dominant = false ∧ 1 ≤ n.val ∧ n.val ≤ 64 ∧ n.val ≠
    s.node ∧ (s.srcOf (n.val + 2)).quarLeft = 0 ∧ b.length ≠ 32) :=
  ⟨⟨{ State.reset with
        sup.running := true, sup.source := .iso, phase := .guard, clk.cyc := 1024,
        reg := puts State.reset.reg [(Reg.nodeId, 1)] }, 2, List.replicate 32 0, byteList (List.replicate 32 0), 1, rfl, rfl,
    by decide +kernel⟩,
   ⟨{ State.reset with
        sup.running := true, sup.source := .iso, phase := .guard, clk.cyc := 1024,
        reg := puts State.reset.reg [(Reg.nodeId, 1)] }, 2, List.replicate 48 0, byteList (List.replicate 48 0), 1, rfl, rfl,
    by decide +kernel⟩,
   ⟨{ State.reset with
        sup.running := true, cas.members := [((1 : NodeIx), { here := true })], svc.srcs := [((1 + 3), { quarLeft := 0 })] },
    1, by decide +kernel⟩,
   ⟨{ State.reset with
        sup.running := true, sup.source := .iso, phase := .guard, clk.cyc := 1024,
        reg := puts State.reset.reg [(Reg.nodeId, 1)] }, 2,
    List.replicate 62 0 ++ (leBytes 2 (crc16 (List.replicate 62 0))).map (BitVec.ofNat 8),
    byteList (List.replicate 62 0 ++ (leBytes 2 (crc16 (List.replicate 62 0))).map (BitVec.ofNat 8)), 1, rfl, rfl,
    by decide +kernel⟩,
   ⟨{ State.reset with sup.running := true, phase := .guard, sup.source := .iso, cas.dominant := false }, 0, [],
    by decide +kernel⟩,
   ⟨{ State.reset with sup.running := true, phase := .guard, sup.source := .iso, cas.dominant := false }, 0, [],
    by decide +kernel⟩,
   ⟨{ State.reset with
        sup.running := true, phase := .guard, sup.source := .iso, cas.dominant := false,
        svc.srcs := [(((2 : Fin 128).val + 2), { quarLeft := 0 })] }, 2, [], by decide +kernel⟩⟩

/-- States and operands that meet the hypotheses of each clause of PoursAndBroadcastsComeOverTheCascade. -/
theorem wit_PoursAndBroadcastsComeOverTheCascade :
  (∃ (s : State) (n : Fin 128) (b : List Byte), s.pourReady = true ∧ s.casTakes 0 n.val (byteList b) (pourCmdDirty (byteList
    b)) = true ∧ (byteList b).getD 0 0 = 1 ∧ s.rd Reg.cmdInEn = 1) ∧
  (∃ (s : State) (n : Fin 128) (b : List Byte), s.pourReady = true ∧ s.casTakes 0 n.val (byteList b) (pourCmdDirty (byteList
    b)) = true ∧ (byteList b).getD 0 0 = 2 ∧ s.rd Reg.faultInEn = 1) ∧
  (∃ (s : State), s.pourReady = true ∧ s.cas.armed = true ∧ s.cas.stuck = false ∧ s.rd Reg.pourInEn = 1 ∧ s.rd
    Reg.pourInFilter ≤ s.run rcPourLow) ∧
  (∃ (s : State), s.taken = true ∧ s.pads.pour = true ∧ s.cas.pulseEnd ≤ s.tick) ∧
  (∃ (s : State), s.taken = true ∧ s.sup.running = true ∧ s.cas.stuck = false ∧ 2560 ≤ s.run rcPourStuck) ∧
  (∃ (s : State) (b : List Byte), s.casTakes 4 1 (byteList b) (broadcastDirty (byteList b)) = true ∧ (byteList b).getD 0 0 =
    1 ∧ s.phase = .start ∧ s.lad.permit = false) ∧
  (∃ (s : State) (b : List Byte), s.casTakes 4 1 (byteList b) (broadcastDirty (byteList b)) = true ∧ (byteList b).getD 0 0 =
    2) ∧
  (∃ (s : State) (b : List Byte), s.casTakes 7 1 (byteList b) (anySet (byteList b) ((List.range 9).map (· + 7))) = true) :=
  ⟨⟨{ State.reset with
        sup.running := true, sup.source := .iso, taken := true, phase := .guard, sto.since := true, clk.cyc := 1024,
        reg := puts State.reset.reg [(Reg.cmdInEn, 1)] }, 2, 1 :: List.replicate 15 0, by decide +kernel⟩,
   ⟨{ State.reset with
        sup.running := true, sup.source := .iso, taken := true, phase := .guard, sto.since := true, clk.cyc := 1024,
        reg := puts State.reset.reg [(Reg.faultInEn, 1)] }, 2, 2 :: List.replicate 15 0, by decide +kernel⟩,
   ⟨{ State.reset with
        sup.running := true, taken := true, phase := .guard, sto.since := true, cas.armed := true, cas.stuck := false,
        clk.now := 200000, runs := [(rcPourLow, State.reset.rd Reg.pourInFilter)],
        reg := puts State.reset.reg [(Reg.pourInEn, 1)] }, by decide +kernel⟩,
   ⟨{ State.reset with taken := true, pads.pour := true }, by decide +kernel⟩,
   ⟨{ State.reset with
        taken := true, sup.running := true, cas.stuck := false, clk.now := 200000, runs := [(rcPourStuck, 2560)] },
    by decide +kernel⟩,
   ⟨{ State.reset with
        phase := .start, lad.permit := false, sup.running := true, sup.source := .iso, clk.cyc := 1024,
        reg := puts State.reset.reg [(Reg.nodeId, 2)] }, 1 :: List.replicate 15 0, by decide +kernel⟩,
   ⟨{ State.reset with
        sup.running := true, sup.source := .iso, phase := .guard, clk.cyc := 1024,
        reg := puts State.reset.reg [(Reg.nodeId, 2)] }, 2 :: List.replicate 15 0, by decide +kernel⟩,
   ⟨{ State.reset with
        sup.running := true, sup.source := .iso, phase := .guard, clk.cyc := 1024,
        reg := puts State.reset.reg [(Reg.nodeId, 2)] }, List.replicate 16 0, by decide +kernel⟩⟩

/-- States and operands that meet the hypotheses of each clause of DistributionStepsAndStops. -/
theorem wit_DistributionStepsAndStops :
  (∃ (s : State) (d : Dist) (a : BitVec 32) (b : List Byte), s.cas.dist = some d ∧ d.node ≠ 0 ∧ d.step = 0 ∧ a.toNat / 65536
    = 0) ∧
  (∃ (s : State) (d : Dist) (a : BitVec 32) (b : List Byte), s.cas.dist = some d ∧ d.node ≠ 0 ∧ d.step = 0 ∧ d.todo = [] ∧
    a.toNat / 65536 ≠ 0 ∧ a.toNat / 65536 ≠ 0x0402 ∧ a.toNat / 65536 ≠ 0x0403) ∧
  (∃ (s : State) (d : Dist) (a : BitVec 32) (b : List Byte), s.cas.dist = some d ∧ d.node ≠ 0 ∧ d.step ≠ 11 ∧ (a.toNat /
    65536 = 0x0402 ∨ a.toNat / 65536 = 0x0403)) ∧
  (∃ (s : State) (d : Dist), s.cas.dist = some d ∧ d.node ≠ 0 ∧ d.step = 11 ∧ d.since + 4096 ≤ s.clk.cyc) :=
  ⟨⟨{ State.reset with cas.dist := some ({ node := 2 } : Dist) }, { node := 2 }, 0, [], by decide +kernel⟩,
   ⟨{ State.reset with cas.dist := some ({ node := 2 } : Dist) }, { node := 2 }, 0x05000000, [], by decide +kernel⟩,
   ⟨{ State.reset with cas.dist := some ({ node := 2 } : Dist) }, { node := 2 }, 0x04020000, [], by decide +kernel⟩,
   ⟨{ State.reset with
        cas.dist := some ({ node := 2, step := 11 } : Dist), clk.cyc := ({ node := 2, step := 11 } : Dist).since + 4096 },
    { node := 2, step := 11 }, by decide +kernel⟩⟩

/-- States and operands that meet the hypotheses of each clause of RequestsAreCountedLimitedAndTimedOut. -/
theorem wit_RequestsAreCountedLimitedAndTimedOut :
  (∃ (s : State) (u : State) (op : Nat) (r : Req), s.intake op r = some u) ∧
  (∃ (s : State) (r : Req), s.deaf r.src = false ∧ badForm Op.read r = false ∧ s.awaits r.src = false ∧ s.sup.romOnly =
    false ∧ (s.srcOf r.src).retries = [] ∧ (s.touched r.src).tokens = 0) ∧
  (∃ (s : State) (r : Req), s.deaf r.src = false ∧ badForm Op.read r = false ∧ s.awaits r.src = false ∧ s.sup.romOnly =
    false ∧ (s.srcOf r.src).retries = [] ∧ (s.touched r.src).tokens ≠ 0 ∧ 64 ≤ s.svc.load) ∧
  (∃ (s : State) (r : Req) (until_ : Nat) (code : Nat), s.deaf r.src = false ∧ badForm Op.read r = false ∧ s.awaits r.src =
    false ∧ s.sup.romOnly = false ∧ (s.srcOf r.src).retries = [(Op.read, reqKey r, until_, code)] ∧ s.clk.cyc < until_) ∧
  (∃ (s : State) (r : Req), s.deaf r.src = true ∧ s.badAddr r.src = false) ∧
  (∃ (s : State) (r : Req), s.badAddr r.src = true ∧ s.canQueues = true ∧ (s.srcOf r.src).quarLeft = 0) ∧
  (∃ (s : State) (r : Req), s.deaf r.src = false ∧ badForm Op.read r = false ∧ s.awaits r.src = true) ∧
  (∃ (s : State) (j : Src), (s.srcOf j).unlocked = true ∧ (s.srcOf j).lastReq + 3000 ≤ s.clk.cyc) ∧
  (∃ (s : State) (j : Src), (s.srcOf j).unlocked = true ∧ s.clk.cyc < (s.srcOf j).lastReq + 3000) ∧
  (∃ (s : State) (j : Src), (s.srcOf j).quarLeft = 1) ∧
  (∃ (s : State) (a : Nat), s.svc.usbFrame = some a ∧ a + 2048 ≤ s.tick ∧ (s.srcOf 1).quarLeft = 0) ∧
  (∃ (s : State) (a : Nat), s.svc.usbFrame = some a ∧ a + 2048 ≤ s.tick ∧ (s.srcOf 1).quarLeft ≠ 0) ∧
  (∃ (s : State) (p : ProtRec) (j : Nat) (tag : Nat) (l : List (ProtRec × Nat × Nat × Nat)), s.fw.writing = (p, 1, j, tag)
    :: l ∧ tag < 256 ∧ (s.srcOf j).held = []) ∧
  (∃ (s : State) (p : ProtRec) (j : Nat) (tag : Nat) (l : List (ProtRec × Nat × Nat × Nat)), s.fw.writing = (p, 3, j, tag)
    :: l ∧ tag < 256 ∧ (s.srcOf j).held = []) :=
  ⟨⟨onUsb, Option.get (onUsb.intake (Op.read : Nat) (rq Reg.serialNo)) (by decide +kernel), Op.read, rq Reg.serialNo,
    (Option.some_get _).symm⟩,
   ⟨{ onUsb with
        sup.romOnly := false, svc.srcs := [((rq Reg.serialNo).src, { retries := [], known := true, tokens := 0 })] },
    rq Reg.serialNo, by decide +kernel⟩,
   ⟨{ onUsb with sup.romOnly := false, svc.load := 64, svc.srcs := [((rq Reg.serialNo).src, { retries := [] })] },
    rq Reg.serialNo, by decide +kernel⟩,
   ⟨{ onUsb with
        sup.romOnly := false, clk.cyc := 10240,
        svc.srcs := [((rq Reg.serialNo).src, { retries := [(Op.read, reqKey (rq Reg.serialNo), (10300 : Nat), (0x01030000 : Nat))] })] },
    rq Reg.serialNo, 10300, 0x01030000, by decide +kernel⟩,
   ⟨State.reset, rq Reg.serialNo, by decide +kernel⟩,
   ⟨{ State.reset with
        sup.running := true, sup.source := .iso, phase := .guard, clk.begun := true, clk.cyc := 1024, clk.tic := 0 },
    rq Reg.serialNo [] 0 3, by decide +kernel⟩,
   ⟨{ onUsb with fw.writing := [({}, 1, 1, 0)] }, rq Reg.serialNo, by decide +kernel⟩,
   ⟨{ State.reset with clk.cyc := 10240, svc.srcs := [((1 : Src), { unlocked := true })] }, 1, by decide +kernel⟩,
   ⟨{ State.reset with clk.cyc := 10240, svc.srcs := [((1 : Src), { unlocked := true, lastReq := 10000 })] }, 1,
    by decide +kernel⟩,
   ⟨{ State.reset with svc.srcs := [((1 : Src), { quarLeft := 1 })] }, 1, by decide +kernel⟩,
   ⟨{ State.reset with svc.usbFrame := some 0, clk.now := 200000 }, 0, by decide +kernel⟩,
   ⟨{ State.reset with svc.usbFrame := some 0, clk.now := 200000, svc.srcs := [(1, { quarLeft := 5 })] }, 0,
    by decide +kernel⟩,
   ⟨{ State.reset with
        fw.writing := (({ password := 9, bootPref := 1, seq := 4 } : ProtRec), 1, (1 : Nat), (0 : Nat)) :: ([] : List (ProtRec × Nat × Nat × Nat)),
        svc.srcs := [((1 : Nat), { held := [] })] }, { password := 9, bootPref := 1, seq := 4 }, 1, 0, [], by decide +kernel⟩,
   ⟨{ State.reset with
        fw.writing := (({ protCode := 9, seq := 4 } : ProtRec), 3, (1 : Nat), (0 : Nat)) :: ([] : List (ProtRec × Nat × Nat × Nat)),
        svc.srcs := [((1 : Nat), { held := [] })] }, { protCode := 9, seq := 4 }, 1, 0, [], by decide +kernel⟩⟩

/-- States that meet hypotheses of ParametersAreReadAndDescribed. -/
def st32 : State :=
  { onUsb with fw.record := some { password := 5 }, reg := puts State.reset.reg [(Reg.hideGroups, 0x3FF)] }

/-- States and operands that meet the hypotheses of each clause of ParametersAreReadAndDescribed. -/
theorem wit_ParametersAreReadAndDescribed :
  (∃ (s : State) (u : State) (r : Req) (w : Row), s.admits Op.read r = some u ∧ rowIn (reqKey r) = some w ∧ u.readBar r.src
    (reqKey r) w = none ∧ r.data = [] ∧ tySize w.ty ≤ maxL r.src ∧ reqKey r ≠ Reg.logBatch ∧ reqKey r ≠ Reg.winData) ∧
  (∃ (s : State) (u : State) (r : Req) (w : Row), s.admits Op.read r = some u ∧ rowIn (reqKey r) = some w ∧ w.acc ≠ .wo ∧
    u.hidden (reqKey r) = true ∧ u.unlocked r.src = false) ∧
  (∃ (s : State) (u : State) (r : Req), s.intake Op.read r = some u ∧ u.unready Op.read (reqKey r) = none ∧ (rowsOf (reqKey
    r / 256)).isEmpty = true ∧ masterOnly (reqKey r) = false) ∧
  (∃ (s : State) (u : State) (r : Req), s.admits Op.describe r = some u ∧ r.data = []) :=
  ⟨⟨onUsb, Option.get (onUsb.admits Op.read (rq Reg.nodeId)) (by decide +kernel), rq Reg.nodeId,
    Option.get (rowIn (reqKey (rq Reg.nodeId))) (by decide +kernel), (Option.some_get _).symm, (Option.some_get _).symm,
    by decide +kernel⟩,
   ⟨st32, Option.get (st32.admits Op.read (rq Reg.cellVmax)) (by decide +kernel), rq Reg.cellVmax,
    Option.get (rowIn (reqKey (rq Reg.cellVmax))) (by decide +kernel), (Option.some_get _).symm, (Option.some_get _).symm,
    by decide +kernel⟩,
   ⟨onUsb, Option.get (onUsb.intake Op.read (rq 0x123400)) (by decide +kernel), rq 0x123400, (Option.some_get _).symm,
    by decide +kernel⟩,
   ⟨onUsb, Option.get (onUsb.admits Op.describe (rq Reg.nodeId)) (by decide +kernel), rq Reg.nodeId,
    (Option.some_get _).symm, by decide +kernel⟩⟩

/-- States that meet hypotheses of ParametersAreWrittenOrBarred. -/
def st33 : State := { onUsb with reg := puts State.reset.reg [(Reg.evFlags, 7)] }
def st34 : State := { onUsb with fw.record := some { password := 5 } }
def st35 : State :=
  { State.reset with
      sup.usbUp := true, sup.running := true, sup.source := .iso, loaded := true, taken := true, phase := .pour }
def st36 : State :=
  { State.reset with
      sup.usbUp := true, sup.running := true, sup.source := .iso, loaded := true, taken := true, phase := .rest }

/-- States and operands that meet the hypotheses of each clause of ParametersAreWrittenOrBarred. -/
theorem wit_ParametersAreWrittenOrBarred :
  (∃ (s : State) (u : State) (r : Req) (w : Row) (v : Nat), s.takes r = some (u, v) ∧ rowIn (reqKey r) = some w ∧ w.flag =
    false ∧ w.acc ≠ .cmd ∧ reqKey r ∉ [Reg.idleHold, Reg.feedEn 0, Reg.feedEn 1, Reg.cellTarget, Reg.logSeekSeq,
    Reg.logFilter] ∧ s.scanSetting (reqKey r) = false) ∧
  (∃ (s : State) (u : State) (r : Req) (w : Row) (v : Nat), s.takes r = some (u, v) ∧ rowIn (reqKey r) = some w ∧ w.flag =
    false ∧ w.acc ≠ .cmd ∧ (reqKey r = Reg.logSeekSeq ∨ reqKey r = Reg.logFilter)) ∧
  (∃ (s : State) (u : State) (r : Req) (w : Row) (v : Nat), s.takes r = some (u, v) ∧ rowIn (reqKey r) = some w ∧ w.flag =
    true) ∧
  (∃ (s : State) (u : State) (r : Req) (w : Row), s.admits Op.write r = some u ∧ rowIn (reqKey r) = some w ∧ w.acc = .ro) ∧
  (∃ (s : State) (u : State) (r : Req) (w : Row), s.admits Op.write r = some u ∧ rowIn (reqKey r) = some w ∧ w.acc = .rwu ∧
    u.unlocked r.src = false) ∧
  (∃ (s : State) (u : State) (r : Req) (w : Row), s.admits Op.write r = some u ∧ rowIn (reqKey r) = some w ∧ w.acc ≠ .ro ∧
    w.acc ≠ .rwu ∧ s.phase = .pour ∧ u.pourPermits (reqKey r) w = false) ∧
  (∃ (s : State) (u : State) (r : Req) (w : Row), s.admits Op.write r = some u ∧ rowIn (reqKey r) = some w ∧ w.acc ≠ .ro ∧
    w.acc ≠ .rwu ∧ s.phase = .rest ∧ u.pourPermits (reqKey r) w = false) ∧
  (∃ (s : State) (u : State) (r : Req) (w : Row), s.admits Op.write r = some u ∧ rowIn (reqKey r) = some w ∧ w.acc = .rwi ∧
    s.phase = .guard ∧ s.idleStateNow.testBit (holdBit (reqKey r / 256)) = false) :=
  ⟨⟨onUsb, (Option.get (onUsb.takes (rq Reg.winAddr [1, 2, 0, 0])) (by decide +kernel)).1, rq Reg.winAddr [1, 2, 0, 0],
    Option.get (rowIn (reqKey (rq Reg.winAddr [1, 2, 0, 0]))) (by decide +kernel),
    (Option.get (onUsb.takes (rq Reg.winAddr [1, 2, 0, 0])) (by decide +kernel)).2, getPair _ _, (Option.some_get _).symm,
    by decide +kernel⟩,
   ⟨onUsb, (Option.get (onUsb.takes (rq Reg.logSeekSeq [1, 2, 0, 0])) (by decide +kernel)).1, rq Reg.logSeekSeq [1, 2, 0, 0],
    Option.get (rowIn (reqKey (rq Reg.logSeekSeq [1, 2, 0, 0]))) (by decide +kernel),
    (Option.get (onUsb.takes (rq Reg.logSeekSeq [1, 2, 0, 0])) (by decide +kernel)).2, getPair _ _, (Option.some_get _).symm,
    by decide +kernel⟩,
   ⟨st33, (Option.get (st33.takes (rq Reg.evFlags [4, 0])) (by decide +kernel)).1, rq Reg.evFlags [4, 0],
    Option.get (rowIn (reqKey (rq Reg.evFlags [4, 0]))) (by decide +kernel),
    (Option.get (st33.takes (rq Reg.evFlags [4, 0])) (by decide +kernel)).2, getPair _ _, (Option.some_get _).symm,
    by decide +kernel⟩,
   ⟨onUsb, Option.get (onUsb.admits Op.write (rq Reg.pours [0, 0, 0, 0])) (by decide +kernel), rq Reg.pours [0, 0, 0, 0],
    Option.get (rowIn (reqKey (rq Reg.pours [0, 0, 0, 0]))) (by decide +kernel), (Option.some_get _).symm,
    (Option.some_get _).symm, by decide +kernel⟩,
   ⟨st34, Option.get (st34.admits Op.write (rq Reg.hideGroups [0, 0])) (by decide +kernel), rq Reg.hideGroups [0, 0],
    Option.get (rowIn (reqKey (rq Reg.hideGroups [0, 0]))) (by decide +kernel), (Option.some_get _).symm,
    (Option.some_get _).symm, by decide +kernel⟩,
   ⟨st35, Option.get (st35.admits Op.write (rq Reg.winAddr [0, 0, 0, 0])) (by decide +kernel), rq Reg.winAddr [0, 0, 0, 0],
    Option.get (rowIn (reqKey (rq Reg.winAddr [0, 0, 0, 0]))) (by decide +kernel), (Option.some_get _).symm,
    (Option.some_get _).symm, by decide +kernel⟩,
   ⟨st36, Option.get (st36.admits Op.write (rq Reg.winAddr [0, 0, 0, 0])) (by decide +kernel), rq Reg.winAddr [0, 0, 0, 0],
    Option.get (rowIn (reqKey (rq Reg.winAddr [0, 0, 0, 0]))) (by decide +kernel), (Option.some_get _).symm,
    (Option.some_get _).symm, by decide +kernel⟩,
   ⟨onUsb, Option.get (onUsb.admits Op.write (rq Reg.laneMask [1])) (by decide +kernel), rq Reg.laneMask [1],
    Option.get (rowIn (reqKey (rq Reg.laneMask [1]))) (by decide +kernel), (Option.some_get _).symm,
    (Option.some_get _).symm, by decide +kernel⟩⟩

/-- States that meet hypotheses of TransfersRunInSegments. -/
def st37 : State :=
  { onUsb with svc.srcs := [(1, { xfer := some { write := false, key := Reg.nodeId, total := 1, data := [1] } })] }
def st38 : State :=
  { onUsb with
      svc.srcs := [(1, { xfer := some ({ write := false, key := Reg.nodeId, total := 4, data := [1, 2, 3, 4] } : Transfer) })] }
def st39 : State :=
  { onUsb with
      svc.srcs := [(1, { xfer := some ({ write := true, key := Reg.winAddr, total := 4, data := [], addr := 0 } : Transfer) })] }
def st40 : State :=
  { onUsb with
      svc.srcs := [(1, { xfer := some ({ write := true, key := Reg.winAddr, total := 4, data := [1, 2], addr := 0 } : Transfer) })] }
def st41 : State :=
  { onUsb with
      svc.srcs := [((rq Reg.winAddr [5, 9, 9]).src, { window := [], xfer := some ({ write := true, key := Reg.winAddr, total := 4, data := [], addr := 0 } : Transfer) })] }

/-- States and operands that meet the hypotheses of each clause of TransfersRunInSegments. -/
theorem wit_TransfersRunInSegments :
  (∃ (s : State) (u : State) (r : Req) (w : Row), s.admits Op.segReadInit r = some u ∧ rowIn (reqKey r) = some w ∧ u.readBar
    r.src (reqKey r) w = none ∧ r.data = [] ∧ u.xfersFull r.src = false ∧ reqKey r ≠ Reg.logBatch ∧ reqKey r ≠ Reg.winData) ∧
  (∃ (s : State) (u : State) (r : Req) (w : Row) (x : Transfer), s.admits Op.segReadInit r = some u ∧ rowIn (reqKey r) =
    some w ∧ u.readBar r.src (reqKey r) w = none ∧ r.data = [] ∧ u.xfersFull r.src = false ∧ reqKey r ≠ Reg.logBatch ∧
    reqKey r ≠ Reg.winData ∧ (u.srcOf r.src).xfer = some x ∧ x.fin = false) ∧
  (∃ (s : State) (u : State) (r : Req) (w : Row), s.admits Op.segWriteInit r = some u ∧ rowIn (reqKey r) = some w ∧
    u.writeBar r.src (reqKey r) w = none ∧ r.data.length = 4 ∧ fitsTotal (reqKey r) w (leValue (reqBytes r)) = true ∧
    u.xfersFull r.src = false) ∧
  (∃ (s : State) (u : State) (r : Req) (x : Transfer), s.admits Op.segData r = some u ∧ (u.srcOf r.src).xfer = some x ∧
    x.write = false ∧ x.key ≠ Reg.winData ∧ x.fin = false ∧ reqBytes r = [x.count % 256]) ∧
  (∃ (s : State) (u : State) (r : Req) (x : Transfer) (l : List Nat), s.admits Op.segData r = some u ∧ (u.srcOf r.src).xfer
    = some x ∧ x.write = true ∧ x.fin = false ∧ reqBytes r = x.count % 256 :: l ∧ r.flags.toNat < 128 ∧ x.data.length +
    l.length ≤ x.total) ∧
  (∃ (s : State) (u : State) (r : Req) (x : Transfer) (w : Row) (l : List Nat) (v : Nat), s.admits Op.segData r = some u ∧
    (u.srcOf r.src).xfer = some x ∧ x.write = true ∧ x.fin = false ∧ reqBytes r = x.count % 256 :: l ∧ 128 ≤ r.flags.toNat ∧
    x.data.length + l.length = x.total ∧ rowIn x.key = some w ∧ u.writeBar r.src x.key w = none ∧ u.checkWrite x.key w
    (x.data ++ l) = .ok v ∧ w.flag = false ∧ w.acc ≠ .cmd ∧ x.key ≠ Reg.winData ∧ x.key ∉ [Reg.idleHold, Reg.feedEn 0,
    Reg.feedEn 1, Reg.cellTarget, Reg.logSeekSeq, Reg.logFilter] ∧ s.scanSetting x.key = false) ∧
  (∃ (s : State) (u : State) (r : Req) (x : Transfer) (n : Nat) (l : List Nat), s.admits Op.segData r = some u ∧ (u.srcOf
    r.src).xfer = some x ∧ reqBytes r = n :: l ∧ n ≠ x.count % 256 ∧ (x.count = 0 ∨ n ≠ (x.count - 1) % 256) ∧ (s.srcOf
    r.src).window = []) ∧
  (∃ (s : State) (u : State) (r : Req), s.admits Op.segAbort r = some u) ∧
  (∃ (s : State) (j : Src) (x : Transfer), (s.srcOf j).xfer = some x ∧ x.at_ + 64 ≤ s.clk.cyc) :=
  ⟨⟨onUsb, Option.get (onUsb.admits Op.segReadInit (rq Reg.nodeId)) (by decide +kernel), rq Reg.nodeId,
    Option.get (rowIn (reqKey (rq Reg.nodeId))) (by decide +kernel), (Option.some_get _).symm, (Option.some_get _).symm,
    by decide +kernel⟩,
   ⟨st37, Option.get (st37.admits Op.segReadInit (rq Reg.serialNo)) (by decide +kernel), rq Reg.serialNo,
    Option.get (rowIn (reqKey (rq Reg.serialNo))) (by decide +kernel),
    { write := false, key := Reg.nodeId, total := 1, data := [1] }, (Option.some_get _).symm, (Option.some_get _).symm,
    by decide +kernel⟩,
   ⟨onUsb, Option.get (onUsb.admits Op.segWriteInit (rq Reg.winAddr [4, 0, 0, 0])) (by decide +kernel),
    rq Reg.winAddr [4, 0, 0, 0], Option.get (rowIn (reqKey (rq Reg.winAddr [4, 0, 0, 0]))) (by decide +kernel),
    (Option.some_get _).symm, (Option.some_get _).symm, by decide +kernel⟩,
   ⟨st38, Option.get (st38.admits Op.segData (rq Reg.nodeId [0])) (by decide +kernel), rq Reg.nodeId [0],
    { write := false, key := Reg.nodeId, total := 4, data := [1, 2, 3, 4] }, (Option.some_get _).symm, by decide +kernel⟩,
   ⟨st39, Option.get (st39.admits Op.segData (rq Reg.winAddr [0, 9, 9])) (by decide +kernel), rq Reg.winAddr [0, 9, 9],
    { write := true, key := Reg.winAddr, total := 4, data := [], addr := 0 }, [9, 9], (Option.some_get _).symm,
    by decide +kernel⟩,
   ⟨st40, Option.get (st40.admits Op.segData (rq Reg.winAddr [0, 9, 9] 0x80 1)) (by decide +kernel),
    rq Reg.winAddr [0, 9, 9] 0x80 1, { write := true, key := Reg.winAddr, total := 4, data := [1, 2], addr := 0 },
    Option.get (rowIn ({ write := true, key := Reg.winAddr, total := 4, data := [1, 2], addr := 0 } : Transfer).key) (by decide +kernel),
    [9, 9], leValue [1, 2, 9, 9], (Option.some_get _).symm, by decide +kernel, by decide +kernel, by decide +kernel,
    by decide +kernel, by decide +kernel, by decide +kernel, (Option.some_get _).symm, by decide +kernel, rfl,
    by decide +kernel⟩,
   ⟨st41, Option.get (st41.admits Op.segData (rq Reg.winAddr [5, 9, 9])) (by decide +kernel), rq Reg.winAddr [5, 9, 9],
    { write := true, key := Reg.winAddr, total := 4, data := [], addr := 0 }, 5, [9, 9], (Option.some_get _).symm,
    by decide +kernel⟩,
   ⟨onUsb, Option.get (onUsb.admits Op.segAbort (rq Reg.winAddr)) (by decide +kernel), rq Reg.winAddr,
    (Option.some_get _).symm⟩,
   ⟨{ State.reset with
        clk.cyc := ({ write := true, key := Reg.winAddr, total := 4, data := [], addr := 0 } : Transfer).at_ + 64,
        svc.srcs := [((1 : Src), { xfer := some ({ write := true, key := Reg.winAddr, total := 4, data := [], addr := 0 } : Transfer) })] },
    1, { write := true, key := Reg.winAddr, total := 4, data := [], addr := 0 }, by decide +kernel⟩⟩

/-- States that meet hypotheses of WindowsAndBatches. -/
def st42 : State :=
  { onUsb with
      svc.srcs := [(1, { xfer := some ({ write := false, key := Reg.winData, total := 16, addr := 0x1000 } : Transfer) })] }
def st43 : State :=
  { onUsb with
      svc.srcs := [(1, { xfer := some ({ write := true, key := Reg.winData, total := 8, data := [], addr := 0x100000 } : Transfer) })],
      reg := puts State.reset.reg [(Reg.fwState, 2), (Reg.fwRunningSlot, 0)] }
def st44 : State :=
  { onUsb with
      svc.srcs := [(1, { xfer := some ({ write := true, key := Reg.winData, total := 8, data := [], addr := 0x280000 } : Transfer) })] }
def st45 : State := { onUsb with svc.srcs := [(1, { cursor := some 0 })] }
def st46 : State := { onUsb with clk.begun := true, clk.cyc := 1024 }

/-- States and operands that meet the hypotheses of each clause of WindowsAndBatches. -/
theorem wit_WindowsAndBatches :
  (∃ (s : State) (u : State) (r : Req) (x : Transfer), s.admits Op.segData r = some u ∧ (u.srcOf r.src).xfer = some x ∧
    x.write = false ∧ x.key = Reg.winData ∧ x.fin = false ∧ reqBytes r = [x.count % 256] ∧ s.winReadFault (x.addr + x.count
    * (maxL r.src - 1)) (min (maxL r.src - 1) (x.total - x.count * (maxL r.src - 1))) false = (0, 0)) ∧
  (∃ (s : State) (u : State) (r : Req) (x : Transfer) (l : List Nat), s.admits Op.segData r = some u ∧ (u.srcOf r.src).xfer
    = some x ∧ x.write = true ∧ x.key = Reg.winData ∧ x.fin = false ∧ reqBytes r = x.count % 256 :: l ∧ 128 ≤ r.flags.toNat
    ∧ x.data.length + l.length = x.total ∧ u.winWriteFault r.src x.addr x.total = (0, 0)) ∧
  (∃ (s : State) (u : State) (r : Req) (x : Transfer) (l : List Nat), s.admits Op.segData r = some u ∧ (u.srcOf r.src).xfer
    = some x ∧ x.write = true ∧ x.key = Reg.winData ∧ x.fin = false ∧ reqBytes r = x.count % 256 :: l ∧ 128 ≤ r.flags.toNat
    ∧ x.data.length + l.length = x.total ∧ 0x280000 < x.addr + x.total) ∧
  (∃ (s : State) (w : WinWrite), s.fw.write = some w ∧ (s.srcOf w.src).held = []) ∧
  (∃ (s : State) (w : WinWrite), s.fw.write = some w ∧ (s.srcOf w.src).held = []) ∧
  (∃ (s : State) (u : State) (src : Src) (tag : Byte) (b : List Nat × (Nat × Nat × Bool)), s.admits Op.read
    { src := src, tag := tag, index := 0x6100, sub := 0x03 } = some u ∧ src.val = 1 ∧ u.batch src = .ok b) ∧
  (∃ (s : State) (u : State) (src : Src) (tag : Byte), s.admits Op.read
    { src := src, tag := tag, index := 0x6100, sub := 0x03 } = some u ∧ src.val ≠ 1) :=
  ⟨⟨st42, Option.get (st42.admits Op.segData (rq Reg.winData [0])) (by decide +kernel), rq Reg.winData [0],
    { write := false, key := Reg.winData, total := 16, addr := 0x1000 }, (Option.some_get _).symm, by decide +kernel⟩,
   ⟨st43, Option.get (st43.admits Op.segData (rq Reg.winData (0 :: List.replicate 8 7) 0x80 1)) (by decide +kernel),
    rq Reg.winData (0 :: List.replicate 8 7) 0x80 1,
    { write := true, key := Reg.winData, total := 8, data := [], addr := 0x100000 }, List.replicate 8 7,
    (Option.some_get _).symm, by decide +kernel⟩,
   ⟨st44, Option.get (st44.admits Op.segData (rq Reg.winData (0 :: List.replicate 8 7) 0x80 1)) (by decide +kernel),
    rq Reg.winData (0 :: List.replicate 8 7) 0x80 1,
    { write := true, key := Reg.winData, total := 8, data := [], addr := 0x280000 }, List.replicate 8 7,
    (Option.some_get _).symm, by decide +kernel⟩,
   ⟨{ State.reset with
        fw.write := some ({ addr := 0x100000, data := List.replicate 8 7, src := 1, tag := 3 } : WinWrite),
        svc.srcs := [(({ addr := 0x100000, data := List.replicate 8 7, src := 1, tag := 3 } : WinWrite).src, { held := [] })] },
    { addr := 0x100000, data := List.replicate 8 7, src := 1, tag := 3 }, by decide +kernel⟩,
   ⟨{ State.reset with
        fw.write := some ({ addr := 0x100000, data := List.replicate 8 7, src := 1, tag := 3 } : WinWrite),
        svc.srcs := [(({ addr := 0x100000, data := List.replicate 8 7, src := 1, tag := 3 } : WinWrite).src, { held := [] })] },
    { addr := 0x100000, data := List.replicate 8 7, src := 1, tag := 3 }, by decide +kernel⟩,
   ⟨st45,
    Option.get (st45.admits Op.read { src := (1 : Src), tag := (0 : Byte), index := 0x6100, sub := 0x03 }) (by decide +kernel),
    1, 0,
    match (Option.get (st45.admits Op.read { src := (1 : Src), tag := (0 : Byte), index := 0x6100, sub := 0x03 }) (by decide +kernel) : State).batch (1 : Src) with | .ok b => b | .error _ => ([], 0, 0, false),
    (Option.some_get _).symm, by decide +kernel, rfl⟩,
   ⟨st46,
    Option.get (st46.admits Op.read { src := (5 : Src), tag := (0 : Byte), index := 0x6100, sub := 0x03 }) (by decide +kernel),
    5, 0, (Option.some_get _).symm, by decide +kernel⟩⟩

/-- States that meet hypotheses of CarriersBringRequests. -/
def st47 : State :=
  { State.reset with
      sup.running := true, ll.rxq := [{ ty := 0x20, payload := [0, 7, 1, 0, 1, 0x50, 1, 0] }],
      svc.srcs := [(0, { quarLeft := 0 })], reg := puts State.reset.reg [(Reg.linkState, Ls.active), (Reg.llState, 2)] }
def st48 : State :=
  { State.reset with
      sup.running := true, ll.rxq := [{ ty := 0x20, payload := [0, 7, 1, 0, 1, 0x50, 1, 0] }],
      svc.srcs := [(0, { quarLeft := 9 })] }

/-- States and operands that meet the hypotheses of each clause of CarriersBringRequests. -/
theorem wit_CarriersBringRequests :
  (∃ (s : State) (v : State) (f : RxFrame) (b : List Byte), s.takeAny (fun g => g.ty = 0x20) = some (f, v) ∧ s.sup.running =
    true ∧ s.sessionUp = true ∧ (s.srcOf 0).quarLeft = 0 ∧ b = f.payload.map (BitVec.ofNat 8) ∧ (b.getD 7 0).toNat + 8 =
    b.length ∧ (f.payload.getD 0 0 = 0 ∨ f.payload.getD 0 0 = s.node) ∧ bodyOp b = Op.read) ∧
  (∃ (s : State) (v : State) (f : RxFrame), s.takeAny (fun g => g.ty = 0x20) = some (f, v) ∧ s.sup.running = true ∧ (s.srcOf
    0).quarLeft ≠ 0) ∧
  (∃ (s : State) (a : BitVec 7) (b : List Byte), s.canQueues = true ∧ 0 < a.toNat ∧ a.toNat < 127 ∧ a.toNat ≠ s.node ∧
    (s.srcOf (a.toNat + 2)).quarLeft = 0 ∧ 8 ≤ b.length ∧ (b.getD 0 0).toNat = s.node ∧ 8 + (b.getD 7 0).toNat ≤ b.length ∧
    bodyOp b = Op.read) ∧
  (∃ (s : State) (b : List Byte) (f : List Byte) (n : Nat), s.deaf 1 = false ∧ (∀ a, s.svc.usbFrame = some a → s.tick < a +
    2048) ∧ f = huntSync (s.svc.usbBuf ++ b) ∧ f.take 2 = [0x4B, 0x6F] ∧ n = field (f.map (·.toNat)) 2 2 ∧ 8 ≤ n ∧ n ≤ 1032
    ∧ f.length = n + 8 ∧ crc32 (((f.map (·.toNat)).drop 2).take (n + 2)) = field (f.map (·.toNat)) (n + 4) 4 ∧ (f.getD 11
    0).toNat = (n - 8) % 256 ∧ ((f.getD 4 0).toNat = 0 ∨ (f.getD 4 0).toNat = s.node) ∧ bodyOp ((f.drop 4).take n) =
    Op.read) ∧
  (∃ (s : State) (b : List Byte) (f : List Byte) (n : Nat), s.deaf 1 = false ∧ (∀ a, s.svc.usbFrame = some a → s.tick < a +
    2048) ∧ f = huntSync (s.svc.usbBuf ++ b) ∧ f.take 2 = [0x4B, 0x6F] ∧ n = field (f.map (·.toNat)) 2 2 ∧ 8 ≤ n ∧ n ≤ 1032
    ∧ f.length = n + 8 ∧ crc32 (((f.map (·.toNat)).drop 2).take (n + 2)) ≠ field (f.map (·.toNat)) (n + 4) 4 ∧ (s.srcOf
    1).window = []) ∧
  (∃ (s : State) (b : List Byte) (f : List Byte), s.deaf 1 = false ∧ s.svc.usbFrame = none ∧ s.svc.usbBuf ++ b ≠ [] ∧ f =
    huntSync (s.svc.usbBuf ++ b) ∧ f ≠ [] ∧ f.length < 4) :=
  ⟨⟨st47, (Option.get (st47.takeAny (fun g => g.ty = 0x20)) (by decide +kernel)).2,
    (Option.get (st47.takeAny (fun g => g.ty = 0x20)) (by decide +kernel)).1,
    ((Option.get (st47.takeAny (fun g => g.ty = 0x20)) (by decide +kernel)).1 : RxFrame).payload.map (BitVec.ofNat 8),
    getPair _ _, by decide +kernel, by decide +kernel, by decide +kernel, rfl, by decide +kernel⟩,
   ⟨st48, (Option.get (st48.takeAny (fun g => g.ty = 0x20)) (by decide +kernel)).2,
    (Option.get (st48.takeAny (fun g => g.ty = 0x20)) (by decide +kernel)).1, getPair _ _, by decide +kernel⟩,
   ⟨{ State.reset with
        sup.running := true, sup.source := .iso, phase := .guard, clk.begun := true, clk.cyc := 1024, clk.tic := 0 }, 3,
    [1, 7, 1, 0, 0, 0x50, 1, 0], by decide +kernel⟩,
   ⟨{ State.reset with sup.running := true, sup.usbUp := true }, [1, 0x4B] ++ usbFrame [0, 7, 1, 0, 1, 0x50, 1, 0],
    usbFrame [0, 7, 1, 0, 1, 0x50, 1, 0], 8, by decide +kernel, by simp [State.reset], by decide +kernel⟩,
   ⟨{ State.reset with sup.running := true, sup.usbUp := true }, [0x4B, 0x6F, 8, 0, 0, 7, 1, 0, 1, 0x50, 1, 0, 1, 2, 3, 4],
    [0x4B, 0x6F, 8, 0, 0, 7, 1, 0, 1, 0x50, 1, 0, 1, 2, 3, 4], 8, by decide +kernel, by simp [State.reset],
    by decide +kernel⟩,
   ⟨{ State.reset with svc.usbFrame := none, sup.running := true, sup.usbUp := true }, [7, 0x4B, 0x6F, 8], [0x4B, 0x6F, 8],
    by decide +kernel⟩⟩

/-- States that meet hypotheses of ConfigCommandsActOnTheSet. -/
def st49 : State := { onUsb with svc.commit := none }
def st50 : State :=
  { onUsb with svc.commit := none, svc.lastBank := 0, fla.cope := .valid 3 0 0 [(Reg.cellVmax, 2, 2750)] }

/-- States and operands that meet the hypotheses of each clause of ConfigCommandsActOnTheSet. -/
theorem wit_ConfigCommandsActOnTheSet :
  (∃ (s : State) (u : State) (src : Src) (tag : Byte), s.lets src tag Reg.configCommit 1 = some u ∧ s.svc.commit = none) ∧
  (∃ (s : State) (u : State) (src : Src) (tag : Byte), s.lets src tag Reg.configCommit 2 = some u ∧ s.svc.commit = none) ∧
  (∃ (s : State) (u : State) (src : Src) (tag : Byte) (b : Nat), s.lets src tag Reg.configCommit 3 = some u ∧ s.svc.commit =
    none ∧ (s.svc.lastBank = 0 ∧ s.bestBank = some b ∨ s.svc.lastBank = b + 1)) :=
  ⟨⟨st49, Option.get (st49.lets (1 : Src) (0 : Byte) Reg.configCommit 1) (by decide +kernel), 1, 0, (Option.some_get _).symm,
    by decide +kernel⟩,
   ⟨st49, Option.get (st49.lets (1 : Src) (0 : Byte) Reg.configCommit 2) (by decide +kernel), 1, 0, (Option.some_get _).symm,
    by decide +kernel⟩,
   ⟨st50, Option.get (st50.lets (1 : Src) (0 : Byte) Reg.configCommit 3) (by decide +kernel), 1, 0, 0,
    (Option.some_get _).symm, by decide +kernel⟩⟩

/-- States that meet hypotheses of LocksAndProtectionAreWritten. -/
def st51 : State := { onUsb with svc.attempts := 1 }
def st52 : State := { onUsb with fw.record := some { password := 5 } }
def st53 : State := { onUsb with svc.attempts := 0 }

/-- States and operands that meet the hypotheses of each clause of LocksAndProtectionAreWritten. -/
theorem wit_LocksAndProtectionAreWritten :
  (∃ (s : State) (u : State) (src : Src) (tag : Byte) (pw : BitVec 64), s.lets src tag Reg.oemUnlock pw.toNat = some u ∧
    s.svc.attempts ≠ 0 ∧ pw.toNat = s.prot.password) ∧
  (∃ (s : State) (u : State) (src : Src) (tag : Byte) (pw : BitVec 64), s.lets src tag Reg.oemUnlock pw.toNat = some u ∧ 1 <
    s.svc.attempts ∧ s.svc.attempts ≤ 8 ∧ pw.toNat ≠ s.prot.password) ∧
  (∃ (s : State) (u : State) (src : Src) (tag : Byte) (pw : BitVec 64), s.lets src tag Reg.oemUnlock pw.toNat = some u ∧
    s.svc.attempts = 0) ∧
  (∃ (s : State) (u : State) (src : Src) (tag : Byte), s.lets src tag Reg.oemLock 1 = some u ∧ s.prot.password ≠ 0) ∧
  (∃ (s : State) (u : State) (src : Src) (tag : Byte) (pw : BitVec 64), s.lets src tag Reg.oemPwChange pw.toNat = some u ∧
    u.unlocked src = true ∧ s.protBusy 1 = false) ∧
  (∃ (s : State) (u : State) (src : Src) (tag : Byte) (pm : BitVec 32), s.lets src tag Reg.protCodeSet pm.toNat = some u ∧
    u.unlocked src = true ∧ s.protBusy 3 = false) ∧
  (∃ (s : State) (u : State) (src : Src) (tag : Byte), s.lets src tag Reg.debugClose 1 = some u ∧ u.unlocked src = true ∧
    s.protBusy 4 = false) ∧
  (∃ (s : State) (u : State) (src : Src) (tag : Byte), s.lets src tag Reg.debugClose 2 = some u ∧ u.unlocked src = true ∧
    s.protBusy 4 = false) :=
  ⟨⟨st51, Option.get (st51.lets (1 : Src) (0 : Byte) Reg.oemUnlock (0 : BitVec 64).toNat) (by decide +kernel), 1, 0, 0,
    (Option.some_get _).symm, by decide +kernel⟩,
   ⟨st52, Option.get (st52.lets (1 : Src) (0 : Byte) Reg.oemUnlock (9 : BitVec 64).toNat) (by decide +kernel), 1, 0, 9,
    (Option.some_get _).symm, by decide +kernel⟩,
   ⟨st53, Option.get (st53.lets (1 : Src) (0 : Byte) Reg.oemUnlock (0 : BitVec 64).toNat) (by decide +kernel), 1, 0, 0,
    (Option.some_get _).symm, by decide +kernel⟩,
   ⟨st52, Option.get (st52.lets (1 : Src) (0 : Byte) Reg.oemLock 1) (by decide +kernel), 1, 0, (Option.some_get _).symm,
    by decide +kernel⟩,
   ⟨onUsb, Option.get (onUsb.lets (1 : Src) (0 : Byte) Reg.oemPwChange (0 : BitVec 64).toNat) (by decide +kernel), 1, 0, 0,
    (Option.some_get _).symm, by decide +kernel⟩,
   ⟨onUsb, Option.get (onUsb.lets (1 : Src) (0 : Byte) Reg.protCodeSet (0 : BitVec 32).toNat) (by decide +kernel), 1, 0, 0,
    (Option.some_get _).symm, by decide +kernel⟩,
   ⟨onUsb, Option.get (onUsb.lets (1 : Src) (0 : Byte) Reg.debugClose 1) (by decide +kernel), 1, 0, (Option.some_get _).symm,
    by decide +kernel⟩,
   ⟨onUsb, Option.get (onUsb.lets (1 : Src) (0 : Byte) Reg.debugClose 2) (by decide +kernel), 1, 0, (Option.some_get _).symm,
    by decide +kernel⟩⟩

/-- States that meet hypotheses of HoldsAndRestartsAreCommanded. -/
def st54 : State := { onUsb with reg := puts State.reset.reg [(Reg.linkState, Ls.detect)] }
def st55 : State :=
  { State.reset with
      sup.usbUp := true, sup.running := true, sup.source := .iso, loaded := true, taken := true, phase := .start,
      reg := puts State.reset.reg [(Reg.startStep, Step.configHeld)] }
def st56 : State :=
  { State.reset with
      sup.usbUp := true, sup.running := true, sup.source := .iso, loaded := true, taken := true, phase := .rest }

/-- States and operands that meet the hypotheses of each clause of HoldsAndRestartsAreCommanded. -/
theorem wit_HoldsAndRestartsAreCommanded :
  (∃ (s : State) (u : State) (src : Src) (tag : Byte) (h : BitVec 16), s.lets src tag Reg.idleHold h.toNat = some u ∧
    s.holdFault h.toNat = none ∧ (s.atStep Step.configHeld && decide (h.toNat % 128 = 0)) = false ∧ h.toNat &&& 0x780 = s.rd
    Reg.idleHold &&& 0x780) ∧
  (∃ (s : State) (u : State) (src : Src) (tag : Byte) (h : BitVec 16), s.lets src tag Reg.idleHold h.toNat = some u ∧
    s.holdFault h.toNat = none ∧ (s.atStep Step.configHeld && decide (h.toNat % 128 = 0)) = false ∧ heldBy h.toNat 0x180 =
    true ∧ heldBy (s.rd Reg.idleHold) 0x180 = false ∧ heldBy h.toNat 0x400 = heldBy (s.rd Reg.idleHold) 0x400 ∧ s.ls ≠
    Ls.disabled ∧ s.dropped = false) ∧
  (∃ (s : State) (u : State) (src : Src) (tag : Byte) (h : BitVec 16), s.lets src tag Reg.idleHold h.toNat = some u ∧
    s.atStep Step.configHeld = true ∧ h.toNat % 128 = 0 ∧ h.toNat &&& 0x780 = s.rd Reg.idleHold &&& 0x780) ∧
  (∃ (s : State) (u : State) (src : Src) (tag : Byte) (h : BitVec 16), s.lets src tag Reg.idleHold h.toNat = some u ∧
    s.phase = .guard ∧ h.toNat % 128 ≠ 0) ∧
  (∃ (s : State) (u : State) (src : Src) (tag : Byte), s.lets src tag Reg.restart 1 = some u ∧ s.sup.source ≠ .off) ∧
  (∃ (s : State) (u : State) (src : Src) (tag : Byte), s.lets src tag Reg.restart 2 = some u ∧ s.sup.source ≠ .off) ∧
  (∃ (s : State) (u : State) (src : Src) (tag : Byte), s.lets src tag Reg.restWake 1 = some u ∧ s.phase = .rest ∧
    s.sup.running = true ∧ s.sup.source ≠ .off) ∧
  (∃ (s : State) (u : State) (src : Src) (tag : Byte), s.lets src tag Reg.restWake 1 = some u ∧ s.phase ≠ .rest) :=
  ⟨⟨onUsb, Option.get (onUsb.lets (1 : Src) (0 : Byte) Reg.idleHold (0 : BitVec 16).toNat) (by decide +kernel), 1, 0, 0,
    (Option.some_get _).symm, by decide +kernel⟩,
   ⟨st54, Option.get (st54.lets 1 7 Reg.idleHold 0x180) (by decide +kernel), 1, 7, 0x180, (Option.some_get _).symm,
    by decide +kernel⟩,
   ⟨st55, Option.get (st55.lets (1 : Src) (0 : Byte) Reg.idleHold (0 : BitVec 16).toNat) (by decide +kernel), 1, 0, 0,
    (Option.some_get _).symm, by decide +kernel⟩,
   ⟨onUsb, Option.get (onUsb.lets (1 : Src) (0 : Byte) Reg.idleHold (1 : BitVec 16).toNat) (by decide +kernel), 1, 0, 1,
    (Option.some_get _).symm, by decide +kernel⟩,
   ⟨onUsb, Option.get (onUsb.lets (1 : Src) (0 : Byte) Reg.restart 1) (by decide +kernel), 1, 0, (Option.some_get _).symm,
    by decide +kernel⟩,
   ⟨onUsb, Option.get (onUsb.lets (1 : Src) (0 : Byte) Reg.restart 2) (by decide +kernel), 1, 0, (Option.some_get _).symm,
    by decide +kernel⟩,
   ⟨st56, Option.get (st56.lets (1 : Src) (0 : Byte) Reg.restWake 1) (by decide +kernel), 1, 0, (Option.some_get _).symm,
    by decide +kernel⟩,
   ⟨onUsb, Option.get (onUsb.lets (1 : Src) (0 : Byte) Reg.restWake 1) (by decide +kernel), 1, 0, (Option.some_get _).symm,
    by decide +kernel⟩⟩

/-- States that meet hypotheses of PadsStartAndSequencerAreCleared. -/
def st57 : State :=
  { State.reset with
      sup.usbUp := true, sup.running := true, sup.source := .iso, loaded := true, taken := true, phase := .start,
      reg := puts State.reset.reg [(Reg.startStop, 1), (Reg.startStep, Step.stopped)] }
def st58 : State :=
  { State.reset with
      sup.usbUp := true, sup.running := true, sup.source := .iso, loaded := true, taken := true, phase := .start,
      reg := puts State.reset.reg [(Reg.startStep, Step.stopped), (Reg.startStop, 1), (Reg.seqLatch, 1)] }
def st59 : State :=
  { State.reset with
      sup.usbUp := true, sup.running := true, sup.source := .iso, loaded := true, taken := true, phase := .start,
      reg := puts State.reset.reg [(Reg.startStep, Step.stopped), (Reg.startStop, 2)] }
def st60 : State :=
  { State.reset with
      sup.usbUp := true, sup.running := true, sup.source := .iso, loaded := true, taken := true, phase := .start,
      reg := puts State.reset.reg [(Reg.startStop, 2), (Reg.isState, 3), (Reg.startStep, Step.stopped)] }
def st61 : State :=
  { State.reset with
      sup.usbUp := true, sup.running := true, sup.source := .iso, loaded := true, taken := true, phase := .start,
      reg := puts State.reset.reg [(Reg.startStep, Step.stopped), (Reg.startStop, 4)] }
def st62 : State := { onUsb with reg := puts State.reset.reg [(Reg.seqLatch, 1)] }
def st63 : State := { onUsb with reg := puts State.reset.reg [(Reg.seqLatch, 0)] }

/-- States and operands that meet the hypotheses of each clause of PadsStartAndSequencerAreCleared. -/
theorem wit_PadsStartAndSequencerAreCleared :
  (∃ (s : State) (u : State) (src : Src) (tag : Byte) (m : BitVec 16), s.lets src tag Reg.contRearm m.toNat = some u) ∧
  (∃ (s : State) (u : State) (src : Src) (tag : Byte), s.lets src tag Reg.startRetry 1 = some u ∧ s.atStep Step.stopped =
    true ∧ s.rd Reg.startStop = 1 ∧ s.rd Reg.seqLatch ≠ 1 ∧ s.rd Reg.isState ≠ 3) ∧
  (∃ (s : State) (u : State) (src : Src) (tag : Byte), s.lets src tag Reg.startRetry 1 = some u ∧ s.atStep Step.stopped =
    true ∧ s.rd Reg.startStop = 1 ∧ s.rd Reg.seqLatch = 1) ∧
  (∃ (s : State) (u : State) (src : Src) (tag : Byte), s.lets src tag Reg.startRetry 1 = some u ∧ s.atStep Step.stopped =
    true ∧ s.rd Reg.startStop ≠ 1 ∧ s.rd Reg.startStop ≠ 4 ∧ s.rd Reg.isState ≠ 3) ∧
  (∃ (s : State) (u : State) (src : Src) (tag : Byte), s.lets src tag Reg.startRetry 1 = some u ∧ s.atStep Step.stopped =
    true ∧ s.rd Reg.startStop = 2 ∧ s.rd Reg.isState = 3) ∧
  (∃ (s : State) (u : State) (src : Src) (tag : Byte), s.lets src tag Reg.startRetry 1 = some u ∧ s.atStep Step.stopped =
    true ∧ s.rd Reg.startStop = 4 ∧ s.stopAt ≠ Step.onSlots ∧ s.stopAt < 256) ∧
  (∃ (s : State) (u : State) (src : Src) (tag : Byte), s.lets src tag Reg.startRetry 1 = some u ∧ s.atStep Step.stopped =
    false) ∧
  (∃ (s : State) (u : State) (src : Src) (tag : Byte), s.lets src tag Reg.seqClear 1 = some u ∧ s.rd Reg.seqLatch ≠ 0) ∧
  (∃ (s : State) (u : State) (src : Src) (tag : Byte), s.lets src tag Reg.seqClear 1 = some u ∧ s.rd Reg.seqLatch = 0) :=
  ⟨⟨onUsb, Option.get (onUsb.lets (1 : Src) (0 : Byte) Reg.contRearm (0 : BitVec 16).toNat) (by decide +kernel), 1, 0, 0,
    (Option.some_get _).symm⟩,
   ⟨st57, Option.get (st57.lets 1 7 Reg.startRetry 1) (by decide +kernel), 1, 7, (Option.some_get _).symm, by decide +kernel⟩,
   ⟨st58, Option.get (st58.lets (1 : Src) (0 : Byte) Reg.startRetry 1) (by decide +kernel), 1, 0, (Option.some_get _).symm,
    by decide +kernel⟩,
   ⟨st59, Option.get (st59.lets 1 7 Reg.startRetry 1) (by decide +kernel), 1, 7, (Option.some_get _).symm, by decide +kernel⟩,
   ⟨st60, Option.get (st60.lets 1 7 Reg.startRetry 1) (by decide +kernel), 1, 7, (Option.some_get _).symm, by decide +kernel⟩,
   ⟨st61, Option.get (st61.lets (1 : Src) (0 : Byte) Reg.startRetry 1) (by decide +kernel), 1, 0, (Option.some_get _).symm,
    by decide +kernel⟩,
   ⟨onUsb, Option.get (onUsb.lets (1 : Src) (0 : Byte) Reg.startRetry 1) (by decide +kernel), 1, 0, (Option.some_get _).symm,
    by decide +kernel⟩,
   ⟨st62, Option.get (st62.lets (1 : Src) (0 : Byte) Reg.seqClear 1) (by decide +kernel), 1, 0, (Option.some_get _).symm,
    by decide +kernel⟩,
   ⟨st63, Option.get (st63.lets (1 : Src) (0 : Byte) Reg.seqClear 1) (by decide +kernel), 1, 0, (Option.some_get _).symm,
    by decide +kernel⟩⟩

/-- States that meet hypotheses of FeedsLadleAndHoldupAreCommanded. -/
def st64 : State := { onUsb with bar.shareSent := true }
def st65 : State := { onUsb with reg := puts State.reset.reg [(Reg.feedState 0, Fs.on)] }
def st66 : State := { onUsb with bar.shareSent := false }
def st67 : State := { onUsb with reg := puts State.reset.reg [(Reg.feedState 0, Fs.damaged)] }
def st68 : State := { onUsb with reg := puts State.reset.reg [(Reg.huTemp, State.reset.rd Reg.huTmax)] }

/-- States and operands that meet the hypotheses of each clause of FeedsLadleAndHoldupAreCommanded. -/
theorem wit_FeedsLadleAndHoldupAreCommanded :
  (∃ (s : State) (u : State) (src : Src) (tag : Byte) (f : Feed), s.lets src tag (Reg.feedEn f) 0 = some u ∧ s.feedEnRefused
    f 0 = false ∧ s.bar.shareSent = true) ∧
  (∃ (s : State) (u : State) (src : Src) (tag : Byte) (f : Feed), s.lets src tag (Reg.feedEn f) 0 = some u ∧ s.feedEnRefused
    f 0 = true) ∧
  (∃ (s : State) (u : State) (src : Src) (tag : Byte) (f : Feed), s.lets src tag (Reg.feedEn f) 1 = some u ∧ s.bar.shareSent
    = true) ∧
  (∃ (s : State) (u : State) (src : Src) (tag : Byte) (f : Feed), s.lets src tag (Reg.feedEn f) 1 = some u ∧ s.bar.shareSent
    = false) ∧
  (∃ (s : State) (u : State) (src : Src) (tag : Byte) (f : Feed), s.lets src tag (Reg.fetDmgClear f) 1 = some u ∧ s.rd
    (Reg.feedState f) = Fs.damaged) ∧
  (∃ (s : State) (u : State) (src : Src) (tag : Byte) (f : Feed), s.lets src tag (Reg.fetDmgClear f) 1 = some u ∧ s.rd
    (Reg.feedState f) ≠ Fs.damaged) ∧
  (∃ (s : State) (u : State) (src : Src) (tag : Byte) (mv : BitVec 16), s.lets src tag Reg.cellTarget mv.toNat = some u) ∧
  (∃ (s : State) (u : State) (src : Src) (tag : Byte), s.lets src tag Reg.ladleClear 1 = some u) ∧
  (∃ (s : State) (u : State) (src : Src) (tag : Byte), s.lets src tag Reg.huClear 1 = some u ∧ s.rdI Reg.huTemp < s.rdI
    Reg.huTmax) ∧
  (∃ (s : State) (u : State) (src : Src) (tag : Byte), s.lets src tag Reg.huClear 2 = some u ∧ s.rdI Reg.huTemp < s.rdI
    Reg.huTmax) ∧
  (∃ (s : State) (u : State) (src : Src) (tag : Byte), s.lets src tag Reg.huClear 1 = some u ∧ s.rdI Reg.huTmax ≤ s.rdI
    Reg.huTemp) :=
  ⟨⟨st64, Option.get (st64.lets 1 7 (Reg.feedEn (0 : Feed)) 0) (by decide +kernel), 1, 7, 0, (Option.some_get _).symm,
    by decide +kernel⟩,
   ⟨st65, Option.get (st65.lets 1 7 (Reg.feedEn (0 : Feed)) 0) (by decide +kernel), 1, 7, 0, (Option.some_get _).symm,
    by decide +kernel⟩,
   ⟨st64, Option.get (st64.lets 1 7 (Reg.feedEn (0 : Feed)) 1) (by decide +kernel), 1, 7, 0, (Option.some_get _).symm,
    by decide +kernel⟩,
   ⟨st66, Option.get (st66.lets 1 7 (Reg.feedEn (0 : Feed)) 1) (by decide +kernel), 1, 7, 0, (Option.some_get _).symm,
    by decide +kernel⟩,
   ⟨st67, Option.get (st67.lets 1 7 (Reg.fetDmgClear (0 : Feed)) 1) (by decide +kernel), 1, 7, 0, (Option.some_get _).symm,
    by decide +kernel⟩,
   ⟨onUsb, Option.get (onUsb.lets 1 7 (Reg.fetDmgClear (0 : Feed)) 1) (by decide +kernel), 1, 7, 0, (Option.some_get _).symm,
    by decide +kernel⟩,
   ⟨onUsb, Option.get (onUsb.lets (1 : Src) (0 : Byte) Reg.cellTarget (2500 : BitVec 16).toNat) (by decide +kernel), 1, 0,
    2500, (Option.some_get _).symm⟩,
   ⟨onUsb, Option.get (onUsb.lets (1 : Src) (0 : Byte) Reg.ladleClear 1) (by decide +kernel), 1, 0, (Option.some_get _).symm⟩,
   ⟨onUsb, Option.get (onUsb.lets 1 7 Reg.huClear 1) (by decide +kernel), 1, 7, (Option.some_get _).symm, by decide +kernel⟩,
   ⟨onUsb, Option.get (onUsb.lets 1 7 Reg.huClear 2) (by decide +kernel), 1, 7, (Option.some_get _).symm, by decide +kernel⟩,
   ⟨st68, Option.get (st68.lets 1 7 Reg.huClear 1) (by decide +kernel), 1, 7, (Option.some_get _).symm, by decide +kernel⟩⟩

/-- States that meet hypotheses of LinkAndEyeScansAreCommanded. -/
def st69 : State := { onUsb with reg := puts State.reset.reg [(Reg.linkState, Ls.active)] }
def st70 : State := { onUsb with reg := puts State.reset.reg [(Reg.widthNow, 1), (Reg.laneLogical 0, 0)] }
def st71 : State := { onUsb with reg := puts State.reset.reg [(Reg.widthNow, 0)] }
def st72 : State :=
  { onUsb with
      phy.scans := [((0 : Lane), { running := true })], reg := puts State.reset.reg [((Reg.eyeCmd (0 : Lane)), 1)] }

/-- States and operands that meet the hypotheses of each clause of LinkAndEyeScansAreCommanded. -/
theorem wit_LinkAndEyeScansAreCommanded :
  (∃ (s : State) (u : State) (src : Src) (tag : Byte), s.lets src tag Reg.linkRetrain 1 = some u ∧ (s.ls = Ls.active ∨ s.ls
    = Ls.banked) ∧ s.dropped = false) ∧
  (∃ (s : State) (u : State) (src : Src) (tag : Byte), s.lets src tag Reg.linkRetrain 2 = some u ∧ (s.ls = Ls.active ∨ s.ls
    = Ls.banked) ∧ s.dropped = false) ∧
  (∃ (s : State) (u : State) (src : Src) (tag : Byte), s.lets src tag Reg.linkRetrain 2 = some u ∧ s.wasActive = false ∧
    s.ls ≠ Ls.banked) ∧
  (∃ (s : State) (u : State) (src : Src) (tag : Byte) (p : Lane), s.lets src tag (Reg.eyeCmd p) 1 = some u ∧ s.rd
    (Reg.eyeCmd p) ≠ 1 ∧ s.rd Reg.widthNow ≠ 0 ∧ s.laneIn p = true ∧ s.lanePoints p ≤ 1024 ∧ s.bitOf Reg.idleHold 10 =
    false) ∧
  (∃ (s : State) (u : State) (src : Src) (tag : Byte) (p : Lane), s.lets src tag (Reg.eyeCmd p) 1 = some u ∧ s.rd
    (Reg.eyeCmd p) ≠ 1 ∧ (s.rd Reg.widthNow = 0 ∨ s.laneIn p = false)) ∧
  (∃ (s : State) (u : State) (src : Src) (tag : Byte) (p : Lane), s.lets src tag (Reg.eyeCmd p) 2 = some u ∧ s.rd
    (Reg.eyeCmd p) = 1 ∧ (s.scanOf p).running = true) :=
  ⟨⟨st69, Option.get (st69.lets 1 7 Reg.linkRetrain 1) (by decide +kernel), 1, 7, (Option.some_get _).symm,
    by decide +kernel⟩,
   ⟨st69, Option.get (st69.lets 1 7 Reg.linkRetrain 2) (by decide +kernel), 1, 7, (Option.some_get _).symm,
    by decide +kernel⟩,
   ⟨onUsb, Option.get (onUsb.lets 1 7 Reg.linkRetrain 2) (by decide +kernel), 1, 7, (Option.some_get _).symm,
    by decide +kernel⟩,
   ⟨st70, Option.get (st70.lets 1 7 (Reg.eyeCmd (0 : Lane)) 1) (by decide +kernel), 1, 7, 0, (Option.some_get _).symm,
    by decide +kernel⟩,
   ⟨st71, Option.get (st71.lets 1 7 (Reg.eyeCmd (0 : Lane)) 1) (by decide +kernel), 1, 7, 0, (Option.some_get _).symm,
    by decide +kernel⟩,
   ⟨st72, Option.get (st72.lets (1 : Src) (0 : Byte) (Reg.eyeCmd (0 : Lane)) 2) (by decide +kernel), 1, 0, 0,
    (Option.some_get _).symm, by decide +kernel⟩⟩

/-- States that meet hypotheses of FirmwareIsCommanded. -/
def st73 : State := { onUsb with cas.dist := none }
def st74 : State := { onUsb with cas.dist := none, reg := puts State.reset.reg [(Reg.fwState, 2)] }
def st75 : State := { onUsb with cas.dist := none, reg := puts State.reset.reg [(Reg.fwState, 4)] }
def st76 : State := { onUsb with cas.dist := none, reg := puts State.reset.reg [(Reg.fwState, 6)] }
def st77 : State := { onUsb with cas.dist := none, reg := puts State.reset.reg [(Reg.fwState, 5)] }
def st78 : State := { onUsb with reg := puts State.reset.reg [(Reg.fwCmd, 1)] }

/-- States and operands that meet the hypotheses of each clause of FirmwareIsCommanded. -/
theorem wit_FirmwareIsCommanded :
  (∃ (s : State) (u : State) (src : Src) (tag : Byte), s.lets src tag Reg.fwCmd 1 = some u ∧ s.cas.dist = none ∧ s.rd
    Reg.fwCmd ≠ 1 ∧ s.rd Reg.fwState ∈ [0, 2, 3, 4, 7] ∧ (∀ c ∈ List.range 256, u.sectorProtected src s.inactiveSlot c =
    false)) ∧
  (∃ (s : State) (u : State) (src : Src) (tag : Byte), s.lets src tag Reg.fwCmd 2 = some u ∧ s.cas.dist = none ∧ s.rd
    Reg.fwCmd ≠ 1 ∧ (s.rd Reg.fwState = 2 ∨ s.rd Reg.fwState = 3)) ∧
  (∃ (s : State) (u : State) (src : Src) (tag : Byte), s.lets src tag Reg.fwCmd 3 = some u ∧ s.cas.dist = none ∧ s.rd
    Reg.fwCmd ≠ 1 ∧ s.rd Reg.fwState = 4) ∧
  (∃ (s : State) (u : State) (src : Src) (tag : Byte), s.lets src tag Reg.fwCmd 4 = some u ∧ s.cas.dist = none ∧ s.rd
    Reg.fwCmd ≠ 1 ∧ s.rd Reg.fwState = 6) ∧
  (∃ (s : State) (u : State) (src : Src) (tag : Byte), s.lets src tag Reg.fwCmd 5 = some u ∧ s.cas.dist = none ∧ s.rd
    Reg.fwCmd ≠ 1 ∧ (s.rd Reg.fwState = 2 ∨ s.rd Reg.fwState = 3 ∨ s.rd Reg.fwState = 4)) ∧
  (∃ (s : State) (u : State) (src : Src) (tag : Byte), s.lets src tag Reg.fwCmd 5 = some u ∧ s.cas.dist = none ∧ s.rd
    Reg.fwCmd ≠ 1 ∧ s.rd Reg.fwState = 5) ∧
  (∃ (s : State) (u : State) (src : Src) (tag : Byte), s.lets src tag Reg.fwCmd 3 = some u ∧ s.rd Reg.fwCmd ≠ 1 ∧ s.rd
    Reg.fwState ≠ 4) ∧
  (∃ (s : State) (u : State) (src : Src) (tag : Byte), s.lets src tag Reg.fwCmd 3 = some u ∧ s.rd Reg.fwCmd = 1) :=
  ⟨⟨st73, Option.get (st73.lets (1 : Src) (0 : Byte) Reg.fwCmd 1) (by decide +kernel), 1, 0, (Option.some_get _).symm,
    by decide +kernel⟩,
   ⟨st74, Option.get (st74.lets (1 : Src) (0 : Byte) Reg.fwCmd 2) (by decide +kernel), 1, 0, (Option.some_get _).symm,
    by decide +kernel⟩,
   ⟨st75, Option.get (st75.lets (1 : Src) (0 : Byte) Reg.fwCmd 3) (by decide +kernel), 1, 0, (Option.some_get _).symm,
    by decide +kernel⟩,
   ⟨st76, Option.get (st76.lets (1 : Src) (0 : Byte) Reg.fwCmd 4) (by decide +kernel), 1, 0, (Option.some_get _).symm,
    by decide +kernel⟩,
   ⟨st74, Option.get (st74.lets (1 : Src) (0 : Byte) Reg.fwCmd 5) (by decide +kernel), 1, 0, (Option.some_get _).symm,
    by decide +kernel⟩,
   ⟨st77, Option.get (st77.lets (1 : Src) (0 : Byte) Reg.fwCmd 5) (by decide +kernel), 1, 0, (Option.some_get _).symm,
    by decide +kernel⟩,
   ⟨onUsb, Option.get (onUsb.lets 1 7 Reg.fwCmd 3) (by decide +kernel), 1, 7, (Option.some_get _).symm, by decide +kernel⟩,
   ⟨st78, Option.get (st78.lets 1 7 Reg.fwCmd 3) (by decide +kernel), 1, 7, (Option.some_get _).symm, by decide +kernel⟩⟩

/-- States that meet hypotheses of ReportsLogAndDistributionAreCommanded. -/
def st79 : State := { onUsb with reg := puts State.reset.reg [(Reg.shakeState, 1)] }
def st80 : State :=
  { onUsb with
      cas.dist := none, clk.now := 100000, cas.members := [(1, { hbAt := 100001 })],
      reg := puts State.reset.reg [(Reg.fwState, 3), (Reg.fwRunningSlot, 1), (Reg.fwDistMask, 2)] }
def st81 : State :=
  { onUsb with cas.dist := none, reg := puts State.reset.reg [(Reg.fwState, 3), (Reg.fwRunningSlot, 1)] }
def st82 : State := { onUsb with cas.dist := some ({ node := 2 } : Dist) }
def st83 : State :=
  { onUsb with log.ring := [(3, .valid { seq := 9 } 0)], log.head := 4, svc.srcs := [(1, { seekSeq := 9 })] }
def st84 : State := { onUsb with rep.kind := 0 }
def st85 : State :=
  { onUsb with rep.kind := 0, reg := puts State.reset.reg [(Reg.linkUp, 1), ((Reg.laneLogical (0 : Lane)), 0)] }
def st86 : State := { onUsb with rep.kind := 1 }

/-- States and operands that meet the hypotheses of each clause of ReportsLogAndDistributionAreCommanded. -/
theorem wit_ReportsLogAndDistributionAreCommanded :
  (∃ (s : State) (u : State) (src : Src) (tag : Byte), s.lets src tag Reg.shakeAbandon 1 = some u ∧ u.unlocked src = true ∧
    1 ≤ s.rd Reg.shakeState ∧ s.rd Reg.shakeState ≤ 4) ∧
  (∃ (s : State) (u : State) (src : Src) (tag : Byte) (k : NodeIx), s.lets src tag Reg.fwDist 1 = some u ∧ u.unlocked src =
    true ∧ s.cas.dist = none ∧ s.phase = .guard ∧ s.rd Reg.fwState = 3 ∧ s.slotValid s.inactiveSlot = true ∧ k.val ≠ 0 ∧
    (s.rd Reg.fwDistMask).testBit k = true ∧ (∀ i ∈ List.range k.val, 0 < i → (s.rd Reg.fwDistMask).testBit i = false) ∧
    s.memberHere k = true) ∧
  (∃ (s : State) (u : State) (src : Src) (tag : Byte), s.lets src tag Reg.fwDist 1 = some u ∧ u.unlocked src = true ∧
    s.cas.dist = none ∧ s.phase = .guard ∧ s.rd Reg.fwState = 3 ∧ s.slotValid s.inactiveSlot = true ∧ (∀ i ∈ List.range 64,
    0 < i → (s.rd Reg.fwDistMask).testBit i = false)) ∧
  (∃ (s : State) (u : State) (src : Src) (tag : Byte) (d : Dist), s.lets src tag Reg.fwDist 2 = some u ∧ u.unlocked src =
    true ∧ s.cas.dist = some d ∧ 1 ≤ d.node ∧ d.node ≤ 64) ∧
  (∃ (s : State) (u : State) (src : Src) (tag : Byte), s.lets src tag Reg.logCmd 1 = some u ∧ u.cursorFree src = true) ∧
  (∃ (s : State) (u : State) (src : Src) (tag : Byte) (n : Nat), s.lets src tag Reg.logCmd 2 = some u ∧ u.cursorFree src =
    true ∧ s.firstSlot ((s.validSlots (fun r => r.kind = 1 && r.seq = (s.srcOf src).seekSeq)).map (·.1)) = some n) ∧
  (∃ (s : State) (u : State) (src : Src) (tag : Byte), s.lets src tag Reg.logCmd 2 = some u ∧ u.cursorFree src = true ∧
    s.validSlots (fun r => r.kind = 1 && r.seq = (s.srcOf src).seekSeq) = []) ∧
  (∃ (s : State) (u : State) (src : Src) (tag : Byte), s.lets src tag Reg.logCmd 3 = some u ∧ u.cursorFree src = true) ∧
  (∃ (s : State) (u : State) (src : Src) (tag : Byte), s.lets src tag Reg.logCmd 4 = some u) ∧
  (∃ (s : State) (u : State) (src : Src) (tag : Byte), s.lets src tag Reg.svcReportCmd 1 = some u ∧ s.rep.kind = 0 ∧ s.taken
    = true) ∧
  (∃ (s : State) (u : State) (src : Src) (tag : Byte), s.lets src tag Reg.svcReportCmd 2 = some u ∧ s.rep.kind = 0 ∧ s.taken
    = true) ∧
  (∃ (s : State) (u : State) (src : Src) (tag : Byte), s.lets src tag Reg.svcReportCmd 3 = some u ∧ s.rep.kind = 0 ∧ s.phase
    = .guard ∧ s.anyOpen = false) ∧
  (∃ (s : State) (u : State) (src : Src) (tag : Byte) (p : Lane), s.lets src tag Reg.svcReportCmd 4 = some u ∧ s.rep.kind =
    0 ∧ s.phase = .guard ∧ s.rd Reg.linkUp = 1 ∧ s.laneIn p = true ∧ s.bitOf Reg.idleHold 10 = false ∧ (∀ q : Lane, s.laneIn
    q = true → s.rd (Reg.eyeCmd q) ≠ 1 ∧ s.lanePoints q ≤ 1024)) ∧
  (∃ (s : State) (u : State) (src : Src) (tag : Byte), s.lets src tag Reg.svcReportCmd 3 = some u ∧ s.rep.kind ≠ 0) :=
  ⟨⟨st79, Option.get (st79.lets (1 : Src) (0 : Byte) Reg.shakeAbandon 1) (by decide +kernel), 1, 0, (Option.some_get _).symm,
    by decide +kernel⟩,
   ⟨st80, Option.get (st80.lets (1 : Src) (0 : Byte) Reg.fwDist 1) (by decide +kernel), 1, 0, 1, (Option.some_get _).symm,
    by decide +kernel⟩,
   ⟨st81, Option.get (st81.lets (1 : Src) (0 : Byte) Reg.fwDist 1) (by decide +kernel), 1, 0, (Option.some_get _).symm,
    by decide +kernel⟩,
   ⟨st82, Option.get (st82.lets (1 : Src) (0 : Byte) Reg.fwDist 2) (by decide +kernel), 1, 0, { node := 2 },
    (Option.some_get _).symm, by decide +kernel⟩,
   ⟨onUsb, Option.get (onUsb.lets (1 : Src) (0 : Byte) Reg.logCmd 1) (by decide +kernel), 1, 0, (Option.some_get _).symm,
    by decide +kernel⟩,
   ⟨st83, Option.get (st83.lets (1 : Src) (0 : Byte) Reg.logCmd 2) (by decide +kernel), 1, 0, 3, (Option.some_get _).symm,
    by decide +kernel⟩,
   ⟨onUsb, Option.get (onUsb.lets (1 : Src) (0 : Byte) Reg.logCmd 2) (by decide +kernel), 1, 0, (Option.some_get _).symm,
    by decide +kernel⟩,
   ⟨onUsb, Option.get (onUsb.lets (1 : Src) (0 : Byte) Reg.logCmd 3) (by decide +kernel), 1, 0, (Option.some_get _).symm,
    by decide +kernel⟩,
   ⟨onUsb, Option.get (onUsb.lets (1 : Src) (0 : Byte) Reg.logCmd 4) (by decide +kernel), 1, 0, (Option.some_get _).symm⟩,
   ⟨st84, Option.get (st84.lets (1 : Src) (0 : Byte) Reg.svcReportCmd 1) (by decide +kernel), 1, 0, (Option.some_get _).symm,
    by decide +kernel⟩,
   ⟨st84, Option.get (st84.lets (1 : Src) (0 : Byte) Reg.svcReportCmd 2) (by decide +kernel), 1, 0, (Option.some_get _).symm,
    by decide +kernel⟩,
   ⟨st84, Option.get (st84.lets (1 : Src) (0 : Byte) Reg.svcReportCmd 3) (by decide +kernel), 1, 0, (Option.some_get _).symm,
    by decide +kernel⟩,
   ⟨st85, Option.get (st85.lets (1 : Src) (0 : Byte) Reg.svcReportCmd 4) (by decide +kernel), 1, 0, 0,
    (Option.some_get _).symm, by decide +kernel⟩,
   ⟨st86, Option.get (st86.lets (1 : Src) (0 : Byte) Reg.svcReportCmd 3) (by decide +kernel), 1, 0, (Option.some_get _).symm,
    by decide +kernel⟩⟩

/-- States and operands that meet the hypotheses of each clause of EveryStepKeepsTheInvariant. -/
theorem wit_EveryStepKeepsTheInvariant :
  (∃ (s t : State), step s = .next t ∧ s.inv = true) ∧
  (∃ (s t : State), step s = .next t) :=
  ⟨⟨State.reset, State.reset, rfl, by decide +kernel⟩,
   ⟨State.reset, State.reset, rfl⟩⟩

/-- States and operands that meet the hypotheses of each clause of StepExecutesTheFrontCommand. -/
theorem wit_StepExecutesTheFrontCommand :
  ∃ (s : State), s.pending = [] :=
  ⟨{ State.reset with pending := [] }, by decide +kernel⟩

/-- States and operands that meet the hypotheses of each clause of EventsAreNumberedAndQueued. -/
theorem wit_EventsAreNumberedAndQueued :
  (∃ (s : State) (code : Nat) (obj : Nat) (detail : Nat) (a : Nat) (b : Nat), s.coldRead = false ∧ atOnceOf code (sevOf code
    detail) detail = false ∧ s.queueTakes (sevOf code detail) = true ∧ s.cas.evTx.length < 32) ∧
  (∃ (s : State) (code : Nat) (obj : Nat) (detail : Nat) (a : Nat) (b : Nat), s.coldRead = false ∧ atOnceOf code (sevOf code
    detail) detail = false ∧ s.queueTakes (sevOf code detail) = false ∧ s.cas.evTx.length < 32) :=
  ⟨⟨State.reset, 0x2005, 0, 0, 0, 0, by decide +kernel⟩,
   ⟨{ State.reset with log.queue := List.replicate 128 {} }, 0x2005, 0, 0, 0, 0, by decide +kernel⟩⟩

/-- States and operands that meet the hypotheses of each clause of SubIndexZeroAndProtected. -/
theorem wit_SubIndexZeroAndProtected :
  (∃ i : Nat, (rowsOf i).isEmpty = false) ∧
  (∃ (s : State) (j i : Nat), (rowsOf i).isEmpty = false) ∧
  (∃ (s : State) (u : State) (r : Req), s.admits Op.read r = some u ∧ reqKey r % 256 = 0 ∧ r.data = []) ∧
  (∃ (s : State) (u : State) (r : Req), s.admits Op.read r = some u ∧ reqKey r = Reg.protectedFlag ∧ r.data = []) :=
  ⟨⟨0x2100, by decide +kernel⟩,
   ⟨State.reset, 1, 0x2100, by decide +kernel⟩,
   ⟨onUsb, Option.get (onUsb.admits Op.read (rq 0x210000)) (by decide +kernel), rq 0x210000, (Option.some_get _).symm,
    by decide +kernel⟩,
   ⟨onUsb, Option.get (onUsb.admits Op.read (rq Reg.protectedFlag)) (by decide +kernel), rq Reg.protectedFlag,
    (Option.some_get _).symm, by decide +kernel⟩⟩

/-- States that meet hypotheses of MembersAreNotTheMaster. -/
def st87 : State := { onUsb with reg := puts State.reset.reg [(Reg.nodeId, 2)] }
def st88 : State := { onUsb with reg := puts State.reset.reg [(Reg.nodeId, 3)] }

/-- States and operands that meet the hypotheses of each clause of MembersAreNotTheMaster. -/
theorem wit_MembersAreNotTheMaster :
  (∃ (s : State) (u : State) (r : Req) (c : Instr) (op : Nat), (c, op) ∈ [(.read r, Op.read), (.readLow r, Op.readLow),
    (.readHigh r, Op.readHigh), (.segReadInit r, Op.segReadInit), (.write r, Op.write), (.flagWrite r, Op.write),
    (.clearIfEqual r, Op.clearIfEqual), (.segWriteInit r, Op.segWriteInit)] ∧ s.intake op r = some u ∧ u.unready op (reqKey
    r) = none ∧ 2 ≤ s.node ∧ 0x5100 ≤ r.index.toNat ∧ r.index.toNat ≤ 0x513F) ∧
  (∃ (s : State) (u : State) (r : Req) (c : Instr) (op : Nat), (c, op) ∈ [(.read r, Op.read), (.readLow r, Op.readLow),
    (.readHigh r, Op.readHigh), (.segReadInit r, Op.segReadInit), (.write r, Op.write), (.flagWrite r, Op.write),
    (.clearIfEqual r, Op.clearIfEqual), (.segWriteInit r, Op.segWriteInit)] ∧ s.intake op r = some u ∧ u.unready op (reqKey
    r) = none ∧ 2 ≤ s.node ∧ (reqKey r = Reg.fwDist ∨ reqKey r = Reg.fwDistMask)) :=
  ⟨⟨st87, Option.get (st87.intake (Op.read : Nat) (rq 0x510001)) (by decide +kernel), rq 0x510001, .read (rq 0x510001),
    Op.read, by decide +kernel, (Option.some_get _).symm, by decide +kernel⟩,
   ⟨st88, Option.get (st88.intake (Op.write : Nat) (rq Reg.fwDistMask [1])) (by decide +kernel), rq Reg.fwDistMask [1],
    .flagWrite (rq Reg.fwDistMask [1]), Op.write, by decide +kernel, (Option.some_get _).symm, by decide +kernel⟩⟩

/-- States and operands that meet the hypotheses of each clause of LongValuesMoveInSegments. -/
theorem wit_LongValuesMoveInSegments :
  (∃ (s : State) (u : State) (r : Req) (w : Row), s.admits Op.read r = some u ∧ rowIn (reqKey r) = some w ∧ u.readBar r.src
    (reqKey r) w = none ∧ r.data = [] ∧ (maxL r.src < tySize w.ty ∨ reqKey r = Reg.winData)) ∧
  (∃ (s : State) (u : State) (r : Req) (w : Row), s.admits Op.write r = some u ∧ rowIn (reqKey r) = some w ∧ u.writeBar
    r.src (reqKey r) w = none ∧ (maxL r.src < tySize w.ty ∨ reqKey r = Reg.winData)) ∧
  (∃ (s : State) (u : State) (r : Req) (w : Row), s.admits Op.segReadInit r = some u ∧ rowIn (reqKey r) = some w ∧ u.readBar
    r.src (reqKey r) w = none ∧ r.data = [] ∧ u.xfersFull r.src = false ∧ reqKey r ≠ Reg.logBatch) ∧
  (∃ (s : State) (u : State) (r : Req) (w : Row), s.admits Op.segWriteInit r = some u ∧ rowIn (reqKey r) = some w ∧
    u.writeBar r.src (reqKey r) w = none ∧ r.data.length = 4 ∧ fitsTotal (reqKey r) w (leValue (reqBytes r)) = true ∧
    u.xfersFull r.src = false) :=
  ⟨⟨onUsb, Option.get (onUsb.admits Op.read (rq Reg.winData)) (by decide +kernel), rq Reg.winData,
    Option.get (rowIn (reqKey (rq Reg.winData))) (by decide +kernel), (Option.some_get _).symm, (Option.some_get _).symm,
    by decide +kernel⟩,
   ⟨onUsb, Option.get (onUsb.admits Op.write (rq Reg.winData [1])) (by decide +kernel), rq Reg.winData [1],
    Option.get (rowIn (reqKey (rq Reg.winData [1]))) (by decide +kernel), (Option.some_get _).symm, (Option.some_get _).symm,
    by decide +kernel⟩,
   ⟨onUsb, Option.get (onUsb.admits Op.segReadInit (rq Reg.winData)) (by decide +kernel), rq Reg.winData,
    Option.get (rowIn (reqKey (rq Reg.winData))) (by decide +kernel), (Option.some_get _).symm, (Option.some_get _).symm,
    by decide +kernel⟩,
   ⟨onUsb, Option.get (onUsb.admits Op.segWriteInit (rq Reg.winData [1, 0, 0, 0])) (by decide +kernel),
    rq Reg.winData [1, 0, 0, 0], Option.get (rowIn (reqKey (rq Reg.winData [1, 0, 0, 0]))) (by decide +kernel),
    (Option.some_get _).symm, (Option.some_get _).symm, by decide +kernel⟩⟩

/-- States that meet hypotheses of ChargeSettingsMeetTheirRules. -/
def st89 : State := { onUsb with reg := puts State.reset.reg [(Reg.cellVmax, 3000)] }
def st90 : State := { onUsb with reg := puts State.reset.reg [(Reg.chgRsense, 100000)] }
def st91 : State :=
  { State.reset with
      sup.usbUp := true, sup.running := true, sup.source := .iso, loaded := true, taken := true, phase := .start,
      reg := puts State.reset.reg [(Reg.chgI, 6000), (Reg.startStep, Step.configHeld), (Reg.idleHold, 0x7F)] }
def st92 : State :=
  { State.reset with
      sup.usbUp := true, sup.running := true, sup.source := .iso, loaded := true, taken := true, phase := .start,
      reg := puts State.reset.reg [(Reg.startStep, Step.configHeld), (Reg.idleHold, 0x7F)] }

/-- States and operands that meet the hypotheses of each clause of ChargeSettingsMeetTheirRules. -/
theorem wit_ChargeSettingsMeetTheirRules :
  (∃ (s : State) (u : State) (r : Req) (w : Row), s.admits Op.write r = some u ∧ reqKey r = Reg.cellTarget ∧ rowIn (reqKey
    r) = some w ∧ u.writeBar r.src (reqKey r) w = none ∧ r.data.length = 2 ∧ 2000 ≤ leValue (reqBytes r) ∧ leValue (reqBytes
    r) ≤ 3000 ∧ leValue (reqBytes r) % 5 ≠ 0) ∧
  (∃ (s : State) (u : State) (r : Req) (w : Row), s.admits Op.write r = some u ∧ reqKey r = Reg.cellTarget ∧ rowIn (reqKey
    r) = some w ∧ u.writeBar r.src (reqKey r) w = none ∧ r.data.length = 2 ∧ 2000 ≤ leValue (reqBytes r) ∧ leValue (reqBytes
    r) ≤ 3000 ∧ leValue (reqBytes r) % 5 = 0 ∧ s.rd Reg.cellVmax < leValue (reqBytes r) + 50) ∧
  (∃ (s : State) (u : State) (r : Req) (v : Nat), s.takes r = some (u, v) ∧ reqKey r = Reg.cellTarget) ∧
  (∃ (s : State) (u : State) (r : Req) (w : Row), s.admits Op.write r = some u ∧ reqKey r = Reg.chgI ∧ rowIn (reqKey r) =
    some w ∧ u.writeBar r.src (reqKey r) w = none ∧ valueFault (reqKey r) w (reqBytes r) = none ∧ 100000000 < leValue
    (reqBytes r) * s.rd Reg.chgRsense) ∧
  (∃ (s : State) (u : State) (r : Req) (w : Row), s.admits Op.write r = some u ∧ reqKey r = Reg.chgRsense ∧ rowIn (reqKey r)
    = some w ∧ u.writeBar r.src (reqKey r) w = none ∧ valueFault (reqKey r) w (reqBytes r) = none ∧ 100000000 < s.rd
    Reg.chgI * leValue (reqBytes r)) ∧
  (∃ (s : State) (u : State) (r : Req) (v : Nat), s.takes r = some (u, v) ∧ reqKey r = Reg.chgI) ∧
  (∃ (s : State) (u : State) (r : Req) (v : Nat), s.takes r = some (u, v) ∧ reqKey r = Reg.chgRsense) :=
  ⟨⟨onUsb, Option.get (onUsb.admits Op.write (rq Reg.cellTarget (leBytes 2 2501) 0 1)) (by decide +kernel),
    rq Reg.cellTarget (leBytes 2 2501) 0 1,
    Option.get (rowIn (reqKey (rq Reg.cellTarget (leBytes 2 2501) 0 1))) (by decide +kernel), (Option.some_get _).symm,
    by decide +kernel, (Option.some_get _).symm, by decide +kernel⟩,
   ⟨st89, Option.get (st89.admits Op.write (rq Reg.cellTarget (leBytes 2 3000) 0 1)) (by decide +kernel),
    rq Reg.cellTarget (leBytes 2 3000) 0 1,
    Option.get (rowIn (reqKey (rq Reg.cellTarget (leBytes 2 3000) 0 1))) (by decide +kernel), (Option.some_get _).symm,
    by decide +kernel, (Option.some_get _).symm, by decide +kernel⟩,
   ⟨onUsb, (Option.get (onUsb.takes (rq Reg.cellTarget (leBytes 2 2600) 0 1)) (by decide +kernel)).1,
    rq Reg.cellTarget (leBytes 2 2600) 0 1,
    (Option.get (onUsb.takes (rq Reg.cellTarget (leBytes 2 2600) 0 1)) (by decide +kernel)).2, getPair _ _,
    by decide +kernel⟩,
   ⟨st90, Option.get (st90.admits Op.write (rq Reg.chgI (leBytes 2 6000) 0 1)) (by decide +kernel),
    rq Reg.chgI (leBytes 2 6000) 0 1, Option.get (rowIn (reqKey (rq Reg.chgI (leBytes 2 6000) 0 1))) (by decide +kernel),
    (Option.some_get _).symm, by decide +kernel, (Option.some_get _).symm, by decide +kernel⟩,
   ⟨st91, Option.get (st91.admits Op.write (rq Reg.chgRsense (leBytes 4 100000) 0 1)) (by decide +kernel),
    rq Reg.chgRsense (leBytes 4 100000) 0 1,
    Option.get (rowIn (reqKey (rq Reg.chgRsense (leBytes 4 100000) 0 1))) (by decide +kernel), (Option.some_get _).symm,
    by decide +kernel, (Option.some_get _).symm, by decide +kernel⟩,
   ⟨onUsb, (Option.get (onUsb.takes (rq Reg.chgI (leBytes 2 1000) 0 1)) (by decide +kernel)).1,
    rq Reg.chgI (leBytes 2 1000) 0 1, (Option.get (onUsb.takes (rq Reg.chgI (leBytes 2 1000) 0 1)) (by decide +kernel)).2,
    getPair _ _, by decide +kernel⟩,
   ⟨st92, (Option.get (st92.takes (rq Reg.chgRsense (leBytes 4 10000) 0 1)) (by decide +kernel)).1,
    rq Reg.chgRsense (leBytes 4 10000) 0 1,
    (Option.get (st92.takes (rq Reg.chgRsense (leBytes 4 10000) 0 1)) (by decide +kernel)).2, getPair _ _, by decide +kernel⟩⟩

/-- States that meet hypotheses of HalfReadsUseShadows. -/
def st93 : State :=
  { onUsb with
      clk.now := 200000,
      svc.srcs := [(1, { known := true, tokens := 4, shadows := [{ key := 1, high := 1, expiry := 300000 }, { key := 2, high := 2, expiry := 300000 }, { key := 3, high := 3, expiry := 300000 }, { key := 4, high := 3, expiry := 300000 }, { key := Reg.stampNow, high := 7, expiry := 300000 }] })] }
def st94 : State :=
  { onUsb with
      clk.now := 200000,
      svc.srcs := [(1, { known := true, tokens := 4, shadows := [{ key := Reg.stampNow, high := 7, expiry := 300000 }] })] }
def st95 : State :=
  { onUsb with
      clk.now := 200000,
      svc.srcs := [(1, { known := true, tokens := 4, shadows := [{ key := Reg.stampNow, high := 7, expiry := 200000 }] })] }

/-- States and operands that meet the hypotheses of each clause of HalfReadsUseShadows. -/
theorem wit_HalfReadsUseShadows :
  (∃ (s : State) (u : State) (r : Req) (w : Row) (live : List Shadow), s.admits Op.readLow r = some u ∧ rowIn (reqKey r) =
    some w ∧ u.readBar r.src (reqKey r) w = none ∧ r.data = [] ∧ halves w = true ∧ live = (s.srcOf r.src).shadows.filter
    (fun h => h.key ≠ reqKey r && s.tick < h.expiry)) ∧
  (∃ (s : State) (u : State) (r : Req) (w : Row) (h : Shadow), s.admits Op.readHigh r = some u ∧ rowIn (reqKey r) = some w ∧
    u.readBar r.src (reqKey r) w = none ∧ r.data = [] ∧ halves w = true ∧ (s.srcOf r.src).shadows.find? (fun h => h.key =
    reqKey r && s.tick < h.expiry) = some h) ∧
  (∃ (s : State) (u : State) (r : Req) (w : Row), s.admits Op.readHigh r = some u ∧ rowIn (reqKey r) = some w ∧ u.readBar
    r.src (reqKey r) w = none ∧ r.data = [] ∧ halves w = true ∧ (∀ h ∈ (s.srcOf r.src).shadows, h.key = reqKey r → h.expiry
    ≤ s.tick)) ∧
  (∃ (s : State) (u : State) (r : Req) (w : Row), s.admits Op.readLow r = some u ∧ rowIn (reqKey r) = some w ∧ u.readBar
    r.src (reqKey r) w = none ∧ r.data = [] ∧ halves w = false) ∧
  (∃ (s : State) (u : State) (r : Req) (w : Row), s.admits Op.readHigh r = some u ∧ rowIn (reqKey r) = some w ∧ u.readBar
    r.src (reqKey r) w = none ∧ r.data = [] ∧ halves w = false) ∧
  (∃ (s : State) (u : State) (r : Req) (w : Row), s.admits Op.read r = some u ∧ rowIn (reqKey r) = some w ∧ u.readBar r.src
    (reqKey r) w = none ∧ r.data = [] ∧ halves w = true) :=
  ⟨⟨st93, Option.get (st93.admits Op.readLow (rq Reg.stampNow)) (by decide +kernel), rq Reg.stampNow,
    Option.get (rowIn (reqKey (rq Reg.stampNow))) (by decide +kernel),
    (st93.srcOf (rq Reg.stampNow).src).shadows.filter (fun h => h.key ≠ reqKey (rq Reg.stampNow) && st93.tick < h.expiry),
    (Option.some_get _).symm, (Option.some_get _).symm, by decide +kernel, by decide +kernel, by decide +kernel, rfl⟩,
   ⟨st94, Option.get (st94.admits Op.readHigh (rq Reg.stampNow)) (by decide +kernel), rq Reg.stampNow,
    Option.get (rowIn (reqKey (rq Reg.stampNow))) (by decide +kernel), { key := Reg.stampNow, high := 7, expiry := 300000 },
    (Option.some_get _).symm, (Option.some_get _).symm, by decide +kernel⟩,
   ⟨st95, Option.get (st95.admits Op.readHigh (rq Reg.stampNow)) (by decide +kernel), rq Reg.stampNow,
    Option.get (rowIn (reqKey (rq Reg.stampNow))) (by decide +kernel), (Option.some_get _).symm, (Option.some_get _).symm,
    by decide +kernel⟩,
   ⟨onUsb, Option.get (onUsb.admits Op.readLow (rq Reg.nodeId)) (by decide +kernel), rq Reg.nodeId,
    Option.get (rowIn (reqKey (rq Reg.nodeId))) (by decide +kernel), (Option.some_get _).symm, (Option.some_get _).symm,
    by decide +kernel⟩,
   ⟨onUsb, Option.get (onUsb.admits Op.readHigh (rq Reg.nodeId)) (by decide +kernel), rq Reg.nodeId,
    Option.get (rowIn (reqKey (rq Reg.nodeId))) (by decide +kernel), (Option.some_get _).symm, (Option.some_get _).symm,
    by decide +kernel⟩,
   ⟨onUsb, Option.get (onUsb.admits Op.read (rq Reg.stampNow)) (by decide +kernel), rq Reg.stampNow,
    Option.get (rowIn (reqKey (rq Reg.stampNow))) (by decide +kernel), (Option.some_get _).symm, (Option.some_get _).symm,
    by decide +kernel⟩⟩

/-- States that meet hypotheses of ClearIfEqualComparesFirst. -/
def st96 : State := { onUsb with reg := puts State.reset.reg [(Reg.evFlags, 7)] }

/-- States and operands that meet the hypotheses of each clause of ClearIfEqualComparesFirst. -/
theorem wit_ClearIfEqualComparesFirst :
  (∃ (s : State) (u : State) (r : Req) (w : Row), s.admits Op.clearIfEqual r = some u ∧ rowIn (reqKey r) = some w ∧ w.flag =
    true ∧ u.writeBar r.src (reqKey r) w = none ∧ r.data.length = 4 ∧ leValue (reqBytes r) = s.rd (reqKey r)) ∧
  (∃ (s : State) (u : State) (r : Req) (w : Row), s.admits Op.clearIfEqual r = some u ∧ rowIn (reqKey r) = some w ∧ w.flag =
    true ∧ u.writeBar r.src (reqKey r) w = none ∧ r.data.length = 4 ∧ leValue (reqBytes r) ≠ s.rd (reqKey r)) ∧
  (∃ (s : State) (u : State) (r : Req) (w : Row), s.admits Op.clearIfEqual r = some u ∧ rowIn (reqKey r) = some w ∧ w.flag =
    false) :=
  ⟨⟨st96, Option.get (st96.admits Op.clearIfEqual (rq Reg.evFlags [7, 0, 0, 0])) (by decide +kernel),
    rq Reg.evFlags [7, 0, 0, 0], Option.get (rowIn (reqKey (rq Reg.evFlags [7, 0, 0, 0]))) (by decide +kernel),
    (Option.some_get _).symm, (Option.some_get _).symm, by decide +kernel⟩,
   ⟨st96, Option.get (st96.admits Op.clearIfEqual (rq Reg.evFlags [6, 0, 0, 0])) (by decide +kernel),
    rq Reg.evFlags [6, 0, 0, 0], Option.get (rowIn (reqKey (rq Reg.evFlags [6, 0, 0, 0]))) (by decide +kernel),
    (Option.some_get _).symm, (Option.some_get _).symm, by decide +kernel⟩,
   ⟨onUsb, Option.get (onUsb.admits Op.clearIfEqual (rq Reg.winAddr [6, 0, 0, 0])) (by decide +kernel),
    rq Reg.winAddr [6, 0, 0, 0], Option.get (rowIn (reqKey (rq Reg.winAddr [6, 0, 0, 0]))) (by decide +kernel),
    (Option.some_get _).symm, (Option.some_get _).symm, by decide +kernel⟩⟩

/-! ### One step of a command -/

/-- The state a command leads to. -/
def after (c : Instr) (s : State) : State :=
  match exec c s with
  | .next t => t
  | _ => s

/-- A running module in guard, reached over USB. -/
def live : State :=
  { State.reset with
    sup.running := true, sup.main := true, sup.usbUp := true, sup.source := .iso, loaded := true, taken := true, phase := .guard }

/-- Of the answer that stands: its status and data. -/
def answered (s : State) : Option (Nat × List Nat) := s.svc.answer.map (fun a => (a.status, a.data))

/-- The value CRC-32 and CRC-16 of the nine digits have by their published check values. -/
theorem test_crc32_check : crc32 [0x31, 0x32, 0x33, 0x34, 0x35, 0x36, 0x37, 0x38, 0x39] = 0xCBF43926 := by decide +kernel
theorem test_crc16_check : crc16 [0x31, 0x32, 0x33, 0x34, 0x35, 0x36, 0x37, 0x38, 0x39] = 0x29B1 := by decide +kernel

/-- SHA-256 of "abc" (FIPS 180-4, appendix). -/
theorem test_sha256_abc : (sha256 [0x61, 0x62, 0x63]).take 4 = [0xBA, 0x78, 0x16, 0xBF] := by decide +kernel

/-- The table gives no row bits: no word spells a command. -/
theorem test_no_word_spells : decodeTableWord 16 5 = none := by decide

/-- An empty queue idles; a command leaves the queue. -/
theorem test_step_idle : step State.reset = .next State.reset := rfl
theorem test_step_takes :
    (match step { live with pending := [.lockLeft] } with | .next t => t.pending.length | _ => 9) = 0 := by decide +kernel

/-- TICK: 3.10 V on VISO brings the integrated supply into its window (Table EL-3); at 3.05 V it is not reached. -/
theorem test_tick_viso : (after (.tick { viso := 3100 }) { State.reset with sup.main := true }).sup.iso = true := by decide +kernel
theorem test_tick_viso_low : (after (.tick { viso := 3050 }) { State.reset with sup.main := true }).sup.iso = false := by
  decide +kernel

/-- CYCLE_START: the count of cycles wraps at 2^32 (R11). -/
theorem test_cycle_wraps :
    (after .cycleStart { live with
      clk := { begun := true, synced := true, tic := 1023, count := 0xFFFFFFFF, cyc := 7 } }).clk.count = 0 := by decide +kernel

/-- ZERO_CROSSING: 20 000 µs is 50 Hz, 51 200 in 1/1024 Hz; a crossing is accepted from the eighth tick on the new side (R135). -/
def crossing (run : Nat) : State :=
  after (.zeroCrossing 20000 20000 20000 0) { live with
    trk.sidePos := true, trk.sideRun := run, hv := puts [] [(Reg.mainsSense, 1), (Reg.tbState, Tb.locked)] }
theorem test_zero_crossing : (crossing 8).hrd Reg.freqMeas = 51200 := by decide +kernel
theorem test_zero_crossing_early : (crossing 7).hrd Reg.freqMeas = 0 := by decide +kernel

/-- WAKE_STAGE_START at 16.0 V and just below it (R116). -/
theorem test_wake_at : (after .wakeStageStart { State.reset with smp.feedA := 16000 }).sup.wake = true := by decide +kernel
theorem test_wake_below : (after .wakeStageStart { State.reset with smp.feedA := 15999 }).sup.wake = false := by decide +kernel

/-- MAIN_SUPPLY_START at 9.0 V (R117). -/
theorem test_main_at : (after .mainSupplyStart { State.reset with smp.vbusIn := 9000 }).sup.main = true := by decide +kernel
theorem test_main_below : (after .mainSupplyStart { State.reset with smp.vbusIn := 8999 }).sup.main = false := by decide +kernel

/-- FAST_TRIP latches the feed with cause 1 (R181, R185). -/
theorem test_fast_trip :
    (after (.fastTrip 1 200000) { live with hv := puts [] [(Reg.feedState 0, Fs.on), (Reg.feedState 1, Fs.on)] }).hrd
      (Reg.tripCause 1) = 1 := by decide +kernel
theorem test_fast_trip_other_feed :
    (after (.fastTrip 1 200000) { live with hv := puts [] [(Reg.feedState 0, Fs.on), (Reg.feedState 1, Fs.on)] }).feedSt 0 = Fs.on := by
  decide +kernel

/-- HOLDUP_TRIP below every breakpoint trips nothing (R233). -/
theorem test_holdup_no_trip :
    (after (.holdupTrip 1 1) { live with hv := puts [] [(Reg.huState, Hs.armed)] }).hu = Hs.armed := by decide +kernel

/-- OEM_UNLOCK: the wrong password takes an attempt, the right one unlocks the writing source alone (R63, R64). -/
def locked : State := { live with fw.record := some { password := 0x1122334455667788 } }
theorem test_unlock_wrong : (after (.oemUnlock 1 7 5) locked).svc.attempts = 7 := by decide +kernel
theorem test_unlock_right :
    ((after (.oemUnlock 1 7 0x1122334455667788) locked).unlocked 1, (after (.oemUnlock 1 7 0x1122334455667788) locked).unlocked 5) =
      (true, false) := by decide +kernel

/-- READ of NODE_ID; of an index that is in no range (R47); a WRITE of it, which is RO (R50). -/
theorem test_read : answered (after (.read (rq Reg.nodeId)) { live with reg := puts [] [(Reg.nodeId, 7)] }) = some (0, [7]) := by
  decide +kernel
theorem test_read_absent : answered (after (.read (rq 0x123400)) live) = some (1, leBytes 4 0x02010000) := by decide +kernel
theorem test_write_ro : answered (after (.write (rq Reg.nodeId [1])) live) = some (1, leBytes 4 0x02040000) := by decide +kernel

/-- CELL_TARGET: 2502 mV is no multiple of 5 (R205); 3001 mV is beyond the range. -/
theorem test_target_step :
    answered (after (.write (rq Reg.cellTarget (leBytes 2 2502))) live) = some (1, leBytes 4 0x03080000) := by decide +kernel
theorem test_target_range :
    answered (after (.write (rq Reg.cellTarget (leBytes 2 3005))) live) = some (1, leBytes 4 0x03020000) := by decide +kernel

/-- FLAG_WRITE clears the bits written as 1; CLEAR_IF_EQUAL clears nothing where the value differs (R69, R70). -/
def flagged : State := { live with reg := puts [] [(Reg.evFlags, 7)] }
theorem test_flag_write : (after (.flagWrite (rq Reg.evFlags [5, 0])) flagged).rd Reg.evFlags = 2 := by decide +kernel
theorem test_clear_if_equal :
    (after (.clearIfEqual (rq Reg.evFlags [5, 0, 0, 0])) flagged).rd Reg.evFlags = 7 := by decide +kernel

/-- READ_LOW and READ_HIGH of STAMP_NOW: the high half comes from the shadow of the same read (R61). -/
theorem test_half_reads :
    (answered (after (.readHigh (rq Reg.stampNow))
      { after (.readLow (rq Reg.stampNow)) { live with clk.count := 0x12345678 } with clk.count := 0x22220000 })) =
      some (0x10, [0x34, 0x12, 0, 0]) := by decide +kernel

/-- POUR_PULSE_END and LOCK_LEFT out of season change nothing (log entry 8). -/
theorem test_out_of_season : after .lockLeft State.reset = State.reset := by decide +kernel

/-! ### What WellFormed refuses -/

theorem test_wf_request : Instr.wf (.read (rq 0 (List.replicate 1025 0))) = false := by decide +kernel
theorem test_wf_sample : Instr.wf (.tick { vs := [1, 2, 3] }) = false := by decide
theorem test_wf_can : Instr.wf (.heartbeatRx 1 (List.replicate 65 0)) = false := by decide
theorem test_wf_taps : Instr.wf (.tapScan (List.replicate 14 0) 0 0 0) = false := by decide
theorem test_wf_esr_pulse : Instr.wf (.esrPulse [] (List.replicate 14 0) 0 0 0) = false := by decide
theorem test_wf_tap_response : Instr.wf (.tapResponseTest (List.replicate 14 0) 0) = false := by decide
theorem test_wf_usb_frame : Instr.wf (.usbFrameRx []) = false := by decide
theorem test_wf_classical_can : Instr.wf (.canRequestRx 65 false (List.replicate 9 0)) = false := by decide
theorem test_wf_training_set : Instr.wf (.trainingSetRx 0 [] {}) = false := by decide
theorem test_wf_eq_done : Instr.wf (.eqDone [] [[1]]) = false := by decide
theorem test_wf_confirm_complete : Instr.wf (.confirmComplete [1, 2, 3, 4, 5] 0) = false := by decide

end Sys2Proof.Tests
end

section
/-! PROOF. Every step keeps the invariant and takes exactly one command off the queue. One lemma per command, put together of
the lemmas of Laws/ about the operations it calls, in the order in which it calls them; then the step. -/
namespace Sys2Proof.Machine
open State

/-! ### What the arms are put together of -/

/-- The shape of most commands: one whose condition does not hold changes nothing (log entry 8). -/
theorem KeepsX.when {s t u : State} {c : Prop} [Decidable c] (hu : Keeps s u) (h : Keeps s t) :
    KeepsX s (if c then .next u else .next t) :=
  .ite (.next hu) (.next h)

/-- Both ticks lie within their cycle (R8, R143). -/
theorem ticsOk_iff {s : State} : s.ticsOk = true ↔ s.clk.tic < 1024 ∧ s.clk.hvTic < 1024 := by
  simp only [State.ticsOk, Bool.and_eq_true, decide_eq_true_eq]

theorem Clock.slewOne_tic_lt {c : Clock} (hc : c.tic < 1024) : c.slewOne.tic < 1024 := by
  unfold Clock.slewOne
  split
  · exact hc
  · dsimp only
    split
    · exact hc
    · split
      · exact Nat.mod_lt _ (Nat.zero_lt_succ 1023)
      · exact Nat.mod_lt _ (Nat.zero_lt_succ 1023)

theorem Clock.slewOne_hvTic (c : Clock) : c.slewOne.hvTic = c.hvTic := by
  unfold Clock.slewOne
  split <;> rfl

/-- A B0 pulse leaves the follower's tick within its cycle (R141). -/
theorem Clock.takePulse_tic_lt {c : Clock} (double aligned : Bool) (hc : c.tic < 1024) :
    (c.takePulse double aligned).tic < 1024 := by
  unfold Clock.takePulse
  extract_lets d
  have hd : d.tic < 1024 := hc
  split
  · split
    · exact Nat.zero_lt_succ 1023
    · exact hd
  · split
    · exact Clock.slewOne_tic_lt hd
    · split
      · exact Nat.lt_succ_self 1023
      · exact hd

theorem Clock.takePulse_hvTic (c : Clock) (double aligned : Bool) : (c.takePulse double aligned).hvTic = c.hvTic := by
  unfold Clock.takePulse
  extract_lets d
  split
  · split <;> rfl
  · split
    · exact Clock.slewOne_hvTic d
    · split <;> rfl

section
variable {s t : State} (h : Keeps s t)
include h

/-! ### Time: the tick, 0 au, the follower (spec/05_mains_angle.md) -/

theorem execTick_keeps (x) : KeepsX s (execTick x t) :=
  .next (h |> keeps_mk.2 |> tickClock_keeps |> tickSupply_keeps |> tickBarrier_keeps |> tickHvReadings_keeps
    |> tickTracker_keeps |> tickFeeds_keeps |> tickLadle_keeps |> tickHoldup_keeps |> tickPads_keeps
    |> tickLogic_keeps)

theorem execCycleStart_keeps : KeepsX s (execCycleStart t) :=
  .when (h |> keeps_mk.2 |> nextCycle_keeps |> applyStep_keeps |> refillAll_keeps |> cycleStart_keeps
    |> cycleStatus_keeps) h

theorem execAdmissionOpen_keeps : KeepsX s (execAdmissionOpen t) :=
  .when (h |> wr_keeps _ _ |> event_keeps _ _ _ _ _ |> statusIfChanged_keeps) h

theorem execZeroCrossing_keeps (us ampPos ampNeg err) : KeepsX s (execZeroCrossing us ampPos ampNeg err t) := by
  unfold execZeroCrossing
  refine .ite (.next h) ?_
  extract_lets q amps good u v out w _ w' n _ x
  have hv : Keeps s v := h |> hwr_keeps _ _ |> keeps_mk.2
  have hw : Keeps s w := .ite (hv |> told_keeps _) hv
  have hx : Keeps s x := hw |> keeps_mk.2 |> keeps_mk.2
  exact .ite (.ite (.next hx) (.next (hx |> enterTb_keeps _ |> hwr_keeps _ _ |> hwrI_keeps _ _ |> keeps_mk.2)))
    (.ite (.next (hv |> hwr_keeps _ _ |> hwrI_keeps _ _ |> keeps_mk.2)) (.next hv))

theorem execQualificationFail_keeps : KeepsX s (execQualificationFail t) :=
  .when (h |> enterTb_keeps _) h

theorem execLockAcquired_keeps : KeepsX s (execLockAcquired t) :=
  .when (h |> enterTb_keeps _ |> told_keeps _) h

theorem execLockLeft_keeps : KeepsX s (execLockLeft t) :=
  .when (h |> enterTb_keeps _ |> told_keeps _) h

theorem execMainsLossDeclared_keeps : KeepsX s (execMainsLossDeclared t) :=
  .when (h |> enterTb_keeps _ |> told_keeps _ |> b2Trigger_keeps _) h

theorem execSeekLimitExpiry_keeps : KeepsX s (execSeekLimitExpiry t) := by
  unfold execSeekLimitExpiry
  split
  · exact .when (h |> keeps_mk.2 |> told_keeps _) h
  · exact .next h

theorem execB0Pulse_keeps (double) : KeepsX s (execB0Pulse double t) := by
  refine .ite (.next h) (.next (h.clk rfl rfl rfl fun ht => ?_))
  obtain ⟨htic, hhv⟩ := ticsOk_iff.1 ht
  exact ticsOk_iff.2 ⟨Clock.takePulse_tic_lt _ _ htic,
    Nat.lt_of_le_of_lt (Nat.le_of_eq (Clock.takePulse_hvTic ..)) hhv⟩

theorem execFollowerFree_keeps : KeepsX s (execFollowerFree t) :=
  .when (h.clk rfl rfl rfl id |> wr_keeps _ _ |> flag_keeps _ _ |> event_keeps _ _ _ _ _) h

theorem execFollowerAligned_keeps : KeepsX s (execFollowerAligned t) :=
  .when (h.clk rfl rfl rfl id |> wr_keeps _ _ |> event_keeps _ _ _ _ _) h

/-! ### Supplies, the barrier, resets (spec/01_architecture.md, spec/04_electrical.md) -/

theorem execStatusFrameRx_keeps (crcOk) : KeepsX s (execStatusFrameRx crcOk t) :=
  .ite (.next h) (.ite (.next (h |> takeStatus_keeps)) (.next (h |> keeps_mk.2 |> bump_keeps _)))

theorem execStatusStreamLost_keeps : KeepsX s (execStatusStreamLost t) :=
  .when (h |> keeps_mk.2 |> bump_keeps _ |> event_keeps _ _ _ _ _ |> refreshBarrier_keeps) h

theorem execHeartbeatArm_keeps : KeepsX s (execHeartbeatArm t) :=
  .when (h |> keeps_mk.2) h

theorem execHeartbeatLost_keeps : KeepsX s (execHeartbeatLost t) :=
  .when (h |> keeps_mk.2 |> hwr_keeps _ _) h

theorem execHeartbeatReturn_keeps : KeepsX s (execHeartbeatReturn t) :=
  .when (h |> keeps_mk.2 |> hwr_keeps _ _) h

theorem execHwWatchdogExpiry_keeps : KeepsX s (execHwWatchdogExpiry t) :=
  .when (h |> resetLogic_keeps _ _ _) h

theorem execBarrierReset_keeps : KeepsX s (execBarrierReset t) :=
  .when (h |> warmReset_keeps _ _) h

theorem execBusyBankFault_keeps (bank) : KeepsX s (execBusyBankFault bank t) :=
  .when (h |> bump_keeps _ |> event_keeps _ _ _ _ _ |> warmReset_keeps _ _) h

theorem execCommandFrameRx_keeps (crcOk seq) : KeepsX s (execCommandFrameRx crcOk seq t) := by
  unfold execCommandFrameRx
  refine .ite (.next h) (.ite (.next (keeps_mk.2 h)) ?_)
  split
  · exact .next (h |> keeps_mk.2)
  · exact .next (h |> applyFrame_keeps _)

theorem execCommandResend_keeps : KeepsX s (execCommandResend t) :=
  .ite (.next h) (.next (h |> iff_keeps _ _ (fun _ hu => hu |> losePath_keeps) |> keeps_mk.2 |> bumpBy_keeps _ _))

theorem execSourceSwitch_keeps : KeepsX s (execSourceSwitch t) :=
  .when (h |> keeps_mk.2 |> bump_keeps _ |> iff_keeps _ _ (fun _ hu => hu |> event_keeps _ _ _ _ _)) h

theorem execPowerOnReset_keeps : KeepsX s (execPowerOnReset t) :=
  .when (h |> powerReset_keeps _) h

theorem execLogicSupplyLoss_keeps : KeepsX s (execLogicSupplyLoss t) :=
  .when (h |> powerReset_keeps _) h

theorem execUsbAttach_keeps : KeepsX s (execUsbAttach t) :=
  .when (h |> keeps_mk.2) h

theorem execUsbDetach_keeps : KeepsX s (execUsbDetach t) :=
  .when (h |> keeps_mk.2 |> setSrc_keeps _ _) h

theorem execWakeStageStart_keeps : KeepsX s (execWakeStageStart t) :=
  .when (h |> keeps_mk.2) h

theorem execWakeStageStop_keeps : KeepsX s (execWakeStageStop t) :=
  .when (h |> keeps_mk.2 |> feedsDead_keeps) h

theorem execMainSupplyStart_keeps : KeepsX s (execMainSupplyStart t) := by
  have hf : Keeps s { t with hv := t.hv.filter wakeHolds } := h.regs rfl id (regTableOk_filter _) rfl
  refine .ite (.next (hf.clk rfl rfl rfl (fun ht => ?_) |> hwr_keeps _ _)) (.next h)
  exact ticsOk_iff.2 ⟨(ticsOk_iff.1 ht).1, Nat.zero_lt_succ 1023⟩

theorem execMainSupplyStop_keeps : KeepsX s (execMainSupplyStop t) := by
  unfold execMainSupplyStop
  refine .ite ?_ (.next h)
  extract_lets _ u v
  have hf : Keeps s { t with hv := t.hv.filter wakeHolds } := h.regs rfl id (regTableOk_filter _) rfl
  have hv : Keeps s v := hf.upd rfl rfl rfl rfl |> feedsDead_keeps |> wr_keeps _ _ |> wr_keeps _ _
    |> huUnpowered_keeps
  exact .next (.ite (hv |> wr_keeps _ _) hv)

theorem execVisoReduced_keeps : KeepsX s (execVisoReduced t) :=
  .when (h |> keeps_mk.2 |> told_keeps _) h

theorem execVisoCurrentLimit_keeps : KeepsX s (execVisoCurrentLimit t) :=
  .when (h |> iff_keeps _ _ (fun _ hu => hu |> bump_keeps _ |> flag_keeps _ _ |> event_keeps _ _ _ _ _)) h

theorem execLogicBoot_keeps (straps tmode) : KeepsX s (execLogicBoot straps tmode t) :=
  .when (h |> boot_keeps _ _) h

/-! ### Start and pads (spec/06_start_up.md, spec/03_package_and_pads.md) -/

theorem execPowerWakeDone_keeps : KeepsX s (execPowerWakeDone t) :=
  .when (h |> wr_keeps _ _) h

theorem execConfigLoad_keeps : KeepsX s (execConfigLoad t) := by
  have hu : Keeps s { t.loadConfig with loaded := true }.eraseAhead := h |> loadConfig_keeps |> keeps_mk.2
    |> eraseAhead_keeps
  exact .when (.ite (hu |> wr_keeps _ _) (hu |> takeover_keeps)) h

theorem execPowerSideReapply_keeps : KeepsX s (execPowerSideReapply t) :=
  .when (h |> sendShare_keeps) h

theorem execChargePermit_keeps : KeepsX s (execChargePermit t) :=
  .when (h |> iff_keeps _ _ (fun _ hu => hu |> flag_keeps _ _) |> permitCharge_keeps) h

theorem execGuardBegin_keeps : KeepsX s (execGuardBegin t) :=
  .when (h |> beginGuard_keeps) h

theorem execPadLimit_keeps (p) : KeepsX s (execPadLimit p t) :=
  .when (h |> keeps_mk.2 |> setRun_keeps _ _ |> iff_keeps _ _ (fun _ hu => hu |> flag_keeps _ _
    |> bumpSat_keeps _ _ |> padEvent_keeps _ _)) h

theorem execPadNormal_keeps (p) : KeepsX s (execPadNormal p t) :=
  .when (h |> padToNormal_keeps _) h

theorem execPadOff_keeps (p) : KeepsX s (execPadOff p t) :=
  .when (h |> keeps_mk.2 |> padEvent_keeps _ _) h

/-! ### Feeds (spec/07_feeds_and_efuse.md) -/

theorem execSeatQualify_keeps (f) : KeepsX s (execSeatQualify f t) := by
  unfold execSeatQualify
  extract_lets f u x v w z
  have hv : Keeps s v := h |> hwr_keeps _ _ |> setFeedX_keeps _ _
  have hw : Keeps s w := .ite (hv |> hwr_keeps _ _ |> refreshWait_keeps) hv
  have hz : Keeps s z := hw |> setFeed_keeps _ _
  refine .ite (.ite (.next (hw |> findDamage_keeps _ |> restExit_keeps _))
    (.ite (.next (hw |> restExit_keeps _)) (.next ?_))) (.next h)
  exact Keeps.ite (hz |> setFeed_keeps _ _) hz |> restExit_keeps _

theorem execSeatRelease_keeps (f) : KeepsX s (execSeatRelease f t) := by
  unfold execSeatRelease
  extract_lets f u _ v _ w p trig x
  have hu : Keeps s u := h |> hwr_keeps _ _
  have hv : Keeps s v := .ite (hu |> keeps_mk.2) hu
  have hw : Keeps s w := .ite hv (hv |> setFeedX_keeps _ _ |> setFeed_keeps _ _)
  exact .when (hw |> told_keeps _ |> iff_keeps _ _ (fun _ hx => hx |> b2Trigger_keeps _)) h

theorem execSoftStartBegin_keeps (f) : KeepsX s (execSoftStartBegin f t) :=
  .when (h |> beginSs_keeps _) h

theorem execSoftStartDone_keeps (f) : KeepsX s (execSoftStartDone f t) :=
  .when (h |> setFeed_keeps _ _) h

theorem execSoftStartTimeout_keeps (f) : KeepsX s (execSoftStartTimeout f t) :=
  .when (h |> tripFeed_keeps _ _ _) h

theorem execFastTrip_keeps (f uv) : KeepsX s (execFastTrip f uv t) :=
  .when (h |> tripFeed_keeps _ _ _) h

theorem execItTrip_keeps (f ma us) : KeepsX s (execItTrip f ma us t) := by
  unfold execItTrip
  extract_lets f curve x u
  have hu : Keeps s u := h |> setFeedX_keeps _ _
  split
  · exact .when (hu |> tripFeed_keeps _ _ _) hu
  · exact .next hu

theorem execFetTempStep_keeps (f) : KeepsX s (execFetTempStep f t) := by
  unfold execFetTempStep
  extract_lets f x src ref rise temp warm u v
  have hu : Keeps s u := h |> setFeedX_keeps _ _ |> hwrI_keeps _ _
  have hv : Keeps s v := .ite (hu |> told_keeps _) hu
  exact .when (hv |> tripFeed_keeps _ _ _) hv

theorem execGateDriveTrip_keeps (f mv us) : KeepsX s (execGateDriveTrip f mv us t) :=
  .when (h |> tripFeed_keeps _ _ _) h

theorem execBackfeedBlock_keeps (f feedMv busMv shuntUv) : KeepsX s (execBackfeedBlock f feedMv busMv shuntUv t) :=
  .when (h |> blockBack_keeps _) h

theorem execOvBlock_keeps (f mv us) : KeepsX s (execOvBlock f mv us t) :=
  .when (h |> setFeed_keeps _ _ |> setFeedX_keeps _ _ |> told_keeps _) h

theorem execBlockExit_keeps (f) : KeepsX s (execBlockExit f t) :=
  .ite (.ite (.next (h |> setFeed_keeps _ _)) (.ite (.next (h |> beginSs_keeps _)) (.next (h |> setFeed_keeps _ _))))
    (.next h)

theorem execFetDamageFinding_keeps (f) : KeepsX s (execFetDamageFinding f t) :=
  .when (h |> findDamage_keeps _) h

theorem execFetCheckStart_keeps : KeepsX s (execFetCheckStart t) :=
  .when (h |> keeps_mk.2 |> setFeed_keeps _ _) h

theorem execFetCheckEnd_keeps : KeepsX s (execFetCheckEnd t) := by
  unfold execFetCheckEnd
  split
  · exact .when (.ite (h |> keeps_mk.2 |> setFeed_keeps _ _) (h |> keeps_mk.2 |> refreshWait_keeps)) h
  · exact .next h

theorem execShareFault_keeps : KeepsX s (execShareFault t) :=
  .when (h |> setRun_keeps _ _ |> told_keeps _) h

theorem execVbusSagDeclared_keeps : KeepsX s (execVbusSagDeclared t) :=
  .when (h |> declareSag_keeps |> b2Trigger_keeps _) h

/-! ### Ladle and holdup (spec/08_ladle.md, spec/09_holdup.md) -/

theorem execTapScan_keeps (taps stack lt1 lt2) : KeepsX s (execTapScan taps stack lt1 lt2 t) := by
  unfold execTapScan
  refine .ite (.next h) ?_
  extract_lets v fit beta t1 t2 u
  have hu : Keeps s u := h |> reportScan_keeps _ _ _ _ |> iff_keeps _ _ (fun _ hu => hu |> noteSensors_keeps _ _)
  exact .when (hu |> useScan_keeps _ _ _) hu

theorem execTargetComplete_keeps : KeepsX s (execTargetComplete t) :=
  .when (h |> keeps_mk.2 |> flag_keeps _ _ |> event_keeps _ _ _ _ _ |> refreshTarget_keeps) h

theorem execChargerDone_keeps : KeepsX s (execChargerDone t) :=
  .when (h |> hwr_keeps _ _ |> keeps_mk.2) h

theorem execChargerFault_keeps : KeepsX s (execChargerFault t) :=
  .when (h |> keeps_mk.2 |> bump_keeps _ |> latchLadle_keeps _ _ |> hwr_keeps _ _ |> keeps_mk.2) h

theorem execCapTestStart_keeps : KeepsX s (execCapTestStart t) := by
  unfold execCapTestStart
  split
  · exact .next h
  · exact .when (h |> setHu_keeps _ |> keeps_mk.2) h

theorem execCapTestEnd_keeps : KeepsX s (execCapTestEnd t) := by
  unfold execCapTestEnd
  split
  · exact .next h
  · extract_lets n _ u
    have hu : Keeps s u := h |> keeps_mk.2 |> setHu_keeps _
    exact .when (.ite (hu |> huPass_keeps) hu) h

theorem execCapTestDefer_keeps : KeepsX s (execCapTestDefer t) := by
  unfold execCapTestDefer
  split
  · exact .next h
  · exact .when (h |> keeps_mk.2 |> bump_keeps _) h

theorem execEsrPulse_keeps (before after st0 st1 ma) : KeepsX s (execEsrPulse before after st0 st1 ma t) := by
  unfold execEsrPulse
  extract_lets _ u
  have hu : Keeps s u := h |> keeps_mk.2 |> esrResult_keeps _ _ _ _ _
  exact .when (.ite (hu |> huPass_keeps) hu) h

theorem execTapResponseTest_keeps (resp stack) : KeepsX s (execTapResponseTest resp stack t) := by
  unfold execTapResponseTest
  refine .ite ?_ (.next h)
  extract_lets damp _ u v
  have hv : Keeps s v := h |> keeps_mk.2 |> judgeTaps_keeps _ _ |> hwr_keeps _ _ |> reckon_keeps
  exact .next (Keeps.ite (hv |> dampVerdict_keeps) hv |> reportTest_keeps)

theorem execDampLearn_keeps (resp stack) : KeepsX s (execDampLearn resp stack t) := by
  unfold execDampLearn
  extract_lets _ u v r taps nominal
  have hv : Keeps s v := h |> keeps_mk.2 |> judgeTaps_keeps _ _ |> hwr_keeps _ _ |> reckon_keeps
  clear_value v r taps nominal
  refine .ite (.ite (.next ?_) (.next (hv |> wr_keeps _ _))) (.next h)
  exact hv |> each_keeps _ _ (fun _ _ hu => hu |> wr_keeps _ _) |> wr_keeps _ _

theorem execHoldupArm_keeps : KeepsX s (execHoldupArm t) :=
  .when (h |> setHu_keeps _) h

theorem execHoldupTrip_keeps (ma us) : KeepsX s (execHoldupTrip ma us t) := by
  unfold execHoldupTrip
  extract_lets curve x why u live self done
  have hu : Keeps s u := h |> keeps_mk.2 |> stageSteps_keeps _ _
  have hdone : ∀ v, Keeps s v → Keeps s (done v) := fun _ hv => hv |> endDraws_keeps
    |> iff_keeps _ _ (fun _ hw => hw |> huFail_keeps _)
  exact .ite (.next (hdone _ (hu |> tripHoldup_keeps _))) (.ite (.next (hdone _ (hu |> tripHoldup_keeps _)))
    (.next hu))

theorem execHuSelfTest_keeps (gateMv vdrv avgMa movedMv) : KeepsX s (execHuSelfTest gateMv vdrv avgMa movedMv t) :=
  .ite (.ite (.next (h |> huFail_keeps _)) (.ite (.next (h |> huFail_keeps _)) (.ite (.next (h |> huFail_keeps _))
    (.next (h |> keeps_mk.2 |> huPass_keeps))))) (.next h)

theorem execDroopFallback_keeps (pinned) : KeepsX s (execDroopFallback pinned t) :=
  .when (h |> fallToDroop_keeps) h

/-! ### Sequencer (spec/10_sequencer.md) -/

theorem execOnSlot_keeps (n) : KeepsX s (execOnSlot n t) := by
  unfold execOnSlot
  extract_lets st
  split
  · exact .next h
  · refine .ite (.next h) (.ite (.next (h |> setRail_keeps _ _)) (.ite (.next (h |> setRail_keeps _ _)) ?_))
    exact .ite (.next (h |> setEn_keeps _ _ |> bump_keeps _ |> setRail_keeps _ _ |> checkOnDone_keeps))
      (.next (h |> setEn_keeps _ _ |> bump_keeps _ |> setRail_keeps _ _))

theorem execRailGood_keeps (n) : KeepsX s (execRailGood n t) :=
  .when (h |> setRail_keeps _ _ |> wr_keeps _ _ |> wr_keeps _ _ |> checkOnDone_keeps) h

theorem execRailFailUp_keeps (n) : KeepsX s (execRailFailUp n t) :=
  .when (h |> setRail_keeps _ _ |> setEn_keeps _ _ |> bump_keeps _ |> railFault_keeps _ _ |> wr_keeps _ _
    |> flag_keeps _ _ |> flag_keeps _ _ |> event_keeps _ _ _ _ _
    |> iff_keeps _ _ (fun _ hu => hu |> pulseAndRelay_keeps _)
    |> each_keeps _ _ (fun _ _ hu => .ite (hu |> setRail_keeps _ _) hu) |> wr_keeps _ _ |> keeps_mk.2) h

theorem execRunningRailFault_keeps (n) : KeepsX s (execRunningRailFault n t) := by
  refine .ite (.next h) (.ite (.next (h |> setRun_keeps _ _ |> setRun_keeps _ _ |> event_keeps _ _ _ _ _)) (.next ?_))
  exact h |> setRail_keeps _ _ |> railFault_keeps _ _ |> bump_keeps _ |> flag_keeps _ _ |> flag_keeps _ _
    |> event_keeps _ _ _ _ _
    |> iff_keeps _ _ (fun _ hu => hu |> pulseAndRelay_keeps _)
    |> iff_keeps _ _ (fun _ hu => hu |> fallRail_keeps _) |> graceAndTrigger_keeps _

theorem execRfGraceExpiry_keeps : KeepsX s (execRfGraceExpiry t) := by
  unfold execRfGraceExpiry
  split
  · exact .when (h |> flag_keeps _ _ |> bump_keeps _ |> event_keeps _ _ _ _ _ |> offRelease_keeps) h
  · exact .next h

theorem execOffStart_keeps : KeepsX s (execOffStart t) := by
  unfold execOffStart
  split
  · exact .when (h |> seqPour_keeps |> wr_keeps _ _ |> wr_keeps _ _ |> keeps_mk.2 |> offCheck_keeps) h
  · exact .next h

theorem execOffSlot_keeps (n) : KeepsX s (execOffSlot n t) := by
  unfold execOffSlot
  split
  · exact .when (h |> fallRail_keeps _) h
  · exact .next h

theorem execRailFallen_keeps (n) : KeepsX s (execRailFallen n t) :=
  .when (h |> railDown_keeps _ |> offCheck_keeps) h

theorem execOffWaitExpiry_keeps (n) : KeepsX s (execOffWaitExpiry n t) :=
  .when (h |> flag_keeps _ _ |> bump_keeps _ |> flag_keeps _ _ |> event_keeps _ _ _ _ _ |> railDown_keeps _
    |> offCheck_keeps) h

theorem execRailWarning_keeps (n) : KeepsX s (execRailWarning n t) :=
  .ite (.next h) (.ite (.next (h |> warnRail_keeps _ _)) (.ite (.next (h |> warnRail_keeps _ _)) (.next h)))

theorem execFaultPulseEnd_keeps : KeepsX s (execFaultPulseEnd t) :=
  .when (h |> keeps_mk.2) h

theorem execFaultInTrigger_keeps : KeepsX s (execFaultInTrigger t) :=
  .when (h |> keeps_mk.2 |> bump_keeps _ |> flag_keeps _ _ |> event_keeps _ _ _ _ _ |> trigger_keeps _) h

theorem execFaultStuck_keeps : KeepsX s (execFaultStuck t) :=
  .when (h |> keeps_mk.2 |> wr_keeps _ _ |> bump_keeps _ |> flag_keeps _ _ |> event_keeps _ _ _ _ _) h

theorem execFaultRearm_keeps : KeepsX s (execFaultRearm t) :=
  .ite (.next (h |> keeps_mk.2 |> wr_keeps _ _ |> event_keeps _ _ _ _ _)) (.ite (.next (h |> keeps_mk.2)) (.next h))

theorem execHostRstRelease_keeps : KeepsX s (execHostRstRelease t) :=
  .when (h |> keeps_mk.2) h

theorem execRailAliveInRest_keeps (n) : KeepsX s (execRailAliveInRest n t) :=
  .when (h |> keeps_mk.2 |> flag_keeps _ _ |> event_keeps _ _ _ _ _) h

/-! ### The link's PHY (spec/11_link_phy.md) -/

theorem execSymbolLock_keeps (p) : KeepsX s (execSymbolLock p t) :=
  .ite (.next h) (.next (h |> setLane_keeps _ _ |> flag_keeps _ _))

theorem execLockLoss_keeps (p) : KeepsX s (execLockLoss p t) :=
  .ite (.next h) (.next (.ite (h |> unlock_keeps _ |> bump_keeps _ |> fastRetrain_keeps _)
    (h |> unlock_keeps _ |> bump_keeps _)))

theorem execTrainingSetRx_keeps (p set rx) : KeepsX s (execTrainingSetRx p set rx t) := by
  have hu : Keeps s (t.sendSets p rx.sent) := h |> sendSets_keeps _ _
  exact .ite (.next (hu |> phyViolation_keeps)) (.ite (.next hu)
    (.ite (.next (hu |> badSet_keeps _)) (.next (hu |> takeSet_keeps _ _))))

theorem execAlignComplete_keeps : KeepsX s (execAlignComplete t) := by
  unfold execAlignComplete
  split
  · refine .ite ?_ (.next h)
    extract_lets rev bad u v w
    have hu : Keeps s u := .ite (h |> wr_keeps _ _ |> flag_keeps _ _) h
    have hv : Keeps s v := .ite (hu |> event_keeps _ _ _ _ _) hu
    exact .next (hv |> each_keeps _ _ (fun _ _ hx => hx |> misnumbered_keeps _) |> enterRateChange_keeps _ _)
  · exact .next h

theorem execAlignTimeout_keeps : KeepsX s (execAlignTimeout t) :=
  .when (h |> each_keeps _ _ (fun _ _ hu => hu |> misnumbered_keeps _) |> enterDetect_keeps) h

theorem execRateIdleExpiry_keeps : KeepsX s (execRateIdleExpiry t) :=
  .when (h |> clearSets_keeps |> wr_keeps _ _ |> beginSets_keeps) h

theorem execEqDone_keeps (ctle taps) : KeepsX s (execEqDone ctle taps t) :=
  .ite (.next h) (.next (h |> each_keeps _ _ (fun _ _ hu => .ite (hu |> profileEq_keeps _)
    (hu |> wr_keeps _ _ |> wr_keeps _ _))
    |> clearSets_keeps |> wr_keeps _ _ |> beginSets_keeps))

theorem execConfirmComplete_keeps (skew us) : KeepsX s (execConfirmComplete skew us t) :=
  .ite (.next h) (.next (h |> each_keeps _ _ (fun _ _ hu => hu |> wr_keeps _ _ |> flag_keeps _ _) |> keeps_mk.2
    |> dropStaleScans_keeps
    |> wr_keeps _ _ |> wr_keeps _ _ |> wr_keeps _ _ |> wr_keeps _ _ |> wr_keeps _ _ |> wr_keeps _ _ |> bump_keeps _
    |> event_keeps _ _ _ _ _ |> sessionBegin_keeps))

theorem execConfirmTimeout_keeps : KeepsX s (execConfirmTimeout t) := by
  unfold execConfirmTimeout
  refine .ite (.next h) (.ite (.next (h |> fullTraining_keeps _)) ?_)
  split
  · exact .next (h |> bump_keeps _ |> flag_keeps _ _ |> enterRateChange_keeps _ _ |> dropStaleScans_keeps)
  · exact .next (h |> bump_keeps _ |> enterDetect_keeps)

theorem execIdleEntry_keeps : KeepsX s (execIdleEntry t) :=
  .when (h |> wr_keeps _ _ |> bump_keeps _) h

theorem execIdleExit_keeps : KeepsX s (execIdleExit t) :=
  .when (h |> wakeTx_keeps) h

theorem execEiosRx_keeps : KeepsX s (execEiosRx t) :=
  .when (h |> wr_keeps _ _) h

theorem execRxIdleExit_keeps : KeepsX s (execRxIdleExit t) :=
  .when (h |> wr_keeps _ _) h

theorem execIdleExitLockTimeout_keeps (p) : KeepsX s (execIdleExitLockTimeout p t) :=
  .when (h |> unlock_keeps _ |> fastRetrain_keeps _) h

theorem execBankStart_keeps : KeepsX s (execBankStart t) :=
  .when (h |> keeps_mk.2 |> wr_keeps _ _) h

theorem execBnkRx_keeps : KeepsX s (execBnkRx t) :=
  .ite (.next (h |> enterBanked_keeps))
    (.ite (.ite (.next (h |> enterBanked_keeps)) (.ite (.next (h |> phyViolation_keeps)) (.next h))) (.next h))

theorem execBankNoAnswer_keeps : KeepsX s (execBankNoAnswer t) :=
  .when (h |> bankRefused_keeps) h

theorem execBankRefusalRx_keeps (eios) : KeepsX s (execBankRefusalRx eios t) :=
  .when (h |> bankRefused_keeps |> wr_keeps _ _) h

theorem execBankWake_keeps (signal) : KeepsX s (execBankWake signal t) :=
  .when (h |> linkWake_keeps) h

theorem execWakeComplete_keeps : KeepsX s (execWakeComplete t) :=
  .when (h |> wr_keeps _ _ |> wr_keeps _ _ |> wakeTx_keeps) h

theorem execWakeFail_keeps : KeepsX s (execWakeFail t) :=
  .when (h |> bump_keeps _ |> flag_keeps _ _ |> event_keeps _ _ _ _ _ |> fullTraining_keeps _) h

theorem execCodeErrorRetrain_keeps (errs) : KeepsX s (execCodeErrorRetrain errs t) :=
  .when (h |> fastRetrain_keeps _) h

theorem execDeskewLoss_keeps (p) : KeepsX s (execDeskewLoss p t) :=
  .when (h |> fastRetrain_keeps _) h

theorem execSilenceTimeout_keeps : KeepsX s (execSilenceTimeout t) :=
  .when (h |> fullTraining_keeps _) h

theorem execRefclkFault_keeps : KeepsX s (execRefclkFault t) :=
  .when (.ite (h |> keeps_mk.2 |> flag_keeps _ _ |> event_keeps _ _ _ _ _)
    (h |> keeps_mk.2 |> flag_keeps _ _ |> event_keeps _ _ _ _ _ |> linkDisable_keeps _)) h

theorem execRefclkGood_keeps : KeepsX s (execRefclkGood t) :=
  .when (h |> keeps_mk.2 |> event_keeps _ _ _ _ _ |> linkEnable_keeps) h

theorem execDfeTapAtLimit_keeps (p tap low) : KeepsX s (execDfeTapAtLimit p tap low t) :=
  .when (.ite (h |> wr_keeps _ _ |> flag_keeps _ _) (h |> wr_keeps _ _ |> flag_keeps _ _ |> keeps_mk.2
    |> event_keeps _ _ _ _ _)) h

theorem execEyeStep_keeps (p) : KeepsX s (execEyeStep p t) :=
  .when (h |> iff_keeps _ _ (fun _ hu => hu |> setScan_keeps _ _)) h

theorem execEyeStepEnd_keeps (p errs) : KeepsX s (execEyeStepEnd p errs t) := by
  unfold execEyeStepEnd
  extract_lets e counted isOver ended u
  have hu : Keeps s u := h |> setScan_keeps _ _ |> wr_keeps _ _ |> wr_keeps _ _
  exact .ite (.next h) (.next (.ite (hu |> wr_keeps _ _ |> wr_keeps _ _ |> wr_keeps _ _ |> reportScans_keeps) hu))

/-! ### The link layer (spec/12_link_layer.md) -/

theorem execFrameRx_keeps (bytes ending) : KeepsX s (execFrameRx bytes ending t) :=
  .ite (.next h) (.ite (.next (h |> bump_keeps _ |> llViolation_keeps _ |> sendNak_keeps _))
    (.next (h |> takeFrame_keeps _)))

theorem execAckTimer_keeps : KeepsX s (execAckTimer t) :=
  .when (h |> sendAck_keeps) h

theorem execAckRx_keeps : KeepsX s (execAckRx t) := by
  unfold execAckRx
  split
  · exact .next h
  next e =>
    have hu := takeAny_keeps e h
    exact .ite (.next (hu |> freeTo_keeps _)) (.next (hu |> llViolation_keeps _))

theorem execNakRx_keeps : KeepsX s (execNakRx t) := by
  unfold execNakRx
  split
  · exact .next h
  next e =>
    have hu := takeAny_keeps e h
    exact .ite (.next (hu |> bump_keeps _ |> llViolation_keeps _))
      (.ite (.next (hu |> bump_keeps _ |> freeTo_keeps _)) (.next (hu |> bump_keeps _ |> freeTo_keeps _
      |> startReplay_keeps)))

theorem execReplayTimeout_keeps : KeepsX s (execReplayTimeout t) :=
  .when (h |> startReplay_keeps) h

theorem execDataRx_keeps : KeepsX s (execDataRx t) := by
  unfold execDataRx
  split
  next e => exact .next (takeRx_keeps e h |> applyRec_keeps _ _)
  · exact .next h

theorem execCloseRx_keeps : KeepsX s (execCloseRx t) := by
  unfold execCloseRx
  split
  next e => exact .next (takeRx_keeps e h |> applyRec_keeps _ _)
  · exact .next h

theorem execRetireRx_keeps : KeepsX s (execRetireRx t) := by
  unfold execRetireRx
  split
  next e => exact .ite (.next (takeRx_keeps e h)) (.next (takeRx_keeps e h |> applyRetire_keeps _ _))
  · exact .next h

theorem execDirtyRx_keeps : KeepsX s (execDirtyRx t) := by
  unfold execDirtyRx
  split
  next e => exact .next (takeRx_keeps e h |> wr_keeps _ _ |> wr_keeps _ _ |> bump_keeps _)
  · exact .next h

theorem execShutdownRx_keeps : KeepsX s (execShutdownRx t) := by
  unfold execShutdownRx
  split
  · exact .next h
  next e =>
    have hu := takeAny_keeps e h
    exact .ite (.next (hu |> llViolation_keeps _)) (.next (hu |> trigger_keeps _
      |> iff_keeps _ _ (fun _ hv => hv |> endDrain_keeps _)))

theorem execResumeSend_keeps : KeepsX s (execResumeSend t) :=
  .when (h |> sendResume_keeps) h

theorem execCommitGapExpiry_keeps : KeepsX s (execCommitGapExpiry t) :=
  .ite (.next h) (.ite (.next (h |> keeps_mk.2 |> sendCommit_keeps)) (.next (h |> keeps_mk.2 |> keeps_mk.2)))

/-! ### The image store and the shakeout (spec/15_image_store.md, spec/14_pour_and_shakeout.md) -/

theorem execPageProgramDone_keeps (d bits) : KeepsX s (execPageProgramDone d bits t) :=
  .ite (.next h) (.next (h |> iff_keeps _ _ (fun _ hu => hu |> corrected_keeps _ _)
    |> each_keeps _ _ (fun _ _ hu => .ite (hu |> pageFailed_keeps _) (hu |> pageDone_keeps _))
    |> refreshDie_keeps _ |> pump_keeps))

theorem execProgramFail_keeps (d q) : KeepsX s (execProgramFail d q t) := by
  unfold execProgramFail
  split
  · exact .next (h |> pageFailed_keeps _ |> refreshDie_keeps _ |> pump_keeps)
  · exact .next h

theorem execPageWaitExpiry_keeps : KeepsX s (execPageWaitExpiry t) :=
  .when (h |> padOpen_keeps |> pump_keeps) h

theorem execEraseStart_keeps : KeepsX s (execEraseStart t) := by
  unfold execEraseStart
  split
  · exact .next h
  · exact .ite (.next h) (.next (h |> flushLog_keeps |> eraseIntent_keeps _ _ _ _ |> keeps_mk.2 |> wr_keeps _ _
      |> wr_keeps _ _ |> refreshDie_keeps _))

theorem execEraseDone_keeps (outcome) : KeepsX s (execEraseDone outcome t) := by
  unfold execEraseDone
  split
  · exact .next h
  · exact .ite (.next h) (.next (h |> keeps_mk.2 |> wr_keeps _ _ |> settleErase_keeps _ _ _ _ |> queueMap_keeps _
      |> refreshDie_keeps _ |> pump_keeps |> refreshFettle_keeps))

theorem execEraseSuspend_keeps : KeepsX s (execEraseSuspend t) := by
  unfold execEraseSuspend
  split
  · exact .next h
  · exact .when (h |> keeps_mk.2 |> wr_keeps _ _ |> bump_keeps _ |> startDie_keeps _) h

theorem execEraseResume_keeps : KeepsX s (execEraseResume t) := by
  unfold execEraseResume
  split
  · exact .next h
  · exact .when (h |> keeps_mk.2 |> wr_keeps _ _ |> refreshDie_keeps _) h

theorem execScanDone_keeps (dies maps half outcome us) : KeepsX s (execScanDone dies maps half outcome us t) :=
  .when (h |> scanEnd_keeps _ _ _ _ _) h

theorem execShakeStart_keeps : KeepsX s (execShakeStart t) := by
  unfold execShakeStart
  split
  next e => exact .next (takeRx_keeps e h |> shakeCtl_keeps _ _ (fun _ hu => .ite (hu |> shakeStart_keeps _)
    (hu |> llViolation_keeps _)))
  · exact .next h

theorem execShakePause_keeps : KeepsX s (execShakePause t) := by
  unfold execShakePause
  split
  next e => exact .next (takeRx_keeps e h |> shakeCtl_keeps _ _ (fun _ hu => .ite (hu |> wr_keeps _ _)
    (hu |> llViolation_keeps _)))
  · exact .next h

theorem execShakeConfirm_keeps : KeepsX s (execShakeConfirm t) := by
  unfold execShakeConfirm
  split
  next e => exact .next (takeRx_keeps e h |> shakeCtl_keeps _ _ (fun _ hu => hu |> confirmShake_keeps _))
  · exact .next h

theorem execConfirmationWritten_keeps : KeepsX s (execConfirmationWritten t) := by
  unfold execConfirmationWritten
  split
  · exact .next h
  · split
    · exact .next h
    next e => exact .next (writeSum_keeps e h |> keeps_mk.2 |> wr_keeps _ _ |> bump_keeps _ |> statusIfChanged_keeps)

theorem execShakeoutReadDone_keeps (d bits crcOk) : KeepsX s (execShakeoutReadDone d bits crcOk t) := by
  unfold execShakeoutReadDone
  extract_lets v st x _ u _ w
  refine .ite (.next h) ?_
  split
  · exact .next (h |> keeps_mk.2 |> refreshDie_keeps _)
  · refine .ite ?_ (.ite (.next (h |> setShake_keeps _ _)) (.next (h |> keeps_mk.2 |> unreadable_keeps _ _
      |> shakePump_keeps)))
    have hw : Keeps s w := h |> corrected_keeps _ _ |> iff_keeps _ _ (fun _ hv => hv |> bump_keeps _) |> keeps_mk.2
    exact .ite (.next (hw |> setShake_keeps _ _ |> startDies_keeps))
      (.ite (.next (hw |> unreadable_keeps _ _ |> shakePump_keeps))
      (.ite (.next (hw |> setShake_keeps _ _ |> shakeRec_keeps _ |> shakePump_keeps))
      (.next (hw |> setShake_keeps _ _ |> shakePump_keeps))))

/-! ### Pour (spec/14_pour_and_shakeout.md) -/

theorem execDrainWindowExpiry_keeps : KeepsX s (execDrainWindowExpiry t) :=
  .when (h |> endDrain_keeps _) h

theorem execPwdDrainExpiry_keeps : KeepsX s (execPwdDrainExpiry t) :=
  .when (h |> endDrain_keeps _) h

theorem execPwdSealExpiry_keeps : KeepsX s (execPwdSealExpiry t) :=
  .when (h |> flag_keeps _ _ |> event_keeps _ _ _ _ _ |> beginSeal_keeps) h

theorem execSummaryWritten_keeps (ok) : KeepsX s (execSummaryWritten ok t) := by
  unfold execSummaryWritten
  refine .ite (.next h) ?_
  extract_lets w
  have hw : ∀ u, w = some u → Keeps s u := by
    intro u hu
    simp only [w] at hu
    split at hu
    · split at hu
      · exact writeSum_keeps hu h
      · cases hu
    · cases hu
  clear_value w
  cases w with
  | none => exact .next (h |> summaryFailed_keeps |> endSummary_keeps)
  | some u => exact .next (hw u rfl |> endSummary_keeps)

theorem execPwdOffExpiry_keeps : KeepsX s (execPwdOffExpiry t) :=
  .when (h |> flag_keeps _ _ |> bump_keeps _ |> event_keeps _ _ _ _ _ |> abandonSeal_keeps |> wr_keeps _ _
    |> refreshOpen_keeps |> offRelease_keeps) h

theorem execRestSupplyPresent_keeps : KeepsX s (execRestSupplyPresent t) :=
  .when (h |> restExit_keeps _) h

/-! ### On-chip flash, firmware, debugging, the log (spec/16_onchip_flash.md, spec/18_events_and_faults.md) -/

theorem execCommitDone_keeps (ok) : KeepsX s (execCommitDone ok t) := by
  unfold execCommitDone
  split
  · exact .next h
  · extract_lets seq _ u v c _ _ w x y z
    have hu : Keeps s u := h |> keeps_mk.2
    have hx : Keeps s x := hu |> bumpBy_keeps _ _ |> setCopy_keeps _ _ |> keeps_mk.2 |> wr_keeps _ _
      |> wr_keeps _ _ |> wr_keeps _ _
    have hy : Keeps s y := .ite (hu |> setCopy_keeps _ _) hu
    have hz : Keeps s z := hy |> iff_keeps _ _ (fun _ hv => hv |> bumpBy_keeps _ _ |> freeNext_keeps)
    exact .ite (.next h) (.ite (.next (hx |> wr_keeps _ _ |> flag_keeps _ _ |> event_keeps _ _ _ _ _
      |> commitOver_keeps))
      (.next (hz |> wr_keeps _ _ |> flag_keeps _ _ |> event_keeps _ _ _ _ _ |> commitOver_keeps)))

theorem execDfEraseStart_keeps : KeepsX s (execDfEraseStart t) := by
  unfold execDfEraseStart
  split
  · exact .next (h |> commitErase_keeps _)
  · split
    · exact .next h
    · exact .when (h |> keeps_mk.2) h

theorem execDfEraseSuspend_keeps : KeepsX s (execDfEraseSuspend t) := by
  unfold execDfEraseSuspend
  split
  · exact .next h
  · exact .when (h |> keeps_mk.2 |> bump_keeps _) h

theorem execDfEraseDone_keeps (ok) : KeepsX s (execDfEraseDone ok t) := by
  unfold execDfEraseDone
  refine .ite (.next (h |> commitErased_keeps _)) ?_
  split
  · exact .next h
  · extract_lets _ u v
    have hu : Keeps s u := h |> keeps_mk.2 |> bump_keeps _
    have hv : Keeps s v := .ite (hu |> blankSector_keeps _ _) (hu |> tearSector_keeps _ _ |> queueErase_keeps _ _)
    exact .ite (.next h) (.next (.ite (hv |> flushLog_keeps) hv))

theorem execFwEraseDone_keeps (ok) : KeepsX s (execFwEraseDone ok t) :=
  .ite (.next h) (.ite (.next (h |> dropSlot_keeps _ |> bumpBy_keeps _ _ |> keeps_mk.2 |> wr_keeps _ _
    |> wr_keeps _ _ |> wr_keeps _ _))
    (.next (h |> dropSlot_keeps _ |> bumpBy_keeps _ _ |> freeNext_keeps |> keeps_mk.2 |> fwFail_keeps _ _)))

theorem execFwVerifyDone_keeps : KeepsX s (execFwVerifyDone t) :=
  .ite (.next h) (.ite (.next (h |> keeps_mk.2 |> wr_keeps _ _ |> wr_keeps _ _ |> wr_keeps _ _ |> setXo_keeps _ _))
    (.next (h |> keeps_mk.2 |> wr_keeps _ _ |> fwFail_keeps _ _)))

theorem execDebugPasswordEntry_keeps (password) : KeepsX s (execDebugPasswordEntry password t) :=
  .ite (.next h) (.ite (.next (h |> keeps_mk.2 |> wr_keeps _ _ |> refreshProt_keeps |> event_keeps _ _ _ _ _))
    (.next (.ite (h |> keeps_mk.2 |> wr_keeps _ _ |> flag_keeps _ _ |> event_keeps _ _ _ _ _)
    (h |> keeps_mk.2 |> wr_keeps _ _))))

theorem execDebugHalt_keeps : KeepsX s (execDebugHalt t) :=
  .when (h |> keeps_mk.2) h

theorem execWindowWriteDone_keeps (ok) : KeepsX s (execWindowWriteDone ok t) := by
  unfold execWindowWriteDone
  split
  · exact .next h
  · exact .ite (.next (h |> unanswered_keeps |> keeps_mk.2 |> bumpBy_keeps _ _ |> bumpBy_keeps _ _
      |> replyOk_keeps _ _ _ _ _ _ |> released_keeps _))
      (.next (h |> unanswered_keeps |> cutWrite_keeps |> fwFail_keeps _ _ |> winAbort_keeps _ _ _ _
      |> replyAbort_keeps _ _ _ _ _ _ |> released_keeps _))

theorem execProtectionRecordWritten_keeps (ok) : KeepsX s (execProtectionRecordWritten ok t) := by
  unfold execProtectionRecordWritten
  split
  · exact .next h
  · extract_lets _ _ u _ v
    have hu : Keeps s u := h |> unanswered_keeps |> keeps_mk.2
    have hv : Keeps s v := .ite (hu |> keeps_mk.2 |> refreshProt_keeps |> protDone_keeps _) (hu |> protFailed_keeps _)
    exact .ite (.next hv) (.next (hv |> answerProt_keeps _ _ _ _ |> released_keeps _))

theorem execLogFlush_keeps : KeepsX s (execLogFlush t) :=
  .when (h |> flushLog_keeps) h

/-! ### The cascade (spec/17_cascade.md) -/

theorem execBootAnnouncement_keeps : KeepsX s (execBootAnnouncement t) :=
  .when (h |> queueCan_keeps _ _ |> keeps_mk.2) h

theorem execHeartbeatTx_keeps : KeepsX s (execHeartbeatTx t) :=
  .when (h |> queueCan_keeps _ _) h

theorem execStampSyncTx_keeps : KeepsX s (execStampSyncTx t) :=
  .when (h |> queueCan_keeps _ _) h

theorem execHeartbeatRx_keeps (node payload) : KeepsX s (execHeartbeatRx node payload t) :=
  .next (h |> onCas_keeps _ _ _ _ _ fun _ hu => hu |> markHeard_keeps _ _ |> memberBack_keeps _
    |> offerHeat_keeps _ |> heardAt_keeps _ _
    |> iff_keeps _ _ (fun _ hv => hv |> pairStamp_keeps _))

theorem execBootAnnouncementRx_keeps (node payload) : KeepsX s (execBootAnnouncementRx node payload t) :=
  .next (h |> onCas_keeps _ _ _ _ _ (fun _ hu => hu |> markHeard_keeps _ _ |> offerHeat_keeps _ |> heardAt_keeps _ _))

theorem execMemberAbsent_keeps (k) : KeepsX s (execMemberAbsent k t) :=
  .when (h |> memberGone_keeps _) h

theorem execPourCommandRx_keeps (node payload) : KeepsX s (execPourCommandRx node payload t) :=
  .next (h |> onCas_keeps _ _ _ _ _ (fun _ hu => hu |> pourCmdRx_keeps _ _))

theorem execFaultRelayRx_keeps (node payload) : KeepsX s (execFaultRelayRx node payload t) :=
  .next (h |> onCas_keeps _ _ _ _ _ (fun _ hu => hu |> pourCmdRx_keeps _ _))

theorem execStaggerReferenceRx_keeps (node payload) : KeepsX s (execStaggerReferenceRx node payload t) :=
  .next (h |> onCas_keeps _ _ _ _ _ (fun _ hu => hu |> broadcastRx_keeps _ _))

theorem execHeatAssignmentRx_keeps (node payload) : KeepsX s (execHeatAssignmentRx node payload t) :=
  .next (h |> onCas_keeps _ _ _ _ _ (fun _ hu => hu |> broadcastRx_keeps _ _))

theorem execStampSyncRx_keeps (node payload) : KeepsX s (execStampSyncRx node payload t) :=
  .next (h |> onCas_keeps _ _ _ _ _ (fun _ hu => .ite hu (hu |> pairStamp_keeps _ |> bump_keeps _)))

theorem execEventFrameRx_keeps (node payload) : KeepsX s (execEventFrameRx node payload t) :=
  .next (h |> onCas_keeps _ _ _ _ _ (fun _ hu => .ite (hu |> casViolation_keeps _)
    (.ite hu (hu |> setMember_keeps _ _ |> heardAt_keeps _ _ |> enqueueMember_keeps _))))

theorem execPourPulseEnd_keeps : KeepsX s (execPourPulseEnd t) :=
  .when (h |> keeps_mk.2) h

theorem execPourInTrigger_keeps : KeepsX s (execPourInTrigger t) :=
  .when (h |> keeps_mk.2 |> bump_keeps _ |> trigger_keeps _) h

theorem execPourStuck_keeps : KeepsX s (execPourStuck t) :=
  .when (h |> keeps_mk.2 |> wr_keeps _ _ |> bump_keeps _ |> flag_keeps _ _ |> event_keeps _ _ _ _ _) h

theorem execBusDominant_keeps : KeepsX s (execBusDominant t) :=
  .when (h |> keeps_mk.2 |> refreshBus_keeps |> bump_keeps _ |> flag_keeps _ _ |> event_keeps _ _ _ _ _) h

theorem execBusDominantEnd_keeps : KeepsX s (execBusDominantEnd t) :=
  .when (h |> keeps_mk.2 |> refreshBus_keeps |> event_keeps _ _ _ _ _) h

theorem execBusOff_keeps : KeepsX s (execBusOff t) :=
  .when (h |> keeps_mk.2 |> refreshBus_keeps |> bump_keeps _ |> flag_keeps _ _ |> event_keeps _ _ _ _ _) h

theorem execBusOffRecovery_keeps : KeepsX s (execBusOffRecovery t) :=
  .when (h |> keeps_mk.2 |> refreshBus_keeps |> event_keeps _ _ _ _ _) h

theorem execFwDistStep_keeps (abort data) : KeepsX s (execFwDistStep abort data t) := by
  unfold execFwDistStep
  split
  · exact .next h
  · exact .ite (.next h) (.ite (.next (h |> distAnswer_keeps _ _)) (.ite (.next (h |> stopDist_keeps _ _))
      (.ite (.next (h |> distResult_keeps _ _)) (.next (h |> distResult_keeps _ _)))))

theorem execFwDistGuardTimeout_keeps : KeepsX s (execFwDistGuardTimeout t) := by
  unfold execFwDistGuardTimeout
  split
  · exact .next h
  · exact .when (h |> stopDist_keeps _ _) h

/-! ### Requests, their carriers and reports (spec/02_object_dictionary.md, spec/19_service.md) -/

theorem execSegTimeout_keeps (src) : KeepsX s (execSegTimeout src t) := by
  unfold execSegTimeout
  extract_lets x
  split
  · exact .when (h |> setSrc_keeps _ _) h
  · exact .next h

theorem execUnlockTimeout_keeps (src) : KeepsX s (execUnlockTimeout src t) :=
  .when (h |> setSrc_keeps _ _) h

theorem execQuarantineEnd_keeps (src) : KeepsX s (execQuarantineEnd src t) :=
  .when (h |> endQuarantine_keeps _ |> setSrc_keeps _ _ |> iff_keeps _ _ (fun _ hu => hu |> wr_keeps _ _)
    |> iff_keeps _ _ (fun _ hu => hu |> statusIfChanged_keeps)) h

theorem execCtrlReqRx_keeps : KeepsX s (execCtrlReqRx t) := by
  unfold execCtrlReqRx
  split
  · exact .next h
  next e =>
    refine .ite (.next h) ?_
    have hu := takeAny_keeps e h |> unanswered_keeps
    refine .ite (.next (hu |> noteCtrl_keeps _ _ _)) ?_
    exact .ite (.next (hu |> noteCtrl_keeps _ _ _ |> malformed_keeps _ _ _))
      (.next (hu |> noteCtrl_keeps _ _ _ |> serve_keeps _ _ _))

theorem execCanRequestRx_keeps (addr fd bytes) : KeepsX s (execCanRequestRx addr fd bytes t) := by
  have hu : Keeps s t.unanswered := h |> unanswered_keeps
  exact .ite (.next hu) (.ite (.next hu) (.ite (.next (hu |> serviceViolation_keeps _ _))
    (.ite (.next (hu |> malformed_keeps _ _ _)) (.next (hu |> serve_keeps _ _ _)))))

theorem execUsbFrameRx_keeps (bytes) : KeepsX s (execUsbFrameRx bytes t) :=
  .ite (.next (h |> unanswered_keeps)) (.next (h |> unanswered_keeps |> usbStale_keeps |> usbHolds_keeps _ _
    |> usbFrames_keeps _))

theorem execSvcWashdownAbandon_keeps : KeepsX s (execSvcWashdownAbandon t) :=
  .when (h |> dropReport_keeps) h

/-! ### Every command -/

/-- Every command answers a next state that keeps the queue and the invariant: a write of a command's parameter and a
request go through the parameter service, every other one has its lemma above. -/
theorem exec_keeps (c : Instr) : KeepsX s (exec c t) := by
  cases c with
  | configCommit | configDefaults | configReload | oemUnlock | oemLock | oemPwChange | idleHold | restart
  | restartHeld | contRearm | startRetry | feedEnOff | feedEnOn | fetDmgClear | cellTargetWrite | ladleClear | huClear
  | huClearGroup | seqClear | linkRetrainFast | linkRetrainFull | eyeStart | eyeStop | restWake | shakeAbandon
  | fwErase | fwVerify | fwActivate | fwAcceptTrial | fwCancel | protCodeSet | debugClose | debugOpen | fwDistStart
  | fwDistStop | logSeekOldest | logSeekSeq | logSeekNewest | logClose | svcLadleHealth | svcHotPanel | svcWashdown
  | svcLink =>
    exact .next (writeReq_keeps _ _ _ _ h)
  | read | write | flagWrite | readLow | readHigh | clearIfEqual | describe | segReadInit | segWriteInit | segData
  | segAbort | windowWrite | windowRead | logBatch =>
    exact .next (request_keeps _ _ _ h)
  | tick x => exact execTick_keeps h x
  | cycleStart => exact execCycleStart_keeps h
  | admissionOpen => exact execAdmissionOpen_keeps h
  | statusFrameRx crcOk => exact execStatusFrameRx_keeps h crcOk
  | statusStreamLost => exact execStatusStreamLost_keeps h
  | heartbeatArm => exact execHeartbeatArm_keeps h
  | heartbeatLost => exact execHeartbeatLost_keeps h
  | hwWatchdogExpiry => exact execHwWatchdogExpiry_keeps h
  | barrierReset => exact execBarrierReset_keeps h
  | commandFrameRx crcOk seq => exact execCommandFrameRx_keeps h crcOk seq
  | commandResend => exact execCommandResend_keeps h
  | sourceSwitch => exact execSourceSwitch_keeps h
  | powerOnReset => exact execPowerOnReset_keeps h
  | logicSupplyLoss => exact execLogicSupplyLoss_keeps h
  | usbAttach => exact execUsbAttach_keeps h
  | usbDetach => exact execUsbDetach_keeps h
  | wakeStageStart => exact execWakeStageStart_keeps h
  | wakeStageStop => exact execWakeStageStop_keeps h
  | mainSupplyStart => exact execMainSupplyStart_keeps h
  | mainSupplyStop => exact execMainSupplyStop_keeps h
  | visoReduced => exact execVisoReduced_keeps h
  | visoCurrentLimit => exact execVisoCurrentLimit_keeps h
  | segTimeout src => exact execSegTimeout_keeps h src
  | shadowExpiry => exact .next (setSrc_keeps _ _ h)
  | usbFrameRx bytes => exact execUsbFrameRx_keeps h bytes
  | usbFrameTimeout => exact .next (usbStale_keeps h)
  | quarantineEnd src => exact execQuarantineEnd_keeps h src
  | unlockTimeout src => exact execUnlockTimeout_keeps h src
  | commitDone ok => exact execCommitDone_keeps h ok
  | padLimit p => exact execPadLimit_keeps h p
  | padNormal p => exact execPadNormal_keeps h p
  | padOff p => exact execPadOff_keeps h p
  | zeroCrossing us ampPos ampNeg err => exact execZeroCrossing_keeps h us ampPos ampNeg err
  | qualificationFail => exact execQualificationFail_keeps h
  | lockAcquired => exact execLockAcquired_keeps h
  | lockLeft => exact execLockLeft_keeps h
  | mainsLossDeclared => exact execMainsLossDeclared_keeps h
  | seekLimitExpiry => exact execSeekLimitExpiry_keeps h
  | b0Pulse double => exact execB0Pulse_keeps h double
  | followerFree => exact execFollowerFree_keeps h
  | followerAligned => exact execFollowerAligned_keeps h
  | logicBoot straps tmode => exact execLogicBoot_keeps h straps tmode
  | powerWakeDone => exact execPowerWakeDone_keeps h
  | configLoad => exact execConfigLoad_keeps h
  | powerSideReapply => exact execPowerSideReapply_keeps h
  | chargePermit => exact execChargePermit_keeps h
  | guardBegin => exact execGuardBegin_keeps h
  | seatQualify f => exact execSeatQualify_keeps h f
  | seatRelease f => exact execSeatRelease_keeps h f
  | softStartBegin f => exact execSoftStartBegin_keeps h f
  | softStartDone f => exact execSoftStartDone_keeps h f
  | softStartTimeout f => exact execSoftStartTimeout_keeps h f
  | fastTrip f uv => exact execFastTrip_keeps h f uv
  | itTrip f ma us => exact execItTrip_keeps h f ma us
  | fetTempStep f => exact execFetTempStep_keeps h f
  | gateDriveTrip f mv us => exact execGateDriveTrip_keeps h f mv us
  | backfeedBlock f feedMv busMv shuntUv => exact execBackfeedBlock_keeps h f feedMv busMv shuntUv
  | ovBlock f mv us => exact execOvBlock_keeps h f mv us
  | blockExit f => exact execBlockExit_keeps h f
  | fetDamageFinding f => exact execFetDamageFinding_keeps h f
  | fetCheckStart => exact execFetCheckStart_keeps h
  | fetCheckEnd => exact execFetCheckEnd_keeps h
  | shareFault => exact execShareFault_keeps h
  | vbusSagDeclared => exact execVbusSagDeclared_keeps h
  | tapScan taps stack lt1 lt2 => exact execTapScan_keeps h taps stack lt1 lt2
  | targetComplete => exact execTargetComplete_keeps h
  | chargerDone => exact execChargerDone_keeps h
  | chargerFault => exact execChargerFault_keeps h
  | capTestStart => exact execCapTestStart_keeps h
  | capTestEnd => exact execCapTestEnd_keeps h
  | capTestDefer => exact execCapTestDefer_keeps h
  | esrPulse before after st0 st1 ma => exact execEsrPulse_keeps h before after st0 st1 ma
  | tapResponseTest resp stack => exact execTapResponseTest_keeps h resp stack
  | dampLearn resp stack => exact execDampLearn_keeps h resp stack
  | holdupArm => exact execHoldupArm_keeps h
  | holdupTrip ma us => exact execHoldupTrip_keeps h ma us
  | huSelfTest gateMv vdrv avgMa movedMv => exact execHuSelfTest_keeps h gateMv vdrv avgMa movedMv
  | droopFallback pinned => exact execDroopFallback_keeps h pinned
  | onSlot n => exact execOnSlot_keeps h n
  | railGood n => exact execRailGood_keeps h n
  | railFailUp n => exact execRailFailUp_keeps h n
  | runningRailFault n => exact execRunningRailFault_keeps h n
  | rfGraceExpiry => exact execRfGraceExpiry_keeps h
  | offSlot n => exact execOffSlot_keeps h n
  | railFallen n => exact execRailFallen_keeps h n
  | offWaitExpiry n => exact execOffWaitExpiry_keeps h n
  | railWarning n => exact execRailWarning_keeps h n
  | faultPulseEnd => exact execFaultPulseEnd_keeps h
  | faultInTrigger => exact execFaultInTrigger_keeps h
  | faultStuck => exact execFaultStuck_keeps h
  | faultRearm => exact execFaultRearm_keeps h
  | hostRstRelease => exact execHostRstRelease_keeps h
  | railAliveInRest n => exact execRailAliveInRest_keeps h n
  | symbolLock p => exact execSymbolLock_keeps h p
  | lockLoss p => exact execLockLoss_keeps h p
  | trainingSetRx p set rx => exact execTrainingSetRx_keeps h p set rx
  | alignComplete => exact execAlignComplete_keeps h
  | alignTimeout => exact execAlignTimeout_keeps h
  | rateIdleExpiry => exact execRateIdleExpiry_keeps h
  | eqDone ctle taps => exact execEqDone_keeps h ctle taps
  | confirmComplete skew us => exact execConfirmComplete_keeps h skew us
  | confirmTimeout => exact execConfirmTimeout_keeps h
  | idleEntry => exact execIdleEntry_keeps h
  | idleExit => exact execIdleExit_keeps h
  | eiosRx => exact execEiosRx_keeps h
  | bankStart => exact execBankStart_keeps h
  | bnkRx => exact execBnkRx_keeps h
  | bankNoAnswer => exact execBankNoAnswer_keeps h
  | bankWake signal => exact execBankWake_keeps h signal
  | wakeComplete => exact execWakeComplete_keeps h
  | wakeFail => exact execWakeFail_keeps h
  | codeErrorRetrain errs => exact execCodeErrorRetrain_keeps h errs
  | silenceTimeout => exact execSilenceTimeout_keeps h
  | refclkFault => exact execRefclkFault_keeps h
  | refclkGood => exact execRefclkGood_keeps h
  | eyeStep p => exact execEyeStep_keeps h p
  | eyeStepEnd p errs => exact execEyeStepEnd_keeps h p errs
  | frameRx bytes ending => exact execFrameRx_keeps h bytes ending
  | ackTimer => exact execAckTimer_keeps h
  | ackRx => exact execAckRx_keeps h
  | nakRx => exact execNakRx_keeps h
  | replayTimeout => exact execReplayTimeout_keeps h
  | dataRx => exact execDataRx_keeps h
  | closeRx => exact execCloseRx_keeps h
  | retireRx => exact execRetireRx_keeps h
  | dirtyRx => exact execDirtyRx_keeps h
  | shutdownRx => exact execShutdownRx_keeps h
  | ctrlReqRx => exact execCtrlReqRx_keeps h
  | resumeSend => exact execResumeSend_keeps h
  | pageProgramDone d bits => exact execPageProgramDone_keeps h d bits
  | programFail d q => exact execProgramFail_keeps h d q
  | pageWaitExpiry => exact execPageWaitExpiry_keeps h
  | drainWindowExpiry => exact execDrainWindowExpiry_keeps h
  | pwdDrainExpiry => exact execPwdDrainExpiry_keeps h
  | pwdSealExpiry => exact execPwdSealExpiry_keeps h
  | summaryWritten ok => exact execSummaryWritten_keeps h ok
  | offStart => exact execOffStart_keeps h
  | pwdOffExpiry => exact execPwdOffExpiry_keeps h
  | restSupplyPresent => exact execRestSupplyPresent_keeps h
  | shakeStart => exact execShakeStart_keeps h
  | shakePause => exact execShakePause_keeps h
  | shakeConfirm => exact execShakeConfirm_keeps h
  | shakeoutReadDone d bits crcOk => exact execShakeoutReadDone_keeps h d bits crcOk
  | eraseStart => exact execEraseStart_keeps h
  | eraseDone outcome => exact execEraseDone_keeps h outcome
  | eraseSuspend => exact execEraseSuspend_keeps h
  | eraseResume => exact execEraseResume_keeps h
  | scanDone dies maps half outcome us => exact execScanDone_keeps h dies maps half outcome us
  | dfEraseStart => exact execDfEraseStart_keeps h
  | dfEraseSuspend => exact execDfEraseSuspend_keeps h
  | dfEraseDone ok => exact execDfEraseDone_keeps h ok
  | busyBankFault bank => exact execBusyBankFault_keeps h bank
  | fwEraseDone ok => exact execFwEraseDone_keeps h ok
  | windowWriteDone ok => exact execWindowWriteDone_keeps h ok
  | fwVerifyDone => exact execFwVerifyDone_keeps h
  | debugPasswordEntry password => exact execDebugPasswordEntry_keeps h password
  | bootAnnouncement => exact execBootAnnouncement_keeps h
  | heartbeatTx => exact execHeartbeatTx_keeps h
  | heartbeatRx node payload => exact execHeartbeatRx_keeps h node payload
  | bootAnnouncementRx node payload => exact execBootAnnouncementRx_keeps h node payload
  | memberAbsent k => exact execMemberAbsent_keeps h k
  | pourCommandRx node payload => exact execPourCommandRx_keeps h node payload
  | faultRelayRx node payload => exact execFaultRelayRx_keeps h node payload
  | pourPulseEnd => exact execPourPulseEnd_keeps h
  | pourCommandAbandon => exact .next (abandonCan_keeps _ h)
  | pourInTrigger => exact execPourInTrigger_keeps h
  | pourStuck => exact execPourStuck_keeps h
  | busDominant => exact execBusDominant_keeps h
  | busDominantEnd => exact execBusDominantEnd_keeps h
  | staggerReferenceRx node payload => exact execStaggerReferenceRx_keeps h node payload
  | heatAssignmentRx node payload => exact execHeatAssignmentRx_keeps h node payload
  | heatBroadcastAbandon => exact .next (abandonCan_keeps _ h)
  | stampSyncTx => exact execStampSyncTx_keeps h
  | stampSyncRx node payload => exact execStampSyncRx_keeps h node payload
  | eventFrameRx node payload => exact execEventFrameRx_keeps h node payload
  | fwDistStep abort data => exact execFwDistStep_keeps h abort data
  | fwDistGuardTimeout => exact execFwDistGuardTimeout_keeps h
  | logFlush => exact execLogFlush_keeps h
  | svcWashdownAbandon => exact execSvcWashdownAbandon_keeps h
  | heartbeatReturn => exact execHeartbeatReturn_keeps h
  | deskewLoss p => exact execDeskewLoss_keeps h p
  | idleExitLockTimeout p => exact execIdleExitLockTimeout_keeps h p
  | rxIdleExit => exact execRxIdleExit_keeps h
  | bankRefusalRx eios => exact execBankRefusalRx_keeps h eios
  | dfeTapAtLimit p tap low => exact execDfeTapAtLimit_keeps h p tap low
  | commitGapExpiry => exact execCommitGapExpiry_keeps h
  | confirmationWritten => exact execConfirmationWritten_keeps h
  | protectionRecordWritten ok => exact execProtectionRecordWritten_keeps h ok
  | busOff => exact execBusOff_keeps h
  | busOffRecovery => exact execBusOffRecovery_keeps h
  | debugHalt => exact execDebugHalt_keeps h
  | debugResume => exact .next (keeps_mk.2 h)
  | canRequestRx addr fd bytes => exact execCanRequestRx_keeps h addr fd bytes

end

theorem exec_next_keeps {c : Instr} {s t : State} (e : exec c s = .next t) : Keeps s t := by
  have h := exec_keeps (Keeps.refl s) c
  rwa [e] at h

/-- A step keeps the invariant, and what waits after it is what stood behind the front of the queue; an empty
queue idles (log entry 7). -/
theorem step_keeps {s t : State} (e : step s = .next t) : Keeps { s with pending := s.pending.tail } t := by
  unfold step at e
  split at e
  next hp =>
    cases e
    exact ⟨by rw [hp]; rfl, id⟩
  next hp =>
    rw [hp]
    exact exec_next_keeps e

/-- Settles O50: every command leaves the queue alone and keeps the invariant (`exec_keeps`), and a step runs one on the
state whose queue has lost its front. -/
theorem everyStepKeepsTheInvariant : Obligations.EveryStepKeepsTheInvariant :=
  ⟨fun _ _ e => (step_keeps e).2, fun _ _ e => (step_keeps e).1⟩

end Sys2Proof.Machine
end

section
/-! PROOF. Resets of the logic side (spec/01_architecture.md R21, R22, R27; spec/03_package_and_pads.md R98): what they cut off, the
registers they renew, and the stores that live through them. -/
namespace Sys2Proof.Machine

/-! ### What a reset cuts off -/

/-- What the cuts of a reset may touch: the stores, the two counts of words and bytes programmed, the next free value. -/
def CutOff (s t : State) : Prop :=
  ∃ reg fla ring sto fw free,
    t = { s with reg := reg, fla := fla, log := { s.log with ring := ring }, sto := sto, fw := fw, free := free }
    ∧ ∀ k, k ∉ [Reg.wordsProgrammed, Reg.fwProgress] → t.rd k = s.rd k

namespace CutOff

theorem refl (s) : CutOff s s := ⟨s.reg, s.fla, s.log.ring, s.sto, s.fw, s.free, rfl, fun _ _ => rfl⟩

theorem trans {s t u} (h1 : CutOff s t) (h2 : CutOff t u) : CutOff s u := by
  obtain ⟨_, _, _, _, _, _, rfl, k1⟩ := h1
  obtain ⟨_, _, _, _, _, _, rfl, k2⟩ := h2
  exact ⟨_, _, _, _, _, _, rfl, fun k hk => (k2 k hk).trans (k1 k hk)⟩

theorem rd {s t} (h : CutOff s t) {k} (hk : k ∉ [Reg.wordsProgrammed, Reg.fwProgress]) : t.rd k = s.rd k := by
  obtain ⟨_, _, _, _, _, _, _, k1⟩ := h
  exact k1 k hk

theorem hv {s t} (h : CutOff s t) : t.hv = s.hv := by obtain ⟨_, _, _, _, _, _, rfl, _⟩ := h; rfl
theorem sup {s t} (h : CutOff s t) : t.sup = s.sup := by obtain ⟨_, _, _, _, _, _, rfl, _⟩ := h; rfl
theorem pads {s t} (h : CutOff s t) : t.pads = s.pads := by obtain ⟨_, _, _, _, _, _, rfl, _⟩ := h; rfl
theorem clk {s t} (h : CutOff s t) : t.clk = s.clk := by obtain ⟨_, _, _, _, _, _, rfl, _⟩ := h; rfl

end CutOff

theorem cutOff_setCopy (s : State) (b c) : CutOff s (s.setCopy b c) := by
  unfold State.setCopy
  split <;> exact ⟨_, _, _, _, _, _, rfl, fun _ _ => rfl⟩

theorem cutOff_tearSector (s : State) (b n) : CutOff s (s.tearSector b n) := by
  unfold State.tearSector
  split
  · exact cutOff_setCopy ..
  · split <;> exact ⟨_, _, _, _, _, _, rfl, fun _ _ => rfl⟩

theorem cutOff_cutErase (s : State) : CutOff s s.cutErase := by
  unfold State.cutErase
  split
  · exact ⟨_, _, _, _, _, _, rfl, fun _ _ => rfl⟩
  · exact .refl s

/-! ### The dies -/

/-- A state that differs from another in the contents of its dies alone. -/
def NandOnly (s t : State) : Prop := ∃ nand, t = { s with sto := { s.sto with nand := nand } }

theorem NandOnly.refl (s) : NandOnly s s := ⟨_, rfl⟩

theorem NandOnly.setBlk {s t} (k b) (h : NandOnly s t) : NandOnly s (t.setBlk k b) := by
  obtain ⟨_, rfl⟩ := h
  exact ⟨_, rfl⟩

theorem NandOnly.cutOff {s t} (h : NandOnly s t) : CutOff s t := by
  obtain ⟨_, rfl⟩ := h
  exact ⟨_, _, _, _, _, _, rfl, fun _ _ => rfl⟩

theorem NandOnly.fw {s t} (h : NandOnly s t) : t.fw = s.fw := by obtain ⟨_, rfl⟩ := h; rfl
theorem NandOnly.fla {s t} (h : NandOnly s t) : t.fla = s.fla := by obtain ⟨_, rfl⟩ := h; rfl
theorem NandOnly.log {s t} (h : NandOnly s t) : t.log = s.log := by obtain ⟨_, rfl⟩ := h; rfl

theorem NandOnly.each_landPage {s t} (l : List Page) (torn) (h : NandOnly s t) :
    NandOnly s (t.each l (fun p s => s.landPage p torn)) := by
  unfold State.each
  induction l generalizing t with
  | nil => exact h
  | cons p l ih => exact ih (h.setBlk _ _)

theorem nandOnly_cutStore (s : State) (warm) : NandOnly s (s.cutStore warm) := by
  have hp := (NandOnly.refl s).each_landPage (s.sto.pages.filter (fun p => p.busy)) (!warm)
  unfold State.cutStore
  dsimp only
  split
  · exact hp.setBlk _ _
  · exact hp

theorem cutStore_of_idle {s : State} (warm) (he : s.sto.erase = none) (hp : ∀ p ∈ s.sto.pages, p.busy = false) :
    s.cutStore warm = s := by
  have hb : s.sto.pages.filter (fun p => p.busy) = [] := List.filter_eq_nil_iff.2 fun p h => by simp [hp p h]
  simp only [State.cutStore, hb, State.each, List.foldl_nil, he]

/-! ### The words of a window write -/

theorem tget_progWords (t : Table Nat) (w n : Nat) (l : List Nat) {i : Nat} (h : i < w ∨ w + n ≤ i) :
    tget wordErased (progWords t w n l) i = tget wordErased t i := by
  induction n generalizing t w l with
  | zero => rfl
  | succ n ih => rw [progWords, ih _ _ _ (by omega), tget_tset_ne _ _ _ _ (by omega)]

/-- Outside the words of a window write nothing is programmed (R423). -/
theorem tget_partWords (s : State) (w : WinWrite) {i : Nat} (h : i < w.addr / 8 ∨ w.addr / 8 + w.data.length / 8 ≤ i) :
    tget wordErased (s.partWords w) i = tget wordErased s.fw.code i := by
  have hk : s.freeVal % (w.data.length / 8 + 1) ≤ w.data.length / 8 := Nat.le_of_lt_succ (Nat.mod_lt _ (Nat.succ_pos _))
  unfold State.partWords
  dsimp only
  split
  · rw [tget_tset_ne _ _ _ _ (by omega), tget_progWords _ _ _ _ (by omega)]
  · exact tget_progWords _ _ _ _ (by omega)

/-- A byte of the code flash reads the same where its word does and no slot was dropped or cut off. -/
theorem State.codeByte_congr {s t : State} {a : Nat}
    (hw : tget wordErased t.fw.code (a / 8) = tget wordErased s.fw.code (a / 8)) (hc : t.fw.cut = s.fw.cut)
    (hs : t.fw.shipped = s.fw.shipped) : t.codeByte a = s.codeByte a := by
  simp only [State.codeByte, hw, hc, hs]

/-- The code flash was the same before. -/
theorem CodeKept.of_fw {s u t : State} (h : CodeKept u t) (e : u.fw = s.fw) : CodeKept s t := by
  simp only [CodeKept, State.codeByte, e] at h ⊢
  exact h

/-- What a cut-off window write leaves: words of its own, two counts, three free values (R423). -/
theorem cutWrite_eq (s : State) : ∃ reg free code,
    s.cutWrite = { s with reg := reg, free := free, fw := { s.fw with write := none, code := code } }
    ∧ (∀ k, k ∉ [Reg.wordsProgrammed, Reg.fwProgress] → s.cutWrite.rd k = s.rd k)
    ∧ ∀ i, (∀ w, s.fw.write = some w → i < w.addr / 8 ∨ w.addr / 8 + w.data.length / 8 ≤ i) →
        tget wordErased code i = tget wordErased s.fw.code i := by
  unfold State.cutWrite
  cases hw : s.fw.write with
  | none =>
    have e : { s.fw with write := none, code := s.fw.code } = s.fw := by rw [← hw]
    exact ⟨s.reg, s.free, s.fw.code, by rw [e], fun _ _ => rfl, fun _ _ => rfl⟩
  | some w =>
    refine ⟨_, _, s.partWords w, rfl, fun k hk => ?_, fun i hi => tget_partWords s w (hi w rfl)⟩
    simp only [List.mem_cons, List.not_mem_nil, or_false, not_or] at hk
    exact (State.rd_wr_ne _ _ hk.2).trans (State.rd_wr_ne _ _ hk.1)

theorem cutOff_cutWrite (s : State) : CutOff s s.cutWrite := by
  obtain ⟨reg, free, code, e, hr, _⟩ := cutWrite_eq s
  rw [e] at hr ⊢
  exact ⟨_, _, _, _, _, _, rfl, hr⟩

theorem codeKept_cutWrite (s : State) : CodeKept s s.cutWrite := by
  obtain ⟨reg, free, code, e, _, hc⟩ := cutWrite_eq s
  rw [e]
  exact fun a ha => State.codeByte_congr (hc _ ha) rfl rfl

/-! ### The on-chip flash -/

theorem cutOff_cutFlash (s : State) : CutOff s s.cutFlash := by
  unfold State.cutFlash
  extract_lets t u
  have ht : CutOff s t := by
    unfold t
    split
    · exact cutOff_tearSector ..
    · exact .refl s
  have hu : CutOff s u := by
    unfold u
    split
    · split
      · exact ht.trans (cutOff_setCopy ..)
      · exact ht
    · exact ht
  exact (hu.trans (cutOff_cutWrite u)).trans (cutOff_cutErase _)

theorem cutErase_of_ne {s : State} (h : s.rd Reg.fwState ≠ 1) : s.cutErase = s := by
  unfold State.cutErase
  exact if_neg h

theorem cutErase_cutWrite {s : State} (h : s.rd Reg.fwState ≠ 1) : s.cutWrite.cutErase = s.cutWrite :=
  cutErase_of_ne (by rwa [(cutOff_cutWrite s).rd (by decide)])

/-- A state that differs from another in the config copies alone. -/
def CopiesOnly (s t : State) : Prop := ∃ cope drag, t = { s with fla := { s.fla with cope := cope, drag := drag } }

theorem CopiesOnly.refl (s) : CopiesOnly s s := ⟨_, _, rfl⟩

theorem copiesOnly_setCopy (s : State) (b c) : CopiesOnly s (s.setCopy b c) := by
  unfold State.setCopy
  split <;> exact ⟨_, _, rfl⟩

/-- With no erase under way a reset cuts off a commit's copy and a window write (R58, R423). -/
theorem cutFlash_of_noErase {s : State} (he : s.fla.erase = none) (hf : s.rd Reg.fwState ≠ 1) :
    ∃ u, s.cutFlash = u.cutWrite ∧ CopiesOnly s u ∧ (s.svc.commit = none → u = s) := by
  unfold State.cutFlash
  extract_lets t u
  have ht : t = s := by simp only [t, he]
  have hu : CopiesOnly s u ∧ (s.svc.commit = none → u = s) := by
    unfold u
    rw [ht]
    split
    next b _ hc =>
      refine ⟨?_, fun h => by simp [h] at hc⟩
      split
      · exact copiesOnly_setCopy s b .torn
      · exact .refl s
    next => exact ⟨.refl s, fun _ => rfl⟩
  refine ⟨u, cutErase_cutWrite ?_, hu⟩
  obtain ⟨⟨_, _, e⟩, _⟩ := hu
  rwa [e]

/-- What a reset finds in the stores after its cuts, where no erase was under way. -/
theorem cutFlash_stores {s : State} (he : s.fla.erase = none) (hf : s.rd Reg.fwState ≠ 1) :
    CodeKept s s.cutFlash ∧ s.cutFlash.fw.record = s.fw.record ∧ s.cutFlash.sto = s.sto ∧ s.cutFlash.log = s.log
    ∧ s.cutFlash.fla.sums = s.fla.sums
    ∧ (s.svc.commit = none → s.cutFlash.fla.cope = s.fla.cope ∧ s.cutFlash.fla.drag = s.fla.drag) := by
  obtain ⟨u, e, ⟨_, _, hu⟩, hc⟩ := cutFlash_of_noErase he hf
  have hk : CodeKept s u.cutWrite := (codeKept_cutWrite u).of_fw (by rw [hu])
  obtain ⟨_, _, _, ew, _⟩ := cutWrite_eq u
  rw [e]
  refine ⟨hk, ?_⟩
  rw [ew]
  refine ⟨by rw [hu], by rw [hu], by rw [hu], by rw [hu], fun h => ?_⟩
  rw [hc h]
  exact ⟨rfl, rfl⟩

/-! ### The registers and the parts that start anew -/

theorem tget_filter_key {α : Type} (d : α) (t : Table α) (p : Nat → Bool) (q : Nat) :
    tget d (t.filter (fun e => p e.1)) q = if p q = true then tget d t q else d := by
  induction t with
  | nil => simp [tget]
  | cons e t ih =>
    obtain ⟨k, v⟩ := e
    by_cases hk : q = k
    · subst hk
      by_cases hp : p q = true <;> simp_all [tget]
    · by_cases hp : p k = true <;> simp_all [tget]

/-- The state that a reset's new one is built from: what the cuts leave. -/
theorem cutOff_cuts (s : State) (warm) : CutOff s (s.cutFlash.cutStore warm) :=
  (cutOff_cutFlash s).trans (nandOnly_cutStore _ warm).cutOff

section
variable (s : State) (warm : Bool) (cause : Nat) (held : Bool)

theorem resetLogic_phase : (s.resetLogic warm cause held).phase = .idle := rfl
theorem resetLogic_up : (s.resetLogic warm cause held).bar.up = false := rfl
theorem resetLogic_queue : (s.resetLogic warm cause held).log.queue = [] := rfl
theorem resetLogic_running : (s.resetLogic warm cause held).sup.running = false := rfl
theorem resetLogic_coldBoot : (s.resetLogic warm cause held).sup.coldBoot = !warm := rfl

/-- Every register of the logic die is new, but for the four that tell of the reset (R98, R254). -/
theorem rd_resetLogic_default {k : Nat} (hk : k ∉ [Reg.resetCause, Reg.seqLatch, Reg.failedRail, Reg.pwAttemptsLeft]) :
    (s.resetLogic warm cause held).rd k = dfltAt k := by
  simp only [List.mem_cons, List.not_mem_nil, or_false, not_or] at hk
  obtain ⟨h1, h2, h3, h4⟩ := hk
  unfold State.resetLogic
  dsimp only
  rw [State.rd_wr_ne _ _ h4, State.rd_wr_ne _ _ h3, State.rd_wr_ne _ _ h2, State.rd_wr_ne _ _ h1]
  rfl

theorem rd_resetLogic_cause : (s.resetLogic warm cause held).rd Reg.resetCause = fit Reg.resetCause cause := by
  unfold State.resetLogic
  dsimp only
  rw [State.rd_wr_ne _ _ (by decide), State.rd_wr_ne _ _ (by decide), State.rd_wr_ne _ _ (by decide), State.rd_wr_same]
  rfl

/-- Every attempt at the password is given again by a power-on reset (R98). -/
theorem rd_resetLogic_attempts : (s.resetLogic false cause held).rd Reg.pwAttemptsLeft = 8 := by
  unfold State.resetLogic
  dsimp only
  rw [State.rd_wr_same]
  rfl

variable {s} (hb : s.pads.b4 = false)
include hb

theorem cuts_b4 : (s.cutFlash.cutStore warm).pads.b4 = false := by rw [(cutOff_cuts s warm).pads, hb]

/-- The sequencer's latch lives through a warm reset (R254). -/
theorem rd_resetLogic_seqLatch :
    (s.resetLogic warm cause held).rd Reg.seqLatch = fit Reg.seqLatch (if warm = true then s.rd Reg.seqLatch else 0) := by
  unfold State.resetLogic
  simp only [cuts_b4 warm hb, Bool.false_eq_true, if_false, (cutOff_cuts s warm).rd (k := Reg.seqLatch) (by decide)]
  rw [State.rd_wr_ne _ _ (by decide), State.rd_wr_ne _ _ (by decide), State.rd_wr_same]
  rfl

theorem resetLogic_sup : (s.resetLogic warm cause held).sup =
    { s.sup with
      bootDue := decide (s.sup.source ≠ .off), coldBoot := !warm, running := false, usbUp := false, romOnly := false } := by
  unfold State.resetLogic
  simp only [cuts_b4 warm hb, Bool.false_eq_true, if_false, (cutOff_cuts s warm).sup]
  rfl

theorem resetLogic_count : (s.resetLogic warm cause held).clk.count = if warm = true then s.clk.count else 0 := by
  unfold State.resetLogic
  simp only [cuts_b4 warm hb, Bool.false_eq_true, if_false, (cutOff_cuts s warm).clk]
  rfl

/-- The HV die lives on; of its settings the time base's and the feeds' go back to their built-in values (R142, R160, R175). -/
theorem resetLogic_hvKept : HvKept held s (s.resetLogic warm cause held) := by
  intro k
  have e : (s.resetLogic warm cause held).hv = s.hv.filter (fun e => !(isSetting e.1 && builtInAgain held e.1)) := by
    unfold State.resetLogic
    simp only [cuts_b4 warm hb, Bool.false_eq_true, if_false, (cutOff_cuts s warm).hv]
    rfl
  have ht := tget_filter_key (dfltAt k) s.hv (fun q => !(isSetting q && builtInAgain held q)) k
  simp only [State.hrd, e, ht]
  cases isSetting k <;> cases builtInAgain held k <;> rfl

end

/-! ### What every reset leaves -/

/-- What a reset of the logic side leaves of it and of the HV die, whatever its cause (R98). -/
structure Renewed (held : Bool) (s t : State) : Prop where
  running : t.sup.running = false
  phase : t.phase = .idle
  up : t.bar.up = false
  queue : t.log.queue = []
  registers : ∀ k, k ∉ [Reg.resetCause, Reg.seqLatch, Reg.failedRail, Reg.pwAttemptsLeft] → t.rd k = dfltAt k
  hv : HvKept held s t

theorem resetLogic_renewed {s : State} (warm cause held) (hb : s.pads.b4 = false) :
    Renewed held s (s.resetLogic warm cause held) where
  running := resetLogic_running s warm cause held
  phase := resetLogic_phase s warm cause held
  up := resetLogic_up s warm cause held
  queue := resetLogic_queue s warm cause held
  registers _ hk := rd_resetLogic_default s warm cause held hk
  hv := resetLogic_hvKept warm cause held hb

/-- The stores after a reset are those that its cuts left; the log is torn where it was being written (R122, R468). -/
theorem resetLogic_stores {s : State} (warm cause held) (hb : s.pads.b4 = false) :
    let t := s.resetLogic warm cause held
    let u := s.cutFlash.cutStore warm
    (∀ a, t.codeByte a = s.cutFlash.codeByte a) ∧ t.fw.record = s.cutFlash.fw.record ∧ t.sto.nand = u.sto.nand
    ∧ t.fla.cope = s.cutFlash.fla.cope ∧ t.fla.drag = s.cutFlash.fla.drag ∧ t.fla.sums = s.cutFlash.fla.sums
    ∧ t.log.ring = (s.cutFlash.log.reset warm).ring := by
  have hn := nandOnly_cutStore s.cutFlash warm
  unfold State.resetLogic
  simp only [cuts_b4 warm hb, Bool.false_eq_true, if_false, hn.fw, hn.fla, hn.log]
  exact ⟨fun _ => rfl, rfl, rfl, rfl, rfl, rfl, rfl⟩

/-- A reset with no erase under way leaves the code flash but for a window write, the protection record, and the ring but for
what was being written. -/
theorem resetLogic_keeps_code {s : State} (warm cause held) (hb : s.pads.b4 = false) (he : s.fla.erase = none)
    (hf : s.rd Reg.fwState ≠ 1) :
    CodeKept s (s.resetLogic warm cause held) ∧ (s.resetLogic warm cause held).fw.record = s.fw.record
    ∧ (s.resetLogic warm cause held).log.ring = (s.log.reset warm).ring := by
  obtain ⟨hc, hr, _, hl, _, _⟩ := cutFlash_stores he hf
  obtain ⟨kc, kr, _, _, _, _, kl⟩ := resetLogic_stores warm cause held hb
  exact ⟨fun a ha => (kc a).trans (hc a ha), kr.trans hr, by rw [kl, hl]⟩

/-- A warm reset with nothing being written leaves every store as it was. -/
theorem resetLogic_keeps_stores {s : State} (cause held) (hb : s.pads.b4 = false) (he : s.fla.erase = none)
    (hf : s.rd Reg.fwState ≠ 1) (hm : s.svc.commit = none) (hs : s.sto.erase = none)
    (hp : ∀ p ∈ s.sto.pages, p.busy = false) :
    StoresKept s (s.resetLogic true cause held) ∧ (s.resetLogic true cause held).log.ring = s.log.ring := by
  obtain ⟨hc, hr, hl⟩ := resetLogic_keeps_code true cause held hb he hf
  obtain ⟨_, _, hsto, _, hsum, hcopy⟩ := cutFlash_stores he hf
  obtain ⟨hcope, hdrag⟩ := hcopy hm
  obtain ⟨_, _, kn, kco, kd, ks, _⟩ := resetLogic_stores true cause held hb
  have hn : s.cutFlash.cutStore true = s.cutFlash := cutStore_of_idle true (by rw [hsto, hs]) (by rwa [hsto])
  exact ⟨⟨hc, hr, by rw [kn, hn, hsto], kco.trans hcope, kd.trans hdrag, ks.trans hsum, .of_eq hl⟩, hl⟩

/-- A slot of the ring after a loss of the supply: torn where it was being written (R122, R468). -/
theorem slot_reset (l : Log) (n : Nat) :
    tget .blank (l.reset false).ring n = if l.writing.contains n = true then .torn else tget .blank l.ring n := by
  unfold Log.reset
  simp only [Bool.false_eq_true, if_false]
  generalize l.ring = t
  induction l.writing generalizing t with
  | nil => rfl
  | cons m w ih =>
    rw [List.foldl_cons, ih, tget_tset]
    by_cases h : n = m <;> by_cases hw : n ∈ w <;> simp [h, hw]

/-! ### Warm resets the firmware takes on its own (R471) -/

theorem Renewed.of_hv {held s u t} (h : Renewed held u t) (e : u.hv = s.hv) : Renewed held s t where
  running := h.running
  phase := h.phase
  up := h.up
  queue := h.queue
  registers := h.registers
  hv k := by rw [h.hv k, State.hrd_congr e]

/-- Creating events leaves all of the module alone that a reset keeps; it touches the erase queue, not the erase under way. -/
theorem LogOnly.outside {s t} (h : LogOnly s t) :
    t.hv = s.hv ∧ t.pads = s.pads ∧ t.sup = s.sup ∧ t.fw = s.fw ∧ t.svc = s.svc ∧ t.sto = s.sto
    ∧ t.fla.erase = s.fla.erase ∧ t.fla.cope = s.fla.cope ∧ t.fla.drag = s.fla.drag ∧ t.fla.sums = s.fla.sums := by
  obtain ⟨_, _, _, _, _, rfl, _⟩ := h
  exact ⟨rfl, rfl, rfl, rfl, rfl, rfl, rfl, rfl, rfl, rfl⟩

theorem LogOnly.ringKept {s t} (h : LogOnly s t) : RingKept s t := by
  obtain ⟨_, _, _, _, _, _, _, hr⟩ := h
  exact hr

theorem logOnly_beforeWarmReset (s : State) : LogOnly s s.flushLog := logOnly_flushLog (.refl s)

theorem warmReset_renewed {s : State} (cause held) (hb : s.pads.b4 = false) :
    Renewed held s (s.warmReset cause held) := by
  obtain ⟨hhv, hpads, _⟩ := (logOnly_beforeWarmReset s).outside
  exact (resetLogic_renewed true cause held (by rw [hpads, hb])).of_hv hhv

theorem warmReset_cause (s : State) (cause held) : (s.warmReset cause held).rd Reg.resetCause = fit Reg.resetCause cause :=
  rd_resetLogic_cause ..

theorem warmReset_sup {s : State} (cause held) (hb : s.pads.b4 = false) :
    (s.warmReset cause held).sup.bootDue = decide (s.sup.source ≠ .off) := by
  obtain ⟨_, hpads, hsup, _⟩ := (logOnly_beforeWarmReset s).outside
  rw [State.warmReset, resetLogic_sup true cause held (by rw [hpads, hb]), hsup]

/-- A warm reset of the firmware's own writes the log's queue first, and leaves every store as it was. -/
theorem warmReset_keeps_stores {s : State} (cause held) (hb : s.pads.b4 = false) (he : s.fla.erase = none)
    (hf : s.rd Reg.fwState ≠ 1) (hm : s.svc.commit = none) (hs : s.sto.erase = none)
    (hp : ∀ p ∈ s.sto.pages, p.busy = false) :
    StoresKept s (s.warmReset cause held) := by
  have hl := logOnly_beforeWarmReset s
  obtain ⟨_, hpads, _, hfw, hsvc, hsto, herase, hcope, hdrag, hsums⟩ := hl.outside
  obtain ⟨⟨kc, kr, kn, kco, kd, ks, kl⟩, _⟩ := resetLogic_keeps_stores (s := s.flushLog) cause held (by rw [hpads, hb])
    (herase.trans he) (by rwa [hl.rd (by decide)]) (by rw [hsvc, hm]) (by rw [hsto, hs]) (by rwa [hsto])
  exact ⟨kc.of_fw hfw, by rw [State.warmReset, kr, hfw], by rw [State.warmReset, kn, hsto], kco.trans hcope, kd.trans hdrag,
    ks.trans hsums, hl.ringKept.trans kl⟩

/-! ### The commands -/

theorem exec_powerOnReset {s : State} (h1 : s.sup.source = .off) (h2 : s.firstSource ≠ .off) :
    exec .powerOnReset s = .next (s.powerReset s.firstSource) :=
  if_pos (by simp [h1, h2])

theorem exec_logicSupplyLoss {s : State} (h1 : s.sup.source ≠ .off) (h2 : s.firstSource = .off) :
    exec .logicSupplyLoss s = .next (s.powerReset s.firstSource) :=
  if_pos (by simp [h1, h2])

theorem exec_hwWatchdogExpiry {s : State} (h1 : s.sup.source ≠ .off) (h2 : s.bar.halted = false) :
    exec .hwWatchdogExpiry s = .next (s.resetLogic true 1 false) :=
  if_pos (by simp [h1, h2])

theorem exec_barrierReset {s : State} (h1 : s.sup.running = true) (h2 : s.phase = .guard) (h3 : s.sup.iso = true)
    (h4 : s.bar.lost = true ∨ s.bar.pathLost = true) (h5 : 65536 ≤ s.bar.lostTicks) :
    exec .barrierReset s = .next (s.warmReset 3 false) :=
  if_pos (by simp [h1, h2, h3, h4, h5, State.pouring])

theorem exec_busyBankFault {s : State} {b : Fin 4} (h1 : s.sup.running = true) (h2 : s.bankBusyNow.testBit b = true) :
    exec (.busyBankFault b) s = .next (((s.bump Reg.busyFaults).event 0x4201 0xFF b).warmReset 4 false) :=
  if_pos (by simp [h1, h2])

/-- A reset at the rise or the loss of a supply (R27, R98). -/
theorem powerReset_renewed {s : State} (src) (hb : s.pads.b4 = false) : Renewed false s (s.powerReset src) :=
  (resetLogic_renewed (s := { s with sup := { s.sup with source := src } }) false 0 false hb).of_hv rfl

theorem powerReset_sup {s : State} (src) (hb : s.pads.b4 = false) :
    (s.powerReset src).sup.source = src ∧ (s.powerReset src).sup.bootDue = decide (src ≠ .off) := by
  rw [State.powerReset, resetLogic_sup false 0 false (by exact hb)]
  exact ⟨rfl, rfl⟩

theorem powerReset_keeps_code {s : State} (src) (hb : s.pads.b4 = false) (he : s.fla.erase = none) (hf : s.rd Reg.fwState ≠ 1) :
    CodeKept s (s.powerReset src) ∧ (s.powerReset src).fw.record = s.fw.record
    ∧ (s.powerReset src).log.ring = (s.log.reset false).ring :=
  resetLogic_keeps_code (s := { s with sup := { s.sup with source := src } }) false 0 false hb he hf

/-- What a power-on reset tells of itself (R98, R144). -/
theorem powerReset_tells {s : State} (src) (hb : s.pads.b4 = false) :
    (s.powerReset src).sup.coldBoot = true ∧ (s.powerReset src).rd Reg.resetCause = 0 ∧ (s.powerReset src).rd Reg.seqLatch = 0
    ∧ (s.powerReset src).rd Reg.pwAttemptsLeft = 8 ∧ (s.powerReset src).clk.count = 0 :=
  ⟨resetLogic_coldBoot .., rd_resetLogic_cause .., rd_resetLogic_seqLatch false 0 false (by exact hb),
    rd_resetLogic_attempts .., resetLogic_count false 0 false (by exact hb)⟩

/-- Settles O4: each command is one reset of the logic side; what it renews is `Renewed`, what lives through it the lemmas on its
stores. -/
theorem resetsLeaveTheStores : Obligations.ResetsLeaveTheStores := by
  refine ⟨fun s h1 h2 hb he hf hw => ?powerOn, fun s h1 h2 hb he hf => ?supplyLoss, fun s hh h1 hb hf he hm hs hp => ?watchdog,
    fun s hr hg hi hl ht h1 hb hf he hm hs hp => ?barrier, fun s b hr ht h1 hb => ?busyBank⟩
  case powerOn =>
    have hn := powerReset_renewed s.firstSource hb
    obtain ⟨hsrc, hdue⟩ := powerReset_sup s.firstSource hb
    obtain ⟨hcold, hcause, hlatch, hleft, hcount⟩ := powerReset_tells s.firstSource hb
    obtain ⟨hc, hrec, hring⟩ := powerReset_keeps_code s.firstSource hb he hf
    have hlog : (s.log.reset false).ring = s.log.ring := by simp [Log.reset, hw]
    exact ⟨_, exec_powerOnReset h1 h2, hsrc, by simp [hdue, h2], hcold, hn.running, hn.phase, hcause, hlatch, hleft, hcount,
      hn.registers, hn.hv, hc, hrec, hring.trans hlog⟩
  case supplyLoss =>
    have hn := powerReset_renewed s.firstSource hb
    obtain ⟨hsrc, hdue⟩ := powerReset_sup s.firstSource hb
    obtain ⟨hc, hrec, hring⟩ := powerReset_keeps_code s.firstSource hb he hf
    exact ⟨_, exec_logicSupplyLoss h1 h2, hsrc.trans h2, hdue.trans (by simp [h2]), hn.running, hn.phase, hn.registers, hn.hv, hc,
      hrec, fun n => by rw [State.slot, hring, slot_reset]; rfl⟩
  case watchdog =>
    have hn := resetLogic_renewed true 1 false hb
    have hsup := resetLogic_sup true 1 false hb
    obtain ⟨hst, hring⟩ := resetLogic_keeps_stores 1 false hb he hf hm hs hp
    exact ⟨_, exec_hwWatchdogExpiry h1 hh, rd_resetLogic_cause .., by simp [hsup, h1], resetLogic_coldBoot .., hn.running,
      hn.phase, resetLogic_count true 1 false hb, rd_resetLogic_seqLatch true 1 false hb, hn.queue, hn.registers, hn.hv, hring,
      hst⟩
  case barrier =>
    have hn := warmReset_renewed 3 false hb
    exact ⟨_, exec_barrierReset hr hg hi hl ht, warmReset_cause .., by simp [warmReset_sup 3 false hb, h1], hn.running, hn.phase,
      hn.up, hn.registers, hn.hv, warmReset_keeps_stores 3 false hb he hf hm hs hp⟩
  case busyBank =>
    have hb' : ((s.bump Reg.busyFaults).event 0x4201 0xFF b).pads.b4 = false := by simp [hb]
    have hn := (warmReset_renewed 4 false hb').of_hv (s := s) (by simp)
    exact ⟨_, exec_busyBankFault hr ht, warmReset_cause .., by simp [warmReset_sup 4 false hb', h1], hn.running, hn.phase,
      hn.registers, hn.hv⟩

end Sys2Proof.Machine
end

section
/-! PROOF. The share of the settings on the HV die (spec/01_architecture.md R23; spec/06_start_up.md R500; spec/08_ladle.md R203): a
share that names another LADLE_CELLS than the one in force changes the mean cell reading in the tick in which it is applied. -/
namespace Sys2Proof.Machine

/-- The share of a module whose only setting off its default is LADLE_CELLS, 4. -/
def fourCellFrame : CmdFrame := { seq := 1, sets := [(Reg.ladleCells, 4)], share := true }

/-- The power side has started again (R500): the HV die still runs on its built-in eight cells, four of which are there and read
2600 mV each, and the share with LADLE_CELLS 4 waits for it. -/
def fourCellShare : State :=
  { State.reset with
    taken := true, sup.main := true, sup.running := true, sup.source := .iso, reg := [(Reg.ladleCells, 4)],
    lad.v := [2600, 2600, 2600, 2600, 0, 0, 0, 0], bar.unapplied := [fourCellFrame] }

/-- It is a sound state in which the share is the next frame in order. -/
theorem fourCellShare_waits : fourCellShare.inv = true ∧ fourCellShare.sup.main = true
    ∧ fourCellShare.bar.unapplied.find? (fun g => g.seq = fourCellShare.bar.hvSeq + 1) = some fourCellFrame
    ∧ fourCellFrame.sets = fourCellShare.hvSettings := by decide +kernel

theorem exec_fourCellShare :
    exec (.commandFrameRx true (fourCellShare.bar.hvSeq + 1)) fourCellShare = .next (fourCellShare.applyFrame fourCellFrame) := rfl

/-- The mean over the eight cells of before. -/
theorem fourCellShare_meanUv : fourCellShare.meanUv = 1300000 := by decide +kernel

/-- V_cmd is set to the mean over the four cells that are in force with the share (R203). -/
theorem fourCellShare_vcmd : (fourCellShare.applyFrame fourCellFrame).lad.vcmd = 2600000 := by decide +kernel

theorem fourCellShare_targetEff : (fourCellShare.applyFrame fourCellFrame).rd Reg.targetEff = 2460 := by decide +kernel

/-- Refutes O13: its clause on a whole share gives V_cmd by the mean cell reading of the state before, while the share may change
LADLE_CELLS and with it the cells that R203's mean is taken over. In `fourCellShare` V_cmd is set to 2600 mV, the mean over the four
cells in force from then on; the clause gives 2460 mV, TARGET_EFF, because the mean over the eight cells of before is 1300 mV. -/
theorem not_barrierFramesCarryTheSides : ¬ Obligations.BarrierFramesCarryTheSides := by
  rintro ⟨_, _, _, _, _, _, _, _, hshare, _⟩
  obtain ⟨_, hmain, hnext, hsets⟩ := fourCellShare_waits
  obtain ⟨t, he, _, _, hvcmd, _⟩ := hshare fourCellShare fourCellFrame hmain hnext rfl hsets
  obtain rfl : fourCellShare.applyFrame fourCellFrame = t := by
    rw [exec_fourCellShare] at he
    injection he
  rw [fourCellShare_vcmd, fourCellShare_targetEff, fourCellShare_meanUv] at hvcmd
  exact absurd hvcmd (by decide)

end Sys2Proof.Machine
end

section
/-! PROOF. A write that is let through: what becomes of a request that `State.lets` takes (spec/02_object_dictionary.md R50-R53,
R71-R76), whichever command parameter it names. -/
namespace Sys2Proof.Machine

/-! ### Nothing but the service's state -/

theorem SvcOnly.rd {s t} (h : SvcOnly s t) (k) : t.rd k = s.rd k := by rw [h]; rfl
theorem SvcOnly.stopAt {s t} (h : SvcOnly s t) : t.stopAt = s.stopAt := by rw [h]
theorem SvcOnly.atStep {s t} (h : SvcOnly s t) (n) : t.atStep n = s.atStep n := by rw [h]; rfl
theorem SvcOnly.padIsOff {s t} (h : SvcOnly s t) (p) : t.padIsOff p = s.padIsOff p := by rw [h]; rfl

theorem SvcOnly.frame {s t} (h : SvcOnly s t) (K H) : Frame K H s t := by
  rw [h]
  exact (Frame.refl K H s).of_eq rfl rfl ⟨fun _ => rfl, rfl, rfl, rfl, rfl, rfl, .of_eq rfl⟩

/-! ### From the request to its parameter -/

/-- A source that is answered has an address that a requester may have (Table OD-9). -/
theorem badAddr_of_not_deaf {s : State} {j : Nat} (h : s.deaf j = false) : s.badAddr j = false := by
  simp only [State.deaf, Bool.or_eq_false_iff, Bool.not_eq_false'] at h
  obtain ⟨hcarry, _⟩ := h
  unfold State.carries at hcarry
  split at hcarry
  next h0 => simp [State.badAddr, h0]
  next =>
    split at hcarry
    next h1 => simp [State.badAddr, h1]
    next =>
      rw [Bool.and_eq_true, Bool.not_eq_true'] at hcarry
      exact hcarry.1

theorem intake_eq_some {s u : State} {op : Nat} {r : Req} (h : s.intake op r = some u) :
    s.unanswered.deaf r.src.val = false ∧ badForm op r = false ∧ s.unanswered.awaits r.src.val = false
    ∧ (s.unanswered.setSrc r.src.val (s.unanswered.touched r.src.val)).limited op r = none
    ∧ u = (s.unanswered.setSrc r.src.val (s.unanswered.touched r.src.val)).spend op r.src.val := by
  simp only [State.intake, Option.ite_none_left_eq_some, Bool.or_eq_true, not_or, Bool.not_eq_true, Option.isSome_eq_false_iff,
    Option.isNone_iff_eq_none, Option.some.injEq] at h
  obtain ⟨⟨⟨hdeaf, hform⟩, hawait⟩, hlimit, rfl⟩ := h
  exact ⟨hdeaf, hform, hawait, hlimit, rfl⟩

theorem svcOnly_intake {s u : State} {op : Nat} {r : Req} (h : s.intake op r = some u) : SvcOnly s u := by
  obtain ⟨_, _, _, _, rfl⟩ := intake_eq_some h
  rfl

/-- A request that is taken in is executed in the state that `intake` gives (R71, R74, R75). -/
theorem request_of_intake {s u : State} {op : Nat} {r : Req} (h : s.intake op r = some u) :
    s.request op r = State.finish op r (u.perform op r 0) := by
  obtain ⟨hdeaf, hform, hawait, hlimit, rfl⟩ := intake_eq_some h
  simp only [State.request, badAddr_of_not_deaf hdeaf, hdeaf, State.serve, hform, hawait, State.execute, hlimit,
    Bool.false_eq_true, if_false]

theorem admits_eq_some {s u : State} {op : Nat} {r : Req} (h : s.admits op r = some u) :
    s.intake op r = some u ∧ u.unready op (u.effKey op r) = none
    ∧ (op = Op.segData ∨ op = Op.segAbort ∨ u.absent op (reqKey r) = none) := by
  unfold State.admits at h
  split at h
  · cases h
  next hin =>
    obtain ⟨hready, hu⟩ := Option.ite_none_right_eq_some.1 h
    cases hu
    exact ⟨hin, by simpa [or_assoc] using hready⟩

/-- A write that `takes` lets through is taken in, and nothing of R50, R52, R72, R73, R77 bars it. -/
theorem takes_eq_some {s u : State} {r : Req} {v : Nat} {w : Row} (hw : rowIn (reqKey r) = some w) (h : s.takes r = some (u, v)) :
    s.intake Op.write r = some u ∧ u.unready Op.write (u.effKey Op.write r) = none ∧ u.absent Op.write (reqKey r) = none
    ∧ u.writeBar r.src.val (reqKey r) w = none ∧ ¬ (maxL r.src.val < tySize w.ty ∨ reqKey r = Reg.winData)
    ∧ u.checkWrite (reqKey r) w (reqBytes r) = .ok v := by
  unfold State.takes at h
  rw [hw] at h
  split at h
  next u' w' hadm hw' =>
    cases hw'
    obtain ⟨hbar, h⟩ := Option.ite_none_left_eq_some.1 h
    split at h
    next v' hcheck =>
      cases h
      obtain ⟨hin, hready, hthere⟩ := admits_eq_some hadm
      have habs : u.absent Op.write (reqKey r) = none := by simpa [Op.write, Op.segData, Op.segAbort] using hthere
      obtain ⟨hbar, hlen⟩ : u.writeBar r.src.val (reqKey r) w = none
          ∧ ¬ (maxL r.src.val < tySize w.ty ∨ reqKey r = Reg.winData) := by
        simpa [and_assoc] using hbar
      exact ⟨hin, hready, habs, hbar, hlen, hcheck⟩
    · cases h
  · cases h

/-- A write that is let through comes to what its value does (R50, R52, R72, R73, R77). -/
theorem perform_of_takes {s u : State} {r : Req} {v : Nat} {w : Row} (hw : rowIn (reqKey r) = some w)
    (h : s.takes r = some (u, v)) :
    u.perform Op.write r 0 = u.doValue r.src.val r.tag.toNat (reqKey r) w (reqBytes r) := by
  obtain ⟨_, hready, habs, hbar, hlen, _⟩ := takes_eq_some hw h
  have hlen : ¬ ((maxL r.src.val < tySize w.ty || reqKey r = Reg.winData) = true) := by simpa using hlen
  simp only [State.perform, hready, habs, hw, State.doWrite, hbar, hlen]
  rfl

/-! ### A WRITE of a value -/

theorem leValue_leBytes (n v : Nat) : leValue (leBytes n v) = v % 256 ^ n := by
  induction n generalizing v with
  | zero => simp [leBytes, leValue, Nat.mod_one]
  | succ n ih => rw [leBytes, leValue, ih, Nat.mod_mod, Nat.pow_succ', Nat.mod_mul]

theorem leBytes_lt {n v b : Nat} (h : b ∈ leBytes n v) : b < 256 := by
  induction n generalizing v with
  | zero => simp [leBytes] at h
  | succ n ih =>
    rcases List.mem_cons.1 h with rfl | h
    · exact Nat.mod_lt _ (by decide)
    · exact ih h

theorem reqKey_valueReq (src : Src) (tag : Byte) {k : Nat} (v) (hk : k < 2 ^ 24) : reqKey (valueReq src tag k v) = k := by
  simp only [reqKey, valueReq, BitVec.toNat_ofNat]
  omega

theorem reqBytes_valueReq (src : Src) (tag : Byte) (k v : Nat) :
    reqBytes (valueReq src tag k v) = leBytes (sizeAt k) v := by
  simp only [reqBytes, valueReq, List.map_map]
  exact (List.map_congr_left fun b hb => Nat.mod_eq_of_lt (leBytes_lt hb)).trans (List.map_id _)

theorem leValue_of_checkWrite {s : State} {k : Nat} {r : Row} {l : List Nat} {v : Nat} (h : s.checkWrite k r l = .ok v) :
    leValue l = v := by
  unfold State.checkWrite at h
  split at h
  · cases h
  · split at h
    · cases h
    · cases h
      rfl

/-- The row of a register that takes commands (R53). -/
structure CmdReg (k : Nat) (w : Row) : Prop where
  row : rowIn k = some w
  word : k < 2 ^ 24
  noFlag : w.flag = false
  cmd : w.acc = .cmd

/-- A command's value that is let through comes to `doCmd` in a state that differs from the one before in the service's alone
(R53). -/
theorem writeReq_of_lets {s u : State} {src : Src} {tag : Byte} {k v : Nat} {w : Row} (hk : CmdReg k w) (hv : v < 256 ^ sizeAt k)
    (h : s.lets src tag k v = some u) :
    SvcOnly s u ∧ s.writeReq src tag k v = State.finish Op.write (valueReq src tag k v) (u.doCmd src.val tag.toNat k v) := by
  obtain ⟨⟨u', v'⟩, htake, rfl⟩ := Option.map_eq_some_iff.1 h
  have hkey := reqKey_valueReq src tag v hk.word
  have hrow : rowIn (reqKey (valueReq src tag k v)) = some w := by rw [hkey, hk.row]
  obtain ⟨hin, _, _, _, _, hcheck⟩ := takes_eq_some hrow htake
  have hval : v = v' := by
    rw [← leValue_of_checkWrite hcheck, reqBytes_valueReq, leValue_leBytes, Nat.mod_eq_of_lt hv]
  subst hval
  rw [hkey] at hcheck
  refine ⟨svcOnly_intake hin, ?_⟩
  rw [State.writeReq, request_of_intake hin, perform_of_takes hrow htake]
  simp only [State.doValue, hcheck, hk.noFlag, hk.cmd, hkey, Bool.false_eq_true, if_false, if_true]
  rfl

/-- A command that is done is answered with success (R76). -/
theorem answers_of_ok {s u t : State} {c : Instr} {src : Src} {tag : Byte} {k v : Nat} {w : Row} {P : State → Prop}
    (hk : CmdReg k w) (hv : v < 256 ^ sizeAt k) (hlets : s.lets src tag k v = some u)
    (hexec : exec c s = .next (s.writeReq src tag k v)) (hdo : u.doCmd src.val tag.toNat k v = .ok t)
    (hP : SvcOnly s u → P t) : Answers c src tag k s P := by
  obtain ⟨hsvc, hreq⟩ := writeReq_of_lets hk hv hlets
  refine ⟨t, ?_, hP hsvc⟩
  rw [hexec, hreq, hdo]
  simp only [State.finish, reqKey_valueReq src tag v hk.word, id]
  rfl

/-- A command that is turned away for good is answered with its abort (R76). -/
theorem refuses_of_abort {s u t : State} {c : Instr} {src : Src} {tag : Byte} {k v code detail : Nat} {w : Row}
    {P : State → Prop} (hk : CmdReg k w) (hv : v < 256 ^ sizeAt k) (hlets : s.lets src tag k v = some u)
    (hexec : exec c s = .next (s.writeReq src tag k v)) (hdo : u.doCmd src.val tag.toNat k v = .abort t code detail)
    (hcode : code ∉ [0x01030000, 0x01040000, 0x01050000]) (hP : SvcOnly s u → P t) :
    Refuses c Op.write (valueReq src tag k v) code detail s P := by
  obtain ⟨hsvc, hreq⟩ := writeReq_of_lets hk hv hlets
  obtain ⟨h1, h2, h3⟩ : code ≠ 0x01030000 ∧ code ≠ 0x01040000 ∧ code ≠ 0x01050000 := by simpa using hcode
  refine ⟨t, ?_, hP hsvc⟩
  rw [hexec, hreq, hdo]
  simp [State.finish, State.noteRetry, State.replyAbort, h1, h2, h3, Op.write, valueReq]

end Sys2Proof.Machine
end

section
/-! PROOF. CONT_REARM, START_RETRY and SEQ_CLEAR (spec/03_package_and_pads.md R108, spec/06_start_up.md R173,
spec/10_sequencer.md R255). -/
namespace Sys2Proof.Machine

/-! ### Registers and frames -/

theorem Frame.rd {K H s t} (h : Frame K H s t) {k} (hk : k ∉ K) : t.rd k = s.rd k := h.1.1 k hk

theorem Frame.putBit {K H s t} (k i v) (h : Frame K H s t) (hk : k ∈ K) : Frame K H s (t.putBit k i v) := by
  unfold State.putBit
  split
  · exact (h.wr k _ hk).of_eq rfl rfl ⟨fun _ => rfl, rfl, rfl, rfl, rfl, rfl, .of_eq rfl⟩
  · exact h.wr k _ hk

theorem Frame.pads {K H s t} (x : Pads) (h : Frame K H s t) : Frame K H s { t with pads := x } :=
  h.of_eq rfl rfl ⟨fun _ => rfl, rfl, rfl, rfl, rfl, rfl, .of_eq rfl⟩

theorem Frame.seq {K H s t} (x : Seq) (h : Frame K H s t) : Frame K H s { t with seq := x } :=
  h.of_eq rfl rfl ⟨fun _ => rfl, rfl, rfl, rfl, rfl, rfl, .of_eq rfl⟩

theorem Frame.lad {K H s t} (x : Ladle) (h : Frame K H s t) : Frame K H s { t with lad := x } :=
  h.of_eq rfl rfl ⟨fun _ => rfl, rfl, rfl, rfl, rfl, rfl, .of_eq rfl⟩

/-- `Frame.each` where the step's frame rests on which element it is for. -/
theorem Frame.each_mem {K H s t} {α : Type} (l : List α) (f : α → State → State)
    (hf : ∀ a ∈ l, ∀ u, Frame K H s u → Frame K H s (f a u)) (h : Frame K H s t) : Frame K H s (t.each l f) := by
  unfold State.each
  induction l generalizing t with
  | nil => exact h
  | cons a l ih => exact ih (fun b hb => hf b (.tail _ hb)) (hf a (.head _) t h)

/-! ### Pads (R108, R109) -/

theorem padEvent_padIsOff (s : State) (p d q) : (s.padEvent p d).padIsOff q = s.padIsOff q := by
  unfold State.padEvent State.iff
  split
  · simp [State.padIsOff]
  · rfl

theorem Frame.padEvent {K H s t} (p d) (h : Frame K H s t) (hK : eventKeys ⊆ K) : Frame K H s (t.padEvent p d) :=
  Frame.iff _ _ (fun h => h.event _ _ _ _ _ hK) h

/-- Of the pads that are Off, the one that returns to Normal is Off no more. -/
theorem padToNormal_padIsOff (s : State) (p q : Nat) :
    (s.padToNormal p).padIsOff q = (s.padIsOff q && decide (q ≠ p)) := by
  unfold State.padToNormal
  split
  · rw [padEvent_padIsOff]
    by_cases h : q = p
    · simp [State.padIsOff, h]
    · simp [State.padIsOff, h, Ne.symm h]
  next hnormal =>
    by_cases h : q = p
    · subst h
      simp_all
    · simp [h]

theorem Frame.padToNormal {K H s t} (p) (h : Frame K H s t) (hK : eventKeys ⊆ K) : Frame K H s (t.padToNormal p) := by
  unfold State.padToNormal
  split
  · exact (h.pads _).padEvent _ _ hK
  · exact h

/-- A pad of a mask returns from Off to Normal. -/
def State.rearmPad (mask p : Nat) (s : State) : State := if mask.testBit p && s.padIsOff p then s.padToNormal p else s

theorem rearmPads_eq (s : State) (mask : Nat) : s.rearmPads mask = s.each (List.range 12) (State.rearmPad mask) := rfl

theorem rearmPad_padIsOff (s : State) (mask p q : Nat) :
    (s.rearmPad mask p).padIsOff q = (s.padIsOff q && !(decide (q = p) && mask.testBit q)) := by
  unfold State.rearmPad
  split
  next h =>
    rw [padToNormal_padIsOff]
    by_cases hq : q = p
    · simp_all
    · simp [hq]
  next h =>
    by_cases hq : q = p
    · subst hq
      cases hoff : s.padIsOff q <;> simp_all
    · simp [hq]

theorem each_rearmPad_padIsOff (mask q : Nat) (l : List Nat) (s : State) :
    (s.each l (State.rearmPad mask)).padIsOff q = (s.padIsOff q && !(decide (q ∈ l) && mask.testBit q)) := by
  induction l generalizing s with
  | nil => simp [State.each]
  | cons p l ih =>
    refine (ih (s.rearmPad mask p)).trans ?_
    rw [rearmPad_padIsOff]
    by_cases hp : q = p
    · cases mask.testBit q <;> simp [hp]
    · simp [hp]

/-- Re-arming returns exactly the pads of its mask from Off (R108). -/
theorem rearmPads_padIsOff (s : State) (mask : Nat) {p : Nat} (hp : p < 12) :
    (s.rearmPads mask).padIsOff p = (s.padIsOff p && !mask.testBit p) := by
  simp [rearmPads_eq, each_rearmPad_padIsOff, hp]

theorem Frame.rearmPads {K H s t} (mask) (h : Frame K H s t) (hK : eventKeys ⊆ K) : Frame K H s (t.rearmPads mask) := by
  refine h.each _ _ fun p u hu => ?_
  exact .ite (fun _ => hu.padToNormal p hK) fun _ => hu

/-! ### The sequencer's latch (R255) -/

theorem Frame.setRail {K H s t} (n st) (h : Frame K H s t) (hn : Reg.railState n ∈ K) (hg : Reg.railsGood ∈ K) :
    Frame K H s (t.setRail n st) := by
  unfold State.setRail
  extract_lets _ u q v
  have hv : Frame K H s v := ((h.wr _ st hn).putBit _ n _ hg).seq _
  exact .ite (fun _ => hv.pads _) fun _ => hv

/-- A rail's change of state writes RAIL_STATE and RAILS_GOOD; what else it touches is no register. -/
theorem rd_setRail (s : State) (n st k : Nat) :
    (s.setRail n st).rd k = ((s.wr (Reg.railState n) st).putBit Reg.railsGood n (st = Rs.running)).rd k := by
  unfold State.setRail
  extract_lets
  split <;> rfl

theorem railState_inj {n m : Nat} : Reg.railState n = Reg.railState m ↔ n = m := by
  simp only [Reg.railState, rkey]
  omega

theorem railState_ne_railsGood (n : Nat) : Reg.railState n ≠ Reg.railsGood := by
  simp only [Reg.railState, Reg.railsGood, rkey]
  omega

theorem sizeAt_railState {n : Nat} (hn : n < 8) : sizeAt (Reg.railState n) = 1 := by
  revert n
  decide

/-- Giving a rail a state leaves the other rails' states alone. -/
theorem setRail_railSt_ne (s : State) {n m : Nat} (st) (h : m ≠ n) : (s.setRail n st).railSt m = s.railSt m :=
  ((Frame.refl [Reg.railState n, Reg.railsGood] [] s).setRail n st (by simp) (by simp)).rd
    (by simp [railState_inj, h, railState_ne_railsGood])

theorem setRail_railSt (s : State) (n st : Nat) : (s.setRail n st).railSt n = fit (Reg.railState n) st := by
  rw [State.railSt, rd_setRail, ((Frame.refl [Reg.railsGood] [] _).putBit _ _ _ (by simp)).rd (by simp [railState_ne_railsGood]),
    State.rd_wr_same, fit]

/-- A rail in FAILED returns to OFF. -/
def State.failedToOff (n : Nat) (s : State) : State := if s.railSt n = Rs.failed then s.setRail n Rs.off else s

theorem Frame.failedToOff {K H s t} (n) (h : Frame K H s t) (hn : Reg.railState n ∈ K) (hg : Reg.railsGood ∈ K) :
    Frame K H s (t.failedToOff n) := .ite (fun _ => h.setRail _ _ hn hg) fun _ => h

theorem failedToOff_railSt_ne (s : State) {n m : Nat} (h : m ≠ n) : (s.failedToOff n).railSt m = s.railSt m := by
  unfold State.failedToOff
  split
  · exact setRail_railSt_ne s _ h
  · rfl

theorem failedToOff_railSt (s : State) {n : Nat} (hn : n < 8) :
    (s.failedToOff n).railSt n = if s.railSt n = Rs.failed then Rs.off else s.railSt n := by
  unfold State.failedToOff
  split
  · rw [setRail_railSt, fit, sizeAt_railState hn]
    rfl
  · rfl

theorem each_failedToOff_railSt {n : Nat} (hn : n < 8) (l : List Nat) (s : State) :
    (s.each l State.failedToOff).railSt n = if n ∈ l ∧ s.railSt n = Rs.failed then Rs.off else s.railSt n := by
  induction l generalizing s with
  | nil => simp [State.each]
  | cons m l ih =>
    refine (ih (s.failedToOff m)).trans ?_
    by_cases hm : n = m
    · subst hm
      rw [failedToOff_railSt s hn]
      by_cases hf : s.railSt n = Rs.failed
      · simp [hf, Rs.off, Rs.failed]
      · simp [hf]
    · simp [failedToOff_railSt_ne s hm, hm]

/-- The state in which SEQ_CLEAR re-arms the enables' pads (R255). -/
def State.latchCleared (s : State) : State :=
  (((s.each allRails State.failedToOff).wr Reg.seqLatch 0).wr Reg.failedRail 0xFF).wr Reg.seqClear 1

theorem doSeqClear_of_latch {s : State} (h : s.rd Reg.seqLatch ≠ 0) :
    s.doSeqClear = ((s.latchCleared.rearmPads 0xFF).wr Reg.seqState 0).event 0x230A 0xFF 0 0xFF := if_neg h

theorem doSeqClear_of_clear {s : State} (h : s.rd Reg.seqLatch = 0) : s.doSeqClear = s.wr Reg.seqClear 2 := if_pos h

/-- The registers that a SEQ_CLEAR with a latch may change. -/
def seqClearKeys : List Nat :=
  eventKeys ++ [Reg.seqClear, Reg.seqLatch, Reg.failedRail, Reg.seqState, Reg.railsGood] ++ allRails.map Reg.railState

theorem latchCleared_frame (s : State) : Frame seqClearKeys [] s s.latchCleared := by
  have h : Frame seqClearKeys [] s (s.each allRails State.failedToOff) :=
    (Frame.refl ..).each_mem _ _ fun n hn u hu =>
      hu.failedToOff n (List.mem_append_right _ (List.mem_map_of_mem hn)) (by decide)
  exact ((h.wr _ _ (by decide)).wr _ _ (by decide)).wr _ _ (by decide)

theorem doSeqClear_frame {s : State} (h : s.rd Reg.seqLatch ≠ 0) : Frame seqClearKeys [] s s.doSeqClear := by
  have hK : eventKeys ⊆ seqClearKeys := by decide
  rw [doSeqClear_of_latch h]
  exact (((latchCleared_frame s).rearmPads _ hK).wr _ _ (by decide)).event _ _ _ _ _ hK

/-- After re-arming the pads, every register but SEQ_STATE and those of an event reads as it did before. -/
theorem rd_doSeqClear {s : State} (h : s.rd Reg.seqLatch ≠ 0) {k : Nat} (hk : k ∉ Reg.seqState :: eventKeys) :
    s.doSeqClear.rd k = s.latchCleared.rd k := by
  rw [doSeqClear_of_latch h]
  have hK : eventKeys ⊆ Reg.seqState :: eventKeys := List.subset_cons_self ..
  exact ((((Frame.refl _ [] s.latchCleared).rearmPads 0xFF hK).wr Reg.seqState 0 (.head _)).event _ _ _ _ _ hK).rd hk

theorem doSeqClear_seqState {s : State} (h : s.rd Reg.seqLatch ≠ 0) : s.doSeqClear.rd Reg.seqState = 0 := by
  rw [doSeqClear_of_latch h, State.rd_event _ _ _ _ _ _ (by decide), State.rd_wr_same, Nat.zero_mod]

theorem doSeqClear_seqClear {s : State} (h : s.rd Reg.seqLatch ≠ 0) : s.doSeqClear.rd Reg.seqClear = 1 :=
  (rd_doSeqClear h (by decide)).trans (State.rd_wr_same ..)

theorem doSeqClear_failedRail {s : State} (h : s.rd Reg.seqLatch ≠ 0) : s.doSeqClear.rd Reg.failedRail = 0xFF :=
  (rd_doSeqClear h (by decide)).trans ((State.rd_wr_ne _ _ (by decide)).trans (State.rd_wr_same ..))

theorem doSeqClear_seqLatch {s : State} (h : s.rd Reg.seqLatch ≠ 0) : s.doSeqClear.rd Reg.seqLatch = 0 :=
  (rd_doSeqClear h (by decide)).trans
    ((State.rd_wr_ne _ _ (by decide)).trans ((State.rd_wr_ne _ _ (by decide)).trans (State.rd_wr_same ..)))

theorem railState_notMem : ∀ n < 8, Reg.railState n ∉ [Reg.seqLatch, Reg.failedRail, Reg.seqClear]
    ∧ Reg.railState n ∉ Reg.seqState :: eventKeys := by decide

/-- SEQ_CLEAR returns every FAILED rail to OFF and leaves the others (R255). -/
theorem doSeqClear_railSt {s : State} (h : s.rd Reg.seqLatch ≠ 0) {n : Nat} (hn : n < 8) :
    s.doSeqClear.railSt n = if s.railSt n = Rs.failed then Rs.off else s.railSt n := by
  obtain ⟨hreg, hev⟩ := railState_notMem n hn
  have hclear : s.latchCleared.railSt n = (s.each allRails State.failedToOff).railSt n :=
    ((((Frame.refl _ [] _).wr _ _ (by decide)).wr _ _ (by decide)).wr _ _ (by decide) : Frame _ [] _ s.latchCleared).rd hreg
  rw [State.railSt, rd_doSeqClear h hev]
  refine hclear.trans ?_
  rw [each_failedToOff_railSt hn]
  simp [allRails, hn]

/-- SEQ_CLEAR returns the enables' pads from Off (R255). -/
theorem doSeqClear_padIsOff {s : State} (h : s.rd Reg.seqLatch ≠ 0) {p : Nat} (hp : p < 8) :
    s.doSeqClear.padIsOff p = false := by
  have hmask : ∀ p < 8, Nat.testBit 0xFF p = true := by decide
  rw [doSeqClear_of_latch h]
  have hpads : (s.latchCleared.rearmPads 0xFF).padIsOff p = false := by
    rw [rearmPads_padIsOff _ _ (by omega), hmask p hp, Bool.not_true, Bool.and_false]
  simpa [State.padIsOff] using hpads

/-! ### Start resumed from STOPPED (R173) -/

/-- START_RETRY's own register and the cause, once start resumes. -/
def State.retried (s : State) : State := (s.wr Reg.startStop 0).wr Reg.startRetry 1

/-- Wherever start resumes: START_RETRY reads 1 and no cause stands. -/
theorem retried_of_frame {K H} {s t : State} (h : Frame K H s.retried t) (hr : Reg.startRetry ∉ K) (hs : Reg.startStop ∉ K) :
    t.rd Reg.startRetry = 1 ∧ t.rd Reg.startStop = 0 :=
  ⟨(h.rd hr).trans (State.rd_wr_same ..),
    (h.rd hs).trans ((State.rd_wr_ne _ _ (by decide)).trans (State.rd_wr_same ..))⟩

theorem frame_of_retried {K} {s t : State} (h : Frame K [] s.retried t) : Frame (Reg.startRetry :: Reg.startStop :: K) [] s t :=
  (((Frame.refl _ [] s).wr _ _ (.tail _ (.head _))).wr _ _ (.head _)).trans
    (h.mono (List.subset_cons_of_subset _ (List.subset_cons_self ..)) (List.Subset.refl _))

/-- Start resumed at ON_SLOTS: its common start is taken anew. -/
def State.atOnSlots (s : State) : State :=
  let t := (s.retried.wr Reg.startStep Step.onSlots).wr Reg.seqState 0
  { t with seq := { t.seq with onStart := none, early := 0 } }

theorem atOnSlots_frame (s : State) : Frame [Reg.startStep, Reg.seqState] [] s.retried s.atOnSlots :=
  (((Frame.refl ..).wr _ _ (by decide)).wr _ _ (by decide)).seq _

theorem atOnSlots_seqState (s : State) : s.atOnSlots.rd Reg.seqState = 0 :=
  State.rd_wr_same (s.retried.wr Reg.startStep Step.onSlots) Reg.seqState 0

theorem atOnSlots_startStep (s : State) : s.atOnSlots.rd Reg.startStep = Step.onSlots :=
  (State.rd_wr_ne (s.retried.wr Reg.startStep Step.onSlots) (k := Reg.seqState) 0 (by decide)).trans (State.rd_wr_same ..)

/-- Start goes on at DAMP. -/
def State.toDamp (s : State) : State :=
  { s.retried with lad := { s.retried.lad with damped := false } }.wr Reg.startStep Step.damp

/-- Start resumed at DAMP: the retest count begins anew under cause 2. -/
def State.atDamp (s : State) : State :=
  if s.rd Reg.startStop = 2 then
    { s.toDamp.wr Reg.dampCount 0 with lad := { s.toDamp.lad with dampFailed := false, dampAt := 0 } }
  else s.toDamp

theorem atDamp_frame_toDamp (s : State) : Frame [Reg.dampCount] [] s.toDamp s.atDamp :=
  .ite (fun _ => ((Frame.refl ..).wr _ _ (by decide)).lad _) fun _ => .refl ..

theorem atDamp_frame (s : State) : Frame [Reg.startStep, Reg.dampCount] [] s.retried s.atDamp :=
  (((Frame.refl ..).lad _).wr _ _ (by decide)).trans ((atDamp_frame_toDamp s).mono (by decide) (List.Subset.refl _))

theorem atDamp_startStep (s : State) : s.atDamp.rd Reg.startStep = Step.damp :=
  ((atDamp_frame_toDamp s).rd (by decide)).trans (State.rd_wr_same ..)

theorem atDamp_dampCount {s : State} (h : s.rd Reg.startStop = 2) : s.atDamp.rd Reg.dampCount = 0 := by
  rw [State.atDamp, if_pos h]
  exact State.rd_wr_same s.toDamp Reg.dampCount 0

theorem atDamp_phase (s : State) : s.atDamp.phase = s.phase := by
  unfold State.atDamp
  split <;> rfl

/-- Start resumed at the step that cause 4 stopped it in, the image-store scan begun anew. -/
def State.atStopped (s : State) : State := (s.retried.wr Reg.isState 1).wr Reg.startStep s.stopAt

theorem atStopped_frame (s : State) : Frame [Reg.startStep, Reg.isState] [] s.retried s.atStopped :=
  ((Frame.refl ..).wr _ _ (by decide)).wr _ _ (by decide)

theorem atStopped_startStep {s : State} (h : s.stopAt < 256) : s.atStopped.rd Reg.startStep = s.stopAt :=
  (State.rd_wr_same ..).trans (Nat.mod_eq_of_lt h)

theorem atStopped_isState (s : State) : s.atStopped.rd Reg.isState = 1 :=
  (State.rd_wr_ne _ _ (by decide)).trans (State.rd_wr_same ..)

/-! A resumed start, by the cause it was stopped with. -/

theorem resumeStart_latched {s : State} (h1 : s.rd Reg.startStop = 1) (hl : s.rd Reg.seqLatch = 1) :
    s.resumeStart = s.wr Reg.startRetry 2 := if_pos (by simp [h1, hl])

/-- Cause 1 with the latch cleared, where the store has not been found unusable meanwhile. -/
theorem resumeStart_slots {s : State} (h1 : s.rd Reg.startStop = 1) (hl : s.rd Reg.seqLatch ≠ 1) (h3 : s.rd Reg.isState ≠ 3) :
    s.resumeStart = s.atOnSlots := by
  have hs : s.atOnSlots.rd Reg.isState = s.rd Reg.isState :=
    (frame_of_retried (atOnSlots_frame s)).rd (by decide)
  have heq : s.resumeStart = s.atOnSlots.iff (s.atOnSlots.rd Reg.isState = 3) (·.stopStart 4) := by
    simp only [State.resumeStart, h1, hl, decide_false, decide_true, Bool.and_false, Bool.false_eq_true, if_false, if_true]
    rfl
  rw [heq, hs, State.iff, if_neg (by simpa using h3)]

theorem resumeStart_damp {s : State} (h1 : s.rd Reg.startStop ≠ 1) (h4 : s.rd Reg.startStop ≠ 4) :
    s.resumeStart = s.atDamp.iff (s.rd Reg.isState = 3) (·.stopStart 4) := by
  have hs : s.atDamp.rd Reg.isState = s.rd Reg.isState :=
    (frame_of_retried (atDamp_frame s)).rd (by decide)
  rw [← hs]
  simp only [State.resumeStart, h1, h4, decide_false, Bool.false_and, Bool.false_eq_true, if_false]
  rfl

/-- Cause 4 stopped start elsewhere than in ON_SLOTS: no slot is judged in this tick. -/
theorem resumeStart_scan {s : State} (h4 : s.rd Reg.startStop = 4) (hn : s.stopAt ≠ Step.onSlots) (hb : s.stopAt < 256) :
    s.resumeStart = s.atStopped := by
  have h1 : s.rd Reg.startStop ≠ 1 := by rw [h4]; decide
  have heq : s.resumeStart = s.atStopped.checkOnDone := by
    simp only [State.resumeStart, h1, decide_false, Bool.false_and, Bool.false_eq_true, if_false]
    exact if_pos h4
  rw [heq]
  exact if_neg (by simp [State.atStep, atStopped_startStep hb, hn])

/-! ### A stop of start (R173) -/

/-- Start stopped with a cause, its event not yet created. -/
def State.stoppedBy (s : State) (cause : Nat) : State :=
  ({ s with stopAt := s.rd Reg.startStep, lad := { s.lad with permit := s.lad.permit && cause = 4 } }.wr Reg.startStep
    Step.stopped).wr Reg.startStop cause

theorem stopStart_of_running {s : State} (cause : Nat) (hp : s.phase = .start) (hs : s.rd Reg.startStep ≠ Step.stopped) :
    s.stopStart cause = (s.stoppedBy cause).event 0x1004 0xFF cause := if_pos (by simp [hp, hs])

theorem stoppedBy_startStep (s : State) (cause) : (s.stoppedBy cause).rd Reg.startStep = Step.stopped :=
  (State.rd_wr_ne _ _ (by decide)).trans (State.rd_wr_same ..)

theorem rd_stoppedBy (s : State) (cause) {k : Nat} (hk : k ∉ [Reg.startStep, Reg.startStop]) :
    (s.stoppedBy cause).rd k = s.rd k := by
  simp only [List.mem_cons, List.not_mem_nil, or_false, not_or] at hk
  obtain ⟨hstep, hstop⟩ := hk
  exact (State.rd_wr_ne _ _ hstop).trans (State.rd_wr_ne _ _ hstep)

theorem stopStart_atStep {s : State} (cause) (hp : s.phase = .start) (hs : s.rd Reg.startStep ≠ Step.stopped) :
    (s.stopStart cause).atStep Step.stopped = true := by
  rw [stopStart_of_running cause hp hs, State.atStep, State.rd_event _ _ _ _ _ _ (by decide), stoppedBy_startStep,
    State.event_phase]
  simp [State.stoppedBy, hp]

theorem stopStart_startStop {s : State} {cause} (hp : s.phase = .start) (hs : s.rd Reg.startStep ≠ Step.stopped)
    (hc : cause < 256) : (s.stopStart cause).rd Reg.startStop = cause := by
  rw [stopStart_of_running cause hp hs, State.rd_event _ _ _ _ _ _ (by decide), State.stoppedBy, State.rd_wr_same]
  exact Nat.mod_eq_of_lt hc

theorem stopStart_stopAt {s : State} (cause) (hp : s.phase = .start) (hs : s.rd Reg.startStep ≠ Step.stopped) :
    (s.stopStart cause).stopAt = s.rd Reg.startStep := by
  rw [stopStart_of_running cause hp hs, State.event_stopAt]
  rfl

theorem stopStart_creates {s : State} (cause) (hp : s.phase = .start) (hs : s.rd Reg.startStep ≠ Step.stopped) :
    Creates 0x1004 s (s.stopStart cause) :=
  ⟨s.stoppedBy cause, 0xFF, cause, 0, 0, stopStart_of_running cause hp hs, rd_stoppedBy s cause (by decide)⟩

theorem rd_stopStart {s : State} (cause) (hp : s.phase = .start) (hs : s.rd Reg.startStep ≠ Step.stopped) {k : Nat}
    (hk : k ∉ [Reg.startStep, Reg.startStop]) (he : k ∉ eventKeys) : (s.stopStart cause).rd k = s.rd k := by
  rw [stopStart_of_running cause hp hs, State.rd_event _ _ _ _ _ _ he, rd_stoppedBy s cause hk]

theorem Creates.of_rd {code : Nat} {s t v : State} (h : Creates code t v) (e : t.rd Reg.eventSeq = s.rd Reg.eventSeq) :
    Creates code s v := by
  obtain ⟨w, obj, detail, a, b, hv, hw⟩ := h
  exact ⟨w, obj, detail, a, b, hv, hw.trans e⟩

/-! ### The three commands -/

theorem contRearm_cmdReg : CmdReg Reg.contRearm ⟨0x14, .bits16, .cmd, .volatile, 0, 0, .bits 0xFFF, false⟩ :=
  ⟨rfl, by decide, rfl, rfl⟩

theorem startRetry_cmdReg : CmdReg Reg.startRetry ⟨0x38, .u8, .cmd, .volatile, 0, 0, .any, false⟩ :=
  ⟨rfl, by decide, rfl, rfl⟩

theorem seqClear_cmdReg : CmdReg Reg.seqClear ⟨0x03, .u8, .cmd, .volatile, 0, 0, .any, false⟩ :=
  ⟨rfl, by decide, rfl, rfl⟩

theorem doCmd_contRearm (s : State) (j tag v : Nat) :
    s.doCmd j tag Reg.contRearm v = .ok ((s.rearmPads v).wr Reg.contRearm v) := rfl

theorem doCmd_startRetry (s : State) (j tag : Nat) : s.doCmd j tag Reg.startRetry 1 = s.doStartRetry := rfl

theorem doCmd_seqClear (s : State) (j tag : Nat) : s.doCmd j tag Reg.seqClear 1 = .ok s.doSeqClear := rfl

theorem doStartRetry_of_stopped {s : State} (h : s.atStep Step.stopped = true) : s.doStartRetry = .ok s.resumeStart := if_pos h

theorem doStartRetry_of_not_stopped {s : State} (h : s.atStep Step.stopped = false) :
    s.doStartRetry = .abort (s.wr Reg.startRetry 2) 0x04070000 0 := if_neg (by simp [h])

/-- A START_RETRY in STOPPED is answered with what `resumeStart` leaves. -/
theorem answers_startRetry {s u : State} {src : Src} {tag : Byte} {P : State → Prop}
    (hlets : s.lets src tag Reg.startRetry 1 = some u) (hstop : s.atStep Step.stopped = true)
    (hP : SvcOnly s u → P u.resumeStart) : Answers (.startRetry src tag) src tag Reg.startRetry s P := by
  obtain ⟨hsvc, _⟩ := writeReq_of_lets startRetry_cmdReg (by decide) hlets
  exact answers_of_ok startRetry_cmdReg (by decide) hlets rfl
    ((doCmd_startRetry ..).trans (doStartRetry_of_stopped ((hsvc.atStep _).trans hstop))) hP

theorem atStep_eq_true {s : State} {n : Nat} : s.atStep n = true ↔ s.phase = .start ∧ s.rd Reg.startStep = n := by
  simp [State.atStep]

/-- Settles O45: each command is a write that is let through (`answers_of_ok`, `refuses_of_abort`); what it leaves is said of
`rearmPads`, of `resumeStart` by the cause, and of `doSeqClear` by the latch. -/
theorem padsStartAndSequencerAreCleared : Obligations.PadsStartAndSequencerAreCleared := by
  refine ⟨fun s u src tag m hl => ?rearm, fun s u src tag hl hat h1 hlatch h3 => ?slots,
    fun s u src tag hl hat h1 hlatch => ?latched, fun s u src tag hl hat h1 h4 h3 => ?damp,
    fun s u src tag hl hat h2 h3 => ?unusable, fun s u src tag hl hat h4 hn hb => ?scan,
    fun s u src tag hl hat => ?refused, fun s u src tag hl hlatch => ?clear, fun s u src tag hl hlatch => ?noLatch⟩
  case rearm =>
    refine answers_of_ok contRearm_cmdReg m.isLt hl rfl (doCmd_contRearm ..) fun hu => ⟨?value, fun p hp => ?pads, ?frame⟩
    case value => exact (State.rd_wr_same ..).trans (Nat.mod_eq_of_lt m.isLt)
    case pads => exact (rearmPads_padIsOff u m.toNat hp).trans (by rw [hu.padIsOff])
    case frame => exact ((hu.frame _ _).rearmPads _ (List.subset_append_left ..)).wr _ _ (by decide)
  case slots =>
    refine answers_startRetry hl hat fun hu => ?_
    rw [resumeStart_slots (by rwa [hu.rd]) (by rwa [hu.rd]) (by rwa [hu.rd])]
    obtain ⟨hretry, hcause⟩ := retried_of_frame (atOnSlots_frame u) (by decide) (by decide)
    exact ⟨rfl, hretry, hcause, atOnSlots_startStep u, atOnSlots_seqState u,
      (hu.frame _ _).trans (frame_of_retried (atOnSlots_frame u))⟩
  case latched =>
    refine answers_startRetry hl hat fun hu => ?_
    rw [resumeStart_latched (by rwa [hu.rd]) (by rwa [hu.rd])]
    refine ⟨State.rd_wr_same .., ?_, (hu.frame _ _).wr _ _ (by decide)⟩
    obtain ⟨hp, hs⟩ := atStep_eq_true.1 ((hu.atStep _).trans hat)
    exact atStep_eq_true.2 ⟨hp, (State.rd_wr_ne _ _ (by decide)).trans hs⟩
  case damp =>
    refine answers_startRetry hl hat fun hu => ?_
    rw [resumeStart_damp (by rwa [hu.rd]) (by rwa [hu.rd]), State.iff, if_neg (by simpa [hu.rd] using h3)]
    obtain ⟨hretry, hcause⟩ := retried_of_frame (atDamp_frame u) (by decide) (by decide)
    exact ⟨hretry, hcause, atDamp_startStep u, fun h2 => atDamp_dampCount (by rwa [hu.rd]),
      (hu.frame _ _).trans (frame_of_retried (atDamp_frame u))⟩
  case unusable =>
    refine answers_startRetry hl hat fun hu => ?_
    rw [resumeStart_damp (by rw [hu.rd, h2]; decide) (by rw [hu.rd, h2]; decide), State.iff, if_pos (by simp [hu.rd, h3])]
    obtain ⟨hp, _⟩ := atStep_eq_true.1 ((hu.atStep _).trans hat)
    have hrun : u.atDamp.phase = .start := (atDamp_phase u).trans hp
    have hstep : u.atDamp.rd Reg.startStep ≠ Step.stopped := by rw [atDamp_startStep]; decide
    have hseq : u.atDamp.rd Reg.eventSeq = s.rd Reg.eventSeq :=
      ((hu.frame _ []).trans (frame_of_retried (atDamp_frame u))).rd (by decide)
    obtain ⟨hretry, _⟩ := retried_of_frame (atDamp_frame u) (by decide) (by decide)
    exact ⟨(rd_stopStart 4 hrun hstep (by decide) (by decide)).trans hretry,
      stopStart_startStop hrun hstep (by decide), stopStart_atStep 4 hrun hstep,
      (stopStart_stopAt 4 hrun hstep).trans (atDamp_startStep u),
      (rd_stopStart 4 hrun hstep (by decide) (by decide)).trans (atDamp_dampCount (by rw [hu.rd, h2])),
      (stopStart_creates 4 hrun hstep).of_rd hseq⟩
  case scan =>
    refine answers_startRetry hl hat fun hu => ?_
    rw [resumeStart_scan (by rwa [hu.rd]) (by rwa [hu.stopAt]) (by rwa [hu.stopAt])]
    obtain ⟨hretry, hcause⟩ := retried_of_frame (atStopped_frame u) (by decide) (by decide)
    exact ⟨hretry, hcause, (atStopped_startStep (by rwa [hu.stopAt])).trans hu.stopAt, atStopped_isState u,
      (hu.frame _ _).trans (frame_of_retried (atStopped_frame u))⟩
  case refused =>
    obtain ⟨hsvc, _⟩ := writeReq_of_lets startRetry_cmdReg (by decide) hl
    exact refuses_of_abort startRetry_cmdReg (by decide) hl rfl
      ((doCmd_startRetry ..).trans (doStartRetry_of_not_stopped ((hsvc.atStep _).trans hat))) (by decide)
      fun hu => ⟨State.rd_wr_same .., (hu.frame _ _).wr _ _ (by decide)⟩
  case clear =>
    refine answers_of_ok seqClear_cmdReg (by decide) hl rfl (doCmd_seqClear ..) fun hu => ?_
    have hlatch : u.rd Reg.seqLatch ≠ 0 := by rwa [hu.rd]
    refine ⟨doSeqClear_seqClear hlatch, doSeqClear_seqLatch hlatch, doSeqClear_failedRail hlatch, doSeqClear_seqState hlatch,
      fun n hn => ?rails, fun p hp => doSeqClear_padIsOff hlatch hp, (hu.frame _ _).trans (doSeqClear_frame hlatch)⟩
    case rails =>
      rw [doSeqClear_railSt hlatch hn, State.railSt, State.railSt, hu.rd]
  case noLatch =>
    refine answers_of_ok seqClear_cmdReg (by decide) hl rfl (doCmd_seqClear ..) fun hu => ?_
    rw [doSeqClear_of_clear (by rwa [hu.rd])]
    exact ⟨State.rd_wr_same .., (hu.frame _ _).wr _ _ (by decide)⟩

end Sys2Proof.Machine
end

section
/-! PROOF. The supplies of the two sides: what each start, stop, switch and limit leaves of the registers, the stores and the
service (spec/01_architecture.md R24, R26; spec/02_object_dictionary.md R62; spec/04_electrical.md R116-R122). -/
namespace Sys2Proof.Machine

/-! ### Reading a table without some of its entries -/

theorem tget_of_tabove {α : Type} (d : α) {t : Table α} {q : Nat} (h : tabove q t) : tget d t q = d := by
  induction t with
  | nil => rfl
  | cons e t ih =>
    have hk : q ≠ e.1 := Nat.ne_of_lt (h e List.mem_cons_self)
    exact (if_neg hk).trans (ih fun a ha => h a (List.mem_cons_of_mem _ ha))

/-- Of a sorted table each key has one entry, so that dropping entries by key and value drops a key's value or keeps it. -/
theorem tget_filter {α : Type} (d : α) {t : Table α} (c : Nat × α → Bool) (h : tsorted t = true) (q : Nat) :
    tget d (t.filter c) q = if c (q, tget d t q) = true then tget d t q else d := by
  induction t with
  | nil => exact (ite_self d).symm
  | cons e t ih =>
    obtain ⟨k, v⟩ := e
    obtain ⟨habove, hsorted⟩ := (tsorted_cons ..).1 h
    by_cases hq : q = k
    · subst hq
      have hrest : tget d (t.filter c) q = d := tget_of_tabove d fun e he => habove e (List.mem_filter.1 he).1
      by_cases hc : c (q, v) = true <;> simp [tget, hc, hrest]
    · have hskip : tget d ((k, v) :: t) q = tget d t q := if_neg hq
      rw [hskip, ← ih hsorted, List.filter_cons]
      split
      · exact if_neg hq
      · rfl

theorem tsorted_hv_of_inv {s : State} (h : s.inv = true) : tsorted s.hv = true := by
  simp only [State.inv, State.regsOk, regTableOk, twfAt, Bool.and_eq_true] at h
  obtain ⟨⟨_, ⟨hsorted, _⟩, _⟩, _⟩ := h
  exact hsorted

/-- What the HV die reads when only what the wake stage holds is left of its registers (R116, R156). -/
theorem hrd_of_wakeHolds {s t : State} (hi : s.inv = true) (h : t.hv = s.hv.filter wakeHolds) (k : Nat) :
    t.hrd k = if wakeHolds (k, s.hrd k) = true then s.hrd k else dfltAt k := by
  rw [State.hrd, h]
  exact tget_filter _ _ (tsorted_hv_of_inv hi) k

/-! ### Stores, sources, flags and updates under a condition -/

theorem sameStores_of_eq {s t : State} (hfw : t.fw = s.fw) (hsto : t.sto = s.sto) (hfla : t.fla = s.fla) (hlog : t.log = s.log) :
    SameStores s t :=
  ⟨fun a => by rw [State.codeByte, State.codeByte, hfw], by rw [hfw], by rw [hsto], by rw [hfla], by rw [hfla], by rw [hfla],
    .of_eq (by rw [hlog])⟩

theorem Frame.sup {K H s t} (x : Supply) (h : Frame K H s t) : Frame K H s { t with sup := x } :=
  h.of_eq rfl rfl (sameStores_of_eq rfl rfl rfl rfl)

theorem srcOf_setSrc (s : State) (j : Nat) (x : SrcState) (q : Nat) :
    (s.setSrc j x).srcOf q = if q = j then x else s.srcOf q := tget_tset ..

/-- A flag that the register has room for reads as set once it is set (R476). -/
theorem bitOf_flag (s : State) {k i : Nat} (h : i < 8 * sizeAt k) : (s.flag k i).bitOf k i = true := by
  have hrd : (s.flag k i).rd k = (s.rd k ||| 2 ^ i) % 2 ^ (8 * sizeAt k) := by rw [Nat.pow_mul]; exact State.rd_wr_same ..
  simp [State.bitOf, hrd, Nat.testBit_mod_two_pow, h]

theorem logOnly_iff_event (s : State) (c : Bool) (code obj detail a b : Nat) :
    LogOnly s (s.iff c (·.event code obj detail a b)) := by
  unfold State.iff
  split
  · exact logOnly_event ..
  · exact .refl s

theorem LogOnly.phase {s t} (h : LogOnly s t) : t.phase = s.phase := by obtain ⟨_, _, _, _, _, rfl, _⟩ := h; rfl

/-! ### The logic side's sources, the USB port and the integrated supply -/

/-- The selector has moved to the first source available, and counted it (R24, R26). -/
def State.switched (s : State) : State := { s with sup := { s.sup with source := s.firstSource } }.bump Reg.sourceSwitches

theorem exec_sourceSwitch {s : State}
    (h : (s.sup.source = .iso ∧ s.firstSource = .vlog) ∨ (s.sup.source = .vlog ∧ s.firstSource = .iso)) :
    ∃ obj a, exec .sourceSwitch s = .next (s.switched.iff s.sup.running (·.event 0x1002 0xFF obj a)) :=
  ⟨_, _, if_pos (by simpa using h)⟩

theorem switched_frame (s : State) : Frame (Reg.sourceSwitches :: eventKeys) [] s s.switched :=
  ((Frame.refl _ _ s).sup _).wr _ _ List.mem_cons_self

/-- The USB session has ended: what the source held for it is gone (R62). -/
def State.detached (s : State) : State :=
  { s with sup := { s.sup with usbUp := false }, svc := { s.svc with usbFrame := none, usbBuf := [] } }.setSrc 1
    { s.srcOf 1 with shadows := [], unlocked := false, cursor := none, xfer := none }

theorem exec_usbAttach {s : State} (h1 : s.sup.usb = true) (h2 : s.sup.running = true ∨ s.sup.romOnly = true)
    (h3 : s.sup.usbUp = false) : exec .usbAttach s = .next { s with sup := { s.sup with usbUp := true } } :=
  if_pos (by simpa [h1, h3] using h2)

theorem exec_usbDetach {s : State} (h : s.sup.usbUp = true) : exec .usbDetach s = .next s.detached := if_pos h

theorem detached_srcOf_usb (s : State) :
    s.detached.srcOf 1 = { s.srcOf 1 with shadows := [], unlocked := false, cursor := none, xfer := none } := srcOf_setSrc _ 1 _ 1

theorem detached_srcOf_ne (s : State) {j : Nat} (h : j ≠ 1) : s.detached.srcOf j = s.srcOf j :=
  (srcOf_setSrc _ 1 _ j).trans (if_neg h)

theorem detached_frame (s : State) : Frame [] [] s s.detached :=
  (Frame.refl _ _ s).of_eq rfl rfl (sameStores_of_eq rfl rfl rfl rfl)

theorem exec_visoReduced {s : State} (h1 : s.sup.main = true) (h2 : s.sup.reduced = false) (h3 : s.smp.vbusIn < 9000) :
    exec .visoReduced s =
      .next ({ s with sup := { s.sup with reduced := true } }.told [.flag Reg.elecFlags 2, .event 0x7006 0xFF 1 0 0]) :=
  if_pos (by simp [h1, h2, h3])

/-- VISO's current limit is counted and flagged (R119). -/
def State.isoLimited (s : State) : State := (s.bump Reg.isoLimitCount).flag Reg.elecFlags 3

theorem exec_visoCurrentLimit {s : State} (h1 : s.sup.main = true) (h2 : s.sup.running = true) :
    exec .visoCurrentLimit s = .next (s.isoLimited.event 0x7006 0xFF 2) :=
  (if_pos h1).trans (congrArg _ (if_pos h2))

theorem isoLimited_counts (s : State) : s.isoLimited.rd Reg.isoLimitCount = fit Reg.isoLimitCount (s.rd Reg.isoLimitCount + 1) :=
  (State.rd_wr_ne (s.bump Reg.isoLimitCount) _ (by decide)).trans (State.rd_wr_same ..)

theorem isoLimited_frame (s : State) : Frame [Reg.isoLimitCount, Reg.elecFlags] [] s s.isoLimited :=
  ((Frame.refl _ _ s).wr _ _ (by decide)).putBit Reg.elecFlags 3 true (by decide)

/-! ### The wake stage and the main supply -/

theorem exec_wakeStageStart {s : State} (h1 : s.sup.wake = false) (h2 : 16000 ≤ s.smp.feedA ∨ 16000 ≤ s.smp.feedB) :
    exec .wakeStageStart s = .next { s with sup := { s.sup with wake := true } } :=
  if_pos (by simpa [h1] using h2)

theorem exec_wakeStageStop {s : State} (h1 : s.sup.wake = true) (h2 : s.smp.feedA < 14000) (h3 : s.smp.feedB < 14000) :
    exec .wakeStageStop s = .next { s with sup := { s.sup with wake := false } }.feedsDead :=
  if_pos (by simp [h1, h2, h3])

theorem feedsDead_of_powered {s : State} (h : s.sup.wake = true ∨ s.sup.main = true) : s.feedsDead = s :=
  if_pos (by simpa using h)

theorem feedsDead_of_unpowered {s : State} (h1 : s.sup.wake = false) (h2 : s.sup.main = false) :
    s.feedsDead = { s with hv := [], feeds := [], bus := {}, runs := s.runs.filter (fun e => e.1 < 200) } :=
  if_neg (by simp [h1, h2])

/-- The HV die has its supply: of its registers what the wake stage held is left, its parts are new (R117, R141). -/
def State.mainPowered (s : State) : State :=
  { s with
    sup := { s.sup with main := true, reduced := false }
    hv := s.hv.filter wakeHolds
    trk := { seekTicks := some 0 }
    clk := { s.clk with hvTic := 0, hvCyc := 0 }
    bar := { s.bar with hbArmed := false, hbLost := false, hbLen := 0, hbGap := 0, episode := none, hvSeq := 0, hvDiscards := 0,
                        hvConfigured := false, b2 := false } }

theorem exec_mainSupplyStart {s : State} (h1 : s.sup.main = false) (h2 : 9000 ≤ s.smp.vbusIn) :
    exec .mainSupplyStart s = .next (s.mainPowered.hwr Reg.tbState Tb.seeking) :=
  if_pos (by simp [h1, h2])

/-- The power side has lost its supply, and with it the integrated supply and the barrier (R117, R158). -/
def State.mainUnpowered (s : State) : State :=
  { s with
    sup := { s.sup with main := false, reduced := false, iso := false }
    hv := s.hv.filter wakeHolds
    trk := {}
    lad := s.lad.powerOff
    hux := s.hux.powerOff
    runs := s.runs.filter (fun e => e.1 < 300)
    bar := { halted := s.bar.halted, wakeTold := s.bar.wakeTold, reports := s.bar.reports } }

/-- What the logic die says of the power side once that has stopped: the time base off, the barrier down, the holdup without its
supply (R117, R136, R158). -/
def State.stopTold (s : State) : State := ((s.wr Reg.tbState Tb.off).wr Reg.barrierState 0).huUnpowered

/-- Before the takeover a start that is past POWER_WAKE goes back to it (R158). -/
def State.backToPowerWake (s : State) : State :=
  if s.phase = .start && !s.taken && (s.step = Step.configLoad || s.step = Step.configHeld) then s.wr Reg.startStep Step.powerWake
  else s

theorem exec_mainSupplyStop {s : State} (h1 : s.sup.main = true) (h2 : s.smp.vbusIn < 6500) (h3 : s.sup.wake = true) :
    exec .mainSupplyStop s = .next s.mainUnpowered.stopTold.backToPowerWake :=
  calc exec .mainSupplyStop s = .next s.mainUnpowered.feedsDead.stopTold.backToPowerWake := if_pos (by simp [h1, h2])
    _ = _ := by rw [feedsDead_of_powered (s := s.mainUnpowered) (.inl h3)]

theorem backToPowerWake_eq (s : State) : ∃ reg, s.backToPowerWake = { s with reg := reg } := by
  unfold State.backToPowerWake
  split <;> exact ⟨_, rfl⟩

theorem backToPowerWake_frame (s : State) : Frame [Reg.startStep] [] s s.backToPowerWake :=
  .ite (fun _ => (Frame.refl ..).wr _ _ List.mem_cons_self) (fun _ => .refl ..)

theorem rd_huUnpowered (s : State) {k : Nat} (h : k ∉ [Reg.huState, Reg.huOffWhy, Reg.huReady]) : s.huUnpowered.rd k = s.rd k := by
  simp only [List.mem_cons, List.not_mem_nil, or_false, not_or] at h
  obtain ⟨hstate, hwhy, hready⟩ := h
  rw [State.huUnpowered, State.rd_wr_ne _ _ hready, State.rd_wr_ne _ _ hwhy, State.rd_wr_ne _ _ hstate]

theorem huUnpowered_huReady (s : State) : s.huUnpowered.rd Reg.huReady = 0 := State.rd_wr_same ..

theorem huUnpowered_huState (s : State) :
    s.huUnpowered.rd Reg.huState = Hs.off ∨ s.huUnpowered.rd Reg.huState = Hs.latched := by
  rw [State.huUnpowered, State.rd_wr_ne _ _ (by decide), State.rd_wr_ne _ _ (by decide), State.rd_wr_same]
  split
  · exact .inr rfl
  · exact .inl rfl

theorem stopTold_tbState (s : State) : s.stopTold.rd Reg.tbState = Tb.off :=
  (rd_huUnpowered _ (by decide)).trans ((State.rd_wr_ne _ _ (by decide)).trans (State.rd_wr_same ..))

theorem stopTold_barrierState (s : State) : s.stopTold.rd Reg.barrierState = 0 :=
  (rd_huUnpowered _ (by decide)).trans (State.rd_wr_same ..)

theorem rd_stopTold (s : State) {k : Nat} (h : k ∉ [Reg.tbState, Reg.barrierState, Reg.huState, Reg.huOffWhy, Reg.huReady]) :
    s.stopTold.rd k = s.rd k := by
  simp only [List.mem_cons, not_or] at h
  obtain ⟨htb, hbarrier, hhu⟩ := h
  exact (rd_huUnpowered _ (by simpa using hhu)).trans ((State.rd_wr_ne _ _ hbarrier).trans (State.rd_wr_ne _ _ htb))

/-! ### The obligation -/

/-- Settles O3: each command answers one update of the supplies (the `exec_` lemmas); what the HV die still reads of its registers
is `hrd_of_wakeHolds`, what is left of the stores `sameStores_of_eq`. -/
theorem suppliesStartAndStop : Obligations.SuppliesStartAndStop := by
  refine ⟨fun s h => ?switch, fun s h1 h2 h3 => ⟨_, exec_usbAttach h1 h2 h3, rfl⟩, fun s h => ?detach,
    fun s h1 h2 h3 h4 => ?reduced, fun s h1 h2 => ?limit, fun s h1 h2 => ⟨_, exec_wakeStageStart h1 h2, rfl⟩,
    fun s h1 h2 h3 h4 => ?wakeStopPowered, fun s h1 h2 h3 h4 => ?wakeStopUnpowered, fun s h1 h2 => ?mainStart,
    fun s h1 h2 h3 => ?mainStop⟩
  case switch =>
    obtain ⟨obj, a, he⟩ := exec_sourceSwitch h
    have hl := logOnly_iff_event s.switched s.sup.running 0x1002 0xFF obj a 0
    obtain ⟨_, _, hsup, _⟩ := hl.outside
    exact ⟨_, he, by rw [hsup]; rfl, (hl.rd (by decide)).trans (State.rd_wr_same ..), by rw [hsup]; rfl, hl.phase,
      hl.frame (List.subset_cons_self ..) (switched_frame s)⟩
  case detach =>
    have hu := detached_srcOf_usb s
    exact ⟨_, exec_usbDetach h, rfl, rfl, by rw [hu], by rw [hu], by rw [hu], by rw [hu], fun j hj => detached_srcOf_ne s hj,
      detached_frame s⟩
  case reduced =>
    refine ⟨_, exec_visoReduced h1 h2 h3, ?_, ?_, ((Frame.refl _ _ s).sup _).told _⟩
    · rw [State.told_eq]
    · rw [Reports, State.told_eq]
      exact if_pos h4
  case limit =>
    refine ⟨_, exec_visoCurrentLimit h1 h2, ?_, ?_, ⟨s.isoLimited, _, _, _, _, rfl, ?_⟩, ?_⟩
    · exact (State.rd_event _ _ _ _ _ _ (by decide)).trans (isoLimited_counts s)
    · rw [State.bitOf, State.rd_event _ _ _ _ _ _ (by decide)]
      exact bitOf_flag _ (by decide)
    · exact (isoLimited_frame s).rd (by decide)
    · exact ((isoLimited_frame s).mono (List.subset_append_right ..) (List.Subset.refl _)).event _ _ _ _ _
        (List.subset_append_left ..)
  case wakeStopPowered =>
    exact ⟨_, exec_wakeStageStop h1 h3 h4, feedsDead_of_powered (.inr h2)⟩
  case wakeStopUnpowered =>
    refine ⟨_, exec_wakeStageStop h1 h3 h4, ?_⟩
    rw [feedsDead_of_unpowered rfl (by exact h2)]
    exact ⟨rfl, fun _ => rfl, rfl, fun _ => rfl, sameStores_of_eq rfl rfl rfl rfl⟩
  case mainStart =>
    refine ⟨_, exec_mainSupplyStart h1 h2, rfl, State.hrd_hwr_same .., rfl, rfl, rfl, fun hi k hk => ?_, fun _ => rfl,
      sameStores_of_eq rfl rfl rfl rfl⟩
    exact (State.hrd_hwr_ne _ _ hk).trans (hrd_of_wakeHolds hi rfl k)
  case mainStop =>
    have hf := backToPowerWake_frame s.mainUnpowered.stopTold
    obtain ⟨reg, he⟩ := backToPowerWake_eq s.mainUnpowered.stopTold
    refine ⟨_, exec_mainSupplyStop h1 h2 h3, by rw [he]; rfl, by rw [he]; rfl, (hf.rd (by decide)).trans (stopTold_tbState _),
      (hf.rd (by decide)).trans (stopTold_barrierState _), by rw [he]; rfl, (hf.rd (by decide)).trans (huUnpowered_huReady _),
      ?huState, fun hi => hrd_of_wakeHolds hi (by rw [he]; rfl), fun k hk => ?rd, ?stores⟩
    case huState =>
      rw [hf.rd (by decide)]
      exact huUnpowered_huState _
    case rd =>
      simp only [List.mem_cons, List.not_mem_nil, or_false, not_or] at hk
      exact (hf.rd (by simp [hk])).trans (rd_stopTold _ (by simp [hk]))
    case stores => exact (sameStores_of_eq rfl rfl rfl rfl).trans hf.2

end Sys2Proof.Machine
end

section
/-! PROOF. What a write of CELL_TARGET, CHG_I or CHG_RSENSE must meet (spec/08_ladle.md R205, R209), by the checks of a write
(spec/02_object_dictionary.md R49, R50, R52). -/
namespace Sys2Proof.Machine

/-! ### A WRITE that a check turns away -/

theorem le_maxL (j : Nat) : 56 ≤ maxL j := by
  unfold maxL
  split
  · decide
  · split <;> decide

theorem exec_write (r : Req) (s : State) : exec (.write r) s = .next (s.request Op.write r) := rfl

/-- A write that passes its bars is answered with the abort of the check it fails (R52, R76). -/
theorem refuses_write_of_check {s u : State} {r : Req} {w : Row} {code detail : Nat} (hadm : s.admits Op.write r = some u)
    (hrow : rowIn (reqKey r) = some w) (hbar : u.writeBar r.src.val (reqKey r) w = none)
    (hlen : ¬ (maxL r.src.val < tySize w.ty ∨ reqKey r = Reg.winData))
    (hcheck : u.checkWrite (reqKey r) w (reqBytes r) = .error (code, detail))
    (hcode : code ∉ [0x01030000, 0x01040000, 0x01050000]) :
    Refuses (.write r) Op.write r code detail s fun t => t = u := by
  obtain ⟨hin, hready, hthere⟩ := admits_eq_some hadm
  have habs : u.absent Op.write (reqKey r) = none := by simpa [Op.write, Op.segData, Op.segAbort] using hthere
  have hlen : ¬ ((maxL r.src.val < tySize w.ty || reqKey r = Reg.winData) = true) := by simpa using hlen
  have hdo : u.perform Op.write r 0 = .abort u code detail := by
    simp only [State.perform, hready, habs, hrow, State.doWrite, hbar, hlen, State.doValue, hcheck]
    rfl
  obtain ⟨h1, h2, h3⟩ : code ≠ 0x01030000 ∧ code ≠ 0x01040000 ∧ code ≠ 0x01050000 := by simpa using hcode
  refine ⟨u, ?_, rfl⟩
  rw [exec_write, request_of_intake hin, hdo]
  simp [State.finish, State.noteRetry, State.replyAbort, h1, h2, h3, Op.write]

theorem checkWrite_of_valueFault {s : State} {k : Nat} {w : Row} {l : List Nat} {e : Nat × Nat} (h : valueFault k w l = some e) :
    s.checkWrite k w l = .error e := by
  simp only [State.checkWrite, h]

theorem checkWrite_of_conflict {s : State} {k i : Nat} {w : Row} {l : List Nat} (h : valueFault k w l = none)
    (hc : s.conflict k (leValue l) = some i) : s.checkWrite k w l = .error (0x03060000, i) := by
  simp only [State.checkWrite, h, hc]

/-- A value that is accepted fails no check of its own and conflicts with no other parameter (R52). -/
theorem checkWrite_eq_ok {s : State} {k v : Nat} {w : Row} {l : List Nat} (h : s.checkWrite k w l = .ok v) :
    valueFault k w l = none ∧ s.conflict k v = none := by
  obtain rfl := leValue_of_checkWrite h
  unfold State.checkWrite at h
  split at h
  · cases h
  next hvalue =>
    split at h
    · cases h
    next hconflict => exact ⟨hvalue, hconflict⟩

theorem fits_carrier {w : Row} {k : Nat} (j : Nat) (hw : tySize w.ty ≤ 56) (hk : k ≠ Reg.winData) :
    ¬ (maxL j < tySize w.ty ∨ k = Reg.winData) := by
  have hj := le_maxL j
  omega

/-! ### The rules among parameters -/

/-- Only the rules that involve a parameter are looked at. -/
theorem conflict_eq_filter (s : State) (k v : Nat) :
    s.conflict k v = ((rules.filter (fun r => r.keys.contains k)).find?
      (fun r => r.bad (fun q => if q = k then v else s.rd q))).map (·.names k) := by
  simp only [State.conflict, List.find?_filter, Bool.decide_and, Bool.decide_eq_true]

theorem rules_cellTarget : rules.filter (fun r => r.keys.contains Reg.cellTarget) =
    [{ keys := [Reg.cellTarget, Reg.cellVmax], bad := fun g => decide (g Reg.cellVmax < g Reg.cellTarget + 50) }] := rfl

theorem rules_chgI : rules.filter (fun r => r.keys.contains Reg.chgI) =
    [{ keys := [Reg.chgI, Reg.chgRsense], bad := fun g => decide (100000000 < g Reg.chgI * g Reg.chgRsense) }] := rfl

theorem rules_chgRsense : rules.filter (fun r => r.keys.contains Reg.chgRsense) =
    [{ keys := [Reg.chgI, Reg.chgRsense], bad := fun g => decide (100000000 < g Reg.chgI * g Reg.chgRsense) }] := rfl

/-- CELL_TARGET stays 50 mV below CELL_VMAX (R205). -/
theorem conflict_cellTarget (s : State) (v : Nat) :
    s.conflict Reg.cellTarget v = if s.rd Reg.cellVmax < v + 50 then some 0x2100 else none := by
  have hne : Reg.cellVmax ≠ Reg.cellTarget := by decide
  rw [conflict_eq_filter, rules_cellTarget]
  by_cases h : s.rd Reg.cellVmax < v + 50 <;> simp [List.find?, h, hne, CRule.names]
  rfl

/-- CHG_I times CHG_RSENSE is at most 100 mV (R209). -/
theorem conflict_chgI (s : State) (v : Nat) :
    s.conflict Reg.chgI v = if 100000000 < v * s.rd Reg.chgRsense then some 0x2101 else none := by
  have hne : Reg.chgRsense ≠ Reg.chgI := by decide
  rw [conflict_eq_filter, rules_chgI]
  by_cases h : 100000000 < v * s.rd Reg.chgRsense <;> simp [List.find?, h, hne, CRule.names]
  rfl

theorem conflict_chgRsense (s : State) (v : Nat) :
    s.conflict Reg.chgRsense v = if 100000000 < s.rd Reg.chgI * v then some 0x2101 else none := by
  have hne : Reg.chgI ≠ Reg.chgRsense := by decide
  rw [conflict_eq_filter, rules_chgRsense]
  by_cases h : 100000000 < s.rd Reg.chgI * v <;> simp [List.find?, h, hne, CRule.names]
  rfl

theorem SvcOnly.conflict {s t} (h : SvcOnly s t) (k v) : t.conflict k v = s.conflict k v := by rw [h]; rfl

/-! ### The three parameters -/

/-- CELL_TARGET's row: 2000 to 3000 mV in steps of 5 (R205). -/
def cellTargetRow : Row := ⟨0x02, .u16, .rw, .persisted, 1, 2500, .stepped 2000 3000 5, false⟩

theorem rowIn_cellTarget : rowIn Reg.cellTarget = some cellTargetRow := rfl
theorem rowIn_chgI : rowIn Reg.chgI = some ⟨0x03, .u16, .rw, .persisted, 2, 2000, .range 250 6000, false⟩ := rfl
theorem rowIn_chgRsense : rowIn Reg.chgRsense = some ⟨0x04, .u32, .rwi, .persisted, 6, 10000, .range 2000 100000, false⟩ := rfl

/-- The value alone is checked for its length, its range and its step (R49, R52, R205). -/
theorem valueFault_cellTarget (l : List Nat) :
    valueFault Reg.cellTarget cellTargetRow l =
      (if l.length = 2 then none else some (0x03010000, 2)).or (rangeFault 2000 3000 5 (leValue l)) := by
  have hprofile : Reg.cellTarget / 256 ≠ 0x3001 := by decide
  by_cases hlen : l.length = 2 <;>
    simp [valueFault, cellTargetRow, lenFault, tyFault, chkFault, tySigned, tySize, hprofile, hlen]

theorem valueFault_cellTarget_of_range {l : List Nat} (hlen : l.length = 2) (hlow : 2000 ≤ leValue l) (hhigh : leValue l ≤ 3000) :
    valueFault Reg.cellTarget cellTargetRow l = if leValue l % 5 = 0 then none else some (0x03080000, 0) := by
  have hmod : (leValue l : Int) % 5 = 0 ↔ leValue l % 5 = 0 := by omega
  rw [valueFault_cellTarget, if_pos hlen, Option.none_or, rangeFault, if_neg (by omega), if_neg (by omega), ite_not]
  simp only [hmod]

theorem step_of_valueFault_cellTarget {l : List Nat} (h : valueFault Reg.cellTarget cellTargetRow l = none) :
    leValue l % 5 = 0 := by
  rw [valueFault_cellTarget, Option.or_eq_none_iff] at h
  obtain ⟨_, hrange⟩ := h
  unfold rangeFault at hrange
  split at hrange
  · cases hrange
  · split at hrange
    · cases hrange
    · split at hrange
      · cases hrange
      · omega

/-- What a write that is let through leaves no conflict with, in the state before it (R52). -/
theorem conflict_of_takes {s u : State} {r : Req} {v : Nat} {w : Row} (hw : rowIn (reqKey r) = some w)
    (h : s.takes r = some (u, v)) : s.conflict (reqKey r) v = none := by
  obtain ⟨hin, _, _, _, _, hcheck⟩ := takes_eq_some hw h
  obtain ⟨_, hconflict⟩ := checkWrite_eq_ok hcheck
  rwa [(svcOnly_intake hin).conflict] at hconflict

/-- A conflict in the state before the write turns it away (R52). -/
theorem refuses_write_of_conflict {s u : State} {r : Req} {w : Row} {i : Nat} (hadm : s.admits Op.write r = some u)
    (hrow : rowIn (reqKey r) = some w) (hbar : u.writeBar r.src.val (reqKey r) w = none)
    (hlen : ¬ (maxL r.src.val < tySize w.ty ∨ reqKey r = Reg.winData)) (hvalue : valueFault (reqKey r) w (reqBytes r) = none)
    (hconflict : s.conflict (reqKey r) (leValue (reqBytes r)) = some i) :
    Refuses (.write r) Op.write r 0x03060000 i s fun t => t = u := by
  obtain ⟨hin, _⟩ := admits_eq_some hadm
  refine refuses_write_of_check hadm hrow hbar hlen (checkWrite_of_conflict hvalue ?_) (by decide)
  rwa [(svcOnly_intake hin).conflict]

theorem length_reqBytes (r : Req) : (reqBytes r).length = r.data.length := List.length_map _

/-- Settles O58: a write is refused by the check of its value alone (`valueFault_cellTarget_of_range`) or by the one rule that
involves its parameter (`conflict_cellTarget`, `conflict_chgI`, `conflict_chgRsense`), and one let through has passed both. -/
theorem chargeSettingsMeetTheirRules : Obligations.ChargeSettingsMeetTheirRules := by
  refine ⟨fun s u r w hadm hkey hrow hbar hlen hlow hhigh hstep => ?offStep,
    fun s u r w hadm hkey hrow hbar hlen hlow hhigh hstep hmax => ?tooHigh, fun s u r v htake hkey => ?target,
    fun s u r w hadm hkey hrow hbar hvalue hprod => ?chgI, fun s u r w hadm hkey hrow hbar hvalue hprod => ?chgRsense,
    fun s u r v htake hkey => ?chgITaken, fun s u r v htake hkey => ?chgRsenseTaken⟩
  case offStep =>
    obtain rfl : cellTargetRow = w := Option.some.inj (rowIn_cellTarget.symm.trans (hkey ▸ hrow))
    refine refuses_write_of_check hadm hrow hbar (fits_carrier _ (by decide) (by rw [hkey]; decide))
      (checkWrite_of_valueFault ?_) (by decide)
    rw [hkey, valueFault_cellTarget_of_range (by rw [length_reqBytes, hlen]) hlow hhigh, if_neg hstep]
  case tooHigh =>
    obtain rfl : cellTargetRow = w := Option.some.inj (rowIn_cellTarget.symm.trans (hkey ▸ hrow))
    refine refuses_write_of_conflict hadm hrow hbar (fits_carrier _ (by decide) (by rw [hkey]; decide)) ?_ ?_
    · rw [hkey, valueFault_cellTarget_of_range (by rw [length_reqBytes, hlen]) hlow hhigh, if_pos hstep]
    · rw [hkey, conflict_cellTarget, if_pos hmax]
  case target =>
    have hrow : rowIn (reqKey r) = some cellTargetRow := by rw [hkey]; exact rowIn_cellTarget
    have hconflict := conflict_of_takes hrow htake
    obtain ⟨_, _, _, _, _, hcheck⟩ := takes_eq_some hrow htake
    obtain ⟨hvalue, _⟩ := checkWrite_eq_ok hcheck
    rw [hkey] at hvalue
    exact ⟨leValue_of_checkWrite hcheck ▸ step_of_valueFault_cellTarget hvalue,
      by simpa [hkey, conflict_cellTarget] using hconflict⟩
  case chgI =>
    have hty : tySize w.ty ≤ 56 := by
      rw [hkey] at hrow
      cases rowIn_chgI.symm.trans hrow
      decide
    refine refuses_write_of_conflict hadm hrow hbar (fits_carrier _ hty (by rw [hkey]; decide)) hvalue ?_
    rw [hkey, conflict_chgI, if_pos hprod]
  case chgRsense =>
    have hty : tySize w.ty ≤ 56 := by
      rw [hkey] at hrow
      cases rowIn_chgRsense.symm.trans hrow
      decide
    refine refuses_write_of_conflict hadm hrow hbar (fits_carrier _ hty (by rw [hkey]; decide)) hvalue ?_
    rw [hkey, conflict_chgRsense, if_pos hprod]
  case chgITaken =>
    have hconflict := conflict_of_takes (by rw [hkey]; exact rowIn_chgI) htake
    simpa [hkey, conflict_chgI] using hconflict
  case chgRsenseTaken =>
    have hconflict := conflict_of_takes (by rw [hkey]; exact rowIn_chgRsense) htake
    simpa [hkey, conflict_chgRsense] using hconflict

end Sys2Proof.Machine
end

section
/-! PROOF. A usable tap scan's work on both dies (spec/08_ladle.md R200, R201, R206, R210-R212, R216, R223, R224), and the
charger's commands (R204, R206, R208). -/
namespace Sys2Proof.Machine

/-! ### What the work on a scan leaves standing -/

/-- The readings a usable scan leaves (R200). -/
def Ladle.reading (l : Ladle) : List Int × Nat × Int × Bool × Nat := (l.v, l.stack, l.sum, l.scanned, l.missed)

/-- The work on a scan leaves its readings and every store as they are, and clears no invalid sensor's flag (R201). -/
structure ScanStands (s t : State) : Prop where
  reading : t.lad.reading = s.lad.reading
  sensorFlag : s.bitOf Reg.ladleFlags 6 = true → t.bitOf Reg.ladleFlags 6 = true
  stores : SameStores s t

/-- A bit that a flag parameter has room for stays set when another one is set (R476). -/
theorem bitOf_flag_of_bitOf {s : State} {k i : Nat} (j : Nat) (hi : i < 8 * sizeAt k) (h : s.bitOf k i = true) :
    (s.flag k j).bitOf k i = true := by
  have hrd : (s.flag k j).rd k = (s.rd k ||| 2 ^ j) % 2 ^ (8 * sizeAt k) := by rw [Nat.pow_mul]; exact State.rd_wr_same ..
  rw [State.bitOf] at h
  simp [State.bitOf, hrd, Nat.testBit_mod_two_pow, hi, h]

theorem rkey_ne_of_lt {i j a b : Nat} (h : j < i) (hb : b < 256) : rkey i a ≠ rkey j b := by
  unfold rkey
  omega

/-- The cells' and the taps' registers lie above LADLE_FLAGS' index. -/
theorem rkey_ne_ladleFlags {i sub : Nat} (h : 0x2100 < i) : rkey i sub ≠ Reg.ladleFlags := rkey_ne_of_lt h (by decide)

namespace ScanStands
variable {s t : State}

theorem refl (s) : ScanStands s s := ⟨rfl, id, .refl s⟩

theorem trans {u} (h1 : ScanStands s t) (h2 : ScanStands t u) : ScanStands s u :=
  ⟨h2.reading.trans h1.reading, fun h => h2.sensorFlag (h1.sensorFlag h), h1.stores.trans h2.stores⟩

/-- An update of fields that are neither the logic die's registers nor stores, and no readings. -/
theorem upd {u} (h : ScanStands s t) (hlad : u.lad.reading = t.lad.reading) (hreg : u.reg = t.reg)
    (hstores : SameStores t u) : ScanStands s u :=
  h.trans ⟨hlad, fun hf => by rwa [State.bitOf, State.rd_congr hreg], hstores⟩

theorem lad (h : ScanStands s t) (x : Ladle) (hx : x.reading = t.lad.reading := by rfl) :
    ScanStands s { t with lad := x } :=
  h.upd hx rfl (sameStores_of_eq rfl rfl rfl rfl)

theorem runs (h : ScanStands s t) (x) : ScanStands s { t with runs := x } :=
  h.upd rfl rfl (sameStores_of_eq rfl rfl rfl rfl)

theorem hwr (h : ScanStands s t) (k v) : ScanStands s (t.hwr k v) := h.upd rfl rfl (sameStores_of_eq rfl rfl rfl rfl)

theorem wr (h : ScanStands s t) {k} (v) (hk : k ≠ Reg.ladleFlags) : ScanStands s (t.wr k v) :=
  h.trans ⟨rfl, fun hf => by rwa [State.bitOf, State.rd_wr_ne _ _ hk.symm], sameStores_of_eq rfl rfl rfl rfl⟩

theorem flag (h : ScanStands s t) (k i) : ScanStands s (t.flag k i) := by
  refine h.trans ⟨rfl, fun hf => ?_, sameStores_of_eq rfl rfl rfl rfl⟩
  by_cases hk : k = Reg.ladleFlags
  · rw [hk]
    exact bitOf_flag_of_bitOf i (by decide) hf
  · rwa [State.bitOf, State.rd_congr (t := t.flag k i) (s := t.wr k (t.rd k ||| 2 ^ i)) rfl, State.rd_wr_ne _ _ (Ne.symm hk)]

theorem event (h : ScanStands s t) (code obj detail a b) : ScanStands s (t.event code obj detail a b) := by
  have hframe : Frame eventKeys [] t (t.event code obj detail a b) := (Frame.refl ..).event _ _ _ _ _ (List.Subset.refl _)
  exact h.trans ⟨by rw [State.event_lad], fun hf => by rwa [State.bitOf, hframe.rd (by decide)], hframe.2⟩

theorem ite {a b : State} {c : Prop} [Decidable c] (h1 : ScanStands s a) (h2 : ScanStands s b) :
    ScanStands s (if c then a else b) := by
  split
  · exact h1
  · exact h2

theorem iff (h : ScanStands s t) (c : Bool) (f : State → State) (hf : ∀ u, ScanStands s u → ScanStands s (f u)) :
    ScanStands s (t.iff c f) := ite (hf t h) h

theorem each {α : Type} (h : ScanStands s t) (l : List α) (f : α → State → State)
    (hf : ∀ a u, ScanStands s u → ScanStands s (f a u)) : ScanStands s (t.each l f) := by
  unfold State.each
  induction l generalizing t with
  | nil => exact h
  | cons a l ih => exact ih (hf a t h)

theorem putBit (h : ScanStands s t) {k} (i v) (hk : k ≠ Reg.ladleFlags) : ScanStands s (t.putBit k i v) :=
  ite (h.flag k i) (h.wr _ hk)

theorem stopStart (h : ScanStands s t) (cause) : ScanStands s (t.stopStart cause) := by
  have hstop : ScanStands s { t with stopAt := t.rd Reg.startStep, lad := { t.lad with permit := t.lad.permit && cause = 4 } } :=
    h.upd rfl rfl (sameStores_of_eq rfl rfl rfl rfl)
  exact ite (((hstop.wr _ (by decide)).wr _ (by decide)).event ..) h

/-! ### Warnings and latches (R224) -/

theorem cellWarn (h : ScanStands s t) (n i on) : ScanStands s (t.cellWarn n i on) :=
  ite (ite h (((h.flag ..).flag ..).event ..))
    (ite (((h.wr _ (rkey_ne_ladleFlags (by omega))).putBit _ _ (by decide)).event ..) h)

theorem cellJudge (h : ScanStands s t) (n i bad good) : ScanStands s (t.cellJudge n i bad good) :=
  ite (h.cellWarn ..) (ite (h.cellWarn ..) h)

theorem latchLadle (h : ScanStands s t) (n i) : ScanStands s (t.latchLadle n i) := by
  unfold State.latchLadle
  extract_lets u
  have hu : ScanStands s u := (h.flag ..).event ..
  exact ite h (ite (hu.stopStart _) hu)

theorem ovEpisode (h : ScanStands s t) : ScanStands s t.ovEpisode := by
  unfold State.ovEpisode
  extract_lets l _ u
  have hu : ScanStands s u := (h.lad { t.lad with ovCycles := l }).wr (k := Reg.ovEpisodes) _ (by decide)
  exact ite (hu.latchLadle ..) hu

theorem cellFault (h : ScanStands s t) (n) : ScanStands s (t.cellFault n) := by
  unfold State.cellFault
  extract_lets v dev open2 big _ _ counted first high short
  have hcounted : ScanStands s counted := ((h.runs _).runs _).runs _
  have hhigh : ScanStands s high := ite ((hcounted.cellWarn ..).iff _ _ fun _ hu => hu.ovEpisode) hcounted
  have hshort : ScanStands s short := ite ((hhigh.flag ..).latchLadle ..) hhigh
  exact hshort.cellJudge ..

theorem scanFaults (h : ScanStands s t) : ScanStands s t.scanFaults := by
  unfold State.scanFaults
  extract_lets judged ended asked counted
  have hjudged : ScanStands s judged := h.each _ _ fun _ _ hu => hu.cellFault _
  have hended : ScanStands s ended := ite (hjudged.each _ _ fun _ _ hu => hu.cellWarn ..) hjudged
  have hcounted : ScanStands s counted := hended.runs _
  exact ite (hcounted.latchLadle ..) hcounted

theorem scanHeat (h : ScanStands s t) : ScanStands s t.scanHeat := by
  unfold State.scanHeat
  extract_lets hot _ noted bit
  have hnoted : ScanStands s noted := h.lad _
  exact ite ((hnoted.flag ..).event ..) (ite ((hnoted.wr (k := Reg.ladleFault) _ (by decide)).event ..) hnoted)

theorem countSig (h : ScanStands s t) (k) : ScanStands s (t.countSig k) := by
  unfold State.countSig
  extract_lets free counted
  have hcounted : ScanStands s counted := h.runs _
  exact ite (((hcounted.runs _).wr _ (rkey_ne_ladleFlags (by omega))).event ..) hcounted

/-! ### Capacitances (R211, R212) -/

theorem capResult (h : ScanStands s t) (l) : ScanStands s (t.capResult l) := by
  refine ((h.each _ _ fun e u hu => ?_).wr (k := Reg.capStamp) _ (by decide)).flag _ _
  extract_lets n written _ measured lim
  have hwritten : ScanStands s written :=
    ((hu.wr _ (rkey_ne_ladleFlags (by omega))).wr _ (rkey_ne_ladleFlags (by omega))).wr _ (rkey_ne_ladleFlags (by omega))
  have hmeasured : ScanStands s measured := hwritten.lad _
  exact ite (hu.event ..) ((hmeasured.event ..).cellJudge ..)

theorem segResult (h : ScanStands s t) (g) : ScanStands s (t.segResult g) := ite (h.capResult _) h

theorem endSeg (h : ScanStands s t) : ScanStands s t.endSeg := by
  unfold State.endSeg
  split
  · exact h
  · exact (h.lad _).segResult _

theorem scanAfterSeg (h : ScanStands s t) : ScanStands s t.scanAfterSeg := by
  unfold State.scanAfterSeg
  split
  · exact h
  · exact (h.lad _).segResult _

theorem scanAfterDraw (h : ScanStands s t) : ScanStands s t.scanAfterDraw := by
  unfold State.scanAfterDraw
  split
  · exact h
  · exact ((h.lad _).wr (k := Reg.capTests) _ (by decide)).capResult _

theorem segCells (h : ScanStands s t) (on) : ScanStands s (t.segCells on) := by
  unfold State.segCells
  split
  · exact h
  · exact h.lad _

/-! ### Charger, balancers, estimate (R206, R210, R216) -/

theorem scanCharger (h : ScanStands s t) : ScanStands s t.scanCharger := by
  unfold State.scanCharger
  extract_lets st nx moved _ counted ended
  have hcounted : ScanStands s counted := (h.hwr ..).lad _
  have hended : ScanStands s ended := ite hcounted.endSeg hcounted
  exact ite (ite (hended.lad _) hended) hended

theorem scanBalance (h : ScanStands s t) : ScanStands s t.scanBalance := (h.segCells _).lad _

theorem bootCaps (h : ScanStands s t) : ScanStands s t.bootCaps := by
  unfold State.bootCaps
  extract_lets booted
  have hbooted : ScanStands s booted := h.each _ _ fun n u hu => by
    extract_lets v
    have hv : ScanStands s v := ite hu ((hu.wr _ (rkey_ne_ladleFlags (by omega))).wr _ (rkey_ne_ladleFlags (by omega)))
    exact ite hv (hv.wr _ (rkey_ne_ladleFlags (by omega)))
  exact ite hbooted (hbooted.wr _ (by decide))

theorem refreshEst (h : ScanStands s t) : ScanStands s t.refreshEst := by
  unfold State.refreshEst
  extract_lets z e _ u
  have hu : ScanStands s u := h.lad _
  exact ((hu.wr (k := Reg.estZero) _ (by decide)).wr (k := Reg.ladleE) _ (by decide)).wr (k := Reg.ladleAvail) _ (by decide)

theorem reckon (h : ScanStands s t) : ScanStands s t.reckon := by
  unfold State.reckon
  extract_lets booted _ u
  have hu : ScanStands s u := by
    unfold u
    split
    · exact (h.bootCaps.wr (k := Reg.cEq) _ (by decide)).lad _
    · exact (h.bootCaps.lad _).upd rfl rfl (sameStores_of_eq rfl rfl rfl rfl)
  exact hu.refreshEst

theorem runEstimate (h : ScanStands s t) : ScanStands s t.runEstimate := by
  unfold State.runEstimate
  extract_lets reckoned
  have hreckoned : ScanStands s reckoned := h.reckon
  clear_value reckoned
  exact hreckoned.lad _

end ScanStands

/-- The state in which a usable scan's readings stand and nothing has been worked out of them (R200). -/
def State.withReading (s : State) (v : List Int) (stack : Nat) (temp : Option Int) : State :=
  { s with lad := { s.lad with v := v, stack := stack, sum := v.sum, temp := temp, scanned := true, missed := 0 } }

theorem useScan_stands (s : State) (v : List Int) (stack : Nat) (temp : Option Int) :
    ScanStands (s.withReading v stack temp) (s.useScan v stack temp) := by
  unfold State.useScan
  extract_lets _ read deviations on worked
  have hdev : ScanStands read deviations := (ScanStands.refl read).each _ _ fun _ _ hu => hu.hwr ..
  have hworked : ScanStands read worked := hdev.iff _ _ fun _ hu =>
    (hu.scanAfterDraw.scanAfterSeg.scanHeat.each _ _ fun _ _ hw => hw.countSig _).scanFaults
  exact hworked.scanCharger.scanBalance.iff _ _ fun _ hu => hu.runEstimate

/-! ### What a scan reports (R200, R201) -/

/-- A state that differs from another in the HV die's registers alone. -/
def HvOnly (s t : State) : Prop := ∃ hv, t = { s with hv := hv }

theorem HvOnly.hwr {s t} (k v) (h : HvOnly s t) : HvOnly s (t.hwr k v) := by
  obtain ⟨_, rfl⟩ := h
  exact ⟨_, rfl⟩

theorem HvOnly.each {s t} {α : Type} (l : List α) (f : α → State → State) (hf : ∀ a u, HvOnly s u → HvOnly s (f a u))
    (h : HvOnly s t) : HvOnly s (t.each l f) := by
  unfold State.each
  induction l generalizing t with
  | nil => exact h
  | cons a l ih => exact ih (hf a t h)

theorem hvOnly_reportScan (s : State) (v stack t1 t2) : HvOnly s (s.reportScan v stack t1 t2) := by
  unfold State.reportScan
  extract_lets sum cells volts temps
  have hcells : HvOnly s cells := HvOnly.each _ _ (fun _ _ hu => hu.hwr _ _) ⟨_, rfl⟩
  have hvolts : HvOnly s volts := ((hcells.hwr _ _).hwr _ _).hwr _ _
  have htemps : HvOnly s temps := (hvolts.hwr _ _).hwr _ _
  exact htemps.hwr _ _

/-- The readings of the HV die that a scan reports. -/
def State.scanHv (s : State) : List Nat :=
  s.cellList.map Reg.cellV ++ [Reg.stackV, Reg.tapSum, Reg.sumErr, Reg.ltemp1T, Reg.ltemp2T, Reg.ladleTemp]

theorem reportScan_frame (s : State) (K v stack t1 t2) : Frame K s.scanHv s (s.reportScan v stack t1 t2) := by
  have hrest : ∀ k ∈ [Reg.stackV, Reg.tapSum, Reg.sumErr, Reg.ltemp1T, Reg.ltemp2T, Reg.ladleTemp], k ∈ s.scanHv :=
    fun k hk => List.mem_append_right _ hk
  unfold State.reportScan
  extract_lets sum cells volts temps
  have hcells : Frame K s.scanHv s cells :=
    (Frame.refl ..).each_mem _ _ fun n hn u hu => hu.hwr _ _ (List.mem_append_left _ (List.mem_map_of_mem hn))
  have hvolts : Frame K s.scanHv s volts :=
    ((hcells.hwr _ _ (hrest _ (by decide))).hwr _ _ (hrest _ (by decide))).hwr _ _ (hrest _ (by decide))
  have htemps : Frame K s.scanHv s temps := (hvolts.hwr _ _ (hrest _ (by decide))).hwr _ _ (hrest _ (by decide))
  exact htemps.hwr _ _ (hrest _ (by decide))

theorem reportScan_stackV (s : State) (v stack t1 t2) :
    (s.reportScan v stack t1 t2).hrd Reg.stackV = fit Reg.stackV stack := by
  unfold State.reportScan State.hwrI
  dsimp only
  rw [State.hrd_hwr_ne _ _ (by decide), State.hrd_hwr_ne _ _ (by decide), State.hrd_hwr_ne _ _ (by decide),
    State.hrd_hwr_ne _ _ (by decide), State.hrd_hwr_ne _ _ (by decide), State.hrd_hwr_same, fit]

theorem Frame.flag {K H s t} (k i) (h : Frame K H s t) (hk : k ∈ K) : Frame K H s (t.flag k i) := h.putBit k i true hk

theorem ltempFitted_notMem_scanHv (s : State) : Reg.ltempFitted ∉ s.scanHv := by
  intro h
  rcases List.mem_append.1 h with hcell | hother
  · obtain ⟨n, _, e⟩ := List.mem_map.1 hcell
    exact rkey_ne_of_lt (by omega) (by decide) e
  · exact absurd hother (by decide)

/-- A fitted sensor that has turned invalid is flagged. -/
theorem sensorLost_flagged {s : State} {i : Nat} {was : Option Bool} (hfit : (s.hrd Reg.ltempFitted).testBit i = true)
    (hwas : was ≠ some false) : (s.sensorLost i was false).bitOf Reg.ladleFlags 6 = true := by
  rw [State.sensorLost, if_pos (by simp [hfit, hwas]), State.bitOf, State.rd_event _ _ _ _ _ _ (by decide)]
  exact bitOf_flag _ (by decide)

theorem sensorLost_frame (s : State) (i was ok) : Frame (Reg.ladleFlags :: eventKeys) [] s (s.sensorLost i was ok) :=
  .ite (fun _ => ((Frame.refl ..).flag _ _ (by decide)).event _ _ _ _ _ (List.subset_cons_self ..)) fun _ => .refl ..

theorem sensorLost_lad_clk (s : State) (i was ok) : (s.sensorLost i was ok).lad = s.lad ∧ (s.sensorLost i was ok).clk = s.clk := by
  unfold State.sensorLost
  split
  · exact ⟨State.event_lad .., State.event_clk ..⟩
  · exact ⟨rfl, rfl⟩

/-- The ladle's parts with what is kept of the two sensors. -/
def Ladle.withSensors (l : Ladle) (lt1 lt2 : Option Bool) : Ladle := { l with lt1 := lt1, lt2 := lt2 }

/-- The state after both sensors have been judged. -/
def State.sensorsJudged (s : State) (ok1 ok2 : Bool) : State :=
  (s.sensorLost 0 s.lad.lt1 ok1).sensorLost 1 s.lad.lt2 ok2

theorem noteSensors_eq (s : State) (ok1 ok2) : s.noteSensors ok1 ok2 =
    { s.sensorsJudged ok1 ok2 with lad := (s.sensorsJudged ok1 ok2).lad.withSensors (some ok1) (some ok2) } := rfl

theorem noteSensors_frame (s : State) (ok1 ok2) : Frame (Reg.ladleFlags :: eventKeys) [] s (s.noteSensors ok1 ok2) := by
  rw [noteSensors_eq]
  exact ((sensorLost_frame ..).trans (sensorLost_frame ..)).lad _

theorem noteSensors_lad_clk (s : State) (ok1 ok2) :
    (s.noteSensors ok1 ok2).lad = s.lad.withSensors (some ok1) (some ok2) ∧ (s.noteSensors ok1 ok2).clk = s.clk := by
  obtain ⟨hlad1, hclk1⟩ := sensorLost_lad_clk s 0 s.lad.lt1 ok1
  obtain ⟨hlad2, hclk2⟩ := sensorLost_lad_clk (s.sensorLost 0 s.lad.lt1 ok1) 1 s.lad.lt2 ok2
  rw [noteSensors_eq]
  exact ⟨congrArg (·.withSensors (some ok1) (some ok2)) (hlad2.trans hlad1), hclk2.trans hclk1⟩

/-- The first sensor's flag is set whatever the second one reads. -/
theorem noteSensors_flagged {s : State} (ok2) (hfit : (s.hrd Reg.ltempFitted).testBit 0 = true) (hwas : s.lad.lt1 ≠ some false) :
    (s.noteSensors false ok2).bitOf Reg.ladleFlags 6 = true := by
  have hsecond : ∀ u was, ScanStands u (u.sensorLost 1 was ok2) := fun u was =>
    .ite (((ScanStands.refl u).flag ..).event ..) (.refl u)
  rw [noteSensors_eq]
  exact (hsecond _ _).sensorFlag (sensorLost_flagged hfit hwas)

/-! ### TAP_SCAN -/

/-- V_1 to V_N of a scan's taps (R197). -/
def State.scanReadings (s : State) (taps : List Nat) : List Int :=
  s.cellList.map (fun n => ((taps.getD n 0 : Nat) : Int) - (taps.getD (n - 1) 0 : Nat))

/-- What an LTEMP sensor reads: nothing where it is not fitted (R201). -/
def State.scanTemp (s : State) (i ratio : Nat) : Option Int :=
  if (s.hrd Reg.ltempFitted).testBit i then ntcValidTemp ratio (s.hrd Reg.ltempBeta) else none

/-- The state in which a scan has been reported and not used. -/
def State.scanReported (s : State) (taps : List Nat) (stack l1 l2 : Nat) : State :=
  (s.reportScan (s.scanReadings taps) stack (s.scanTemp 0 l1) (s.scanTemp 1 l2)).iff s.sup.running
    (·.noteSensors (s.scanTemp 0 l1).isSome (s.scanTemp 1 l2).isSome)

section
variable {s : State} (taps : List Nat) (stack l1 l2 : Nat)

theorem scanReported_frame : Frame (Reg.ladleFlags :: eventKeys) s.scanHv s (s.scanReported taps stack l1 l2) :=
  (reportScan_frame ..).iff _ _ fun h => h.trans ((noteSensors_frame ..).mono (List.Subset.refl _) (List.nil_subset _))

theorem scanReported_stackV : (s.scanReported taps stack l1 l2).hrd Reg.stackV = fit Reg.stackV stack := by
  unfold State.scanReported State.iff
  split
  · rw [(noteSensors_frame ..).1.2 _ (List.not_mem_nil), reportScan_stackV]
  · exact reportScan_stackV ..

/-- A report leaves all of the ladle's own parts alone but what is kept of the sensors. -/
theorem scanReported_lad_clk : (∃ lt1 lt2, (s.scanReported taps stack l1 l2).lad = s.lad.withSensors lt1 lt2)
    ∧ (s.scanReported taps stack l1 l2).clk = s.clk := by
  obtain ⟨hv, e⟩ := hvOnly_reportScan s (s.scanReadings taps) stack (s.scanTemp 0 l1) (s.scanTemp 1 l2)
  unfold State.scanReported State.iff
  rw [e]
  split
  · obtain ⟨hlad, hclk⟩ := noteSensors_lad_clk { s with hv := hv } (s.scanTemp 0 l1).isSome (s.scanTemp 1 l2).isSome
    exact ⟨⟨_, _, hlad⟩, hclk⟩
  · exact ⟨⟨_, _, rfl⟩, rfl⟩

/-- An invalid first sensor is flagged with the report, where it has not been before (R201). -/
theorem scanReported_flagged (hrun : s.sup.running = true) (hfit : (s.hrd Reg.ltempFitted).testBit 0 = true)
    (hbad : (ntcValidTemp l1 (s.hrd Reg.ltempBeta)).isNone = true) (hwas : s.lad.lt1 ≠ some false) :
    (s.scanReported taps stack l1 l2).bitOf Reg.ladleFlags 6 = true := by
  have hnone : s.scanTemp 0 l1 = none := (if_pos hfit).trans (Option.isNone_iff_eq_none.1 hbad)
  have hframe := reportScan_frame s [] (s.scanReadings taps) stack (s.scanTemp 0 l1) (s.scanTemp 1 l2)
  obtain ⟨hv, e⟩ := hvOnly_reportScan s (s.scanReadings taps) stack (s.scanTemp 0 l1) (s.scanTemp 1 l2)
  unfold State.scanReported State.iff
  rw [if_pos hrun, hnone]
  rw [hnone] at hframe e
  refine noteSensors_flagged _ ?_ (by rwa [e])
  rwa [hframe.1.2 _ (ltempFitted_notMem_scanHv s)]

/-- A scan is used where it comes in P1, as the first of its cycle, and the block is not held (R200). -/
theorem exec_tapScan (hmain : s.sup.main = true) : exec (.tapScan taps stack l1 l2) s =
    let u := s.scanReported taps stack l1 l2
    .next (if inWindow u.clk.hvTic 10240 16383 u.clk.shift && !u.lad.scanned && !u.bitOf Reg.idleHold 1 then
      u.useScan (s.scanReadings taps) stack (maxTemp (s.scanTemp 0 l1) (s.scanTemp 1 l2)) else u) := by
  refine (if_neg (by simp [hmain])).trans ?_
  exact (apply_ite Host.Outcome.next ..).symm

/-- A late scan, or a second one of its cycle, is reported only (R200). -/
theorem exec_tapScan_late (hmain : s.sup.main = true) (hlate : s.lad.scanned = true) :
    exec (.tapScan taps stack l1 l2) s = .next (s.scanReported taps stack l1 l2) := by
  obtain ⟨⟨lt1, lt2, hlad⟩, _⟩ := scanReported_lad_clk (s := s) taps stack l1 l2
  have hstill : (s.scanReported taps stack l1 l2).lad.scanned = true := by rw [hlad]; exact hlate
  rw [exec_tapScan taps stack l1 l2 hmain]
  simp only [hstill, Bool.not_true, Bool.and_false, Bool.false_and, Bool.false_eq_true, if_false]

theorem exec_tapScan_used (hmain : s.sup.main = true) (hfirst : s.lad.scanned = false)
    (hwin : inWindow s.clk.hvTic 10240 16383 s.clk.shift = true) (hfree : s.bitOf Reg.idleHold 1 = false) :
    exec (.tapScan taps stack l1 l2) s = .next ((s.scanReported taps stack l1 l2).useScan (s.scanReadings taps) stack
      (maxTemp (s.scanTemp 0 l1) (s.scanTemp 1 l2))) := by
  obtain ⟨⟨lt1, lt2, hlad⟩, hclk⟩ := scanReported_lad_clk (s := s) taps stack l1 l2
  have hstill : (s.scanReported taps stack l1 l2).lad.scanned = false := by rw [hlad]; exact hfirst
  have hhold : (s.scanReported taps stack l1 l2).bitOf Reg.idleHold 1 = false := by
    rwa [State.bitOf, (scanReported_frame taps stack l1 l2).rd (by decide)]
  rw [exec_tapScan taps stack l1 l2 hmain]
  simp only [hclk, hwin, hstill, hhold, Bool.not_false, Bool.and_self, if_true]

end

/-! ### The charger's commands (R204, R206, R208) -/

/-- The pending target is met and no longer pending. -/
def State.targetMetNow (s : State) : State :=
  { s with lad := { s.lad with pendingTarget := false, targetRun := 0 } }.flag Reg.ladleFlags 1

theorem exec_targetComplete {s : State} (h1 : s.lad.pendingTarget = true) (h2 : 2 ≤ s.lad.targetRun) :
    exec .targetComplete s = .next (s.targetMetNow.event 0x2101 0xFF 0 (s.rd Reg.targetEff)).refreshTarget :=
  if_pos (by simp [h1, h2])

theorem refreshTarget_frame (s : State) : Frame [Reg.targetState] [] s s.refreshTarget := (Frame.refl ..).wr _ _ (by decide)

theorem exec_chargerDone {s : State} (h1 : s.hrd Reg.chgState = Cs.cv) (h2 : 64 ≤ s.lad.termRun) :
    exec .chargerDone s = .next { (s.hwr Reg.chgState Cs.done) with lad := { s.lad with termRun := 0 } } :=
  if_pos (by simp [h1, h2])

/-- The charger's fault is counted and its runs begin anew (R208). -/
def State.chgFaultCounted (s : State) : State := { s with lad := { s.lad with limRun := 0, lowRun := 0 } }.bump Reg.chgFaults

theorem exec_chargerFault {s : State} (h1 : s.bitOf Reg.ladleFault 4 = false) (h2 : 8 ≤ s.lad.limRun ∨ 64 ≤ s.lad.lowRun) :
    let u := s.chgFaultCounted.latchLadle 0xFF 4
    exec .chargerFault s = .next { (u.hwr Reg.chgStop u.chgStopNow) with lad := { u.lad with termRun := 0 } } :=
  if_pos (by simpa [h1] using h2)

/-- The state in which a latch of the ladle has been set and logged, start not yet stopped (R224). -/
def State.latchedLadle (s : State) (n i : Nat) : State :=
  (s.flag Reg.ladleFault i).event 0x2106 n i (if n = 0xFF then 0 else (s.flag Reg.ladleFault i).hrd (Reg.cellV n))
    ((s.flag Reg.ladleFault i).hrd Reg.sumErr)

theorem latchLadle_of_clear {s : State} {i : Nat} (n) (h : s.bitOf Reg.ladleFault i = false) :
    s.latchLadle n i = if (s.latchedLadle n i).atStep Step.charge then (s.latchedLadle n i).stopStart 3 else s.latchedLadle n i :=
  if_neg (by simp [h])

theorem latchedLadle_frame (s : State) (n i) : Frame (Reg.ladleFault :: eventKeys) [] s (s.latchedLadle n i) :=
  ((Frame.refl ..).flag _ _ (by decide)).event _ _ _ _ _ (List.subset_cons_self ..)

theorem latchedLadle_bitOf (s : State) (n) {i : Nat} (hi : i < 8 * sizeAt Reg.ladleFault) :
    (s.latchedLadle n i).bitOf Reg.ladleFault i = true := by
  rw [State.bitOf, State.latchedLadle, State.rd_event _ _ _ _ _ _ (by decide)]
  exact bitOf_flag _ hi

theorem latchedLadle_atStep (s : State) (n i m) : (s.latchedLadle n i).atStep m = s.atStep m := by
  rw [State.atStep, State.atStep, (latchedLadle_frame s n i).rd (by decide), State.latchedLadle, State.event_phase]
  rfl

theorem stopStart_frame (s : State) (cause) : Frame (eventKeys ++ [Reg.startStep, Reg.startStop]) [] s (s.stopStart cause) := by
  refine .ite (fun _ => Frame.event _ _ _ _ _ (.wr _ _ (.wr _ _ ?_ (by decide)) (by decide)) (List.subset_append_left ..))
    fun _ => .refl ..
  exact (Frame.refl ..).of_eq rfl rfl (sameStores_of_eq rfl rfl rfl rfl)

/-- A latch that is set anew changes itself, the log and, in CHARGE, start's step (R224). -/
theorem latchLadle_frame {s : State} {i : Nat} (n) (h : s.bitOf Reg.ladleFault i = false) :
    Frame (eventKeys ++ [Reg.startStep, Reg.startStop]) [] (s.latchedLadle n i) (s.latchLadle n i) := by
  rw [latchLadle_of_clear n h]
  exact .ite (fun _ => stopStart_frame ..) fun _ => .refl ..

/-- A latch set in CHARGE stops start (R173, R224). -/
theorem latchLadle_stops {s : State} {i : Nat} (n) (h : s.bitOf Reg.ladleFault i = false) (hat : s.atStep Step.charge = true) :
    (s.latchLadle n i).rd Reg.startStep = Step.stopped ∧ (s.latchLadle n i).rd Reg.startStop = 3 := by
  have hat' : (s.latchedLadle n i).atStep Step.charge = true := (latchedLadle_atStep ..).trans hat
  obtain ⟨hphase, hstep⟩ := atStep_eq_true.1 hat'
  have hgoing : (s.latchedLadle n i).rd Reg.startStep ≠ Step.stopped := by rw [hstep]; decide
  rw [latchLadle_of_clear n h, if_pos hat']
  exact ⟨(atStep_eq_true.1 (stopStart_atStep 3 hphase hgoing)).2, stopStart_startStop hphase hgoing (by decide)⟩

/-! ### The obligation -/

/-- Settles O10: a scan's report is `scanReported`, and what is worked out of a usable one leaves its readings, the stores and the
sensors' flag (`useScan_stands`); each command of the charger is one update (the `exec_` lemmas). -/
theorem tapScansAndTheCharger : Obligations.TapScansAndTheCharger := by
  refine ⟨fun s taps stack l1 l2 hmain hlate => ?late, fun s taps stack l1 l2 hmain hfirst hwin hfree => ?used,
    fun s h1 h2 => ?target, fun s h1 h2 => ?done, fun s h1 h2 => ?fault⟩
  case late =>
    obtain ⟨⟨lt1, lt2, hlad⟩, _⟩ := scanReported_lad_clk (s := s) taps stack l1 l2
    exact ⟨_, exec_tapScan_late taps stack l1 l2 hmain hlate, scanReported_stackV .., by rw [hlad]; rfl, scanReported_frame ..⟩
  case used =>
    obtain ⟨hreading, hflag, hstores⟩ := useScan_stands (s.scanReported taps stack l1 l2) (s.scanReadings taps) stack
      (maxTemp (s.scanTemp 0 l1) (s.scanTemp 1 l2))
    obtain ⟨_, hreported⟩ := scanReported_frame (s := s) taps stack l1 l2
    obtain ⟨hv, hstack, hsum, hscanned, hmissed⟩ : _ ∧ _ ∧ _ ∧ _ ∧ _ := by
      simpa only [Ladle.reading, Prod.mk.injEq] using hreading
    refine ⟨_, exec_tapScan_used taps stack l1 l2 hmain hfirst hwin hfree, hv, by rw [hsum, hv]; rfl, hstack, hscanned, hmissed,
      fun hrun hfit hbad hwas => hflag (scanReported_flagged taps stack l1 l2 hrun hfit hbad hwas), ?_⟩
    exact (hreported.trans (sameStores_of_eq rfl rfl rfl rfl)).trans hstores
  case target =>
    have hmet : Frame (eventKeys ++ [Reg.ladleFlags, Reg.targetState]) [] s s.targetMetNow :=
      ((Frame.refl ..).lad _).flag _ _ (by decide)
    refine ⟨_, exec_targetComplete h1 h2, ?pending, ?bit, ?frame⟩
    case pending => exact congrArg Ladle.pendingTarget (State.event_lad ..)
    case bit =>
      rw [State.bitOf, (refreshTarget_frame _).rd (by decide), State.rd_event _ _ _ _ _ _ (by decide)]
      exact bitOf_flag _ (by decide)
    case frame =>
      exact (hmet.event _ _ _ _ _ (List.subset_append_left ..)).trans
        ((refreshTarget_frame _).mono (by decide) (List.Subset.refl _))
  case done =>
    exact ⟨_, exec_chargerDone h1 h2, State.hrd_hwr_same s Reg.chgState Cs.done, rfl, ((Frame.refl ..).hwr _ _ (by decide)).lad _⟩
  case fault =>
    have hcounted : Frame [Reg.chgFaults] [] s s.chgFaultCounted := ((Frame.refl ..).lad _).wr _ _ (by decide)
    have hclear : s.chgFaultCounted.bitOf Reg.ladleFault 4 = false := by rwa [State.bitOf, hcounted.rd (by decide)]
    have hlatched := latchedLadle_frame s.chgFaultCounted 0xFF 4
    have hlatch := latchLadle_frame 0xFF hclear
    refine ⟨_, exec_chargerFault h1 h2, ?bit, ?counts, fun hphase hstep => ?stops, ?frame⟩
    case bit => exact (congrArg (Nat.testBit · 4) (hlatch.rd (by decide))).trans (latchedLadle_bitOf _ 0xFF (by decide))
    case counts => exact (hlatch.rd (by decide)).trans ((hlatched.rd (by decide)).trans (State.rd_wr_same ..))
    case stops => exact latchLadle_stops 0xFF hclear (atStep_eq_true.2 ⟨hphase, (hcounted.rd (by decide)).trans hstep⟩)
    case frame =>
      have hall : Frame (eventKeys ++ [Reg.chgFaults, Reg.ladleFault, Reg.startStep, Reg.startStop]) [Reg.chgStop] s
          (s.chgFaultCounted.latchLadle 0xFF 4) :=
        ((hcounted.mono (by decide) (List.nil_subset _)).trans (hlatched.mono (by decide) (List.nil_subset _))).trans
          (hlatch.mono (by decide) (List.nil_subset _))
      exact (hall.hwr _ _ (by decide)).lad _

end Sys2Proof.Machine
end

section
/-! PROOF. The tap response test on a stack of more cells than LADLE_CELLS takes, whose cells' registers reach into the taps'
(spec/08_ladle.md R197, R213, R216, R221). -/
namespace Sys2Proof.Machine

/-- A tap response test outside the damp check comes to its verdicts, the charger's setpoint and the estimate (R219-R221). -/
def State.tapsTested (s : State) (resp : List Nat) (stack : Nat) : State :=
  let u := { s with lad := { s.lad with n1 := 0 } }.judgeTaps resp stack
  (u.hwr Reg.chgSetpoint u.setpointNow).reckon.reportTest

theorem exec_tapResponseTest {s : State} (resp : List Nat) (stack : Nat) (hend : s.n1Ended = true) (hn1 : s.lad.n1 = 1)
    (hdamp : s.dampDue = false) : exec (.tapResponseTest resp stack) s = .next (s.tapsTested resp stack) := by
  refine (if_pos (by simp [hend, hn1])).trans ?_
  rw [hdamp]
  rfl

/-- A stack of 16 cells, outside the 4 to 12 that LADLE_CELLS takes, in the last tick of a tap response test. -/
def sixteenCells : State :=
  { State.reset with
    sup.main := true, sup.running := true, hv := [(Reg.ladleCells, 16)], clk.hvTic := 751, lad.n1 := 1 }

/-- It is a sound state in which the test has ended and a response of 300 mV shows tap 0 open (R219). -/
theorem sixteenCells_opens : sixteenCells.inv = true ∧ sixteenCells.n1Ended = true ∧ sixteenCells.dampDue = false
    ∧ sixteenCells.verdict 0 300 = 2 := by decide +kernel

/-- From the 16th on a cell's ESR has the register of a tap's state. -/
theorem cellEsr_eq_tapState (k : Nat) : Reg.cellEsr (k + 16) = Reg.tapState k := by
  simp only [Reg.cellEsr, Reg.tapState, rkey]
  omega

/-- The estimate after the test writes the built-in ESR of the 16th cell (R213), 37500 micro-ohms, cut to a tap state's byte. -/
theorem sixteenCells_cellEsr : (sixteenCells.tapsTested [300] 0).rd (Reg.cellEsr 16) = 124 := by decide +kernel

/-- Refutes O11: its clause on TAP_RESPONSE_TEST says that a tap judged open reads open afterwards and does not bound LADLE_CELLS by
the 4 to 12 of its table. In `sixteenCells`, whose registers are sound, tap 0 is judged open, and the estimate of the same command
then writes the built-in ESR of cell 16 over it: the tap's state reads 124. -/
theorem not_ladleTestsMeasure : ¬ Obligations.LadleTestsMeasure := by
  rintro ⟨_, _, _, _, _, htest, _⟩
  obtain ⟨_, hend, hdamp, hopen⟩ := sixteenCells_opens
  obtain ⟨t, he, _, _, htaps, _⟩ := htest sixteenCells [300] 0 hend rfl hdamp (by decide)
  obtain rfl : sixteenCells.tapsTested [300] 0 = t := by
    rw [exec_tapResponseTest [300] 0 hend rfl hdamp] at he
    injection he
  have hreads := htaps 0 (Nat.zero_le _) hopen
  rw [Fin.val_zero, ← cellEsr_eq_tapState 0, sixteenCells_cellEsr] at hreads
  exact absurd hreads (by decide)

end Sys2Proof.Machine
end

section
/-! PROOF. HOLDUP_ARM, HOLDUP_TRIP, HU_SELF_TEST and DROOP_FALLBACK (spec/09_holdup.md R228, R229, R233, R236, R239): what a change
of the holdup's state and a step of the stage model leave alone, and the states each command answers. -/
namespace Sys2Proof.Machine

/-! ### States that differ in the holdup alone -/

theorem Frame.hux {K H s t} (x : Holdup) (h : Frame K H s t) : Frame K H s { t with hux := x } :=
  h.of_eq rfl rfl (sameStores_of_eq rfl rfl rfl rfl)

theorem Frame.hrd {K H s t} (h : Frame K H s t) {k} (hk : k ∉ H) : t.hrd k = s.hrd k := h.1.2 k hk

/-- A state that differs from another in the HV die's registers and the holdup's own part alone. -/
def HoldupOnly (s t : State) : Prop := ∃ hv hux, t = { s with hv := hv, hux := hux }

namespace HoldupOnly
variable {s t u : State}

theorem refl (s) : HoldupOnly s s := ⟨s.hv, s.hux, rfl⟩

theorem trans (h1 : HoldupOnly s t) (h2 : HoldupOnly t u) : HoldupOnly s u := by
  obtain ⟨_, _, rfl⟩ := h1
  obtain ⟨_, _, rfl⟩ := h2
  exact ⟨_, _, rfl⟩

theorem hwr (h : HoldupOnly s t) (k v) : HoldupOnly s (t.hwr k v) := h.trans ⟨_, _, rfl⟩

theorem hux (h : HoldupOnly s t) (x) : HoldupOnly s { t with hux := x } := h.trans ⟨_, _, rfl⟩

theorem smp (h : HoldupOnly s t) : t.smp = s.smp := by obtain ⟨_, _, rfl⟩ := h; rfl
theorem clk (h : HoldupOnly s t) : t.clk = s.clk := by obtain ⟨_, _, rfl⟩ := h; rfl
theorem sup (h : HoldupOnly s t) : t.sup = s.sup := by obtain ⟨_, _, rfl⟩ := h; rfl
theorem bar (h : HoldupOnly s t) : t.bar = s.bar := by obtain ⟨_, _, rfl⟩ := h; rfl

end HoldupOnly

/-! ### Findings -/

@[simp] theorem State.told_hux (s : State) (l) : (s.told l).hux = s.hux := by rw [State.told_eq]
@[simp] theorem State.told_clk (s : State) (l) : (s.told l).clk = s.clk := by rw [State.told_eq]
@[simp] theorem State.told_sup (s : State) (l) : (s.told l).sup = s.sup := by rw [State.told_eq]
@[simp] theorem State.hu_told (s : State) (l) : (s.told l).hu = s.hu := State.hrd_told ..

/-- While the logic die runs, a finding joins those that wait (R18). -/
theorem reports_told {s : State} (l) (hrun : s.sup.running = true) : Reports l s (s.told l) := by
  rw [Reports, State.told, if_pos hrun]

theorem HoldupOnly.told_reports {s t : State} (h : HoldupOnly s t) (l) (hrun : s.sup.running = true) :
    Reports l s (t.told l) := by
  have hreports : Reports l t (t.told l) := reports_told l (h.sup ▸ hrun)
  rwa [Reports, h.bar, h.clk] at hreports

/-! ### A change of the holdup's state (Table HU-1) -/

/-- The registers that show the holdup's state. -/
def holdupKeys : List Nat := [Reg.huState, Reg.huOffWhy, Reg.huReady]

/-- The holdup has entered a state of Table HU-1, HU_OFF_WHY and HU_READY yet to follow. -/
def State.huEntered (s : State) (st : Nat) : State :=
  { s.hwr Reg.huState st with hux := { s.hux with test := if st = Hs.test then s.hux.test else 0 } }

/-- What a change of the holdup's state does; HU_OFF_WHY reads 0 while it is ARMED (R228). -/
theorem setHu_eq (s : State) (st) : ∃ why ready, (st = Hs.armed → why = 0) ∧
    s.setHu st = ((s.huEntered st).hwr Reg.huOffWhy why).hwr Reg.huReady ready := by
  have hentered : (if st = Hs.test then s.hwr Reg.huState st
      else { s.hwr Reg.huState st with hux := { (s.hwr Reg.huState st).hux with test := 0 } }) = s.huEntered st := by
    unfold State.huEntered
    split <;> rfl
  unfold State.setHu
  dsimp only
  rw [hentered]
  exact ⟨_, _, fun h => by simp [h], rfl⟩

theorem setHu_hux (s : State) (st) :
    (s.setHu st).hux = { s.hux with test := if st = Hs.test then s.hux.test else 0 } := by
  obtain ⟨_, _, _, h⟩ := setHu_eq s st
  rw [h]
  rfl

theorem setHu_holdupOnly (s : State) (st) : HoldupOnly s (s.setHu st) := by
  obtain ⟨_, _, _, h⟩ := setHu_eq s st
  exact ⟨_, _, h⟩

theorem setHu_frame (s : State) (st) : Frame [] holdupKeys s (s.setHu st) := by
  obtain ⟨_, _, _, h⟩ := setHu_eq s st
  have hentered : Frame [] holdupKeys s (s.huEntered st) := ((Frame.refl ..).hwr _ _ (by decide)).hux _
  rw [h]
  exact (hentered.hwr _ _ (by decide)).hwr _ _ (by decide)

theorem setHu_hu (s : State) {st} (hst : st < 256) : (s.setHu st).hu = st := by
  obtain ⟨why, ready, _, h⟩ := setHu_eq s st
  calc (s.setHu st).hu
      = (((s.huEntered st).hwr Reg.huOffWhy why).hwr Reg.huReady ready).hrd Reg.huState := congrArg State.hu h
    _ = (s.hwr Reg.huState st).hrd Reg.huState := (State.hrd_hwr_ne _ _ (by decide)).trans (State.hrd_hwr_ne _ _ (by decide))
    _ = st % 256 ^ sizeAt Reg.huState := State.hrd_hwr_same ..
    _ = st := Nat.mod_eq_of_lt hst

theorem setHu_armed_offWhy (s : State) : (s.setHu Hs.armed).hrd Reg.huOffWhy = 0 := by
  obtain ⟨_, _, hwhy, h⟩ := setHu_eq s Hs.armed
  rw [h, hwhy rfl, State.hrd_hwr_ne _ _ (by decide), State.hrd_hwr_same, Nat.zero_mod]

/-! ### The stage model (R233) -/

/-- The stage model's steps move its rise, and HU_TEMP follows. -/
theorem stageSteps_eq (s : State) (ma n) :
    ∃ rise temp, s.stageSteps ma n = { s with hux := { s.hux with rise := rise } }.hwr Reg.huTemp temp := by
  induction n generalizing s with
  | zero => exact ⟨s.hux.rise, _, rfl⟩
  | succ n ih =>
    unfold State.stageSteps
    dsimp only
    split
    · exact ⟨_, _, rfl⟩
    · exact ih _

/-- The curve's timers and the stage model after an input current of `ma` for `us` microseconds (R233). -/
def State.stageStepped (s : State) (ma us : Nat) : State :=
  { s with hux := { s.hux with timers := stepTimers (s.hrd Reg.huItCurve) 4 ma us s.hux.timers } }.stageSteps ma (us / 10)

theorem stageStepped_holdupOnly (s : State) (ma us) : HoldupOnly s (s.stageStepped ma us) := by
  obtain ⟨_, _, h⟩ := stageSteps_eq _ ma (us / 10)
  exact ⟨_, _, h⟩

theorem stageStepped_frame (s : State) (ma us) : Frame [] [Reg.huTemp] s (s.stageStepped ma us) := by
  obtain ⟨_, _, h⟩ := stageSteps_eq _ ma (us / 10)
  rw [State.stageStepped, h]
  exact ((Frame.refl ..).hux _).hwr _ _ (by decide)

theorem stageStepped_timers (s : State) (ma us) :
    (s.stageStepped ma us).hux.timers = stepTimers (s.hrd Reg.huItCurve) 4 ma us s.hux.timers := by
  obtain ⟨_, _, h⟩ := stageSteps_eq _ ma (us / 10)
  rw [State.stageStepped, h]
  rfl

theorem stageStepped_hu (s : State) (ma us) : (s.stageStepped ma us).hu = s.hu :=
  (stageStepped_frame s ma us).hrd (by decide)

/-! ### A trip by the curve (R233) -/

/-- What is reported of a trip by the curve. -/
def State.curveNotes (s : State) : List Note :=
  [.stamp Reg.huTripStamp, .flag Reg.huFlags 1, .count Reg.huTripsIt 1, .event 0x2201 0xFF 1 (ofSigned 4 s.smp.huI) 0]

/-- The curve is breached: the stage latches, and the draws on the ladle end. -/
def State.curveTripped (s : State) (ma us : Nat) : State := ((s.stageStepped ma us).tripHoldup 1).endDraws

theorem curveTripped_hu (s : State) (ma us) : (s.curveTripped ma us).hu = Hs.latched :=
  (State.hu_told ..).trans (setHu_hu _ (by decide))

theorem curveTripped_reports {s : State} (ma us) (hrun : s.sup.running = true) :
    Reports s.curveNotes s (s.curveTripped ma us) := by
  have hstage := stageStepped_holdupOnly s ma us
  have hnotes : (s.stageStepped ma us).curveNotes = s.curveNotes := by rw [State.curveNotes, hstage.smp, State.curveNotes]
  rw [← hnotes]
  exact (hstage.trans (setHu_holdupOnly _ Hs.latched)).told_reports _ hrun

theorem curveTripped_frame (s : State) (ma us) :
    Frame [] (holdupKeys ++ [Reg.huTemp]) s (s.curveTripped ma us) := by
  have hstage := (stageStepped_frame s ma us).mono (List.Subset.refl []) (List.subset_append_right holdupKeys _)
  have hlatch := (setHu_frame (s.stageStepped ma us) Hs.latched).mono
    (List.Subset.refl []) (List.subset_append_left _ [Reg.huTemp])
  exact ((hstage.trans hlatch).told _).of_eq rfl rfl (sameStores_of_eq rfl rfl rfl rfl)

theorem curveTripped_sup_clk (s : State) (ma us) :
    (s.curveTripped ma us).sup = s.sup ∧ (s.curveTripped ma us).clk = s.clk := by
  have h := (stageStepped_holdupOnly s ma us).trans (setHu_holdupOnly _ Hs.latched)
  exact ⟨(State.told_sup ..).trans h.sup, (State.told_clk ..).trans h.clk⟩

theorem exec_holdupTrip_breach {s : State} {ma us k : Nat} (hlive : s.hu ≠ Hs.latched)
    (hbreach : tripAt (s.hrd Reg.huItCurve) 4 ma us s.hux.timers = some k) :
    exec (.holdupTrip ma us) s
      = .next ((s.curveTripped ma us).iff (s.hux.self = 1 || s.hux.self = 2) (·.huFail 4)) := by
  have htrips : (decide ((s.stageStepped ma us).hu ≠ Hs.latched)
      && (tripAt (s.hrd Reg.huItCurve) 4 ma us s.hux.timers).isSome) = true := by
    simp [stageStepped_hu, hlive, hbreach]
  exact if_pos htrips

theorem exec_holdupTrip_latched {s : State} (ma us) (hlatched : s.hu = Hs.latched) :
    exec (.holdupTrip ma us) s = .next (s.stageStepped ma us) := by
  have hstill : ∀ b : Bool, ¬(decide ((s.stageStepped ma us).hu ≠ Hs.latched) && b) = true := by
    simp [stageStepped_hu, hlatched]
  exact (if_neg (hstill _)).trans (if_neg (hstill _))

/-! ### The self-test (R236) -/

/-- What is reported of a self-test that fails. -/
def failNotes (why : Nat) : List Note :=
  [.put Reg.huTestResult why, .stamp Reg.huTestStamp, .flag Reg.huFlags 2, .count Reg.huTestFails 1,
    .event 0x2202 0xFF why 0 0]

theorem huFail_hu (s : State) (why) : (s.huFail why).hu = Hs.latched :=
  (State.hu_told ..).trans (setHu_hu _ (by decide))

theorem huFail_self (s : State) (why) : (s.huFail why).hux.self = 0 := by
  rw [State.huFail, State.told_hux, setHu_hux]

theorem huFail_reports {s : State} (why) (hrun : s.sup.running = true) : Reports (failNotes why) s (s.huFail why) :=
  (((HoldupOnly.refl s).hux _).trans (setHu_holdupOnly ..)).told_reports _ hrun

theorem huFail_frame (s : State) (why) : Frame [] holdupKeys s (s.huFail why) :=
  (((Frame.refl ..).hux _).trans (setHu_frame ..)).told _

/-- What is reported of a self-test that passes. -/
def passNotes : List Note := [.put Reg.huTestResult 1, .stamp Reg.huTestStamp]

/-- A self-test has passed: it is kept in mind, and HU_READY follows (R235). -/
theorem huPass_eq (s : State) : ∃ ready,
    s.huPass = ({ s with hux := { s.hux with passed := true } }.hwr Reg.huReady ready).told passNotes := ⟨_, rfl⟩

theorem huPass_hux (s : State) : s.huPass.hux = { s.hux with passed := true } := State.told_hux ..

theorem huPass_frame (s : State) : Frame [] [Reg.huReady] s s.huPass := by
  obtain ⟨_, h⟩ := huPass_eq s
  rw [h]
  exact (((Frame.refl ..).hux _).hwr _ _ (by decide)).told _

theorem huPass_reports {s : State} (hrun : s.sup.running = true) : Reports passNotes s s.huPass := by
  obtain ⟨_, h⟩ := huPass_eq s
  rw [h]
  exact (((HoldupOnly.refl s).hux _).hwr _ _).told_reports _ hrun

theorem exec_huSelfTest_passed {s : State} {gate avg moved : Nat} (hmain : s.sup.main = true) (hrun : s.sup.running = true)
    (hended : s.hux.self = 3) (hgate : 8000 ≤ gate) (havg : within15 avg (s.hrd Reg.huTestI) = true) (hmoved : moved ≤ 1000) :
    exec (.huSelfTest gate true avg moved) s = .next { s with hux := { s.hux with self := 0 } }.huPass := by
  refine (if_pos (by simp [hmain, hrun, hended])).trans ((if_neg ?_).trans ((if_neg ?_).trans (if_neg ?_)))
  · simpa using hgate
  · simp [havg]
  · exact Nat.not_lt.2 hmoved

theorem exec_huSelfTest_gateOut {s : State} {gate : Nat} {vdrv : Bool} (avg moved) (hmain : s.sup.main = true)
    (hrun : s.sup.running = true) (hended : s.hux.self = 3) (hout : gate < 8000 ∨ vdrv = false) :
    exec (.huSelfTest gate vdrv avg moved) s = .next (s.huFail 6) :=
  (if_pos (by simp [hmain, hrun, hended])).trans (if_pos (by simpa using hout))

/-! ### Arming and droop (R229, R239) -/

theorem exec_holdupArm {s : State} (hoff : s.hu = Hs.off) (hmain : s.sup.main = true) (hrun : 8 ≤ s.run rcArm) :
    exec .holdupArm s = .next (s.setHu Hs.armed) :=
  if_pos (by simp [hoff, hmain, hrun])

theorem exec_droopFallback {s : State} {pinned : Bool} (hgroup : s.hrd Reg.huGroup ≠ 0) (hnot : s.hux.droop = false)
    (hrun : 64 ≤ s.run (if pinned = true then rcPinned else rcShareHigh)) :
    exec (.droopFallback pinned) s = .next s.fallToDroop :=
  if_pos (by simpa [hgroup, hnot] using hrun)

/-- Droop has begun, not yet reported (R239). -/
def State.drooped (s : State) : State :=
  { ((s.setRun rcShareHigh 0).setRun rcPinned 0).hwr Reg.huShareState 2 with
    hux := { s.hux with droop := true, drive := none, trim := 0 } }

/-- What is reported of a fallback to droop. -/
def State.droopNotes (s : State) : List Note :=
  [.flag Reg.huFlags 3, .count Reg.huShareFaults 1, .event 0x2203 0xFF 0 s.smp.share 0]

theorem fallToDroop_eq (s : State) : s.fallToDroop = s.drooped.told s.droopNotes := rfl

theorem fallToDroop_reports {s : State} (hrun : s.sup.running = true) : Reports s.droopNotes s s.fallToDroop :=
  reports_told (s := s.drooped) s.droopNotes hrun

theorem fallToDroop_hux (s : State) :
    s.fallToDroop.hux = { s.hux with droop := true, drive := none, trim := 0 } := by
  rw [fallToDroop_eq, State.told_hux, State.drooped]

theorem fallToDroop_shareState (s : State) : s.fallToDroop.hrd Reg.huShareState = 2 := by
  rw [fallToDroop_eq, State.hrd_told]
  exact State.hrd_hwr_same s Reg.huShareState 2

theorem fallToDroop_frame (s : State) : Frame [] [Reg.huShareState] s s.fallToDroop := by
  have hruns : Frame [] [Reg.huShareState] s ((s.setRun rcShareHigh 0).setRun rcPinned 0) :=
    (Frame.refl ..).of_eq rfl rfl (sameStores_of_eq rfl rfl rfl rfl)
  rw [fallToDroop_eq]
  exact ((hruns.hwr _ _ (by decide)).hux _).told _

/-! ### The obligation -/

/-- Settles O12: arming and latching are changes of the holdup's state (`setHu_`), a breach of the curve is a step of the stage model,
the latch and the end of the draws (`curveTripped_`), and a self-test under way fails on top of it (`huFail_`). -/
theorem holdupArmsTripsAndTests : Obligations.HoldupArmsTripsAndTests := by
  refine ⟨fun s hoff hmain hrun => ?arm, fun s ma us k hlive hnot1 hnot2 hrun hbreach => ?trip,
    fun s ma us k hlive hself hrun hbreach => ?testTrip, fun s ma us hlatched => ?latched,
    fun s gate avg moved hmain hrun hended hgate havg hmoved => ?pass,
    fun s gate avg moved vdrv hmain hrun hended hout => ?fail, fun s pinned hgroup hnot hheld hrun => ?droop⟩
  case arm =>
    exact ⟨_, exec_holdupArm hoff hmain hrun, setHu_hu _ (by decide), setHu_armed_offWhy s, setHu_frame ..⟩
  case trip =>
    have hexec : exec (.holdupTrip ma us) s = .next (s.curveTripped ma us) := by
      rw [exec_holdupTrip_breach hlive hbreach, State.iff, if_neg (by simp [hnot1, hnot2])]
    exact ⟨_, hexec, curveTripped_hu .., rfl, curveTripped_reports ma us hrun, curveTripped_frame ..⟩
  case testTrip =>
    have hexec : exec (.holdupTrip ma us) s = .next ((s.curveTripped ma us).huFail 4) := by
      rw [exec_holdupTrip_breach hlive hbreach, State.iff, if_pos (by simpa using hself)]
    obtain ⟨hsup, hclk⟩ := curveTripped_sup_clk s ma us
    have hfail := huFail_reports 4 (s := s.curveTripped ma us) (hsup ▸ hrun)
    refine ⟨_, hexec, huFail_hu .., huFail_self .., ⟨s.curveNotes, ?_⟩, ?_⟩
    · rw [hfail, curveTripped_reports ma us hrun, hclk, List.append_assoc]
      rfl
    · exact (curveTripped_frame ..).trans
        ((huFail_frame ..).mono (List.Subset.refl _) (List.subset_append_left _ [Reg.huTemp]))
  case latched =>
    exact ⟨_, exec_holdupTrip_latched ma us hlatched, (stageStepped_hu ..).trans hlatched,
      congrArg Barrier.reports (stageStepped_holdupOnly s ma us).bar, stageStepped_timers .., stageStepped_frame ..⟩
  case pass =>
    have hpass := huPass_frame { s with hux := { s.hux with self := 0 } }
    exact ⟨_, exec_huSelfTest_passed hmain hrun hended hgate havg hmoved, by rw [huPass_hux], by rw [huPass_hux],
      hpass.hrd (by decide), huPass_reports hrun, ((Frame.refl ..).hux _).trans hpass⟩
  case fail =>
    exact ⟨_, exec_huSelfTest_gateOut avg moved hmain hrun hended hout, huFail_hu .., huFail_self .., huFail_reports 6 hrun,
      huFail_frame ..⟩
  case droop =>
    exact ⟨_, exec_droopFallback hgroup hnot hheld, by rw [fallToDroop_hux], by rw [fallToDroop_hux],
      fallToDroop_shareState s, fallToDroop_reports hrun, fallToDroop_frame s⟩

end Sys2Proof.Machine
end

section
/-! PROOF. The acceptance of a pour trigger and SEQ_STATE (spec/10_sequencer.md R250, R257, R262; spec/14_pour_and_shakeout.md R348):
the statements on FAULT# and on running rails leave SEQ_STATE out of what an acceptance may change, while an acceptance that finds it
at on-slots or reverse shutdown takes it to running. -/
namespace Sys2Proof.Machine

theorem Does.and {c : Instr} {s : State} {P Q : State → Prop} (h1 : Does c s P) (h2 : Does c s Q) :
    Does c s fun t => P t ∧ Q t := by
  obtain ⟨t, he, hp⟩ := h1
  obtain ⟨u, he', hq⟩ := h2
  rw [he] at he'
  injection he' with e
  exact ⟨t, he, hp, e ▸ hq⟩

/-- A register that neither a pour nor the trigger names reads as before its acceptance. -/
theorem Accepts.rd {cause : Nat} {K : List Nat} {s t : State} (h : Accepts cause K s t) {k : Nat} (hk : k ∉ pourKeys ++ K) :
    t.rd k = s.rd k := by
  obtain ⟨_, _, _, _, _, _, _, _, _, _, _, hframe⟩ := h
  exact hframe.rd hk

/-- A state in guard with records to cast whose SEQ_STATE reads on-slots. FAULT# has been low for its filter, and rail 0, which runs,
has read overvoltage for its own; RAIL_ACTION makes its fault a pour trigger and nothing else. -/
def onSlotsInGuard : State :=
  { State.reset with
    phase := .guard, taken := true, sup.running := true, sto.since := true, seq.armed := true
    runs := [(rcFaultLow, 8), (rcOv 0, 8)]
    reg := [(Reg.seqState, 1), (Reg.railAction 0, 1), (Reg.railState 0, Rs.running)] }

/-- It is a sound state in which a trigger is accepted as it stands. -/
theorem onSlotsInGuard_ready : onSlotsInGuard.inv = true ∧ onSlotsInGuard.pourReady = true := by decide +kernel

theorem onSlotsInGuard_seqState : onSlotsInGuard.rd Reg.seqState = 1 := by decide +kernel

/-- FAULT#'s trigger is counted, flagged and logged (R257). -/
def State.faultInNoted (s : State) : State :=
  (({ s with seq := { s.seq with armed := false } }.bump Reg.faultInCount).flag Reg.seqFlags 5).event 0x2306

theorem exec_faultInTrigger {s : State} (hruns : s.seqRuns = true) (harmed : s.seq.armed = true) (hen : s.rd Reg.faultInEn = 1)
    (hlow : s.rd Reg.faultInFilter ≤ s.run rcFaultLow) : exec .faultInTrigger s = .next (s.faultInNoted.trigger 5) :=
  if_pos (by simp [hruns, harmed, hen, hlow])

/-- A running rail's fault is recorded, counted, flagged and logged (R249). -/
def State.runFaultNoted (s : State) (n cause : Nat) : State :=
  let u := ((s.setRail n Rs.faulted).railFault n cause).bump
    (if cause = 1 then Reg.runUv n else if cause = 2 then Reg.runOv n else Reg.runPg n)
  let v := (u.flag Reg.seqFlags 0).flag (Reg.railFlags n) 2
  v.event 0x2301 n cause (v.railNow n)

/-- What bits 1 and 3 of RAIL_ACTION make of a running rail's fault (Table SQ-2). -/
def State.railActs (s : State) (n : Nat) : State :=
  let u := s.iff (s.bitOf (Reg.railAction n) 1) (·.pulseAndRelay n)
  u.iff (u.bitOf (Reg.railAction n) 3) (·.fallRail n)

theorem exec_runningRailFault {s : State} {n : Rail} (hruns : s.seqRuns = true) (hst : s.railSt n = Rs.running)
    (hfault : s.runFault n ≠ 0) (hslots : s.rd Reg.seqState ≠ 5) :
    exec (.runningRailFault n) s = .next (((s.runFaultNoted n (s.runFault n)).railActs n).graceAndTrigger n) :=
  (if_neg (by simp [hruns, hst, hfault])).trans (if_neg (by simp [hslots]))

/-- FAULT#'s trigger ends the on-slots with its acceptance (R262). -/
theorem faultInTrigger_endsOnSlots : Does .faultInTrigger onSlotsInGuard fun t => t.rd Reg.seqState = 2 :=
  ⟨_, exec_faultInTrigger rfl rfl (by decide +kernel) (by decide +kernel), by decide +kernel⟩

/-- So does the trigger of rail 0's fault. -/
theorem runningRailFault_endsOnSlots : Does (.runningRailFault 0) onSlotsInGuard fun t => t.rd Reg.seqState = 2 :=
  ⟨_, exec_runningRailFault rfl (by decide +kernel) (by decide +kernel) (by decide +kernel), by decide +kernel⟩

/-- Where the statement's frame leaves SEQ_STATE alone, what ends the on-slots is no acceptance. -/
theorem not_accepts_of_endsOnSlots {cause : Nat} {K : List Nat} {t : State} (hK : Reg.seqState ∉ pourKeys ++ K)
    (hends : t.rd Reg.seqState = 2) : ¬ Accepts cause K onSlotsInGuard t := by
  intro h
  have hkept := h.rd hK
  rw [hends, onSlotsInGuard_seqState] at hkept
  exact absurd hkept (by decide)

/-- Refutes O6: its clause on FAULT_IN_TRIGGER lets an acceptance in guard change `pourKeys`, FAULT_IN_COUNT and SEQ_FLAGS alone, in
every state of guard. SEQ_STATE is none of these, and an acceptance takes it from 1 or 3 to 2 (R262, `State.seqPour`). In
`onSlotsInGuard` it goes from 1 to 2: start leaves it at 2 on its way to guard (R163), but no hypothesis of the clause asks for
that. -/
theorem not_padsAndTheFaultLine : ¬ Obligations.PadsAndTheFaultLine := by
  rintro ⟨_, _, _, _, hfault, _⟩
  obtain ⟨_, hready⟩ := onSlotsInGuard_ready
  have hdoes := hfault onSlotsInGuard hready rfl (by decide +kernel) (by decide +kernel)
  obtain ⟨t, _, ⟨_, _, _, haccepts⟩, hends⟩ := hdoes.and faultInTrigger_endsOnSlots
  exact not_accepts_of_endsOnSlots (by decide) hends haccepts

/-- Refutes O15: its clause on a running-rail fault that is a pour trigger lets an acceptance in guard change `pourKeys` and seven
registers of the rails alone, in every state of guard whose SEQ_STATE is not 5. In `onSlotsInGuard` the overvoltage of rail 0 is
accepted and takes SEQ_STATE, which is none of these, from 1 to 2 (R262, `State.seqPour`); that it is 2 in guard is again no
hypothesis of the clause. -/
theorem not_railsFaultAndFall : ¬ Obligations.RailsFaultAndFall := by
  rintro ⟨_, hfault, _⟩
  obtain ⟨_, hready⟩ := onSlotsInGuard_ready
  have hdoes := hfault onSlotsInGuard 0 hready (by decide +kernel) (by decide +kernel) (by decide +kernel) (by decide +kernel)
    (by decide +kernel) (by decide +kernel) rfl
  obtain ⟨t, _, ⟨_, _, _, _, _, haccepts⟩, hends⟩ := hdoes.and runningRailFault_endsOnSlots
  exact not_accepts_of_endsOnSlots (by decide) hends haccepts

end Sys2Proof.Machine
end

section
/-! PROOF. ON_SLOT, RAIL_GOOD and RAIL_FAIL_UP (spec/10_sequencer.md R246-R248, R254): a rail's change of state, its enable,
the end of the on-slots, and the record of a rail that fails to come up. -/
namespace Sys2Proof.Machine

/-! ### Bits and flags -/

/-- A bit that the register has room for reads as it was put. -/
theorem bitOf_putBit (s : State) {k i : Nat} (v : Bool) (h : i < 8 * sizeAt k) : (s.putBit k i v).bitOf k i = v := by
  cases v
  case true => exact bitOf_flag s h
  case false =>
    have hrd : (s.putBit k i false).rd k = (s.rd k ^^^ (s.rd k &&& 2 ^ i)) % 2 ^ (8 * sizeAt k) := by
      rw [Nat.pow_mul]
      exact State.rd_wr_same ..
    simp [State.bitOf, hrd, Nat.testBit_mod_two_pow]

theorem rd_flag_ne (s : State) {k q : Nat} (i) (h : q ≠ k) : (s.flag k i).rd q = s.rd q := State.rd_wr_ne s _ h

/-- Giving a bit a value touches no part of the state but the registers and what is kept in mind for R69. -/
theorem putBit_eq (s : State) (k i v) : ∃ reg now, s.putBit k i v = { s with reg := reg, setNow := now } := by
  unfold State.putBit
  split <;> exact ⟨_, _, rfl⟩

/-! ### A rail's state and its enable (R242-R244) -/

/-- RAILS_ON and RAILS_GOOD have a bit for each rail. -/
theorem rail_bit {n : Nat} (hn : n < 8) : n < 8 * sizeAt Reg.railsOn ∧ n < 8 * sizeAt Reg.railsGood := by
  revert n
  decide

/-- The sequencer's own part once a rail has entered a state: the ticks of entry are kept. -/
def State.railEntered (s : State) (n st : Nat) : Seq :=
  { s.seq with
    riseAt := if st = Rs.rising then tput s.seq.riseAt n s.tick else s.seq.riseAt
    fallAt := if st = Rs.falling || st = Rs.failed then tput s.seq.fallAt n s.tick else s.seq.fallAt
    runAt := if st = Rs.running then tput s.seq.runAt n s.tick else s.seq.runAt }

section
variable (s : State) (n : Nat)

/-- What a rail's change of state touches; the pads only where the rail leaves RUNNING (R259). -/
theorem setRail_eq (st) : ∃ reg now pads,
    s.setRail n st = { s with reg := reg, setNow := now, pads := pads, seq := s.railEntered n st }
      ∧ pads.en = s.pads.en ∧ (s.railSt n ≠ Rs.running → pads = s.pads) := by
  unfold State.setRail
  extract_lets old u q v
  obtain ⟨reg, now, hu⟩ : ∃ reg now, u = { s with reg := reg, setNow := now } := putBit_eq ..
  have hv : v = { s with reg := reg, setNow := now, seq := s.railEntered n st } := by
    simp only [v, q]
    rw [hu]
    rfl
  clear_value v
  subst hv
  split
  next hleaves => exact ⟨_, _, _, rfl, rfl, fun hne => absurd hleaves (by simp [old, hne])⟩
  next => exact ⟨_, _, _, rfl, rfl, fun _ => rfl⟩

theorem setRail_seq (st) : (s.setRail n st).seq = s.railEntered n st := by
  obtain ⟨_, _, _, h, _⟩ := setRail_eq s n st
  rw [h]

theorem setRail_clk (st) : (s.setRail n st).clk = s.clk := by
  obtain ⟨_, _, _, h, _⟩ := setRail_eq s n st
  rw [h]

theorem setRail_pads_en (st) : (s.setRail n st).pads.en = s.pads.en := by
  obtain ⟨_, _, _, h, hen, _⟩ := setRail_eq s n st
  rw [h, hen]

theorem setRail_pads {st} (hne : s.railSt n ≠ Rs.running) : (s.setRail n st).pads = s.pads := by
  obtain ⟨_, _, _, h, _, hpads⟩ := setRail_eq s n st
  rw [h, hpads hne]

theorem setRail_frame (st) : Frame [Reg.railState n, Reg.railsGood] [] s (s.setRail n st) :=
  (Frame.refl ..).setRail n st (by simp) (by simp)

/-- A rail's state is one of Table SQ-1's, which its register holds. -/
theorem setRail_railState {st} (hn : n < 8) (hst : st < 256) : (s.setRail n st).rd (Reg.railState n) = st := by
  have h := setRail_railSt s n st
  rwa [fit, sizeAt_railState hn, Nat.mod_eq_of_lt (by omega)] at h

/-- RAILS_GOOD's bit of a rail tells whether it runs. -/
theorem setRail_railsGood (st) (hn : n < 8) : (s.setRail n st).bitOf Reg.railsGood n = decide (st = Rs.running) := by
  obtain ⟨_, hgood⟩ := rail_bit hn
  rw [State.bitOf, rd_setRail]
  exact bitOf_putBit _ _ hgood

/-- Commanding an enable touches RAILS_ON and the level of its pad; only a sequenced rail is turned on (R242, R243). -/
theorem setEn_eq (on) : ∃ reg now en, s.setEn n on = { s with reg := reg, setNow := now, pads := { s.pads with en := en } }
    ∧ (s.rd (Reg.railMode n) = 1 → on = true → tget 0 en n = enOnLevel (s.rd (Reg.enDrive n))) := by
  obtain ⟨reg, now, h⟩ := putBit_eq s Reg.railsOn n (on && s.rd (Reg.railMode n) = 1)
  unfold State.setEn
  dsimp only
  rw [h]
  exact ⟨_, _, _, rfl, fun hmode hon => by simp [hmode, hon]⟩

theorem setEn_seq (on) : (s.setEn n on).seq = s.seq := by
  obtain ⟨_, _, _, h, _⟩ := setEn_eq s n on
  rw [h]

theorem setEn_clk (on) : (s.setEn n on).clk = s.clk := by
  obtain ⟨_, _, _, h, _⟩ := setEn_eq s n on
  rw [h]

theorem setEn_level (hmode : s.rd (Reg.railMode n) = 1) :
    tget 0 (s.setEn n true).pads.en n = enOnLevel (s.rd (Reg.enDrive n)) := by
  obtain ⟨_, _, _, h, hlevel⟩ := setEn_eq s n true
  rw [h]
  exact hlevel hmode rfl

theorem setEn_frame (on) : Frame [Reg.railsOn] [] s (s.setEn n on) :=
  ((Frame.refl ..).putBit _ _ _ (by simp)).pads _

theorem setEn_railsOn (on) (hn : n < 8) :
    (s.setEn n on).bitOf Reg.railsOn n = (on && decide (s.rd (Reg.railMode n) = 1)) :=
  bitOf_putBit s _ (rail_bit hn).1

end

/-! ### ON_SLOT (R246) -/

/-- A sequenced or monitor-only rail's on-slot has been reached in ON_SLOTS, counted from its common start. -/
def State.slotReached (s : State) (n t0 : Nat) : Bool :=
  s.seqRuns && s.atStep Step.onSlots && s.rd Reg.seqState = 1 && s.railUsed n
    && (s.railSt n = Rs.off || s.railSt n = Rs.waiting) && s.rd (Reg.onSlot n) ≤ s.tick - t0

theorem slotReached_of {s : State} {n t0 : Nat} (htaken : s.taken = true) (hrun : s.sup.running = true)
    (hphase : s.phase = .start) (hstep : s.rd Reg.startStep = Step.onSlots) (hseq : s.rd Reg.seqState = 1)
    (hmode : s.rd (Reg.railMode n) = 1) (hst : s.railSt n = Rs.off ∨ s.railSt n = Rs.waiting) (hslot : s.rd (Reg.onSlot n) ≤ s.tick - t0) :
    s.slotReached n t0 = true := by
  simpa [State.slotReached, State.seqRuns, State.atStep, State.railUsed, htaken, hrun, hphase, hstep, hseq, hmode, hslot]
    using hst

/-- A rail turns on: its enable, its count, RISING. -/
def State.railRises (s : State) (n : Nat) : State := ((s.setEn n true).bump (Reg.onCount n)).setRail n Rs.rising

section
variable {s : State} {n : Rail} {t0 : Nat} (hstart : s.seq.onStart = some t0) (hreached : s.slotReached n t0 = true)
include hstart hreached

theorem exec_onSlot_waits (hearlier : s.earlierUp n = false) : exec (.onSlot n) s = .next (s.setRail n Rs.waiting) := by
  change execOnSlot n s = _
  unfold State.slotReached at hreached
  simp only [execOnSlot, hstart, hreached, hearlier]
  rfl

theorem exec_onSlot_rises (hearlier : s.earlierUp n = true) (hmode : s.rd (Reg.railMode n) = 1)
    (hearly : s.seq.early.testBit n = false) : exec (.onSlot n) s = .next (s.railRises n) := by
  have hmonitor : s.railMonitor n = false := by simp [State.railMonitor, hmode]
  have hlate : ((s.setEn n true).bump (Reg.onCount n)).seq.early.testBit n = false := by rwa [State.bump_seq, setEn_seq]
  change execOnSlot n s = _
  unfold State.slotReached at hreached
  simp only [execOnSlot, hstart, hreached, hearlier, hmonitor, hlate]
  rfl

end

theorem railRises_frame (s : State) (n : Rail) :
    Frame [Reg.onCount n, Reg.railState n, Reg.railsGood, Reg.railsOn] [] s (s.railRises n) := by
  have hen := (setEn_frame s n true).mono (K' := [Reg.onCount n, Reg.railState n, Reg.railsGood, Reg.railsOn]) (by simp)
    (List.Subset.refl _)
  exact (hen.wr _ _ (by simp)).setRail _ _ (by simp) (by simp)

/-- A rail that turns on counts it (R246). -/
theorem railRises_counts (s : State) (n : Rail) : Counts (Reg.onCount n) s (s.railRises n) := by
  have hrail : Reg.onCount n ∉ [Reg.railState n, Reg.railsGood] := by revert n; decide
  have hen : Reg.onCount n ∉ [Reg.railsOn] := by revert n; decide
  rw [Counts, State.railRises, (setRail_frame ..).rd hrail, State.bump, State.rd_wr_same, (setEn_frame ..).rd hen, fit]

theorem railRises_railsOn {s : State} {n : Rail} (hmode : s.rd (Reg.railMode n) = 1) :
    (s.railRises n).bitOf Reg.railsOn n = true := by
  have hrail : Reg.railsOn ∉ [Reg.railState n, Reg.railsGood] := by clear hmode; revert n; decide
  have hcount : Reg.railsOn ≠ Reg.onCount n := by clear hmode; revert n; decide
  rw [State.bitOf, State.railRises, (setRail_frame ..).rd hrail, State.bump, State.rd_wr_ne _ _ hcount]
  exact (setEn_railsOn s n true n.isLt).trans (by simp [hmode])

theorem railRises_riseAt (s : State) (n : Nat) : tget 0 (s.railRises n).seq.riseAt n = s.tick := by
  have htick : ((s.setEn n true).bump (Reg.onCount n)).tick = s.tick := by simp [State.tick, setEn_clk]
  rw [State.railRises, setRail_seq, State.railEntered, if_pos rfl, tget_tput, if_pos rfl, htick]

theorem railRises_level {s : State} {n : Nat} (hmode : s.rd (Reg.railMode n) = 1) :
    tget 0 (s.railRises n).pads.en n = enOnLevel (s.rd (Reg.enDrive n)) := by
  rw [State.railRises, setRail_pads_en]
  exact setEn_level s n hmode

/-! ### RAIL_GOOD (R247) -/

/-- A rail that has been judged good runs; the time it took is kept. -/
def State.railUp (s : State) (n : Nat) : State :=
  let d := s.tick - tget 0 s.seq.riseAt n
  let u := (s.setRail n Rs.running).wr (Reg.riseLast n) d
  u.wr (Reg.riseMax n) (max d (u.rd (Reg.riseMax n)))

theorem exec_railGood {s : State} {n : Rail} (hruns : s.seqRuns = true) (hst : s.railSt n = Rs.rising)
    (hgood : s.rd (Reg.goodFilter n) ≤ s.run (rcGood n)) : exec (.railGood n) s = .next (s.railUp n).checkOnDone :=
  if_pos (by simp [hruns, hst, hgood])

/-- The last rail judged good ends ON_SLOTS (R163); no rail's own register changes with it. -/
theorem checkOnDone_frame (s : State) : Frame [Reg.startStep, Reg.seqState] [] s s.checkOnDone :=
  .ite (fun _ => (((Frame.refl ..).wr _ _ (by decide)).wr _ _ (by decide)).seq _) fun _ => .refl ..

theorem checkOnDone_runAt (s : State) : s.checkOnDone.seq.runAt = s.seq.runAt := by
  unfold State.checkOnDone
  split <;> rfl

theorem railUp_frame (s : State) (n : Rail) :
    Frame [Reg.railState n, Reg.railsGood, Reg.riseLast n, Reg.riseMax n] [] s (s.railUp n) :=
  (((Frame.refl ..).setRail _ _ (by simp) (by simp)).wr _ _ (by simp)).wr _ _ (by simp)

theorem railUp_times_frame (s : State) (n : Rail) :
    Frame [Reg.riseLast n, Reg.riseMax n] [] (s.setRail n Rs.running) (s.railUp n) :=
  ((Frame.refl ..).wr _ _ (by simp)).wr _ _ (by simp)

theorem railUp_railState (s : State) (n : Rail) : (s.railUp n).rd (Reg.railState n) = Rs.running := by
  have hkey : Reg.railState n ∉ [Reg.riseLast n, Reg.riseMax n] := by revert n; decide
  exact ((railUp_times_frame s n).rd hkey).trans (setRail_railState s n n.isLt (by decide))

theorem railUp_railsGood (s : State) (n : Rail) : (s.railUp n).bitOf Reg.railsGood n = true := by
  have hkey : Reg.railsGood ∉ [Reg.riseLast n, Reg.riseMax n] := by revert n; decide
  rw [State.bitOf, (railUp_times_frame s n).rd hkey]
  exact setRail_railsGood s n Rs.running n.isLt

theorem railUp_riseLast (s : State) (n : Rail) :
    (s.railUp n).rd (Reg.riseLast n) = fit (Reg.riseLast n) (s.tick - tget 0 s.seq.riseAt n) := by
  have hkey : Reg.riseLast n ≠ Reg.riseMax n := by revert n; decide
  rw [State.railUp, State.rd_wr_ne _ _ hkey, State.rd_wr_same, fit]

theorem railUp_runAt (s : State) (n : Nat) : tget 0 (s.railUp n).seq.runAt n = s.tick := by
  have hseq : (s.railUp n).seq = s.railEntered n Rs.running := setRail_seq ..
  rw [hseq, State.railEntered, if_pos rfl, tget_tput, if_pos rfl]

/-- What RAIL_GOOD says of its rail stands where it ends ON_SLOTS. -/
theorem goodKeys_notMem (n : Rail) :
    ∀ k ∈ [Reg.railState n, Reg.railsGood, Reg.riseLast n], k ∉ [Reg.startStep, Reg.seqState] := by
  revert n
  decide

/-! ### RAIL_FAIL_UP (R248) -/

/-- A rail that fails to come up is turned off. -/
def State.failedOff (s : State) (n : Nat) : State := (s.setRail n Rs.failed).setEn n false

/-- Its failure is counted, stamped and flagged, RAIL_FLAGS and the log yet to follow. -/
def State.failCounted (s : State) (n cause : Nat) : State :=
  (((s.bump (Reg.failUp n)).railFault n cause).wr Reg.failedRail n).flag Reg.seqFlags 1

/-- Its failure is on record. -/
def State.failNoted (s : State) (n cause : Nat) : State :=
  ((s.failCounted n cause).flag (Reg.railFlags n) 3).event 0x2302 n cause ((s.failCounted n cause).railNow n)

/-- RAIL_ACTION may send a FAULT# pulse for it (R256). -/
def State.failPulse (s : State) (n : Nat) : State := s.iff (s.bitOf (Reg.railAction n) 2) (·.pulseAndRelay n)

/-- A rail that waits for its on-slot never turns on. -/
def State.waitingToOff (n : Nat) (s : State) : State := if s.railSt n = Rs.waiting then s.setRail n Rs.off else s

/-- No rail waits for its on-slot any more. -/
def State.waitingOff (s : State) : State := s.each allRails (fun m s => if s.railSt m = Rs.waiting then s.setRail m Rs.off else s)

/-- The reverse shutdown begins, or goes on, with a failed rail waited for (R254). -/
def State.toReverse (s : State) (n : Nat) : State :=
  { s.wr Reg.seqState 3 with seq := { s.seq with waiting := s.seq.waiting ||| 2 ^ n } }

theorem exec_railFailUp {s : State} {n : Rail} {cause : Nat} (hruns : s.seqRuns = true) (hat : s.atStep Step.onSlots = true)
    (hseq : s.rd Reg.seqState = 1 ∨ s.rd Reg.seqState = 3) (hst : s.railSt n = Rs.rising) (hcause : s.failUpCause n = cause)
    (hfails : cause ≠ 0) :
    exec (.railFailUp n) s = .next ((((s.failedOff n).failNoted n cause).failPulse n).waitingOff.toReverse n) := by
  subst hcause
  have hcond : (s.seqRuns && s.atStep Step.onSlots && (s.rd Reg.seqState = 1 || s.rd Reg.seqState = 3) && s.railSt n = Rs.rising
      && s.failUpCause n ≠ 0) = true := by simpa [hruns, hat, hst, hfails] using hseq
  change execRailFailUp n s = _
  unfold execRailFailUp
  rw [if_pos hcond]
  extract_lets _ _ _ _ off
  have hoff : off = (((s.failedOff n).failNoted n (s.failUpCause n)).failPulse n).waitingOff := rfl
  exact congrArg (fun u : State => Host.Outcome.next (u.toReverse n)) hoff

/-- A rail that has not been judged good in time fails with cause 4 where its enable's pad is not Off. -/
theorem failUpCause_timeout {s : State} {n : Nat} (hlate : s.rd (Reg.onTimeout n) ≤ s.tick - tget 0 s.seq.riseAt n)
    (hpad : s.padIsOff n = false) : s.failUpCause n = 4 := by
  rw [State.failUpCause, if_pos hlate, if_neg (by simp [hpad])]

/-- The registers that a failure's record may change. -/
def failNotedKeys (n : Nat) : List Nat :=
  eventKeys ++ [Reg.failUp n, Reg.lastFault n, Reg.faultCause n, Reg.failedRail, Reg.seqFlags, Reg.railFlags n]

/-! The state in which the rail is off. -/

section
variable (s : State) (n : Rail)

theorem failedOff_frame : Frame [Reg.railState n, Reg.railsGood, Reg.railsOn] [] s (s.failedOff n) :=
  (((Frame.refl ..).setRail _ _ (by simp) (by simp)).putBit _ _ _ (by simp)).pads _

theorem failedOff_clk : (s.failedOff n).clk = s.clk := (setEn_clk ..).trans (setRail_clk ..)

theorem failedOff_waiting : (s.failedOff n).seq.waiting = s.seq.waiting := by
  rw [State.failedOff, setEn_seq, setRail_seq, State.railEntered]

theorem failedOff_railState : (s.failedOff n).rd (Reg.railState n) = Rs.failed := by
  have hkey : Reg.railState n ∉ [Reg.railsOn] := by revert n; decide
  exact ((setEn_frame ..).rd hkey).trans (setRail_railState s n n.isLt (by decide))

theorem failedOff_railsOn : (s.failedOff n).bitOf Reg.railsOn n = false := setEn_railsOn _ n false n.isLt

/-! The state in which the failure has been noted. -/

theorem failCounted_frame (cause) : Frame (failNotedKeys n) [] s (s.failCounted n cause) := by
  have hmem : ∀ k ∈ [Reg.failUp n, Reg.lastFault n, Reg.faultCause n, Reg.failedRail, Reg.seqFlags, Reg.railFlags n],
      k ∈ failNotedKeys n := fun _ hk => List.mem_append_right _ hk
  exact (((((Frame.refl ..).wr _ _ (hmem _ (by simp))).wr _ _ (hmem _ (by simp))).wr _ _ (hmem _ (by simp))).wr _ _
    (hmem _ (by simp))).flag _ _ (hmem _ (by simp))

theorem failNoted_frame (cause) : Frame (failNotedKeys n) [] s (s.failNoted n cause) :=
  ((failCounted_frame s n cause).flag _ _ (List.mem_append_right _ (by simp))).event _ _ _ _ _ (List.subset_append_left ..)

theorem failNoted_counts (cause) : Counts (Reg.failUp n) s (s.failNoted n cause) := by
  simp (disch := (revert n; decide)) only [Counts, State.failNoted, State.failCounted, State.railFault, State.bump,
    State.rd_event, rd_flag_ne, State.rd_wr_ne, State.rd_wr_same, fit]

theorem failNoted_lastFault (cause) : (s.failNoted n cause).rd (Reg.lastFault n) = fit (Reg.lastFault n) s.stamp := by
  simp (disch := (revert n; decide)) only [State.failNoted, State.failCounted, State.railFault, State.rd_event, rd_flag_ne,
    State.rd_wr_ne, State.rd_wr_same, fit]
  rfl

theorem failNoted_faultCause {cause} (h : cause < 256) : (s.failNoted n cause).rd (Reg.faultCause n) = cause := by
  have hsize : sizeAt (Reg.faultCause n) = 1 := by clear h; revert n; decide
  simp (disch := (revert n; decide)) only [State.failNoted, State.failCounted, State.railFault, State.rd_event, rd_flag_ne,
    State.rd_wr_ne, State.rd_wr_same, hsize]
  exact Nat.mod_eq_of_lt h

theorem failNoted_failedRail (cause) : (s.failNoted n cause).rd Reg.failedRail = n := by
  have hsize : sizeAt Reg.failedRail = 1 := by decide
  simp (disch := (revert n; decide)) only [State.failNoted, State.failCounted, State.rd_event, rd_flag_ne, State.rd_wr_same,
    hsize]
  omega

theorem failNoted_seqFlags (cause) : (s.failNoted n cause).bitOf Reg.seqFlags 1 = true := by
  have hkey : Reg.seqFlags ≠ Reg.railFlags n := by revert n; decide
  rw [State.bitOf, State.failNoted, State.rd_event _ _ _ _ _ _ (by decide), rd_flag_ne _ _ hkey]
  exact bitOf_flag _ (by decide)

theorem failNoted_railFlags (cause) : (s.failNoted n cause).bitOf (Reg.railFlags n) 3 = true := by
  have hkey : Reg.railFlags n ∉ eventKeys := by revert n; decide
  rw [State.bitOf, State.failNoted, State.rd_event _ _ _ _ _ _ hkey]
  exact bitOf_flag _ (by revert n; decide)

theorem failNoted_waiting (cause) : (s.failNoted n cause).seq.waiting = s.seq.waiting := by
  rw [State.failNoted, State.event_seq]
  rfl

end

/-! FAULT# and the reverse shutdown. -/

theorem Frame.faultPulse {K H s t} (h : Frame K H s t) (hout : Reg.faultOutCount ∈ K) : Frame K H s t.faultPulse := by
  unfold State.faultPulse
  refine .ite (fun _ => h.seq _) fun _ => Frame.wr _ _ ?_ hout
  exact h.of_eq rfl rfl (sameStores_of_eq rfl rfl rfl rfl)

theorem Frame.relayFault {K H s t} (n) (h : Frame K H s t) (hrelay : Reg.faultRelayTx ∈ K) : Frame K H s (t.relayFault n) := by
  refine .ite (fun _ => .ite (fun _ => Frame.wr _ _ ?_ hrelay) fun _ => h) fun _ => h
  exact h.of_eq rfl rfl (sameStores_of_eq rfl rfl rfl rfl)

/-- A pulse on FAULT# and its relay change their two counters (R256, R448). -/
theorem Frame.pulseAndRelay {K H s t} (n) (h : Frame K H s t) (hout : Reg.faultOutCount ∈ K) (hrelay : Reg.faultRelayTx ∈ K) :
    Frame K H s (t.pulseAndRelay n) := (h.faultPulse hout).relayFault n hrelay

theorem pulseAndRelay_waiting (s : State) (n) : (s.pulseAndRelay n).seq.waiting = s.seq.waiting := by
  have hpulse : s.faultPulse.seq.waiting = s.seq.waiting := by
    unfold State.faultPulse
    dsimp only
    split <;> rfl
  unfold State.pulseAndRelay State.relayFault State.queuePourCmd
  split
  · split <;> exact hpulse
  · exact hpulse

theorem failPulse_frame (s : State) (n) : Frame [Reg.faultOutCount, Reg.faultRelayTx] [] s (s.failPulse n) :=
  (Frame.refl ..).iff _ _ fun h => h.pulseAndRelay n (by decide) (by decide)

theorem failPulse_waiting (s : State) (n) : (s.failPulse n).seq.waiting = s.seq.waiting := by
  unfold State.failPulse State.iff
  split
  · exact pulseAndRelay_waiting s n
  · rfl

theorem waitingOff_eq (s : State) : s.waitingOff = s.each allRails State.waitingToOff := rfl

theorem waitingOff_frame (s : State) : Frame (Reg.railsGood :: allRails.map Reg.railState) [] s s.waitingOff :=
  (Frame.refl ..).each_mem _ _ fun _ hn _ hu =>
    .ite (fun _ => hu.setRail _ _ (.tail _ (List.mem_map_of_mem hn)) (.head _)) fun _ => hu

theorem waitingToOff_railSt_ne (s : State) {n m : Nat} (h : s.railSt m ≠ Rs.waiting) :
    (s.waitingToOff n).railSt m = s.railSt m := by
  unfold State.waitingToOff
  split
  next hn => exact setRail_railSt_ne s _ fun e => h (e ▸ hn)
  next => rfl

/-- A rail that does not wait keeps its state. -/
theorem each_waitingToOff_railSt {m : Nat} (l : List Nat) {s : State} (h : s.railSt m ≠ Rs.waiting) :
    (s.each l State.waitingToOff).railSt m = s.railSt m := by
  induction l generalizing s with
  | nil => rfl
  | cons n l ih =>
    have hn := waitingToOff_railSt_ne s (n := n) h
    exact (ih (s := s.waitingToOff n) (by rwa [hn])).trans hn

theorem each_waitingToOff_waiting (l : List Nat) (s : State) :
    (s.each l State.waitingToOff).seq.waiting = s.seq.waiting := by
  induction l generalizing s with
  | nil => rfl
  | cons n l ih =>
    have hn : (s.waitingToOff n).seq.waiting = s.seq.waiting := by
      unfold State.waitingToOff
      split
      · rw [setRail_seq, State.railEntered]
      · rfl
    exact (ih (s.waitingToOff n)).trans hn

theorem toReverse_frame (s : State) (n) : Frame [Reg.seqState] [] s (s.toReverse n) :=
  ((Frame.refl ..).wr _ _ (.head _)).seq _

theorem toReverse_seqState (s : State) (n) : (s.toReverse n).rd Reg.seqState = 3 := State.rd_wr_same s Reg.seqState 3

theorem toReverse_waiting (s : State) (n) : (s.toReverse n).seq.waiting = s.seq.waiting ||| 2 ^ n := rfl

/-- The registers that what follows a failure's record may change. -/
def afterFailKeys : List Nat :=
  [Reg.seqState, Reg.railsGood, Reg.faultOutCount, Reg.faultRelayTx] ++ allRails.map Reg.railState

theorem afterFail_frame (s : State) (n) :
    Frame afterFailKeys [] s ((s.failPulse n).waitingOff.toReverse n) :=
  (((failPulse_frame s n).mono (by decide +kernel) (List.Subset.refl _)).trans
    ((waitingOff_frame _).mono (by decide +kernel) (List.Subset.refl _))).trans
    ((toReverse_frame _ n).mono (by decide +kernel) (List.Subset.refl _))

/-- What a failure's record says stands after it, and so does the enable turned off before it. -/
theorem failKeys_notMem (n : Rail) : ∀ k ∈ [Reg.failUp n, Reg.lastFault n, Reg.faultCause n, Reg.failedRail, Reg.seqFlags,
    Reg.railFlags n, Reg.railsOn], k ∉ afterFailKeys := by
  revert n
  decide +kernel

theorem offKeys_notMem (n : Rail) : Reg.railState n ∉ failNotedKeys n ∧ Reg.railsOn ∉ failNotedKeys n
    ∧ Reg.failUp n ∉ [Reg.railState n, Reg.railsGood, Reg.railsOn] := by
  revert n
  decide

/-- The registers that a failure to come up may change. -/
def failUpKeys (n : Nat) : List Nat :=
  eventKeys ++ [Reg.failUp n, Reg.failedRail, Reg.faultCause n, Reg.lastFault n, Reg.railFlags n, Reg.seqFlags, Reg.seqState,
    Reg.railsOn, Reg.railsGood, Reg.faultOutCount, Reg.faultRelayTx] ++ allRails.map Reg.railState

theorem subset_failUpKeys (n : Rail) : [Reg.railState n, Reg.railsGood, Reg.railsOn] ⊆ failUpKeys n
    ∧ failNotedKeys n ⊆ failUpKeys n ∧ afterFailKeys ⊆ failUpKeys n := by
  revert n
  decide +kernel

theorem railFails_frame (s : State) (n : Rail) (cause) : Frame (failUpKeys n) [] s
    ((((s.failedOff n).failNoted n cause).failPulse n).waitingOff.toReverse n) := by
  obtain ⟨hoff, hnoted, hafter⟩ := subset_failUpKeys n
  exact (((failedOff_frame s n).mono hoff (List.Subset.refl _)).trans
    ((failNoted_frame _ n cause).mono hnoted (List.Subset.refl _))).trans ((afterFail_frame _ n).mono hafter (List.Subset.refl _))

theorem afterFail_railSt {s : State} {m : Rail} {n : Nat} (h : s.railSt m = Rs.failed) :
    ((s.failPulse n).waitingOff.toReverse n).railSt m = Rs.failed := by
  have hpulse : Reg.railState m ∉ [Reg.faultOutCount, Reg.faultRelayTx] := by clear h; revert m; decide
  have hseq : Reg.railState m ∉ [Reg.seqState] := by clear h; revert m; decide
  have hkept : (s.failPulse n).railSt m = Rs.failed := ((failPulse_frame s n).rd hpulse).trans h
  refine ((toReverse_frame _ n).rd hseq).trans ?_
  rw [waitingOff_eq]
  exact (each_waitingToOff_railSt _ (by rw [hkept]; decide)).trans hkept

theorem afterFail_waiting (s : State) (n : Nat) :
    ((s.failPulse n).waitingOff.toReverse n).seq.waiting = s.seq.waiting ||| 2 ^ n := by
  rw [toReverse_waiting, waitingOff_eq, each_waitingToOff_waiting, failPulse_waiting]

/-! ### The obligation -/

/-- Settles O14: a rail that turns on, waits or is judged good changes its state (`setRail_`) and, turned on, its enable
(`setEn_`); a failure is noted (`failNoted_`) after the rail is off (`failedOff_`), and what follows leaves that record alone
(`afterFail_frame`). -/
theorem railsRiseInTheirSlots : Obligations.RailsRiseInTheirSlots := by
  refine ⟨fun s n t0 hstart htaken hrun hphase hstep hseq hmode hst hslot hearlier hearly => ?rises,
    fun s n t0 hstart htaken hrun hphase hstep hseq hmode hst hslot hearlier => ?waits,
    fun s n htaken hrun hst hgood => ?good, fun s n htaken hrun hphase hstep hseq hst hmode hlate hpad => ?fails⟩
  case rises =>
    have hreached := slotReached_of htaken hrun hphase hstep hseq hmode hst hslot
    exact ⟨_, exec_onSlot_rises hstart hreached hearlier hmode hearly, setRail_railState _ n n.isLt (by decide),
      railRises_railsOn hmode, setRail_railsGood _ n Rs.rising n.isLt, railRises_counts s n, railRises_riseAt s n,
      railRises_level hmode, railRises_frame s n⟩
  case waits =>
    have hreached := slotReached_of htaken hrun hphase hstep hseq hmode hst hslot
    have hnot : s.railSt n ≠ Rs.running := fun e => by
      rw [State.railSt] at e
      rw [e] at hst
      exact absurd hst (by decide)
    exact ⟨_, exec_onSlot_waits hstart hreached hearlier, setRail_railState _ n n.isLt (by decide), setRail_pads s n hnot,
      setRail_frame s n _⟩
  case good =>
    have hdone := checkOnDone_frame (s.railUp n)
    have hkeys := goodKeys_notMem n
    refine ⟨_, exec_railGood (by simp [State.seqRuns, htaken, hrun]) hst hgood, ?state, ?good, ?runAt, ?riseLast, ?frame⟩
    case state => exact (hdone.rd (hkeys _ (by simp))).trans (railUp_railState s n)
    case good =>
      rw [State.bitOf, hdone.rd (hkeys _ (by simp))]
      exact railUp_railsGood s n
    case runAt =>
      rw [checkOnDone_runAt]
      exact railUp_runAt s n
    case riseLast => exact (hdone.rd (hkeys _ (by simp))).trans (railUp_riseLast s n)
    case frame =>
      exact ((railUp_frame s n).mono (by simp) (List.Subset.refl _)).trans (hdone.mono (by simp) (List.Subset.refl _))
  case fails =>
    have hat : s.atStep Step.onSlots = true := atStep_eq_true.2 ⟨hphase, hstep⟩
    have hafter := afterFail_frame ((s.failedOff n).failNoted n 4) n
    have hkeys := failKeys_notMem n
    have hnoted := failNoted_frame (s.failedOff n) n 4
    obtain ⟨hstate, hon, hcount⟩ := offKeys_notMem n
    have hfailed : ((s.failedOff n).failNoted n 4).railSt n = Rs.failed := by
      rw [State.railSt, hnoted.rd hstate, failedOff_railState]
    have hruns : s.seqRuns = true := by simp [State.seqRuns, htaken, hrun]
    refine ⟨_, exec_railFailUp hruns hat hseq hst (failUpCause_timeout hlate hpad) (by decide),
      ?state, ?cause, ?failedRail, toReverse_seqState .., ?off, ?waiting, ?seqFlag, ?railFlag, ?count, ?stamp, ?frame⟩
    case state => exact afterFail_railSt hfailed
    case cause => exact (hafter.rd (hkeys _ (by simp))).trans (failNoted_faultCause _ n (by decide))
    case failedRail => exact (hafter.rd (hkeys _ (by simp))).trans (failNoted_failedRail _ n 4)
    case off =>
      rw [State.bitOf, hafter.rd (hkeys _ (by simp)), hnoted.rd hon]
      exact failedOff_railsOn s n
    case waiting =>
      rw [afterFail_waiting, failNoted_waiting, failedOff_waiting]
    case seqFlag =>
      rw [State.bitOf, hafter.rd (hkeys _ (by simp))]
      exact failNoted_seqFlags _ n 4
    case railFlag =>
      rw [State.bitOf, hafter.rd (hkeys _ (by simp))]
      exact failNoted_railFlags _ n 4
    case count =>
      rw [Counts, hafter.rd (hkeys _ (by simp)), failNoted_counts, (failedOff_frame s n).rd hcount]
    case stamp =>
      rw [hafter.rd (hkeys _ (by simp)), failNoted_lastFault, State.stamp, failedOff_clk, State.stamp]
    case frame => exact railFails_frame s n 4

end Sys2Proof.Machine
end

section
/-! PROOF. What holds of every command: it completes, a step runs the front one, and the master's parameters are refused on a member
(spec/17_cascade.md R457; log entries 7, 8, 74). -/
namespace Sys2Proof.Machine

/-- Settles O53: `step` takes the queue apart, and puts nothing else between. -/
theorem stepExecutesTheFrontCommand : Obligations.StepExecutesTheFrontCommand :=
  ⟨fun _ _ => rfl, fun s h => by unfold step; rw [h]⟩

/-- Settles O51: a command that keeps the queue and the invariant (`exec_keeps`) answers a next state. -/
theorem everyCommandCompletes : Obligations.EveryCommandCompletes := by
  intro c s
  have h := exec_keeps (Keeps.refl s) c
  cases e : exec c s with
  | next t => exact ⟨t, rfl⟩
  | fault r =>
    rw [e] at h
    exact h.elim
  | refused r =>
    rw [e] at h
    exact h.elim

/-! ### The master's parameters on a member (R457) -/

/-- An opcode of a parameter that is not there to describe, and no transfer's own. -/
def opNamesParam (op : Nat) : Bool :=
  opKnown op && decide (op < 0x80) && op ≠ Op.describe && op ≠ Op.segData && op ≠ Op.segAbort

/-- A request for a parameter that only the master has is refused on a member (R457). -/
theorem refuses_of_masterOnly {s u : State} {r : Req} {c : Instr} {op : Nat} (hexec : exec c s = .next (s.request op r))
    (hop : opNamesParam op = true) (hin : s.intake op r = some u) (hready : u.unready op (reqKey r) = none) (hnode : 2 ≤ s.node)
    (hkey : masterOnly (reqKey r) = true) : Refuses c op r 0x040B0000 0 s fun t => t = u := by
  simp only [opNamesParam, Bool.and_eq_true, decide_eq_true_eq, ne_eq, decide_not, Bool.not_eq_true',
    decide_eq_false_iff_not] at hop
  obtain ⟨⟨⟨⟨hknown, hlt⟩, hdescribe⟩, hdata⟩, habort⟩ := hop
  have hmember : u.node ≠ 1 := by
    rw [svcOnly_intake hin]
    exact fun e => absurd (e ▸ hnode : 2 ≤ 1) (by decide)
  have habs : u.absent op (reqKey r) = some (0x040B0000, 0) := if_pos (by simp [hmember, hdescribe, hkey])
  have heff : u.effKey op r = reqKey r := if_neg (by simp [hdata, habort])
  have hdo : u.perform op r 0 = .abort u 0x040B0000 0 := by
    simp [State.perform, hknown, heff, hready, hdata, habort, habs]
  have hmod : (op + 0x80) % 256 = op + 0x80 := Nat.mod_eq_of_lt (by omega)
  exact ⟨u, by rw [hexec, request_of_intake hin, hdo]; simp [State.finish, State.noteRetry, State.replyAbort, hmod], rfl⟩

/-- The eight forms in which a parameter is read and written. -/
theorem exec_of_parameterForm {r : Req} {c : Instr} {op : Nat} (h : (c, op) ∈ [(.read r, Op.read), (.readLow r, Op.readLow),
      (.readHigh r, Op.readHigh), (.segReadInit r, Op.segReadInit), (.write r, Op.write), (.flagWrite r, Op.write),
      (.clearIfEqual r, Op.clearIfEqual), (.segWriteInit r, Op.segWriteInit)]) (s : State) :
    exec c s = .next (s.request op r) ∧ opNamesParam op = true := by
  simp only [List.mem_cons, List.not_mem_nil, or_false, Prod.mk.injEq] at h
  rcases h with ⟨rfl, rfl⟩ | ⟨rfl, rfl⟩ | ⟨rfl, rfl⟩ | ⟨rfl, rfl⟩ | ⟨rfl, rfl⟩ | ⟨rfl, rfl⟩ | ⟨rfl, rfl⟩ | ⟨rfl, rfl⟩ <;>
    exact ⟨rfl, by decide⟩

/-- Settles O56: both ranges are `masterOnly`. -/
theorem membersAreNotTheMaster : Obligations.MembersAreNotTheMaster := by
  refine ⟨fun s u r c op hform hin hready hnode hlow hhigh => ?_, fun s u r c op hform hin hready hnode hkey => ?_⟩
  all_goals obtain ⟨hexec, hop⟩ := exec_of_parameterForm hform s
  · have hindex : reqKey r / 256 = r.index.toNat := by
      have hsub := r.sub.isLt
      unfold reqKey
      omega
    exact refuses_of_masterOnly hexec hop hin hready hnode (by simp [masterOnly, hindex, hlow, hhigh])
  · exact refuses_of_masterOnly hexec hop hin hready hnode (by rcases hkey with h | h <;> simp [masterOnly, h])

end Sys2Proof.Machine
end

section
/-! SUPPORT. How the terms of the statements follow the updates of the state's parts, and what counting and setting a flag leave to
read. -/
namespace Sys2Proof.Machine

theorem Frame.same {K H s t u} (h : Frame K H s t) (hreg : u.reg = t.reg) (hhv : u.hv = t.hv) (hfw : u.fw = t.fw) (hsto : u.sto = t.sto)
    (hfla : u.fla = t.fla) (hlog : u.log = t.log) : Frame K H s u := h.of_eq hreg hhv (sameStores_of_eq hfw hsto hfla hlog)

theorem Frame.bump {K H s t} (k) (h : Frame K H s t) (hk : k ∈ K) : Frame K H s (t.bump k) := h.wr k _ hk

theorem Frame.bumpBy {K H s t} (k n) (h : Frame K H s t) (hk : k ∈ K) : Frame K H s (t.bumpBy k n) := h.wr k _ hk

theorem Frame.clearBits {K H s t} (k m) (h : Frame K H s t) (hk : k ∈ K) : Frame K H s (t.clearBits k m) := h.wr k _ hk

theorem Frame.ll {K H s t} (x : LinkLayer) (h : Frame K H s t) : Frame K H s { t with ll := x } := h.same rfl rfl rfl rfl rfl rfl

theorem Frame.phy {K H s t} (x : Phy) (h : Frame K H s t) : Frame K H s { t with phy := x } := h.same rfl rfl rfl rfl rfl rfl

theorem Frame.cas {K H s t} (x : Cascade) (h : Frame K H s t) : Frame K H s { t with cas := x } := h.same rfl rfl rfl rfl rfl rfl

theorem Frame.shk {K H s t} (x : Shake) (h : Frame K H s t) : Frame K H s { t with shk := x } := h.same rfl rfl rfl rfl rfl rfl

theorem Frame.rep {K H s t} (x : Report) (h : Frame K H s t) : Frame K H s { t with rep := x } := h.same rfl rfl rfl rfl rfl rfl

theorem Frame.svc {K H s t} (x : Service) (h : Frame K H s t) : Frame K H s { t with svc := x } := h.same rfl rfl rfl rfl rfl rfl

theorem Frame.setRun {K H s t} (c n) (h : Frame K H s t) : Frame K H s (t.setRun c n) := h.same rfl rfl rfl rfl rfl rfl

theorem rd_bump (s : State) (k) : (s.bump k).rd k = fit k (s.rd k + 1) := State.rd_wr_same ..

theorem rd_bump_ne (s : State) {k q} (h : q ≠ k) : (s.bump k).rd q = s.rd q := State.rd_wr_ne s _ h

theorem counts_bump (s : State) (k) : Counts k s (s.bump k) := rd_bump s k

/-- A flag that is set stays set through what leaves its register alone. -/
theorem bitOf_of_rd {s t : State} {k : Nat} (i) (h : t.rd k = s.rd k) : t.bitOf k i = s.bitOf k i := by rw [State.bitOf, h, State.bitOf]

end Sys2Proof.Machine
end

section
/-! PROOF. An event's number and its place in the queue (spec/18_events_and_faults.md R464, R466, R470). -/
namespace Sys2Proof.Machine

/-- The registers that name the latest event and the latest fault. -/
def numberKeys : List Nat := [Reg.eventSeq, Reg.lastFaultCode, Reg.lastFaultStamp]

/-- An event's number is taken, and a fault is named as the last one (R464, R466). -/
def State.eventNumbered (s : State) (sev code : Nat) : State :=
  let s := s.wr Reg.eventSeq ((s.rd Reg.eventSeq + 1) % 2 ^ 32)
  if sev = 2 then (s.wr Reg.lastFaultCode code).wr Reg.lastFaultStamp s.stamp else s

/-- The record of an event of a number (R467). -/
def State.eventRec (s : State) (seq code obj detail a b : Nat) : LogRec :=
  { tb := s.clk.tbAtTick, atOnce := atOnceOf code (sevOf code detail) detail, cold := s.coldRead, held := !s.loaded,
    code := code, seq := seq, stamp := s.stamp, sev := sevOf code detail, node := s.rd Reg.nodeId,
    boot := s.rd Reg.bootCount, obj := obj, detail := detail, a := a % 2 ^ 32, b := b % 2 ^ 32, ext := [] }

section
variable (s : State) (sev code obj detail a b : Nat)

/-- Taking a number changes registers only. -/
theorem eventNumbered_eq : ∃ reg, s.eventNumbered sev code = { s with reg := reg } := by
  unfold State.eventNumbered
  dsimp only
  split <;> exact ⟨_, rfl⟩

theorem eventNumbered_frame : Frame numberKeys [] s (s.eventNumbered sev code) := by
  have h := (Frame.refl numberKeys [] s).wr Reg.eventSeq ((s.rd Reg.eventSeq + 1) % 2 ^ 32) (by decide)
  exact Frame.ite (fun _ => (h.wr _ _ (by decide)).wr _ _ (by decide)) fun _ => h

theorem eventNumbered_seq : (s.eventNumbered sev code).rd Reg.eventSeq = (s.rd Reg.eventSeq + 1) % 2 ^ 32 := by
  have hwr := State.rd_wr_same s Reg.eventSeq ((s.rd Reg.eventSeq + 1) % 2 ^ 32)
  rw [show 256 ^ sizeAt Reg.eventSeq = 2 ^ 32 by decide, Nat.mod_mod] at hwr
  unfold State.eventNumbered
  dsimp only
  split
  · rw [State.rd_wr_ne _ _ (by decide), State.rd_wr_ne _ _ (by decide), hwr]
  · exact hwr

theorem eventNumbered_lastFault : (s.eventNumbered 2 code).rd Reg.lastFaultCode = fit Reg.lastFaultCode code ∧
    (s.eventNumbered 2 code).rd Reg.lastFaultStamp = fit Reg.lastFaultStamp s.stamp := by
  unfold State.eventNumbered
  rw [if_pos rfl]
  refine ⟨?_, State.rd_wr_same ..⟩
  rw [State.rd_wr_ne _ _ (by decide)]
  exact State.rd_wr_same ..

/-- Taking a number leaves what a record says of the state. -/
theorem eventNumbered_rec (seq) : (s.eventNumbered sev code).eventRec seq code obj detail a b = s.eventRec seq code obj detail a b := by
  have hframe := eventNumbered_frame s sev code
  obtain ⟨reg, hnum⟩ := eventNumbered_eq s sev code
  unfold State.eventRec
  rw [hframe.rd (by decide), hframe.rd (by decide), hnum]
  rfl

/-- An event outside cold read that is not written at once is numbered, queued and offered to the cascade. -/
theorem event_eq (hcold : s.coldRead = false) (hat : atOnceOf code (sevOf code detail) detail = false) :
    s.event code obj detail a b =
      ((s.eventNumbered (sevOf code detail) code).enqueue
        (s.eventRec ((s.rd Reg.eventSeq + 1) % 2 ^ 32) code obj detail a b)).sendEvent
        (s.eventRec ((s.rd Reg.eventSeq + 1) % 2 ^ 32) code obj detail a b) := by
  have hcold' : (s.eventNumbered (sevOf code detail) code).coldRead = false := by
    obtain ⟨reg, hnum⟩ := eventNumbered_eq s (sevOf code detail) code
    rw [hnum]
    exact hcold
  rw [← eventNumbered_rec s (sevOf code detail)]
  unfold State.event State.eventSev
  simp only [hcold, Bool.false_and, Bool.false_eq_true, if_false]
  exact (if_neg (ne_true_of_eq_false hcold')).trans (if_neg (ne_true_of_eq_false hat))

/-- Where fewer than 32 events wait for the cascade, offering one more to it changes nothing but what waits there. -/
theorem sendEvent_of_room {s : State} (r) (h : s.cas.evTx.length < 32) :
    ∃ l, s.sendEvent r = { s with cas := { s.cas with evTx := l } } := by
  unfold State.sendEvent
  dsimp only
  split
  · exact ⟨_, rfl⟩
  · exact ⟨s.cas.evTx ++ [r], by simp⟩

end

/-! ### A record that finds the queue full (R470) -/

/-- A drop is counted and flagged, and where the settings are not loaded counted as one of start (R159). -/
def State.dropCounted (s : State) : State :=
  let u := (s.bump Reg.logDrops).flag Reg.evFlags 0
  if s.loaded then u else u.bump Reg.startLogDrops

theorem dropRecord_eq (s : State) :
    s.dropRecord = { s.dropCounted with log := { s.log with mark := true, owed := true } } := by
  have hlog : s.dropCounted.log = s.log := by
    unfold State.dropCounted
    dsimp only
    split <;> rfl
  rw [← hlog]
  rfl

theorem dropCounted_cas (s : State) : s.dropCounted.cas = s.cas := by
  unfold State.dropCounted
  dsimp only
  split <;> rfl

theorem dropRecord_cas (s : State) : s.dropRecord.cas = s.cas := by rw [dropRecord_eq, dropCounted_cas]

theorem dropCounted_rd (s : State) {k} (hk : k ≠ Reg.startLogDrops) :
    s.dropCounted.rd k = ((s.bump Reg.logDrops).flag Reg.evFlags 0).rd k := by
  unfold State.dropCounted
  dsimp only
  split
  · rfl
  · exact rd_bump_ne _ hk

theorem dropCounted_counts (s : State) : Counts Reg.logDrops s s.dropCounted :=
  (dropCounted_rd s (by decide)).trans ((rd_flag_ne _ 0 (by decide)).trans (rd_bump s Reg.logDrops))

theorem dropCounted_flags (s : State) : s.dropCounted.bitOf Reg.evFlags 0 = true :=
  (bitOf_of_rd 0 (dropCounted_rd s (by decide))).trans (bitOf_flag _ (by decide))

theorem dropCounted_countsStart {s : State} (h : s.loaded = false) : Counts Reg.startLogDrops s s.dropCounted := by
  have hkept : ((s.bump Reg.logDrops).flag Reg.evFlags 0).rd Reg.startLogDrops = s.rd Reg.startLogDrops := by
    rw [rd_flag_ne _ _ (by decide), rd_bump_ne _ (by decide)]
  unfold State.dropCounted Counts
  rw [h, ← hkept]
  exact rd_bump _ _

theorem dropCounted_eventSeq (s : State) : s.dropCounted.rd Reg.eventSeq = s.rd Reg.eventSeq :=
  (dropCounted_rd s (by decide)).trans ((rd_flag_ne _ 0 (by decide)).trans (rd_bump_ne s (by decide)))

/-- Settles O54: the event is numbered and queued (`event_eq`), and `dropRecord` answers where the queue is full. -/
theorem eventsAreNumberedAndQueued : Obligations.EventsAreNumberedAndQueued := by
  refine ⟨fun s code obj detail a b hcold hat htakes hroom => ?_, fun s code obj detail a b hcold hat hfull hroom => ?_⟩
  all_goals
    have hframe := eventNumbered_frame s (sevOf code detail) code
    have hseq := eventNumbered_seq s (sevOf code detail) code
    obtain ⟨reg, hnum⟩ := eventNumbered_eq s (sevOf code detail) code
    refine ⟨_, rfl, ?_⟩
    rw [event_eq s code obj detail a b hcold hat]
  · have hq : (s.eventNumbered (sevOf code detail) code).enqueue (s.eventRec ((s.rd Reg.eventSeq + 1) % 2 ^ 32) code obj detail a b) =
        { s.eventNumbered (sevOf code detail) code with
          log := { s.log with queue := s.log.queue ++ [{ s.eventRec ((s.rd Reg.eventSeq + 1) % 2 ^ 32) code obj detail a b with dropped := s.log.mark }], mark := false } } := by
      rw [hnum]
      exact if_pos htakes
    obtain ⟨l, hsend⟩ := sendEvent_of_room (s := (s.eventNumbered (sevOf code detail) code).enqueue (s.eventRec ((s.rd Reg.eventSeq + 1) % 2 ^ 32) code obj detail a b))
      (s.eventRec ((s.rd Reg.eventSeq + 1) % 2 ^ 32) code obj detail a b) (by rw [hq, hnum]; exact hroom)
    rw [hsend, hq]
    refine ⟨hseq, ⟨_, rfl, rfl, rfl, hseq.symm, rfl, rfl, rfl, rfl, rfl, rfl, rfl, rfl, rfl⟩, fun hsev => ?_, rfl, rfl, ?_⟩
    · rw [hsev]
      exact eventNumbered_lastFault s code
    · rw [hnum] at hframe ⊢
      exact hframe.of_eq rfl rfl ⟨fun _ => rfl, rfl, rfl, rfl, rfl, rfl, .of_eq rfl⟩
  · have hq : (s.eventNumbered (sevOf code detail) code).enqueue (s.eventRec ((s.rd Reg.eventSeq + 1) % 2 ^ 32) code obj detail a b) =
        (s.eventNumbered (sevOf code detail) code).dropRecord := by
      rw [hnum]
      exact if_neg (ne_true_of_eq_false hfull)
    have hlog := logOnly_dropRecord (.refl (s.eventNumbered (sevOf code detail) code))
    obtain ⟨l, hsend⟩ := sendEvent_of_room (s := (s.eventNumbered (sevOf code detail) code).dropRecord)
      (s.eventRec ((s.rd Reg.eventSeq + 1) % 2 ^ 32) code obj detail a b) (by
        rw [dropRecord_cas, hnum]
        exact hroom)
    have hframe' := (hlog.frame (fun _ h => h) (hframe.mono (by decide) fun _ h => h)).cas { (s.eventNumbered (sevOf code detail) code).dropRecord.cas with evTx := l }
    rw [hq, hsend]
    refine ⟨?_, ?_, ?_, ?_, ?_, ?_, fun hload => ?_, hframe'⟩
    all_goals rw [dropRecord_eq]
    · exact (dropCounted_eventSeq _).trans hseq
    · simp [hnum]
    · exact (dropCounted_counts _).trans (by rw [hframe.rd (by decide)])
    · exact dropCounted_flags _
    · exact (dropCounted_countsStart (by rw [hnum]; exact hload)).trans (by rw [hframe.rd (by decide)])

end Sys2Proof.Machine
end

section
/-! PROOF. The acceptance of a pour trigger and SEQ_STATE, of POUR# and of a SHUTDOWN frame (spec/10_sequencer.md R262;
spec/14_pour_and_shakeout.md R347, R348; spec/17_cascade.md R445): as with FAULT# and rails, the statements leave SEQ_STATE out of
what an acceptance may change. -/
namespace Sys2Proof.Machine

/-- `onSlotsInGuard` with POUR# armed and low for its filter, and with a waiting SHUTDOWN frame of kind 1 and 512 bytes declared
dirty. -/
def pourInAndShutdownInGuard : State :=
  { onSlotsInGuard with
    cas.armed := true, runs := [(rcPourLow, 8)], ll.rxq := [{ ty := 0x14, payload := [1, 0, 0, 0] }]
    reg := onSlotsInGuard.reg ++ [(Reg.declaredDirty, 512)] }

/-- POUR# has been taken as low; the SHUTDOWN frame has been taken. -/
def pourInSeen : State :=
  ({ pourInAndShutdownInGuard with cas := { pourInAndShutdownInGuard.cas with armed := false } }.bump Reg.pourInCount).trigger 6
def shutdownSeen : State :=
  { pourInAndShutdownInGuard with ll := { pourInAndShutdownInGuard.ll with rxq := pourInAndShutdownInGuard.ll.rxq.erase { ty := 0x14, payload := [1, 0, 0, 0] } } }

/-- It is a sound state in which a trigger is accepted as it stands, SEQ_STATE is 1, both triggers are valid, and each one's acceptance
takes SEQ_STATE to 2. -/
theorem pourInAndShutdown_evaluates :
    (pourInAndShutdownInGuard.inv = true ∧ pourInAndShutdownInGuard.pourReady = true ∧ pourInAndShutdownInGuard.rd Reg.seqState = 1) ∧
    (pourInAndShutdownInGuard.rd Reg.pourInEn = 1 ∧ pourInAndShutdownInGuard.rd Reg.pourInFilter ≤ pourInAndShutdownInGuard.run rcPourLow ∧
      pourInSeen.rd Reg.seqState = 2) ∧
    pourInAndShutdownInGuard.dirtyNow ≠ 0 ∧ shutdownSeen.dirtyNow ≠ 0 ∧ (shutdownSeen.trigger 8).rd Reg.seqState = 2 := by
  decide +kernel

theorem exec_pourInTrigger {s : State} (htaken : s.taken = true) (hrun : s.sup.running = true) (harmed : s.cas.armed = true)
    (hstuck : s.cas.stuck = false) (hen : s.rd Reg.pourInEn = 1) (hlow : s.rd Reg.pourInFilter ≤ s.run rcPourLow) :
    exec .pourInTrigger s = .next (({ s with cas := { s.cas with armed := false } }.bump Reg.pourInCount).trigger 6) :=
  if_pos (by simp [htaken, hrun, harmed, hstuck, hen, hlow])

/-- A frame that asks for a shutdown while there are bytes to cast is trigger 8 and leaves the drain running (R347, R351). -/
theorem exec_shutdownRx {s u : State} {f : RxFrame} (htake : s.takeAny (fun g => g.ty = 0x14) = some (f, u))
    (hkind : f.payload.getD 0 0 = 1) (hphase : u.phase ≠ .pour) (hdirty : u.dirtyNow ≠ 0) :
    exec .shutdownRx s = .next (u.trigger 8) := by
  have hexec : exec .shutdownRx s = execShutdownRx s := rfl
  rw [hexec]
  unfold execShutdownRx
  rw [htake]
  exact (if_neg (not_not_intro hkind)).trans (by simp [hphase, hdirty, State.iff])

/-- What ends the on-slots there is no acceptance, where the statement's frame leaves SEQ_STATE alone. -/
theorem not_accepts_of_seqState {cause : Nat} {K : List Nat} {t : State} (hK : Reg.seqState ∉ pourKeys ++ K)
    (hends : t.rd Reg.seqState = 2) : ¬ Accepts cause K pourInAndShutdownInGuard t := by
  intro h
  have hkept := h.rd hK
  obtain ⟨⟨_, _, hseq⟩, _⟩ := pourInAndShutdown_evaluates
  rw [hends, hseq] at hkept
  exact absurd hkept (by decide)

theorem pourInTrigger_endsOnSlots : Does .pourInTrigger pourInAndShutdownInGuard fun t => t.rd Reg.seqState = 2 := by
  obtain ⟨_, ⟨hen, hlow, hends⟩, _⟩ := pourInAndShutdown_evaluates
  exact ⟨_, exec_pourInTrigger rfl rfl rfl rfl hen hlow, hends⟩

theorem shutdownRx_endsOnSlots : Does .shutdownRx pourInAndShutdownInGuard fun t => t.rd Reg.seqState = 2 := by
  obtain ⟨_, _, _, hdirty, hends⟩ := pourInAndShutdown_evaluates
  exact ⟨_, exec_shutdownRx (u := shutdownSeen) rfl rfl (by decide) hdirty, hends⟩

/-- Refutes O24: its clause on an accepted SHUTDOWN lets an acceptance in guard change `pourKeys` alone, in every state of guard.
SEQ_STATE is none of these, and an acceptance takes it from 1 or 3 to 2 (R262, `State.seqPour`), as in
`pourInAndShutdownInGuard`: start leaves it at 2 on its way to guard (R163), but no hypothesis of the clause asks for that. -/
theorem not_controlFramesOfTheSession : ¬ Obligations.ControlFramesOfTheSession := by
  rintro ⟨_, _, _, hshutdown, _⟩
  obtain ⟨⟨_, hready, _⟩, _, hdirty, _⟩ := pourInAndShutdown_evaluates
  have hdoes := hshutdown pourInAndShutdownInGuard _ _ rfl rfl hready hdirty
  obtain ⟨t, _, haccepts, hends⟩ := hdoes.and shutdownRx_endsOnSlots
  exact not_accepts_of_seqState (by decide) hends haccepts

/-- Refutes O34: its clause on POUR_IN_TRIGGER lets an acceptance in guard change `pourKeys` and POUR_IN_COUNT alone; in
`pourInAndShutdownInGuard` it takes SEQ_STATE from 1 to 2 (R262). That SEQ_STATE is 2 in guard is no hypothesis of the clause. -/
theorem not_poursAndBroadcastsComeOverTheCascade : ¬ Obligations.PoursAndBroadcastsComeOverTheCascade := by
  rintro ⟨_, _, hpourIn, _⟩
  obtain ⟨⟨_, hready, _⟩, ⟨hen, hlow, _⟩, _⟩ := pourInAndShutdown_evaluates
  have hdoes := hpourIn pourInAndShutdownInGuard hready rfl rfl hen hlow
  obtain ⟨t, _, ⟨_, _, haccepts⟩, hends⟩ := hdoes.and pourInTrigger_endsOnSlots
  exact not_accepts_of_seqState (by decide) hends haccepts

end Sys2Proof.Machine
end

section
/-! SUPPORT. A set bit of CAS_FLAGS stays set when an event is created: the event may set one more, and clears none
(spec/17_cascade.md R455; spec/18_events_and_faults.md R476). -/
namespace Sys2Proof.Machine

section
variable {s : State} {i : Nat}

theorem bitOf_wr_ne {k q : Nat} (v) (hk : q ≠ k) (h : s.bitOf q i = true) : (s.wr k v).bitOf q i = true :=
  (bitOf_of_rd i (State.rd_wr_ne s v hk)).trans h

theorem bitOf_flag_ne {k q : Nat} (j) (hk : q ≠ k) (h : s.bitOf q i = true) : (s.flag k j).bitOf q i = true :=
  (bitOf_of_rd i (rd_flag_ne s j hk)).trans h

theorem casFlag_log (l : Log) (h : s.bitOf Reg.casFlags i = true) : ({ s with log := l }).bitOf Reg.casFlags i = true := h

theorem casFlag_queuePos (r) (h : s.bitOf Reg.casFlags i = true) : (s.queuePos r).bitOf Reg.casFlags i = true := by
  unfold State.queuePos State.queueErase
  split
  · exact h
  · split <;> exact h

theorem casFlag_putRecord (r) (h : s.bitOf Reg.casFlags i = true) : (s.putRecord r).bitOf Reg.casFlags i = true := by
  unfold State.putRecord
  dsimp only
  split
  · exact casFlag_queuePos _ (bitOf_wr_ne _ (by decide) h)
  · exact bitOf_wr_ne _ (by decide) h

theorem casFlag_drain (l : List LogRec) : ∀ {s : State}, s.bitOf Reg.casFlags i = true → (s.drain l).bitOf Reg.casFlags i = true := by
  induction l with
  | nil => exact fun h => h
  | cons r l ih =>
    intro s h
    unfold State.drain
    split
    · exact ih (casFlag_putRecord r h)
    · exact h

theorem casFlag_enqueue (r) (h : s.bitOf Reg.casFlags i = true) : (s.enqueue r).bitOf Reg.casFlags i = true := by
  unfold State.enqueue
  split
  · exact h
  · rw [dropRecord_eq]
    exact (bitOf_of_rd i (dropCounted_rd s (by decide))).trans (bitOf_flag_ne 0 (by decide) (bitOf_wr_ne _ (by decide) h))

theorem casFlag_sendEvent (r) (hi : i < 8 * sizeAt Reg.casFlags) (h : s.bitOf Reg.casFlags i = true) :
    (s.sendEvent r).bitOf Reg.casFlags i = true := by
  have hdrop : ((s.bump Reg.eventTxDrops).flag Reg.casFlags 10).bitOf Reg.casFlags i = true :=
    bitOf_flag_of_bitOf 10 hi (bitOf_wr_ne _ (by decide) h)
  unfold State.sendEvent
  dsimp only
  split
  · exact h
  · split
    · exact h
    · split
      · exact casFlag_enqueue _ (bitOf_wr_ne _ (by decide) hdrop)
      · exact hdrop

theorem casFlag_payOwed (hi : i < 8 * sizeAt Reg.casFlags) (h : s.bitOf Reg.casFlags i = true) :
    s.payOwed.bitOf Reg.casFlags i = true := by
  unfold State.payOwed
  split
  · exact casFlag_sendEvent _ hi (casFlag_enqueue _ (bitOf_wr_ne (s := s) _ (by decide) h))
  · exact h

theorem casFlag_flushLog (hi : i < 8 * sizeAt Reg.casFlags) (h : s.bitOf Reg.casFlags i = true) :
    s.flushLog.bitOf Reg.casFlags i = true := casFlag_payOwed hi (casFlag_drain _ h)

/-- A set bit of CAS_FLAGS is set after an event. -/
theorem casFlag_event (code obj detail a b) (hi : i < 8 * sizeAt Reg.casFlags) (h : s.bitOf Reg.casFlags i = true) :
    (s.event code obj detail a b).bitOf Reg.casFlags i = true := by
  unfold State.event State.eventSev
  extract_lets seq u v r
  have hu : u.bitOf Reg.casFlags i = true := bitOf_wr_ne _ (by decide) h
  have hv : v.bitOf Reg.casFlags i = true := by
    show (if sevOf code detail = 2 then (u.wr Reg.lastFaultCode code).wr Reg.lastFaultStamp u.stamp else u).bitOf Reg.casFlags i = true
    split
    · exact bitOf_wr_ne _ (by decide) (bitOf_wr_ne _ (by decide) hu)
    · exact hu
  have hw : v.flushLog.bitOf Reg.casFlags i = true := casFlag_flushLog hi hv
  split
  · exact h
  · split
    · unfold State.coldRecord
      split <;> exact hv
    · split
      · split
        · exact casFlag_sendEvent _ hi (casFlag_log _ (casFlag_putRecord _ hw))
        · exact casFlag_sendEvent _ hi (casFlag_log _ (casFlag_enqueue _ hw))
      · exact casFlag_sendEvent _ hi (casFlag_enqueue _ hv)

end
end Sys2Proof.Machine
end

section
/-! PROOF. Frames queued for the CAN bus, frames abandoned, and the bus itself (spec/17_cascade.md R437, R443, R447, R450, R452;
spec/06_start_up.md R170). -/
namespace Sys2Proof.Machine

theorem queueCan_eq {s : State} (fn : Nat) (payload : List Nat) (h : s.canQueues = true) :
    s.queueCan fn payload =
      { s with cas := { s.cas with
                        txq := (if fn = 3 then s.cas.txq.filter (fun f => f.fn ≠ 3) else s.cas.txq)
                          ++ [{ fn := fn, payload := payload, at_ := s.tick }] } } := by
  unfold State.queueCan
  exact if_neg (by simp [h])

theorem exec_bootAnnouncement {s : State} (hq : s.canQueues = true) (hnot : s.cas.announced = false) :
    exec .bootAnnouncement s = .next { s.queueCan 1 [] with cas := { (s.queueCan 1 []).cas with announced := true } } :=
  if_pos (by simp [hq, hnot])

theorem exec_heartbeatTx {s : State} (hq : s.canQueues = true) (htic : s.clk.tic = 0)
    (hdue : dueCycle s.clk.cyc (cyclesOf (s.rd Reg.hbPeriod)) ((s.node - 1) * cyclesOf (s.rd Reg.hbPeriod) / 64) = true) :
    exec .heartbeatTx s = .next (s.queueCan 3 []) := if_pos (by simp [hq, htic, hdue])

theorem exec_stampSyncTx {s : State} (hq : s.canQueues = true) (hmaster : s.master = true) (htic : s.clk.tic = 0)
    (hdue : dueCycle s.clk.cyc (cyclesOf (s.rd Reg.hbPeriod)) (cyclesOf (s.rd Reg.hbPeriod) / 2) = true) :
    exec .stampSyncTx s = .next (s.queueCan 7 (leBytes 6 s.stamp ++ [s.rd Reg.tbState] ++ List.replicate 9 0)) :=
  if_pos (by simp [hq, hmaster, htic, hdue])

/-! ### The bus (R447) -/

/-- CAN_BUS_STATE as the bus stands. -/
def State.busNow (s : State) : Nat := if s.cas.dominant then 3 else if s.cas.busOff then 2 else if s.smp.canPassive then 1 else 0

theorem refreshBus_state (s : State) : s.refreshBus.rd Reg.canBusState = s.busNow := by
  have hfit : s.busNow < 256 ^ sizeAt Reg.canBusState := by
    unfold State.busNow
    split
    · decide
    · split
      · decide
      · split <;> decide
  exact (State.rd_wr_same ..).trans (Nat.mod_eq_of_lt hfit)

theorem refreshBus_rd (s : State) {k} (hk : k ≠ Reg.canBusState) : s.refreshBus.rd k = s.rd k := State.rd_wr_ne s _ hk

theorem LogOnly.bus {s t} (h : LogOnly s t) :
    t.cas.dominant = s.cas.dominant ∧ t.cas.dominantSince = s.cas.dominantSince ∧ t.cas.busOff = s.cas.busOff := by
  obtain ⟨_, _, _, _, _, rfl, _⟩ := h
  exact ⟨rfl, rfl, rfl⟩

/-- The bus has changed: CAN_BUS_STATE follows, a counter and a flag of CAS_FLAGS show it. -/
def State.busCounted (s : State) (k i : Nat) : State := (s.refreshBus.bump k).flag Reg.casFlags i

/-- What a counted change of the bus and its event leave. -/
theorem busCounted_event {s u : State} {k i code : Nat} (hu : u.reg = s.reg) (hk : k ∉ Reg.canBusState :: eventKeys)
    (hi : i < 8 * sizeAt Reg.casFlags) (hframe : Frame [] [] s u) :
    ((u.busCounted k i).event code 0xFF 1).rd Reg.canBusState = u.busNow ∧ Counts k s ((u.busCounted k i).event code 0xFF 1) ∧
    ((u.busCounted k i).event code 0xFF 1).bitOf Reg.casFlags i = true ∧ Creates code s ((u.busCounted k i).event code 0xFF 1) ∧
    Frame (eventKeys ++ [Reg.canBusState, k]) [] s ((u.busCounted k i).event code 0xFF 1) := by
  obtain ⟨hne, hevent⟩ : k ≠ Reg.canBusState ∧ k ∉ eventKeys := by simpa using hk
  have hrd : ∀ q, u.rd q = s.rd q := fun q => by rw [State.rd, hu, State.rd]
  refine ⟨?_, ?_, ?_, ⟨_, _, _, _, _, rfl, ?_⟩, ?_⟩
  · rw [State.rd_event _ _ _ _ _ _ (by decide), State.busCounted, rd_flag_ne _ _ (by decide), rd_bump_ne _ hne.symm, refreshBus_state]
  · have hflags : k ≠ Reg.casFlags := fun e => hevent (e ▸ by decide)
    unfold Counts
    rw [State.rd_event _ _ _ _ _ _ hevent, State.busCounted, rd_flag_ne _ _ hflags, rd_bump, refreshBus_rd _ hne, hrd]
  · exact casFlag_event _ _ _ _ _ hi (bitOf_flag _ hi)
  · have hseq : Reg.eventSeq ≠ k := fun e => hevent (e ▸ by decide)
    rw [State.busCounted, rd_flag_ne _ _ (by decide), rd_bump_ne _ hseq, refreshBus_rd _ (by decide), hrd]
  · have hbus : Frame (eventKeys ++ [Reg.canBusState, k]) [] s u.refreshBus :=
      (hframe.mono (List.nil_subset _) fun _ h => h).wr _ _ (by simp)
    exact ((hbus.bump k (by simp)).flag Reg.casFlags i (by simp; exact .inl (by decide))).event _ _ _ _ _ (List.subset_append_left ..)

/-- What the bus's return and its event leave. -/
theorem refreshBus_event {s u : State} {code : Nat} (hu : u.reg = s.reg) (hframe : Frame [] [] s u) :
    (u.refreshBus.event code 0xFF 0).rd Reg.canBusState = u.busNow ∧ Creates code s (u.refreshBus.event code 0xFF 0) ∧
    Frame (eventKeys ++ [Reg.canBusState]) [] s (u.refreshBus.event code 0xFF 0) := by
  refine ⟨?_, ⟨_, _, _, _, _, rfl, ?_⟩, ?_⟩
  · rw [State.rd_event _ _ _ _ _ _ (by decide), refreshBus_state]
  · rw [refreshBus_rd _ (by decide), State.rd, hu, State.rd]
  · exact ((hframe.mono (List.nil_subset _) fun _ h => h).wr Reg.canBusState _ (by simp)).event _ _ _ _ _
      (List.subset_append_left ..)

theorem exec_busDominant {s : State} (hon : s.canOn = true) (hnot : s.cas.dominant = false) :
    exec .busDominant s = .next
      (({ s with cas := { s.cas with dominant := true, dominantSince := true } }.busCounted Reg.canDominantEpisodes 3).event 0x5005 0xFF 1) :=
  if_pos (by simp [hon, hnot])

theorem exec_busOff {s : State} (hon : s.canOn = true) (hnot : s.cas.busOff = false) :
    exec .busOff s = .next (({ s with cas := { s.cas with busOff := true } }.busCounted Reg.busOffCount 4).event 0x5007 0xFF 1) :=
  if_pos (by simp [hon, hnot])

/-- Settles O32: a frame queued is `queueCan_eq`, a change of the bus `busCounted_event` or `refreshBus_event`. -/
theorem canFramesAndTheBus : Obligations.CanFramesAndTheBus := by
  refine ⟨fun s hq hnot => ?announce, fun s hq htic hdue => ?heartbeat, fun s hq hmaster htic hdue => ?sync, fun s => ⟨_, rfl, rfl⟩,
    fun s => ⟨_, rfl, rfl⟩, fun s hon hnot => ?dominant, fun s hwas => ?dominantEnd, fun s hon hnot => ?off, fun s hoff => ?recovery⟩
  case announce => exact ⟨_, exec_bootAnnouncement hq hnot, by rw [queueCan_eq _ _ hq]; rfl⟩
  case heartbeat => exact ⟨_, exec_heartbeatTx hq htic hdue, by rw [queueCan_eq _ _ hq]; rfl⟩
  case sync => exact ⟨_, exec_stampSyncTx hq hmaster htic hdue, by rw [queueCan_eq _ _ hq]; rfl⟩
  case dominant =>
    obtain ⟨hbus, hcount, hflag, hevent, hframe⟩ := busCounted_event (k := Reg.canDominantEpisodes) (i := 3) (code := 0x5005)
      (u := { s with cas := { s.cas with dominant := true, dominantSince := true } }) rfl (by decide) (by decide) ((Frame.refl ..).cas _)
    obtain ⟨hdom, hsince, _⟩ := (logOnly_event ({ s with cas := { s.cas with dominant := true, dominantSince := true } }.busCounted
      Reg.canDominantEpisodes 3) 0x5005 0xFF 1 0 0).bus
    exact ⟨_, exec_busDominant hon hnot, hdom, hsince, hbus, hcount, hflag, hevent, hframe⟩
  case dominantEnd =>
    obtain ⟨hbus, hevent, hframe⟩ := refreshBus_event (code := 0x5005) (u := { s with cas := { s.cas with dominant := false } }) rfl
      ((Frame.refl ..).cas _)
    obtain ⟨hdom, _⟩ := (logOnly_event { s with cas := { s.cas with dominant := false } }.refreshBus 0x5005 0xFF 0 0 0).bus
    exact ⟨_, if_pos hwas, hdom, hbus, hevent, hframe⟩
  case off =>
    obtain ⟨hbus, hcount, hflag, hevent, hframe⟩ := busCounted_event (k := Reg.busOffCount) (i := 4) (code := 0x5007)
      (u := { s with cas := { s.cas with busOff := true } }) rfl (by decide) (by decide) ((Frame.refl ..).cas _)
    obtain ⟨_, _, hoff⟩ := (logOnly_event ({ s with cas := { s.cas with busOff := true } }.busCounted
      Reg.busOffCount 4) 0x5007 0xFF 1 0 0).bus
    exact ⟨_, exec_busOff hon hnot, hoff, hbus, hcount, hflag, hevent, hframe⟩
  case recovery =>
    obtain ⟨hbus, hevent, hframe⟩ := refreshBus_event (code := 0x5007) (u := { s with cas := { s.cas with busOff := false } }) rfl
      ((Frame.refl ..).cas _)
    obtain ⟨_, _, hoff'⟩ := (logOnly_event { s with cas := { s.cas with busOff := false } }.refreshBus 0x5007 0xFF 0 0 0).bus
    exact ⟨_, if_pos hoff, hoff', hbus, hevent, hframe⟩

end Sys2Proof.Machine
end

section
/-! PROOF. Firmware distribution (spec/17_cascade.md R461, R462). -/
namespace Sys2Proof.Machine

/-- A value that a register has room for reads back. -/
theorem rd_wr_of_lt (s : State) {k v : Nat} (h : v < 256 ^ sizeAt k) : (s.wr k v).rd k = v :=
  (State.rd_wr_same ..).trans (Nat.mod_eq_of_lt h)

theorem fwDistResult_ne (k : Nat) : Reg.fwDistResult k ≠ Reg.fwDist ∧ Reg.fwDistResult k ≠ Reg.fwDistNode := by
  simp only [Reg.fwDistResult, Reg.fwDist, Reg.fwDistNode, rkey]
  omega

theorem sizeAt_fwDistResult : ∀ k, k < 64 → sizeAt (Reg.fwDistResult k) = 1 := by decide

/-- A member has its result and the distribution has ended. -/
def State.distOver (s : State) (k result reading : Nat) : State :=
  { ((s.wr (Reg.fwDistResult k) result).wr Reg.fwDist reading).wr Reg.fwDistNode 0 with cas := { s.cas with dist := none } }

theorem distOver_spec (s : State) {k result reading : Nat} (hk : k < 64) (hresult : result < 256) (hreading : reading < 256) :
    (s.distOver k result reading).cas.dist = none ∧ (s.distOver k result reading).rd Reg.fwDist = reading ∧
    (s.distOver k result reading).rd Reg.fwDistNode = 0 ∧ (s.distOver k result reading).rd (Reg.fwDistResult k) = result ∧
    Frame [Reg.fwDist, Reg.fwDistNode, Reg.fwDistResult k] [] s (s.distOver k result reading) := by
  obtain ⟨hdist, hnode⟩ := fwDistResult_ne k
  have hrd : ∀ q, (s.distOver k result reading).rd q =
      (((s.wr (Reg.fwDistResult k) result).wr Reg.fwDist reading).wr Reg.fwDistNode 0).rd q := fun q => by
    unfold State.distOver State.rd
    rfl
  refine ⟨rfl, ?_, ?_, ?_, ?_⟩
  · rw [hrd, State.rd_wr_ne _ _ (by decide), rd_wr_of_lt]
    exact hreading.trans_eq (by decide)
  · rw [hrd, rd_wr_of_lt _ (by decide)]
  · rw [hrd, State.rd_wr_ne _ _ hnode, State.rd_wr_ne _ _ hdist, rd_wr_of_lt]
    exact hresult.trans_eq (by simp [sizeAt_fwDistResult k hk])
  · exact ((((Frame.refl ..).wr _ _ (by simp)).wr _ _ (by simp)).wr _ _ (by simp)).cas _

theorem stopDist_eq {s : State} {d : Dist} (h : s.cas.dist = some d) (hnode : d.node ≠ 0) (result reading : Nat) :
    s.stopDist result reading = s.distOver ((d.node - 1) % 64) result reading := by
  unfold State.stopDist
  rw [h]
  dsimp only
  rw [if_neg hnode]
  rfl

/-- The last member's result ends the distribution as done. -/
theorem distResult_eq {s : State} {d : Dist} (htodo : d.todo = []) (result : Nat) :
    s.distResult d result = s.distOver ((d.node - 1) % 64) result 2 := by
  unfold State.distResult State.distNext
  dsimp only
  rw [htodo]
  rfl

theorem exec_fwDistStep {s : State} {d : Dist} (h : s.cas.dist = some d) (hnode : d.node ≠ 0) (a : BitVec 32) (b : List Byte) :
    exec (.fwDistStep a b) s = if d.step = 11 || a.toNat / 65536 = 0 then .next (s.distAnswer d (byteList b))
      else if a.toNat / 65536 = 0x0402 || a.toNat / 65536 = 0x0403 then .next (s.stopDist 8 4)
      else if d.step = 0 then .next (s.distResult d 4) else .next (s.distResult d 5) := by
  have hexec : exec (.fwDistStep a b) s = execFwDistStep a b s := rfl
  rw [hexec]
  unfold execFwDistStep
  rw [h]
  simp [hnode]

theorem exec_fwDistGuardTimeout {s : State} {d : Dist} (h : s.cas.dist = some d) (hstep : d.step = 11)
    (hlate : d.since + 4096 ≤ s.clk.cyc) : exec .fwDistGuardTimeout s = .next (s.stopDist 9 4) := by
  have hexec : exec .fwDistGuardTimeout s = execFwDistGuardTimeout s := rfl
  rw [hexec]
  unfold execFwDistGuardTimeout
  rw [h]
  exact if_pos (by simp [hstep, hlate])

/-- Settles O35: each end is a `distOver`, one step on is `distGo`. -/
theorem distributionStepsAndStops : Obligations.DistributionStepsAndStops := by
  refine ⟨fun s d a b h hnode hstep ha => ?_, fun s d a b h hnode hstep htodo ha hpour hrest => ?_,
    fun s d a b h hnode hstep ha => ?_, fun s d h hnode hstep hlate => ?_⟩
  · refine ⟨s.distGo d 1 0, ?_, rfl, (Frame.refl ..).cas _⟩
    rw [exec_fwDistStep h hnode, if_pos (by simp [ha])]
    unfold State.distAnswer
    rw [hstep]
    rfl
  · refine ⟨s.distOver ((d.node - 1) % 64) 4 2, ?_, distOver_spec s (Nat.mod_lt _ (by decide)) (by decide) (by decide)⟩
    rw [exec_fwDistStep h hnode, if_neg (by simp [ha, hstep]), if_neg (by simp [hpour, hrest]), if_pos hstep, distResult_eq htodo]
  · refine ⟨s.distOver ((d.node - 1) % 64) 8 4, ?_, distOver_spec s (Nat.mod_lt _ (by decide)) (by decide) (by decide)⟩
    have hne : a.toNat / 65536 ≠ 0 := by omega
    rw [exec_fwDistStep h hnode, if_neg (by simp [hne, hstep]), if_pos (by simpa using ha), stopDist_eq h hnode]
  · refine ⟨s.distOver ((d.node - 1) % 64) 9 4, ?_, distOver_spec s (Nat.mod_lt _ (by decide)) (by decide) (by decide)⟩
    rw [exec_fwDistGuardTimeout h hstep hlate, stopDist_eq h hnode]

end Sys2Proof.Machine
end

section
/-! SUPPORT. What dropping, retraining and disabling the link do: which registers follow, what is recorded of a drop
(spec/11_link_phy.md R274, R275, R291; spec/12_link_layer.md R316). -/
namespace Sys2Proof.Machine

/-- An update for each element keeps what each one's keeps. -/
theorem each_keeps {α : Type} {P : State → Prop} (l : List α) (f : α → State → State) (hf : ∀ a ∈ l, ∀ u, P u → P (f a u)) {s : State}
    (h : P s) : P (s.each l f) := by
  unfold State.each
  induction l generalizing s with
  | nil => exact h
  | cons a l ih => exact ih (fun b hb => hf b (.tail _ hb)) (hf a (.head _) s h)

/-! ### Training counts and sets -/

/-- What the counts of a training and its sets may touch: the receivers, what the partner has seen, the eye scans. -/
def TrainOnly (s t : State) : Prop :=
  ∃ lanes sent scans, t = { s with phy := { s.phy with lanes := lanes, bankSent := sent, scans := scans } }

theorem TrainOnly.refl (s) : TrainOnly s s := ⟨s.phy.lanes, s.phy.bankSent, s.phy.scans, rfl⟩

theorem TrainOnly.trans {s t u} (h1 : TrainOnly s t) (h2 : TrainOnly t u) : TrainOnly s u := by
  obtain ⟨_, _, _, rfl⟩ := h1
  obtain ⟨l, b, e, rfl⟩ := h2
  exact ⟨l, b, e, rfl⟩

theorem TrainOnly.each {s t} {α : Type} (l : List α) (f : α → State → State) (hf : ∀ a u, TrainOnly u (f a u)) (h : TrainOnly s t) :
    TrainOnly s (t.each l f) := each_keeps (P := TrainOnly s) l f (fun a _ u hu => hu.trans (hf a u)) h

theorem TrainOnly.rd {s t} (h : TrainOnly s t) (k) : t.rd k = s.rd k := by
  obtain ⟨_, _, _, rfl⟩ := h
  rfl

theorem TrainOnly.frame {s t u K H} (h : TrainOnly t u) (hf : Frame K H s t) : Frame K H s u := by
  obtain ⟨_, _, _, rfl⟩ := h
  exact hf.phy _

theorem trainOnly_setLane (s : State) (p l) : TrainOnly s (s.setLane p l) := ⟨_, s.phy.bankSent, s.phy.scans, rfl⟩

theorem trainOnly_clearSets (s : State) : TrainOnly s s.clearSets := .each _ _ (fun p u => trainOnly_setLane u p _) (.refl s)

theorem trainOnly_sendSets (s : State) (p n : Nat) : TrainOnly s (s.sendSets p n) := by
  unfold State.sendSets
  split
  · exact .refl s
  · exact (trainOnly_setLane s p _).trans ⟨_, _, _, rfl⟩

theorem trainOnly_beginSets (s : State) : TrainOnly s s.beginSets := .each _ _ (fun p u => trainOnly_sendSets u p 1) (.refl s)

/-- Repeating the running steps touches the scans alone. -/
theorem repeatScans_eq (s : State) : ∃ scans, s.repeatScans = { s with phy := { s.phy with scans := scans } } := by
  refine each_keeps (P := fun u => ∃ scans, u = { s with phy := { s.phy with scans := scans } }) allLanes _ (fun p _ u hu => ?_)
    ⟨s.phy.scans, rfl⟩
  obtain ⟨scans, rfl⟩ := hu
  dsimp only
  split
  · exact ⟨_, rfl⟩
  · exact ⟨scans, rfl⟩

theorem trainOnly_repeatScans (s : State) : TrainOnly s s.repeatScans := by
  obtain ⟨scans, h⟩ := repeatScans_eq s
  exact ⟨s.phy.lanes, s.phy.bankSent, scans, h⟩

/-- What a receiver has found stays: its lock, its number, its inversion. -/
def FoundKept (s t : State) : Prop :=
  ∀ p, (t.lane p).locked = (s.lane p).locked ∧ (t.lane p).num = (s.lane p).num ∧ (t.lane p).inverted = (s.lane p).inverted

theorem FoundKept.refl (s) : FoundKept s s := fun _ => ⟨rfl, rfl, rfl⟩

theorem FoundKept.trans {s t u} (h1 : FoundKept s t) (h2 : FoundKept t u) : FoundKept s u := fun p =>
  ⟨(h2 p).1.trans (h1 p).1, (h2 p).2.1.trans (h1 p).2.1, (h2 p).2.2.trans (h1 p).2.2⟩

theorem lane_setLane (s : State) (p l q) : (s.setLane p l).lane q = if q = p then l else s.lane q := tget_tset ..

theorem foundKept_setLane (s : State) (p : Nat) (l : LaneRx) (hlock : l.locked = (s.lane p).locked) (hnum : l.num = (s.lane p).num)
    (hinv : l.inverted = (s.lane p).inverted) : FoundKept s (s.setLane p l) := by
  intro q
  rw [lane_setLane]
  split
  · next e => exact e ▸ ⟨hlock, hnum, hinv⟩
  · exact ⟨rfl, rfl, rfl⟩

theorem foundKept_clearSets (s : State) : FoundKept s s.clearSets :=
  each_keeps (P := FoundKept s) allLanes _ (fun p _ u hu => hu.trans (foundKept_setLane u p
    { u.lane p with acked := 0, ackSeen := false, sinceAck := 0, ts2 := 0, gotTs2 := 0, sinceTs2 := 0 } rfl rfl rfl)) (.refl s)

theorem foundKept_sendSets (s : State) (p n : Nat) : FoundKept s (s.sendSets p n) := by
  unfold State.sendSets
  split
  · exact .refl s
  · exact foundKept_setLane s p _ rfl rfl rfl

theorem foundKept_beginSets (s : State) : FoundKept s s.beginSets :=
  each_keeps (P := FoundKept s) _ _ (fun p _ u hu => hu.trans (foundKept_sendSets u p 1)) (.refl s)

/-! ### The end of a session and a drop -/

theorem mem_map_streams (f : Nat → Nat) {st : Nat} (h : st ∈ allStreams) : f st ∈ allStreams.map f := List.mem_map_of_mem h

/-- The registers that the end of a session may change. -/
def sessionEndKeys : List Nat :=
  eventKeys ++ [Reg.llFlags, Reg.retryBytes, Reg.llState, Reg.shakeState] ++ allStreams.map Reg.limit

theorem shakePauseOnEnd_frame {K H s t} (h : Frame K H s t) (hk : Reg.shakeState ∈ K) : Frame K H s t.shakePauseOnEnd := by
  unfold State.shakePauseOnEnd
  exact .ite (fun _ => h.wr _ _ hk) fun _ => h

/-- Frames that are still unacknowledged when a session ends are flagged and logged. -/
def State.retryLost (s : State) : State :=
  if s.ll.retry.isEmpty then s else (s.flag Reg.llFlags 2).event 0x3102 0xFF 0 (s.rd Reg.retryBytes)

/-- What of the session ends in the link layer, with the link's open transfer. -/
def State.sessionDropped (s : State) : State :=
  let src := tget {} s.svc.srcs 0
  { s with
    ll := { s.ll with
      waiting := [], retry := [], nakSent := false, uncovered := 0, replaying := false, acksDue := [], resent := [],
      rxq := s.ll.rxq.filter (fun f => f.ty ≠ 1 && f.ty ≠ 2), lapsed := s.keptCredit,
      commitDue := false, gapRuns := false, lostXfer := s.ll.lostXfer || src.xfer.isSome }
    svc := { s.svc with srcs := tset {} s.svc.srcs 0 { src with xfer := none } } }

/-- Every limit lapses to what has come. -/
def State.limitsLapsed (s : State) : State := s.each allStreams (fun st s => s.wr (Reg.limit st) (s.rd (Reg.rxunits st)))

theorem sessionEnd_eq {s : State} (h : s.rd Reg.llState ≠ 0) :
    s.sessionEnd = ((s.retryLost.sessionDropped.limitsLapsed.wr Reg.retryBytes 0).wr Reg.llState 0).shakePauseOnEnd := if_neg h

theorem retryLost_frame (s : State) : Frame (Reg.llFlags :: eventKeys) [] s s.retryLost :=
  .ite (fun _ => .refl ..) fun _ => ((Frame.refl ..).flag _ _ (by decide)).event _ _ _ _ _ fun _ h => .tail _ h

theorem retryLost_phy (s : State) : s.retryLost.phy = s.phy := by
  unfold State.retryLost
  split
  · rfl
  · exact State.event_phy ..

theorem sessionDropped_frame {K H s t} (h : Frame K H s t) : Frame K H s t.sessionDropped := h.same rfl rfl rfl rfl rfl rfl

theorem limitsLapsed_frame (s : State) : Frame (allStreams.map Reg.limit) [] s s.limitsLapsed :=
  .each_mem _ _ (fun _ hst _ hu => hu.wr _ _ (mem_map_streams _ hst)) (.refl ..)

theorem limitsLapsed_phy (s : State) : s.limitsLapsed.phy = s.phy :=
  each_keeps (P := fun u => u.phy = s.phy) allStreams (fun st s => s.wr (Reg.limit st) (s.rd (Reg.rxunits st))) (fun _ _ _ hu => hu) rfl

theorem sessionEnd_frame (s : State) : Frame sessionEndKeys [] s s.sessionEnd := by
  by_cases h : s.rd Reg.llState = 0
  · rw [show s.sessionEnd = s from if_pos h]
    exact .refl ..
  · rw [sessionEnd_eq h]
    refine shakePauseOnEnd_frame (.wr _ _ (.wr _ _ ?_ (by decide)) (by decide)) (by decide)
    exact (sessionDropped_frame ((retryLost_frame s).mono (by decide) fun _ h => h)).trans
      ((limitsLapsed_frame _).mono (List.subset_append_right ..) fun _ h => h)

theorem sessionEnd_llState (s : State) : s.sessionEnd.rd Reg.llState = 0 := by
  by_cases h : s.rd Reg.llState = 0
  · rw [show s.sessionEnd = s from if_pos h, h]
  · rw [sessionEnd_eq h, (shakePauseOnEnd_frame (Frame.refl [Reg.shakeState] [] _) (by simp)).rd (by decide), rd_wr_of_lt _ (by decide)]

/-- The end of a session leaves the PHY as it is. -/
theorem sessionEnd_phy (s : State) : s.sessionEnd.phy = s.phy := by
  have hpause : ∀ u : State, u.shakePauseOnEnd.phy = u.phy := fun u => by
    unfold State.shakePauseOnEnd
    split <;> rfl
  by_cases h : s.rd Reg.llState = 0
  · rw [show s.sessionEnd = s from if_pos h]
  · rw [sessionEnd_eq h, hpause, State.wr_phy, State.wr_phy, limitsLapsed_phy]
    exact retryLost_phy s

/-- Dropping the link: the cause is recorded, or joins that of an earlier drop of the tick, or the link is disabled anyway. -/
def State.dropNoted (s : State) (cause : Nat) : State :=
  if s.dropped then s.wr Reg.linkDownCause (firstCause (s.rd Reg.linkDownCause) cause)
  else if s.rd Reg.linkState = Ls.disabled then s
  else
    ((({ s with phy := { s.phy with dropAt := some (s.tick, s.rd Reg.linkState = Ls.active) } }).wr Reg.linkDownCause cause).bump
      Reg.linkDowns).event 0x3002 0xFF cause

/-- The registers that say that the link is down. -/
def State.linkCleared (s : State) (next : Nat) : State :=
  (((((s.wr Reg.linkUp 0).wr Reg.linkState next).wr Reg.rateNow 0xFF).wr Reg.widthNow 0).wr Reg.txIdle 0).wr Reg.rxIdle 0

theorem linkDown_eq (s : State) (cause next : Nat) :
    s.linkDown cause next = ((s.dropNoted cause).sessionEnd.linkCleared next).repeatScans := rfl

theorem dropNoted_frame (s : State) (cause : Nat) :
    Frame (eventKeys ++ [Reg.linkDownCause, Reg.linkDowns]) [] s (s.dropNoted cause) := by
  unfold State.dropNoted
  refine .ite (fun _ => (Frame.refl ..).wr _ _ (by decide)) fun _ => .ite (fun _ => .refl ..) fun _ => ?_
  exact ((((Frame.refl ..).phy _).wr _ _ (by decide)).bump _ (by decide)).event _ _ _ _ _ (List.subset_append_left ..)

theorem linkCleared_frame {K H s t} (next : Nat) (h : Frame K H s t)
    (hK : [Reg.linkUp, Reg.linkState, Reg.rateNow, Reg.widthNow, Reg.txIdle, Reg.rxIdle] ⊆ K) :
    Frame K H s (t.linkCleared next) :=
  (((((h.wr _ _ (hK (by decide))).wr _ _ (hK (by decide))).wr _ _ (hK (by decide))).wr _ _ (hK (by decide))).wr _ _
    (hK (by decide))).wr _ _ (hK (by decide))

theorem linkDown_frame (s : State) (cause next : Nat) : Frame downKeys [] s (s.linkDown cause next) := by
  rw [linkDown_eq]
  refine (trainOnly_repeatScans _).frame (linkCleared_frame _ ?_ (by decide))
  exact ((dropNoted_frame s cause).mono (by decide) fun _ h => h).trans ((sessionEnd_frame _).mono (by decide) fun _ h => h)

/-- Of the PHY a drop changes when it was and the running scans, nothing else. -/
theorem linkDown_phy (s : State) (cause next : Nat) :
    ∃ at_ scans, (s.linkDown cause next).phy = { s.phy with dropAt := at_, scans := scans } := by
  have hnoted : ∃ at_, (s.dropNoted cause).phy = { s.phy with dropAt := at_ } := by
    unfold State.dropNoted
    split
    · exact ⟨s.phy.dropAt, rfl⟩
    · split
      · exact ⟨s.phy.dropAt, rfl⟩
      · exact ⟨_, State.event_phy ..⟩
  obtain ⟨at_, hnoted⟩ := hnoted
  have hphy := (sessionEnd_phy (s.dropNoted cause)).trans hnoted
  obtain ⟨scans, hscans⟩ := repeatScans_eq ((s.dropNoted cause).sessionEnd.linkCleared next)
  refine ⟨at_, scans, ?_⟩
  rw [linkDown_eq, hscans]
  show { (s.dropNoted cause).sessionEnd.phy with scans := scans } = _
  rw [hphy]

theorem linkCleared_drops (s : State) {next : Nat} (hnext : next < 256) (hll : s.rd Reg.llState = 0) :
    (s.linkCleared next).rd Reg.linkState = next ∧ (s.linkCleared next).rd Reg.linkUp = 0 ∧ (s.linkCleared next).rd Reg.llState = 0 ∧
    (s.linkCleared next).rd Reg.rateNow = 0xFF ∧ (s.linkCleared next).rd Reg.widthNow = 0 ∧
    (s.linkCleared next).rd Reg.txIdle = 0 ∧ (s.linkCleared next).rd Reg.rxIdle = 0 := by
  unfold State.linkCleared
  refine ⟨?_, ?_, ?_, ?_, ?_, ?_, ?_⟩
  · rw [State.rd_wr_ne _ _ (by decide), State.rd_wr_ne _ _ (by decide), State.rd_wr_ne _ _ (by decide), State.rd_wr_ne _ _ (by decide),
      rd_wr_of_lt]
    exact hnext.trans_eq (by decide)
  all_goals simp (decide := true) [State.rd_wr, hll]

/-- A drop in a tick without an earlier one, of a link that is not disabled. -/
theorem linkDown_drops {s : State} {cause next : Nat} (hdrop : s.dropped = false) (hon : s.rd Reg.linkState ≠ Ls.disabled)
    (hcause : cause < 256) (hnext : next < 256) : LinkDrops cause next s (s.linkDown cause next) := by
  have hnoted : s.dropNoted cause = ((({ s with phy := { s.phy with dropAt := some (s.tick, s.rd Reg.linkState = Ls.active) } }).wr
      Reg.linkDownCause cause).bump Reg.linkDowns).event 0x3002 0xFF cause :=
    (if_neg (ne_true_of_eq_false hdrop)).trans (if_neg hon)
  have hkept : ∀ k ∈ [Reg.linkDownCause, Reg.linkDowns], (s.linkDown cause next).rd k = (s.dropNoted cause).rd k := by
    intro k hk
    rw [linkDown_eq, (trainOnly_repeatScans _).rd]
    have hcleared := linkCleared_frame next (Frame.refl [Reg.linkUp, Reg.linkState, Reg.rateNow, Reg.widthNow, Reg.txIdle, Reg.rxIdle] []
      (s.dropNoted cause).sessionEnd) fun _ h => h
    rw [hcleared.rd (by revert k; decide), (sessionEnd_frame _).rd (by revert k; decide)]
  have hstate := linkCleared_drops (s.dropNoted cause).sessionEnd hnext (sessionEnd_llState _)
  have hrd := (trainOnly_repeatScans ((s.dropNoted cause).sessionEnd.linkCleared next)).rd
  simp only [← hrd, ← linkDown_eq] at hstate
  obtain ⟨h1, h2, h3, h4, h5, h6, h7⟩ := hstate
  refine ⟨h1, h2, h3, h4, h5, h6, h7, ?_, ?_⟩
  · rw [hkept _ (by simp), hnoted, State.rd_event _ _ _ _ _ _ (by decide), rd_bump_ne _ (by decide), rd_wr_of_lt]
    exact hcause.trans_eq (by decide)
  · unfold Counts
    rw [hkept _ (by simp), hnoted, State.rd_event _ _ _ _ _ _ (by decide), rd_bump, State.rd_wr_ne _ _ (by decide)]
    rfl

end Sys2Proof.Machine
end

section
/-! SUPPORT. Fast retrains, full trainings and the disabling of the link (spec/11_link_phy.md R274, R275, R291, R294). -/
namespace Sys2Proof.Machine

/-- The registers that tell of a drop but LINK_STATE. -/
def dropKeys : List Nat :=
  [Reg.linkUp, Reg.llState, Reg.rateNow, Reg.widthNow, Reg.txIdle, Reg.rxIdle, Reg.linkDownCause, Reg.linkDowns]

/-- What follows a drop and leaves its registers alone leaves it a drop. -/
theorem LinkDrops.after {cause next K H} {s t u : State} (h : LinkDrops cause next s t) (hf : Frame K H t u)
    (hK : ∀ k ∈ dropKeys, k ∉ K) (hstate : u.rd Reg.linkState = next) : LinkDrops cause next s u := by
  obtain ⟨_, h2, h3, h4, h5, h6, h7, h8, h9⟩ := h
  have hrd : ∀ k ∈ dropKeys, u.rd k = t.rd k := fun k hk => hf.rd (hK k hk)
  exact ⟨hstate, (hrd _ (by decide)).trans h2, (hrd _ (by decide)).trans h3, (hrd _ (by decide)).trans h4, (hrd _ (by decide)).trans h5,
    (hrd _ (by decide)).trans h6, (hrd _ (by decide)).trans h7, (hrd _ (by decide)).trans h8, (hrd _ (by decide)).trans h9⟩

/-- A drop counts from any earlier state with the same count of drops. -/
theorem LinkDrops.since {cause next} {s t u : State} (h : LinkDrops cause next t u) (hrd : t.rd Reg.linkDowns = s.rd Reg.linkDowns) :
    LinkDrops cause next s u := by
  obtain ⟨h1, h2, h3, h4, h5, h6, h7, h8, h9⟩ := h
  exact ⟨h1, h2, h3, h4, h5, h6, h7, h8, by rw [Counts, ← hrd]; exact h9⟩

/-- A count since an earlier state. -/
theorem Counts.since {k} {s t u : State} (h : Counts k t u) (hrd : t.rd k = s.rd k) : Counts k s u := by rw [Counts, ← hrd]; exact h

theorem mem_lanes (p : Lane) : p.val ∈ allLanes := List.mem_range.mpr p.isLt

theorem mem_map_lanes (f : Nat → Nat) {p : Nat} (h : p ∈ allLanes) : f p ∈ allLanes.map f := List.mem_map_of_mem h

/-! ### A fast retrain -/

/-- The lanes of the width are up no more. -/
def State.lanesDown (s : State) : State := s.each allLanes (fun p s => s.clearBits (Reg.laneStatus p) 8)

theorem lanesDown_frame (s : State) : Frame (allLanes.map Reg.laneStatus) [] s s.lanesDown :=
  .each_mem _ _ (fun _ hp _ hu => hu.clearBits _ _ (mem_map_lanes _ hp)) (.refl ..)

theorem lanesDown_phy (s : State) : s.lanesDown.phy = s.phy :=
  each_keeps (P := fun u => u.phy = s.phy) allLanes (fun p s => s.clearBits (Reg.laneStatus p) 8) (fun _ _ _ hu => hu) rfl

/-- A bit that is cleared by its mask reads 0. -/
theorem bitOf_clearBits (s : State) (k i : Nat) : (s.clearBits k (2 ^ i)).bitOf k i = false := by
  have hrd : (s.clearBits k (2 ^ i)).rd k = (s.rd k ^^^ (s.rd k &&& 2 ^ i)) % 2 ^ (8 * sizeAt k) := by
    rw [Nat.pow_mul]
    exact State.rd_wr_same ..
  simp [State.bitOf, hrd, Nat.testBit_mod_two_pow, Nat.testBit_xor, Nat.testBit_and]

theorem laneStatus_inj {p q : Nat} (h : p ≠ q) : Reg.laneStatus p ≠ Reg.laneStatus q := by
  simp only [Reg.laneStatus, rkey]
  omega

theorem lanesDown_laneStatus (s : State) (p : Lane) : s.lanesDown.bitOf (Reg.laneStatus p) 3 = false := by
  obtain ⟨p, hp⟩ := p
  have hlist : allLanes = [0, 1, 2, 3] := rfl
  unfold State.lanesDown State.each
  rw [hlist]
  have hkeep : ∀ {u : State} {q : Nat}, p ≠ q → (u.clearBits (Reg.laneStatus q) 8).bitOf (Reg.laneStatus p) 3 = u.bitOf (Reg.laneStatus p) 3 :=
    fun h => bitOf_of_rd 3 (State.rd_wr_ne _ _ (laneStatus_inj h))
  have hclear : ∀ u : State, (u.clearBits (Reg.laneStatus p) 8).bitOf (Reg.laneStatus p) 3 = false := fun u => bitOf_clearBits u _ 3
  simp only [List.foldl]
  by_cases h3 : p = 3
  · subst h3
    exact hclear _
  · rw [hkeep h3]
    by_cases h2 : p = 2
    · subst h2
      exact hclear _
    · rw [hkeep h2]
      by_cases h1 : p = 1
      · subst h1
        exact hclear _
      · rw [hkeep h1]
        obtain rfl : p = 0 := by omega
        exact hclear _

/-- The training under way is a fast retrain. -/
def State.fastBegun (s : State) : State := { s with phy := { s.phy with fast := true, role := false, tapLogged := false } }

theorem fastBegun_lanes (s : State) : s.fastBegun.phy.lanes = s.phy.lanes := rfl

theorem fastRetrain_eq {s : State} (cause : Nat) (h : s.dropped = false) : s.fastRetrain cause =
    ((s.linkDown cause Ls.eq).bump Reg.fastRetrains).lanesDown.fastBegun.clearSets.beginSets := if_neg (ne_true_of_eq_false h)

/-- What a fast retrain of a link in use leaves. -/
structure FastRetrains (cause : Nat) (s t : State) : Prop where
  drops : LinkDrops cause Ls.eq s t
  counts : Counts Reg.fastRetrains s t
  fast : t.phy.fast = true
  lanes : ∀ q : Lane, t.bitOf (Reg.laneStatus q) 3 = false
  frame : Frame (downKeys ++ [Reg.fastRetrains] ++ allLanes.map Reg.laneStatus) [] s t
  found : FoundKept s t

theorem foundKept_of_phy {s t : State} (h : t.phy.lanes = s.phy.lanes) : FoundKept s t := fun p => by
  simp only [State.lane, h, and_self]

/-- A drop leaves what the receivers have found. -/
theorem foundKept_linkDown (s : State) (cause next : Nat) : FoundKept s (s.linkDown cause next) := by
  obtain ⟨_, _, h⟩ := linkDown_phy s cause next
  exact foundKept_of_phy (by rw [h])

theorem fastRetrain_spec {s : State} {cause : Nat} (hdrop : s.dropped = false) (hon : s.rd Reg.linkState ≠ Ls.disabled)
    (hcause : cause < 256) : FastRetrains cause s (s.fastRetrain cause) := by
  have hdown := linkDown_drops hdrop hon hcause (next := Ls.eq) (by decide)
  have hframe := linkDown_frame s cause Ls.eq
  have hlanes := lanesDown_frame ((s.linkDown cause Ls.eq).bump Reg.fastRetrains)
  rw [fastRetrain_eq cause hdrop]
  generalize hv : ((s.linkDown cause Ls.eq).bump Reg.fastRetrains).lanesDown = v at hlanes
  have hbump : Frame [Reg.fastRetrains] [] (s.linkDown cause Ls.eq) ((s.linkDown cause Ls.eq).bump Reg.fastRetrains) :=
    (Frame.refl ..).bump _ (by simp)
  have hv' : Frame (Reg.fastRetrains :: allLanes.map Reg.laneStatus) [] (s.linkDown cause Ls.eq) v :=
    (hbump.mono (by simp) fun _ h => h).trans (hlanes.mono (List.subset_cons_self ..) fun _ h => h)
  have htrain : TrainOnly v.fastBegun
      v.fastBegun.clearSets.beginSets :=
    (trainOnly_clearSets _).trans (trainOnly_beginSets _)
  have hrd : ∀ k, v.fastBegun.clearSets.beginSets.rd k = v.rd k :=
    fun k => (htrain.rd k).trans rfl
  have hall := htrain.frame (hv'.phy { v.phy with fast := true, role := false, tapLogged := false })
  refine ⟨hdown.after hall (by decide) ?_, ?_, ?_, fun q => ?_, ?_, ?_⟩
  · rw [hrd, hv'.rd (by decide), hdown.1]
  · unfold Counts
    rw [hrd, hlanes.rd (by decide), rd_bump, hframe.rd (by decide)]
  · obtain ⟨_, _, _, h⟩ := htrain
    rw [h]
    rfl
  · exact (bitOf_of_rd 3 (hrd _)).trans (hv ▸ lanesDown_laneStatus ((s.linkDown cause Ls.eq).bump Reg.fastRetrains) q)
  · exact (hframe.mono (List.subset_append_of_subset_left _ (List.subset_append_left ..)) fun _ h => h).trans
      (hall.mono (by decide) fun _ h => h)
  · have hphy : v.phy = (s.linkDown cause Ls.eq).phy := by
      rw [← hv, lanesDown_phy, State.bump_phy]
    have hbegun : FoundKept (s.linkDown cause Ls.eq) v.fastBegun := foundKept_of_phy (by rw [fastBegun_lanes, hphy])
    exact ((foundKept_linkDown s cause Ls.eq).trans hbegun).trans
      ((foundKept_clearSets _).trans (foundKept_beginSets _))

/-! ### The receivers start anew -/

/-- The registers of the lanes when the receivers start anew. -/
def lanesOffKeys : List Nat := allLanes.map Reg.laneLogical ++ allLanes.map Reg.laneStatus

/-- Before its lanes' registers, the PHY forgets its receivers and its partner. -/
def State.receiversOff (s : State) : State :=
  { s with phy := { s.phy with lanes := [], bnkOut := false, bnkIn := false, heard := false, reqRate := 255, reqWidth := 255 } }

/-- No lane has a place, and none is locked. -/
def State.lanesBlank (s : State) : State := s.each allLanes (fun p s => (s.wr (Reg.laneLogical p) 0xFF).wr (Reg.laneStatus p) 0)

theorem lanesOff_eq (s : State) : s.lanesOff = s.receiversOff.lanesBlank := rfl

theorem lanesBlank_frame (s : State) : Frame lanesOffKeys [] s s.lanesBlank :=
  .each_mem _ _ (fun _ hp _ hu => (hu.wr _ _ (List.mem_append_left _ (mem_map_lanes _ hp))).wr _ _
    (List.mem_append_right _ (mem_map_lanes _ hp))) (.refl ..)

theorem lanesBlank_phy (s : State) : s.lanesBlank.phy = s.phy :=
  each_keeps (P := fun u => u.phy = s.phy) allLanes (fun p s => (s.wr (Reg.laneLogical p) 0xFF).wr (Reg.laneStatus p) 0)
    (fun _ _ _ hu => hu) rfl

theorem lanesOff_frame {K H s t} (h : Frame K H s t) (hK : lanesOffKeys ⊆ K) : Frame K H s t.lanesOff := by
  rw [lanesOff_eq]
  exact (h.phy _).trans ((lanesBlank_frame _).mono hK (List.nil_subset _))

theorem lanesOff_phy (s : State) : s.lanesOff.phy = s.receiversOff.phy := lanesBlank_phy _

/-- What is written for each lane reads back for each, where no lane's registers are another's. -/
theorem lanesBlank_reads (s : State) : ∀ p : Lane, s.lanesBlank.rd (Reg.laneLogical p) = 0xFF ∧ s.lanesBlank.rd (Reg.laneStatus p) = 0 := by
  have h : s.lanesBlank = (((((((s.wr (Reg.laneLogical 0) 0xFF).wr (Reg.laneStatus 0) 0).wr (Reg.laneLogical 1) 0xFF).wr
    (Reg.laneStatus 1) 0).wr (Reg.laneLogical 2) 0xFF).wr (Reg.laneStatus 2) 0).wr (Reg.laneLogical 3) 0xFF).wr (Reg.laneStatus 3) 0 := rfl
  intro p
  rw [h]
  fin_cases p <;> simp (decide := true) [State.rd_wr]

theorem lanesOff_reads (s : State) (p : Lane) : s.lanesOff.rd (Reg.laneLogical p) = 0xFF ∧ s.lanesOff.rd (Reg.laneStatus p) = 0 :=
  lanesBlank_reads s.receiversOff p

/-! ### A full training -/

theorem profileEq_frame {K H s t} (p : Nat) (h : Frame K H s t) (hctle : Reg.ctleNow p ∈ K) (htaps : Reg.dfeTaps p ∈ K) :
    Frame K H s (t.profileEq p) := by
  unfold State.profileEq
  exact (h.wr _ _ hctle).wr _ _ htaps

/-- The registers of the receivers' equalisers. -/
def eqKeys : List Nat := allLanes.map Reg.ctleNow ++ allLanes.map Reg.dfeTaps

/-- Every receiver takes its profile. -/
def State.profilesTaken (s : State) : State := s.each allLanes (fun p s => s.profileEq p)

theorem profilesTaken_frame (s : State) : Frame eqKeys [] s s.profilesTaken :=
  .each_mem _ _ (fun p hp _ hu => profileEq_frame p hu (List.mem_append_left _ (mem_map_lanes _ hp))
    (List.mem_append_right _ (mem_map_lanes _ hp))) (.refl ..)

theorem profilesTaken_phy (s : State) : s.profilesTaken.phy = s.phy :=
  each_keeps (P := fun u => u.phy = s.phy) allLanes (fun p s => s.profileEq p) (fun _ _ _ hu => hu) rfl

/-- DETECT with the receivers anew and the PHY at its lowest rate. -/
def State.detectSet (s : State) : State :=
  let u := (s.wr Reg.linkState Ls.detect).lanesOff
  { u with phy := { u.phy with fast := false, role := false, tapLogged := false, rate := 0, width := 0 } }

theorem enterDetect_eq (s : State) :
    s.enterDetect = ((s.detectSet.wr Reg.rxReversed 0).wr Reg.txReversed 0).profilesTaken.beginSets := rfl

theorem detectSet_rd (s : State) (k) : s.detectSet.rd k = (s.wr Reg.linkState Ls.detect).lanesOff.rd k := by
  unfold State.detectSet State.rd
  rfl

theorem detectSet_frame (s : State) : Frame (Reg.linkState :: lanesOffKeys) [] s s.detectSet :=
  (lanesOff_frame ((Frame.refl ..).wr Reg.linkState Ls.detect (by simp)) (List.subset_cons_self ..)).phy _

theorem enterDetect_frame (s : State) : Frame detectKeys [] s s.enterDetect := by
  rw [enterDetect_eq]
  refine (trainOnly_beginSets _).frame ?_
  have h := (((detectSet_frame s).mono (K' := detectKeys) (by decide) fun _ h => h).wr Reg.rxReversed 0 (by decide)).wr Reg.txReversed 0 (by decide)
  exact h.trans ((profilesTaken_frame _).mono (by decide) fun _ h => h)

theorem detectSet_phy (s : State) : s.detectSet.phy = { (s.wr Reg.linkState Ls.detect).receiversOff.phy with
    fast := false, role := false, tapLogged := false, rate := 0, width := 0 } := by
  unfold State.detectSet
  dsimp only
  rw [lanesOff_phy]

/-- REFCLK's state is no part of a training. -/
theorem enterDetect_refBad (s : State) : s.enterDetect.phy.refBad = s.phy.refBad := by
  have hprofiles : ((s.detectSet.wr Reg.rxReversed 0).wr Reg.txReversed 0).profilesTaken.phy = s.detectSet.phy := profilesTaken_phy _
  obtain ⟨_, _, _, hbegin⟩ := trainOnly_beginSets ((s.detectSet.wr Reg.rxReversed 0).wr Reg.txReversed 0).profilesTaken
  rw [enterDetect_eq, hbegin, hprofiles, detectSet_phy]
  rfl

/-- What a full training begins with. -/
structure Detects (t : State) : Prop where
  state : t.rd Reg.linkState = Ls.detect
  rate : t.phy.rate = 0
  fast : t.phy.fast = false
  lanes : ∀ p : Lane, (t.lane p).locked = false ∧ (t.lane p).num = none
  reversed : t.rd Reg.txReversed = 0 ∧ t.rd Reg.rxReversed = 0
  places : ∀ p : Lane, t.rd (Reg.laneLogical p) = 0xFF ∧ t.rd (Reg.laneStatus p) = 0

theorem enterDetect_detects (s : State) : Detects s.enterDetect := by
  have hset : ∀ k, k ∉ [Reg.rxReversed, Reg.txReversed] ++ eqKeys → s.enterDetect.rd k = s.detectSet.rd k := by
    intro k hk
    simp only [List.mem_append, List.mem_cons, List.not_mem_nil, or_false, not_or] at hk
    rw [enterDetect_eq, (trainOnly_beginSets _).rd, (profilesTaken_frame _).rd hk.2, State.rd_wr_ne _ _ hk.1.2, State.rd_wr_ne _ _ hk.1.1]
  have hrev : ∀ k ∈ [Reg.txReversed, Reg.rxReversed], s.enterDetect.rd k = ((s.detectSet.wr Reg.rxReversed 0).wr Reg.txReversed 0).rd k := by
    intro k hk
    rw [enterDetect_eq, (trainOnly_beginSets _).rd, (profilesTaken_frame _).rd (by revert k; decide)]
  have hphy := detectSet_phy s
  have hprofiles : ((s.detectSet.wr Reg.rxReversed 0).wr Reg.txReversed 0).profilesTaken.phy = s.detectSet.phy := profilesTaken_phy _
  have hbegin := trainOnly_beginSets ((s.detectSet.wr Reg.rxReversed 0).wr Reg.txReversed 0).profilesTaken
  have hfound := foundKept_beginSets ((s.detectSet.wr Reg.rxReversed 0).wr Reg.txReversed 0).profilesTaken
  rw [← enterDetect_eq] at hbegin hfound
  obtain ⟨_, _, _, hbegin⟩ := hbegin
  refine ⟨?_, ?_, ?_, fun p => ?_, ⟨?_, ?_⟩, fun p => ?_⟩
  · rw [hset _ (by decide), detectSet_rd, (lanesOff_frame (Frame.refl lanesOffKeys [] _) fun _ h => h).rd (by decide), rd_wr_of_lt _ (by decide)]
  · rw [hbegin, hprofiles, hphy]
  · rw [hbegin, hprofiles, hphy]
  · obtain ⟨hlock, hnum, _⟩ := hfound p
    have hblank : ((s.detectSet.wr Reg.rxReversed 0).wr Reg.txReversed 0).profilesTaken.lane p = {} := by
      unfold State.lane
      rw [hprofiles, hphy]
      rfl
    rw [hlock, hnum, hblank]
    exact ⟨rfl, rfl⟩
  · rw [hrev _ (by simp), rd_wr_of_lt _ (by decide)]
  · rw [hrev _ (by simp), State.rd_wr_ne _ _ (by decide), rd_wr_of_lt _ (by decide)]
  · rw [hset _ (by revert p; decide), hset _ (by revert p; decide), detectSet_rd, detectSet_rd]
    exact lanesOff_reads (s.wr Reg.linkState Ls.detect) p

/-- What a full training of a link in use leaves. -/
structure FullTrains (cause : Nat) (s t : State) : Prop where
  drops : LinkDrops cause Ls.detect s t
  counts : Counts Reg.fullRetrains s t
  fast : t.phy.fast = false
  frame : Frame (downKeys ++ detectKeys ++ [Reg.fullRetrains]) [] s t

theorem fullTraining_spec {s : State} {cause : Nat} (hdrop : s.dropped = false) (hon : s.rd Reg.linkState ≠ Ls.disabled)
    (hcause : cause < 256) : FullTrains cause s (s.fullTraining cause) := by
  have heq : s.fullTraining cause = ((s.linkDown cause Ls.detect).bump Reg.fullRetrains).enterDetect := by
    unfold State.fullTraining
    simp [hdrop]
  have hdown := linkDown_drops hdrop hon hcause (next := Ls.detect) (by decide)
  have hframe := linkDown_frame s cause Ls.detect
  have hdetect := enterDetect_frame ((s.linkDown cause Ls.detect).bump Reg.fullRetrains)
  have hdetects := enterDetect_detects ((s.linkDown cause Ls.detect).bump Reg.fullRetrains)
  have hbump : Frame (Reg.fullRetrains :: detectKeys) [] (s.linkDown cause Ls.detect)
      ((s.linkDown cause Ls.detect).bump Reg.fullRetrains).enterDetect :=
    ((Frame.refl ..).bump _ (by simp)).trans (hdetect.mono (List.subset_cons_self ..) fun _ h => h)
  rw [heq]
  refine ⟨hdown.after hbump (by decide) hdetects.state, ?_, hdetects.fast, ?_⟩
  · unfold Counts
    rw [hdetect.rd (by decide), rd_bump, hframe.rd (by decide)]
  · exact (hframe.mono (List.subset_append_of_subset_left _ (List.subset_append_left ..)) fun _ h => h).trans
      (hbump.mono (by decide) fun _ h => h)

/-! ### A disabled link -/

theorem linkDisable_drops {s : State} {cause : Nat} (hdrop : s.dropped = false) (hon : s.rd Reg.linkState ≠ Ls.disabled)
    (hcause : cause < 256) : LinkDrops cause Ls.disabled s (s.linkDisable cause) ∧ (s.linkDisable cause).phy.refBad = s.phy.refBad ∧
    Frame (downKeys ++ lanesOffKeys) [] s (s.linkDisable cause) := by
  have hdown := linkDown_drops hdrop hon hcause (next := Ls.disabled) (by decide)
  have hoff := lanesOff_frame (Frame.refl lanesOffKeys [] (s.linkDown cause Ls.disabled)) fun _ h => h
  refine ⟨hdown.after hoff (by decide) ((hoff.rd (by decide)).trans hdown.1), ?_, ?_⟩
  · obtain ⟨_, _, hphy⟩ := linkDown_phy s cause Ls.disabled
    unfold State.linkDisable
    rw [lanesOff_phy]
    unfold State.receiversOff
    rw [hphy]
  · exact ((linkDown_frame s cause Ls.disabled).mono (List.subset_append_left ..) fun _ h => h).trans
      (hoff.mono (List.subset_append_right ..) fun _ h => h)

/-- A disabled link that may run again returns to DETECT. -/
theorem linkEnable_eq {s : State} (hoff : s.rd Reg.linkState = Ls.disabled) (hmay : s.linkMayRun = true) : s.linkEnable = s.enterDetect :=
  if_pos (by simp [hoff, hmay])

theorem linkEnable_of_on {s : State} (hon : s.rd Reg.linkState ≠ Ls.disabled) : s.linkEnable = s := if_neg (by simp [hon])

end Sys2Proof.Machine
end

section
/-! SUPPORT. Counting a partner's violation (spec/18_events_and_faults.md R478-R481; spec/12_link_layer.md R324, R326;
spec/11_link_phy.md R301): its two counters, and what it may change at most. -/
namespace Sys2Proof.Machine

/-! ### What counting a violation may touch -/

/-- Registers, the log and its queues, the service's state, the link layer's. -/
def ViolOnly (s t : State) : Prop :=
  ∃ reg now log queue evTx svc ll, t = { s with reg := reg, setNow := now, log := log, fla := { s.fla with queue := queue },
                                                cas := { s.cas with evTx := evTx }, svc := svc, ll := ll }

theorem ViolOnly.refl (s) : ViolOnly s s := ⟨s.reg, s.setNow, s.log, s.fla.queue, s.cas.evTx, s.svc, s.ll, rfl⟩

theorem ViolOnly.trans {s t u} (h1 : ViolOnly s t) (h2 : ViolOnly t u) : ViolOnly s u := by
  obtain ⟨_, _, _, _, _, _, _, rfl⟩ := h1
  obtain ⟨r, w, l, q, e, v, x, rfl⟩ := h2
  exact ⟨r, w, l, q, e, v, x, rfl⟩

theorem ViolOnly.wr {s t} (k v) (h : ViolOnly s t) : ViolOnly s (t.wr k v) := h.trans ⟨_, _, _, _, _, _, _, rfl⟩

theorem ViolOnly.flag {s t} (k i) (h : ViolOnly s t) : ViolOnly s (t.flag k i) := h.trans ⟨_, _, _, _, _, _, _, rfl⟩

theorem ViolOnly.setSrc {s t} (j x) (h : ViolOnly s t) : ViolOnly s (t.setSrc j x) := h.trans ⟨_, _, _, _, _, _, _, rfl⟩

theorem LogOnly.violOnly {s t} (h : LogOnly s t) : ViolOnly s t := by
  obtain ⟨r, w, l, q, e, rfl, _⟩ := h
  exact ⟨r, w, l, q, e, s.svc, s.ll, rfl⟩

theorem SendOnly.violOnly {s t} (h : SendOnly s t) : ViolOnly s t := by
  obtain ⟨r, x, rfl, _⟩ := h
  exact ⟨r, s.setNow, s.log, s.fla.queue, s.cas.evTx, s.svc, x, rfl⟩

theorem ViolOnly.event {s t} (code obj detail a b) (h : ViolOnly s t) : ViolOnly s (t.event code obj detail a b) :=
  h.trans (logOnly_event ..).violOnly

theorem ViolOnly.ite {s a b} {c : Prop} [Decidable c] (h1 : ViolOnly s a) (h2 : ViolOnly s b) : ViolOnly s (if c then a else b) := by
  split
  · exact h1
  · exact h2

theorem ViolOnly.iff {s t} (c : Bool) (f : State → State) (hf : ViolOnly s (f t)) (h : ViolOnly s t) : ViolOnly s (t.iff c f) :=
  .ite hf h

theorem violOnly_reply (s : State) (a) : ViolOnly s (s.reply a) := by
  unfold State.reply
  extract_lets _ u
  have hu : ViolOnly s u := ⟨s.reg, s.setNow, s.log, s.fla.queue, s.cas.evTx, _, s.ll, rfl⟩
  refine .ite (.trans (.trans hu ?_) (sendOnly_send _ _).violOnly) hu
  unfold State.noteFate
  exact .ite ((ViolOnly.refl u).wr _ _) (.refl u)

/-! ### Quarantine (R326, R480) -/

/-- The registers that a quarantine may change. -/
def quarantineKeys (j : Nat) : List Nat :=
  eventKeys ++ answerKeys ++ [Reg.serviceFlags, Reg.llFlags, Reg.llQuarantines, Reg.srcQuarantines j]

/-- The source's own state as a quarantine leaves it. -/
def State.silenced (s : State) (j : Nat) : State :=
  let x := { s.srcOf j with shadows := [], unlocked := false, xfer := none, cursor := none, retries := [], held := [] }
  s.setSrc j { x with quarLeft := 524288 }

/-- A quarantine is counted, flagged and logged; the link's also in the link layer (R326). -/
def State.quarantineNoted (s : State) (j : Nat) : State :=
  let v := ((s.bump (Reg.srcQuarantines j)).flag Reg.serviceFlags 3).event 0x1103 j 1 (s.rd (Reg.violTotal j))
  if j = 0 then (v.flag Reg.llFlags 4).bump Reg.llQuarantines else v

/-- The notice that a quarantined source gets. -/
def quarantineNotice (j : Nat) : Answer :=
  { src := j, tag := 0, opcode := 0x80, status := 1, index := 0, sub := 0, data := leBytes 4 0x01060200 }

theorem quarantine_eq (s : State) (j : Nat) :
    s.quarantine j = (((s.silenced j).quarantineNoted j).reply (quarantineNotice j)).iff (j = 0) (·.statusIfChanged) := rfl

theorem quarantineNoted_frame (s : State) (j : Nat) : Frame (quarantineKeys j) [] s (s.quarantineNoted j) := by
  have hu : Frame (quarantineKeys j) [] s ((s.bump (Reg.srcQuarantines j)).flag Reg.serviceFlags 3) :=
    ((Frame.refl ..).bump _ (by simp [quarantineKeys])).flag _ _ (by simp [quarantineKeys])
  have hv := hu.event 0x1103 j 1 (s.rd (Reg.violTotal j)) 0
    (List.subset_append_of_subset_left _ (List.subset_append_left ..))
  exact .ite (fun _ => (hv.flag _ _ (by simp [quarantineKeys])).bump _ (by simp [quarantineKeys])) fun _ => hv

theorem quarantine_frame (s : State) (j : Nat) : Frame (quarantineKeys j) [] s (s.quarantine j) := by
  rw [quarantine_eq]
  have hanswer : answerKeys ⊆ quarantineKeys j := List.subset_append_of_subset_left _ (List.subset_append_right ..)
  have hreply := (((Frame.refl (quarantineKeys j) [] s).svc (s.silenced j).svc).trans (quarantineNoted_frame (s.silenced j) j)).reply
    (quarantineNotice j) hanswer
  exact .iff _ _ (fun h => h.statusIfChanged fun _ hk => hanswer (.tail _ hk)) hreply

theorem violOnly_quarantine (s : State) (j : Nat) : ViolOnly s (s.quarantine j) := by
  rw [quarantine_eq]
  have hu : ViolOnly s ((s.silenced j).quarantineNoted j) := by
    have hv : ViolOnly s ((((s.silenced j).bump (Reg.srcQuarantines j)).flag Reg.serviceFlags 3).event 0x1103 j 1
        ((s.silenced j).rd (Reg.violTotal j))) :=
      ((((ViolOnly.refl s).setSrc j _).wr _ _).flag _ _).event ..
    exact .ite ((hv.flag _ _).wr _ _) hv
  exact .iff _ _ ((hu.trans (violOnly_reply ..)).trans (sendOnly_statusIfChanged _).violOnly) (hu.trans (violOnly_reply ..))

/-! ### A violation (R88, R479-R481) -/

/-- A violation's two counters, and the event of a source's first one of its class. -/
def State.violCounted (s : State) (j cls : Nat) : State :=
  let u := (s.bump (Reg.viol j (cls - 1))).bump (Reg.violTotal j)
  if s.rd (Reg.viol j (cls - 1)) = 0 then u.event 0x1104 j cls else u

/-- The violations of the present window with one more of this cycle. -/
def windowNext (cyc : Nat) (w : List (Nat × Nat)) : List (Nat × Nat) :=
  match liveWindow cyc w with
  | (c, n) :: t => if c = cyc then (c, n + 1) :: t else (cyc, 1) :: (c, n) :: t
  | [] => [(cyc, 1)]

/-- A weighed violation enters the source's window, and may start its quarantine. -/
def State.violWeighed (s : State) (j : Nat) : State :=
  let w := windowNext s.clk.cyc (s.srcOf j).window
  let u := s.setSrc j { s.srcOf j with window := w }
  if 33 ≤ windowSum w && (s.srcOf j).quarLeft = 0 && j ≠ 2 && u.phase ≠ .pour then u.quarantine j else u

theorem violate_eq (s : State) (j cls : Nat) (weighs : Bool) :
    s.violate j cls weighs = if !weighs then s.violCounted j cls else (s.violCounted j cls).violWeighed j := rfl

/-- The registers that counting a violation of a source may change. -/
def sourceKeys (j : Nat) : List Nat := quarantineKeys j ++ Reg.violTotal j :: (List.range 15).map (Reg.viol j)

theorem viol_mem {j i : Nat} (hi : i < 15) : Reg.viol j i ∈ sourceKeys j :=
  List.mem_append_right _ (.tail _ (List.mem_map_of_mem (List.mem_range.mpr hi)))

theorem violTotal_mem (j : Nat) : Reg.violTotal j ∈ sourceKeys j := List.mem_append_right _ (.head _)

theorem eventKeys_subset_sourceKeys (j : Nat) : eventKeys ⊆ sourceKeys j :=
  fun _ hk => List.mem_append_left _ (List.mem_append_left _ (List.mem_append_left _ hk))

theorem sourceKeys_subset (j : Nat) : sourceKeys j ⊆ violKeys j := by
  intro k hk
  rcases List.mem_append.mp hk with hk | hk
  · rcases List.mem_append.mp hk with hk | hk
    · exact List.mem_append_left _ (List.mem_append_left _ hk)
    · exact List.mem_append_left _ (List.mem_append_right _ ((by simp : [Reg.serviceFlags, Reg.llFlags, Reg.llQuarantines,
        Reg.srcQuarantines j] ⊆ _) hk))
  · rcases List.mem_cons.mp hk with rfl | hk
    · exact List.mem_append_left _ (List.mem_append_right _ (by simp))
    · exact List.mem_append_right _ hk

/-- The counters of a source lie beyond the registers of an event, an answer and the service. -/
theorem below_sources : ∀ k ∈ eventKeys ++ answerKeys ++ [Reg.serviceFlags, Reg.llFlags, Reg.llQuarantines, Reg.llViolations], k < 0x602000 := by
  decide

theorem viol_notMem (j i : Nat) : Reg.viol j i ∉ quarantineKeys j ∧ Reg.violTotal j ∉ quarantineKeys j := by
  have hbelow := below_sources
  have hkeys : ∀ k ∈ quarantineKeys j, k < 0x602000 ∨ k = Reg.srcQuarantines j := by
    intro k hk
    simp only [quarantineKeys, List.mem_append, List.mem_cons, List.not_mem_nil, or_false] at hk hbelow
    rcases hk with hk | hk
    · exact .inl (hbelow k (.inl hk))
    · rcases hk with hk | hk | hk | hk
      · exact .inl (hbelow k (.inr (.inl hk)))
      · exact .inl (hbelow k (.inr (.inr (.inl hk))))
      · exact .inl (hbelow k (.inr (.inr (.inr (.inl hk)))))
      · exact .inr hk
  refine ⟨fun h => ?_, fun h => ?_⟩
  all_goals
    have hk := hkeys _ h
    simp only [Reg.viol, Reg.violTotal, Reg.srcQuarantines, rkey] at hk
    omega

theorem viol_ne_violTotal (j i : Nat) : Reg.viol j i ≠ Reg.violTotal j := by
  simp only [Reg.viol, Reg.violTotal, rkey]
  omega

theorem violCounted_frame (s : State) (j : Nat) {cls : Nat} (hcls : cls - 1 < 15) : Frame (sourceKeys j) [] s (s.violCounted j cls) := by
  have hu := ((Frame.refl (sourceKeys j) [] s).bump _ (viol_mem hcls)).bump _ (violTotal_mem j)
  exact .ite (fun _ => hu.event _ _ _ _ _ (eventKeys_subset_sourceKeys j)) fun _ => hu

theorem violCounted_violates (s : State) (j cls : Nat) : Violates j cls s (s.violCounted j cls) := by
  have hnot := viol_notMem j (cls - 1)
  have hevent : ∀ k ∈ eventKeys, k ∈ quarantineKeys j := fun k hk => List.mem_append_left _ (List.mem_append_left _ hk)
  have hu : Violates j cls s ((s.bump (Reg.viol j (cls - 1))).bump (Reg.violTotal j)) := by
    refine ⟨?_, ?_⟩
    · rw [Counts, rd_bump_ne _ (viol_ne_violTotal _ _), rd_bump]
    · rw [Counts, rd_bump, rd_bump_ne _ (viol_ne_violTotal _ _).symm]
  unfold State.violCounted
  dsimp only
  split
  · refine ⟨?_, ?_⟩
    · rw [Counts, State.rd_event _ _ _ _ _ _ fun h => hnot.1 (hevent _ h)]
      exact hu.1
    · rw [Counts, State.rd_event _ _ _ _ _ _ fun h => hnot.2 (hevent _ h)]
      exact hu.2
  · exact hu

theorem violOnly_violCounted (s : State) (j cls : Nat) : ViolOnly s (s.violCounted j cls) := by
  have hu := ((ViolOnly.refl s).wr (Reg.viol j (cls - 1)) (s.rd (Reg.viol j (cls - 1)) + 1)).wr (Reg.violTotal j)
    ((s.bump (Reg.viol j (cls - 1))).rd (Reg.violTotal j) + 1)
  exact .ite (hu.event ..) hu

theorem violWeighed_frame (s : State) (j : Nat) : Frame (quarantineKeys j) [] s (s.violWeighed j) := by
  have hu : Frame (quarantineKeys j) [] s (s.setSrc j { s.srcOf j with window := windowNext s.clk.cyc (s.srcOf j).window }) :=
    (Frame.refl ..).svc _
  exact .ite (fun _ => hu.trans (quarantine_frame _ j)) fun _ => hu

theorem violOnly_violWeighed (s : State) (j : Nat) : ViolOnly s (s.violWeighed j) := by
  have hu := (ViolOnly.refl s).setSrc j { s.srcOf j with window := windowNext s.clk.cyc (s.srcOf j).window }
  exact .ite (hu.trans (violOnly_quarantine _ j)) hu

/-- What a later step leaves of the counters stays counted. -/
theorem Violates.after {j cls K H} {s t u : State} (h : Violates j cls s t) (hf : Frame K H t u) (hviol : Reg.viol j (cls - 1) ∉ K)
    (htotal : Reg.violTotal j ∉ K) : Violates j cls s u :=
  ⟨(hf.rd hviol).trans h.1, (hf.rd htotal).trans h.2⟩

theorem Violates.since {j cls} {s t u : State} (h : Violates j cls t u) (hviol : t.rd (Reg.viol j (cls - 1)) = s.rd (Reg.viol j (cls - 1)))
    (htotal : t.rd (Reg.violTotal j) = s.rd (Reg.violTotal j)) : Violates j cls s u := ⟨h.1.since hviol, h.2.since htotal⟩

/-- What a violation of a source does (R88, R479-R481). -/
theorem violation_spec (s : State) (j : Nat) {cls : Nat} (hcls : cls - 1 < 15) :
    Violates j cls s (s.violation j cls) ∧ Frame (sourceKeys j) [] s (s.violation j cls) ∧ ViolOnly s (s.violation j cls) := by
  have hcounted := violCounted_frame s j hcls
  unfold State.violation
  rw [violate_eq]
  split
  · exact ⟨violCounted_violates s j cls, hcounted, violOnly_violCounted s j cls⟩
  · obtain ⟨hviol, htotal⟩ := viol_notMem j (cls - 1)
    exact ⟨(violCounted_violates s j cls).after (violWeighed_frame _ j) hviol htotal,
      hcounted.trans ((violWeighed_frame _ j).mono (List.subset_append_left ..) fun _ h => h),
      (violOnly_violCounted s j cls).trans (violOnly_violWeighed _ j)⟩

/-- A violation counted after a register that is no counter of its source. -/
theorem violation_after {s u : State} (j : Nat) {cls : Nat} (hcls : cls - 1 < 15) {K : List Nat} (hpre : Frame K [] s u)
    (hK : ∀ k ∈ K, k < 0x602000) :
    Violates j cls s (u.violation j cls) ∧ Frame (K ++ sourceKeys j) [] s (u.violation j cls) ∧ ViolOnly u (u.violation j cls) := by
  obtain ⟨hviol, hframe, honly⟩ := violation_spec u j hcls
  have hnot : ∀ i, Reg.viol j i ∉ K ∧ Reg.violTotal j ∉ K := fun i =>
    ⟨fun h => absurd (hK _ h) (by simp only [Reg.viol, rkey]; omega), fun h => absurd (hK _ h) (by simp only [Reg.violTotal, rkey]; omega)⟩
  exact ⟨hviol.since (hpre.rd (hnot _).1) (hpre.rd (hnot 0).2),
    (hpre.mono (List.subset_append_left ..) fun _ h => h).trans (hframe.mono (List.subset_append_right ..) fun _ h => h), honly⟩

/-- A violation of the link layer is one of the link, counted in LL_VIOLATIONS (R324). -/
theorem llViolation_spec (s : State) {cls : Nat} (hcls : cls - 1 < 15) :
    Violates 0 cls s (s.llViolation cls) ∧ Counts Reg.llViolations s (s.llViolation cls) ∧ Frame (violKeys 0) [] s (s.llViolation cls) ∧
    ViolOnly s (s.llViolation cls) := by
  have hpre : Frame [Reg.llViolations, Reg.llFlags] [] s ((s.bump Reg.llViolations).flag Reg.llFlags 3) :=
    ((Frame.refl ..).bump _ (by simp)).flag _ _ (by simp)
  obtain ⟨hviol, hframe, honly⟩ := violation_after 0 hcls hpre (by decide)
  refine ⟨hviol, ?_, hframe.mono (by decide) fun _ h => h, (((ViolOnly.refl s).wr _ _).flag _ _).trans honly⟩
  have hcount : Counts Reg.llViolations s ((s.bump Reg.llViolations).flag Reg.llFlags 3) :=
    (rd_flag_ne _ _ (by decide)).trans (rd_bump ..)
  obtain ⟨_, hsource, _⟩ := violation_spec ((s.bump Reg.llViolations).flag Reg.llFlags 3) 0 hcls
  exact (hsource.rd (by decide)).trans hcount

/-- A violation at PHY level (R301). -/
theorem phyViolation_spec (s : State) :
    Violates 0 Vc.phy s s.phyViolation ∧ Counts Reg.phyViolations s s.phyViolation ∧
    Frame (violKeys 0 ++ [Reg.phyViolations]) [] s s.phyViolation ∧ ViolOnly s s.phyViolation := by
  have hpre : Frame [Reg.phyViolations] [] s (s.bump Reg.phyViolations) := (Frame.refl ..).bump _ (by simp)
  obtain ⟨hviol, hframe, honly⟩ := violation_after 0 (cls := Vc.phy) (by decide) hpre (by decide)
  refine ⟨hviol, ?_, hframe.mono (by decide) fun _ h => h, ((ViolOnly.refl s).wr _ _).trans honly⟩
  obtain ⟨_, hsource, _⟩ := violation_spec (s.bump Reg.phyViolations) 0 (cls := Vc.phy) (by decide)
  exact (hsource.rd (by decide)).trans (rd_bump ..)

end Sys2Proof.Machine
end

section
/-! PROOF. Eye-scan steps and the link's faults (spec/11_link_phy.md R281, R285, R291, R294, R297-R300; spec/19_service.md R490). -/
namespace Sys2Proof.Machine

/-! ### Reports and the ends of scans -/

/-- The registers of a report. -/
def reportKeys : List Nat := [Reg.svcReport, Reg.svcReportCmd, Reg.svcReports, Reg.svcSummary]

theorem finishReport_frame {K H s t} (h : Frame K H s t) (hK : reportKeys ⊆ K) : Frame K H s t.finishReport := by
  unfold State.finishReport
  exact ((((h.wr _ _ (hK (by decide))).wr _ _ (hK (by decide))).bump _ (hK (by decide))).wr _ _ (hK (by decide))).rep _

theorem reportScans_frame {K H s t} (h : Frame K H s t) (hK : reportKeys ⊆ K) : Frame K H s t.reportScans := by
  unfold State.reportScans
  exact .ite (fun _ => finishReport_frame h hK) fun _ => h

theorem finishReport_phy (s : State) : s.finishReport.phy = s.phy := by
  unfold State.finishReport
  simp

theorem reportScans_phy (s : State) : s.reportScans.phy = s.phy := by
  unfold State.reportScans
  split
  · exact finishReport_phy s
  · rfl

theorem reportScans_of_other {s : State} (h : s.rep.kind ≠ 4) : s.reportScans = s := if_neg (by simp [h])

theorem scanOf_setScan (s : State) (p e q) : (s.setScan p e).scanOf q = if q = p then e else s.scanOf q := tget_tset ..

theorem scanOf_of_phy {s t : State} (h : t.phy = s.phy) (p) : t.scanOf p = s.scanOf p := by rw [State.scanOf, h, State.scanOf]

theorem Frame.setScan {K H s t} (p e) (h : Frame K H s t) : Frame K H s (t.setScan p e) := h.phy _

/-! ### Steps (R297-R299) -/

/-- The registers of a lane's eye scan are its own, whichever lane it is. -/
theorem eyeKeys_ne (p : Nat) : Reg.eyeDone p ≠ Reg.eyeStamp p ∧ Reg.eyeWidth p ≠ Reg.eyeHeight p ∧ Reg.eyeWidth p ≠ Reg.eyeCmd p ∧
    Reg.eyeHeight p ≠ Reg.eyeCmd p := by
  simp only [Reg.eyeDone, Reg.eyeStamp, Reg.eyeWidth, Reg.eyeHeight, Reg.eyeCmd, rkey]
  omega

theorem exec_eyeStep {s : State} {p : Lane} (hrun : (s.scanOf p).running = true) (hcount : (s.scanOf p).counting = false)
    (hfrom : (s.scanOf p).from_ ≤ s.tick) (htic : s.clk.tic = windowTick 49152 s.clk.shift) :
    exec (.eyeStep p) s =
      .next (s.iff (s.rd Reg.linkUp = 1 && s.laneIn p) (·.setScan p { s.scanOf p with counting := true })) :=
  if_pos (by simp [hrun, hcount, hfrom, htic])

/-- While the link is down or narrower, a window passes. -/
theorem exec_eyeStep_waits {s : State} {p : Lane} (h : s.rd Reg.linkUp ≠ 1 ∨ s.laneIn p = false) : exec (.eyeStep p) s = .next s := by
  have hexec : exec (.eyeStep p) s = execEyeStep p s := rfl
  have hoff : (s.rd Reg.linkUp = 1 && s.laneIn p) = false := by
    rcases h with h | h <;> simp [h]
  rw [hexec]
  unfold execEyeStep
  simp only [hoff, State.iff]
  split <;> rfl

/-- A running scan after the count of its step. -/
def State.scanStepped (s : State) (p errs : Nat) : EyeScan :=
  let e := { s.scanOf p with done := (s.scanOf p).done ++ [errs], counting := false, from_ := s.tick }
  { e with running := !decide (e.points.length ≤ e.done.length) }

theorem scanStepped_done (s : State) (p errs : Nat) : (s.scanStepped p errs).done = (s.scanOf p).done ++ [errs] := rfl

theorem scanStepped_counting (s : State) (p errs : Nat) : (s.scanStepped p errs).counting = false := rfl

/-- A step's count is entered. -/
def State.stepCounted (s : State) (p errs : Nat) : State :=
  ((s.setScan p (s.scanStepped p errs)).wr (Reg.eyeDone p) ((s.scanOf p).done.length + 1)).wr (Reg.eyeStamp p) s.stamp

/-- The last step ends the scan with its opening. -/
def State.scanDone (s : State) (p : Nat) (e : EyeScan) : State :=
  ((s.wr (Reg.eyeWidth p) e.dims.1).wr (Reg.eyeHeight p) e.dims.2).wr (Reg.eyeCmd p) 2

theorem scanDone_scanOf (s : State) (p : Nat) (e : EyeScan) (q) : (s.scanDone p e).scanOf q = s.scanOf q :=
  scanOf_of_phy (by simp [State.scanDone]) q

theorem scanDone_rep (s : State) (p : Nat) (e : EyeScan) : (s.scanDone p e).rep = s.rep := by simp [State.scanDone]

theorem stepCounted_rep (s : State) (p errs : Nat) : (s.stepCounted p errs).rep = s.rep := by simp [State.stepCounted, State.setScan]

theorem sizeAt_eyeCmd : ∀ p : Lane, 256 ^ sizeAt (Reg.eyeCmd p) = 256 := by decide

theorem exec_eyeStepEnd {s : State} {p : Lane} (errs : BitVec 32) (hcount : (s.scanOf p).counting = true) :
    exec (.eyeStepEnd p errs) s = .next (if (s.scanOf p).points.length ≤ (s.scanOf p).done.length + 1 then
      ((s.stepCounted p errs.toNat).scanDone p (s.scanStepped p errs.toNat)).reportScans else s.stepCounted p errs.toNat) := by
  have hexec : exec (.eyeStepEnd p errs) s = execEyeStepEnd p errs s := rfl
  have hlen : ((s.scanOf p).done ++ [errs.toNat]).length = (s.scanOf p).done.length + 1 := by simp
  rw [hexec]
  unfold execEyeStepEnd State.stepCounted State.scanStepped
  simp only [hcount, Bool.not_true, Bool.false_eq_true, if_false, hlen, decide_eq_true_eq]
  rfl

theorem stepCounted_spec (s : State) (p : Lane) (errs : Nat) :
    (s.stepCounted p errs).scanOf p = s.scanStepped p errs ∧
    (s.stepCounted p errs).rd (Reg.eyeDone p) = fit (Reg.eyeDone p) ((s.scanOf p).done.length + 1) ∧
    (s.stepCounted p errs).rd (Reg.eyeStamp p) = fit (Reg.eyeStamp p) s.stamp ∧
    Frame [Reg.eyeDone p, Reg.eyeStamp p] [] s (s.stepCounted p errs) := by
  obtain ⟨hne, _⟩ := eyeKeys_ne p
  refine ⟨?_, ?_, State.rd_wr_same .., (((Frame.refl ..).setScan _ _).wr _ _ (by simp)).wr _ _ (by simp)⟩
  · have hscan := scanOf_setScan s p (s.scanStepped p errs) p
    rw [if_pos rfl] at hscan
    exact hscan
  · exact (State.rd_wr_ne _ _ hne).trans (State.rd_wr_same ..)

/-- Settles O20: a step begun is `exec_eyeStep`, a step ended `stepCounted`, the scan's last one `scanDone`. -/
theorem eyeScansStep : Obligations.EyeScansStep := by
  refine ⟨fun s p hrun hcount hfrom htic hup hin => ?begin, fun s p h => ⟨s, exec_eyeStep_waits h, rfl⟩,
    fun s p errs hcount hmore => ?step, fun s p errs hcount hlast hrep => ?last⟩
  case begin =>
    refine ⟨_, exec_eyeStep hrun hcount hfrom htic, ?_⟩
    rw [show (s.rd Reg.linkUp = 1 && s.laneIn p) = true by simp [hup, hin]]
    have hscan := scanOf_setScan s p { s.scanOf p with counting := true } p
    rw [if_pos rfl] at hscan
    exact ⟨congrArg EyeScan.counting hscan, (congrArg EyeScan.done hscan).trans rfl, (Frame.refl ..).setScan _ _⟩
  case step =>
    obtain ⟨hscan, hdone, hstamp, hframe⟩ := stepCounted_spec s p errs.toNat
    refine ⟨s.stepCounted p errs.toNat, ?_, ?_, ?_, hdone, hstamp, hframe⟩
    · rw [exec_eyeStepEnd errs hcount, if_neg (by omega)]
    · rw [hscan, scanStepped_done]
    · rw [hscan, scanStepped_counting]
  case last =>
    obtain ⟨hscan, hdone, hstamp, hframe⟩ := stepCounted_spec s p errs.toNat
    obtain ⟨_, hwh, hwc, hhc⟩ := eyeKeys_ne p
    have hover : (s.scanStepped p errs.toNat).running = false := by simp [State.scanStepped, hlast]
    refine ⟨(s.stepCounted p errs.toNat).scanDone p (s.scanStepped p errs.toNat), ?_, ?_, ?_, ?_, ?_, ?_⟩
    · rw [exec_eyeStepEnd errs hcount, if_pos hlast, reportScans_of_other]
      rw [scanDone_rep, stepCounted_rep]
      exact hrep
    · rw [scanDone_scanOf, hscan, hover]
    · exact rd_wr_of_lt _ (by rw [sizeAt_eyeCmd]; decide)
    · rw [scanDone_scanOf, hscan]
      exact (State.rd_wr_ne _ _ hwc).trans ((State.rd_wr_ne _ _ hwh).trans (State.rd_wr_same ..))
    · rw [scanDone_scanOf, hscan]
      exact (State.rd_wr_ne _ _ hhc).trans (State.rd_wr_same ..)
    · exact (((hframe.mono (by simp) fun _ h => h).wr _ _ (by simp)).wr _ _ (by simp)).wr _ _ (by simp)

end Sys2Proof.Machine
end

section
/-! PROOF. What retrains the link and what that leaves (spec/11_link_phy.md R281, R285, R291, R294). -/
namespace Sys2Proof.Machine

theorem wasActive_of_active {s : State} (h : s.rd Reg.linkState = Ls.active) : s.wasActive = true := by simp [State.wasActive, h]

theorem not_disabled_of_active {s : State} (h : s.rd Reg.linkState = Ls.active) : s.rd Reg.linkState ≠ Ls.disabled := by
  rw [h]
  decide

/-! ### The commands -/

theorem exec_codeErrorRetrain {s : State} {n : Nat} (hact : s.rd Reg.linkState = Ls.active) (hn : s.rd Reg.errRetrain ≤ n) :
    exec (.codeErrorRetrain n) s = .next (s.fastRetrain 2) := if_pos (by simp [wasActive_of_active hact, hn])

theorem exec_deskewLoss {s : State} {p : Lane} (hact : s.rd Reg.linkState = Ls.active) (hin : s.laneIn p = true)
    (hfirst : s.rd (Reg.laneLogical p) ≠ 0) : exec (.deskewLoss p) s = .next (s.fastRetrain 3) :=
  if_pos (by simp [wasActive_of_active hact, hin, hfirst])

theorem exec_silenceTimeout {s : State} (hact : s.rd Reg.linkState = Ls.active) (hidle : s.rd Reg.rxIdle = 0) :
    exec .silenceTimeout s = .next (s.fullTraining 10) := if_pos (by simp [wasActive_of_active hact, hidle])

/-- REFCLK's loss is kept, flagged and logged (R294). -/
def State.refLost (s : State) : State := ({ s with phy := { s.phy with refBad := true } }.flag Reg.phyFlags 5).event 0x3005 0xFF 1

/-- Its return is kept and logged. -/
def State.refBack (s : State) : State := { s with phy := { s.phy with refBad := false } }.event 0x3005 0xFF 0

theorem exec_refclkFault {s : State} (hrun : s.sup.running = true) (htaken : s.taken = true) (hgood : s.phy.refBad = false) :
    exec .refclkFault s = .next (if s.refLost.ls = Ls.disabled then s.refLost else s.refLost.linkDisable 12) :=
  if_pos (by simp [hrun, htaken, hgood])

theorem exec_refclkGood {s : State} (hrun : s.sup.running = true) (hbad : s.phy.refBad = true) :
    exec .refclkGood s = .next s.refBack.linkEnable := if_pos (by simp [hrun, hbad])

theorem refLost_frame (s : State) : Frame (Reg.phyFlags :: eventKeys) [] s s.refLost :=
  (((Frame.refl ..).phy _).flag _ _ (by simp)).event _ _ _ _ _ (List.subset_cons_self ..)

theorem refLost_phy (s : State) : s.refLost.phy = { s.phy with refBad := true } := State.event_phy ..

theorem refLost_flag (s : State) : s.refLost.bitOf Reg.phyFlags 5 = true :=
  (bitOf_of_rd 5 (State.rd_event _ _ _ _ _ _ (by decide))).trans (bitOf_flag _ (by decide))

/-- The tick is the clock's, which an event leaves. -/
theorem refLost_dropped (s : State) : s.refLost.dropped = s.dropped := by
  have hclk : s.refLost.clk = s.clk := State.event_clk ..
  rw [State.dropped, State.tick, hclk, refLost_phy]
  rfl

theorem refBack_frame (s : State) : Frame eventKeys [] s s.refBack :=
  ((Frame.refl ..).phy _).event _ _ _ _ _ fun _ h => h

theorem refBack_phy (s : State) : s.refBack.phy = { s.phy with refBad := false } := State.event_phy ..

theorem refBack_creates (s : State) : Creates 0x3005 s s.refBack := ⟨_, _, _, _, _, rfl, rfl⟩

/-- With REFCLK back in guard after the takeover, and no hold, the link may run (R292, R294). -/
theorem refBack_mayRun {s : State} (hrun : s.sup.running = true) (htaken : s.taken = true) (hguard : s.phase = .guard)
    (hheld : s.bitOf Reg.idleHold 7 = false ∧ s.bitOf Reg.idleHold 8 = false) : s.refBack.linkMayRun = true := by
  have hsup : s.refBack.sup = s.sup := State.event_sup ..
  have htaken' : s.refBack.taken = s.taken := State.event_taken ..
  have hphase : s.refBack.phase = s.phase := State.event_phase ..
  have hhold : ∀ i, s.refBack.bitOf Reg.idleHold i = s.bitOf Reg.idleHold i := fun i => bitOf_of_rd i ((refBack_frame s).rd (by decide))
  simp [State.linkMayRun, hsup, htaken', hphase, hhold, refBack_phy, hrun, htaken, hguard, hheld]

/-! ### A tap at its limit (R285) -/

/-- A tap stands at a limit of its range, and is flagged. -/
def State.tapSet (s : State) (p : Lane) (tap : Fin 5) (low : Bool) : State :=
  let lim : Int := if tap.val = 0 then 48 else 24
  let b := (leBytes 5 (s.rd (Reg.dfeTaps p))).set tap.val (ofSigned 1 (if low then -lim else lim))
  (s.wr (Reg.dfeTaps p) (leValue b)).flag Reg.phyFlags 6

/-- It is logged once in a training. -/
def State.tapNoted (s : State) (p : Lane) (tap : Fin 5) (low : Bool) : State :=
  if s.phy.tapLogged then s.tapSet p tap low
  else { s.tapSet p tap low with phy := { s.phy with tapLogged := true } }.event 0x3004 p (tap.val + 1)

theorem exec_dfeTapAtLimit {s : State} {p : Lane} (tap : Fin 5) (low : Bool) (hact : s.rd Reg.linkState = Ls.active)
    (hmode : s.rd Reg.eqMode = 1) (hin : s.laneIn p = true) : exec (.dfeTapAtLimit p tap low) s = .next (s.tapNoted p tap low) := by
  have hls : s.ls = Ls.active := hact
  exact if_pos (by simp [hls, hmode, hin])

theorem tapSet_frame {K H s t} (p : Lane) (tap low) (h : Frame K H s t) (hp : Reg.dfeTaps p ∈ K) (hflags : Reg.phyFlags ∈ K) :
    Frame K H s (t.tapSet p tap low) := (h.wr _ _ hp).flag _ _ hflags

theorem tapNoted_spec (s : State) (p : Lane) (tap low) :
    (s.tapNoted p tap low).bitOf Reg.phyFlags 6 = true ∧ (s.tapNoted p tap low).phy.tapLogged = true ∧
    Frame (eventKeys ++ [Reg.dfeTaps p, Reg.phyFlags]) [] s (s.tapNoted p tap low) := by
  have hset : Frame (eventKeys ++ [Reg.dfeTaps p, Reg.phyFlags]) [] s (s.tapSet p tap low) :=
    tapSet_frame p tap low (.refl ..) (by simp) (by simp)
  have hflag : (s.tapSet p tap low).bitOf Reg.phyFlags 6 = true := bitOf_flag _ (by decide)
  unfold State.tapNoted
  split
  · next h => exact ⟨hflag, h, hset⟩
  · exact ⟨(bitOf_of_rd 6 (State.rd_event _ _ _ _ _ _ (by decide))).trans hflag, congrArg Phy.tapLogged (State.event_phy ..),
      (hset.phy _).event _ _ _ _ _ (List.subset_append_left ..)⟩

theorem linkState_notMem_tapKeys : ∀ p : Lane, Reg.linkState ∉ eventKeys ++ [Reg.dfeTaps p, Reg.phyFlags] := by decide

/-- Settles O19: each retrain is `fastRetrain_spec` or `fullTraining_spec`, REFCLK's loss `linkDisable_drops`. -/
theorem faultsRetrainTheLink : Obligations.FaultsRetrainTheLink := by
  refine ⟨fun s n hact hdrop hn => ?code, fun s p hact hin hfirst hdrop => ?deskew, fun s hact hidle hdrop => ?silence,
    fun s hrun htaken hgood hon hdrop => ?lost, fun s hrun hbad hon => ?back, fun s hrun hbad hoff htaken hguard h7 h8 => ?enabled,
    fun s p tap low hact hmode hin => ?tap⟩
  case code =>
    obtain ⟨hdrops, hcount, _, _, hframe, _⟩ := fastRetrain_spec (cause := 2) hdrop (not_disabled_of_active hact) (by decide)
    exact ⟨_, exec_codeErrorRetrain hact hn, hdrops, hcount, hframe⟩
  case deskew =>
    obtain ⟨hdrops, hcount, _, _, hframe, _⟩ := fastRetrain_spec (cause := 3) hdrop (not_disabled_of_active hact) (by decide)
    exact ⟨_, exec_deskewLoss hact hin hfirst, hdrops, hcount, hframe⟩
  case silence =>
    obtain ⟨hdrops, hcount, _, hframe⟩ := fullTraining_spec (cause := 10) hdrop (not_disabled_of_active hact) (by decide)
    exact ⟨_, exec_silenceTimeout hact hidle, hdrops, hcount, hframe⟩
  case lost =>
    have hlost := refLost_frame s
    have hstate : s.refLost.rd Reg.linkState ≠ Ls.disabled := by rwa [hlost.rd (by decide)]
    obtain ⟨hdrops, hbad, hframe⟩ := linkDisable_drops (s := s.refLost) (cause := 12) ((refLost_dropped s).trans hdrop) hstate (by decide)
    refine ⟨_, (exec_refclkFault hrun htaken hgood).trans (congrArg _ (if_neg hstate)), ?_, ?_, hdrops.since (hlost.rd (by decide)), ?_⟩
    · rw [hbad, refLost_phy]
    · exact (bitOf_of_rd 5 (hframe.rd (by decide))).trans (refLost_flag s)
    · exact (hlost.mono (by decide) fun _ h => h).trans (hframe.mono (by decide) fun _ h => h)
  case back =>
    have hstate : s.refBack.rd Reg.linkState ≠ Ls.disabled := by rwa [(refBack_frame s).rd (by decide)]
    refine ⟨s.refBack, ?_, ?_, refBack_creates s, refBack_frame s⟩
    · rw [exec_refclkGood hrun hbad, linkEnable_of_on hstate]
    · rw [refBack_phy]
  case enabled =>
    have hstate : s.refBack.rd Reg.linkState = Ls.disabled := by rwa [(refBack_frame s).rd (by decide)]
    have hframe := enterDetect_frame s.refBack
    refine ⟨s.refBack.enterDetect, ?_, ?_, (enterDetect_detects _).state, ?_⟩
    · rw [exec_refclkGood hrun hbad, linkEnable_eq hstate (refBack_mayRun hrun htaken hguard ⟨h7, h8⟩)]
    · rw [enterDetect_refBad, refBack_phy]
    · exact ((refBack_frame s).mono (List.subset_append_left ..) fun _ h => h).trans (hframe.mono (List.subset_append_right ..) fun _ h => h)
  case tap =>
    obtain ⟨hflag, hlogged, hframe⟩ := tapNoted_spec s p tap low
    refine ⟨_, exec_dfeTapAtLimit tap low hact hmode hin, hflag, hlogged, ?_, hframe⟩
    exact (hframe.rd (linkState_notMem_tapKeys p)).trans hact

end Sys2Proof.Machine
end

section
/-! SUPPORT. What letting frames out leaves of the link layer (spec/12_link_layer.md R287, R306, R311). -/
namespace Sys2Proof.Machine

/-- The link layer but for what it sends: the frames that wait, those unacknowledged, the latest one and when it left. -/
def SendsOnly (a b : LinkLayer) : Prop :=
  ∃ waiting retry wire sentAt, b = { a with waiting := waiting, retry := retry, wire := wire, sentAt := sentAt }

theorem SendsOnly.refl (a) : SendsOnly a a := ⟨a.waiting, a.retry, a.wire, a.sentAt, rfl⟩

theorem SendsOnly.trans {a b c} (h1 : SendsOnly a b) (h2 : SendsOnly b c) : SendsOnly a c := by
  obtain ⟨_, _, _, _, rfl⟩ := h1
  obtain ⟨w, r, x, y, rfl⟩ := h2
  exact ⟨w, r, x, y, rfl⟩

theorem sendsOnly_drainTx (l : List TxFrame) : ∀ s : State, SendsOnly s.ll (s.drainTx l).ll := by
  induction l with
  | nil => exact fun s => ⟨_, s.ll.retry, s.ll.wire, s.ll.sentAt, rfl⟩
  | cons f fs ih =>
    intro s
    unfold State.drainTx
    split
    · exact SendsOnly.trans ⟨s.ll.waiting, _, _, _, rfl⟩ (ih (s.txFrame f))
    · exact ⟨_, s.ll.retry, s.ll.wire, s.ll.sentAt, rfl⟩

theorem sendsOnly_llPump (s : State) : SendsOnly s.ll s.llPump.ll := sendsOnly_drainTx _ s

theorem sendsOnly_send (s : State) (f) : SendsOnly s.ll (s.send f).ll := by
  unfold State.send
  split
  · exact .refl _
  · exact SendsOnly.trans ⟨_, s.ll.retry, s.ll.wire, s.ll.sentAt, rfl⟩ (sendsOnly_llPump _)

theorem sendOnly_llPump (s : State) : SendOnly s s.llPump := sendOnly_drainTx _ (.refl s)

theorem sendOnly_putAck {s t : State} (ty reason) (h : SendOnly s t) : SendOnly s (t.putAck ty reason) := h.ll _

/-- The acknowledgements that wait go. -/
def State.acksOut (s : State) (l : List (Nat × Nat)) : State := s.each l (fun e s => s.putAck e.1 e.2)

theorem acksOut_sendOnly (s : State) (l) : SendOnly s (s.acksOut l) :=
  each_keeps (P := SendOnly s) l (fun e s => s.putAck e.1 e.2) (fun _ _ _ hu => sendOnly_putAck _ _ hu) (.refl s)

theorem acksOut_acksDue (s : State) (l) : (s.acksOut l).ll.acksDue = s.ll.acksDue :=
  each_keeps (P := fun u => u.ll.acksDue = s.ll.acksDue) l (fun e s => s.putAck e.1 e.2) (fun _ _ _ hu => hu) rfl

/-- No acknowledgement waits any more, and the transmitter is out of Idle. -/
def State.txWoken (s : State) : State := { s with ll := { s.ll with acksDue := [] } }.wr Reg.txIdle 0

theorem wakeTx_eq (s : State) : s.wakeTx = (s.txWoken.acksOut s.ll.acksDue).llPump := rfl

/-- Leaving Idle (R287). -/
theorem wakeTx_spec (s : State) : s.wakeTx.rd Reg.txIdle = 0 ∧ s.wakeTx.ll.acksDue = [] ∧ Frame (Reg.txIdle :: sendKeys) [] s s.wakeTx := by
  have hsend : SendOnly s.txWoken s.wakeTx := by
    rw [wakeTx_eq]
    exact (acksOut_sendOnly _ _).trans (sendOnly_llPump _)
  have hwoken : Frame (Reg.txIdle :: sendKeys) [] s s.txWoken := ((Frame.refl ..).ll _).wr _ _ (by simp)
  refine ⟨?_, ?_, hsend.frame (List.subset_cons_self ..) hwoken⟩
  · rw [hsend.rd (by decide)]
    exact rd_wr_of_lt _ (by decide)
  · rw [wakeTx_eq]
    obtain ⟨_, _, _, _, hll⟩ := sendsOnly_llPump (s.txWoken.acksOut s.ll.acksDue)
    rw [hll]
    exact acksOut_acksDue s.txWoken s.ll.acksDue

end Sys2Proof.Machine
end

section
/-! PROOF. Idle, Banked and waking of the link (spec/11_link_phy.md R287-R291, R301). -/
namespace Sys2Proof.Machine

theorem exec_idleEntry {s : State} (hact : s.rd Reg.linkState = Ls.active) (htx : s.rd Reg.txIdle = 0) (hnone : s.somethingToSend = false) :
    exec .idleEntry s = .next ((s.wr Reg.txIdle 1).bump Reg.idleEntries) :=
  if_pos (by simp [State.ls, hact, htx, hnone])

theorem exec_idleExit {s : State} (hact : s.rd Reg.linkState = Ls.active) (htx : s.rd Reg.txIdle = 1) (hsome : s.somethingToSend = true) :
    exec .idleExit s = .next s.wakeTx := if_pos (by simp [State.ls, hact, htx, hsome])

theorem exec_eiosRx {s : State} (hact : s.rd Reg.linkState = Ls.active) : exec .eiosRx s = .next (s.wr Reg.rxIdle 1) := if_pos hact

theorem exec_rxIdleExit {s : State} (hact : s.rd Reg.linkState = Ls.active) (hrx : s.rd Reg.rxIdle = 1) :
    exec .rxIdleExit s = .next (s.wr Reg.rxIdle 0) := if_pos (by simp [State.ls, hact, hrx])

theorem exec_idleExitLockTimeout {s : State} {p : Lane} (hact : s.rd Reg.linkState = Ls.active) (hin : s.laneIn p = true)
    (hrx : s.rd Reg.rxIdle = 0) : exec (.idleExitLockTimeout p) s = .next ((s.unlock p).fastRetrain 9) :=
  if_pos (by simp [wasActive_of_active hact, hin, hrx])

theorem exec_bankStart {s : State} (hact : s.rd Reg.linkState = Ls.active) (htx : s.rd Reg.txIdle = 1) (hrx : s.rd Reg.rxIdle = 1)
    (hok : s.bankOk = true) (hnone : s.somethingToSend = false) :
    exec .bankStart s = .next ({ s with phy := { s.phy with bnkOut := true, bnkIn := false } }.wr Reg.linkState Ls.banking) :=
  if_pos (by simp [State.ls, hact, htx, hrx, hok, hnone])

theorem exec_bnkRx {s : State} (h : s.rd Reg.linkState = Ls.banking ∨ (s.rd Reg.linkState = Ls.active ∧ s.bankOk = true)) :
    exec .bnkRx s = .next s.enterBanked := by
  have hexec : exec .bnkRx s = execBnkRx s := rfl
  rw [hexec]
  unfold execBnkRx State.ls
  rcases h with h | ⟨h, hok⟩
  · rw [if_pos h]
  · rw [if_neg (by rw [h]; decide), if_pos h, if_pos hok]

theorem exec_bnkRx_unasked {s : State} (hact : s.rd Reg.linkState = Ls.active) (hsent : s.phy.bankSent = false) :
    exec .bnkRx s = .next s.phyViolation := by
  have hexec : exec .bnkRx s = execBnkRx s := rfl
  rw [hexec]
  unfold execBnkRx State.ls
  rw [if_neg (by rw [hact]; decide), if_pos hact, if_neg (by simp [State.bankOk, hsent]), if_pos (by simp [hsent])]

theorem exec_bankNoAnswer {s : State} (h : s.rd Reg.linkState = Ls.banking) : exec .bankNoAnswer s = .next s.bankRefused := if_pos h

theorem exec_bankRefusalRx {s : State} (e : Bool) (h : s.rd Reg.linkState = Ls.banking) :
    exec (.bankRefusalRx e) s = .next (s.bankRefused.wr Reg.rxIdle (if e then 1 else 0)) := if_pos h

theorem exec_bankWake {s : State} {sig : Bool} (h : s.rd Reg.linkState = Ls.banked)
    (hwake : sig = true ∨ s.pads.b4 = true ∨ s.somethingToSend = true) : exec (.bankWake sig) s = .next s.linkWake :=
  if_pos (by simpa [State.ls, h, or_assoc] using hwake)

theorem exec_wakeComplete {s : State} (h : s.rd Reg.linkState = Ls.waking) :
    exec .wakeComplete s = .next ((s.wr Reg.linkState Ls.active).wr Reg.rxIdle 0).wakeTx := if_pos h

/-- A wake that failed is counted, flagged and logged (R289). -/
def State.wakeFailed (s : State) : State := ((s.bump Reg.bankWakeFails).flag Reg.phyFlags 7).event 0x3006

theorem exec_wakeFail {s : State} (h : s.rd Reg.linkState = Ls.waking) : exec .wakeFail s = .next (s.wakeFailed.fullTraining 7) := if_pos h

/-! ### What they leave -/

theorem bankRefused_spec (s : State) : s.bankRefused.rd Reg.linkState = Ls.active ∧ s.bankRefused.phy.bnkOut = false ∧
    Frame [Reg.linkState] [] s s.bankRefused :=
  ⟨rd_wr_of_lt _ (by decide), rfl, ((Frame.refl ..).phy _).wr _ _ (by simp)⟩

theorem enterBanked_spec (s : State) : s.enterBanked.rd Reg.linkState = Ls.banked ∧ Counts Reg.bankEntries s s.enterBanked ∧
    Frame [Reg.linkState, Reg.bankEntries] [] s s.enterBanked := by
  refine ⟨rd_wr_of_lt _ (by decide), ?_, (((Frame.refl ..).phy _).bump _ (by simp)).wr _ _ (by simp)⟩
  exact (State.rd_wr_ne _ _ (by decide)).trans (rd_bump ..)

theorem unlock_frame {K H s t} (p : Nat) (h : Frame K H s t) (hp : Reg.laneStatus p ∈ K) : Frame K H s (t.unlock p) :=
  (h.phy _).clearBits _ _ hp

theorem unlock_locked (s : State) (p : Nat) : ((s.unlock p).lane p).locked = false := by
  have hlane := lane_setLane s p { s.lane p with locked := false, acked := 0, ts2 := 0 } p
  rw [if_pos rfl] at hlane
  exact congrArg LaneRx.locked hlane

theorem unlock_dropped (s : State) (p : Nat) : (s.unlock p).dropped = s.dropped := rfl

theorem wakeFailed_spec (s : State) : Counts Reg.bankWakeFails s s.wakeFailed ∧ s.wakeFailed.bitOf Reg.phyFlags 7 = true ∧
    s.wakeFailed.dropped = s.dropped ∧ Frame (eventKeys ++ [Reg.bankWakeFails, Reg.phyFlags]) [] s s.wakeFailed := by
  refine ⟨?_, ?_, ?_, (((Frame.refl ..).bump _ (by simp)).flag _ _ (by simp)).event _ _ _ _ _ (List.subset_append_left ..)⟩
  · rw [Counts, State.wakeFailed, State.rd_event _ _ _ _ _ _ (by decide), rd_flag_ne _ _ (by decide), rd_bump]
  · exact (bitOf_of_rd 7 (State.rd_event _ _ _ _ _ _ (by decide))).trans (bitOf_flag _ (by decide))
  · have hclk : s.wakeFailed.clk = s.clk := State.event_clk ..
    have hphy : s.wakeFailed.phy = s.phy := State.event_phy ..
    rw [State.dropped, State.tick, hclk, hphy]
    rfl

/-- Settles O18. -/
theorem linkIdlesBanksAndWakes : Obligations.LinkIdlesBanksAndWakes := by
  refine ⟨fun s hact htx hnone => ?idleEntry, fun s hact htx hsome => ?idleExit, fun s hact => ?eios, fun s hact hrx => ?rxExit,
    fun s p hact hin hrx hdrop => ?lockTimeout, fun s hact htx hrx hok hnone => ?bankStart, fun s h => ?bnk,
    fun s hact hsent => ?unasked, fun s h => ?noAnswer, fun s e h => ?refusal, fun s sig h hwake => ?wake, fun s h => ?complete,
    fun s h hdrop => ?fail⟩
  case idleEntry =>
    refine ⟨_, exec_idleEntry hact htx hnone, ?_, ?_, ((Frame.refl ..).wr _ _ (by simp)).bump _ (by simp)⟩
    · exact (rd_bump_ne _ (by decide)).trans (rd_wr_of_lt _ (by decide))
    · rw [Counts, rd_bump, State.rd_wr_ne _ _ (by decide)]
  case idleExit => exact ⟨_, exec_idleExit hact htx hsome, wakeTx_spec s⟩
  case eios => exact ⟨_, exec_eiosRx hact, rd_wr_of_lt _ (by decide), (Frame.refl ..).wr _ _ (by simp)⟩
  case rxExit => exact ⟨_, exec_rxIdleExit hact hrx, rd_wr_of_lt _ (by decide), (Frame.refl ..).wr _ _ (by simp)⟩
  case lockTimeout =>
    have hunlock := unlock_frame p (Frame.refl (allLanes.map Reg.laneStatus) [] s) (mem_map_lanes _ (mem_lanes p))
    have hstate : (s.unlock p).rd Reg.linkState ≠ Ls.disabled := by
      rw [hunlock.rd (by decide)]
      exact not_disabled_of_active hact
    obtain ⟨hdrops, hcount, _, _, hframe, hfound⟩ := fastRetrain_spec (s := s.unlock p) (cause := 9) ((unlock_dropped s p).trans hdrop)
      hstate (by decide)
    obtain ⟨hlock, _⟩ := hfound p
    exact ⟨_, exec_idleExitLockTimeout hact hin hrx, hlock.trans (unlock_locked s p), hdrops.since (hunlock.rd (by decide)),
      hcount.since (hunlock.rd (by decide)), (hunlock.mono (List.subset_append_right ..) fun _ h => h).trans hframe⟩
  case bankStart =>
    exact ⟨_, exec_bankStart hact htx hrx hok hnone, rd_wr_of_lt _ (by decide), rfl, rfl, ((Frame.refl ..).phy _).wr _ _ (by simp)⟩
  case bnk => exact ⟨_, exec_bnkRx h, enterBanked_spec s⟩
  case unasked =>
    obtain ⟨hviol, hcount, hframe, _⟩ := phyViolation_spec s
    exact ⟨_, exec_bnkRx_unasked hact hsent, (hframe.rd (by decide)).trans hact, hcount, hviol, hframe⟩
  case noAnswer => exact ⟨_, exec_bankNoAnswer h, bankRefused_spec s⟩
  case refusal =>
    obtain ⟨hstate, _, hframe⟩ := bankRefused_spec s
    refine ⟨_, exec_bankRefusalRx e h, ?_, rd_wr_of_lt _ (by revert e; decide), (hframe.mono (by simp) fun _ h => h).wr _ _ (by simp)⟩
    exact (State.rd_wr_ne _ _ (by decide)).trans hstate
  case wake =>
    have heq : s.linkWake = { s with phy := { s.phy with bnkOut := false, bnkIn := false } }.wr Reg.linkState Ls.waking :=
      if_pos (by simp [h])
    refine ⟨_, exec_bankWake h hwake, ?_⟩
    rw [heq]
    exact ⟨rd_wr_of_lt _ (by decide), ((Frame.refl ..).phy _).wr _ _ (by simp)⟩
  case complete =>
    obtain ⟨htx, _, hframe⟩ := wakeTx_spec ((s.wr Reg.linkState Ls.active).wr Reg.rxIdle 0)
    refine ⟨_, exec_wakeComplete h, ?_, htx, ?_, ?_⟩
    · rw [hframe.rd (by decide), State.rd_wr_ne _ _ (by decide), rd_wr_of_lt _ (by decide)]
    · rw [hframe.rd (by decide), rd_wr_of_lt _ (by decide)]
    · exact (((Frame.refl ..).wr _ _ (by simp)).wr _ _ (by simp)).trans (hframe.mono (by decide) fun _ h => h)
  case fail =>
    obtain ⟨hcount, hflag, hsame, hpre⟩ := wakeFailed_spec s
    have hstate : s.wakeFailed.rd Reg.linkState ≠ Ls.disabled := by
      rw [hpre.rd (by decide), h]
      decide
    obtain ⟨hdrops, hfull, _, hframe⟩ := fullTraining_spec (s := s.wakeFailed) (cause := 7) (hsame.trans hdrop) hstate (by decide)
    exact ⟨_, exec_wakeFail h, hdrops.since (hpre.rd (by decide)), (hframe.rd (by decide)).trans hcount,
      (bitOf_of_rd 7 (hframe.rd (by decide))).trans hflag, hfull.since (hpre.rd (by decide)),
      (hpre.mono (by decide) fun _ h => h).trans (hframe.mono (by decide) fun _ h => h)⟩

end Sys2Proof.Machine
end

section
/-! PROOF. Lanes lock and training sets are taken (spec/11_link_phy.md R269, R271, R275-R277, R291, R293, R301). -/
namespace Sys2Proof.Machine

theorem lane_setLane_same (s : State) (p l) : (s.setLane p l).lane p = l := (lane_setLane ..).trans (if_pos rfl)

theorem Frame.setLane {K H s t} (p l) (h : Frame K H s t) : Frame K H s (t.setLane p l) := h.phy _

/-! ### The sets a lane has sent -/

theorem sendSets_rd (s : State) (p n k : Nat) : (s.sendSets p n).rd k = s.rd k := (trainOnly_sendSets s p n).rd k

theorem sendSets_frame (s : State) (p n : Nat) : Frame [] [] s (s.sendSets p n) := (trainOnly_sendSets s p n).frame (.refl ..)

/-- A lane that sends counts its sets, and those since the first acknowledgement or the first TS2. -/
theorem sendSets_lane {s : State} {p : Nat} (n : Nat) (h : s.sends p = true) :
    ((s.sendSets p n).lane p).sent = (s.lane p).sent + n ∧
    ((s.lane p).ackSeen = true → ((s.sendSets p n).lane p).sinceAck = (s.lane p).sinceAck + n) ∧
    ((s.lane p).gotTs2 ≠ 0 → ((s.sendSets p n).lane p).sinceTs2 = (s.lane p).sinceTs2 + n) ∧
    (n ≠ 0 → ((s.sendSets p n).lane p).set = s.ownSet p ((s.lane p).sent + n - 1)) := by
  by_cases hn : n = 0
  · subst hn
    exact ⟨rfl, fun _ => rfl, fun _ => rfl, fun h => absurd rfl h⟩
  · have heq : (s.sendSets p n).lane p = { s.lane p with
        sent := (s.lane p).sent + n, set := s.ownSet p ((s.lane p).sent + n - 1)
        sinceAck := if (s.lane p).ackSeen then (s.lane p).sinceAck + n else 0
        sinceTs2 := if (s.lane p).gotTs2 ≠ 0 then (s.lane p).sinceTs2 + n else 0 } := by
      unfold State.sendSets
      rw [if_neg (by simp [hn, h])]
      exact lane_setLane_same ..
    rw [heq]
    exact ⟨rfl, fun h => if_pos h, fun h => if_pos h, fun _ => rfl⟩

/-- The counts of received sets are no business of the sets sent. -/
theorem sendSets_counts (s : State) (p n : Nat) : ((s.sendSets p n).lane p).acked = (s.lane p).acked ∧
    ((s.sendSets p n).lane p).ackSeen = (s.lane p).ackSeen ∧ ((s.sendSets p n).lane p).ts2 = (s.lane p).ts2 ∧
    ((s.sendSets p n).lane p).gotTs2 = (s.lane p).gotTs2 := by
  unfold State.sendSets
  split
  · exact ⟨rfl, rfl, rfl, rfl⟩
  · have heq : ∀ l b, (({ s.setLane p l with phy := { (s.setLane p l).phy with bankSent := b } }) : State).lane p = l :=
      fun l _ => lane_setLane_same s p l
    rw [heq]
    exact ⟨rfl, rfl, rfl, rfl⟩

theorem sendSets_idle {s : State} {p : Nat} (n : Nat) (h : s.sends p = false) : s.sendSets p n = s := if_pos (by simp [h])

/-- Outside DETECT, ALIGN, EQ and CONFIRM no lane sends sets. -/
theorem sends_of_state {s : State} {st : Nat} (p : Nat) (hst : s.rd Reg.linkState = st)
    (hnot : st ≠ Ls.detect ∧ st ≠ Ls.align ∧ st ≠ Ls.eq ∧ st ≠ Ls.confirm) : s.sends p = false := by
  simp [State.sends, hst, hnot]

/-! ### What is done with a set -/

/-- The octets of a set as numbers. -/
def octets (b : List Byte) : List Nat := b.map (·.toNat)

theorem octets_getD (b : List Byte) (i : Nat) : (octets b).getD i 0 = (b.getD i 0).toNat := by
  unfold octets
  rw [List.getD_eq_getElem?_getD, List.getD_eq_getElem?_getD, List.getElem?_map]
  cases b[i]? <;> rfl

/-- A set that came well on a lane in use, in a state that takes sets. -/
theorem exec_trainingSetRx {s : State} {p : Lane} {b : List Byte} (n : Nat) (early : Bool) (hon : s.laneOn p = true)
    (hlocked : (s.lane p).locked = true) (hlen : b.length = 16)
    (hstate : s.rd Reg.linkState ∈ [Ls.detect, Ls.align, Ls.eq, Ls.confirm, Ls.active]) :
    exec (.trainingSetRx p b ⟨true, n, early⟩) s = .next ((s.sendSets p n).takeSet p (octets b)) := by
  have hexec : exec (.trainingSetRx p b ⟨true, n, early⟩) s = execTrainingSetRx p b ⟨true, n, early⟩ s := rfl
  have hls : (s.sendSets p n).ls = s.rd Reg.linkState := sendSets_rd ..
  have hon' : (s.sendSets p n).laneOn p = true := (bitOf_of_rd p (sendSets_rd ..)).trans hon
  have hlocked' : ((s.sendSets p n).lane p).locked = true := (foundKept_sendSets s p n p).1.trans hlocked
  have hrate : s.rd Reg.linkState ≠ Ls.rateChange := fun h => by
    rw [h] at hstate
    exact absurd hstate (by decide)
  rw [hexec]
  unfold execTrainingSetRx
  dsimp only
  rw [if_neg (by simp [hls, hrate]), if_neg (by rw [hon', hls, List.contains_iff_mem.mpr hstate]; decide), if_neg (by simp [hlocked', hlen])]
  rfl

/-- One that says it comes from a keeper (R301). -/
theorem takeSet_keeper {s : State} {p : Nat} {b : List Nat} (hid : b.getD 1 0 = 0x4A) (hrange : setInRange b = true)
    (hrole : b.getD 9 0 = 1) : s.takeSet p b = (s.badSet p).roleConflict p := by
  have h3 : ¬(!setInRange b) = true := by rw [hrange]; decide
  unfold State.takeSet
  dsimp only
  rw [if_neg (by rw [hid]; decide), if_neg (by rw [hid]; decide), if_neg h3, if_pos hrole]

/-- One that is inverted (R276). -/
theorem takeSet_inverted {s : State} {p : Nat} {b : List Nat} (hid : b.getD 1 0 = 0xB5) : s.takeSet p b = (s.badSet p).invert p := by
  unfold State.takeSet
  dsimp only
  rw [if_pos (by rw [hid]; decide)]

/-! ### What a valid set leaves -/

/-- The registers that tell of the partner. -/
def partnerKeys : List Nat := [Reg.partnerRates, Reg.partnerWidths, Reg.partnerBank]

theorem notePartner_frame {K H s t} (b) (h : Frame K H s t) (hK : partnerKeys ⊆ K) : Frame K H s (t.notePartner b) :=
  (((h.phy _).wr _ _ (hK (by decide))).wr _ _ (hK (by decide))).wr _ _ (hK (by decide))

theorem notePartner_lane (s : State) (b) (p) : (s.notePartner b).lane p = s.lane p := by
  simp [State.notePartner, State.lane]

theorem notePartner_phy (s : State) (b : List Nat) :
    (s.notePartner b).phy = { s.phy with heard := true, reqRate := b.getD 5 0, reqWidth := b.getD 6 0 } := by
  simp [State.notePartner]

theorem notePartner_rates (s : State) (b : List Nat) : (s.notePartner b).rd Reg.partnerRates = b.getD 3 0 % 32 := by
  unfold State.notePartner
  dsimp only
  rw [State.rd_wr_ne _ _ (by decide), State.rd_wr_ne _ _ (by decide), rd_wr_of_lt]
  exact (Nat.mod_lt _ (by decide)).trans_le (by decide)

theorem countSet_trainOnly (s : State) (p b) : TrainOnly s (s.countSet p b) := trainOnly_setLane s p _

/-- A lane after a valid set, in the terms of the state before it. -/
theorem countSet_lane (s : State) (p : Nat) (b : List Nat) : (s.countSet p b).lane p =
    let l := { s.lane p with num := some (b.getD 2 0), echo := if b.getD 8 0 ≤ 3 then some (b.getD 8 0) else none }
    let ack := decide (b.getD 1 0 = 0x4A) && (b.getD 7 0).testBit 0 && s.ls = Ls.align
    let two := !decide (b.getD 1 0 = 0x4A) && s.ls = Ls.confirm
    { l with
      acked := if ack then l.acked + 1 else 0, ackSeen := l.ackSeen || ack
      ts2 := if two && b.getD 5 0 = s.phy.rate && b.getD 6 0 = s.phy.width then l.ts2 + 1 else 0
      gotTs2 := l.gotTs2 + (if two then 1 else 0) } := lane_setLane_same ..

theorem notedSet_ls (s : State) (p : Nat) (b : List Nat) : ((s.notePartner b).countSet p b).ls = s.ls := by
  unfold State.ls
  rw [(countSet_trainOnly _ p b).rd, (notePartner_frame b (Frame.refl partnerKeys [] s) fun _ h => h).rd (by decide)]

/-- A set that names its fields well and is the host's: what the lane has of it, and what the state makes of it. -/
theorem takeSet_valid {s : State} {p : Nat} {b : List Nat} (hid : b.getD 1 0 = 0x4A ∨ b.getD 1 0 = 0x45) (hrange : setInRange b = true)
    (hrole : b.getD 9 0 = 2) : s.takeSet p b =
      if s.ls = Ls.active then (if b.getD 1 0 = 0x4A then s.fastRetrain 4 else s)
      else if s.ls = Ls.detect && b.getD 1 0 = 0x4A then ((s.notePartner b).countSet p b).wr Reg.linkState Ls.align
      else ((s.notePartner b).countSet p b).checkEchoes := by
  have h1 : ¬(b.getD 1 0 = 0xB5 || b.getD 1 0 = 0xBA) = true := by rcases hid with h | h <;> (rw [h]; decide)
  have h2 : ¬(b.getD 1 0 ≠ 0x4A && b.getD 1 0 ≠ 0x45) = true := by rcases hid with h | h <;> (rw [h]; decide)
  have h3 : ¬(!setInRange b) = true := by rw [hrange]; decide
  unfold State.takeSet
  dsimp only
  rw [if_neg h1, if_neg h2, if_neg h3, if_neg (by rw [hrole]; decide), if_neg (not_not_intro hrole), notedSet_ls]

/-- The state that a valid set is noted in. -/
theorem notedSet_spec (s : State) (p : Nat) (b : List Nat) : ((s.notePartner b).countSet p b).phy.reqRate = b.getD 5 0 ∧
    ((s.notePartner b).countSet p b).phy.reqWidth = b.getD 6 0 ∧ ((s.notePartner b).countSet p b).rd Reg.partnerRates = b.getD 3 0 % 32 ∧
    Frame partnerKeys [] s ((s.notePartner b).countSet p b) := by
  have htrain := countSet_trainOnly (s.notePartner b) p b
  refine ⟨?_, ?_, (htrain.rd _).trans (notePartner_rates s b), htrain.frame (notePartner_frame b (.refl ..) fun _ h => h)⟩
  all_goals
    obtain ⟨_, _, _, h⟩ := htrain
    rw [h, notePartner_phy]

/-- A lane but for its echo. -/
def EchoOnly (s t : State) : Prop := ∀ p, { t.lane p with echo := none } = { s.lane p with echo := none }

theorem checkEchoes_frame {K H s t} (h : Frame K H s t) (hrev : Reg.txReversed ∈ K) (hflags : Reg.phyFlags ∈ K) :
    Frame K H s t.checkEchoes := by
  unfold State.checkEchoes
  exact .ite (fun _ => .each _ _ (fun p u hu => hu.setLane p _) ((h.wr _ _ hrev).flag _ _ hflags)) fun _ => h

theorem checkEchoes_echoOnly (s : State) : EchoOnly s s.checkEchoes := by
  unfold State.checkEchoes
  extract_lets ls rev
  split
  · refine each_keeps (P := EchoOnly s) ls _ (fun p _ u hu q => ?_) fun _ => rfl
    rw [lane_setLane]
    split
    · next e => exact e ▸ hu p
    · exact hu q
  · exact fun _ => rfl

theorem checkEchoes_of_state {s : State} (h : s.ls ≠ Ls.align) : s.checkEchoes = s := by
  unfold State.checkEchoes
  exact if_neg (by simp [h])

/-! ### Lock, inversion, a wrong role -/

theorem exec_symbolLock {s : State} {p : Lane} (hdis : s.rd Reg.linkState ≠ Ls.disabled) (hbank : s.rd Reg.linkState ≠ Ls.banked)
    (hon : s.laneOn p = true) (hnot : (s.lane p).locked = false) :
    exec (.symbolLock p) s = .next ((s.setLane p { s.lane p with locked := true }).flag (Reg.laneStatus p) 0) :=
  if_neg (by simp [State.ls, hdis, hbank, hon, hnot])

/-- A lane's lock is lost and counted (R269). -/
def State.lockLost (s : State) (p : Nat) : State := (s.unlock p).bump (Reg.lockLosses p)

theorem lane_of_phy {s t : State} (h : t.phy = s.phy) (p) : t.lane p = s.lane p := by rw [State.lane, h, State.lane]

/-- The registers of a lane's lock are none of the link's, of an event's, of a retrain's. -/
theorem lockKeys_facts : ∀ p : Lane,
    (∀ k ∈ [Reg.linkState, Reg.linkDowns, Reg.fastRetrains, Reg.laneLogical p], k ∉ [Reg.laneStatus p, Reg.lockLosses p]) ∧
    Reg.lockLosses p ∉ downKeys ++ [Reg.fastRetrains] ++ allLanes.map Reg.laneStatus ∧ Reg.laneStatus p ∉ eventKeys ∧
    Reg.laneStatus p ≠ Reg.phyFlags ∧ Reg.eventSeq ≠ Reg.laneStatus p ∧ 2 < 8 * sizeAt (Reg.laneStatus p) := by decide

theorem laneStatus_ne_lockLosses (p : Nat) : Reg.laneStatus p ≠ Reg.lockLosses p := by
  simp only [Reg.laneStatus, Reg.lockLosses, rkey]
  omega

theorem lockLost_spec (s : State) (p : Nat) : ((s.lockLost p).lane p).locked = false ∧ (s.lockLost p).bitOf (Reg.laneStatus p) 0 = false ∧
    Counts (Reg.lockLosses p) s (s.lockLost p) ∧ Frame [Reg.laneStatus p, Reg.lockLosses p] [] s (s.lockLost p) := by
  have hne := laneStatus_ne_lockLosses p
  have hunlock := unlock_frame p (Frame.refl [Reg.laneStatus p] [] s) (by simp)
  refine ⟨?_, ?_, ?_, (hunlock.mono (by simp) fun _ h => h).bump _ (by simp)⟩
  · have hphy : (s.lockLost p).phy = (s.unlock p).phy := State.bump_phy ..
    rw [lane_of_phy hphy]
    exact unlock_locked s p
  · exact (bitOf_of_rd 0 (rd_bump_ne _ hne)).trans (bitOf_clearBits (s.setLane p { s.lane p with locked := false, acked := 0, ts2 := 0 }) _ 0)
  · rw [Counts, State.lockLost, rd_bump, hunlock.rd (by simp [hne.symm])]

theorem exec_lockLoss {s : State} {p : Lane} (hlocked : (s.lane p).locked = true) :
    exec (.lockLoss p) s = .next (if (s.lockLost p).wasActive && (s.lockLost p).laneIn p then (s.lockLost p).fastRetrain 1 else s.lockLost p) :=
  if_neg (by simp [hlocked])

/-- Losing a lock leaves whether the link was in use. -/
theorem lockLost_wasActive (s : State) (p : Lane) : (s.lockLost p).wasActive = s.wasActive ∧ (s.lockLost p).dropped = s.dropped ∧
    (s.lockLost p).laneIn p = s.laneIn p := by
  obtain ⟨_, _, _, hframe⟩ := lockLost_spec s p
  obtain ⟨hnot, _⟩ := lockKeys_facts p
  have hstate : (s.lockLost p).rd Reg.linkState = s.rd Reg.linkState := hframe.rd (hnot _ (by simp))
  have hplace : (s.lockLost p).rd (Reg.laneLogical p) = s.rd (Reg.laneLogical p) := hframe.rd (hnot _ (by simp))
  refine ⟨?_, rfl, ?_⟩
  · rw [State.wasActive, State.wasActive, hstate]
    rfl
  · rw [State.laneIn, State.laneIn, hplace]

theorem badSet_frame {K H s t} (p) (h : Frame K H s t) : Frame K H s (t.badSet p) := h.setLane p _

theorem badSet_lane (s : State) (p) : (s.badSet p).lane p = { s.lane p with acked := 0, ts2 := 0 } := lane_setLane_same ..

/-- A lane found inverted (R276). -/
theorem invert_spec {s : State} {p : Lane} (hnot : (s.lane p).inverted = false) :
    ((s.invert p).lane p).inverted = true ∧ ((s.invert p).lane p).acked = (s.lane p).acked ∧
    (s.invert p).bitOf (Reg.laneStatus p) 2 = true ∧ (s.invert p).bitOf Reg.phyFlags 2 = true ∧ Creates 0x3003 s (s.invert p) ∧
    Frame (eventKeys ++ [Reg.laneStatus p, Reg.phyFlags]) [] s (s.invert p) := by
  have heq : s.invert p = (((s.setLane p { s.lane p with inverted := true }).flag (Reg.laneStatus p) 2).flag Reg.phyFlags 2).event 0x3003 p 1 :=
    if_neg (by simp [hnot])
  have hlane : (s.invert p).lane p = { s.lane p with inverted := true } := by
    rw [heq, State.lane, State.event_phy]
    exact lane_setLane_same s p _
  obtain ⟨_, _, hevent, hflags, hseq, hsize⟩ := lockKeys_facts p
  refine ⟨by rw [hlane], by rw [hlane], ?_, ?_, heq ▸ ⟨_, _, _, _, _, rfl, ?_⟩, ?_⟩
  · rw [heq, bitOf_of_rd 2 (State.rd_event _ _ _ _ _ _ hevent), bitOf_of_rd 2 (rd_flag_ne _ _ hflags)]
    exact bitOf_flag _ hsize
  · rw [heq, bitOf_of_rd 2 (State.rd_event _ _ _ _ _ _ (by decide))]
    exact bitOf_flag _ (by decide)
  · rw [rd_flag_ne _ _ (by decide), rd_flag_ne _ _ hseq]
    rfl
  · rw [heq]
    exact ((((Frame.refl ..).setLane p _).flag _ _ (by simp)).flag _ _ (by simp)).event _ _ _ _ _ (List.subset_append_left ..)

/-- A set of a keeper keeps training in ALIGN, and is a violation (R301). -/
theorem roleConflict_spec (s : State) (p : Nat) : (s.roleConflict p).phy.role = true ∧ Counts Reg.phyViolations s (s.roleConflict p) ∧
    Violates 0 Vc.phy s (s.roleConflict p) ∧ Frame (violKeys 0 ++ [Reg.phyViolations, Reg.phyFlags]) [] s (s.roleConflict p) := by
  let u := { s with phy := { s.phy with role := true, roleLogged := true } }
  obtain ⟨hviol, hcount, hframe, honly⟩ := phyViolation_spec u
  have hrole : u.phyViolation.phy.role = true := by
    obtain ⟨_, _, _, _, _, _, _, h⟩ := honly
    rw [h]
  have hpre : Frame (violKeys 0 ++ [Reg.phyViolations, Reg.phyFlags]) [] s u.phyViolation :=
    ((Frame.refl ..).phy _).trans (hframe.mono (by decide) fun _ h => h)
  have heq : s.roleConflict p = if !s.phy.roleLogged then (u.phyViolation.flag Reg.phyFlags 8).event 0x3007 p 1 else u.phyViolation := rfl
  rw [heq]
  split
  · have hafter : Frame (Reg.phyFlags :: eventKeys) [] u.phyViolation ((u.phyViolation.flag Reg.phyFlags 8).event 0x3007 p 1) :=
      ((Frame.refl ..).flag _ _ (by simp)).event _ _ _ _ _ (List.subset_cons_self ..)
    exact ⟨(congrArg Phy.role (State.event_phy ..)).trans hrole, (hafter.rd (by decide)).trans hcount,
      hviol.after hafter (by decide) (by decide), hpre.trans (hafter.mono (by decide) fun _ h => h)⟩
  · exact ⟨hrole, hcount, hviol, hpre⟩

/-! ### The obligation -/

theorem exec_trainingSetRx_unclean {s : State} {p : Lane} (b : List Byte) (n : Nat) (early : Bool) (hon : s.laneOn p = true)
    (hconf : s.rd Reg.linkState = Ls.confirm) : exec (.trainingSetRx p b ⟨false, n, early⟩) s = .next ((s.sendSets p n).badSet p) := by
  have hexec : exec (.trainingSetRx p b ⟨false, n, early⟩) s = execTrainingSetRx p b ⟨false, n, early⟩ s := rfl
  have hls : (s.sendSets p n).ls = Ls.confirm := (sendSets_rd ..).trans hconf
  have hon' : (s.sendSets p n).laneOn p = true := (bitOf_of_rd p (sendSets_rd ..)).trans hon
  rw [hexec]
  unfold execTrainingSetRx
  dsimp only
  rw [hls, hon', if_neg (by simp [Ls.confirm, Ls.rateChange]), if_neg (by decide)]
  exact if_pos rfl

theorem exec_trainingSetRx_early {s : State} {p : Lane} (b : List Byte) (clean : Bool) (n : Nat) (hon : s.laneOn p = true)
    (hrate : s.rd Reg.linkState = Ls.rateChange) : exec (.trainingSetRx p b ⟨clean, n, true⟩) s = .next (s.sendSets p n).phyViolation := by
  have hls : (s.sendSets p n).ls = Ls.rateChange := (sendSets_rd ..).trans hrate
  have hon' : (s.sendSets p n).laneOn p = true := (bitOf_of_rd p (sendSets_rd ..)).trans hon
  exact if_pos (by simp [hls, hon'])

/-- What a fast retrain may change, with one register more. -/
theorem retrainKeys_subset (k : Nat) : downKeys ++ [Reg.fastRetrains] ++ allLanes.map Reg.laneStatus ⊆
    downKeys ++ [k, Reg.fastRetrains] ++ allLanes.map Reg.laneStatus :=
  List.append_subset.mpr ⟨List.append_subset.mpr ⟨List.subset_append_of_subset_left _ (List.subset_append_left ..), by simp⟩,
    List.subset_append_right ..⟩

/-- Settles O16: a set that came well is `takeSet`, which `takeSet_valid`, `takeSet_inverted` and `takeSet_keeper` tell apart. -/
theorem trainingSetsAreTaken : Obligations.TrainingSetsAreTaken := by
  refine ⟨fun s p hdis hbank hon hnot => ?lock, fun s p hlocked hidle => ?loss, fun s p hlocked hact hin hdrop => ?lossActive,
    fun s p b n early hon hlocked hlen hid hrange hrole hdet => ?detect,
    fun s p b n early hon hlocked hlen hid hrange hrole hack hal => ?align,
    fun s p b n early hon hlocked hlen hid hrange hrole hact hdrop => ?active,
    fun s p b n early hon hlocked hinv hlen hid hal => ?inverted,
    fun s p b n early hon hlocked hlen hid hrange hrole hal => ?keeper,
    fun s p b n early hon hconf => ?unclean,
    fun s p b n early hon hlocked hlen hid hrange hrole hconf hrate hwidth => ?confirm,
    fun s p b clean n hon hrate => ?early⟩
  case lock =>
    have hsize : 0 < 8 * sizeAt (Reg.laneStatus p) := by clear hon hnot; revert p; decide
    refine ⟨_, exec_symbolLock hdis hbank hon hnot, ?_, bitOf_flag _ hsize, ((Frame.refl ..).setLane p _).flag _ _ (by simp)⟩
    rw [lane_of_phy (State.flag_phy ..), lane_setLane_same]
  case loss =>
    obtain ⟨hwas, _, _⟩ := lockLost_wasActive s p
    refine ⟨s.lockLost p, ?_, lockLost_spec s p⟩
    rw [exec_lockLoss hlocked, if_neg (by simp [hwas, hidle])]
  case lossActive =>
    obtain ⟨hlock, _, hcount, hpre⟩ := lockLost_spec s p
    obtain ⟨hwas, hsame, hplace⟩ := lockLost_wasActive s p
    obtain ⟨hnot, hlosses, _⟩ := lockKeys_facts p
    have hstate : (s.lockLost p).rd Reg.linkState ≠ Ls.disabled := by
      rw [hpre.rd (hnot _ (by simp))]
      exact not_disabled_of_active hact
    obtain ⟨hdrops, hretrain, hfast, hup, hframe, hfound⟩ := fastRetrain_spec (s := s.lockLost p) (cause := 1) (hsame.trans hdrop) hstate
      (by decide)
    obtain ⟨hkept, _⟩ := hfound p
    refine ⟨(s.lockLost p).fastRetrain 1, ?_, hkept.trans hlock, (hframe.rd hlosses).trans hcount, hretrain.since (hpre.rd (hnot _ (by simp))),
      hfast, hdrops.since (hpre.rd (hnot _ (by simp))), hup, ?_⟩
    · rw [exec_lockLoss hlocked, if_pos (by simp [hwas, hplace, hin, wasActive_of_active hact])]
    · refine (hpre.mono ?_ fun _ h => h).trans (hframe.mono ?_ fun _ h => h)
      · simp [mem_map_lanes Reg.laneStatus (mem_lanes p)]
      · exact retrainKeys_subset _
  case detect =>
    have hls : (s.sendSets p n).ls = Ls.detect := (sendSets_rd ..).trans hdet
    have hid' : (octets b).getD 1 0 = 0x4A := by rw [octets_getD, hid]; rfl
    have hrole' : (octets b).getD 9 0 = 2 := by rw [octets_getD, hrole]; rfl
    obtain ⟨hrate, hwidth, hrates, hframe⟩ := notedSet_spec (s.sendSets p n) p (octets b)
    have hlane := countSet_lane ((s.sendSets p n).notePartner (octets b)) p (octets b)
    refine ⟨(((s.sendSets p n).notePartner (octets b)).countSet p (octets b)).wr Reg.linkState Ls.align, ?_, ?_⟩
    · rw [exec_trainingSetRx n early hon hlocked hlen (by rw [hdet]; decide), takeSet_valid (.inl hid') hrange hrole', hls,
        if_neg (by decide), if_pos (by rw [hid']; decide)]
    · dsimp only
      rw [lane_of_phy (State.wr_phy ..), hlane, State.wr_phy, hrate, hwidth, rd_wr_of_lt _ (by decide),
        State.rd_wr_ne _ _ (by decide), hrates]
      simp only [octets_getD]
      exact ⟨trivial, trivial, trivial, trivial, trivial,
        (((sendSets_frame s p n).mono (List.nil_subset _) fun _ h => h).trans (hframe.mono (by decide) fun _ h => h)).wr _ _ (by decide)⟩
  case align =>
    have hls : (s.sendSets p n).ls = Ls.align := (sendSets_rd ..).trans hal
    have hid' : (octets b).getD 1 0 = 0x4A := by rw [octets_getD, hid]; rfl
    have hrole' : (octets b).getD 9 0 = 2 := by rw [octets_getD, hrole]; rfl
    have hack' : ((octets b).getD 7 0).testBit 0 = true := by rw [octets_getD]; exact hack
    have hsends : s.sends p = true := by simp [State.sends, hon, hal]
    obtain ⟨hsent, hsince, _, hset⟩ := sendSets_lane n hsends
    obtain ⟨hacked, hseen, _, _⟩ := sendSets_counts s p n
    obtain ⟨_, _, _, hframe⟩ := notedSet_spec (s.sendSets p n) p (octets b)
    have hlane := countSet_lane ((s.sendSets p n).notePartner (octets b)) p (octets b)
    have hnote : ((s.sendSets p n).notePartner (octets b)).ls = Ls.align :=
      ((notePartner_frame (octets b) (Frame.refl partnerKeys [] _) fun _ h => h).rd (by decide)).trans hls
    simp only [hid', hack', hnote, notePartner_lane, decide_true, Bool.and_self, Bool.or_true, if_true, hacked] at hlane
    have hecho := checkEchoes_echoOnly (((s.sendSets p n).notePartner (octets b)).countSet p (octets b)) p
    rw [hlane] at hecho
    have hall := checkEchoes_frame (K := [Reg.partnerRates, Reg.partnerWidths, Reg.partnerBank, Reg.txReversed, Reg.phyFlags])
      (((sendSets_frame s p n).mono (List.nil_subset _) fun _ h => h).trans (hframe.mono (by decide) fun _ h => h)) (by simp) (by simp)
    refine ⟨(((s.sendSets p n).notePartner (octets b)).countSet p (octets b)).checkEchoes, ?_, (hall.rd (by decide)).trans hal,
      congrArg LaneRx.acked hecho, congrArg LaneRx.ackSeen hecho, fun h => (congrArg LaneRx.sinceAck hecho).trans (hsince h), ?_,
      (congrArg LaneRx.sent hecho).trans hsent, fun h => (congrArg LaneRx.set hecho).trans (hset h), hall⟩
    · rw [exec_trainingSetRx n early hon hlocked hlen (by rw [hal]; decide), takeSet_valid (.inl hid') hrange hrole', hls,
        if_neg (by decide), if_neg (by rw [hid']; decide)]
    · refine (congrArg LaneRx.num hecho).trans ?_
      rw [octets_getD]
  case active =>
    have hidle := sendSets_idle n (sends_of_state p hact (by decide))
    have hid' : (octets b).getD 1 0 = 0x4A := by rw [octets_getD, hid]; rfl
    have hrole' : (octets b).getD 9 0 = 2 := by rw [octets_getD, hrole]; rfl
    obtain ⟨hdrops, hcount, _, _, hframe, _⟩ := fastRetrain_spec (cause := 4) hdrop (not_disabled_of_active hact) (by decide)
    have hls : s.ls = Ls.active := hact
    refine ⟨s.fastRetrain 4, ?_, hdrops, hcount, hframe⟩
    rw [exec_trainingSetRx n early hon hlocked hlen (by rw [hact]; decide), hidle, takeSet_valid (.inl hid') hrange hrole', if_pos hls,
      if_pos hid']
  case inverted =>
    have hid' : (octets b).getD 1 0 = 0xB5 := by rw [octets_getD, hid]; rfl
    have hlane := badSet_lane (s.sendSets p n) p
    obtain ⟨_, _, hsame⟩ := foundKept_sendSets s p n p
    have hnot : (((s.sendSets p n).badSet p).lane p).inverted = false := by rw [hlane]; exact hsame.trans hinv
    obtain ⟨hdone, hacked, hstatus, hflag, hcreates, hframe⟩ := invert_spec hnot
    have hpre : Frame [] [] s ((s.sendSets p n).badSet p) := badSet_frame p (sendSets_frame s p n)
    refine ⟨((s.sendSets p n).badSet p).invert p, ?_, hdone, ?_, hstatus, hflag, hcreates.of_rd (hpre.rd (by decide)),
      (hpre.mono (List.nil_subset _) fun _ h => h).trans hframe⟩
    · rw [exec_trainingSetRx n early hon hlocked hlen (by rw [hal]; decide), takeSet_inverted hid']
    · rw [hacked, hlane]
  case keeper =>
    have hid' : (octets b).getD 1 0 = 0x4A := by rw [octets_getD, hid]; rfl
    have hrole' : (octets b).getD 9 0 = 1 := by rw [octets_getD, hrole]; rfl
    obtain ⟨hkept, hcount, hviol, hframe⟩ := roleConflict_spec ((s.sendSets p n).badSet p) p
    have hpre : Frame [] [] s ((s.sendSets p n).badSet p) := badSet_frame p (sendSets_frame s p n)
    refine ⟨((s.sendSets p n).badSet p).roleConflict p, ?_, hkept, ?_, hcount.since (hpre.rd (by decide)),
      hviol.since (hpre.rd (by simp)) (hpre.rd (by simp)), (hpre.mono (List.nil_subset _) fun _ h => h).trans hframe⟩
    · rw [exec_trainingSetRx n early hon hlocked hlen (by rw [hal]; decide), takeSet_keeper hid' hrange hrole']
    · exact (hframe.rd (by decide)).trans ((hpre.rd (by decide)).trans hal)
  case unclean =>
    have hlane := badSet_lane (s.sendSets p n) p
    exact ⟨_, exec_trainingSetRx_unclean b n early hon hconf, congrArg LaneRx.acked hlane, congrArg LaneRx.ts2 hlane,
      badSet_frame p (sendSets_frame s p n)⟩
  case confirm =>
    have hls : (s.sendSets p n).ls = Ls.confirm := (sendSets_rd ..).trans hconf
    have hid' : (octets b).getD 1 0 = 0x45 := by rw [octets_getD, hid]; rfl
    have hrole' : (octets b).getD 9 0 = 2 := by rw [octets_getD, hrole]; rfl
    obtain ⟨_, _, hts2, hgot⟩ := sendSets_counts s p n
    obtain ⟨_, _, _, hframe⟩ := notedSet_spec (s.sendSets p n) p (octets b)
    have hlane := countSet_lane ((s.sendSets p n).notePartner (octets b)) p (octets b)
    have hnote : ((s.sendSets p n).notePartner (octets b)).ls = Ls.confirm :=
      ((notePartner_frame (octets b) (Frame.refl partnerKeys [] _) fun _ h => h).rd (by decide)).trans hls
    have hphy : ((s.sendSets p n).notePartner (octets b)).phy.rate = s.phy.rate ∧
        ((s.sendSets p n).notePartner (octets b)).phy.width = s.phy.width := by
      obtain ⟨_, _, _, hsend⟩ := trainOnly_sendSets s p n
      rw [notePartner_phy, hsend]
      exact ⟨rfl, rfl⟩
    refine ⟨((s.sendSets p n).notePartner (octets b)).countSet p (octets b), ?_, ?_, ?_, fun hgot' hsends => ?_,
      ((sendSets_frame s p n).mono (List.nil_subset _) fun _ h => h).trans hframe⟩
    · rw [exec_trainingSetRx n early hon hlocked hlen (by rw [hconf]; decide), takeSet_valid (.inr hid') hrange hrole', hls,
        if_neg (by decide), if_neg (by rw [hid']; decide), checkEchoes_of_state (by rw [notedSet_ls, hls]; decide)]
    · rw [hlane]
      simp [hid', hnote, hphy, (octets_getD b 5).trans hrate, (octets_getD b 6).trans hwidth, notePartner_lane, hts2,
        -List.getD_eq_getElem?_getD]
    · rw [hlane]
      simp [hid', hnote, notePartner_lane, hgot, -List.getD_eq_getElem?_getD]
    · obtain ⟨_, _, hsince, _⟩ := sendSets_lane n hsends
      rw [hlane]
      simp only [notePartner_lane]
      exact hsince hgot'
  case early =>
    have hidle := sendSets_idle n (sends_of_state p hrate (by decide))
    obtain ⟨hviol, hcount, hframe, _⟩ := phyViolation_spec s
    refine ⟨s.phyViolation, ?_, (hframe.rd (by decide)).trans hrate, hcount, hviol, hframe⟩
    rw [exec_trainingSetRx_early b clean n hon hrate, hidle]

end Sys2Proof.Machine
end

section
/-! SUPPORT. What the steps of a training leave: the lanes of a width, a session's beginning, scans that are dropped
(spec/11_link_phy.md R277-R281, R300; spec/12_link_layer.md R314). -/
namespace Sys2Proof.Machine

/-- What is done for each element stands for each, where what is done for another leaves it. -/
theorem each_stands {α : Type} {P : State → Prop} (Q : α → State → Prop) (l : List α) (f : α → State → State)
    (hP : ∀ a ∈ l, ∀ u, P u → P (f a u)) (hset : ∀ a ∈ l, ∀ u, P u → Q a (f a u))
    (hkeep : ∀ a ∈ l, ∀ b, ∀ u, P u → Q b u → Q b (f a u)) {s : State} (h : P s) : ∀ b ∈ l, Q b (s.each l f) := by
  unfold State.each
  induction l generalizing s with
  | nil => exact fun _ hb => absurd hb (by simp)
  | cons a l ih =>
    intro b hb
    have hrest := ih (fun c hc => hP c (.tail _ hc)) (fun c hc => hset c (.tail _ hc)) (fun c hc => hkeep c (.tail _ hc))
      (hP a (.head _) s h)
    rcases List.mem_cons.mp hb with rfl | hb
    · have hfirst := each_keeps (P := fun u => P u ∧ Q b u) l f
        (fun c hc u hu => ⟨hP c (.tail _ hc) u hu.1, hkeep c (.tail _ hc) b u hu.1 hu.2⟩) (s := f b s) ⟨hP b (.head _) s h, hset b (.head _) s h⟩
      exact hfirst.2
    · exact hrest b hb

/-! ### The lanes of a width (R277, R279) -/

theorem numbered_lane {s : State} {e : Nat × Nat} (h : e ∈ s.numbered) : e.1 ∈ allLanes := by
  unfold State.numbered at h
  obtain ⟨p, hp, he⟩ := List.mem_filterMap.mp h
  split at he
  · obtain ⟨n, _, rfl⟩ := Option.map_eq_some_iff.mp he
    exact hp
  · exact absurd he (by simp)

/-- A logical lane is read from a lane that there is. -/
theorem physOf_lane {s : State} {l p : Nat} (h : s.physOf l = some p) : p ∈ allLanes := by
  unfold State.physOf at h
  dsimp only at h
  generalize (if s.rxRev = true then 3 - l else l) = q at h
  obtain ⟨hany, hp⟩ := Option.ite_none_right_eq_some.mp h
  obtain ⟨e, he, hep⟩ := List.any_eq_true.mp hany
  simp only [Bool.and_eq_true, decide_eq_true_eq] at hep
  rw [← Option.some.inj hp, ← hep.1]
  exact numbered_lane he

/-- No lane has its place any more. -/
def State.placesCleared (s : State) : State :=
  s.each allLanes (fun p s => (s.wr (Reg.laneLogical p) 0xFF).clearBits (Reg.laneStatus p) 2)

/-- The lanes of a width take their places as `place` says. -/
def State.placesTaken (s : State) (place : Nat → Option Nat) (w : Nat) : State :=
  s.each (List.range w) (fun l s => match place l with
    | some p => (s.wr (Reg.laneLogical p) l).flag (Reg.laneStatus p) 1
    | none => s)

theorem placeLanes_eq (s : State) (w : Nat) : s.placeLanes w = s.placesCleared.placesTaken s.physOf w := rfl

theorem placesTaken_keeps {P : State → Prop} {place : Nat → Option Nat} {s : State} (w : Nat) (hplace : ∀ l p, place l = some p → p ∈ allLanes)
    (hstep : ∀ l p u, p ∈ allLanes → P u → P ((u.wr (Reg.laneLogical p) l).flag (Reg.laneStatus p) 1)) (h : P s) :
    P (s.placesTaken place w) := by
  refine each_keeps (P := P) (List.range w) _ (fun l _ u hu => ?_) h
  split
  · next p hp => exact hstep l p u (hplace l p hp) hu
  · exact hu

theorem placeLanes_frame (s : State) (w : Nat) : Frame lanesOffKeys [] s (s.placeLanes w) := by
  have hkeys : ∀ p ∈ allLanes, Reg.laneLogical p ∈ lanesOffKeys ∧ Reg.laneStatus p ∈ lanesOffKeys := fun p hp =>
    ⟨List.mem_append_left _ (mem_map_lanes _ hp), List.mem_append_right _ (mem_map_lanes _ hp)⟩
  have hclear : Frame lanesOffKeys [] s s.placesCleared :=
    .each_mem _ _ (fun p hp _ hu => (hu.wr _ _ (hkeys p hp).1).clearBits _ _ (hkeys p hp).2) (.refl ..)
  rw [placeLanes_eq]
  exact placesTaken_keeps (P := fun u => Frame lanesOffKeys [] s u) w (fun _ _ => physOf_lane)
    (fun _ p _ hp hu => (hu.wr _ _ (hkeys p hp).1).flag _ _ (hkeys p hp).2) hclear

theorem placeLanes_phy (s : State) (w : Nat) : (s.placeLanes w).phy = s.phy := by
  have hclear : s.placesCleared.phy = s.phy :=
    each_keeps (P := fun u => u.phy = s.phy) allLanes (fun p s => (s.wr (Reg.laneLogical p) 0xFF).clearBits (Reg.laneStatus p) 2)
      (fun _ _ _ hu => hu) rfl
  rw [placeLanes_eq]
  exact placesTaken_keeps (P := fun u => u.phy = s.phy) w (fun _ _ => physOf_lane) (fun _ _ _ _ hu => hu) hclear

/-- A rate and a width are agreed. -/
def State.rateAgreed (s : State) (r w : Nat) : State := { s with phy := { s.phy with rate := r, width := w } }

theorem enterRateChange_eq (s : State) (r w : Nat) :
    s.enterRateChange r w = ((s.rateAgreed r w).placeLanes w).clearSets.wr Reg.linkState Ls.rateChange := rfl

/-- Entering RATE_CHANGE (R279). -/
theorem enterRateChange_spec (s : State) (r w : Nat) :
    (s.enterRateChange r w).rd Reg.linkState = Ls.rateChange ∧ (s.enterRateChange r w).phy.rate = r ∧
    (s.enterRateChange r w).phy.width = w ∧ Frame (Reg.linkState :: lanesOffKeys) [] s (s.enterRateChange r w) := by
  have htrain := trainOnly_clearSets ((s.rateAgreed r w).placeLanes w)
  have hplace : Frame lanesOffKeys [] s ((s.rateAgreed r w).placeLanes w) := ((Frame.refl ..).phy _).trans (placeLanes_frame ..)
  have hphy : (s.enterRateChange r w).phy.rate = r ∧ (s.enterRateChange r w).phy.width = w := by
    obtain ⟨_, _, _, h⟩ := htrain
    rw [enterRateChange_eq, State.wr_phy, h, placeLanes_phy]
    exact ⟨rfl, rfl⟩
  rw [enterRateChange_eq] at hphy ⊢
  exact ⟨rd_wr_of_lt _ (by decide), hphy.1, hphy.2, (htrain.frame (hplace.mono (List.subset_cons_self ..) fun _ h => h)).wr _ _ (by simp)⟩

/-! ### Scans of another rate or width (R300) -/

theorem endScan_frame {K H s t} (p status : Nat) (h : Frame K H s t) (hp : Reg.eyeCmd p ∈ K) (hK : reportKeys ⊆ K) :
    Frame K H s (t.endScan p status) := by
  unfold State.endScan
  exact .ite (fun _ => reportScans_frame ((h.setScan _ _).wr _ _ hp) hK) fun _ => h

/-- What a scan's end may touch: the registers, the scans, the report. -/
def ScanOnly (s t : State) : Prop := ∃ reg scans rep, t = { s with reg := reg, phy := { s.phy with scans := scans }, rep := rep }

theorem ScanOnly.wr {s t : State} (k v : Nat) (h : ScanOnly s t) : ScanOnly s (t.wr k v) := by
  obtain ⟨r, c, e, rfl⟩ := h
  exact ⟨_, c, e, rfl⟩

theorem ScanOnly.setScan {s t : State} (p : Nat) (e : EyeScan) (h : ScanOnly s t) : ScanOnly s (t.setScan p e) := by
  obtain ⟨r, c, e, rfl⟩ := h
  exact ⟨r, _, e, rfl⟩

theorem ScanOnly.rep {s t : State} (e) (h : ScanOnly s t) : ScanOnly s { t with rep := e } := by
  obtain ⟨r, c, _, rfl⟩ := h
  exact ⟨r, c, e, rfl⟩

theorem ScanOnly.reportScans {s t : State} (h : ScanOnly s t) : ScanOnly s t.reportScans := by
  unfold State.reportScans
  split
  · exact ((((h.wr _ _).wr _ _).wr _ _).wr _ _).rep _
  · exact h

theorem scanOnly_endScan {s t : State} (p status : Nat) (h : ScanOnly s t) : ScanOnly s (t.endScan p status) := by
  unfold State.endScan
  dsimp only
  split
  · exact ((h.setScan _ _).wr _ _).reportScans
  · exact h

/-- The registers of the scans that are dropped. -/
def dropScanKeys : List Nat := reportKeys ++ allLanes.map Reg.eyeCmd

theorem dropStaleScans_frame (s : State) : Frame dropScanKeys [] s s.dropStaleScans := by
  unfold State.dropStaleScans
  refine .each_mem _ _ (fun p hp u hu => .ite (fun _ => hu) fun _ => ?_) (.refl ..)
  exact endScan_frame p 4 hu (List.mem_append_right _ (mem_map_lanes _ hp)) (List.subset_append_left ..)

theorem scanOnly_dropStaleScans (s : State) : ScanOnly s s.dropStaleScans := by
  unfold State.dropStaleScans
  refine each_keeps (P := ScanOnly s) allLanes _ (fun p _ u hu => ?_) ⟨s.reg, s.phy.scans, s.rep, rfl⟩
  split
  · exact hu
  · exact scanOnly_endScan p 4 hu

/-! ### A session begins (R314) -/

/-- The counts of a session's sequence start again. -/
def State.sequenceBegun (s : State) : State :=
  let u : State := { s with ll := { s.ll with
    waiting := [], retry := [], nakSent := false, uncovered := 0, replayRun := 0, replaying := false, lastAck := none,
    acksDue := [], resent := [], maskSent := 0, statusSent := [], commitDue := false, gapRuns := false } }
  ((((u.wr Reg.txNextSeq 0).wr Reg.txOldestSeq 0).wr Reg.rxExpected 0).wr Reg.retryBytes 0).bump Reg.session

/-- No stream has credit. -/
def State.creditBegun (s : State) : State := s.each allStreams (fun st s => (s.wr (Reg.limit st) 0).wr (Reg.rxunits st) 0)

theorem sessionBegin_eq (s : State) : s.sessionBegin = (s.sequenceBegun.creditBegun.wr Reg.llState 1).sendStatus := rfl

/-- The registers of a session's credit. -/
def creditKeys : List Nat := allStreams.map Reg.limit ++ allStreams.map Reg.rxunits

theorem creditBegun_frame (s : State) : Frame creditKeys [] s s.creditBegun :=
  .each_mem _ _ (fun _ hst _ hu => (hu.wr _ _ (List.mem_append_left _ (mem_map_streams _ hst))).wr _ _
    (List.mem_append_right _ (mem_map_streams _ hst))) (.refl ..)

theorem creditBegun_reads (s : State) : ∀ st ∈ allStreams, s.creditBegun.rd (Reg.limit st) = 0 ∧ s.creditBegun.rd (Reg.rxunits st) = 0 := by
  have hzero : ∀ (u : State) (k q : Nat), u.rd q = 0 ∨ q = k → (u.wr k 0).rd q = 0 := by
    intro u k q h
    rw [State.rd_wr]
    split
    · exact Nat.zero_mod _
    · next hne => exact h.resolve_right hne
  refine each_stands (P := fun _ => True) (fun st u => u.rd (Reg.limit st) = 0 ∧ u.rd (Reg.rxunits st) = 0) allStreams _
    (fun _ _ _ _ => trivial) (fun st _ u _ => ?_) (fun a _ b u _ hu => ?_) trivial
  · exact ⟨hzero _ _ _ (.inl (hzero _ _ _ (.inr rfl))), hzero _ _ _ (.inr rfl)⟩
  · exact ⟨hzero _ _ _ (.inl (hzero _ _ _ (.inl hu.1))), hzero _ _ _ (.inl (hzero _ _ _ (.inl hu.2)))⟩

/-- The registers that begin with a session. -/
def sessionKeys : List Nat := sendKeys ++ [Reg.txOldestSeq, Reg.rxExpected, Reg.session, Reg.llState] ++ creditKeys

theorem sequenceBegun_frame (s : State) : Frame (sendKeys ++ [Reg.txOldestSeq, Reg.rxExpected, Reg.session]) [] s s.sequenceBegun :=
  ((((((Frame.refl ..).ll _).wr _ _ (by decide)).wr _ _ (by decide)).wr _ _ (by decide)).wr _ _ (by decide)).bump _ (by decide)

theorem sequenceBegun_reads (s : State) : s.sequenceBegun.rd Reg.rxExpected = 0 ∧ s.sequenceBegun.rd Reg.txOldestSeq = 0 ∧
    Counts Reg.session s s.sequenceBegun := by
  unfold State.sequenceBegun
  refine ⟨?_, ?_, ?_⟩
  · rw [rd_bump_ne _ (by decide), State.rd_wr_ne _ _ (by decide), rd_wr_of_lt _ (by decide)]
  · rw [rd_bump_ne _ (by decide), State.rd_wr_ne _ _ (by decide), State.rd_wr_ne _ _ (by decide), rd_wr_of_lt _ (by decide)]
  · rw [Counts, rd_bump, State.rd_wr_ne _ _ (by decide), State.rd_wr_ne _ _ (by decide), State.rd_wr_ne _ _ (by decide),
      State.rd_wr_ne _ _ (by decide)]
    rfl

theorem sessionBegin_spec (s : State) : s.sessionBegin.rd Reg.llState = 1 ∧ s.sessionBegin.rd Reg.rxExpected = 0 ∧
    s.sessionBegin.rd Reg.txOldestSeq = 0 ∧ Counts Reg.session s s.sessionBegin ∧
    (∀ st : Stream, s.sessionBegin.rd (Reg.limit st) = 0 ∧ s.sessionBegin.rd (Reg.rxunits st) = 0) ∧
    Frame sessionKeys [] s s.sessionBegin := by
  have hsend := sendOnly_sendStatus (s.sequenceBegun.creditBegun.wr Reg.llState 1)
  have hcredit := creditBegun_frame s.sequenceBegun
  obtain ⟨hexpected, holdest, hsession⟩ := sequenceBegun_reads s
  have hrd : ∀ k, k ∉ sendKeys → k ≠ Reg.llState → s.sessionBegin.rd k = s.sequenceBegun.creditBegun.rd k := fun k h1 h2 => by
    rw [sessionBegin_eq, hsend.rd h1, State.rd_wr_ne _ _ h2]
  refine ⟨?_, ?_, ?_, ?_, fun st => ?_, ?_⟩
  · rw [sessionBegin_eq, hsend.rd (by decide), rd_wr_of_lt _ (by decide)]
  · rw [hrd _ (by decide) (by decide), hcredit.rd (by decide), hexpected]
  · rw [hrd _ (by decide) (by decide), hcredit.rd (by decide), holdest]
  · rw [Counts, hrd _ (by decide) (by decide), hcredit.rd (by decide)]
    exact hsession
  · obtain ⟨hlimit, hunits⟩ := creditBegun_reads s.sequenceBegun st (List.mem_range.mpr st.isLt)
    have hout : ∀ st : Stream, (Reg.limit st ∉ sendKeys ∧ Reg.limit st ≠ Reg.llState) ∧ Reg.rxunits st ∉ sendKeys ∧ Reg.rxunits st ≠ Reg.llState := by
      decide
    rw [hrd _ (hout st).1.1 (hout st).1.2, hrd _ (hout st).2.1 (hout st).2.2]
    exact ⟨hlimit, hunits⟩
  · rw [sessionBegin_eq]
    refine hsend.frame (List.subset_append_of_subset_left _ (List.subset_append_left ..)) (.wr _ _ ?_ (by decide))
    exact ((sequenceBegun_frame s).mono (by decide) fun _ h => h).trans (hcredit.mono (List.subset_append_right ..) fun _ h => h)

end Sys2Proof.Machine
end

section
/-! PROOF. A training passes through its states and ends (spec/11_link_phy.md R275-R285, R291). -/
namespace Sys2Proof.Machine

/-! ### ALIGN (R275-R278) -/

/-- The partner's lanes are seen reversed. -/
def State.reversalSeen (s : State) : State :=
  let u := if s.rxRev then (s.wr Reg.rxReversed 1).flag Reg.phyFlags 3 else s
  if s.rxRev || u.rd Reg.txReversed = 1 then u.event 0x3003 0xFF 2 else u

theorem exec_alignComplete {s : State} {r w : Nat} (hal : s.rd Reg.linkState = Ls.align) (hr : s.bestRate 4 = some r)
    (hw : s.bestWidth = some w) (hrole : s.phy.role = false) (hall : (List.range w).all (fun l => (s.physOf l).all s.laneAligned) = true)
    (hfit : s.misfits = []) :
    exec .alignComplete s =
      .next (s.reversalSeen.enterRateChange (agreed r s.reversalSeen.phy.reqRate) (agreed w s.reversalSeen.phy.reqWidth)) := by
  have hexec : exec .alignComplete s = execAlignComplete s := rfl
  rw [hexec, execAlignComplete, hr, hw]
  dsimp only
  rw [if_pos (by simp [State.ls, hal, hrole, hall]), hfit]
  rfl

theorem reversalSeen_phy (s : State) : s.reversalSeen.phy = s.phy := by
  unfold State.reversalSeen
  dsimp only
  split_ifs <;> simp

theorem reversalSeen_frame (s : State) : Frame (eventKeys ++ [Reg.rxReversed, Reg.phyFlags]) [] s s.reversalSeen := by
  have hrev : Frame (eventKeys ++ [Reg.rxReversed, Reg.phyFlags]) [] s (if s.rxRev then (s.wr Reg.rxReversed 1).flag Reg.phyFlags 3 else s) :=
    .ite (fun _ => ((Frame.refl ..).wr _ _ (by decide)).flag _ _ (by decide)) fun _ => .refl ..
  exact .ite (fun _ => hrev.event _ _ _ _ _ (List.subset_append_left ..)) fun _ => hrev

theorem exec_alignTimeout {s : State} (hal : s.rd Reg.linkState = Ls.align) :
    exec .alignTimeout s = .next (s.each s.misfits (fun p s => s.misnumbered p)).enterDetect := if_pos hal

theorem misnumbered_frame (s : State) (p : Nat) : Frame (violKeys 0 ++ [Reg.phyViolations, Reg.phyFlags]) [] s (s.misnumbered p) := by
  obtain ⟨_, _, hviol, _⟩ := phyViolation_spec ((s.flag Reg.phyFlags 4).event 0x3007 p 2)
  refine (((Frame.refl ..).flag _ _ ?_).event _ _ _ _ _ ?_).trans (hviol.mono ?_ fun _ h => h)
  · simp
  · exact List.subset_append_of_subset_left _ (by decide)
  · exact List.append_subset.mpr ⟨List.subset_append_left .., by simp⟩

theorem misnumbered_flag (s : State) (p : Nat) : (s.misnumbered p).bitOf Reg.phyFlags 4 = true := by
  obtain ⟨_, _, hviol, _⟩ := phyViolation_spec ((s.flag Reg.phyFlags 4).event 0x3007 p 2)
  rw [State.misnumbered, bitOf_of_rd 4 (hviol.rd (by decide)), bitOf_of_rd 4 (State.rd_event _ _ _ _ _ _ (by decide))]
  exact bitOf_flag _ (by decide)

theorem misnumbered_each {s : State} {l : List Nat} (hl : l ≠ []) :
    (s.each l (fun p s => s.misnumbered p)).bitOf Reg.phyFlags 4 = true ∧
    Frame (violKeys 0 ++ [Reg.phyViolations, Reg.phyFlags]) [] s (s.each l (fun p s => s.misnumbered p)) := by
  obtain ⟨p, l, rfl⟩ := List.exists_cons_of_ne_nil hl
  refine ⟨?_, .each _ _ (fun p u hu => hu.trans (misnumbered_frame u p)) (.refl ..)⟩
  exact each_keeps (P := fun u => u.bitOf Reg.phyFlags 4 = true) l (fun p s => s.misnumbered p) (fun p _ u _ => misnumbered_flag u p)
    (s := s.misnumbered p) (misnumbered_flag s p)

/-! ### RATE_CHANGE and EQ (R279, R280, R284) -/

theorem exec_rateIdleExpiry {s : State} (hrate : s.rd Reg.linkState = Ls.rateChange) :
    exec .rateIdleExpiry s = .next (s.clearSets.wr Reg.linkState Ls.eq).beginSets := if_pos hrate

/-- What the receivers of the width take. -/
def State.receiversTake (s : State) (ctle : List Nat) (taps : List (List Nat)) : State :=
  s.each (allLanes.filter s.laneIn) (fun p s =>
    if s.rd Reg.eqMode = 0 then s.profileEq p
    else (s.wr (Reg.ctleNow p) (min 24 (ctle.getD p 0))).wr (Reg.dfeTaps p) (tapsOf (taps.getD p [])))

theorem exec_eqDone {s : State} (ctle : List Nat) (taps : List (List Nat)) (heq : s.rd Reg.linkState = Ls.eq) :
    exec (.eqDone ctle taps) s = .next (((s.receiversTake ctle taps).clearSets.wr Reg.linkState Ls.confirm).beginSets) :=
  if_neg (by simp [State.ls, heq])

theorem receiversTake_frame (s : State) (ctle taps) : Frame eqKeys [] s (s.receiversTake ctle taps) := by
  refine .each_mem _ _ (fun p hp u hu => ?_) (.refl ..)
  have hlane := (List.mem_filter.mp hp).1
  have hctle : Reg.ctleNow p ∈ eqKeys := List.mem_append_left _ (mem_map_lanes _ hlane)
  have htaps : Reg.dfeTaps p ∈ eqKeys := List.mem_append_right _ (mem_map_lanes _ hlane)
  exact .ite (fun _ => profileEq_frame p hu hctle htaps) fun _ => (hu.wr _ _ hctle).wr _ _ htaps

theorem profileKeys_notMem (n : Nat) : ∀ p ∈ allLanes, Reg.laneProfile p ∉ eqKeys ∧ Reg.profile (n % 8) ∉ eqKeys := by
  have hn : n % 8 < 8 := Nat.mod_lt _ (by decide)
  generalize n % 8 = m at hn
  revert m
  decide

theorem laneProfile_of_frame {s u : State} {p : Nat} (hp : p ∈ allLanes) (h : Frame eqKeys [] s u) : u.laneProfile p = s.laneProfile p := by
  unfold State.laneProfile
  rw [h.rd (profileKeys_notMem 0 p hp).1, h.rd (profileKeys_notMem _ p hp).2]

theorem ctleKeys_ne (p q : Nat) : Reg.ctleNow p ≠ Reg.dfeTaps q := by
  simp only [Reg.ctleNow, Reg.dfeTaps, rkey]
  omega

theorem profileEq_ctle (s : State) (p : Nat) : (s.profileEq p).rd (Reg.ctleNow p) = fit (Reg.ctleNow p) ((s.laneProfile p).getD 2 0) := by
  unfold State.profileEq
  dsimp only
  rw [State.rd_wr_ne _ _ (ctleKeys_ne p p), State.rd_wr_same]
  rfl

theorem ctleNow_inj {p q : Nat} (h : p ≠ q) : Reg.ctleNow p ≠ Reg.ctleNow q := by
  simp only [Reg.ctleNow, rkey]
  omega

theorem profileEq_other (s : State) {p q : Nat} (h : q ≠ p) : (s.profileEq p).rd (Reg.ctleNow q) = s.rd (Reg.ctleNow q) := by
  unfold State.profileEq
  dsimp only
  rw [State.rd_wr_ne _ _ (ctleKeys_ne q p), State.rd_wr_ne _ _ (ctleNow_inj h)]

/-- In table mode each lane of the width holds its profile's CTLE code. -/
theorem receiversTake_ctle {s : State} (ctle taps) (hmode : s.rd Reg.eqMode = 0) : ∀ p ∈ allLanes.filter s.laneIn,
    (s.receiversTake ctle taps).rd (Reg.ctleNow p) = fit (Reg.ctleNow p) ((s.laneProfile p).getD 2 0) := by
  have hstep : ∀ u, Frame eqKeys [] s u → u.rd Reg.eqMode = 0 := fun u hu => (hu.rd (by decide)).trans hmode
  refine each_stands (P := Frame eqKeys [] s) (fun p u => u.rd (Reg.ctleNow p) = fit (Reg.ctleNow p) ((s.laneProfile p).getD 2 0))
    (allLanes.filter s.laneIn) (fun p s => if s.rd Reg.eqMode = 0 then s.profileEq p
      else (s.wr (Reg.ctleNow p) (min 24 (ctle.getD p 0))).wr (Reg.dfeTaps p) (tapsOf (taps.getD p [])))
    (fun p hp u hu => ?_) (fun p hp u hu => ?_) (fun p hp q u hu hq => ?_) (.refl ..)
  all_goals
    have hlane := (List.mem_filter.mp hp).1
    rw [if_pos (hstep u hu)]
  · exact profileEq_frame p hu (List.mem_append_left _ (mem_map_lanes _ hlane)) (List.mem_append_right _ (mem_map_lanes _ hlane))
  · rw [profileEq_ctle, laneProfile_of_frame hlane hu]
  · by_cases hqp : q = p
    · rw [hqp, profileEq_ctle, laneProfile_of_frame hlane hu]
    · rw [profileEq_other u hqp, hq]

/-! ### CONFIRM (R281, R282) -/

/-- Each lane of the width shows its skew. -/
def State.skewsNoted (s : State) (skew : List Nat) : State :=
  s.each (allLanes.filter s.laneIn) (fun p s => (s.wr (Reg.laneSkew p) (skew.getD p 0)).flag (Reg.laneStatus p) 3)

/-- The training's own marks are taken back. -/
def State.marksCleared (s : State) : State := { s with phy := { s.phy with fast := false, role := false, roleLogged := false } }

theorem marksCleared_keeps (s : State) : s.marksCleared.clk = s.clk ∧ s.marksCleared.phy.rate = s.phy.rate ∧
    s.marksCleared.phy.width = s.phy.width ∧ Frame [] [] s s.marksCleared := ⟨rfl, rfl, rfl, (Frame.refl ..).phy _⟩

/-- The rate and the width stand: scans of another end. -/
def State.trained (s : State) : State := s.marksCleared.dropStaleScans

/-- The link shows that it is up. -/
def State.upNoted (s : State) (us : Nat) : State :=
  let s := ((s.wr Reg.linkState Ls.active).wr Reg.linkUp 1).wr Reg.linkUpStamp s.stamp
  let s := ((s.wr Reg.rateNow s.phy.rate).wr Reg.widthNow s.phy.width).wr Reg.trainTime us
  (s.bump Reg.trainings).event 0x3001 0xFF s.phy.rate s.phy.width us

theorem exec_confirmComplete {s : State} {skew : List Nat} (us : BitVec 32) (hconf : s.rd Reg.linkState = Ls.confirm)
    (hok : (allLanes.filter s.laneIn).all
      (fun p => 16 ≤ (s.lane p).ts2 && 16 ≤ (s.lane p).sinceTs2 && decide (skew.getD p 0 ≤ 16)) = true) :
    exec (.confirmComplete skew us) s = .next (((s.skewsNoted skew).trained.upNoted us.toNat).sessionBegin) := by
  have hnot : (decide (s.ls ≠ Ls.confirm) || !(allLanes.filter s.laneIn).all
      (fun p => 16 ≤ (s.lane p).ts2 && 16 ≤ (s.lane p).sinceTs2 && decide (skew.getD p 0 ≤ 16))) = false := by
    rw [hok, State.ls, hconf]
    rfl
  have hexec : exec (.confirmComplete skew us) s = execConfirmComplete skew us s := rfl
  rw [hexec]
  unfold execConfirmComplete
  extract_lets ls ok s1 phy s2 s3 s4
  rw [if_neg (by rw [hnot]; decide)]
  have h1 : s1 = s.skewsNoted skew := rfl
  have h2 : s2 = s1.trained := rfl
  rw [← h1, ← h2]
  clear_value s2
  rfl

/-- The registers of the skews and of the scans that end. -/
def trainedKeys : List Nat := allLanes.map Reg.laneSkew ++ allLanes.map Reg.laneStatus ++ dropScanKeys

theorem skewsNoted_frame (s : State) (skew) : Frame trainedKeys [] s (s.skewsNoted skew) := by
  refine .each_mem _ _ (fun p hp u hu => ?_) (.refl ..)
  have hlane := (List.mem_filter.mp hp).1
  exact (hu.wr _ _ (List.mem_append_left _ (List.mem_append_left _ (mem_map_lanes _ hlane)))).flag _ _
    (List.mem_append_left _ (List.mem_append_right _ (mem_map_lanes _ hlane)))

theorem skewsNoted_keeps (s : State) (skew) : (s.skewsNoted skew).phy = s.phy ∧ (s.skewsNoted skew).clk = s.clk :=
  each_keeps (P := fun u => u.phy = s.phy ∧ u.clk = s.clk) (allLanes.filter s.laneIn)
    (fun p s => (s.wr (Reg.laneSkew p) (skew.getD p 0)).flag (Reg.laneStatus p) 3) (fun _ _ _ hu => hu) ⟨rfl, rfl⟩

theorem trained_spec (s : State) (skew) : (s.skewsNoted skew).trained.stamp = s.stamp ∧
    (s.skewsNoted skew).trained.phy.rate = s.phy.rate ∧ (s.skewsNoted skew).trained.phy.width = s.phy.width ∧
    Frame trainedKeys [] s (s.skewsNoted skew).trained := by
  obtain ⟨hphy, hclk⟩ := skewsNoted_keeps s skew
  obtain ⟨hclk', hrate, hwidth, hmarks⟩ := marksCleared_keeps (s.skewsNoted skew)
  have hscans := dropStaleScans_frame (s.skewsNoted skew).marksCleared
  obtain ⟨_, _, _, hdrop⟩ := scanOnly_dropStaleScans (s.skewsNoted skew).marksCleared
  refine ⟨?_, ?_, ?_, ?_⟩
  · rw [State.stamp, State.trained, hdrop, State.stamp]
    dsimp only
    rw [hclk', hclk]
  · rw [State.trained, hdrop]
    dsimp only
    rw [hrate, hphy]
  · rw [State.trained, hdrop]
    dsimp only
    rw [hwidth, hphy]
  · exact ((skewsNoted_frame s skew).trans (hmarks.mono (List.nil_subset _) fun _ h => h)).trans
      (hscans.mono (List.subset_append_right ..) fun _ h => h)

/-- The registers that show the link up. -/
def upKeys : List Nat :=
  eventKeys ++ [Reg.linkState, Reg.linkUp, Reg.linkUpStamp, Reg.rateNow, Reg.widthNow, Reg.trainTime, Reg.trainings]

theorem upNoted_frame (s : State) (us : Nat) : Frame upKeys [] s (s.upNoted us) :=
  (((((((((Frame.refl ..).wr _ _ (by decide)).wr _ _ (by decide)).wr _ _ (by decide)).wr _ _ (by decide)).wr _ _ (by decide)).wr _ _
    (by decide)).bump _ (by decide))).event _ _ _ _ _ (by decide)

theorem upNoted_reads (s : State) {us : Nat} (hus : us < 2 ^ 32) :
    (s.upNoted us).rd Reg.linkState = Ls.active ∧ (s.upNoted us).rd Reg.linkUp = 1 ∧
    (s.upNoted us).rd Reg.linkUpStamp = fit Reg.linkUpStamp s.stamp ∧ (s.upNoted us).rd Reg.rateNow = fit Reg.rateNow s.phy.rate ∧
    (s.upNoted us).rd Reg.widthNow = fit Reg.widthNow s.phy.width ∧ (s.upNoted us).rd Reg.trainTime = us ∧
    Counts Reg.trainings s (s.upNoted us) := by
  unfold State.upNoted Counts
  dsimp only
  simp (disch := decide) only [State.rd_event, rd_bump_ne, rd_bump, State.rd_wr_ne, State.rd_wr_same, State.wr_phy]
  have hsize : sizeAt Reg.trainTime = 4 := by decide
  exact ⟨rfl, rfl, rfl, rfl, rfl, Nat.mod_eq_of_lt (by rw [hsize]; exact hus), trivial⟩

theorem exec_confirmTimeout_fast {s : State} (hconf : s.rd Reg.linkState = Ls.confirm) (hfast : s.phy.fast = true) :
    exec .confirmTimeout s = .next (s.fullTraining 8) := by
  have hexec : exec .confirmTimeout s = execConfirmTimeout s := rfl
  rw [hexec, execConfirmTimeout, if_neg (by simp [State.ls, hconf]), if_pos hfast]

theorem exec_confirmTimeout_fallback {s : State} {r w f : Nat} (hconf : s.rd Reg.linkState = Ls.confirm) (hfast : s.phy.fast = false)
    (hfall : s.fallback = some (r, w, f)) :
    exec .confirmTimeout s = .next ((((s.bump Reg.rateFallbacks).flag Reg.phyFlags f).enterRateChange r w).dropStaleScans) := by
  have hexec : exec .confirmTimeout s = execConfirmTimeout s := rfl
  rw [hexec, execConfirmTimeout, if_neg (by simp [State.ls, hconf]), if_neg (by simp [hfast]), hfall]

theorem exec_confirmTimeout_fail {s : State} (hconf : s.rd Reg.linkState = Ls.confirm) (hfast : s.phy.fast = false)
    (hfall : s.fallback = none) : exec .confirmTimeout s = .next ((s.bump Reg.trainFails).enterDetect) := by
  have hexec : exec .confirmTimeout s = execConfirmTimeout s := rfl
  rw [hexec, execConfirmTimeout, if_neg (by simp [State.ls, hconf]), if_neg (by simp [hfast]), hfall]

/-- A fallback is shown in bit 0 or bit 1 of PHY_FLAGS. -/
theorem fallback_bit {s : State} {r w f : Nat} (h : s.fallback = some (r, w, f)) : f ≤ 1 := by
  have hlower : ∀ {o : Option Nat} {w' : Nat}, o.map (fun q => (q, w', 0)) = some (r, w, f) → f ≤ 1 := by
    intro o w' h
    obtain ⟨_, _, he⟩ := Option.map_eq_some_iff.mp h
    simp only [Prod.mk.injEq] at he
    omega
  unfold State.fallback at h
  dsimp only at h
  split at h
  · split at h
    · simp only [Option.some.injEq, Prod.mk.injEq] at h
      omega
    · split at h
      · simp at h
      · exact hlower h
  · split at h
    · simp at h
    · exact hlower h

/-- Settles O17: every clause is the state entered (`enterRateChange_spec`, `enterDetect_detects`, `fullTraining_spec`,
`sessionBegin_spec`) after what its rule notes first. -/
theorem trainingPassesThroughItsStates : Obligations.TrainingPassesThroughItsStates := by
  refine ⟨fun s r w hal hr hw hrole hall hfit => ?align, fun s hal hfit => ?timeout, fun s hal hmis => ?misfit, fun s hrate => ?rate,
    fun s c l heq hmode => ?eq, fun s skew us hconf hok => ?confirm, fun s hconf hfast hdrop => ?fast,
    fun s r w f hconf hfast hfall => ?fallback, fun s hconf hfast hfall => ?fail⟩
  case align =>
    obtain ⟨hstate, hrate, hwidth, hframe⟩ := enterRateChange_spec s.reversalSeen (agreed r s.reversalSeen.phy.reqRate)
      (agreed w s.reversalSeen.phy.reqWidth)
    refine ⟨_, exec_alignComplete hal hr hw hrole hall hfit, hstate, ?_, ?_, ?_⟩
    · rw [hrate, reversalSeen_phy]
    · rw [hwidth, reversalSeen_phy]
    · exact ((reversalSeen_frame s).mono (by decide) fun _ h => h).trans (hframe.mono (by decide) fun _ h => h)
  case timeout =>
    obtain ⟨hstate, hrate, _, hlanes, hrev, hplaces⟩ := enterDetect_detects s
    refine ⟨_, exec_alignTimeout hal, ?_⟩
    rw [hfit]
    exact ⟨hstate, hrate, hlanes, hrev.1, hrev.2, hplaces, enterDetect_frame s⟩
  case misfit =>
    obtain ⟨hflag, hframe⟩ := misnumbered_each (s := s) hmis
    have hdetect := enterDetect_frame (s.each s.misfits (fun p s => s.misnumbered p))
    refine ⟨_, exec_alignTimeout hal, (enterDetect_detects _).state, (bitOf_of_rd 4 (hdetect.rd (by decide))).trans hflag, ?_⟩
    exact (hframe.mono (by decide) fun _ h => h).trans (hdetect.mono (by decide) fun _ h => h)
  case rate =>
    refine ⟨_, exec_rateIdleExpiry hrate, ?_, ?_⟩
    · rw [(trainOnly_beginSets _).rd, rd_wr_of_lt _ (by decide)]
    · exact (trainOnly_beginSets _).frame (((trainOnly_clearSets s).frame (.refl ..)).wr _ _ (by simp))
  case eq =>
    refine ⟨_, exec_eqDone c l heq, ?_, fun p hin => ?_, ?_⟩
    · rw [(trainOnly_beginSets _).rd, rd_wr_of_lt _ (by decide)]
    · have hne : ∀ p : Lane, Reg.ctleNow p ≠ Reg.linkState := by decide
      rw [(trainOnly_beginSets _).rd, State.rd_wr_ne _ _ (hne p), (trainOnly_clearSets _).rd,
        receiversTake_ctle c l hmode p (List.mem_filter.mpr ⟨mem_lanes p, hin⟩)]
    · have htake := (receiversTake_frame s c l).mono (K' := Reg.linkState :: eqKeys) (List.subset_cons_self ..) fun _ h => h
      exact (trainOnly_beginSets _).frame (((trainOnly_clearSets _).frame htake).wr _ _ (by simp))
  case confirm =>
    obtain ⟨hstamp, hrate, hwidth, hpre⟩ := trained_spec s skew
    have hup := upNoted_frame (s.skewsNoted skew).trained us.toNat
    obtain ⟨hstate, hlink, hstamped, hrated, hwide, htime, hcount⟩ := upNoted_reads (s.skewsNoted skew).trained us.isLt
    obtain ⟨hll, hexpected, holdest, hsession, hcredit, hframe⟩ := sessionBegin_spec ((s.skewsNoted skew).trained.upNoted us.toNat)
    refine ⟨_, exec_confirmComplete us hconf hok, (hframe.rd (by decide)).trans hstate, (hframe.rd (by decide)).trans hlink, ?_, ?_, ?_,
      (hframe.rd (by decide)).trans htime, ?_, ?_, hll, hexpected, holdest, hcredit, ?_⟩
    · rw [hframe.rd (by decide), hstamped, hstamp]
    · rw [hframe.rd (by decide), hrated, hrate]
    · rw [hframe.rd (by decide), hwide, hwidth]
    · exact ((hframe.rd (by decide)).trans hcount).trans (by rw [hpre.rd (by decide)])
    · exact hsession.since ((hup.rd (by decide)).trans (hpre.rd (by decide)))
    · exact ((hpre.mono (by decide) fun _ h => h).trans (hup.mono (by decide) fun _ h => h)).trans (hframe.mono (by decide) fun _ h => h)
  case fast =>
    have hon : s.rd Reg.linkState ≠ Ls.disabled := by rw [hconf]; decide
    obtain ⟨hdrops, hcount, hnot, hframe⟩ := fullTraining_spec (cause := 8) hdrop hon (by decide)
    exact ⟨_, exec_confirmTimeout_fast hconf hfast, hdrops, hcount, hnot, hframe⟩
  case fallback =>
    have hbit : f < 8 * sizeAt Reg.phyFlags := Nat.lt_of_le_of_lt (fallback_bit hfall) (by decide)
    obtain ⟨hstate, hrate, hwidth, hframe⟩ := enterRateChange_spec ((s.bump Reg.rateFallbacks).flag Reg.phyFlags f) r w
    have hscans := dropStaleScans_frame (((s.bump Reg.rateFallbacks).flag Reg.phyFlags f).enterRateChange r w)
    obtain ⟨_, _, _, honly⟩ := scanOnly_dropStaleScans (((s.bump Reg.rateFallbacks).flag Reg.phyFlags f).enterRateChange r w)
    refine ⟨_, exec_confirmTimeout_fallback hconf hfast hfall, (hscans.rd (by decide)).trans hstate, ?_, ?_, ?_, ?_, ?_⟩
    · rw [honly]
      exact hrate
    · rw [honly]
      exact hwidth
    · rw [Counts, hscans.rd (by decide), hframe.rd (by decide), rd_flag_ne _ _ (by decide), rd_bump]
    · rw [bitOf_of_rd f (hscans.rd (by decide)), bitOf_of_rd f (hframe.rd (by decide))]
      exact bitOf_flag _ hbit
    · exact ((((Frame.refl ..).bump _ (by decide)).flag _ _ (by decide)).trans (hframe.mono (by decide) fun _ h => h)).trans
        (hscans.mono (by decide) fun _ h => h)
  case fail =>
    have hdetect := enterDetect_frame (s.bump Reg.trainFails)
    refine ⟨_, exec_confirmTimeout_fail hconf hfast hfall, (enterDetect_detects _).state, ?_, ?_⟩
    · rw [Counts, hdetect.rd (by decide), rd_bump]
    · exact ((Frame.refl ..).bump _ (by decide)).trans (hdetect.mono (by decide) fun _ h => h)

end Sys2Proof.Machine
end

section
/-! PROOF. The link's retrains and its eye scans by command (spec/11_link_phy.md R291, R296, R300). -/
namespace Sys2Proof.Machine

/-! ### What follows an answer (R68, R76) -/

/-- A command whose work follows its answer. -/
theorem exec_of_answered {s u t : State} {c : Instr} {src : Src} {tag : Byte} {k v : Nat} {w : Row} {post : State → State}
    (hk : CmdReg k w) (hv : v < 256 ^ sizeAt k) (hlets : s.lets src tag k v = some u)
    (hexec : exec c s = .next (s.writeReq src tag k v)) (hdo : u.doCmd src.val tag.toNat k v = .ok t [] 0 post) :
    SvcOnly s u ∧ exec c s = .next (post (t.replyOk src.val tag.toNat Op.write k [])) := by
  obtain ⟨hsvc, hreq⟩ := writeReq_of_lets hk hv hlets
  refine ⟨hsvc, ?_⟩
  rw [hexec, hreq, hdo]
  simp only [State.finish, reqKey_valueReq src tag v hk.word]
  rfl

/-- A success answer is no control request's fate: it touches what is sent alone (R323). -/
theorem reply_frame_of_success {K H s t} {a : Answer} (h : Frame K H s t) (ha : a.status ≠ 1) (hK : sendKeys ⊆ K) :
    Frame K H s (t.reply a) := by
  unfold State.reply
  extract_lets _ u
  have hu : Frame K H s u := h.svc _
  refine .ite (fun _ => .send _ ?_ hK) fun _ => hu
  unfold State.noteFate
  dsimp only
  rw [if_neg (by simp [ha])]
  exact hu

theorem replyOk_frame {K H s t} (j tag op key : Nat) (data : List Nat) (h : Frame K H s t) (hK : sendKeys ⊆ K) :
    Frame K H s (t.replyOk j tag op key data) := reply_frame_of_success h (by simp) hK

theorem ViolOnly.dropped {s t : State} (h : ViolOnly s t) : t.dropped = s.dropped := by
  obtain ⟨_, _, _, _, _, _, _, rfl⟩ := h
  rfl

/-! ### LINK_RETRAIN (Table LP-9) -/

theorem linkRetrain_cmdReg : CmdReg Reg.linkRetrain ⟨0x0C, .u8, .cmd, .volatile, 0, 0, .any, false⟩ := ⟨rfl, by decide, rfl, rfl⟩

theorem doCmd_linkRetrain (s : State) (j tag : Nat) {v : Nat} (hv : v = 1 ∨ v = 2) :
    s.doCmd j tag Reg.linkRetrain v = .ok s [] 0 (·.doRetrain v) := by
  rcases hv with rfl | rfl <;> rfl

theorem doRetrain_of_running {s : State} (v : Nat) (h : s.ls = Ls.active ∨ s.ls = Ls.banked) :
    s.doRetrain v = if v = 1 then (s.wr Reg.linkRetrain 1).fastRetrain 6 else (s.wr Reg.linkRetrain 1).fullTraining 6 := by
  refine if_pos ?_
  rcases h with h | h
  · simp [wasActive_of_active h]
  · simp [h]

theorem doRetrain_of_other {s : State} (v : Nat) (h : s.wasActive = false) (hbank : s.ls ≠ Ls.banked) :
    s.doRetrain v = s.wr Reg.linkRetrain 2 := if_neg (by simp [h, hbank])

/-- The state in which a retrain's work begins: the request is answered. -/
structure Answered (s t : State) : Prop where
  frame : Frame sendKeys [] s t
  phy : t.phy = s.phy
  dropped : t.dropped = s.dropped

theorem answered_replyOk {s u : State} (h : SvcOnly s u) (j tag op key : Nat) (data) : Answered s (u.replyOk j tag op key data) := by
  have honly : ViolOnly s (u.replyOk j tag op key data) :=
    ViolOnly.trans ⟨s.reg, s.setNow, s.log, s.fla.queue, s.cas.evTx, u.svc, s.ll, h⟩ (violOnly_reply u _)
  refine ⟨replyOk_frame j tag op key data (h.frame _ _) (fun _ h => h), ?_, honly.dropped⟩
  obtain ⟨_, _, _, _, _, _, _, h⟩ := honly
  rw [h]

/-- The command that retrains is shown, on a link in use. -/
theorem Answered.retrains {s t : State} (h : Answered s t) (hrun : s.ls = Ls.active ∨ s.ls = Ls.banked) (hdrop : s.dropped = false) :
    (t.ls = Ls.active ∨ t.ls = Ls.banked) ∧ (t.wr Reg.linkRetrain 1).dropped = false ∧
    (t.wr Reg.linkRetrain 1).rd Reg.linkState ≠ Ls.disabled ∧ (t.wr Reg.linkRetrain 1).rd Reg.linkRetrain = 1 ∧
    Frame (Reg.linkRetrain :: sendKeys) [] s (t.wr Reg.linkRetrain 1) := by
  have hls : t.ls = s.ls := h.frame.rd (by decide)
  refine ⟨by rwa [hls], h.dropped.trans hdrop, ?_, rd_wr_of_lt _ (by decide),
    (h.frame.mono (List.subset_cons_self ..) fun _ h => h).wr _ _ (by simp)⟩
  have hstate : (t.wr Reg.linkRetrain 1).rd Reg.linkState = s.ls := (State.rd_wr_ne _ _ (by decide)).trans hls
  rw [hstate]
  rcases hrun with h | h <;> rw [h] <;> decide

/-! ### EYE_CMD (R296, R300) -/

theorem eyeCmd_cmdReg (p : Lane) : CmdReg (Reg.eyeCmd p) ⟨0x01, .u8, .cmd, .volatile, 0, 0, .any, false⟩ := by
  refine ⟨?_, by revert p; decide, rfl, rfl⟩
  fin_cases p <;> rfl

theorem doCmd_eyeCmd (s : State) (j tag v : Nat) (p : Lane) : s.doCmd j tag (Reg.eyeCmd p) v = s.doEye p v := by
  fin_cases p <;> rfl

theorem eyeCmd_fits (p : Lane) {v : Nat} (hv : v < 256) : v < 256 ^ sizeAt (Reg.eyeCmd p) := by rwa [sizeAt_eyeCmd]

theorem doEye_start {s : State} {p : Lane} (hidle : s.rd (Reg.eyeCmd p) ≠ 1) (hwidth : s.rd Reg.widthNow ≠ 0) (hin : s.laneIn p = true)
    (hpoints : s.lanePoints p ≤ 1024) : s.doEye p 1 = .ok (s.scanLane p) := by
  unfold State.doEye
  rw [if_pos rfl, if_neg hidle, if_neg (by simp [hwidth, hin]), if_neg (by omega)]

theorem doEye_down {s : State} {p : Lane} (hidle : s.rd (Reg.eyeCmd p) ≠ 1) (hdown : s.rd Reg.widthNow = 0 ∨ s.laneIn p = false) :
    s.doEye p 1 = .abort s 0x04090000 0 := by
  have hno : (decide (s.rd Reg.widthNow = 0) || !s.laneIn p) = true := by
    rcases hdown with h | h <;> simp [h]
  unfold State.doEye
  rw [if_pos rfl, if_neg hidle, if_pos hno]

theorem doEye_stop {s : State} {p : Lane} (hrun : s.rd (Reg.eyeCmd p) = 1) : s.doEye p 2 = .ok (s.endScan p 3) := by
  unfold State.doEye
  rw [if_neg (by decide), if_pos rfl, if_pos hrun]

theorem startKeys_ne (p : Nat) : Reg.eyeDone p ≠ Reg.eyeCmd p ∧ Reg.eyePoints p ≠ Reg.eyeCmd p ∧ Reg.eyePoints p ≠ Reg.eyeDone p := by
  simp only [Reg.eyeDone, Reg.eyePoints, Reg.eyeCmd, rkey]
  omega

/-- A scan begins. -/
def State.scanBegins (s : State) (p : Nat) (e : EyeScan) : State :=
  (((s.setScan p e).wr (Reg.eyePoints p) e.points.length).wr (Reg.eyeDone p) 0).wr (Reg.eyeCmd p) 1

theorem startScan_eq (s : State) (p kind hStep vStep dwell : Nat) : ∃ e : EyeScan, e.running = true ∧
    e.points = eyePointsOf kind hStep vStep ∧ s.startScan p kind hStep vStep dwell = s.scanBegins p e := ⟨_, rfl, rfl, rfl⟩

/-- A scan that starts waits at its first point. -/
theorem startScan_spec (s : State) (p : Lane) (kind hStep vStep dwell : Nat) :
    (s.startScan p kind hStep vStep dwell).rd (Reg.eyeCmd p) = 1 ∧ (s.startScan p kind hStep vStep dwell).rd (Reg.eyeDone p) = 0 ∧
    ((s.startScan p kind hStep vStep dwell).scanOf p).running = true ∧
    ((s.startScan p kind hStep vStep dwell).scanOf p).points = eyePointsOf kind hStep vStep ∧
    (s.startScan p kind hStep vStep dwell).rd (Reg.eyePoints p) = fit (Reg.eyePoints p) (eyePointsOf kind hStep vStep).length ∧
    Frame [Reg.eyeCmd p, Reg.eyeDone p, Reg.eyePoints p] [] s (s.startScan p kind hStep vStep dwell) := by
  obtain ⟨hdone, hpoints, hpointsDone⟩ := startKeys_ne p
  obtain ⟨e, hrun, hpts, heq⟩ := startScan_eq s p kind hStep vStep dwell
  have hset : (s.scanBegins p e).scanOf p = e := (scanOf_setScan s p e p).trans (if_pos rfl)
  rw [heq, hset]
  refine ⟨rd_wr_of_lt _ (eyeCmd_fits p (by decide)), ?_, hrun, hpts, ?_, ?_⟩
  · rw [State.scanBegins, State.rd_wr_ne _ _ hdone, State.rd_wr_same]
    exact Nat.zero_mod _
  · rw [State.scanBegins, State.rd_wr_ne _ _ hpoints, State.rd_wr_ne _ _ hpointsDone, State.rd_wr_same, hpts]
    rfl
  · exact ((((Frame.refl ..).setScan p _).wr _ _ (by simp)).wr _ _ (by simp)).wr _ _ (by simp)

theorem endScan_of_running {s : State} {p : Nat} (status : Nat) (h : (s.scanOf p).running = true) :
    s.endScan p status =
      ((s.setScan p { s.scanOf p with running := false, counting := false }).wr (Reg.eyeCmd p) status).reportScans := if_pos h

/-- A scan that is stopped keeps what it has counted (R300). -/
theorem endScan_stopped {s : State} {p : Lane} (h : (s.scanOf p).running = true) :
    (s.endScan p 3).rd (Reg.eyeCmd p) = 3 ∧ ((s.endScan p 3).scanOf p).running = false ∧
    ((s.endScan p 3).scanOf p).done = (s.scanOf p).done := by
  have hout : ∀ p : Lane, Reg.eyeCmd p ∉ reportKeys := by decide
  have hscan : (s.endScan p 3).scanOf p = { s.scanOf p with running := false, counting := false } := by
    rw [endScan_of_running 3 h, scanOf_of_phy (reportScans_phy _), scanOf_of_phy (State.wr_phy ..), scanOf_setScan, if_pos rfl]
  rw [hscan, endScan_of_running 3 h]
  refine ⟨?_, rfl, rfl⟩
  rw [(reportScans_frame (Frame.refl reportKeys [] _) fun _ h => h).rd (hout p), rd_wr_of_lt _ (eyeCmd_fits p (by decide))]

theorem SvcOnly.eyes {s u : State} (h : SvcOnly s u) (p : Nat) : u.scanOf p = s.scanOf p ∧ u.laneIn p = s.laneIn p ∧
    u.lanePoints p = s.lanePoints p := by
  rw [h]
  exact ⟨rfl, rfl, rfl⟩

/-- Settles O47: a retrain's work follows its answer (`exec_of_answered`), a scan's command is answered when it is done. -/
theorem linkAndEyeScansAreCommanded : Obligations.LinkAndEyeScansAreCommanded := by
  refine ⟨fun s u src tag hl hrun hdrop => ?fast, fun s u src tag hl hrun hdrop => ?full, fun s u src tag hl hwas hbank => ?away,
    fun s u src tag p hl hidle hwidth hin hpoints hhold => ?start, fun s u src tag p hl hidle hdown => ?down,
    fun s u src tag p hl hcmd hrun => ?stop⟩
  case fast =>
    obtain ⟨hsvc, hexec⟩ := exec_of_answered (c := .linkRetrainFast src tag) linkRetrain_cmdReg (by decide) hl rfl (doCmd_linkRetrain u src.val tag.toNat (.inl rfl))
    obtain ⟨hrun', hdrop', hon, hshow, hframe⟩ := (answered_replyOk hsvc src.val tag.toNat Op.write Reg.linkRetrain []).retrains hrun hdrop
    obtain ⟨hdrops, hcount, _, _, hretrain, _⟩ := fastRetrain_spec (cause := 6) hdrop' hon (by decide)
    rw [doRetrain_of_running 1 hrun', if_pos rfl] at hexec
    refine ⟨_, hexec, (hretrain.rd (by decide)).trans hshow, hdrops.since (hframe.rd (by decide)), hcount.since (hframe.rd (by decide)), ?_⟩
    exact (hframe.mono (by decide) fun _ h => h).trans (hretrain.mono (by decide) fun _ h => h)
  case full =>
    obtain ⟨hsvc, hexec⟩ := exec_of_answered (c := .linkRetrainFull src tag) linkRetrain_cmdReg (by decide) hl rfl (doCmd_linkRetrain u src.val tag.toNat (.inr rfl))
    obtain ⟨hrun', hdrop', hon, hshow, hframe⟩ := (answered_replyOk hsvc src.val tag.toNat Op.write Reg.linkRetrain []).retrains hrun hdrop
    obtain ⟨hdrops, hcount, _, htrain⟩ := fullTraining_spec (cause := 6) hdrop' hon (by decide)
    rw [doRetrain_of_running 2 hrun', if_neg (by decide)] at hexec
    refine ⟨_, hexec, (htrain.rd (by decide)).trans hshow, hdrops.since (hframe.rd (by decide)), hcount.since (hframe.rd (by decide)), ?_⟩
    exact (hframe.mono (by decide) fun _ h => h).trans (htrain.mono (by decide) fun _ h => h)
  case away =>
    obtain ⟨hsvc, hexec⟩ := exec_of_answered (c := .linkRetrainFull src tag) linkRetrain_cmdReg (by decide) hl rfl (doCmd_linkRetrain u src.val tag.toNat (.inr rfl))
    obtain ⟨hframe, hphy, _⟩ := answered_replyOk hsvc src.val tag.toNat Op.write Reg.linkRetrain []
    have honly : (u.replyOk src.val tag.toNat Op.write Reg.linkRetrain []).wasActive = s.wasActive := by
      obtain ⟨_, _, _, _, _, _, _, hu⟩ := violOnly_reply u
        { src := src.val, tag := tag.toNat, opcode := Op.write + 0x80, status := 0, index := Reg.linkRetrain / 256, sub := Reg.linkRetrain % 256, data := [] }
      unfold State.wasActive
      rw [hframe.rd (by decide), hphy]
      congr 3
      rw [State.tick, State.replyOk, hu, hsvc]
      rfl
    have hls : (u.replyOk src.val tag.toNat Op.write Reg.linkRetrain []).ls = s.ls := hframe.rd (by decide)
    rw [doRetrain_of_other 2 (honly.trans hwas) (by rwa [hls])] at hexec
    refine ⟨_, hexec, rd_wr_of_lt _ (by decide), (State.rd_wr_ne _ _ (by decide)).trans hls, ?_⟩
    exact (hframe.mono (by decide) fun _ h => h).wr _ _ (by decide)
  case start =>
    refine answers_of_ok (t := u.scanLane p) (eyeCmd_cmdReg p) (eyeCmd_fits p (by decide)) hl rfl ?_ fun hu => ?_
    · obtain ⟨hsvc, _⟩ := writeReq_of_lets (eyeCmd_cmdReg p) (eyeCmd_fits p (by decide)) hl
      obtain ⟨_, hin', hpoints'⟩ := hsvc.eyes p
      rw [doCmd_eyeCmd]
      exact doEye_start (by rw [hsvc.rd]; exact hidle) (by rw [hsvc.rd]; exact hwidth) (hin'.trans hin) (hpoints'.le.trans hpoints)
    · have hhold' : (u.startScan p (u.rd (Reg.eyeType p)) (u.rd (Reg.eyeHStep p)) (u.rd (Reg.eyeVStep p))
          (u.rd (Reg.eyeDwell p))).bitOf Reg.idleHold 10 = false := by
        have hne : ∀ p : Lane, Reg.idleHold ∉ [Reg.eyeCmd p, Reg.eyeDone p, Reg.eyePoints p] := by decide
        obtain ⟨_, _, _, _, _, hstart⟩ := startScan_spec u p (u.rd (Reg.eyeType p)) (u.rd (Reg.eyeHStep p)) (u.rd (Reg.eyeVStep p))
          (u.rd (Reg.eyeDwell p))
        exact (bitOf_of_rd 10 ((hstart.rd (hne p)).trans (hu.rd _))).trans hhold
      obtain ⟨hcmd, hdone, hrun, hpts, hcount, hframe⟩ := startScan_spec u p (u.rd (Reg.eyeType p)) (u.rd (Reg.eyeHStep p))
        (u.rd (Reg.eyeVStep p)) (u.rd (Reg.eyeDwell p))
      have hscan : u.scanLane p = u.startScan p (u.rd (Reg.eyeType p)) (u.rd (Reg.eyeHStep p)) (u.rd (Reg.eyeVStep p))
          (u.rd (Reg.eyeDwell p)) := if_neg (by simp [hhold'])
      rw [hscan, hpts]
      simp only [hu.rd] at hcmd hdone hrun hcount hframe ⊢
      exact ⟨hcmd, hdone, hrun, trivial, hcount, (hu.frame _ _).trans hframe⟩
  case down =>
    refine refuses_of_abort (t := u) (eyeCmd_cmdReg p) (eyeCmd_fits p (by decide)) hl rfl ?_ (by decide) fun _ => rfl
    obtain ⟨hsvc, _⟩ := writeReq_of_lets (eyeCmd_cmdReg p) (eyeCmd_fits p (by decide)) hl
    obtain ⟨_, hin', _⟩ := hsvc.eyes p
    rw [doCmd_eyeCmd]
    exact doEye_down (by rwa [hsvc.rd]) (by rwa [hsvc.rd, hin'])
  case stop =>
    refine answers_of_ok (t := u.endScan p 3) (eyeCmd_cmdReg p) (eyeCmd_fits p (by decide)) hl rfl ?_ fun hu => ?_
    · obtain ⟨hsvc, _⟩ := writeReq_of_lets (eyeCmd_cmdReg p) (eyeCmd_fits p (by decide)) hl
      rw [doCmd_eyeCmd]
      exact doEye_stop (by rwa [hsvc.rd])
    · obtain ⟨hscan, _, _⟩ := hu.eyes p
      obtain ⟨hread, hstop, hdone⟩ := endScan_stopped (s := u) (p := p) (by rwa [hscan])
      exact ⟨hread, hstop, by rw [hdone, hscan], endScan_frame p 3 (hu.frame _ _) (.head _) (List.subset_cons_self ..)⟩

end Sys2Proof.Machine
end

section
/-! PROOF. Frames are checked, acknowledged and replayed (spec/12_link_layer.md R307-R310, R323-R325; spec/14_pour_and_shakeout.md R367). -/
namespace Sys2Proof.Machine

/-! ### Acknowledgements (R287, R308) -/

/-- What sending an acknowledgement changes. -/
def AckOnly (s t : State) : Prop :=
  ∃ last wire due, t = { s with ll := { s.ll with lastAck := last, wire := wire, acksDue := due } }

theorem ackOut_ackOnly (s : State) (ty reason : Nat) : AckOnly s (s.ackOut ty reason) := by
  unfold State.ackOut
  split
  · exact ⟨_, _, s.ll.acksDue, rfl⟩
  · split
    · exact ⟨s.ll.lastAck, s.ll.wire, s.ll.acksDue, rfl⟩
    · exact ⟨s.ll.lastAck, s.ll.wire, _, rfl⟩

theorem AckOnly.frame {K H s t u} (h : AckOnly t u) (hf : Frame K H s t) : Frame K H s u := by
  obtain ⟨_, _, _, rfl⟩ := h
  exact hf.ll _

theorem ackOut_of_awake {s : State} (ty reason : Nat) (h : s.rd Reg.txIdle = 0) : s.ackOut ty reason = s.putAck ty reason := if_pos h

/-- In Idle an acknowledgement waits for the transmitter. -/
theorem ackOut_of_idle {s : State} (ty reason : Nat) (h : s.rd Reg.txIdle ≠ 0) :
    ∃ due, (ty, reason) ∈ due ∧ s.ackOut ty reason = { s with ll := { s.ll with acksDue := due } } := by
  unfold State.ackOut
  rw [if_neg h]
  split
  · next hdue => exact ⟨s.ll.acksDue, List.contains_iff_mem.mp hdue, rfl⟩
  · exact ⟨_, by simp, rfl⟩

/-- An ACK covers every accepted frame; it goes at once where the transmitter is awake (R308). -/
theorem sendAck_of_awake {s : State} (h : s.rd Reg.txIdle = 0) : s.sendAck = State.putAck { s with ll := { s.ll with uncovered := 0 } } 1 0 :=
  ackOut_of_awake (s := { s with ll := { s.ll with uncovered := 0 } }) 1 0 h

theorem sendAck_of_idle {s : State} (h : s.rd Reg.txIdle ≠ 0) : ∃ due, (1, 0) ∈ due ∧
    s.sendAck = { s with ll := { s.ll with uncovered := 0, acksDue := due } } :=
  ackOut_of_idle (s := { s with ll := { s.ll with uncovered := 0 } }) 1 0 h

theorem sendNak_nakSent (s : State) (reason : Nat) : (s.sendNak reason).ll.nakSent = true := by
  unfold State.sendNak
  split
  · next h => exact h
  · obtain ⟨_, _, _, h⟩ := ackOut_ackOnly { s with ll := { s.ll with nakSent := true } } 2 reason
    rw [h, State.bump_ll]

theorem sendNak_frame {K H s t} (reason : Nat) (h : Frame K H s t) (hK : Reg.naksSent ∈ K) : Frame K H s (t.sendNak reason) := by
  unfold State.sendNak
  exact .ite (fun _ => h) fun _ => ((ackOut_ackOnly _ _ _).frame (h.ll _)).bump _ hK

/-! ### The frames an ACK covers (R309, R367, R370) -/

/-- What has come and how often frames were resent in a row stay. -/
def RxKept (s t : State) : Prop := t.ll.rxq = s.ll.rxq ∧ t.ll.replayRun = s.ll.replayRun

theorem RxKept.trans {s t u} (h1 : RxKept s t) (h2 : RxKept t u) : RxKept s u := ⟨h2.1.trans h1.1, h2.2.trans h1.2⟩

theorem SendsOnly.rxKept {s t : State} (h : SendsOnly s.ll t.ll) : RxKept s t := by
  obtain ⟨_, _, _, _, h⟩ := h
  rw [RxKept, h]
  exact ⟨rfl, rfl⟩

/-- The registers that an open stream shows. -/
def openKeys : List Nat := sendKeys ++ allStreams.map Reg.streamOpen

/-- STREAM_OPEN of every stream is set anew. -/
def State.opensShown (s : State) : State :=
  s.each allStreams (fun st s => s.wr (Reg.streamOpen st) (if s.streamOpenNow st then 1 else 0))

theorem opensShown_frame (s : State) : Frame openKeys [] s s.opensShown :=
  .each_mem _ _ (fun _ hst _ hu => hu.wr _ _ (List.mem_append_right _ (mem_map_streams _ hst))) (.refl ..)

theorem opensShown_ll (s : State) : s.opensShown.ll = s.ll :=
  each_keeps (P := fun u => u.ll = s.ll) allStreams (fun st s => s.wr (Reg.streamOpen st) (if s.streamOpenNow st then 1 else 0))
    (fun _ _ _ hu => hu) rfl

theorem refreshOpen_eq (s : State) : s.refreshOpen =
    if s.opensShown.rd Reg.llState = 2 && s.opensShown.openNow ≠ s.opensShown.ll.maskSent then s.opensShown.sendCredit else s.opensShown := rfl

theorem sendCredit_frame {K H s t} (h : Frame K H s t) (hK : sendKeys ⊆ K) : Frame K H s t.sendCredit := .send _ (h.ll _) hK

theorem sendCredit_rxKept (s : State) : RxKept s s.sendCredit := by
  unfold State.sendCredit
  exact (SendsOnly.rxKept (sendsOnly_send _ _) : RxKept { s with ll := { s.ll with maskSent := s.openNow } } _)

theorem refreshOpen_frame {K H s t} (h : Frame K H s t) (hK : openKeys ⊆ K) : Frame K H s t.refreshOpen := by
  have hopen := h.trans ((opensShown_frame t).mono hK (H' := H) (by simp))
  rw [refreshOpen_eq]
  exact .ite (fun _ => sendCredit_frame hopen fun _ hk => hK (List.mem_append_left _ hk)) fun _ => hopen

theorem refreshOpen_rxKept (s : State) : RxKept s s.refreshOpen := by
  have hopen : RxKept s s.opensShown := by rw [RxKept, opensShown_ll]; exact ⟨rfl, rfl⟩
  rw [refreshOpen_eq]
  split
  · exact hopen.trans (sendCredit_rxKept _)
  · exact hopen

/-- The registers that an acknowledged frame may change. -/
def ackedKeys : List Nat := openKeys ++ [Reg.shakeReleased, Reg.shakeState] ++ allStreams.map Reg.shakePos

theorem releaseStream_frame {K H s t} (st : Nat) (h : Frame K H s t) (hK : ackedKeys ⊆ K) : Frame K H s (t.releaseStream st) := by
  have hflag := h.flag Reg.shakeReleased st (hK (by decide))
  have hopen : openKeys ⊆ K := fun _ hk => hK (List.mem_append_left _ (List.mem_append_left _ hk))
  unfold State.releaseStream
  extract_lets u
  by_cases hall : u.rd Reg.shakeReleased % 256 = 0xFF
  · rw [if_pos hall]
    exact refreshOpen_frame (hflag.wr _ _ (hK (by decide))) hopen
  · rw [if_neg hall]
    exact refreshOpen_frame hflag hopen

theorem releaseStream_rxKept (s : State) (st : Nat) : RxKept s (s.releaseStream st) := by
  unfold State.releaseStream
  refine .trans ?_ (refreshOpen_rxKept _)
  split <;> exact ⟨rfl, rfl⟩

theorem stream_mem (n : Nat) : n % 8 ∈ allStreams := List.mem_range.mpr (Nat.mod_lt _ (by decide))

theorem frameAcked_frame {K H s t} (f : TxFrame) (h : Frame K H s t) (hK : ackedKeys ⊆ K) : Frame K H s (t.frameAcked f) := by
  unfold State.frameAcked
  dsimp only
  refine .ite (fun _ => h.wr _ _ (hK ?_)) fun _ => .ite (fun _ => releaseStream_frame _ h hK) fun _ => h
  exact List.mem_append_right _ (mem_map_streams _ (stream_mem _))

theorem frameAcked_rxKept (s : State) (f : TxFrame) : RxKept s (s.frameAcked f) := by
  unfold State.frameAcked
  dsimp only
  split
  · exact ⟨rfl, rfl⟩
  · split
    · exact releaseStream_rxKept s _
    · exact ⟨rfl, rfl⟩

/-- The frames up to and including `a`. -/
def State.covered (s : State) (a : Nat) : List (Nat × TxFrame) := s.ll.retry.take ((a + 1 + 4096 - s.rd Reg.txOldestSeq) % 4096)

/-- The frames up to and including `a` leave the retry buffer. -/
def State.freed (s : State) (a : Nat) : State :=
  let u : State := { s with ll := { s.ll with retry := s.ll.retry.drop ((a + 1 + 4096 - s.rd Reg.txOldestSeq) % 4096), replayRun := 0 } }
  (u.wr Reg.txOldestSeq ((a + 1) % 4096)).wr Reg.retryBytes (u.rd Reg.retryBytes - ((s.covered a).map (fun e => e.2.size)).sum)

/-- The frames that an ACK covers are told what it means. -/
def State.allAcked (s : State) (l : List (Nat × TxFrame)) : State := s.each l (fun e s => s.frameAcked e.2)

theorem freeTo_eq {s : State} {a : Nat} (hsome : s.covered a ≠ []) : s.freeTo a = ((s.freed a).allAcked (s.covered a)).llPump :=
  if_neg (by simpa [State.covered] using hsome)

theorem freeTo_none {s : State} {a : Nat} (hnone : s.covered a = []) : s.freeTo a = s :=
  if_pos (by simpa [State.covered] using hnone)

theorem allAcked_frame {K H s t} (l : List (Nat × TxFrame)) (h : Frame K H s t) (hK : ackedKeys ⊆ K) : Frame K H s (t.allAcked l) :=
  .each _ _ (fun e _ hu => frameAcked_frame e.2 hu hK) h

theorem allAcked_rxKept (s : State) (l : List (Nat × TxFrame)) : RxKept s (s.allAcked l) :=
  each_keeps (P := RxKept s) l (fun e s => s.frameAcked e.2) (fun e _ u hu => hu.trans (frameAcked_rxKept u e.2)) ⟨rfl, rfl⟩

/-- What an ACK that covers frames leaves (R309). -/
theorem freeTo_spec {s : State} {a : Nat} (hsome : s.covered a ≠ []) :
    (s.freeTo a).rd Reg.txOldestSeq = (a + 1) % 4096 ∧ (s.freeTo a).ll.replayRun = 0 ∧ (s.freeTo a).ll.rxq = s.ll.rxq ∧
    Frame (Reg.txOldestSeq :: ackedKeys) [] s (s.freeTo a) := by
  have hpump := sendOnly_llPump ((s.freed a).allAcked (s.covered a))
  have hacked := allAcked_frame (s.covered a) (Frame.refl ackedKeys [] (s.freed a)) fun _ h => h
  obtain ⟨hq, hrun⟩ := (allAcked_rxKept (s.freed a) (s.covered a)).trans (SendsOnly.rxKept (sendsOnly_llPump _))
  have hfreed : Frame (Reg.txOldestSeq :: ackedKeys) [] s (s.freed a) :=
    (((Frame.refl ..).ll _).wr _ _ (by decide)).wr _ _ (by decide)
  rw [freeTo_eq hsome]
  refine ⟨?_, hrun.trans rfl, hq.trans rfl, ?_⟩
  · rw [hpump.rd (by decide), hacked.rd (by decide), State.freed, State.rd_wr_ne _ _ (by decide), rd_wr_of_lt]
    exact (Nat.mod_lt _ (by decide)).trans (by decide)
  · exact hpump.frame (by decide) (hfreed.trans (hacked.mono (List.subset_cons_self ..) fun _ h => h))

/-- Contents that are taken leave the queue, nothing else changes. -/
theorem takeAny_eq_some {s u : State} {c : RxFrame → Bool} {f : RxFrame} (h : s.takeAny c = some (f, u)) :
    u = { s with ll := { s.ll with rxq := s.ll.rxq.erase f } } := by
  unfold State.takeAny at h
  split at h
  · simp only [Option.some.injEq, Prod.mk.injEq] at h
    obtain ⟨rfl, rfl⟩ := h
    rfl
  · simp at h

theorem exec_ackRx {s u : State} {f : RxFrame} (h : s.takeAny (fun g => g.ty = 1) = some (f, u)) :
    exec .ackRx s = if u.ackValid (field f.payload 0 2 % 4096) then .next (u.freeTo (field f.payload 0 2 % 4096))
      else .next (u.llViolation Vc.ackseq) := by
  have hexec : exec .ackRx s = execAckRx s := rfl
  rw [hexec, execAckRx, h]

theorem exec_nakRx {s u : State} {f : RxFrame} {a : Nat} (h : s.takeAny (fun g => g.ty = 2) = some (f, u))
    (ha : a = field f.payload 0 2 % 4096) (hvalid : u.ackValid a = true) :
    exec .nakRx s = if ((u.bump Reg.naksRx).freeTo a).ll.retry.isEmpty || ((u.bump Reg.naksRx).freeTo a).ll.replaying
      then .next ((u.bump Reg.naksRx).freeTo a) else .next ((u.bump Reg.naksRx).freeTo a).startReplay := by
  have hvalid' : (u.bump Reg.naksRx).ackValid a = true := by
    rw [State.ackValid, rd_bump_ne _ (by decide), rd_bump_ne _ (by decide)]
    exact hvalid
  have hexec : exec .nakRx s = execNakRx s := rfl
  rw [hexec, execNakRx, h]
  dsimp only
  rw [← ha, if_neg (by simp [hvalid'])]

/-! ### Replays (R310, R325) -/

/-- A replay begins. -/
def State.replayBegun (s : State) : State :=
  { (s.bump Reg.replays).flag Reg.llFlags 0 with
    ll := { s.ll with replayRun := s.ll.replayRun + 1, replaying := true, resent := s.ll.retry.map (fun e => e.2.bytes e.1 true) } }

/-- Replays have brought no progress. -/
def State.replaysSpent (s : State) : State :=
  ((s.flag Reg.llFlags 1).bump Reg.replayRetrains).event 0x3101 0xFF 0 (s.rd Reg.replays)

theorem startReplay_of_room {s : State} (h : s.ll.replayRun < s.rd Reg.replayLimit) : s.startReplay = s.replayBegun :=
  if_neg (Nat.not_le.mpr h)

theorem startReplay_of_spent {s : State} (h : s.rd Reg.replayLimit ≤ s.ll.replayRun) : s.startReplay = s.replaysSpent.linkRequest := by
  unfold State.startReplay State.replaysSpent
  rw [if_pos h]

theorem replayBegun_spec (s : State) : Counts Reg.replays s s.replayBegun ∧ s.replayBegun.bitOf Reg.llFlags 0 = true ∧
    Frame [Reg.replays, Reg.llFlags] [] s s.replayBegun := by
  have hframe : Frame [Reg.replays, Reg.llFlags] [] s ((s.bump Reg.replays).flag Reg.llFlags 0) :=
    ((Frame.refl ..).bump _ (by simp)).flag _ _ (by simp)
  refine ⟨?_, ?_, hframe.ll _⟩
  · exact (rd_flag_ne _ _ (by decide) : ((s.bump Reg.replays).flag Reg.llFlags 0).rd Reg.replays = _).trans (rd_bump ..)
  · exact (bitOf_flag _ (by decide) : ((s.bump Reg.replays).flag Reg.llFlags 0).bitOf Reg.llFlags 0 = true)

/-- A flag of the link layer stands through a drop of the link (R316). -/
theorem linkDown_llFlag {s : State} {i : Nat} (cause next : Nat) (hi : i < 8 * sizeAt Reg.llFlags) (h : s.bitOf Reg.llFlags i = true) :
    (s.linkDown cause next).bitOf Reg.llFlags i = true := by
  have hnoted : (s.dropNoted cause).bitOf Reg.llFlags i = true := by rwa [bitOf_of_rd i ((dropNoted_frame s cause).rd (by decide))]
  have hend : (s.dropNoted cause).sessionEnd.bitOf Reg.llFlags i = true := by
    by_cases hll : (s.dropNoted cause).rd Reg.llState = 0
    · rwa [show (s.dropNoted cause).sessionEnd = s.dropNoted cause from if_pos hll]
    · have hlost : (s.dropNoted cause).retryLost.bitOf Reg.llFlags i = true := by
        unfold State.retryLost
        split
        · exact hnoted
        · exact (bitOf_of_rd i (State.rd_event _ _ _ _ _ _ (by decide))).trans (bitOf_flag_of_bitOf 2 hi hnoted)
      have hlapsed := limitsLapsed_frame (s.dropNoted cause).retryLost.sessionDropped
      have hrest : Frame [Reg.retryBytes, Reg.llState, Reg.shakeState] [] (s.dropNoted cause).retryLost.sessionDropped.limitsLapsed
          (((s.dropNoted cause).retryLost.sessionDropped.limitsLapsed.wr Reg.retryBytes 0).wr Reg.llState 0).shakePauseOnEnd :=
        shakePauseOnEnd_frame (((Frame.refl ..).wr _ _ (by simp)).wr _ _ (by simp)) (by simp)
      rw [sessionEnd_eq hll, bitOf_of_rd i (hrest.rd (by decide)), bitOf_of_rd i (hlapsed.rd (by decide))]
      exact hlost
  have hcleared := linkCleared_frame next (Frame.refl [Reg.linkUp, Reg.linkState, Reg.rateNow, Reg.widthNow, Reg.txIdle, Reg.rxIdle] []
      (s.dropNoted cause).sessionEnd) fun _ h => h
  rwa [linkDown_eq, bitOf_of_rd i ((trainOnly_repeatScans _).rd _), bitOf_of_rd i (hcleared.rd (by decide))]

theorem fastBegun_rd (s : State) (k : Nat) : s.fastBegun.rd k = s.rd k := rfl

theorem fastRetrain_llFlag {s : State} {cause i : Nat} (hdrop : s.dropped = false) (hi : i < 8 * sizeAt Reg.llFlags)
    (h : s.bitOf Reg.llFlags i = true) : (s.fastRetrain cause).bitOf Reg.llFlags i = true := by
  have hlanes := lanesDown_frame ((s.linkDown cause Ls.eq).bump Reg.fastRetrains)
  have htrain : TrainOnly ((s.linkDown cause Ls.eq).bump Reg.fastRetrains).lanesDown.fastBegun
      ((s.linkDown cause Ls.eq).bump Reg.fastRetrains).lanesDown.fastBegun.clearSets.beginSets :=
    (trainOnly_clearSets _).trans (trainOnly_beginSets _)
  rw [fastRetrain_eq cause hdrop, bitOf_of_rd i (htrain.rd _), bitOf_of_rd i (fastBegun_rd _ _), bitOf_of_rd i (hlanes.rd (by decide)),
    bitOf_of_rd i (rd_bump_ne _ (by decide))]
  exact linkDown_llFlag cause Ls.eq hi h

theorem exec_replayTimeout {s : State} (hup : s.sessionUp = true) (hretry : s.ll.retry ≠ []) (hnot : s.ll.replaying = false) :
    exec .replayTimeout s = .next s.startReplay := if_pos (by simp [hup, hretry, hnot])

theorem active_of_sessionUp {s : State} (h : s.sessionUp = true) : s.rd Reg.linkState = Ls.active := by
  simp only [State.sessionUp, Bool.and_eq_true, decide_eq_true_eq] at h
  exact h.1

theorem exec_ackTimer {s : State} (hup : s.sessionUp = true) (hcover : s.ll.uncovered ≠ 0) : exec .ackTimer s = .next s.sendAck :=
  if_pos (by simp [hup, hcover])

theorem linkRequest_of_active {s : State} (h : s.rd Reg.linkState = Ls.active) : s.linkRequest = s.fastRetrain 5 :=
  if_pos (wasActive_of_active h)

/-- What the spent replays note comes before the retrain. -/
theorem replaysSpent_spec (s : State) : Counts Reg.replayRetrains s s.replaysSpent ∧ s.replaysSpent.bitOf Reg.llFlags 1 = true ∧
    s.replaysSpent.dropped = s.dropped ∧ Frame (eventKeys ++ [Reg.llFlags, Reg.replayRetrains]) [] s s.replaysSpent := by
  refine ⟨?_, ?_, ?_, ?_⟩
  · rw [Counts, State.replaysSpent, State.rd_event _ _ _ _ _ _ (by decide), rd_bump, rd_flag_ne _ _ (by decide)]
  · rw [State.replaysSpent, bitOf_of_rd 1 (State.rd_event _ _ _ _ _ _ (by decide)), bitOf_of_rd 1 (rd_bump_ne _ (by decide))]
    exact bitOf_flag _ (by decide)
  · exact ((((ViolOnly.refl s).flag _ _).wr _ _).event _ _ _ _ _).dropped
  · exact (((Frame.refl ..).flag _ _ (by decide)).bump _ (by decide)).event _ _ _ _ _ (List.subset_append_left ..)

/-- Settles O22: an ACK is `freeTo_spec`, a replay `replayBegun_spec`, the replays' end `fastRetrain_spec`. -/
theorem framesAreAcknowledgedAndReplayed : Obligations.FramesAreAcknowledgedAndReplayed := by
  refine ⟨fun s a hup hcover hawake ha => ?ack, fun s hup hcover hidle => ?ackLater, fun s u f a htake ha hvalid hretry hsome => ?frees,
    fun s u f htake hvalid => ?invalid, fun s u f a htake ha hvalid hnone hretry hnot hroom => ?nak,
    fun s hup hretry hnot hroom => ?replay, fun s hup hretry hnot hspent hdrop => ?spent⟩
  case ack =>
    exact ⟨s.sendAck, exec_ackTimer hup hcover, (sendAck_of_awake hawake).trans (by rw [ha]; rfl)⟩
  case ackLater =>
    obtain ⟨due, hdue, hout⟩ := sendAck_of_idle hidle
    refine ⟨_, (exec_ackTimer hup hcover).trans (congrArg _ hout), hdue, rfl, rfl, (Frame.refl ..).ll _⟩
  case frees =>
    obtain rfl := takeAny_eq_some htake
    have hcovered : State.covered { s with ll := { s.ll with rxq := s.ll.rxq.erase f } } a ≠ [] := by
      have hbuf : s.ll.retry.take ((a + 1 + 4096 - s.rd Reg.txOldestSeq) % 4096) ≠ [] := by
        simp [hsome, hretry]
      exact hbuf
    obtain ⟨holdest, hrun, hq, hframe⟩ := freeTo_spec hcovered
    refine ⟨_, (exec_ackRx htake).trans (if_pos ?_), ?_⟩
    · rw [← ha]
      exact hvalid
    · rw [← ha]
      exact ⟨holdest, hrun, hq, ((Frame.refl ..).ll _).trans (hframe.mono (by decide) fun _ h => h)⟩
  case invalid =>
    obtain rfl := takeAny_eq_some htake
    obtain ⟨hviol, hcount, hframe, _⟩ := llViolation_spec { s with ll := { s.ll with rxq := s.ll.rxq.erase f } } (cls := Vc.ackseq) (by decide)
    refine ⟨_, (exec_ackRx htake).trans (if_neg (ne_true_of_eq_false hvalid)), hviol, hcount, hframe.rd (by decide),
      ((Frame.refl ..).ll _).trans hframe⟩
  case nak =>
    obtain rfl := takeAny_eq_some htake
    have hsame : (State.bump { s with ll := { s.ll with rxq := s.ll.rxq.erase f } } Reg.naksRx).freeTo a =
        State.bump { s with ll := { s.ll with rxq := s.ll.rxq.erase f } } Reg.naksRx := by
      refine freeTo_none ?_
      have hold : (State.bump { s with ll := { s.ll with rxq := s.ll.rxq.erase f } } Reg.naksRx).rd Reg.txOldestSeq = s.rd Reg.txOldestSeq :=
        rd_bump_ne _ (by decide)
      rw [State.covered, hold, hnone, List.take_zero]
    have hroom' : (State.bump { s with ll := { s.ll with rxq := s.ll.rxq.erase f } } Reg.naksRx).ll.replayRun <
        (State.bump { s with ll := { s.ll with rxq := s.ll.rxq.erase f } } Reg.naksRx).rd Reg.replayLimit := by
      rw [rd_bump_ne _ (by decide), State.bump_ll]
      exact hroom
    obtain ⟨hcount, hflag, hframe⟩ := replayBegun_spec (State.bump { s with ll := { s.ll with rxq := s.ll.rxq.erase f } } Reg.naksRx)
    have hexec := exec_nakRx htake ha hvalid
    rw [hsame, if_neg (by simp [hretry, hnot]), startReplay_of_room hroom'] at hexec
    refine ⟨_, hexec, ?_, hcount.since (rd_bump_ne _ (by decide)), rfl, rfl, rfl, hflag, ?_⟩
    · exact (hframe.rd (by decide)).trans (rd_bump ..)
    · exact (((Frame.refl ..).ll _).bump _ (by simp)).trans (hframe.mono (by simp) fun _ h => h)
  case replay =>
    obtain ⟨hcount, hflag, hframe⟩ := replayBegun_spec s
    have hexec := exec_replayTimeout hup hretry hnot
    rw [startReplay_of_room hroom] at hexec
    exact ⟨_, hexec, hcount, rfl, rfl, hflag, rfl, hframe⟩
  case spent =>
    obtain ⟨hcount, hflag, hsame, hpre⟩ := replaysSpent_spec s
    have hact : s.replaysSpent.rd Reg.linkState = Ls.active := (hpre.rd (by decide)).trans (active_of_sessionUp hup)
    have hexec := exec_replayTimeout hup hretry hnot
    rw [startReplay_of_spent hspent, linkRequest_of_active hact] at hexec
    obtain ⟨hdrops, hretrains, _, _, hframe, _⟩ := fastRetrain_spec (cause := 5) (hsame.trans hdrop) (not_disabled_of_active hact) (by decide)
    refine ⟨_, hexec, (hframe.rd (by decide)).trans hcount, fastRetrain_llFlag (hsame.trans hdrop) (by decide) hflag,
      hdrops.since (hpre.rd (by decide)), hretrains.since (hpre.rd (by decide)), ?_⟩
    exact (hpre.mono (by decide) fun _ h => h).trans (hframe.mono (retrainKeys_subset _) fun _ h => h)

end Sys2Proof.Machine
end

section
/-! PROOF. A received frame is checked in the order of the rules (spec/12_link_layer.md R307, R308, R323, R324). -/
namespace Sys2Proof.Machine

theorem exec_frameRx_ended {s : State} {b : List Byte} (hup : s.sessionUp = true) (hlen : (b.map (·.toNat)).length ≤ 65568) :
    exec (.frameRx b 0) s = .next (s.takeFrame (b.map (·.toNat))) := by
  have hexec : exec (.frameRx b 0) s = execFrameRx b 0 s := rfl
  rw [hexec, execFrameRx]
  rw [if_neg (by simp [hup]), if_neg (by simpa using hlen)]

theorem exec_frameRx_aborted (s : State) (b : List Byte) : exec (.frameRx b 1) s = .next s := by
  have hexec : exec (.frameRx b 1) s = execFrameRx b 1 s := rfl
  rw [hexec, execFrameRx]
  rw [if_pos (by simp)]

theorem exec_frameRx_misframed {s : State} (b : List Byte) (hup : s.sessionUp = true) :
    exec (.frameRx b 2) s = .next (((s.bump Reg.framingErrs).llViolation Vc.framing).sendNak 3) := by
  have hexec : exec (.frameRx b 2) s = execFrameRx b 2 s := rfl
  rw [hexec, execFrameRx]
  rw [if_neg (by simp [hup]), if_pos (by simp)]

theorem takeFrame_corrupt {s : State} {l : List Nat} (hcrc : crc32 (l.take (l.length - 4)) ≠ field l (l.length - 4) 4) :
    s.takeFrame l = ((s.bump Reg.crcErrs).llViolation Vc.crc).sendNak 1 := if_pos (by simp [hcrc])

/-- What a sequenced frame comes to, by how far it lies behind the one expected (R307). -/
def State.frameOrdered (s : State) (l : List Nat) (d : Nat) : State :=
  if d = 0 then s.acceptFrame.rxContents (l.getD 0 0) (field l 1 2) (l.getD 3 0) (field l 4 4) ((l.take (l.length - 4)).drop 8)
  else if d ≤ 2048 then (s.bump Reg.dupsDropped).sendAck
  else s.sendNak 2

theorem takeFrame_sequenced {s : State} {l : List Nat} (hlen : 12 ≤ l.length)
    (hcrc : crc32 (l.take (l.length - 4)) = field l (l.length - 4) 4) (hack : l.getD 0 0 ≠ 1) (hnak : l.getD 0 0 ≠ 2) :
    s.takeFrame l = (s.bump Reg.framesRx).frameOrdered l ((s.rd Reg.rxExpected + 4096 - field l 1 2 % 4096) % 4096) := by
  have hgood : (decide (l.length < 12) || decide (crc32 (l.take (l.length - 4)) ≠ field l (l.length - 4) 4)) = false := by
    simp only [hcrc, ne_eq, not_true_eq_false, decide_false, Bool.or_false, decide_eq_false_iff_not, not_lt]
    exact hlen
  have htype : (decide (l.getD 0 0 = 1) || decide (l.getD 0 0 = 2)) = false := by
    rw [decide_eq_false hack, decide_eq_false hnak]
    rfl
  unfold State.takeFrame
  extract_lets n u ty seqw p go d
  rw [if_neg (ne_true_of_eq_false hgood), if_neg (ne_true_of_eq_false htype)]
  have hd : d = (s.rd Reg.rxExpected + 4096 - field l 1 2 % 4096) % 4096 := by
    have hrd : u.rd Reg.rxExpected = s.rd Reg.rxExpected := rd_bump_ne _ (by decide)
    rw [← hrd]
  rw [← hd]
  rfl

/-! ### A frame in order -/

/-- Accepting a frame moves the expected SEQ on and forgets that a NAK was sent. -/
theorem acceptFrame_eq (s : State) : ∃ x : LinkLayer, x.rxq = s.ll.rxq ∧ x.nakSent = false ∧
    s.acceptFrame = { s.wr Reg.rxExpected ((s.rd Reg.rxExpected + 1) % 4096) with ll := x } := by
  unfold State.acceptFrame
  extract_lets u x v
  split
  · obtain ⟨_, _, _, h⟩ := ackOut_ackOnly { v with ll := { v.ll with uncovered := 0 } } 1 0
    rw [State.sendAck, h]
    refine ⟨_, ?_, ?_, rfl⟩ <;> rfl
  · exact ⟨v.ll, rfl, rfl, rfl⟩

theorem acceptFrame_spec (s : State) : s.acceptFrame.rd Reg.rxExpected = (s.rd Reg.rxExpected + 1) % 4096 ∧
    s.acceptFrame.ll.rxq = s.ll.rxq ∧ s.acceptFrame.ll.nakSent = false ∧ s.acceptFrame.ctrlWaiting = s.ctrlWaiting ∧
    Frame [Reg.rxExpected] [] s s.acceptFrame := by
  obtain ⟨x, hq, hnak, h⟩ := acceptFrame_eq s
  rw [h]
  refine ⟨?_, hq, hnak, ?_, ((Frame.refl ..).wr _ _ (by simp)).ll _⟩
  · exact rd_wr_of_lt (k := Reg.rxExpected) _ ((Nat.mod_lt _ (by decide)).trans (by decide))
  · unfold State.ctrlWaiting
    dsimp only
    rw [hq]
    rfl

/-- Contents that meet every check wait to be applied (R324). -/
theorem rxContents_good {s : State} {ty seqw flags len : Nat} {p : List Nat} (hty : hostType ty = true) (hctrl : ty = 0x20 → s.ctrlWaiting < 8)
    (hlen : len = p.length) (hfits : lenFits ty p = true) (hrsv : rsvBad ty seqw flags p = false) :
    s.rxContents ty seqw flags len p = s.pushRx ty (seqw / 4096 % 8) p := by
  have hroom : (decide (ty = 0x20) && decide (8 ≤ s.ctrlWaiting) && !s.linkQuar) = false := by
    by_cases h : ty = 0x20
    · rw [decide_eq_false (Nat.not_le.mpr (hctrl h))]
      simp
    · simp [h]
  unfold State.rxContents
  rw [if_neg (by simp [hty]), if_neg (by simp [hlen, hfits])]
  simp only [hrsv, State.iff, Bool.false_eq_true, if_false]
  exact if_neg (ne_true_of_eq_false hroom)

theorem hostType_sequenced {ty : Nat} (h : hostType ty = true) : ty ≠ 1 ∧ ty ≠ 2 := by
  constructor <;> rintro rfl <;> exact absurd h (by decide)

/-- A frame that has come before is counted and covered by an ACK. -/
def State.dupAcked (s : State) : State := ((s.bump Reg.framesRx).bump Reg.dupsDropped).sendAck

theorem dupAcked_spec (s : State) : Counts Reg.dupsDropped s s.dupAcked ∧ Counts Reg.framesRx s s.dupAcked ∧
    (s.rd Reg.txIdle = 0 → s.dupAcked.ll.lastAck = some (1, (s.rd Reg.rxExpected + 4095) % 4096, 0)) ∧
    (s.rd Reg.txIdle ≠ 0 → (1, 0) ∈ s.dupAcked.ll.acksDue) ∧ s.dupAcked.ll.uncovered = 0 ∧ s.dupAcked.ll.rxq = s.ll.rxq ∧
    Frame [Reg.framesRx, Reg.dupsDropped] [] s s.dupAcked := by
  have hbump : Frame [Reg.framesRx, Reg.dupsDropped] [] s ((s.bump Reg.framesRx).bump Reg.dupsDropped) :=
    ((Frame.refl ..).bump _ (by simp)).bump _ (by simp)
  have hdups : Counts Reg.dupsDropped s ((s.bump Reg.framesRx).bump Reg.dupsDropped) :=
    (counts_bump ..).since (rd_bump_ne _ (by decide))
  have hframes : Counts Reg.framesRx s ((s.bump Reg.framesRx).bump Reg.dupsDropped) := (rd_bump_ne _ (by decide)).trans (rd_bump ..)
  have hexpected : ((s.bump Reg.framesRx).bump Reg.dupsDropped).rd Reg.rxExpected = s.rd Reg.rxExpected := hbump.rd (by decide)
  have hll : ((s.bump Reg.framesRx).bump Reg.dupsDropped).ll = s.ll := by rw [State.bump_ll, State.bump_ll]
  rw [← hbump.rd (k := Reg.txIdle) (by decide), ← hexpected, ← hll]
  unfold State.dupAcked
  generalize (s.bump Reg.framesRx).bump Reg.dupsDropped = u at *
  obtain ⟨last, wire, due, hout⟩ := ackOut_ackOnly { u with ll := { u.ll with uncovered := 0 } } 1 0
  have hsend : u.sendAck = { u with ll := { u.ll with uncovered := 0, lastAck := last, wire := wire, acksDue := due } } := hout
  refine ⟨?_, ?_, fun h => ?_, fun h => ?_, ?_, ?_, ?_⟩
  · rw [hsend]
    exact hdups
  · rw [hsend]
    exact hframes
  · rw [sendAck_of_awake h]
    rfl
  · obtain ⟨_, hdue, hlater⟩ := sendAck_of_idle h
    rw [hlater]
    exact hdue
  · rw [hsend]
  · rw [hsend]
  · rw [hsend]
    exact hbump.ll _

/-- A frame out of order brings a NAK. -/
theorem sendNak_spec {s : State} (reason : Nat) (hnot : s.ll.nakSent = false) : Counts Reg.naksSent s (s.sendNak reason) ∧
    (s.rd Reg.txIdle = 0 → (s.sendNak reason).ll.lastAck = some (2, (s.rd Reg.rxExpected + 4095) % 4096, reason)) ∧
    (s.rd Reg.txIdle ≠ 0 → (2, reason) ∈ (s.sendNak reason).ll.acksDue) ∧ (s.sendNak reason).ll.uncovered = s.ll.uncovered ∧
    (s.sendNak reason).ll.rxq = s.ll.rxq := by
  obtain ⟨last, wire, due, hout⟩ := ackOut_ackOnly { s with ll := { s.ll with nakSent := true } } 2 reason
  have hsend : s.sendNak reason = (State.ackOut { s with ll := { s.ll with nakSent := true } } 2 reason).bump Reg.naksSent :=
    if_neg (ne_true_of_eq_false hnot)
  rw [hsend, State.bump_ll]
  refine ⟨?_, fun h => ?_, fun h => ?_, ?_, ?_⟩
  · rw [hout]
    exact counts_bump _ _
  · rw [ackOut_of_awake (s := { s with ll := { s.ll with nakSent := true } }) _ _ h]
    rfl
  · obtain ⟨_, hdue, hlater⟩ := ackOut_of_idle (s := { s with ll := { s.ll with nakSent := true } }) 2 reason h
    rw [hlater]
    exact hdue
  · rw [hout]
  · rw [hout]

theorem pushRx_rd (s : State) (ty stream : Nat) (p : List Nat) (k : Nat) : (s.pushRx ty stream p).rd k = s.rd k := rfl

/-- A frame in order is accepted and its contents wait. -/
theorem pushRx_accepted (s : State) (ty stream : Nat) (p : List Nat) :
    ((s.bump Reg.framesRx).acceptFrame.pushRx ty stream p).rd Reg.rxExpected = (s.rd Reg.rxExpected + 1) % 4096 ∧
    Counts Reg.framesRx s ((s.bump Reg.framesRx).acceptFrame.pushRx ty stream p) ∧
    ((s.bump Reg.framesRx).acceptFrame.pushRx ty stream p).ll.rxq =
      s.ll.rxq ++ [{ ty := ty, stream := stream, payload := p, session := s.rd Reg.session }] ∧
    ((s.bump Reg.framesRx).acceptFrame.pushRx ty stream p).ll.nakSent = false ∧
    Frame [Reg.rxExpected, Reg.framesRx] [] s ((s.bump Reg.framesRx).acceptFrame.pushRx ty stream p) := by
  obtain ⟨hexpected, hq, hnone, _, hframe⟩ := acceptFrame_spec (s.bump Reg.framesRx)
  rw [rd_bump_ne _ (by decide)] at hexpected
  rw [State.bump_ll] at hq
  have hsession : (s.bump Reg.framesRx).acceptFrame.rd Reg.session = s.rd Reg.session :=
    (hframe.rd (by decide)).trans (rd_bump_ne _ (by decide))
  have hcount : Counts Reg.framesRx s (s.bump Reg.framesRx).acceptFrame := (hframe.rd (by decide)).trans (rd_bump ..)
  have hall : Frame [Reg.rxExpected, Reg.framesRx] [] s (s.bump Reg.framesRx).acceptFrame :=
    ((Frame.refl ..).bump _ (by simp)).trans (hframe.mono (by simp) fun _ h => h)
  generalize (s.bump Reg.framesRx).acceptFrame = u at *
  refine ⟨(pushRx_rd ..).trans hexpected, (pushRx_rd ..).trans hcount, ?_, hnone, hall.ll _⟩
  rw [← hq, ← hsession]
  rfl

/-- Settles O21: a frame in order is `acceptFrame_spec` and `rxContents_good`, any other an ACK, a NAK, or a violation with a NAK. -/
theorem framesAreCheckedInOrder : Obligations.FramesAreCheckedInOrder := by
  refine ⟨fun s b l ty seqw flags len p hup hl hlow hhigh hcrc hty hseqw hflags hlen hp hhost hctrl hplen hfits hrsv hnext => ?inOrder,
    fun s b l d hup hl hlow hhigh hcrc hack hnak hd hone hdup => ?duplicate,
    fun s b l d hup hl hlow hhigh hcrc hack hnak hd hlost hnot => ?outOfOrder, fun s b l hup hl hlow hhigh hcrc hnot => ?corrupt,
    fun s b hup => ⟨s, exec_frameRx_aborted s b, rfl⟩, fun s b hup => ?misframed⟩
  case inOrder =>
    obtain ⟨hack, hnak⟩ := hostType_sequenced hhost
    have hzero : (s.rd Reg.rxExpected + 4096 - field l 1 2 % 4096) % 4096 = 0 := by
      rw [← hseqw, hnext]
      omega
    obtain ⟨_, _, _, hwait, _⟩ := acceptFrame_spec (s.bump Reg.framesRx)
    have hcount : (s.bump Reg.framesRx).ctrlWaiting = s.ctrlWaiting := rfl
    have hexec := exec_frameRx_ended hup (hl ▸ hhigh)
    rw [← hl, takeFrame_sequenced hlow hcrc (hty ▸ hack) (hty ▸ hnak), hzero, State.frameOrdered, if_pos rfl, ← hty, ← hseqw, ← hflags, ← hlen,
      ← hp, rxContents_good hhost (fun h => (hwait.trans hcount).trans_lt (hctrl h)) hplen hfits hrsv] at hexec
    exact ⟨_, hexec, pushRx_accepted s ty _ p⟩
  case duplicate =>
    have hexec := exec_frameRx_ended hup (hl ▸ hhigh)
    rw [← hl, takeFrame_sequenced hlow hcrc hack hnak, ← hd, State.frameOrdered, if_neg (by omega), if_pos hdup] at hexec
    exact ⟨_, hexec, dupAcked_spec s⟩
  case outOfOrder =>
    have hexec := exec_frameRx_ended hup (hl ▸ hhigh)
    rw [← hl, takeFrame_sequenced hlow hcrc hack hnak, ← hd, State.frameOrdered, if_neg (by omega), if_neg (by omega)] at hexec
    obtain ⟨hcount, hlast, hdue, hcover, hq⟩ := sendNak_spec (s := s.bump Reg.framesRx) 2 hnot
    rw [rd_bump_ne _ (by decide)] at hlast hdue
    rw [rd_bump_ne _ (by decide)] at hlast
    exact ⟨_, hexec, hcount.since (rd_bump_ne _ (by decide)), hlast, hdue, sendNak_nakSent _ _, hcover, hq,
      sendNak_frame 2 ((Frame.refl ..).bump _ (by simp)) (by simp)⟩
  case corrupt =>
    have hexec := exec_frameRx_ended hup (hl ▸ hhigh)
    rw [← hl, takeFrame_corrupt hcrc] at hexec
    obtain ⟨hviol, hcount, hframe, _⟩ := llViolation_spec (s.bump Reg.crcErrs) (cls := Vc.crc) (by decide)
    have hnaked := sendNak_frame 1 (Frame.refl [Reg.naksSent] [] ((s.bump Reg.crcErrs).llViolation Vc.crc)) (by simp)
    refine ⟨_, hexec, ?_, ?_, ?_, sendNak_nakSent _ _, ?_, ?_⟩
    · exact (hnaked.rd (by decide)).trans ((hframe.rd (by decide)).trans (rd_bump ..))
    · exact ((hnaked.rd (by decide)).trans hcount).trans (by rw [rd_bump_ne _ (by decide)])
    · exact (hviol.since (rd_bump_ne _ (by decide)) (rd_bump_ne _ (by decide))).after hnaked (by decide) (by decide)
    · exact (hnaked.rd (by decide)).trans ((hframe.rd (by decide)).trans (rd_bump_ne _ (by decide)))
    · exact (((Frame.refl ..).bump _ (by simp)).trans (hframe.mono (List.subset_append_left ..) fun _ h => h)).trans
        (hnaked.mono (by simp) fun _ h => h)
  case misframed =>
    obtain ⟨hviol, _, hframe, _⟩ := llViolation_spec (s.bump Reg.framingErrs) (cls := Vc.framing) (by decide)
    have hnaked := sendNak_frame 3 (Frame.refl [Reg.naksSent] [] ((s.bump Reg.framingErrs).llViolation Vc.framing)) (by simp)
    refine ⟨_, exec_frameRx_misframed b hup, ?_, ?_, sendNak_nakSent _ _, ?_⟩
    · exact (hnaked.rd (by decide)).trans ((hframe.rd (by decide)).trans (rd_bump ..))
    · exact (hviol.since (rd_bump_ne _ (by decide)) (rd_bump_ne _ (by decide))).after hnaked (by decide) (by decide)
    · exact (((Frame.refl ..).bump _ (by simp)).trans (hframe.mono (List.subset_append_left ..) fun _ h => h)).trans
        (hnaked.mono (by simp) fun _ h => h)

end Sys2Proof.Machine
end

section
/-! PROOF. The members of the cascade are heard, reported and missed (spec/17_cascade.md R436-R441, R453, R456-R459). -/
namespace Sys2Proof.Machine

/-! ### Lists of registers that are set -/

theorem leValue_lt (l : List Nat) : leValue l < 256 ^ l.length := by
  induction l with
  | nil => simp [leValue]
  | cons b l ih =>
    simp [leValue, pow_succ]
    omega

theorem field_lt (p : List Nat) (i n : Nat) : field p i n < 256 ^ n :=
  (leValue_lt _).trans_le (Nat.pow_le_pow_right (by decide) (by simp))

/-- Registers are set one after the other. -/
def State.setAll (s : State) (l : List (Nat × Nat)) : State := s.each l (fun e s => s.wr e.1 e.2)

theorem setAll_cons (s : State) (e : Nat × Nat) (l) : s.setAll (e :: l) = (s.wr e.1 e.2).setAll l := rfl

theorem setAll_rd_other {l : List (Nat × Nat)} {k : Nat} : ∀ s : State, k ∉ l.map Prod.fst → (s.setAll l).rd k = s.rd k := by
  induction l with
  | nil => exact fun _ _ => rfl
  | cons e l ih =>
    intro s hk
    rw [List.map_cons, List.mem_cons, not_or] at hk
    rw [setAll_cons, ih _ hk.2, State.rd_wr_ne _ _ hk.1]

theorem setAll_rd {l : List (Nat × Nat)} : ∀ s : State, (l.map Prod.fst).Nodup → ∀ e ∈ l, (s.setAll l).rd e.1 = fit e.1 e.2 := by
  induction l with
  | nil => exact fun _ _ _ he => absurd he (by simp)
  | cons a l ih =>
    intro s hl e he
    rw [List.map_cons, List.nodup_cons] at hl
    rw [setAll_cons]
    rcases List.mem_cons.mp he with rfl | he
    · rw [setAll_rd_other _ hl.1, State.rd_wr_same]
      rfl
    · exact ih _ hl.2 e he

theorem setAll_frame {K H s t} (l : List (Nat × Nat)) (h : Frame K H s t) (hl : ∀ e ∈ l, e.1 ∈ K) : Frame K H s (t.setAll l) :=
  .each_mem _ _ (fun e he _ hu => hu.wr _ _ (hl e he)) h

theorem setAll_keeps (s : State) (l) : (s.setAll l).clk = s.clk ∧ (s.setAll l).cas = s.cas ∧ (s.setAll l).log = s.log ∧
    (s.setAll l).loaded = s.loaded :=
  each_keeps (P := fun u => u.clk = s.clk ∧ u.cas = s.cas ∧ u.log = s.log ∧ u.loaded = s.loaded) l (fun e s => s.wr e.1 e.2)
    (fun _ _ _ hu => hu) ⟨rfl, rfl, rfl, rfl⟩

/-! ### What node 1 notes of a member (Table CA-10) -/

/-- A member's registers lie at its own index. -/
theorem memberKeys_at {k q : Nat} (h : q ∈ memberKeys k) : q / 256 = 0x5100 + k := by
  simp only [memberKeys, List.mem_cons, List.not_mem_nil, or_false, Reg.mState, Reg.mLastHeard, Reg.mActivity, Reg.mFlags,
    Reg.mStartStep, Reg.mHeatLast, Reg.mFwVersion, Reg.mHuGroup, Reg.mHuWeight, Reg.mLoadPeak, Reg.mBoots, Reg.mSerial, Reg.mEventSeq,
    Reg.mMissedEvents, rkey] at h
  omega

theorem memberSizes : ∀ k : NodeIx, sizeAt (Reg.mState k) = 1 ∧ sizeAt (Reg.mActivity k) = 2 ∧ sizeAt (Reg.mHeatLast k) = 4 ∧
    sizeAt (Reg.mLoadPeak k) = 4 ∧ sizeAt (Reg.mSerial k) = 16 ∧ sizeAt (Reg.mFwVersion k) = 4 ∧ sizeAt (Reg.mEventSeq k) = 4 := by
  decide

/-- What noting a member's frame leaves standing: the time, who this node is, every other register. -/
structure Notes (K : List Nat) (s t : State) : Prop where
  frame : Frame K [] s t
  clk : t.clk = s.clk
  twin : t.cas.twin = s.cas.twin

theorem Notes.trans {K s t u} (h1 : Notes K s t) (h2 : Notes K t u) : Notes K s u :=
  ⟨h1.frame.trans h2.frame, h2.clk.trans h1.clk, h2.twin.trans h1.twin⟩

theorem Notes.mono {K K' s t} (h : Notes K s t) (hK : K ⊆ K') : Notes K' s t := ⟨h.frame.mono hK fun _ h => h, h.clk, h.twin⟩

theorem Notes.stamp {K s t} (h : Notes K s t) : t.stamp = s.stamp := by rw [State.stamp, h.clk, State.stamp]

theorem Notes.master {K s t} (h : Notes K s t) (hnode : Reg.nodeId ∉ K) : t.master = s.master := by
  rw [State.master, State.node, h.twin, h.frame.rd hnode, State.master, State.node]

/-- The registers that a member's frame may change. -/
def noteKeys (k : Nat) : List Nat := eventKeys ++ memberKeys k ++ [Reg.masterState]

theorem nodeId_notMem_noteKeys (k : Nat) : Reg.nodeId ∉ noteKeys k := by
  intro h
  rw [noteKeys, List.mem_append, List.mem_append] at h
  rcases h with (h | h) | h
  · exact absurd h (by decide)
  · have hat := memberKeys_at h
    have hid : Reg.nodeId / 256 < 0x5100 := by decide
    omega
  · exact absurd h (by decide)

theorem nodeId_notMem_memberKeys (k : Nat) : Reg.nodeId ∉ memberKeys k := fun h =>
  nodeId_notMem_noteKeys k (List.mem_append_left _ (List.mem_append_right _ h))

theorem member_setMember (s : State) (k m) : (s.setMember k m).member k = m := by
  rw [State.member, State.setMember]
  exact (tget_tset ..).trans (if_pos rfl)

theorem member_of_cas {s t : State} (h : t.cas.members = s.cas.members) (k) : t.member k = s.member k := by
  rw [State.member, h, State.member]

theorem setMember_notes (K : List Nat) (s : State) (k m) : Notes K s (s.setMember k m) := ⟨(Frame.refl ..).cas _, rfl, rfl⟩

theorem event_members (s : State) (code obj detail a b : Nat) : (s.event code obj detail a b).cas.members = s.cas.members := by
  obtain ⟨_, _, _, _, _, h, _⟩ := logOnly_event s code obj detail a b
  rw [h]

theorem event_notes (s : State) (code obj detail a b : Nat) : Notes eventKeys s (s.event code obj detail a b) := by
  refine ⟨(Frame.refl ..).event _ _ _ _ _ fun _ h => h, ?_, ?_⟩ <;>
    obtain ⟨_, _, _, _, _, h, _⟩ := logOnly_event s code obj detail a b <;> rw [h]

theorem table_of_master {s : State} (f : State → State) (h : s.master = true) : s.table f = f s := if_pos h

theorem refreshMaster_of_master {s : State} (h : s.master = true) : s.refreshMaster = s.wr Reg.masterState 0 := by
  simp only [State.master, Bool.and_eq_true, decide_eq_true_eq, Bool.not_eq_true'] at h
  rw [State.refreshMaster, if_pos h.1, if_neg (ne_true_of_eq_false h.2)]

theorem wr_notes (s : State) {K : List Nat} {k : Nat} (v : Nat) (hk : k ∈ K) : Notes K s (s.wr k v) :=
  ⟨(Frame.refl ..).wr _ _ hk, rfl, rfl⟩

/-- A member other than node 1 is heard. -/
theorem markHeard_spec {s : State} {k : Nat} (m : Member) (hk : k ≠ 0) :
    (s.markHeard k m).member k = { m with heard := true } ∧ Notes (memberKeys k) s (s.markHeard k m) := by
  have hmem : Reg.mState k ∈ memberKeys k := by simp [memberKeys]
  have heq : s.markHeard k m = (s.setMember k { m with heard := true }).table
      (fun s => if s.rd (Reg.mState k) = 0 then s.wr (Reg.mState k) 2 else s) := by
    unfold State.markHeard
    simp only [State.iff, decide_eq_true_eq, hk, if_false]
  rw [heq]
  have hset := setMember_notes (memberKeys k) s k { m with heard := true }
  unfold State.table State.iff
  split
  · dsimp only
    split
    · exact ⟨member_setMember .., hset.trans (wr_notes _ 2 hmem)⟩
    · exact ⟨member_setMember .., hset⟩
  · exact ⟨member_setMember .., hset⟩

/-- A member that was missed is back; the rest of what is kept of it stands. -/
theorem memberBack_spec {s : State} {k : Nat} (hk : k ≠ 0) (hmaster : s.master = true) :
    (s.memberBack k).member k = { s.member k with here := true } ∧ Notes (noteKeys k) s (s.memberBack k) := by
  have hmem : Reg.mState k ∈ noteKeys k := by simp [noteKeys, memberKeys]
  unfold State.memberBack
  extract_lets m u v
  by_cases hhere : m.here = true
  · rw [if_pos hhere]
    refine ⟨?_, (Frame.refl ..), rfl, rfl⟩
    show m = { m with here := true }
    rw [← hhere]
  · have hv : v = u := if_neg (by simp [hk])
    have hu : Notes (noteKeys k) s u := (setMember_notes _ s k { m with here := true }).trans
      ((event_notes _ 0x5002 (k + 1) 1 0 0).mono (by simp [noteKeys]))
    have hmaster' : u.master = true := (hu.master (nodeId_notMem_noteKeys k)).trans hmaster
    have hshown : (u.wr (Reg.mState k) 1).master = true :=
      ((wr_notes u 1 hmem).master (nodeId_notMem_noteKeys k)).trans hmaster'
    rw [if_neg hhere, hv, table_of_master _ hmaster', refreshMaster_of_master hshown]
    refine ⟨?_, hu.trans ((wr_notes u 1 hmem).trans (wr_notes _ 0 (by simp [noteKeys])))⟩
    exact (member_of_cas (event_members _ 0x5002 (k + 1) 1 0 0) k).trans (member_setMember s k _)

theorem heardAt_eq {s : State} {k : Nat} (sets : List (Nat × Nat)) (hmaster : s.master = true) :
    s.heardAt k sets = s.setAll ((Reg.mLastHeard k, s.stamp) :: sets) := if_pos hmaster

theorem setAll_notes (s : State) {K : List Nat} {l : List (Nat × Nat)} (hl : ∀ e ∈ l, e.1 ∈ K) : Notes K s (s.setAll l) := by
  obtain ⟨hclk, hcas, _⟩ := setAll_keeps s l
  exact ⟨setAll_frame l (.refl ..) hl, hclk, by rw [hcas]⟩

/-! ### The checks of a received frame (Table CA-7) -/

/-- The frame counts among those of its cycle (R458). -/
def State.frameCounted (s : State) (fn node : Nat) : State :=
  let m := s.member (node - 1)
  let n := (if m.cyc = s.clk.cyc then m.frames else 0) + 1
  if fn = 1 || fn = 3 || fn = 4 || fn = 7 then s.setMember (node - 1) { m with cyc := s.clk.cyc, frames := n } else s

theorem casTakes_eq_true {s : State} {fn node : Nat} {p : List Nat} {dirty : Bool} (h : s.casTakes fn node p dirty = true) :
    s.canOn = true ∧ s.cas.dominant = false ∧ (1 ≤ node ∧ node ≤ 64) ∧ node ≠ s.node ∧
    (fn = 0 ∨ (s.srcOf (node + 2)).quarLeft = 0) ∧ ((fn ≠ 4 ∧ fn ≠ 7) ∨ node = 1) ∧ p.length = casLen fn ∧
    ((fn = 0 ∨ fn = 2) ∨ (s.member (node - 1)).cyc ≠ s.clk.cyc ∨ (s.member (node - 1)).frames < 8) ∧ dirty = false := by
  simp only [State.casTakes, Bool.and_eq_true, Bool.or_eq_true, decide_eq_true_eq, Bool.not_eq_true'] at h
  obtain ⟨⟨⟨⟨⟨⟨⟨⟨hon, hdom⟩, hrange⟩, hself⟩, hquar⟩, hfirst⟩, hlen⟩, hlimit⟩, hdirty⟩ := h
  exact ⟨hon, hdom, hrange, hself, hquar, hfirst, hlen, or_assoc.mp hlimit, hdirty⟩

theorem casCheck_of_takes {s : State} {fn node : Nat} {p : List Nat} {dirty : Bool} (h : s.casTakes fn node p dirty = true) :
    s.casCheck fn node p dirty = (s.frameCounted fn node, true) := by
  obtain ⟨hon, hdom, ⟨hlow, hhigh⟩, hself, hquar, hfirst, hlen, hlimit, hdirty⟩ := casTakes_eq_true h
  have hclean : (decide ((s.srcOf (node + 2)).quarLeft ≠ 0) && decide (fn ≠ 0)) = false := by
    rcases hquar with h | h <;> simp [h]
  have hone : ((decide (fn = 4) || decide (fn = 7)) && decide (node ≠ 1)) = false := by
    rcases hfirst with ⟨h4, h7⟩ | h
    · simp [h4, h7]
    · simp [h]
  have hroom : ((decide (fn = 1) || decide (fn = 3) || decide (fn = 4) || decide (fn = 7)) &&
      decide (8 < (if (s.member (node - 1)).cyc = s.clk.cyc then (s.member (node - 1)).frames else 0) + 1)) = false := by
    rcases hlimit with (h | h) | h | h
    · simp [h]
    · simp [h]
    · simp [h]
    · have hle : (if (s.member (node - 1)).cyc = s.clk.cyc then (s.member (node - 1)).frames else 0) < 8 := by
        split <;> omega
      simp only [Bool.and_eq_false_iff, decide_eq_false_iff_not]
      right
      omega
  unfold State.casCheck
  rw [if_neg (by simp [hon, hdom]), if_neg (by simp; omega), if_neg hself, if_neg (ne_true_of_eq_false hclean),
    if_neg (ne_true_of_eq_false hone), if_neg (by simp [hlen])]
  extract_lets m limited n u
  rw [if_neg (ne_true_of_eq_false hroom), if_neg (ne_true_of_eq_false hdirty)]
  rfl

theorem onCas_of_takes {s : State} {fn node : Nat} {p : List Nat} {dirty : Bool} (f : State → State)
    (h : s.casTakes fn node p dirty = true) : s.onCas fn node p dirty f = f (s.frameCounted fn node) := by
  unfold State.onCas
  rw [casCheck_of_takes h]
  rfl

/-- Only when a member's frames came is counted. -/
theorem frameCounted_spec (s : State) (fn node : Nat) :
    (s.frameCounted fn node).rd = s.rd ∧ Notes [] s (s.frameCounted fn node) ∧
    ((s.frameCounted fn node).member (node - 1)).evSeq = (s.member (node - 1)).evSeq ∧
    (s.frameCounted fn node).log = s.log ∧ (s.frameCounted fn node).loaded = s.loaded := by
  unfold State.frameCounted
  extract_lets m n
  split
  · exact ⟨rfl, setMember_notes [] s _ _, by rw [member_setMember], rfl, rfl⟩
  · exact ⟨rfl, ⟨.refl .., rfl, rfl⟩, rfl, rfl, rfl⟩

end Sys2Proof.Machine
end

section
/-! PROOF. What each kind of member frame leaves (spec/17_cascade.md R436-R441, R453, R456, R458; Tables CA-7, CA-10). -/
namespace Sys2Proof.Machine

/-! ### A heartbeat (R438, R439) -/

/-- What a heartbeat says of its sender. -/
def heartbeatMember (m : Member) (tick : Nat) (p : List Nat) : Member :=
  { m with hbAt := tick + 1, period := 16 * p.getD 6 0, ready := (p.getD 2 0).testBit 2, group := p.getD 4 0, weight := p.getD 5 0,
           peak := field p 8 4, guarding := (p.getD 0 0).testBit 1 }

/-- Node 1's entry after a heartbeat. -/
def heartbeatSets (k : Nat) (p : List Nat) : List (Nat × Nat) :=
  [(Reg.mState k, 1), (Reg.mActivity k, field p 0 2), (Reg.mFlags k, p.getD 2 0),
    (Reg.mStartStep k, p.getD 3 0), (Reg.mHeatLast k, field p 12 4), (Reg.mFwVersion k, field p 28 4),
    (Reg.mHuGroup k, p.getD 4 0), (Reg.mHuWeight k, p.getD 5 0), (Reg.mLoadPeak k, field p 8 4)]

/-- A heartbeat's sender is heard and present. -/
def State.heartbeatHeard (s : State) (k : Nat) (p : List Nat) : State :=
  ((s.markHeard k (heartbeatMember (s.member k) s.tick p)).memberBack k).offerHeat (field p 12 4)

/-- The time of a heartbeat pairs the stamps at node 1. -/
def State.stampPaired (s : State) (stamp : Nat) : State := s.iff s.master (fun s => s.pairStamp stamp)

theorem exec_heartbeatRx {s : State} {n : Fin 128} {b : List Byte} (h : s.casTakes 3 n.val (byteList b) (anySet (byteList b) [26, 27]) = true) :
    exec (.heartbeatRx n b) s = .next ((((s.frameCounted 3 n.val).heartbeatHeard (n.val - 1) (byteList b)).heardAt (n.val - 1)
      (heartbeatSets (n.val - 1) (byteList b))).stampPaired (field (byteList b) 20 6)) := by
  have hexec : exec (.heartbeatRx n b) s = execHeartbeatRx n b s := rfl
  rw [hexec, execHeartbeatRx]
  dsimp only
  rw [onCas_of_takes _ h]
  rfl

theorem pairStamp_keeps (s : State) (stamp : Nat) : ∃ step, s.pairStamp stamp = { s with clk := { s.clk with step := step } } := by
  unfold State.pairStamp
  extract_lets c d t cp
  split
  · exact ⟨_, rfl⟩
  · exact ⟨s.clk.step, rfl⟩

theorem stampPaired_spec (s : State) (stamp : Nat) : (s.stampPaired stamp).rd = s.rd ∧ (s.stampPaired stamp).cas = s.cas ∧
    (s.stampPaired stamp).clk.count = s.clk.count ∧ Frame [] [] s (s.stampPaired stamp) := by
  obtain ⟨step, h⟩ := pairStamp_keeps s stamp
  unfold State.stampPaired State.iff
  split
  · dsimp only
    rw [h]
    exact ⟨rfl, rfl, rfl, (Frame.refl ..).same rfl rfl rfl rfl rfl rfl⟩
  · exact ⟨rfl, rfl, rfl, .refl ..⟩

theorem offerHeat_notes (s : State) (h : Nat) : Notes [] s (s.offerHeat h) := ⟨(Frame.refl ..).cas _, rfl, rfl⟩

theorem heartbeatHeard_spec {s : State} {k : Nat} (p : List Nat) (hk : k ≠ 0) (hmaster : s.master = true) :
    (s.heartbeatHeard k p).member k = { heartbeatMember (s.member k) s.tick p with heard := true, here := true } ∧
    Notes (noteKeys k) s (s.heartbeatHeard k p) := by
  have hsub : memberKeys k ⊆ noteKeys k := fun _ h => List.mem_append_left _ (List.mem_append_right _ h)
  obtain ⟨hheard, hnotes⟩ := markHeard_spec (s := s) (heartbeatMember (s.member k) s.tick p) hk
  have hmaster' := (hnotes.master (nodeId_notMem_memberKeys k)).trans hmaster
  obtain ⟨hback, hnotes'⟩ := memberBack_spec (s := s.markHeard k (heartbeatMember (s.member k) s.tick p)) hk hmaster'
  refine ⟨?_, ((hnotes.mono hsub).trans hnotes').trans ((offerHeat_notes _ _).mono (List.nil_subset _))⟩
  have hoffer : (s.heartbeatHeard k p).member k = ((s.markHeard k (heartbeatMember (s.member k) s.tick p)).memberBack k).member k := rfl
  rw [hoffer, hback, hheard]

theorem heartbeatSets_mem {k : Nat} {p : List Nat} : ∀ e ∈ heartbeatSets k p, e.1 ∈ memberKeys k := by
  simp [heartbeatSets, memberKeys]

/-- The registers that node 1 sets for a heartbeat are different ones. -/
theorem heartbeatSets_nodup (k stamp : Nat) (p : List Nat) :
    (((Reg.mLastHeard k, stamp) :: heartbeatSets k p).map Prod.fst).Nodup := by
  simp [heartbeatSets, Reg.mState, Reg.mLastHeard, Reg.mActivity, Reg.mFlags, Reg.mStartStep, Reg.mHeatLast, Reg.mFwVersion,
    Reg.mHuGroup, Reg.mHuWeight, Reg.mLoadPeak, rkey]

/-- A value of a register's own length stands there. -/
theorem fit_of_size {k n v : Nat} (hk : sizeAt k = n) (hv : v < 256 ^ n) : fit k v = v := by
  subst hk
  exact Nat.mod_eq_of_lt hv

/-! ### A boot announcement (R436) -/

/-- Node 1's entry after a boot announcement. -/
def bootSets (k boots : Nat) (p : List Nat) : List (Nat × Nat) :=
  [(Reg.mBoots k, boots + 1), (Reg.mSerial k, field p 32 16), (Reg.mHeatLast k, field p 8 4), (Reg.mFwVersion k, field p 4 4)]

theorem exec_bootAnnouncementRx {s : State} {n : Fin 128} {b : List Byte}
    (h : s.casTakes 1 n.val (byteList b) (anySet (byteList b) ((List.range 9).map (· + 23))) = true) :
    exec (.bootAnnouncementRx n b) s = .next ((((s.frameCounted 1 n.val).markHeard (n.val - 1)
      ((s.frameCounted 1 n.val).member (n.val - 1))).offerHeat (field (byteList b) 8 4)).heardAt (n.val - 1)
      (bootSets (n.val - 1) ((s.frameCounted 1 n.val).rd (Reg.mBoots (n.val - 1))) (byteList b))) := by
  have hexec : exec (.bootAnnouncementRx n b) s = execBootAnnouncementRx n b s := rfl
  rw [hexec, execBootAnnouncementRx, onCas_of_takes _ h]
  rfl

theorem bootSets_mem {k boots : Nat} {p : List Nat} : ∀ e ∈ bootSets k boots p, e.1 ∈ memberKeys k := by
  simp [bootSets, memberKeys]

theorem bootSets_nodup (k stamp boots : Nat) (p : List Nat) : (((Reg.mLastHeard k, stamp) :: bootSets k boots p).map Prod.fst).Nodup := by
  simp [bootSets, Reg.mBoots, Reg.mSerial, Reg.mLastHeard, Reg.mHeatLast, Reg.mFwVersion, rkey]

/-! ### A member that is missed (R439, R459) -/

theorem exec_memberAbsent {s : State} {k : NodeIx} (hrun : s.sup.running = true) (hgone : s.memberHere k = false) :
    exec (.memberAbsent k) s = .next (s.memberGone k) := if_pos (by simp [hrun, hgone])

theorem event_srcOf (s : State) (code obj detail a b j : Nat) : (s.event code obj detail a b).srcOf j = s.srcOf j := by
  obtain ⟨_, _, _, _, _, h, _⟩ := logOnly_event s code obj detail a b
  rw [h]
  rfl

/-- At node 1 a member that is missed reads absent. -/
theorem memberGone_spec {s : State} {k : NodeIx} (hhere : (s.member k).here = true) (hmaster : s.master = true)
    (hquar : (s.srcOf (k.val + 3)).quarLeft = 0) :
    ((s.memberGone k).member k).here = false ∧ (s.memberGone k).rd (Reg.mState k) = 2 ∧
    Frame (eventKeys ++ [Reg.mState k, Reg.masterState]) [] s (s.memberGone k) := by
  have hne : ∀ k : NodeIx, Reg.mState k ≠ Reg.masterState ∧ Reg.nodeId ∉ [Reg.mState k] := by decide
  obtain ⟨hstate, hid⟩ := hne k
  obtain ⟨hsize, _⟩ := memberSizes k
  have hnode : s.node = 1 := by
    simp only [State.master, Bool.and_eq_true, decide_eq_true_eq] at hmaster
    exact hmaster.1
  unfold State.memberGone
  extract_lets m u v
  have hu : Notes eventKeys s u := (setMember_notes _ s k { m with here := false }).trans (event_notes _ 0x5002 (k + 1) 0 0 0)
  have hmaster' : u.master = true := (hu.master (by decide)).trans hmaster
  have hunode : u.node = 1 := (hu.frame.rd (by decide)).trans hnode
  have hquar' : (u.srcOf (k.val + 3)).quarLeft = 0 := by
    have hsame : u.srcOf (k.val + 3) = s.srcOf (k.val + 3) := event_srcOf ..
    rw [hsame, hquar]
  have hv : v = u := if_neg (by
    show ¬ ((decide (k.val = 0) && decide (u.node ≠ 1)) = true)
    simp [hunode])
  have hshown : (u.wr (Reg.mState k) 2).master = true := ((wr_notes u 2 (.head _)).master hid).trans hmaster'
  rw [if_neg (by simpa [m] using hhere), hv, table_of_master _ hmaster', hquar', if_neg (by decide), refreshMaster_of_master hshown]
  refine ⟨?_, ?_, ?_⟩
  · rw [show ((u.wr (Reg.mState k) 2).wr Reg.masterState 0).member k = u.member k from rfl,
      (member_of_cas (event_members ..) k : u.member k = (s.setMember k { m with here := false }).member k), member_setMember]
  · rw [State.rd_wr_ne _ _ hstate, State.rd_wr_same]
    exact fit_of_size hsize (by decide)
  · exact ((hu.frame.mono (List.subset_append_left ..) fun _ h => h).wr _ _ (by simp)).wr _ _ (by simp)

/-! ### An event frame (R456) -/

/-- How many events of a member were missed before one. -/
def eventGap (m : Member) (q : Nat) : Nat := if m.evSeq = 0 then 0 else (q + 2 ^ 32 - m.evSeq % 2 ^ 32) % 2 ^ 32

/-- Node 1's entry after an event frame. -/
def eventSets (k q missed : Nat) : List (Nat × Nat) := [(Reg.mEventSeq k, q), (Reg.mMissedEvents k, missed)]

/-- The member's sequence moves on. -/
def State.eventHeard (s : State) (k q : Nat) : State := s.setMember k { s.member k with evSeq := q + 1 }

theorem exec_eventFrameRx {s : State} {n : Fin 128} {b : List Byte} (h : s.casTakes 2 n.val (byteList b) (eventDirty (byteList b)) = true)
    (hcrc : crc16 ((byteList b).take 62) = field (byteList b) 62 2) (hmaster : s.master = true) :
    exec (.eventFrameRx n b) s = .next (((s.eventHeard (n.val - 1) (field (byteList b) 4 4)).heardAt (n.val - 1)
      (eventSets (n.val - 1) (field (byteList b) 4 4) (s.rd (Reg.mMissedEvents (n.val - 1)) +
        eventGap (s.member (n.val - 1)) (field (byteList b) 4 4)))).enqueueMember (memberEntry (byteList b))) := by
  have hexec : exec (.eventFrameRx n b) s = execEventFrameRx n b s := rfl
  have hcount : s.frameCounted 2 n.val = s := rfl
  rw [hexec, execEventFrameRx]
  dsimp only
  rw [onCas_of_takes _ h, hcount, if_neg (not_not.mpr hcrc), if_neg (by simp [hmaster])]
  rfl

theorem eventSets_nodup (k stamp q missed : Nat) : (((Reg.mLastHeard k, stamp) :: eventSets k q missed).map Prod.fst).Nodup := by
  simp [eventSets, Reg.mEventSeq, Reg.mMissedEvents, Reg.mLastHeard, rkey]

theorem enqueueMember_of_room {s : State} {r : LogRec} (h : s.queueTakes r.sev = true) :
    s.enqueueMember r = { s with log := { s.log with queue := s.log.queue ++ [r] } } := if_pos h

theorem Frame.logQueue {K H s t} (x) (h : Frame K H s t) : Frame K H s { t with log := { t.log with queue := x } } :=
  h.trans ((Frame.refl K H t).of_eq rfl rfl ⟨fun _ => rfl, rfl, rfl, rfl, rfl, rfl, .of_eq rfl⟩)

/-! ### Frames that are turned away (R458, Table CA-7) -/

theorem onCas_of_stop {s u : State} {fn node : Nat} {p : List Nat} {dirty : Bool} (f : State → State)
    (h : s.casCheck fn node p dirty = (u, false)) : s.onCas fn node p dirty f = u := by
  unfold State.onCas
  rw [h]
  rfl

theorem casCheck_of_nowhere {s : State} {node : Nat} (fn : Nat) (p : List Nat) (dirty : Bool) (hon : s.canOn = true)
    (hdom : s.cas.dominant = false) (hnode : node = 0 ∨ 64 < node) :
    s.casCheck fn node p dirty = (if fn = 4 || fn = 7 then s.casViolation node else s.bump Reg.casBadFrames, false) := by
  unfold State.casCheck
  rw [if_neg (by simp [hon, hdom]), if_pos (by simpa using hnode)]

theorem casCheck_of_length {s : State} {node : Nat} (p : List Nat) (dirty : Bool) (hon : s.canOn = true) (hdom : s.cas.dominant = false)
    (hlow : 1 ≤ node) (hhigh : node ≤ 64) (hself : node ≠ s.node) (hquar : (s.srcOf (node + 2)).quarLeft = 0) (hlen : p.length ≠ 32) :
    s.casCheck 3 node p dirty = (s.casViolation node, false) := by
  unfold State.casCheck
  rw [if_neg (by simp [hon, hdom]), if_neg (by simp; omega), if_neg hself, if_neg (by simp [hquar]), if_neg (by simp),
    if_pos (by simpa [casLen] using hlen)]

theorem mViolations_ne (k j i : Nat) (hk : k < 64) : Reg.viol j i ≠ Reg.mViolations k ∧ Reg.violTotal j ≠ Reg.mViolations k := by
  simp only [Reg.viol, Reg.violTotal, Reg.mViolations, rkey]
  omega

/-- A violation by a member that has an address. -/
theorem casViolation_spec {s : State} {node : Nat} (hlow : 1 ≤ node) (hhigh : node ≤ 64) :
    Violates (node + 2) Vc.cascade s (s.casViolation node) ∧ (s.casViolation node).cas.members = s.cas.members ∧
    Frame (violKeys (node + 2) ++ [Reg.mViolations (node - 1)]) [] s (s.casViolation node) := by
  obtain ⟨hviol, hframe, honly⟩ := violation_spec s (node + 2) (cls := Vc.cascade) (by decide)
  have hmembers : (s.violation (node + 2) Vc.cascade).cas.members = s.cas.members := by
    obtain ⟨_, _, _, _, _, _, _, h⟩ := honly
    rw [h]
  have hpre := hframe.mono (K' := violKeys (node + 2) ++ [Reg.mViolations (node - 1)])
    (fun _ hk => List.mem_append_left _ (sourceKeys_subset _ hk)) fun _ h => h
  obtain ⟨hne, hne'⟩ := mViolations_ne (node - 1) (node + 2) (Vc.cascade - 1) (by omega)
  unfold State.casViolation
  rw [if_neg (by simp; omega)]
  dsimp only
  split
  · refine ⟨hviol.after (K := [Reg.mViolations (node - 1)]) (H := []) ((Frame.refl ..).bump _ (by simp)) (by simpa using hne)
      (by simpa using hne'), hmembers, hpre.bump _ (by simp)⟩
  · exact ⟨hviol, hmembers, hpre⟩

/-- Node 1 hears members of its own numbering: another node than itself. -/
theorem other_node {s : State} {node : Nat} (hmaster : s.master = true) (hself : node ≠ s.node) (hlow : 1 ≤ node) : node - 1 ≠ 0 := by
  simp only [State.master, Bool.and_eq_true, decide_eq_true_eq] at hmaster
  have hnode := hmaster.1
  omega

theorem casViolation_nowhere {s : State} {node : Nat} (h : node = 0 ∨ 64 < node) : s.casViolation node = s.violation 2 Vc.cascade :=
  if_pos (by simpa using h)

/-- A heartbeat at node 1 (R438, R439, Table CA-10). -/
theorem heartbeat_noted {s : State} {n : Fin 128} {b : List Byte} (h : s.casTakes 3 n.val (byteList b) (anySet (byteList b) [26, 27]) = true)
    (hmaster : s.master = true) :
    Does (.heartbeatRx n b) s fun t =>
      t.rd (Reg.mState (n.val - 1)) = 1 ∧ t.rd (Reg.mLastHeard (n.val - 1)) = fit (Reg.mLastHeard (n.val - 1)) s.stamp ∧
      t.rd (Reg.mActivity (n.val - 1)) = field (byteList b) 0 2 ∧ t.rd (Reg.mHeatLast (n.val - 1)) = field (byteList b) 12 4 ∧
      t.rd (Reg.mLoadPeak (n.val - 1)) = field (byteList b) 8 4 ∧ (t.member (n.val - 1)).heard = true ∧
      (t.member (n.val - 1)).here = true ∧ (t.member (n.val - 1)).hbAt = s.tick + 1 ∧
      (t.member (n.val - 1)).period = 16 * (byteList b).getD 6 0 ∧ t.clk.count = s.clk.count ∧ Frame (noteKeys (n.val - 1)) [] s t := by
  obtain ⟨_, _, ⟨hlow, hhigh⟩, hself, _⟩ := casTakes_eq_true h
  obtain ⟨hrd, hcounted, _⟩ := frameCounted_spec s 3 n.val
  have hmaster' := (hcounted.master (by simp)).trans hmaster
  have hk := other_node hmaster hself hlow
  have hlt : n.val - 1 < 64 := by omega
  obtain ⟨hstate, hactivity, hheat, hpeak, _⟩ := memberSizes ⟨_, hlt⟩
  obtain ⟨hmember, hheard⟩ := heartbeatHeard_spec (s := s.frameCounted 3 n.val) (byteList b) hk hmaster'
  have hexec := exec_heartbeatRx h
  generalize n.val - 1 = k at *
  rw [heardAt_eq _ ((hheard.master (nodeId_notMem_noteKeys _)).trans hmaster')] at hexec
  generalize hu : (s.frameCounted 3 n.val).heartbeatHeard k (byteList b) = u at hexec hmember hheard
  have hall : Notes (noteKeys k) s u := (hcounted.mono (List.nil_subset _)).trans hheard
  have hset := setAll_rd u (heartbeatSets_nodup k u.stamp (byteList b))
  have hsets : Notes (noteKeys k) u (u.setAll ((Reg.mLastHeard k, u.stamp) :: heartbeatSets k (byteList b))) := by
    refine setAll_notes u fun e he => List.mem_append_left _ (List.mem_append_right _ ?_)
    rcases List.mem_cons.mp he with rfl | he
    · simp [memberKeys]
    · exact heartbeatSets_mem e he
  obtain ⟨_, hcas, _⟩ := setAll_keeps u ((Reg.mLastHeard k, u.stamp) :: heartbeatSets k (byteList b))
  obtain ⟨hread, hcas', hclk, hpaired⟩ := stampPaired_spec (u.setAll ((Reg.mLastHeard k, u.stamp) :: heartbeatSets k (byteList b)))
    (field (byteList b) 20 6)
  have hwho : ((u.setAll ((Reg.mLastHeard k, u.stamp) :: heartbeatSets k (byteList b))).stampPaired (field (byteList b) 20 6)).member k =
      u.member k := member_of_cas (by rw [hcas', hcas]) k
  refine ⟨_, hexec, ?_, ?_, ?_, ?_, ?_, ?_, ?_, ?_, ?_, ?_, ?_⟩
  · rw [hread, hset (Reg.mState k, 1) (by simp [heartbeatSets])]
    exact fit_of_size (v := 1) hstate (by decide)
  · rw [hread, hset (Reg.mLastHeard k, u.stamp) (by simp), hall.stamp]
  · rw [hread, hset (Reg.mActivity k, field (byteList b) 0 2) (by simp [heartbeatSets])]
    exact fit_of_size hactivity (field_lt ..)
  · rw [hread, hset (Reg.mHeatLast k, field (byteList b) 12 4) (by simp [heartbeatSets])]
    exact fit_of_size hheat (field_lt ..)
  · rw [hread, hset (Reg.mLoadPeak k, field (byteList b) 8 4) (by simp [heartbeatSets])]
    exact fit_of_size hpeak (field_lt ..)
  · rw [hwho, hmember]
  · rw [hwho, hmember]
  · rw [hwho, hmember]
    have htick : (s.frameCounted 3 n.val).tick = s.tick := by rw [State.tick, hcounted.clk, State.tick]
    exact congrArg (· + 1) htick
  · rw [hwho, hmember]
    rfl
  · rw [hclk, hsets.clk, hall.clk]
  · exact (hall.trans hsets).frame.trans (hpaired.mono (List.nil_subset _) fun _ h => h)

/-- A boot announcement at node 1 (R436, R439). -/
theorem boot_noted {s : State} {n : Fin 128} {b : List Byte}
    (h : s.casTakes 1 n.val (byteList b) (anySet (byteList b) ((List.range 9).map (· + 23))) = true) (hmaster : s.master = true) :
    Does (.bootAnnouncementRx n b) s fun t =>
      Counts (Reg.mBoots (n.val - 1)) s t ∧ t.rd (Reg.mSerial (n.val - 1)) = field (byteList b) 32 16 ∧
      t.rd (Reg.mFwVersion (n.val - 1)) = field (byteList b) 4 4 ∧ t.rd (Reg.mHeatLast (n.val - 1)) = field (byteList b) 8 4 ∧
      t.rd (Reg.mLastHeard (n.val - 1)) = fit (Reg.mLastHeard (n.val - 1)) s.stamp ∧ (t.member (n.val - 1)).heard = true ∧
      Frame (memberKeys (n.val - 1) ++ [Reg.masterState]) [] s t := by
  obtain ⟨_, _, ⟨hlow, hhigh⟩, hself, _⟩ := casTakes_eq_true h
  obtain ⟨hrd, hcounted, _⟩ := frameCounted_spec s 1 n.val
  have hk := other_node hmaster hself hlow
  have hlt : n.val - 1 < 64 := by omega
  obtain ⟨_, _, hheat, _, hserial, hversion, _⟩ := memberSizes ⟨_, hlt⟩
  have hexec := exec_bootAnnouncementRx h
  generalize n.val - 1 = k at *
  obtain ⟨hmember, hheard⟩ := markHeard_spec (s := s.frameCounted 1 n.val) ((s.frameCounted 1 n.val).member k) hk
  have hall : Notes (memberKeys k) s (((s.frameCounted 1 n.val).markHeard k ((s.frameCounted 1 n.val).member k)).offerHeat
      (field (byteList b) 8 4)) :=
    ((hcounted.mono (List.nil_subset _)).trans hheard).trans ((offerHeat_notes _ _).mono (List.nil_subset _))
  have hwho : (((s.frameCounted 1 n.val).markHeard k ((s.frameCounted 1 n.val).member k)).offerHeat (field (byteList b) 8 4)).member k =
      ((s.frameCounted 1 n.val).markHeard k ((s.frameCounted 1 n.val).member k)).member k := rfl
  rw [heardAt_eq _ ((hall.master (nodeId_notMem_memberKeys k)).trans hmaster), hrd] at hexec
  rw [hmember] at hwho
  generalize ((s.frameCounted 1 n.val).markHeard k ((s.frameCounted 1 n.val).member k)).offerHeat (field (byteList b) 8 4) = u at *
  have hset := setAll_rd u (bootSets_nodup k u.stamp (s.rd (Reg.mBoots k)) (byteList b))
  have hsets : Notes (memberKeys k) u (u.setAll ((Reg.mLastHeard k, u.stamp) :: bootSets k (s.rd (Reg.mBoots k)) (byteList b))) := by
    refine setAll_notes u fun e he => ?_
    rcases List.mem_cons.mp he with rfl | he
    · simp [memberKeys]
    · exact bootSets_mem e he
  obtain ⟨_, hcas, _⟩ := setAll_keeps u ((Reg.mLastHeard k, u.stamp) :: bootSets k (s.rd (Reg.mBoots k)) (byteList b))
  refine ⟨_, hexec, ?_, ?_, ?_, ?_, ?_, ?_, (hall.trans hsets).frame.mono (List.subset_append_left ..) fun _ h => h⟩
  · exact hset (Reg.mBoots k, s.rd (Reg.mBoots k) + 1) (by simp [bootSets])
  · rw [hset (Reg.mSerial k, field (byteList b) 32 16) (by simp [bootSets])]
    exact fit_of_size hserial (field_lt ..)
  · rw [hset (Reg.mFwVersion k, field (byteList b) 4 4) (by simp [bootSets])]
    exact fit_of_size hversion (field_lt ..)
  · rw [hset (Reg.mHeatLast k, field (byteList b) 8 4) (by simp [bootSets])]
    exact fit_of_size hheat (field_lt ..)
  · rw [hset (Reg.mLastHeard k, u.stamp) (by simp), hall.stamp]
  · rw [member_of_cas (s := u) (by rw [hcas]) k, hwho]

theorem eventGap_of_next {m : Member} {q : Nat} (hq : q < 2 ^ 32) (h : m.evSeq = q) : eventGap m q = 0 := by
  unfold eventGap
  split
  · rfl
  · rw [h]
    omega

/-- An event frame at node 1 (R456). -/
theorem event_noted {s : State} {n : Fin 128} {b : List Byte} (h : s.casTakes 2 n.val (byteList b) (eventDirty (byteList b)) = true)
    (hcrc : crc16 ((byteList b).take 62) = field (byteList b) 62 2) (hmaster : s.master = true)
    (hroom : s.queueTakes ((byteList b).getD 14 0) = true) :
    Does (.eventFrameRx n b) s fun t =>
      t.log.queue = s.log.queue ++ [memberEntry (byteList b)] ∧ t.rd (Reg.mEventSeq (n.val - 1)) = field (byteList b) 4 4 ∧
      (t.member (n.val - 1)).evSeq = field (byteList b) 4 4 + 1 ∧
      ((s.member (n.val - 1)).evSeq = field (byteList b) 4 4 → t.rd (Reg.mMissedEvents (n.val - 1)) =
        fit (Reg.mMissedEvents (n.val - 1)) (s.rd (Reg.mMissedEvents (n.val - 1)))) ∧
      Frame [Reg.mEventSeq (n.val - 1), Reg.mMissedEvents (n.val - 1), Reg.mLastHeard (n.val - 1)] [] s t := by
  obtain ⟨_, _, ⟨hlow, hhigh⟩, _⟩ := casTakes_eq_true h
  have hlt : n.val - 1 < 64 := by omega
  obtain ⟨_, _, _, _, _, _, hseq⟩ := memberSizes ⟨_, hlt⟩
  have hexec := exec_eventFrameRx h hcrc hmaster
  generalize n.val - 1 = k at *
  have hword : field (byteList b) 4 4 < 2 ^ 32 := field_lt ..
  generalize field (byteList b) 4 4 = q at *
  have hheard : Notes [] s (s.eventHeard k q) := setMember_notes _ _ _ _
  rw [heardAt_eq _ ((hheard.master (by simp)).trans hmaster)] at hexec
  have hset := setAll_rd (s.eventHeard k q)
    (eventSets_nodup k (s.eventHeard k q).stamp q (s.rd (Reg.mMissedEvents k) + eventGap (s.member k) q))
  have hsets := setAll_frame (K := [Reg.mEventSeq k, Reg.mMissedEvents k, Reg.mLastHeard k])
    ((Reg.mLastHeard k, (s.eventHeard k q).stamp) :: eventSets k q (s.rd (Reg.mMissedEvents k) + eventGap (s.member k) q))
    (hheard.frame.mono (List.nil_subset _) fun _ h => h) (by simp [eventSets])
  obtain ⟨_, hcas, hlog, hloaded⟩ := setAll_keeps (s.eventHeard k q)
    ((Reg.mLastHeard k, (s.eventHeard k q).stamp) :: eventSets k q (s.rd (Reg.mMissedEvents k) + eventGap (s.member k) q))
  generalize (s.eventHeard k q).setAll
    ((Reg.mLastHeard k, (s.eventHeard k q).stamp) :: eventSets k q (s.rd (Reg.mMissedEvents k) + eventGap (s.member k) q)) = u at *
  have hroom' : u.queueTakes (memberEntry (byteList b)).sev = true := by
    rw [State.queueTakes, hlog, hloaded]
    exact hroom
  rw [enqueueMember_of_room hroom'] at hexec
  have hwho : u.member k = { s.member k with evSeq := q + 1 } :=
    (member_of_cas (s := s.eventHeard k q) (by rw [hcas]) k).trans (member_setMember s k { s.member k with evSeq := q + 1 })
  refine ⟨_, hexec, ?_, ?_, ?_, fun hnext => ?_, hsets.logQueue _⟩
  · rw [hlog]
    rfl
  · exact (hset (Reg.mEventSeq k, q) (by simp [eventSets])).trans (fit_of_size hseq hword)
  · exact congrArg Member.evSeq hwho
  · refine (hset (Reg.mMissedEvents k, s.rd (Reg.mMissedEvents k) + eventGap (s.member k) q) (by simp [eventSets])).trans ?_
    rw [eventGap_of_next hword hnext]
    rfl

/-- Settles O33: a frame that counts is told to node 1's entry (`heartbeat_noted`, `boot_noted`, `event_noted`), one that does not is
counted or is a violation. -/
theorem membersAreHeardAndMissed : Obligations.MembersAreHeardAndMissed := by
  refine ⟨fun s n b p k hp hk htakes hmaster => ?heartbeat, fun s n b p k hp hk htakes hmaster => ?boot,
    fun s k hrun hgone hhere hmaster hquar => ?absent, fun s n b p k hp hk htakes hcrc hmaster hroom => ?event,
    fun s n b hon hdom hnode => ?nowhere, fun s n b hon hdom hnode => ?stamp,
    fun s n b hon hdom hlow hhigh hself hquar hlen => ?length⟩
  case heartbeat =>
    subst hp hk
    exact heartbeat_noted htakes hmaster
  case boot =>
    subst hp hk
    exact boot_noted htakes hmaster
  case absent => exact ⟨_, exec_memberAbsent hrun hgone, memberGone_spec hhere hmaster hquar⟩
  case event =>
    subst hp hk
    exact event_noted htakes hcrc hmaster hroom
  case nowhere =>
    have hexec : exec (.heartbeatRx n b) s = execHeartbeatRx n b s := rfl
    refine ⟨s.bump Reg.casBadFrames, ?_, counts_bump .., (Frame.refl ..).bump _ (by simp)⟩
    rw [hexec, execHeartbeatRx]
    dsimp only
    rw [onCas_of_stop _ (casCheck_of_nowhere 3 _ _ hon hdom hnode), if_neg (by decide)]
  case stamp =>
    have hexec : exec (.stampSyncRx n b) s = execStampSyncRx n b s := rfl
    obtain ⟨hviol, hframe, honly⟩ := violation_spec s 2 (cls := Vc.cascade) (by decide)
    refine ⟨s.violation 2 Vc.cascade, ?_, hviol, ?_, hframe.mono (sourceKeys_subset 2) fun _ h => h⟩
    · rw [hexec, execStampSyncRx, onCas_of_stop _ (casCheck_of_nowhere 7 _ _ hon hdom hnode), if_pos (by decide), casViolation_nowhere hnode]
    · obtain ⟨_, _, _, _, _, _, _, h⟩ := honly
      rw [h]
  case length =>
    have hexec : exec (.heartbeatRx n b) s = execHeartbeatRx n b s := rfl
    refine ⟨s.casViolation n.val, ?_, casViolation_spec hlow hhigh⟩
    rw [hexec, execHeartbeatRx]
    dsimp only
    rw [onCas_of_stop _ (casCheck_of_length _ _ hon hdom hlow hhigh hself hquar (by rw [byteList, List.length_map]; exact hlen))]

end Sys2Proof.Machine
end

section
/-! PROOF. Firmware slots are erased and verified; the debug port (spec/16_onchip_flash.md R422, R424, R431; spec/01_architecture.md
R20, R21; spec/02_object_dictionary.md R64). -/
namespace Sys2Proof.Machine

/-! ### A slot that is erased (R422) -/

/-- The code flash after every sector of a slot was erased: that slot reads blank, every other byte as before. -/
theorem codeByte_of_slotErased {s t : State} {slot : Nat} (hcode : t.fw.code = s.fw.code.filter (fun e => !(decide (e.1 / 131072 = slot))))
    (hcut : t.fw.cut = if s.fw.cut = some slot then none else s.fw.cut) (hship : t.fw.shipped = (s.fw.shipped && decide (slot ≠ 0)))
    (a : Nat) : t.codeByte a = if a / bankSize = slot then 0xFF else s.codeByte a := by
  have hword : tget wordErased t.fw.code (a / 8) = if a / bankSize = slot then wordErased else tget wordErased s.fw.code (a / 8) := by
    have hdiv : a / 8 / 131072 = a / bankSize := Nat.div_div_eq_div_mul ..
    rw [hcode, tget_filter_key wordErased s.fw.code (fun i => !(decide (i / 131072 = slot)))]
    by_cases h : a / bankSize = slot <;> simp [hdiv, h]
  by_cases h : a / bankSize = slot
  · have hcut' : t.fw.cut ≠ some (a / bankSize) := by
      rw [hcut, h]
      split
      · simp
      · assumption
    have hship' : (t.fw.shipped && decide (a < bankSize)) = false := by
      by_cases hzero : slot = 0
      · simp [hship, hzero]
      · have hbig : ¬ a < bankSize := fun hlt => hzero (by rw [← h, Nat.div_eq_of_lt hlt])
        simp [hbig]
    rw [if_pos h] at hword ⊢
    unfold State.codeByte
    dsimp only
    rw [hword, if_neg (not_not.mpr rfl), if_neg hcut', if_neg (ne_true_of_eq_false hship')]
  · have hcut' : (t.fw.cut = some (a / bankSize)) = (s.fw.cut = some (a / bankSize)) := by
      have hne : slot ≠ a / bankSize := fun e => h e.symm
      rw [hcut]
      split
      · next e => simp [e, hne]
      · rfl
    have hship' : (t.fw.shipped && decide (a < bankSize)) = (s.fw.shipped && decide (a < bankSize)) := by
      by_cases hlt : a < bankSize
      · have hzero : slot ≠ 0 := fun e => h (by rw [e, Nat.div_eq_of_lt hlt])
        simp [hship, hzero]
      · simp [hlt]
    rw [if_neg h] at hword ⊢
    unfold State.codeByte
    simp only [hword, hcut', hship']

/-- Whether a slot's contents are cut off is set. -/
def State.setCut (s : State) (c : Option Nat) : State := { s with fw := { s.fw with cut := c } }

/-- The inactive slot after its erase. -/
def State.slotBlanked (s : State) : State :=
  ((s.dropSlot s.inactiveSlot).bumpBy Reg.codeErases 256).setCut (if s.fw.cut = some s.inactiveSlot then none else s.fw.cut)

/-- The inactive slot after an erase that failed in some sector. -/
def State.slotSpoilt (s : State) : State :=
  ((s.dropSlot s.inactiveSlot).bumpBy Reg.codeErases (s.freeVal % 256 + 1)).freeNext.setCut (some s.inactiveSlot)

theorem exec_fwEraseDone_well {s : State} (h : s.rd Reg.fwState = 1) :
    exec (.fwEraseDone true) s = .next (((s.slotBlanked.wr Reg.fwState 2).wr Reg.fwCmd 2).wr Reg.fwProgress 256) :=
  if_neg (not_not.mpr h)

theorem exec_fwEraseDone_failed {s : State} (h : s.rd Reg.fwState = 1) :
    exec (.fwEraseDone false) s = .next (s.slotSpoilt.fwFail 3 0) := if_neg (not_not.mpr h)

/-- Every store but the code flash is as before. -/
def BesideCode (s t : State) : Prop :=
  t.fw.record = s.fw.record ∧ t.sto.nand = s.sto.nand ∧ t.fla.cope = s.fla.cope ∧ t.fla.drag = s.fla.drag ∧ t.fla.sums = s.fla.sums ∧
  RingKept s t

theorem BesideCode.trans {s t u} (h1 : BesideCode s t) (h2 : BesideCode t u) : BesideCode s u := by
  obtain ⟨a1, b1, c1, d1, e1, f1⟩ := h1
  obtain ⟨a2, b2, c2, d2, e2, f2⟩ := h2
  exact ⟨a2.trans a1, b2.trans b1, c2.trans c1, d2.trans d1, e2.trans e1, f1.trans f2⟩

theorem Frame.besideCode {K H s t} (h : Frame K H s t) : BesideCode s t := h.2.2

theorem slotBlanked_beside (s : State) : BesideCode s s.slotBlanked := ⟨rfl, rfl, rfl, rfl, rfl, .of_eq rfl⟩

theorem slotSpoilt_beside (s : State) : BesideCode s s.slotSpoilt := ⟨rfl, rfl, rfl, rfl, rfl, .of_eq rfl⟩

theorem slotBlanked_rd (s : State) (k : Nat) : s.slotBlanked.rd k = ((s.dropSlot s.inactiveSlot).bumpBy Reg.codeErases 256).rd k := rfl

theorem slotSpoilt_rd (s : State) (k : Nat) :
    s.slotSpoilt.rd k = ((s.dropSlot s.inactiveSlot).bumpBy Reg.codeErases (s.freeVal % 256 + 1)).rd k := rfl

theorem erasesCounted_rd (s : State) (n : Nat) {k : Nat} (hk : k ≠ Reg.codeErases) :
    ((s.dropSlot s.inactiveSlot).bumpBy Reg.codeErases n).rd k = s.rd k := State.rd_wr_ne (s.dropSlot s.inactiveSlot) _ hk

theorem erasesCounted (s : State) (n : Nat) :
    ((s.dropSlot s.inactiveSlot).bumpBy Reg.codeErases n).rd Reg.codeErases = fit Reg.codeErases (s.rd Reg.codeErases + n) :=
  State.rd_wr_same (s.dropSlot s.inactiveSlot) _ _

theorem slotBlanked_quiet (s : State) : Quiet [Reg.codeErases] [] s s.slotBlanked :=
  ⟨fun k hk => (slotBlanked_rd s k).trans (erasesCounted_rd s _ (by simpa using hk)), fun _ _ => rfl⟩

theorem slotSpoilt_quiet (s : State) : Quiet [Reg.codeErases] [] s s.slotSpoilt :=
  ⟨fun k hk => (slotSpoilt_rd s k).trans (erasesCounted_rd s _ (by simpa using hk)), fun _ _ => rfl⟩

/-- An update that ends in FAILED (R422). -/
theorem fwFail_spec (s : State) {flag : Nat} (result : Nat) (hflag : flag < 8 * sizeAt Reg.fwFlags) :
    (s.fwFail flag result).rd Reg.fwState = 7 ∧ (s.fwFail flag result).rd Reg.fwCmd = 3 ∧ (s.fwFail flag result).bitOf Reg.fwFlags flag = true ∧
    (s.fwFail flag result).fw = s.fw ∧ Creates 0x4204 s (s.fwFail flag result) ∧
    Frame (eventKeys ++ [Reg.fwState, Reg.fwCmd, Reg.fwFlags]) [] s (s.fwFail flag result) := by
  unfold State.fwFail
  refine ⟨?_, ?_, ?_, ?_, ⟨_, _, _, _, _, rfl, ?_⟩, ?_⟩
  · rw [State.rd_event _ _ _ _ _ _ (by decide), rd_flag_ne _ _ (by decide), State.rd_wr_ne _ _ (by decide), rd_wr_of_lt _ (by decide)]
  · rw [State.rd_event _ _ _ _ _ _ (by decide), rd_flag_ne _ _ (by decide), rd_wr_of_lt _ (by decide)]
  · rw [bitOf_of_rd flag (State.rd_event _ _ _ _ _ _ (by decide))]
    exact bitOf_flag _ hflag
  · rw [State.event_fw, State.flag_fw, State.wr_fw, State.wr_fw]
  · rw [rd_flag_ne _ _ (by decide), State.rd_wr_ne _ _ (by decide), State.rd_wr_ne _ _ (by decide)]
  · exact (((Frame.refl ..).wr _ _ (by decide)).wr _ _ (by decide)).flag _ _ (by decide) |>.event _ _ _ _ _ (List.subset_append_left ..)

/-! ### FW_VERIFY_DONE (R424) -/

/-- The verify has ended with its result. -/
def State.verified (s : State) : State :=
  { s with fw := { s.fw with verifying := false } }.wr Reg.fwVerifyResult s.verifyResult

theorem exec_fwVerifyDone_valid {s : State} (h : s.fw.verifying = true) (hres : s.verifyResult = 1) :
    exec .fwVerifyDone s = .next (((s.verified.wr Reg.fwState 4).wr Reg.fwCmd 2).setXo s.inactiveSlot
      (s.verified.hdr s.inactiveSlot 24 2, s.verified.hdr s.inactiveSlot 26 2)) := by
  have hexec : exec .fwVerifyDone s = execFwVerifyDone s := rfl
  rw [hexec, execFwVerifyDone, if_neg (by simp [h])]
  exact if_pos hres

theorem exec_fwVerifyDone_other {s : State} (h : s.fw.verifying = true) (hres : s.verifyResult ≠ 1) :
    exec .fwVerifyDone s = .next (s.verified.fwFail 2 s.verifyResult) := by
  have hexec : exec .fwVerifyDone s = execFwVerifyDone s := rfl
  rw [hexec, execFwVerifyDone, if_neg (by simp [h])]
  exact if_neg hres

/-- The firmware's own state may change where the code flash and the protection record stay. -/
theorem Frame.fwState {K H s t} (x : Firm) (h : Frame K H s t) (hcode : x.code = t.fw.code) (hcut : x.cut = t.fw.cut)
    (hship : x.shipped = t.fw.shipped) (hrec : x.record = t.fw.record) : Frame K H s { t with fw := x } :=
  h.of_eq rfl rfl ⟨fun _ => State.codeByte_congr (by rw [hcode]) hcut hship, hrec, rfl, rfl, rfl, rfl, .of_eq rfl⟩

theorem verified_frame (s : State) : Frame [Reg.fwVerifyResult] [] s s.verified :=
  ((Frame.refl ..).fwState _ rfl rfl rfl rfl).wr _ _ (by simp)

theorem setXo_frame {K H s t} (slot b) (h : Frame K H s t) : Frame K H s (t.setXo slot b) :=
  .ite (fun _ => h.fwState _ rfl rfl rfl rfl) fun _ => h.fwState _ rfl rfl rfl rfl

theorem setXo_rd (s : State) (slot b k) : (s.setXo slot b).rd k = s.rd k := by
  unfold State.setXo
  split <;> rfl

theorem setXo_verifying (s : State) (slot b) : (s.setXo slot b).fw.verifying = s.fw.verifying := by
  unfold State.setXo
  split <;> rfl

/-! ### The debug port (R431, R64) -/

/-- The port opens with the attempts back at eight. -/
def State.portOpened (s : State) : State :=
  let u : State := { s with fw := { s.fw with debugOpen := true }, svc := { s.svc with attempts := 8 } }
  (u.wr Reg.pwAttemptsLeft 8).refreshProt

/-- An attempt is used up. -/
def State.attemptUsed (s : State) : State :=
  { s with svc := { s.svc with attempts := s.svc.attempts - 1 } }.wr Reg.pwAttemptsLeft (s.svc.attempts - 1)

theorem exec_debugPasswordEntry_right {s : State} {pw : BitVec 64} (hrun : s.sup.running = true) (hclosed : s.prot.debugClosed = true)
    (hset : s.prot.password ≠ 0) (hshut : s.fw.debugOpen = false) (hleft : s.svc.attempts ≠ 0) (hpw : pw.toNat = s.prot.password) :
    exec (.debugPasswordEntry pw) s = .next (s.portOpened.event 0x4206) := by
  have hexec : exec (.debugPasswordEntry pw) s = execDebugPasswordEntry pw s := rfl
  rw [hexec, execDebugPasswordEntry]
  dsimp only
  rw [if_neg (by simp [hrun, hclosed, hset, hshut, hleft]), if_pos hpw]
  rfl

theorem exec_debugPasswordEntry_wrong {s : State} {pw : BitVec 64} (hrun : s.sup.running = true) (hclosed : s.prot.debugClosed = true)
    (hset : s.prot.password ≠ 0) (hshut : s.fw.debugOpen = false) (hleft : 1 < s.svc.attempts) (hpw : pw.toNat ≠ s.prot.password) :
    exec (.debugPasswordEntry pw) s = .next s.attemptUsed := by
  have hexec : exec (.debugPasswordEntry pw) s = execDebugPasswordEntry pw s := rfl
  have hsome : s.svc.attempts ≠ 0 := by omega
  rw [hexec, execDebugPasswordEntry]
  dsimp only
  rw [if_neg (by simp [hrun, hclosed, hset, hshut, hsome]), if_neg hpw, if_neg (by omega)]
  rfl

theorem exec_debugPasswordEntry_none {s : State} (pw : BitVec 64) (hleft : s.svc.attempts = 0) :
    exec (.debugPasswordEntry pw) s = .next s := if_pos (by simp [hleft])

theorem refreshProt_frame {K H s t} (h : Frame K H s t) (hK : [Reg.bootPref, Reg.rollbackMin, Reg.protCode, Reg.protFlags] ⊆ K) :
    Frame K H s t.refreshProt :=
  (((h.wr _ _ (hK (by simp))).wr _ _ (hK (by simp))).wr _ _ (hK (by simp))).wr _ _ (hK (by simp))

theorem refreshProt_keeps (s : State) : s.refreshProt.fw = s.fw ∧ s.refreshProt.svc = s.svc := ⟨rfl, rfl⟩

theorem portOpened_spec (s : State) : s.portOpened.fw.debugOpen = true ∧ s.portOpened.svc.attempts = 8 ∧
    s.portOpened.rd Reg.pwAttemptsLeft = 8 ∧
    Frame [Reg.pwAttemptsLeft, Reg.bootPref, Reg.rollbackMin, Reg.protCode, Reg.protFlags] [] s s.portOpened := by
  unfold State.portOpened
  extract_lets fw svc u
  obtain ⟨hfw, hsvc⟩ := refreshProt_keeps (u.wr Reg.pwAttemptsLeft 8)
  have hprot := refreshProt_frame (Frame.refl [Reg.bootPref, Reg.rollbackMin, Reg.protCode, Reg.protFlags] [] (u.wr Reg.pwAttemptsLeft 8))
    fun _ h => h
  have hu : Frame [Reg.pwAttemptsLeft, Reg.bootPref, Reg.rollbackMin, Reg.protCode, Reg.protFlags] [] s u :=
    ((Frame.refl ..).fwState { s.fw with debugOpen := true } rfl rfl rfl rfl).svc { s.svc with attempts := 8 }
  refine ⟨?_, ?_, ?_, refreshProt_frame (hu.wr _ _ (by simp)) (by simp)⟩
  · rw [hfw, State.wr_fw]
  · rw [hsvc, State.wr_svc]
  · rw [hprot.rd (by decide), rd_wr_of_lt _ (by decide)]

/-- Settles O31: an erase that ends is `codeByte_of_slotErased`, a failed update `fwFail_spec`, the port `portOpened_spec`. -/
theorem firmwareUpdatesAndTheDebugPort : Obligations.FirmwareUpdatesAndTheDebugPort := by
  refine ⟨fun s hst => ?erased, fun s hst => ?spoilt, fun s hver hres => ?valid, fun s hver hres => ?other,
    fun s hrun hclosed hset hword hshut hleft => ?right, fun s pw hrun hclosed hset hshut hleft hmost hpw => ?wrong,
    fun s pw _ _ _ _ hleft => ⟨s, exec_debugPasswordEntry_none pw hleft, rfl⟩,
    fun s hrun hport => ⟨_, if_pos (by simp [hrun, hport]), rfl⟩, fun s => ⟨_, rfl, rfl⟩⟩
  case erased =>
    have hrest : Frame [Reg.fwState, Reg.fwCmd, Reg.fwProgress] [] s.slotBlanked
        (((s.slotBlanked.wr Reg.fwState 2).wr Reg.fwCmd 2).wr Reg.fwProgress 256) :=
      (((Frame.refl ..).wr _ _ (by simp)).wr _ _ (by simp)).wr _ _ (by simp)
    have hcode := hrest.2.1
    refine ⟨_, exec_fwEraseDone_well hst, ?_, ?_, ?_, ?_, fun a ha => ?_, fun a ha => ?_, ?_,
      (slotBlanked_beside s).trans hrest.besideCode⟩
    · rw [State.rd_wr_ne _ _ (by decide), State.rd_wr_ne _ _ (by decide), rd_wr_of_lt _ (by decide)]
    · rw [State.rd_wr_ne _ _ (by decide), rd_wr_of_lt _ (by decide)]
    · rw [State.rd_wr_same]
      rfl
    · rw [hrest.rd (by decide), slotBlanked_rd, erasesCounted]
    · exact (hcode a).trans ((codeByte_of_slotErased (s := s) (slot := s.inactiveSlot) rfl rfl rfl a).trans (if_pos ha))
    · exact (hcode a).trans ((codeByte_of_slotErased (s := s) (slot := s.inactiveSlot) rfl rfl rfl a).trans (if_neg ha))
    · exact ((slotBlanked_quiet s).mono (by decide) fun _ h => h).trans (hrest.1.mono (by decide) fun _ h => h)
  case spoilt =>
    obtain ⟨hstate, hcmd, hflag, hfw, hcreates, hframe⟩ := fwFail_spec s.slotSpoilt 0 (flag := 3) (by decide)
    refine ⟨_, exec_fwEraseDone_failed hst, hstate, hcmd, hflag, ?_, ⟨s.freeVal % 256 + 1, by omega, by omega, ?_⟩,
      hcreates.of_rd ?_, ?_, (slotSpoilt_beside s).trans hframe.besideCode⟩
    · rw [hfw]
      rfl
    · rw [hframe.rd (by decide), slotSpoilt_rd, erasesCounted]
    · rw [slotSpoilt_rd, erasesCounted_rd s _ (by decide)]
    · exact ((slotSpoilt_quiet s).mono (by decide) fun _ h => h).trans (hframe.1.mono (by decide) fun _ h => h)
  case valid =>
    refine ⟨_, exec_fwVerifyDone_valid hver hres, ?_, ?_, ?_, ?_, ?_⟩
    · rw [setXo_rd, State.rd_wr_ne _ _ (by decide), rd_wr_of_lt _ (by decide)]
    · rw [setXo_rd, rd_wr_of_lt _ (by decide)]
    · rw [setXo_rd, State.rd_wr_ne _ _ (by decide), State.rd_wr_ne _ _ (by decide), State.verified, hres, rd_wr_of_lt _ (by decide)]
    · rw [setXo_verifying]
      rfl
    · exact setXo_frame _ _ ((((verified_frame s).mono (by simp) fun _ h => h).wr _ _ (by simp)).wr _ _ (by simp))
  case other =>
    obtain ⟨hstate, hcmd, hflag, _, hcreates, hframe⟩ := fwFail_spec s.verified s.verifyResult (flag := 2) (by decide)
    refine ⟨_, exec_fwVerifyDone_other hver hres, hstate, hcmd, ?_, hflag, hcreates.of_rd ((verified_frame s).rd (by decide)), ?_⟩
    · rw [hframe.rd (by decide), State.verified, State.rd_wr_same]
      rfl
    · exact ((verified_frame s).mono (by simp) fun _ h => h).trans (hframe.mono (by decide) fun _ h => h)
  case right =>
    obtain ⟨hopen, hleft', hshown, hframe⟩ := portOpened_spec s
    have hpw : (BitVec.ofNat 64 s.prot.password).toNat = s.prot.password := by
      rw [BitVec.toNat_ofNat, Nat.mod_eq_of_lt hword]
    have hfw : (s.portOpened.event 0x4206).fw = s.portOpened.fw := State.event_fw ..
    refine ⟨_, exec_debugPasswordEntry_right hrun hclosed hset hshut hleft hpw, ?_, ?_, ?_, ?_, ⟨_, _, _, _, _, rfl, hframe.rd (by decide)⟩, ?_⟩
    · rw [hfw, hopen]
    · rw [State.event_svc, hleft']
    · rw [State.rd_event _ _ _ _ _ _ (by decide), hshown]
    · simp [State.debugPort, hopen]
    · exact (hframe.mono (by decide) fun _ h => h).event _ _ _ _ _ (List.subset_append_left ..)
  case wrong =>
    have hfits : s.svc.attempts - 1 < 256 := by omega
    refine ⟨_, exec_debugPasswordEntry_wrong hrun hclosed hset hshut hleft hpw, hshut, rfl, ?_, ((Frame.refl ..).svc _).wr _ _ (by simp)⟩
    exact rd_wr_of_lt _ (hfits.trans_eq (by decide))

end Sys2Proof.Machine
end

section
/-! PROOF. Data-flash erases, commits and log flushes (spec/16_onchip_flash.md R406, R410, R413-R418; spec/02_object_dictionary.md R57;
spec/18_events_and_faults.md R471; spec/19_service.md R490). -/
namespace Sys2Proof.Machine

/-! ### Erases of the data flash (R406, R418) -/

theorem exec_dfEraseStart_queued {s : State} {b c : Nat} {q : List (Nat × Nat)} (hqueue : s.fla.queue = (b, c) :: q)
    (hrun : s.sup.running = true) (hloaded : s.loaded = true) (hcold : s.coldRead = false)
    (hphase : s.phase = .start ∨ s.phase = .guard ∨ s.phase = .rest) (hnone : s.fla.erase = none) (hcommit : s.svc.commit = none)
    (hnest : s.fla.nested = none) :
    exec .dfEraseStart s = .next { s with fla := { s.fla with queue := q, erase := some { bank := b, sector := c } } } := by
  have hexec : exec .dfEraseStart s = execDfEraseStart s := rfl
  have hphase' : (decide (s.phase = .start) || decide (s.phase = .guard) || decide (s.phase = .rest)) = true := by
    rcases hphase with h | h | h <;> simp [h]
  rw [hexec, execDfEraseStart, hcommit, hqueue]
  exact if_pos (by simp only [hrun, hloaded, hcold, hphase', hnone, hnest]; rfl)

theorem exec_dfEraseStart_commit {s : State} {bank : Nat} {snap : List (Nat × Nat)} (h : s.svc.commit = some (bank, snap)) :
    exec .dfEraseStart s = .next (s.commitErase bank) := by
  have hexec : exec .dfEraseStart s = execDfEraseStart s := rfl
  rw [hexec, execDfEraseStart, h]

theorem exec_dfEraseSuspend {s : State} {e : DfErase} (he : s.fla.erase = some e) (hruns : e.suspended = false)
    (hcommit : s.svc.commit.isSome = true) : exec .dfEraseSuspend s =
      .next ({ s with fla := { s.fla with erase := some { e with suspended := true } } }.bump Reg.dfSuspends) := by
  have hexec : exec .dfEraseSuspend s = execDfEraseSuspend s := rfl
  rw [hexec, execDfEraseSuspend, he]
  exact if_pos (by simp [hruns, hcommit])

/-- The data-flash erase that ran has ended. -/
def State.dfErased (s : State) : State := { s with fla := { s.fla with erase := none } }.bump Reg.dataErases

/-- What the erase's sector comes to. -/
def State.dfSettled (s : State) (ok : Bool) (e : DfErase) : State :=
  if ok then s.dfErased.blankSector e.bank e.sector else (s.dfErased.tearSector e.bank e.sector).queueErase e.bank e.sector

theorem exec_dfEraseDone {s : State} {e : DfErase} (ok : Bool) (he : s.fla.erase = some e) (hruns : e.suspended = false)
    (hnest : s.fla.nested = none) (hwanted : (s.dfSettled ok e).log.wanted = false) :
    exec (.dfEraseDone ok) s = .next (s.dfSettled ok e) := by
  have hexec : exec (.dfEraseDone ok) s = execDfEraseDone ok s := rfl
  have hlast : (if (s.dfSettled ok e).log.wanted then (s.dfSettled ok e).flushLog else s.dfSettled ok e) = s.dfSettled ok e :=
    if_neg (ne_true_of_eq_false hwanted)
  rw [hexec, execDfEraseDone, hnest, he, if_neg (by simp)]
  exact (if_neg (by simp [hruns])).trans (congrArg _ hlast)

/-- A sector of the log, by its ring position, becomes blank. -/
theorem blankSector_log {s : State} {bank sector : Nat} (h : 40 ≤ sector) : ∃ srcs, s.blankSector bank sector =
    { s with log := { s.log with ring := s.log.ring.filter (fun e => !(decide (e.1 / 32 = (sector - 40) * 2 + bank))) },
             svc := { s.svc with srcs := srcs } } := by
  unfold State.blankSector
  rw [if_neg (by omega), if_neg (by omega)]
  exact ⟨_, rfl⟩

/-- A sector of the log whose erase failed reads cut off. -/
theorem tearSector_log {s : State} {bank sector : Nat} (h : 40 ≤ sector) : s.tearSector bank sector =
    { s with log := { s.log with
        ring := s.log.ring.map (fun e => if e.1 / 32 = (sector - 40) * 2 + bank then (e.1, Slot.torn) else e) } } := by
  unfold State.tearSector
  rw [if_neg (by omega), if_neg (by omega)]

/-- A table in which every entry of some keys is set to one value. -/
theorem tget_map_key {α : Type} (d x : α) (t : Table α) (p : Nat → Prop) [DecidablePred p] (q : Nat) :
    (¬ p q → tget d (t.map (fun e => if p e.1 then (e.1, x) else e)) q = tget d t q) ∧
    (p q → tget d (t.map (fun e => if p e.1 then (e.1, x) else e)) q = x ∨
      tget d (t.map (fun e => if p e.1 then (e.1, x) else e)) q = d) := by
  induction t with
  | nil => exact ⟨fun _ => rfl, fun _ => .inr rfl⟩
  | cons e t ih =>
    obtain ⟨k, v⟩ := e
    obtain ⟨ih1, ih2⟩ := ih
    by_cases hk : q = k
    · subst hk
      refine ⟨fun hp => by simp [tget, hp], fun hp => by simp [tget, hp]⟩
    · by_cases hp : p k
      · simp only [List.map_cons, if_pos hp, tget, if_neg hk]
        exact ⟨ih1, ih2⟩
      · simp only [List.map_cons, if_neg hp, tget, if_neg hk]
        exact ⟨ih1, ih2⟩

theorem dfErased_frame (s : State) : Frame [Reg.dataErases] [] s s.dfErased :=
  ((Frame.refl ..).of_eq rfl rfl ⟨fun _ => rfl, rfl, rfl, rfl, rfl, rfl, .of_eq rfl⟩ : Frame [Reg.dataErases] [] s
    { s with fla := { s.fla with erase := none } }).bump _ (by simp)

theorem dfErased_counts (s : State) : Counts Reg.dataErases s s.dfErased := counts_bump { s with fla := { s.fla with erase := none } } _

theorem mem_queueErase (s : State) (b c : Nat) : (b, c) ∈ (s.queueErase b c).fla.queue := by
  unfold State.queueErase
  split
  · next h => exact List.contains_iff_mem.mp h
  · simp

/-- What queueing an erase leaves. -/
theorem queueErase_eq (s : State) (b c : Nat) : ∃ q, s.queueErase b c = { s with fla := { s.fla with queue := q } } := by
  unfold State.queueErase
  split
  · exact ⟨s.fla.queue, rfl⟩
  · exact ⟨_, rfl⟩

/-! ### A commit's own erases (R410) -/

theorem commitErase_of_room {s : State} {bank x : Nat} {rest : List Nat} (hleft : s.fla.left = x :: rest) (hnest : s.fla.nested = none)
    (h0 : s.dataErasing 0 = false) (h1 : s.dataErasing 1 = false) : s.commitErase bank =
      { (s.setCopy bank .torn) with fla := { (s.setCopy bank .torn).fla with nested := some bank, left := rest, begun := true } } := by
  unfold State.commitErase
  rw [hleft]
  exact if_neg (by simp [hnest, h0, h1])

theorem copyOf_setCopy (s : State) (bank : Nat) (c : Copy) : (s.setCopy bank c).copyOf bank = c := by
  unfold State.setCopy State.copyOf
  by_cases h : bank = 0 <;> simp [h]

/-- A copy of the config store takes its contents; all else stands. -/
theorem setCopy_leaves (s : State) (bank : Nat) (c : Copy) : Quiet [] [] s (s.setCopy bank c) ∧ (s.setCopy bank c).fla.erase = s.fla.erase := by
  unfold State.setCopy
  split <;> exact ⟨⟨fun _ _ => rfl, fun _ _ => rfl⟩, rfl⟩

theorem exec_dfEraseDone_nested {s : State} {bank : Nat} (ok : Bool) (hnest : s.fla.nested = some bank) :
    exec (.dfEraseDone ok) s = .next (s.commitErased ok) := if_pos (by simp [hnest])

/-- A commit's own erase ends while the commit runs: it is counted, and made again where it failed. -/
theorem commitErased_eq {s : State} (ok : Bool) (hcommit : s.svc.commit.isSome = true) (hwanted : s.log.wanted = false) :
    s.commitErased ok = ({ s with fla := { s.fla with nested := none, left := if ok then s.fla.left else 0 :: s.fla.left } }).bump
      Reg.dataErases := by
  have hsome : s.svc.commit.isNone = false := by simpa using hcommit
  unfold State.commitErased
  simp only [hsome, Bool.or_false, Bool.false_and, State.iff]
  exact if_neg (by simp [hwanted])

/-! ### The end of a commit (R57, R410) -/

theorem resumeDf_eq (s : State) : ∃ erase, s.resumeDf = { s with fla := { s.fla with erase := erase } } := by
  unfold State.resumeDf
  split
  · split
    · exact ⟨_, rfl⟩
    · exact ⟨s.fla.erase, rfl⟩
  · exact ⟨s.fla.erase, rfl⟩

theorem commitOver_spec (s : State) : s.commitOver.svc = s.svc ∧ Frame eventKeys [] s s.commitOver := by
  obtain ⟨erase, h⟩ := resumeDf_eq s
  have hresume : s.resumeDf.svc = s.svc ∧ Frame eventKeys [] s s.resumeDf := by
    rw [h]
    exact ⟨rfl, (Frame.refl ..).of_eq rfl rfl ⟨fun _ => rfl, rfl, rfl, rfl, rfl, rfl, .of_eq rfl⟩⟩
  unfold State.commitOver
  dsimp only
  split
  · have hlog := logOnly_flushLog (.refl s.resumeDf)
    refine ⟨?_, hlog.frame (fun _ h => h) hresume.2⟩
    obtain ⟨_, _, _, _, _, heq, _⟩ := hlog
    rw [heq]
    exact hresume.1
  · exact hresume

/-- No commit runs any more. -/
def State.commitGone (s : State) : State := { s with svc := { s.svc with commit := none } }

/-- A commit has ended, and the words it programmed are counted. -/
def State.commitCounted (s : State) (snap : List (Nat × Nat)) : State :=
  s.commitGone.bumpBy Reg.wordsProgrammed (commitWords snap)

/-- A bank's copy is programmed; the bank is the last one committed. -/
def State.putCopy (s : State) (bank : Nat) (c : Copy) : State := { (s.setCopy bank c) with svc := { s.svc with lastBank := bank + 1 } }

/-- The copy of a commit stands. -/
def State.copyProgrammed (s : State) (bank : Nat) (snap : List (Nat × Nat)) : State :=
  (s.commitCounted snap).putCopy bank
    (.valid s.commitSeq (s.commitCounted snap).stamp ((s.commitCounted snap).rd Reg.fwVersion) (entriesOf snap))

theorem commitCounted_spec (s : State) (snap : List (Nat × Nat)) : (s.commitCounted snap).svc.commit = none ∧
    (s.commitCounted snap).stamp = s.stamp ∧ Frame [Reg.wordsProgrammed] [] s (s.commitCounted snap) := by
  have hframe : Frame [Reg.wordsProgrammed] [] s s.commitGone :=
    (Frame.refl ..).of_eq rfl rfl ⟨fun _ => rfl, rfl, rfl, rfl, rfl, rfl, .of_eq rfl⟩
  exact ⟨rfl, rfl, hframe.bumpBy _ _ (by simp)⟩

/-- Programming a copy into bank 0: that copy and the count of the programmed words, nothing else. -/
theorem copyProgrammed_spec (s : State) (snap : List (Nat × Nat)) :
    (s.copyProgrammed 0 snap).svc.commit = none ∧ (s.copyProgrammed 0 snap).stamp = s.stamp ∧
    (s.copyProgrammed 0 snap).fla.cope = Copy.valid s.commitSeq s.stamp (s.rd Reg.fwVersion) (entriesOf snap) ∧
    (s.copyProgrammed 0 snap).fla.drag = s.fla.drag ∧ (s.copyProgrammed 0 snap).fla.sums = s.fla.sums ∧
    Quiet [Reg.wordsProgrammed] [] s (s.copyProgrammed 0 snap) ∧ (∀ a, (s.copyProgrammed 0 snap).codeByte a = s.codeByte a) ∧
    (s.copyProgrammed 0 snap).sto.nand = s.sto.nand ∧ RingKept s (s.copyProgrammed 0 snap) := by
  obtain ⟨hcommit, hstamp, hquiet, hcode, _, hnand, hcope, hdrag, hsums, hring⟩ := commitCounted_spec s snap
  have hversion : (s.commitCounted snap).rd Reg.fwVersion = s.rd Reg.fwVersion := hquiet.1 _ (by decide)
  unfold State.copyProgrammed
  rw [hstamp, hversion]
  exact ⟨hcommit, hstamp, rfl, hdrag, hsums, hquiet, hcode, hnand, hring⟩

/-- A commit that is done is shown. -/
def State.commitShown (s : State) (bank seq : Nat) : State :=
  let s := ((s.wr Reg.configBank (bank + 1)).wr Reg.configSeq seq).wr Reg.configStamp s.stamp
  ((s.wr Reg.configCommit 2).flag Reg.serviceFlags 0).event 0x1101 0xFF 2 seq

/-- What a commit that fails has programmed. -/
def State.copySpoilt (s : State) (bank : Nat) (snap : List (Nat × Nat)) : State :=
  let s := if s.fla.begun then s.commitGone.setCopy bank .torn else s.commitGone
  s.iff (s.fla.begun && s.fla.left = []) (fun s => (s.bumpBy Reg.wordsProgrammed (s.freeVal % (commitWords snap))).freeNext)

/-- A commit of bank 1 that fails: what stood there is cut off where its erase had begun, and all else but the count of the programmed
words stands. -/
theorem copySpoilt_spec (s : State) (snap : List (Nat × Nat)) :
    (s.copySpoilt 1 snap).svc.commit = none ∧
    (s.copySpoilt 1 snap).fla.drag = (if s.fla.begun then Copy.torn else s.fla.drag) ∧
    (s.copySpoilt 1 snap).fla.cope = s.fla.cope ∧ (s.copySpoilt 1 snap).fla.sums = s.fla.sums ∧
    Quiet [Reg.wordsProgrammed] [] s (s.copySpoilt 1 snap) ∧ (∀ a, (s.copySpoilt 1 snap).codeByte a = s.codeByte a) ∧
    (s.copySpoilt 1 snap).sto.nand = s.sto.nand ∧ RingKept s (s.copySpoilt 1 snap) := by
  have hcounted : ∀ (u : State) (n : Nat), Frame [Reg.wordsProgrammed] [] u (u.bumpBy Reg.wordsProgrammed n).freeNext :=
    fun u n => ((Frame.refl ..).bumpBy _ _ (by simp)).of_eq rfl rfl (SameStores.refl _)
  unfold State.copySpoilt
  cases hbegun : s.fla.begun
  case false =>
    have hgone : s.commitGone.fla.begun = false := hbegun
    rw [if_neg (by decide)]
    dsimp only
    rw [hgone]
    exact ⟨rfl, rfl, rfl, rfl, Quiet.refl .., fun _ => rfl, rfl, .of_eq rfl⟩
  case true =>
    rw [if_pos rfl, if_pos rfl]
    dsimp only
    obtain ⟨hquiet, hcode, _, hnand, hcope, hdrag, hsums, hring⟩ :=
      hcounted (s.commitGone.setCopy 1 .torn) ((s.commitGone.setCopy 1 .torn).freeVal % commitWords snap)
    unfold State.iff
    split
    · exact ⟨rfl, hdrag, hcope, hsums, hquiet, hcode, hnand, hring⟩
    · exact ⟨rfl, rfl, rfl, rfl, Quiet.refl .., fun _ => rfl, rfl, .of_eq rfl⟩

/-- A commit that has failed is shown. -/
def State.commitFailed (s : State) : State :=
  ((s.wr Reg.configCommit 3).flag Reg.serviceFlags 1).event 0x1101 0xFF 3 (s.rd Reg.configSeq)

theorem exec_commitDone_well {s : State} {bank : Nat} {snap : List (Nat × Nat)} (hcommit : s.svc.commit = some (bank, snap))
    (hnest : s.fla.nested = none) (hleft : s.fla.left = []) :
    exec (.commitDone true) s = .next ((s.copyProgrammed bank snap).commitShown bank s.commitSeq).commitOver := by
  have hexec : exec (.commitDone true) s = execCommitDone true s := rfl
  rw [hexec, execCommitDone, hcommit]
  dsimp only
  rw [if_neg (by simp [hnest, hleft]), if_pos rfl]
  rfl

theorem exec_commitDone_failed {s : State} {bank : Nat} {snap : List (Nat × Nat)} (hcommit : s.svc.commit = some (bank, snap))
    (hnest : s.fla.nested = none) : exec (.commitDone false) s = .next (s.copySpoilt bank snap).commitFailed.commitOver := by
  have hexec : exec (.commitDone false) s = execCommitDone false s := rfl
  rw [hexec, execCommitDone, hcommit]
  dsimp only
  rw [if_neg (by simp [hnest]), if_neg (by decide)]
  rfl

/-- The registers of a commit that is shown. -/
def commitKeys : List Nat := eventKeys ++ [Reg.configCommit, Reg.configBank, Reg.configSeq, Reg.configStamp, Reg.serviceFlags]

theorem commitShown_spec (s : State) (bank seq : Nat) (hbank : bank + 1 < 256) :
    (s.commitShown bank seq).rd Reg.configCommit = 2 ∧ (s.commitShown bank seq).rd Reg.configBank = bank + 1 ∧
    (s.commitShown bank seq).rd Reg.configSeq = fit Reg.configSeq seq ∧
    (s.commitShown bank seq).rd Reg.configStamp = fit Reg.configStamp s.stamp ∧
    (s.commitShown bank seq).bitOf Reg.serviceFlags 0 = true ∧ (s.commitShown bank seq).svc = s.svc ∧
    Frame commitKeys [] s (s.commitShown bank seq) := by
  unfold State.commitShown
  extract_lets u
  have hu : Frame commitKeys [] s ((u.wr Reg.configCommit 2).flag Reg.serviceFlags 0) :=
    (((((Frame.refl ..).wr _ _ (by decide)).wr _ _ (by decide)).wr _ _ (by decide)).wr _ _ (by decide)).flag _ _ (by decide)
  refine ⟨?_, ?_, ?_, ?_, ?_, ?_, hu.event _ _ _ _ _ (List.subset_append_left ..)⟩
  · rw [State.rd_event _ _ _ _ _ _ (by decide), rd_flag_ne _ _ (by decide), rd_wr_of_lt _ (by decide)]
  · rw [State.rd_event _ _ _ _ _ _ (by decide), rd_flag_ne _ _ (by decide), State.rd_wr_ne _ _ (by decide), State.rd_wr_ne _ _ (by decide),
      State.rd_wr_ne _ _ (by decide), rd_wr_of_lt _ (hbank.trans_eq (by decide))]
  · rw [State.rd_event _ _ _ _ _ _ (by decide), rd_flag_ne _ _ (by decide), State.rd_wr_ne _ _ (by decide), State.rd_wr_ne _ _ (by decide),
      State.rd_wr_same]
    rfl
  · rw [State.rd_event _ _ _ _ _ _ (by decide), rd_flag_ne _ _ (by decide), State.rd_wr_ne _ _ (by decide), State.rd_wr_same]
    rfl
  · rw [bitOf_of_rd 0 (State.rd_event _ _ _ _ _ _ (by decide))]
    exact bitOf_flag _ (by decide)
  · rw [State.event_svc, State.flag_svc, State.wr_svc, State.wr_svc, State.wr_svc, State.wr_svc]

theorem commitFailed_spec (s : State) : s.commitFailed.rd Reg.configCommit = 3 ∧ s.commitFailed.bitOf Reg.serviceFlags 1 = true ∧
    s.commitFailed.svc = s.svc ∧ Frame (eventKeys ++ [Reg.configCommit, Reg.serviceFlags]) [] s s.commitFailed := by
  unfold State.commitFailed
  refine ⟨?_, ?_, ?_, (((Frame.refl ..).wr _ _ (by decide)).flag _ _ (by decide)).event _ _ _ _ _ (List.subset_append_left ..)⟩
  · rw [State.rd_event _ _ _ _ _ _ (by decide), rd_flag_ne _ _ (by decide), rd_wr_of_lt _ (by decide)]
  · rw [bitOf_of_rd 1 (State.rd_event _ _ _ _ _ _ (by decide))]
    exact bitOf_flag _ (by decide)
  · rw [State.event_svc, State.flag_svc, State.wr_svc]

/-! ### The flush window (R413, R471) -/

theorem exec_logFlush {s : State} (hrun : s.sup.running = true) (hloaded : s.loaded = true) (hcold : s.coldRead = false)
    (hdue : dueCycle s.clk.cyc (s.rd Reg.logFlushPeriod / 1024) 0 = true) (htic : s.clk.tic = windowTick 63488 s.clk.shift) :
    exec .logFlush s = .next s.flushLog := if_pos (by simp [hrun, hloaded, hcold, hdue, htic])

/-- The head's slot takes a record. -/
def State.recordPut (s : State) (r : LogRec) : State :=
  ({ s with log := { s.log with
      ring := tset .blank s.log.ring s.log.head (.valid r s.log.index)
      index := s.log.index + 1
      head := (s.log.head + 1) % ringSlots
      writing := s.log.head :: s.log.writing } }).bumpBy Reg.wordsProgrammed 8

theorem putRecord_eq (s : State) (r : LogRec) : ∃ q, s.putRecord r = { s.recordPut r with fla := { s.fla with queue := q } } := by
  have heq : s.putRecord r = if (s.log.head + 1) % 32 = 0 then (s.recordPut r).queuePos ((s.log.head / 32 + 4) % 176) else s.recordPut r := rfl
  rw [heq]
  split
  · unfold State.queuePos
    split
    · exact ⟨s.fla.queue, rfl⟩
    · exact queueErase_eq ..
  · exact ⟨s.fla.queue, rfl⟩

/-- A queue of one record that the head can take is written. -/
theorem flushLog_one {s : State} {r : LogRec} (hqueue : s.log.queue = [r]) (hwrite : s.canWrite = true) (howed : s.log.owed = false) :
    s.flushLog = { s.putRecord r with log := { (s.putRecord r).log with queue := [], wanted := false } } := by
  have hdrain : s.drain [r] = { s.putRecord r with log := { (s.putRecord r).log with queue := [] } } := if_pos hwrite
  obtain ⟨q, heq⟩ := putRecord_eq s r
  unfold State.flushLog
  rw [hqueue, hdrain]
  dsimp only
  refine if_neg ?_
  rw [heq]
  simp [State.recordPut, howed]

theorem recordPut_rd (s : State) (r : LogRec) : (s.recordPut r).rd Reg.wordsProgrammed = fit Reg.wordsProgrammed (s.rd Reg.wordsProgrammed + 8) ∧
    ∀ k, k ≠ Reg.wordsProgrammed → (s.recordPut r).rd k = s.rd k := by
  unfold State.recordPut State.bumpBy
  exact ⟨by rw [State.rd_wr_same]; rfl, fun k hk => by rw [State.rd_wr_ne _ _ hk]; rfl⟩

/-- Settles O30: an erase's end is `blankSector_log` or `tearSector_log`, a commit's `commitShown_spec` or `commitFailed_spec`, a flush
`flushLog_one`. -/
theorem dataFlashErasesCommitsAndFlushes : Obligations.DataFlashErasesCommitsAndFlushes := by
  refine ⟨fun s b c q hqueue hrun hloaded hcold hphase hnone hcommit hnest =>
      ⟨_, exec_dfEraseStart_queued hqueue hrun hloaded hcold hphase hnone hcommit hnest, rfl⟩,
    fun s e he hruns hcommit => ?suspend, fun s e pos he hruns hlow hpos hwanted hnest => ?blank,
    fun s e pos he hruns hlow hpos hwanted hnest => ?torn, fun s bank x snap rest hcommit hleft hnest h0 h1 => ?own,
    fun s ok bank hnest hcommit hwanted => ?ownDone, fun s snap hcommit hnest hleft => ?written, fun s snap hcommit hnest => ?failed,
    fun s r hrun hloaded hcold hdue htic hqueue hwrite howed => ?flush, fun s hkind hold => ?abandon⟩
  case suspend =>
    refine ⟨_, exec_dfEraseSuspend he hruns hcommit, ?_, counts_bump { s with fla := { s.fla with erase := _ } } _, ?_⟩
    · rw [State.bump_fla]
    · exact ((Frame.refl ..).of_eq rfl rfl ⟨fun _ => rfl, rfl, rfl, rfl, rfl, rfl, .of_eq rfl⟩ : Frame [Reg.dfSuspends] [] s
        { s with fla := { s.fla with erase := _ } }).bump _ (by simp)
  case blank =>
    obtain ⟨srcs, heq⟩ := blankSector_log (s := s.dfErased) (bank := e.bank) hlow
    obtain ⟨hquiet, hcode, _, hnand, hcope, hdrag, hsums, _⟩ := dfErased_frame s
    have hsettled : s.dfSettled true e = _ := (if_pos rfl).trans heq
    refine ⟨_, exec_dfEraseDone true he hruns hnest (by rw [hsettled]; exact hwanted), ?_⟩
    rw [hsettled]
    refine ⟨rfl, fun n => ?_, dfErased_counts s, hquiet, hcode, hnand, hcope, hdrag, hsums⟩
    have hslot : (State.slot { s.dfErased with log := { s.dfErased.log with
        ring := s.dfErased.log.ring.filter (fun x => !(decide (x.1 / 32 = (e.sector - 40) * 2 + e.bank))) } } n) = _ :=
      tget_filter_key Slot.blank s.log.ring (fun i => !(decide (i / 32 = (e.sector - 40) * 2 + e.bank))) n
    refine hslot.trans ?_
    rw [← hpos]
    by_cases hn : n / 32 = pos <;> simp [hn, State.slot]
  case torn =>
    obtain ⟨hquiet, hcode, _, hnand, hcope, hdrag, hsums, _⟩ := dfErased_frame s
    obtain ⟨q, hq⟩ := queueErase_eq (s.dfErased.tearSector e.bank e.sector) e.bank e.sector
    have hmem := mem_queueErase (s.dfErased.tearSector e.bank e.sector) e.bank e.sector
    rw [hq, tearSector_log hlow] at hmem
    have hsettled : s.dfSettled false e = _ := (if_neg (by decide)).trans (hq.trans (by rw [tearSector_log hlow]))
    refine ⟨_, exec_dfEraseDone false he hruns hnest (by rw [hsettled]; exact hwanted), ?_⟩
    rw [hsettled]
    have hslot := fun n => tget_map_key Slot.blank Slot.torn s.log.ring (fun i => i / 32 = (e.sector - 40) * 2 + e.bank) n
    rw [hpos]
    exact ⟨rfl, fun n => (hslot n).1, fun n => (hslot n).2, hmem, dfErased_counts s, hquiet, hcode, hnand, hcope, hdrag, hsums⟩
  case own =>
    obtain ⟨hquiet, herase⟩ := setCopy_leaves s bank .torn
    exact ⟨_, (exec_dfEraseStart_commit hcommit).trans (congrArg _ (commitErase_of_room hleft hnest h0 h1)), rfl, rfl, herase,
      copyOf_setCopy s bank .torn, hquiet⟩
  case ownDone =>
    refine ⟨_, (exec_dfEraseDone_nested ok hnest).trans (congrArg _ (commitErased_eq ok hcommit hwanted)), ?_, ?_, ?_, counts_bump _ _, ?_⟩
    · rw [State.bump_fla]
    · rw [State.bump_fla]
    · rw [State.bump_fla]
    · exact ((Frame.refl ..).of_eq rfl rfl ⟨fun _ => rfl, rfl, rfl, rfl, rfl, rfl, .of_eq rfl⟩ : Frame [Reg.dataErases] [] s
        { s with fla := { s.fla with nested := none, left := _ } }).bump _ (by simp)
  case written =>
    obtain ⟨hcommit', hstamp, hcope, hdrag, hsums, hquiet, hcode, hnand, hring⟩ := copyProgrammed_spec s snap
    obtain ⟨hcmd, hbank, hseq, hstamped, hflag, hsvc, hshown⟩ :=
      commitShown_spec (s.copyProgrammed 0 snap) 0 s.commitSeq (by decide)
    obtain ⟨hsvc', hover⟩ := commitOver_spec ((s.copyProgrammed 0 snap).commitShown 0 s.commitSeq)
    have hkept := fun k (hk : k ∉ eventKeys) => hover.1.1 k hk
    obtain ⟨hquiet', hcode', _, hnand', hcope', hdrag', hsums', hring'⟩ :=
      hshown.trans (hover.mono (List.subset_append_left ..) (List.Subset.refl _))
    refine ⟨_, exec_commitDone_well hcommit hnest hleft, ?_⟩
    dsimp only
    rw [hsvc', hsvc, hkept _ (by decide), hkept _ (by decide), hkept _ (by decide), hkept _ (by decide), bitOf_of_rd 0 (hkept _ (by decide)), ← hstamp]
    exact ⟨hcommit', hcope'.trans (hstamp ▸ hcope), hdrag'.trans hdrag, hcmd, hbank, hseq, hstamped, hflag,
      (hquiet.mono (by decide) (List.Subset.refl _)).trans hquiet', fun a => (hcode' a).trans (hcode a), hnand'.trans hnand,
      hsums'.trans hsums, hring.trans hring'⟩
  case failed =>
    obtain ⟨hcommit', hdrag, hcope, hsums, hquiet, hcode, hnand, hring⟩ := copySpoilt_spec s snap
    obtain ⟨hcmd, hflag, hsvc, hshown⟩ := commitFailed_spec (s.copySpoilt 1 snap)
    obtain ⟨hsvc', hover⟩ := commitOver_spec (s.copySpoilt 1 snap).commitFailed
    have hkept := fun k (hk : k ∉ eventKeys) => hover.1.1 k hk
    obtain ⟨hquiet', hcode', _, hnand', hcope', hdrag', hsums', hring'⟩ :=
      hshown.trans (hover.mono (List.subset_append_left ..) (List.Subset.refl _))
    refine ⟨_, exec_commitDone_failed hcommit hnest, ?_⟩
    dsimp only
    rw [hsvc', hsvc, hkept _ (by decide), bitOf_of_rd 1 (hkept _ (by decide))]
    exact ⟨hcommit', hdrag'.trans hdrag, hcope'.trans hcope, hcmd, hflag, (hquiet.mono (by decide) (List.Subset.refl _)).trans hquiet',
      fun a => (hcode' a).trans (hcode a), hnand'.trans hnand, hsums'.trans hsums, hring.trans hring'⟩
  case flush =>
    obtain ⟨q, heq⟩ := putRecord_eq s r
    obtain ⟨hwords, hothers⟩ := recordPut_rd s r
    have hflush := flushLog_one hqueue hwrite howed
    have hlog := logOnly_flushLog (.refl s)
    obtain ⟨hquiet, hcode, hrecord, hnand, hcope, hdrag, hsums, hring⟩ := hlog.frame (fun _ h => h) (Frame.refl eventKeys [] s)
    refine ⟨_, exec_logFlush hrun hloaded hcold hdue htic, ?_⟩
    rw [hflush, heq] at hquiet hcode hrecord hnand hcope hdrag hsums hring ⊢
    exact ⟨rfl, tget_tset_same Slot.blank s.log.ring s.log.head (.valid r s.log.index), rfl, rfl, hwords,
      ⟨fun k hk => hothers k (by simpa using hk), hquiet.2⟩, hcode, hrecord, hnand, hcope, hdrag, hsums, hring⟩
  case abandon =>
    refine ⟨s.dropReport, if_pos (by simp [hkind, hold]), ?_⟩
    have heq : s.dropReport = { (s.wr Reg.svcReportCmd 3) with rep := {} } := if_neg (by simp [hkind])
    rw [heq]
    exact ⟨rd_wr_of_lt (k := Reg.svcReportCmd) (v := 3) s (by decide), rfl, ((Frame.refl ..).wr _ _ (by simp)).rep _⟩

end Sys2Proof.Machine
end

section
/-! PROOF. A firmware command that ends the window write of the link (spec/12_link_layer.md R323; spec/16_onchip_flash.md R422, R423). -/
namespace Sys2Proof.Machine

/-- The service runs and USB is up; a window write of the link waits for its words, and its last segment, tag 5, is the link's last
control request. -/
def linkWindowWaits : State :=
  { State.reset with
    sup.usbUp := true, sup.running := true, sup.source := .iso, loaded := true, taken := true, phase := .guard
    reg := ((State.reset.wr Reg.fwState 3).wr Reg.lastCtrl 0x10A05).reg
    fw := { State.reset.fw with write := some { addr := 0x100000, data := List.replicate 8 0, src := 0, tag := 5 } } }

/-- It is a sound state that takes FW_CANCEL over USB, the link's last control request still sent. -/
theorem linkWindowWaits_evaluates : linkWindowWaits.inv = true ∧ linkWindowWaits.rd Reg.lastCtrl = 0x10A05 ∧
    linkWindowWaits.rd Reg.fwCmd ≠ 1 ∧ linkWindowWaits.rd Reg.fwState = 3 ∧ (linkWindowWaits.lets 1 0 Reg.fwCmd 5).isSome = true := by
  decide +kernel

theorem noteFate_of_sent {s : State} {a : Answer} {c : Nat} (habort : a.status = 1) (htag : c % 256 = a.tag)
    (hop : c / 256 % 256 + 0x80 = a.opcode) (hc : c < 65536) (hlast : s.rd Reg.lastCtrl = 65536 + c) :
    s.noteFate a = s.wr Reg.lastCtrl (c + 2 * 65536) := by
  unfold State.noteFate
  rw [hlast]
  dsimp only
  rw [if_pos (by simp; omega)]
  congr 1
  omega

/-- An abort that answers the link's last control request, still sent, is its fate (R323). -/
theorem reply_lastCtrl {s : State} {a : Answer} {c : Nat} (hsrc : a.src = 0) (habort : a.status = 1) (htag : c % 256 = a.tag)
    (hop : c / 256 % 256 + 0x80 = a.opcode) (hc : c < 65536) (hlast : s.rd Reg.lastCtrl = 65536 + c) :
    (s.reply a).rd Reg.lastCtrl = c + 2 * 65536 := by
  have hsend : ∀ u : State, Frame sendKeys [] u (u.send { ty := 0x21, payload := a.bytes 0 }) :=
    fun u => (Frame.refl ..).send _ fun _ h => h
  have hsize : sizeAt Reg.lastCtrl = 4 := rfl
  have hfate := noteFate_of_sent (s := { s with svc := { s.svc with answer := some a, wire := s.svc.wire ++ s.wireOf a } }) habort htag hop
    hc hlast
  unfold State.reply
  dsimp only
  rw [if_pos hsrc, (hsend _).rd (by decide), hfate]
  exact rd_wr_of_lt _ (by rw [hsize]; omega)

theorem fwCmd_cmdReg : CmdReg Reg.fwCmd ⟨0x08, .u8, .cmd, .volatile, 0, 0, .any, false⟩ := ⟨rfl, by decide, rfl, rfl⟩

/-- FW_CANCEL stops the update. -/
def State.updateCancelled (s : State) : State :=
  ({ s.dropWinWrite with fw := { s.dropWinWrite.fw with verifying := false } }.wr Reg.fwState 0).wr Reg.fwCmd 2

theorem doCmd_fwCancel {s : State} (j tag : Nat) (hidle : s.rd Reg.fwCmd ≠ 1) (hdist : s.cas.dist = none) (hstate : s.rd Reg.fwState = 3) :
    s.doCmd j tag Reg.fwCmd 5 = .ok s.updateCancelled := by
  have hdo : s.doCmd j tag Reg.fwCmd 5 = (s.doFwCmd j tag 5).out s := rfl
  rw [hdo, State.doFwCmd]
  simp [hidle, hdist, hstate, State.updateCancelled, WOut.out]

theorem updateCancelled_lastCtrl (s : State) : s.updateCancelled.rd Reg.lastCtrl = s.dropWinWrite.rd Reg.lastCtrl := by
  rw [State.updateCancelled, State.rd_wr_ne _ _ (by decide), State.rd_wr_ne _ _ (by decide)]
  rfl

/-- Ending a window write of the link whose last segment is its last control request notes that it was aborted. -/
theorem dropWinWrite_lastCtrl {s : State} {w : WinWrite} (hwrite : s.fw.write = some w) (hsrc : w.src = 0) (htag : w.tag < 256)
    (hlast : s.rd Reg.lastCtrl = 0x10A00 + w.tag) : s.dropWinWrite.rd Reg.lastCtrl = 0xA00 + w.tag + 2 * 65536 := by
  obtain ⟨_, _, _, _, hcut, _⟩ := cutWrite_eq s
  unfold State.dropWinWrite
  rw [hwrite]
  dsimp only
  rw [hsrc]
  refine reply_lastCtrl (c := 0xA00 + w.tag) rfl rfl ?_ ?_ (by omega) (((hcut _ (by decide)).trans hlast).trans (by omega))
  all_goals dsimp only; omega

/-- Refutes O48: its clauses on FW_ERASE and FW_CANCEL name `sendKeys` for the answer to a window write that ends with them. Where that
write came over the link, its abort is the fate of the link's last control request (R323), and LAST_CTRL is none of these: in
`linkWindowWaits` it goes from sent to aborted. -/
theorem not_firmwareIsCommanded : ¬ Obligations.FirmwareIsCommanded := by
  rintro ⟨_, _, _, _, hcancel, _⟩
  obtain ⟨_, hbefore, hidle, hstate, htakes⟩ := linkWindowWaits_evaluates
  have hlets : linkWindowWaits.lets 1 0 Reg.fwCmd 5 = some (Option.get _ htakes) := (Option.some_get _).symm
  obtain ⟨t, hexec, _, _, _, _, hquiet, _⟩ := hcancel linkWindowWaits _ 1 0 hlets rfl hidle (.inr (.inl hstate))
  obtain ⟨hsvc, _⟩ := writeReq_of_lets fwCmd_cmdReg (by decide) hlets
  generalize Option.get _ htakes = u at hlets hsvc
  have hdo : u.doCmd 1 0 Reg.fwCmd 5 = .ok u.updateCancelled :=
    doCmd_fwCancel 1 0 (by rw [hsvc.rd]; exact hidle) (by rw [hsvc]; rfl) (by rw [hsvc.rd]; exact hstate)
  obtain ⟨_, hexec'⟩ := exec_of_answered (c := .fwCancel 1 0) fwCmd_cmdReg (by decide) hlets rfl hdo
  have hafter : u.updateCancelled.rd Reg.lastCtrl = 0x20A05 := by
    rw [updateCancelled_lastCtrl]
    exact dropWinWrite_lastCtrl (w := { addr := 0x100000, data := List.replicate 8 0, src := 0, tag := 5 }) (by rw [hsvc]; rfl) rfl (by decide)
      ((hsvc.rd _).trans hbefore)
  have hanswer : ∀ v : State, (v.replyOk 1 0 Op.write Reg.fwCmd []).rd Reg.lastCtrl = v.rd Reg.lastCtrl := fun v =>
    (replyOk_frame (K := sendKeys) (H := []) 1 0 Op.write Reg.fwCmd [] (Frame.refl ..) fun _ h => h).rd (by decide)
  have hsame := congrArg (fun v : State => v.rd Reg.lastCtrl) (Host.Outcome.next.inj (hexec'.symm.trans hexec))
  have hkept : t.rd Reg.lastCtrl = linkWindowWaits.rd Reg.lastCtrl := hquiet.1 _ (by decide)
  have hclash : u.updateCancelled.rd Reg.lastCtrl = t.rd Reg.lastCtrl := (hanswer _).symm.trans (hsame.trans (hanswer t))
  rw [hafter, hkept, hbefore] at hclash
  exact absurd hclash (by decide)

end Sys2Proof.Machine
end

section
/-! PROOF. The memory window and log batches (spec/16_onchip_flash.md R404, R423, R428; spec/18_events_and_faults.md R475). -/
namespace Sys2Proof.Machine

/-! ### A request's outcome (R76) -/

theorem serves_of_ok {s t : State} {c : Instr} {op : Nat} {r : Req} {l : List Nat} {bits : Nat} {P : State → Prop}
    (hexec : exec c s = .next (State.finish op r (.ok t l bits))) (hP : P t) : Serves c op r l bits s P := ⟨t, hexec, hP⟩

theorem refuses_of_finish {s t : State} {c : Instr} {op : Nat} {r : Req} {code detail : Nat} {P : State → Prop} (hop : op < 128)
    (hexec : exec c s = .next (State.finish op r (.abort t code detail))) (hcode : code ∉ [0x01030000, 0x01040000, 0x01050000]) (hP : P t) :
    Refuses c op r code detail s P := by
  obtain ⟨h1, h2, h3⟩ : code ≠ 0x01030000 ∧ code ≠ 0x01040000 ∧ code ≠ 0x01050000 := by simpa using hcode
  refine ⟨t, ?_, hP⟩
  rw [hexec]
  simp [State.finish, State.noteRetry, State.replyAbort, h1, h2, h3, Nat.mod_eq_of_lt (show op + 128 < 256 by omega)]

/-! ### Segments (R80, R81) -/

/-- A segment of an open transfer that is let through. -/
theorem request_segData {s u : State} {r : Req} (h : s.admits Op.segData r = some u) :
    s.intake Op.segData r = some u ∧ s.request Op.segData r = State.finish Op.segData r (u.doSegment r 0) := by
  obtain ⟨hin, hready, _⟩ := admits_eq_some h
  have hdo : u.perform Op.segData r 0 = u.doSegment r 0 := by
    rw [State.perform, hready]
    rfl
  exact ⟨hin, by rw [request_of_intake hin, hdo]⟩

theorem SvcOnly.winByte {s u : State} (h : SvcOnly s u) (a : Nat) : u.winByte a = s.winByte a := by rw [h]; rfl

/-- Taking a request in leaves a commit and the answers that stand out of it. -/
theorem intake_svc {s u : State} {op : Nat} {r : Req} (h : s.intake op r = some u) : u.svc.commit = s.svc.commit ∧ u.svc.answer = none := by
  obtain ⟨_, _, _, _, rfl⟩ := intake_eq_some h
  exact ⟨rfl, rfl⟩

/-- What a read of the window meets rests on the commit alone of the service's state (R405). -/
theorem winReadFault_of_svcOnly {s u : State} (h : SvcOnly s u) (hcommit : u.svc.commit = s.svc.commit) (a n : Nat) (bad : Bool) :
    u.winReadFault a n bad = s.winReadFault a n bad := by
  obtain ⟨svc, rfl⟩ : ∃ svc, u = { s with svc := svc } := ⟨_, h⟩
  have hbusy : ∀ b, ({ s with svc := svc } : State).dataBusy b = s.dataBusy b := fun b => by
    unfold State.dataBusy
    dsimp only at hcommit ⊢
    rw [hcommit]
    rfl
  simp only [State.winReadFault, State.busyIn, State.bankBusyNow, hbusy]
  rfl

/-- The next segment of an open transfer (R80, R81). -/
theorem doSegment_next {s : State} {r : Req} {x : Transfer} {l : List Nat} (hopen : (s.srcOf r.src.val).xfer = some x) (hfin : x.fin = false)
    (hnum : reqBytes r = x.count % 256 :: l) : s.doSegment r 0 =
      if x.write then s.takeSeg r.src.val r.tag.toNat (x.count % 256) x l (decide (128 ≤ r.flags.toNat))
      else if !l.isEmpty then .abort s 0x03010000 1
      else s.serveSeg r.src.val { x with tag := r.tag.toNat } x.count (x.count % 256) 0 := by
  unfold State.doSegment
  dsimp only
  rw [hopen, hnum]
  simp [hfin]

theorem State.iff_of_false (s : State) {c : Bool} (f : State → State) (h : c = false) : s.iff c f = s := if_neg (ne_true_of_eq_false h)

theorem Frame.served {K H s t} (j : Nat) (b) (h : Frame K H s t) (hk : Reg.evFlags ∈ K) : Frame K H s (t.served j b) := by
  unfold State.served
  split
  · exact (h.svc _).iff _ _ fun hu => hu.flag _ _ hk
  · exact h

/-- The state behind a segment that has been read (R80). -/
def State.segServed (s : State) (j : Nat) (t : Transfer) (i : Nat) : State :=
  let last := decide (t.total ≤ (i + 1) * (maxL j - 1))
  let s := s.setSrc j { s.srcOf j with xfer := some { t with count := max t.count (i + 1), fin := t.fin || last, at_ := s.clk.cyc } }
  if last && !t.fin then s.served j t.batch else s

theorem segServed_frame (s : State) (j : Nat) (t : Transfer) (i : Nat) : Frame [Reg.evFlags] [] s (s.segServed j t i) := by
  unfold State.segServed
  exact .ite (fun _ => ((Frame.refl ..).svc _).served _ _ (by simp)) fun _ => (Frame.refl ..).svc _

/-- A segment of a read of the window whose words are clean (R404, R428). -/
theorem serveSeg_window {s : State} {j : Nat} {t : Transfer} (i num : Nat) (hkey : t.key = Reg.winData)
    (hfault : s.winReadFault (t.addr + i * (maxL j - 1)) (min (maxL j - 1) (t.total - i * (maxL j - 1))) false = (0, 0)) :
    s.serveSeg j t i num 0 = .ok (s.segServed j t i)
      (num :: (List.range (min (maxL j - 1) (t.total - i * (maxL j - 1)))).map (fun b => s.winByte (t.addr + i * (maxL j - 1) + b)))
      (if t.total ≤ (i + 1) * (maxL j - 1) then 0x80 else 0) := by
  have hclean : decide ((0 : Nat) = 2) = false := rfl
  unfold State.serveSeg State.segBytes
  dsimp only
  rw [hclean, if_pos hkey, if_pos hkey, hfault, if_neg (by simp), State.iff_of_false _ _ (by simp)]
  simp [State.segServed]

/-- The last segment of a write closes it (R81). -/
theorem takeSeg_closes {s : State} {x : Transfer} {l : List Nat} (j tag num : Nat) (hkey : x.key = Reg.winData)
    (hlen : x.data.length + l.length = x.total) : s.takeSeg j tag num x l true =
      (s.dropXfer j).closeWindow j tag num { x with data := x.data ++ l, count := x.count + 1, at_ := s.clk.cyc, tag := tag } := by
  unfold State.takeSeg
  dsimp only
  rw [if_neg (by simp [hlen]), if_pos rfl]
  unfold State.closeWrite
  dsimp only
  rw [if_neg (by simp [hlen]), if_pos hkey]

/-- A window write begins. -/
def State.windowBegun (s : State) (w : WinWrite) : State := { (s.wr Reg.fwState 3) with fw := { (s.wr Reg.fwState 3).fw with write := some w } }

theorem windowBegun_spec (s : State) (w : WinWrite) : (s.windowBegun w).rd Reg.fwState = 3 ∧ (s.windowBegun w).fw.write = some w ∧
    (s.windowBegun w).svc = s.svc ∧ Frame [Reg.fwState] [] s (s.windowBegun w) :=
  ⟨rd_wr_of_lt (k := Reg.fwState) (v := 3) s (by decide), rfl, rfl,
    ((Frame.refl ..).wr _ _ (by simp)).of_eq rfl rfl ⟨fun _ => rfl, rfl, rfl, rfl, rfl, rfl, .of_eq rfl⟩⟩

theorem closeWindow_well {s : State} (j tag num : Nat) {x : Transfer} (h : s.winWriteFault j x.addr x.data.length = (0, 0)) :
    s.closeWindow j tag num x = .later (s.windowBegun { addr := x.addr, data := x.data, src := j, tag := tag, seg := num }) := by
  unfold State.closeWindow
  dsimp only
  rw [h, if_neg (by simp)]
  rfl

theorem closeWindow_beyond {s : State} (j tag num : Nat) {x : Transfer} (h : 0x280000 < x.addr + x.data.length) :
    s.closeWindow j tag num x = .abort (s.winAbort 0x06020000 0) 0x06020000 0 := by
  have hfault : s.winWriteFault j x.addr x.data.length = (0x06020000, 0) := if_pos h
  unfold State.closeWindow
  dsimp only
  rw [hfault, if_pos (by decide)]

/-- An abort of the window that counts nothing. -/
theorem winAbort_of_uncounted (s : State) {code : Nat} (detail : Nat) (hbusy : code ≠ 0x06010000) (hxo : code ≠ 0x06050000)
    (hecc : code ≠ 0x06040000) : s.winAbort code detail = s.wr Reg.winLastAbort (code + detail) := by
  unfold State.winAbort
  dsimp only
  rw [State.iff_of_false _ _ (decide_eq_false hecc), State.iff_of_false _ _ (decide_eq_false hxo), State.iff_of_false _ _ (decide_eq_false hbusy)]

theorem winWriteFault_dropXfer (s : State) (j a n : Nat) : (s.dropXfer j).winWriteFault j a n = s.winWriteFault j a n := by
  have hunlocked : (s.dropXfer j).unlocked j = s.unlocked j := by
    unfold State.unlocked
    rw [State.dropXfer, srcOf_setSrc, if_pos rfl]
    rfl
  have hprotected : ∀ slot c, (s.dropXfer j).sectorProtected j slot c = s.sectorProtected j slot c := fun slot c => by
    unfold State.sectorProtected
    rw [hunlocked]
    rfl
  simp only [State.winWriteFault, hprotected]
  rfl

/-! ### The end of a window write (R423) -/

/-- The words of a window write stand. -/
def State.windowWritten (s : State) (w : WinWrite) : State :=
  ({ s with fw := { s.fw with write := none, code := progWords s.fw.code (w.addr / 8) (w.data.length / 8) w.data } }.bumpBy
    Reg.wordsProgrammed (w.data.length / 8)).bumpBy Reg.fwProgress (8 * (w.data.length / 8))

/-- A window write has failed. -/
def State.windowFailed (s : State) : State := (s.cutWrite.fwFail 3 0).winAbort 0x06090000 0

theorem exec_windowWriteDone_well {s : State} {w : WinWrite} (h : s.fw.write = some w) : exec (.windowWriteDone true) s =
    .next (((s.unanswered.windowWritten w).replyOk w.src w.tag Op.segData Reg.winData [w.seg]).released w.src) := by
  have hexec : exec (.windowWriteDone true) s = execWindowWriteDone true s := rfl
  rw [hexec, execWindowWriteDone, h]
  exact if_pos rfl

theorem exec_windowWriteDone_failed {s : State} {w : WinWrite} (h : s.fw.write = some w) : exec (.windowWriteDone false) s =
    .next ((s.unanswered.windowFailed.replyAbort w.src w.tag Op.segData Reg.winData 0x06090000 0).released w.src) := by
  have hexec : exec (.windowWriteDone false) s = execWindowWriteDone false s := rfl
  rw [hexec, execWindowWriteDone, h]
  exact if_neg (by decide)

theorem released_of_none {s : State} {j : Nat} (h : (s.srcOf j).held = []) : s.released j = s := by
  rw [State.released, h]
  rfl

/-- An answer that is given stands; the sources and the firmware's state are as before. -/
theorem reply_spec (s : State) (a : Answer) : (s.reply a).svc.answer = some a ∧ (s.reply a).svc.srcs = s.svc.srcs ∧ (s.reply a).fw = s.fw := by
  unfold State.reply
  extract_lets _ u
  have hu : u.svc.answer = some a ∧ u.svc.srcs = s.svc.srcs ∧ u.fw = s.fw := ⟨rfl, rfl, rfl⟩
  clear_value u
  have hfate : (u.noteFate a).svc = u.svc ∧ (u.noteFate a).fw = u.fw := by
    unfold State.noteFate
    dsimp only
    split
    · exact ⟨State.wr_svc .., State.wr_fw ..⟩
    · exact ⟨rfl, rfl⟩
  obtain ⟨hfateSvc, hfateFw⟩ := hfate
  split
  · obtain ⟨_, _, hsend, _⟩ := sendOnly_send (u.noteFate a) { ty := 0x21, payload := a.bytes 0 }
    rw [hsend]
    rw [← hfateSvc, ← hfateFw] at hu
    exact hu
  · exact hu

theorem windowWritten_spec (s : State) (w : WinWrite) : (s.windowWritten w).fw.write = none ∧ (s.windowWritten w).svc = s.svc ∧
    (s.windowWritten w).fw.record = s.fw.record ∧
    (s.windowWritten w).fw.code = progWords s.fw.code (w.addr / 8) (w.data.length / 8) w.data ∧
    (s.windowWritten w).rd Reg.wordsProgrammed = fit Reg.wordsProgrammed (s.rd Reg.wordsProgrammed + w.data.length / 8) ∧
    (s.windowWritten w).rd Reg.fwProgress = fit Reg.fwProgress (s.rd Reg.fwProgress + 8 * (w.data.length / 8)) ∧
    Quiet [Reg.wordsProgrammed, Reg.fwProgress] [] s (s.windowWritten w) ∧ RingKept s (s.windowWritten w) ∧
    (s.windowWritten w).sto.nand = s.sto.nand ∧ (s.windowWritten w).fla = s.fla := by
  unfold State.windowWritten
  refine ⟨rfl, rfl, rfl, rfl, ?_, ?_, ?_, .of_eq rfl, rfl, rfl⟩
  · rw [State.bumpBy, State.rd_wr_ne _ _ (by decide), State.bumpBy, State.rd_wr_same]
    rfl
  · rw [State.bumpBy, State.rd_wr_same, State.bumpBy, State.rd_wr_ne _ _ (by decide)]
    rfl
  · have hcode : Quiet [Reg.wordsProgrammed, Reg.fwProgress] [] s
        { s with fw := { s.fw with write := none, code := progWords s.fw.code (w.addr / 8) (w.data.length / 8) w.data } } :=
      (Quiet.refl ..).of_eq rfl rfl
    exact (hcode.wr _ _ (by simp)).wr _ _ (by simp)

theorem windowFailed_spec (s : State) : s.windowFailed.fw.write = none ∧ s.windowFailed.svc = s.svc ∧
    s.windowFailed.rd Reg.fwState = 7 ∧ s.windowFailed.rd Reg.fwCmd = 3 ∧ s.windowFailed.bitOf Reg.fwFlags 3 = true ∧
    s.windowFailed.rd Reg.winLastAbort = 0x06090000 ∧
    Quiet (eventKeys ++ [Reg.fwState, Reg.fwCmd, Reg.fwFlags, Reg.winLastAbort, Reg.fwProgress]) [] s s.windowFailed ∧
    StoresKept s s.windowFailed := by
  obtain ⟨_, _, _, hcut, hcutRd, _⟩ := cutWrite_eq s
  obtain ⟨hstate, hcmd, hflag, hfw, _, hframe⟩ := fwFail_spec s.cutWrite (flag := 3) 0 (by decide)
  have hlast : Frame (Reg.winLastAbort :: (eventKeys ++ [Reg.fwState, Reg.fwCmd, Reg.fwFlags])) [] s.cutWrite
      ((s.cutWrite.fwFail 3 0).wr Reg.winLastAbort 0x06090000) :=
    (hframe.mono (List.subset_cons_self ..) fun _ h => h).wr _ _ (by simp)
  have hsvc : (s.cutWrite.fwFail 3 0).svc = s.svc := by
    rw [State.fwFail, State.event_svc, State.flag_svc, State.wr_svc, State.wr_svc, hcut]
  obtain ⟨hquiet, hcode, hrecord, hnand, hcope, hdrag, hsums, hring⟩ := hlast
  rw [State.windowFailed, winAbort_of_uncounted _ _ (by decide) (by decide) (by decide)]
  refine ⟨?_, hsvc, ?_, ?_, ?_, rd_wr_of_lt _ (by decide), ?_, ?_, ?_⟩
  · rw [State.wr_fw, hfw, hcut]
  · rw [State.rd_wr_ne _ _ (by decide), hstate]
  · rw [State.rd_wr_ne _ _ (by decide), hcmd]
  · rw [bitOf_of_rd 3 (State.rd_wr_ne _ _ (by decide)), hflag]
  · have hcutQuiet : Quiet [Reg.wordsProgrammed, Reg.fwProgress] [] s s.cutWrite := ⟨hcutRd, fun k _ => by rw [hcut]; rfl⟩
    exact (hcutQuiet.mono (by decide) fun _ h => h).trans (hquiet.mono (by decide) fun _ h => h)
  · exact fun a ha => (hcode a).trans (codeKept_cutWrite s a ha)
  · have hkept : s.cutWrite.fw.record = s.fw.record ∧ s.cutWrite.sto = s.sto ∧ s.cutWrite.fla = s.fla ∧ RingKept s s.cutWrite := by
      rw [hcut]
      exact ⟨rfl, rfl, rfl, .of_eq rfl⟩
    obtain ⟨hrecord', hsto', hfla', hring'⟩ := hkept
    exact ⟨hrecord.trans hrecord', hnand.trans (by rw [hsto']), hcope.trans (by rw [hfla']), hdrag.trans (by rw [hfla']),
      hsums.trans (by rw [hfla']), hring'.trans hring⟩

/-! ### Log batches (R475) -/

/-- A READ of LOG_BATCH. -/
def batchReq (src : Src) (tag : Byte) : Req := { src := src, tag := tag, index := 0x6100, sub := 0x03 }

/-- LOG_BATCH's row. -/
def logBatchRow : Row := ⟨0x03, .blob 1024, .ro, .volatile, 0, 0, .any, false⟩

theorem hidden_logBatch (s : State) : s.hidden Reg.logBatch = false := rfl

/-- A READ of LOG_BATCH that is let through. -/
theorem request_logBatch {s u : State} {src : Src} {tag : Byte} (h : s.admits Op.read (batchReq src tag) = some u) :
    SvcOnly s u ∧ s.request Op.read (batchReq src tag) = State.finish Op.read (batchReq src tag) (u.doRead src.val Reg.logBatch logBatchRow) := by
  obtain ⟨hin, hready, hthere⟩ := admits_eq_some h
  have hkey : reqKey (batchReq src tag) = Reg.logBatch := rfl
  have habs : u.absent Op.read Reg.logBatch = none := by
    rw [hkey] at hthere
    simpa [Op.read, Op.segData, Op.segAbort] using hthere
  have hrow : rowIn Reg.logBatch = some logBatchRow := rfl
  have hbar : u.readBar (batchReq src tag).src.val Reg.logBatch logBatchRow = none := by
    unfold State.readBar
    rw [hidden_logBatch]
    rfl
  have hdo : u.perform Op.read (batchReq src tag) 0 = u.doRead src.val Reg.logBatch logBatchRow := by
    simp only [State.perform, hready, hkey, habs, hrow, hbar]
    rfl
  exact ⟨svcOnly_intake hin, by rw [request_of_intake hin, hdo]⟩

/-- A batch is served over a carrier that takes it whole (R77). -/
theorem doRead_batch {s : State} {j : Nat} {b : List Nat × (Nat × Nat × Bool)} (hlen : 1024 ≤ maxL j) (hbatch : s.batch j = .ok b) :
    s.doRead j Reg.logBatch logBatchRow = .ok (s.batchServed j b.2) b.1 := by
  have hsize : tySize logBatchRow.ty = 1024 := rfl
  have hbytes : s.readBytes j Reg.logBatch = .ok (b.1, some b.2) := by
    unfold State.readBytes
    rw [if_pos rfl, hbatch]
  unfold State.doRead
  dsimp only
  rw [hsize, if_neg (by simp [hlen]; decide), hbytes]
  rfl

theorem doRead_batch_short {s : State} {j : Nat} (hlen : maxL j < 1024) :
    s.doRead j Reg.logBatch logBatchRow = .abort s 0x03010000 1024 := by
  have hsize : tySize logBatchRow.ty = 1024 := rfl
  unfold State.doRead
  dsimp only
  rw [hsize, if_pos (by simp [hlen])]

theorem srcOf_iff_flag (s : State) (c : Bool) (k i j : Nat) : (s.iff c (·.flag k i)).srcOf j = s.srcOf j := by
  unfold State.iff State.srcOf
  split
  · rw [State.flag_svc]
  · rfl

theorem batchServed_spec (s : State) (j : Nat) (b : Nat × Nat × Bool) : ((s.batchServed j b).srcOf j).cursor = some b.1 ∧
    ((s.batchServed j b).srcOf j).readTorn = ((s.srcOf j).readTorn + b.2.1) % 2 ^ 32 ∧ Frame [Reg.evFlags] [] s (s.batchServed j b) := by
  unfold State.batchServed
  dsimp only
  rw [srcOf_iff_flag, srcOf_setSrc, if_pos rfl]
  exact ⟨rfl, rfl, ((Frame.refl ..).svc _).iff _ _ fun hw => hw.flag _ _ (by simp)⟩

/-- Settles O40: a segment goes through `doSegment_next`, the end of a window write through `windowWritten_spec` or `windowFailed_spec`, a
batch through `batchServed_spec`. -/
theorem windowsAndBatches : Obligations.WindowsAndBatches := by
  refine ⟨fun s u r x hadm hopen hread hkey hfin hnum hfault => ?read, fun s u r x l hadm hopen hwrite hkey hfin hnum hclose hlen hfault => ?write,
    fun s u r x l hadm hopen hwrite hkey hfin hnum hclose hlen hbeyond => ?beyond, fun s w hw hheld => ?well, fun s w hw hheld => ?failed,
    fun s u src tag b hadm hsrc hbatch => ?batch, fun s u src tag hadm hsrc => ?carrier⟩
  case read =>
    obtain ⟨hin, hreq⟩ := request_segData hadm
    have hsvc := svcOnly_intake hin
    obtain ⟨hcommit, _⟩ := intake_svc hin
    have hfault' := (winReadFault_of_svcOnly hsvc hcommit _ _ _).trans hfault
    refine serves_of_ok (t := u.segServed r.src.val { x with tag := r.tag.toNat } x.count) ?_ ((hsvc.frame ..).trans (segServed_frame ..))
    have hexec : exec (.windowRead r 0) s = .next (s.request Op.segData r) := rfl
    rw [hexec, hreq, doSegment_next hopen hfin hnum, if_neg (by simp [hread]), if_neg (by simp), serveSeg_window (t := { x with tag := r.tag.toNat }) _ _ hkey hfault']
    simp only [hsvc.winByte]
  case write =>
    obtain ⟨hin, hreq⟩ := request_segData hadm
    obtain ⟨_, hanswer⟩ := intake_svc hin
    have hexec : exec (.windowWrite r) s = .next (s.request Op.segData r) := rfl
    have hfault' : (u.dropXfer r.src.val).winWriteFault r.src.val x.addr (x.data ++ l).length = (0, 0) := by
      rw [winWriteFault_dropXfer, List.length_append, hlen]
      exact hfault
    rw [doSegment_next hopen hfin hnum, if_pos hwrite, decide_eq_true hclose, takeSeg_closes _ _ _ hkey hlen, closeWindow_well _ _ _ hfault'] at hreq
    obtain ⟨hstate, hbegun, hkept, hframe⟩ := windowBegun_spec (u.dropXfer r.src.val)
      { addr := x.addr, data := x.data ++ l, src := r.src.val, tag := r.tag.toNat, seg := x.count % 256 }
    refine ⟨_, hexec.trans (congrArg _ hreq), hstate, ?_, ?_, ?_, (((svcOnly_intake hin).frame ..).svc _).trans hframe⟩
    · exact (congrArg Service.answer hkept).trans hanswer
    · have hsrc : ((u.dropXfer r.src.val).srcOf r.src.val).xfer = none := by
        rw [State.dropXfer, srcOf_setSrc, if_pos rfl]
      exact (congrArg (fun v : Service => (tget ({} : SrcState) v.srcs r.src.val).xfer) hkept).trans hsrc
    · exact congrArg (Option.map fun y : WinWrite => (y.addr, y.data, y.src, y.tag, y.seg)) hbegun
  case beyond =>
    obtain ⟨hin, hreq⟩ := request_segData hadm
    have hexec : exec (.windowWrite r) s = .next (s.request Op.segData r) := rfl
    have hbeyond' : 0x280000 < x.addr + (x.data ++ l).length := by
      rw [List.length_append, hlen]
      exact hbeyond
    rw [doSegment_next hopen hfin hnum, if_pos hwrite, decide_eq_true hclose, takeSeg_closes _ _ _ hkey hlen, closeWindow_beyond _ _ _ hbeyond',
      winAbort_of_uncounted _ _ (by decide) (by decide) (by decide)] at hreq
    refine refuses_of_finish (by decide) (hexec.trans (congrArg _ hreq)) (by decide) ⟨rd_wr_of_lt _ (by decide), ?_, ?_⟩
    · rw [State.wr_fw, svcOnly_intake hin]
      rfl
    · exact (((svcOnly_intake hin).frame ..).svc _).wr _ _ (by simp)
  case well =>
    obtain ⟨hnone, hsvc, hrecord, hcode, hwords, hprogress, hquiet, hring, hnand, hfla⟩ := windowWritten_spec s.unanswered w
    have hanswered := reply_spec (s.unanswered.windowWritten w)
      { src := w.src, tag := w.tag, opcode := Op.segData + 0x80, status := 0, index := Reg.winData / 256, sub := Reg.winData % 256, data := [w.seg] }
    obtain ⟨hanswer, hsrcs, hfw⟩ := hanswered
    obtain ⟨hquiet', _, _, hnand', hcope', hdrag', hsums', hring'⟩ :=
      replyOk_frame (K := sendKeys ++ [Reg.wordsProgrammed, Reg.fwProgress]) (H := []) w.src w.tag Op.segData Reg.winData [w.seg]
        (Frame.refl _ _ (s.unanswered.windowWritten w)) (List.subset_append_left ..)
    have hstay : ∀ k, k ∉ sendKeys → ((s.unanswered.windowWritten w).replyOk w.src w.tag Op.segData Reg.winData [w.seg]).rd k =
        (s.unanswered.windowWritten w).rd k := fun k hk =>
      (replyOk_frame (K := sendKeys) (H := []) w.src w.tag Op.segData Reg.winData [w.seg] (Frame.refl ..) fun _ h => h).rd hk
    have hreleased := released_of_none (s := (s.unanswered.windowWritten w).replyOk w.src w.tag Op.segData Reg.winData [w.seg]) (j := w.src)
      (by rw [State.srcOf, State.replyOk, hsrcs, hsvc]; exact hheld)
    refine ⟨_, (exec_windowWriteDone_well hw).trans (congrArg _ hreleased), ?_⟩
    refine ⟨(congrArg Firm.write hfw).trans hnone, (congrArg Firm.code hfw).trans hcode, (hstay _ (by decide)).trans hwords,
      (hstay _ (by decide)).trans hprogress, congrArg (Option.map fun a : Answer => (a.src, a.tag, a.status, a.data)) hanswer,
      ?_, (congrArg Firm.record hfw).trans hrecord, hnand'.trans hnand, hcope'.trans (by rw [hfla]; rfl), hdrag'.trans (by rw [hfla]; rfl),
      hsums'.trans (by rw [hfla]; rfl), RingKept.trans (t := s.unanswered.windowWritten w) hring hring'⟩
    have hquiet0 : Quiet (sendKeys ++ [Reg.wordsProgrammed, Reg.fwProgress]) [] s (s.unanswered.windowWritten w) :=
      hquiet.mono (List.subset_append_right ..) fun _ h => h
    exact hquiet0.trans hquiet'
  case failed =>
    obtain ⟨hnone, hsvc, hstate, hcmd, hflag, hlast, hquiet, hcode, hrecord, hnand, hcope, hdrag, hsums, hring⟩ := windowFailed_spec s.unanswered
    obtain ⟨hanswer, hsrcs, hfw⟩ := reply_spec s.unanswered.windowFailed
      { src := w.src, tag := w.tag, opcode := Op.segData + 0x80, status := 1, index := Reg.winData / 256, sub := Reg.winData % 256,
        data := leBytes 4 (0x06090000 + 0 % 65536) }
    have hframe : Frame answerKeys [] s.unanswered.windowFailed
        (s.unanswered.windowFailed.replyAbort w.src w.tag Op.segData Reg.winData 0x06090000 0) :=
      (Frame.refl ..).reply _ fun _ h => h
    have hreleased := released_of_none (s := s.unanswered.windowFailed.replyAbort w.src w.tag Op.segData Reg.winData 0x06090000 0) (j := w.src)
      (by rw [State.srcOf, State.replyAbort, hsrcs, hsvc]; exact hheld)
    obtain ⟨hquiet', hcode', hrecord', hnand', hcope', hdrag', hsums', hring'⟩ := hframe
    refine ⟨_, (exec_windowWriteDone_failed hw).trans (congrArg _ hreleased), ?_⟩
    refine ⟨(congrArg Firm.write hfw).trans hnone, (hquiet'.1 _ (by decide)).trans hstate, (hquiet'.1 _ (by decide)).trans hcmd,
      (bitOf_of_rd 3 (hquiet'.1 _ (by decide))).trans hflag, (hquiet'.1 _ (by decide)).trans hlast,
      congrArg (Option.map fun a : Answer => (a.src, a.tag, a.status, a.data)) hanswer, ?_, fun a ha => (hcode' a).trans (hcode a ha),
      hrecord'.trans hrecord, hnand'.trans hnand, hcope'.trans hcope, hdrag'.trans hdrag, hsums'.trans hsums,
      RingKept.trans (t := s.unanswered.windowFailed) hring hring'⟩
    have hquiet0 : Quiet (eventKeys ++ answerKeys ++ [Reg.fwState, Reg.fwCmd, Reg.fwFlags, Reg.winLastAbort, Reg.fwProgress]) [] s
        s.unanswered.windowFailed := hquiet.mono (by decide) fun _ h => h
    exact hquiet0.trans (hquiet'.mono (by decide) fun _ h => h)
  case batch =>
    obtain ⟨hsvc, hreq⟩ := request_logBatch hadm
    obtain ⟨hcursor, htorn, hframe⟩ := batchServed_spec u src.val b.2
    have hexec : exec (.logBatch src tag) s = .next (s.request Op.read (batchReq src tag)) := rfl
    rw [doRead_batch (by simp [hsrc, maxL]) hbatch] at hreq
    exact serves_of_ok (hexec.trans (congrArg _ hreq)) ⟨hcursor, htorn, (hsvc.frame ..).trans hframe⟩
  case carrier =>
    obtain ⟨_, hreq⟩ := request_logBatch hadm
    have hexec : exec (.logBatch src tag) s = .next (s.request Op.read (batchReq src tag)) := rfl
    have hshort : maxL src.val < 1024 := by
      unfold maxL
      rw [if_neg hsrc]
      split <;> decide
    rw [doRead_batch_short hshort] at hreq
    exact refuses_of_finish (by decide) (hexec.trans (congrArg _ hreq)) (by decide) rfl

end Sys2Proof.Machine
end

section
/-! PROOF. Shakeout abandoned, distribution, log cursors and reports by command (spec/14_pour_and_shakeout.md R371;
spec/17_cascade.md R460, R462; spec/18_events_and_faults.md R474; spec/19_service.md R490). -/
namespace Sys2Proof.Machine

/-! ### The end of a shakeout (R371) -/

/-- A state that differs from another in the logic die's registers alone. -/
def RegOnly (s t : State) : Prop := ∃ reg, t = { s with reg := reg }

theorem RegOnly.refl (s) : RegOnly s s := ⟨s.reg, rfl⟩

theorem RegOnly.wr {s t : State} (k v : Nat) (h : RegOnly s t) : RegOnly s (t.wr k v) := by
  obtain ⟨_, rfl⟩ := h
  exact ⟨_, rfl⟩

theorem RegOnly.each {α : Type} {s t : State} (l : List α) (f : α → State → State) (hf : ∀ a u, RegOnly s u → RegOnly s (f a u))
    (h : RegOnly s t) : RegOnly s (t.each l f) :=
  each_keeps (P := RegOnly s) l f (fun a _ u hu => hf a u hu) h

theorem sendCredit_only (s : State) : ∃ reg ll, s.sendCredit = { s with reg := reg, ll := ll } := by
  unfold State.sendCredit
  extract_lets m
  obtain ⟨reg, ll, hsend, _⟩ := sendOnly_send { s with ll := { s.ll with maskSent := m } }
    { ty := 0x31, payload := perStream (fun st => s.rd (Reg.limit st)) ++ [m, 0, 0, 0] }
  exact ⟨reg, ll, hsend⟩

/-- Showing the open streams touches registers and the link layer alone. -/
theorem refreshOpen_only (s : State) : ∃ reg ll, s.refreshOpen = { s with reg := reg, ll := ll } := by
  obtain ⟨reg, hopens⟩ : RegOnly s s.opensShown := RegOnly.each allStreams _ (fun _ _ hu => hu.wr _ _) (.refl s)
  rw [refreshOpen_eq, hopens]
  split
  · obtain ⟨reg', ll, hsend⟩ := sendCredit_only { s with reg := reg }
    exact ⟨reg', ll, hsend⟩
  · exact ⟨reg, s.ll, rfl⟩

theorem refreshOpen_keeps (s : State) : s.refreshOpen.shake = s.shake ∧ s.refreshOpen.shk = s.shk ∧ s.refreshOpen.sto = s.sto := by
  obtain ⟨_, _, h⟩ := refreshOpen_only s
  rw [h]
  exact ⟨rfl, rfl, rfl⟩

/-- The record that confirms the end of a shakeout (R371). -/
def State.endRec (s : State) (abandoned : Bool) : SumRec :=
  { kind := 2, flags := bitIf ((s.sto.cast.map (·.localHeat)).getD false) 0 + bitIf abandoned 2, heat := s.rd Reg.shakeHeat }

/-- The shakeout is over and its confirmation is to be written. -/
def State.shakeEnded (s : State) (r : SumRec) : State := { s.endShake with shk := { confirm := some r } }

theorem confirmShake_eq (s : State) (abandoned : Bool) : s.confirmShake abandoned =
    ((s.shakeEnded (s.endRec abandoned)).event 0x400A 0xFF (if abandoned then 2 else 1) (s.rd Reg.shakeHeat)).refreshOpen := rfl

theorem shakeEnded_spec (s : State) (r : SumRec) : (s.shakeEnded r).rd Reg.shakeState = 0 ∧ (s.shakeEnded r).rd Reg.shakeReleased = 0xFF ∧
    Frame [Reg.shakeState, Reg.shakeReleased] [] s (s.shakeEnded r) := by
  have hrd : ∀ k, (s.shakeEnded r).rd k = ((s.wr Reg.shakeState 0).wr Reg.shakeReleased 0xFF).rd k := fun _ => rfl
  refine ⟨?_, ?_, ?_⟩
  · rw [hrd, State.rd_wr_ne _ _ (by decide), rd_wr_of_lt _ (by decide)]
  · rw [hrd, rd_wr_of_lt _ (by decide)]
  · have hframe : Frame [Reg.shakeState, Reg.shakeReleased] [] s ((s.wr Reg.shakeState 0).wr Reg.shakeReleased 0xFF) :=
      ((Frame.refl ..).wr _ _ (by simp)).wr _ _ (by simp)
    exact hframe.of_eq rfl rfl ⟨fun _ => rfl, rfl, rfl, rfl, rfl, rfl, .of_eq rfl⟩

/-- The registers that the end of a shakeout may change. -/
def shakeEndKeys : List Nat := eventKeys ++ sendKeys ++ [Reg.shakeState, Reg.shakeReleased] ++ allStreams.map Reg.streamOpen

/-- The end of a shakeout: its confirmation waits, no stream is held, and what is open is shown. -/
theorem confirmShake_spec (s : State) (abandoned : Bool) : (s.confirmShake abandoned).rd Reg.shakeState = 0 ∧
    (s.confirmShake abandoned).rd Reg.shakeReleased = 0xFF ∧ (s.confirmShake abandoned).shake = false ∧
    (s.confirmShake abandoned).shk.confirm = some (s.endRec abandoned) ∧
    (s.confirmShake abandoned).sto.unconfirmed = s.sto.unconfirmed ∧ Frame shakeEndKeys [] s (s.confirmShake abandoned) := by
  obtain ⟨hstate, hreleased, hended⟩ := shakeEnded_spec s (s.endRec abandoned)
  have hevent : Frame eventKeys [] (s.shakeEnded (s.endRec abandoned)) _ :=
    (Frame.refl ..).event 0x400A 0xFF (if abandoned then 2 else 1) (s.rd Reg.shakeHeat) 0 fun _ h => h
  have hopen := refreshOpen_frame (Frame.refl openKeys []
    ((s.shakeEnded (s.endRec abandoned)).event 0x400A 0xFF (if abandoned then 2 else 1) (s.rd Reg.shakeHeat))) fun _ h => h
  obtain ⟨hshake, hshk, hsto⟩ := refreshOpen_keeps
    ((s.shakeEnded (s.endRec abandoned)).event 0x400A 0xFF (if abandoned then 2 else 1) (s.rd Reg.shakeHeat))
  rw [confirmShake_eq]
  refine ⟨?_, ?_, ?_, ?_, ?_, ?_⟩
  · rw [hopen.rd (by decide), hevent.rd (by decide), hstate]
  · rw [hopen.rd (by decide), hevent.rd (by decide), hreleased]
  · rw [hshake, State.event_shake]
    rfl
  · rw [hshk, State.event_shk]
    rfl
  · rw [hsto, State.event_sto]
    rfl
  · exact ((hended.mono (by decide) fun _ h => h).trans (hevent.mono (by decide) fun _ h => h)).trans (hopen.mono (by decide) fun _ h => h)

/-! ### Distribution (R460, R462) -/

/-- The results of all members are cleared. -/
def State.resultsCleared (s : State) : State := s.each (List.range 64) (fun k s => s.wr (Reg.fwDistResult k) 0)

/-- A distribution has begun. -/
def State.distBegun (s : State) (todo : List Nat) : State :=
  { (s.resultsCleared.wr Reg.fwDist 1) with cas := { s.resultsCleared.cas with dist := some { todo := todo } } }

/-- The members that the mask names, by their node. -/
def State.addressed (s : State) : List Nat := ((List.range 64).filter (fun k => k ≠ 0 && (s.rd Reg.fwDistMask).testBit k)).map (· + 1)

theorem fwDist_cmdReg : CmdReg Reg.fwDist ⟨0x11, .u8, .cmd, .volatile, 0, 0, .any, false⟩ := ⟨rfl, by decide, rfl, rfl⟩

theorem doCmd_fwDist (s : State) (j tag v : Nat) : s.doCmd j tag Reg.fwDist v = s.doDist j v := rfl

theorem doDist_start {s : State} {j : Nat} (hunlocked : s.unlocked j = true) (hnone : s.cas.dist = none) (hphase : s.phase = .guard)
    (hstate : s.rd Reg.fwState = 3) (hvalid : s.slotValid s.inactiveSlot = true) :
    s.doDist j 1 = .ok (State.distNext 65 (s.distBegun s.addressed)) := by
  unfold State.doDist
  simp only [hunlocked, hnone, hphase, hstate, hvalid]
  rfl

theorem doDist_stop {s : State} {j : Nat} (hunlocked : s.unlocked j = true) : s.doDist j 2 = .ok (s.stopDist 8 4) := by
  unfold State.doDist
  simp only [hunlocked]
  rfl

theorem regOnly_resultsCleared (s : State) : RegOnly s s.resultsCleared := .each _ _ (fun _ _ hu => hu.wr _ _) (.refl s)

theorem fwDistResult_ne_of_ne {i k : Nat} (h : i ≠ k) : Reg.fwDistResult i ≠ Reg.fwDistResult k := by
  simp only [Reg.fwDistResult, rkey]
  omega

theorem resultsCleared_rd (s : State) : ∀ i ∈ List.range 64, s.resultsCleared.rd (Reg.fwDistResult i) = 0 :=
  each_stands (P := fun _ => True) (fun i u => u.rd (Reg.fwDistResult i) = 0) (List.range 64) _ (fun _ _ _ _ => trivial)
    (fun k hk u _ => rd_wr_of_lt _ (Nat.pow_pos (by decide)))
    (fun k hk i u _ hu => by
      by_cases h : i = k
      · rw [h]
        exact rd_wr_of_lt _ (Nat.pow_pos (by decide))
      · exact (State.rd_wr_ne _ _ (fwDistResult_ne_of_ne h)).trans hu)
    trivial

/-- The registers that a distribution's start may change. -/
def distKeys : List Nat := [Reg.fwDist, Reg.fwDistNode] ++ (List.range 64).map Reg.fwDistResult

theorem distBegun_spec (s : State) (todo : List Nat) : (s.distBegun todo).rd Reg.fwDist = 1 ∧
    (∀ i ∈ List.range 64, (s.distBegun todo).rd (Reg.fwDistResult i) = 0) ∧ (s.distBegun todo).cas.dist = some { todo := todo } ∧
    (∀ k, (s.distBegun todo).memberHere k = s.memberHere k) ∧ Frame distKeys [] s (s.distBegun todo) := by
  have hrd : ∀ k, (s.distBegun todo).rd k = (s.resultsCleared.wr Reg.fwDist 1).rd k := State.rd_congr (by dsimp only [State.distBegun])
  refine ⟨?_, fun i hi => ?_, rfl, fun k => ?_, ?_⟩
  · rw [hrd, rd_wr_of_lt _ (by decide)]
  · obtain ⟨hdist, _⟩ := fwDistResult_ne i
    rw [hrd, State.rd_wr_ne _ _ hdist, resultsCleared_rd s i hi]
  · obtain ⟨reg, h⟩ := regOnly_resultsCleared s
    rw [State.distBegun, h]
    rfl
  · have hclear : Frame distKeys [] s s.resultsCleared :=
      (Frame.refl ..).each_mem _ _ fun k hk u hu => hu.wr _ _ (List.mem_append_right _ (List.mem_map_of_mem hk))
    exact (hclear.wr _ 1 (List.mem_append_left _ (.head _))).cas _

/-- Whether a slot is valid rests on the code flash and the protection record alone (R420). -/
theorem slotValid_of_fw {s t : State} (h : t.fw = s.fw) (slot : Nat) : t.slotValid slot = s.slotValid slot := by
  have hbytes : ∀ a n, t.codeBytes a n = s.codeBytes a n := fun a n => by simp only [State.codeBytes, State.codeByte, h]
  have hhdr : ∀ off n, t.hdr slot off n = s.hdr slot off n := fun off n => by rw [State.hdr, hbytes, State.hdr]
  have hlen : t.imageLen slot = s.imageLen slot := hhdr 12 4
  have hindex : t.rollbackOf slot = s.rollbackOf slot := hhdr 16 4
  have hprot : t.prot = s.prot := by rw [State.prot, h, State.prot]
  unfold State.slotValid State.slotFault
  rw [hlen, hindex, hprot, h]
  simp only [hhdr, hbytes]

theorem SvcOnly.distStart {s u : State} (h : SvcOnly s u) (hnone : s.cas.dist = none) (hphase : s.phase = .guard)
    (hstate : s.rd Reg.fwState = 3) (hvalid : s.slotValid s.inactiveSlot = true) :
    u.cas.dist = none ∧ u.phase = .guard ∧ u.rd Reg.fwState = 3 ∧ u.slotValid u.inactiveSlot = true := by
  have hfw : u.fw = s.fw := by rw [h]
  have hslot : u.inactiveSlot = s.inactiveSlot := by
    unfold State.inactiveSlot State.runningSlot
    rw [h.rd, h]
  refine ⟨?_, ?_, by rw [h.rd, hstate], by rw [hslot, slotValid_of_fw hfw, hvalid]⟩
  · rw [h]
    exact hnone
  · rw [h]
    exact hphase

/-- Serving the next member, where it is here. -/
def State.distServes (s : State) (k : Nat) (rest : List Nat) : State :=
  { (s.wr Reg.fwDistNode k) with cas := { s.cas with dist := some { todo := rest, node := k, step := 0, addr := 0 } } }

theorem distServes_spec (s : State) (k : Nat) (rest : List Nat) (hk : k < 256) : (s.distServes k rest).rd Reg.fwDistNode = k ∧
    (∀ q, q ≠ Reg.fwDistNode → (s.distServes k rest).rd q = s.rd q) ∧
    (s.distServes k rest).cas.dist = some { todo := rest, node := k, step := 0, addr := 0 } ∧
    Frame [Reg.fwDistNode] [] s (s.distServes k rest) := by
  have hrd : ∀ q, (s.distServes k rest).rd q = (s.wr Reg.fwDistNode k).rd q := State.rd_congr (by dsimp only [State.distServes])
  refine ⟨?_, fun q hq => ?_, rfl, ((Frame.refl ..).wr _ k (by simp)).cas _⟩
  · rw [hrd, rd_wr_of_lt _ (hk.trans_eq (by decide))]
  · rw [hrd, State.rd_wr_ne _ _ hq]

theorem distNext_here {s : State} {d : Dist} {k : Nat} {rest : List Nat} (n : Nat) (hdist : s.cas.dist = some d) (htodo : d.todo = k :: rest)
    (hhere : s.memberHere (k - 1) = true) : State.distNext (n + 1) s = s.distServes k rest := by
  unfold State.distNext
  rw [hdist]
  dsimp only
  rw [htodo]
  exact if_pos hhere

/-- No member is left to serve. -/
def State.distDone (s : State) : State := { ((s.wr Reg.fwDist 2).wr Reg.fwDistNode 0) with cas := { s.cas with dist := none } }

theorem distDone_spec (s : State) : s.distDone.rd Reg.fwDist = 2 ∧ s.distDone.rd Reg.fwDistNode = 0 ∧ s.distDone.cas.dist = none ∧
    Frame [Reg.fwDist, Reg.fwDistNode] [] s s.distDone := by
  have hrd : ∀ q, s.distDone.rd q = ((s.wr Reg.fwDist 2).wr Reg.fwDistNode 0).rd q := State.rd_congr (by dsimp only [State.distDone])
  refine ⟨?_, ?_, rfl, (((Frame.refl ..).wr _ 2 (by simp)).wr _ 0 (by simp)).cas _⟩
  · rw [hrd, State.rd_wr_ne _ _ (by decide), rd_wr_of_lt _ (by decide)]
  · rw [hrd, rd_wr_of_lt _ (by decide)]

theorem distNext_done {s : State} {d : Dist} (n : Nat) (hdist : s.cas.dist = some d) (htodo : d.todo = []) :
    State.distNext (n + 1) s = s.distDone := by
  unfold State.distNext
  rw [hdist]
  dsimp only
  rw [htodo]
  rfl

/-- The first addressed member. -/
theorem addressed_of_first {s : State} {k : Nat} (hk : k < 64) (h0 : k ≠ 0) (hbit : (s.rd Reg.fwDistMask).testBit k = true)
    (hbelow : ∀ i ∈ List.range k, 0 < i → (s.rd Reg.fwDistMask).testBit i = false) : ∃ rest, s.addressed = (k + 1) :: rest := by
  have hhead : (s.addressed).head? = some (k + 1) := by
    rw [State.addressed, List.head?_map, List.head?_filter]
    rw [List.find?_range_eq_some.mpr ⟨by simp [h0, hbit], List.mem_range.mpr hk, fun j hj => ?_⟩]
    · rfl
    · by_cases hj0 : j = 0
      · simp [hj0]
      · simp [hbelow j (List.mem_range.mpr hj) (Nat.pos_of_ne_zero hj0)]
  exact List.head?_eq_some_iff.mp hhead

theorem addressed_of_none {s : State} (h : ∀ i ∈ List.range 64, 0 < i → (s.rd Reg.fwDistMask).testBit i = false) : s.addressed = [] := by
  have hnone : (List.range 64).filter (fun k => k ≠ 0 && (s.rd Reg.fwDistMask).testBit k) = [] := List.filter_eq_nil_iff.mpr fun i hi => by
    by_cases h0 : i = 0
    · simp [h0]
    · simp [h i hi (Nat.pos_of_ne_zero h0)]
  rw [State.addressed, hnone]
  rfl

/-! ### A source behind a request (R71, R74) -/

theorem lets_intake {s u : State} {src : Src} {tag : Byte} {k v : Nat} {w : Row} (hk : CmdReg k w) (h : s.lets src tag k v = some u) :
    s.intake Op.write (valueReq src tag k v) = some u := by
  obtain ⟨⟨u', v'⟩, htake, rfl⟩ := Option.map_eq_some_iff.1 h
  have hrow : rowIn (reqKey (valueReq src tag k v)) = some w := by rw [reqKey_valueReq src tag v hk.word, hk.row]
  obtain ⟨hin, _⟩ := takes_eq_some hrow htake
  exact hin

/-- Taking a request in leaves every source's quarantine, and what its own log commands are set to. -/
theorem intake_srcs {s u : State} {op : Nat} {r : Req} (h : s.intake op r = some u) (i : Nat) :
    (u.srcOf i).quarLeft = (s.srcOf i).quarLeft ∧ (u.srcOf i).seekSeq = (s.srcOf i).seekSeq := by
  obtain ⟨_, _, _, _, rfl⟩ := intake_eq_some h
  have hspend : ∀ (t : State) (j : Nat), (t.spend op j).srcOf i = (t.useToken op j).srcOf i := fun _ _ => rfl
  rw [hspend, State.useToken, srcOf_setSrc]
  by_cases hi : i = r.src.val
  · rw [if_pos hi, srcOf_setSrc, if_pos rfl, hi]
    exact ⟨rfl, rfl⟩
  · rw [if_neg hi, srcOf_setSrc, if_neg hi]
    exact ⟨rfl, rfl⟩

theorem memberHere_of_intake {s u : State} {op : Nat} {r : Req} (h : s.intake op r = some u) (k : Nat) : u.memberHere k = s.memberHere k := by
  obtain ⟨hquar, _⟩ := intake_srcs h (k + 3)
  have hsvc := svcOnly_intake h
  unfold State.memberHere
  rw [State.srcOf, State.srcOf] at hquar
  rw [hquar, hsvc]
  rfl

/-! ### Log cursors (R474) -/

theorem logCmd_cmdReg : CmdReg Reg.logCmd ⟨0x01, .u8, .cmd, .volatile, 0, 0, .any, false⟩ := ⟨rfl, by decide, rfl, rfl⟩

theorem doLog_of_free {s : State} {j : Nat} (h : s.cursorFree j = true) : s.doLog j 1 = .ok (s.seekOldest j) ∧
    s.doLog j 2 = .ok (s.seekSeq j) ∧ s.doLog j 3 = .ok (s.seekNewest j) := by
  simp [State.doLog, h]

theorem placeCursor_spec (s : State) (j n : Nat) : ((s.placeCursor j n).srcOf j).cursor = some n ∧ ((s.placeCursor j n).srcOf j).logResult = 1 ∧
    ((s.placeCursor j n).srcOf j).readTorn = 0 ∧ Frame [] [] s (s.placeCursor j n) := by
  rw [State.placeCursor, srcOf_setSrc, if_pos rfl]
  exact ⟨rfl, rfl, rfl, (Frame.refl ..).svc _⟩

theorem closeCursor_spec (s : State) (j : Nat) : ((s.closeCursor j).srcOf j).cursor = none ∧ ((s.closeCursor j).srcOf j).logResult = 2 ∧
    Frame [] [] s (s.closeCursor j) := by
  rw [State.closeCursor, srcOf_setSrc, if_pos rfl]
  exact ⟨rfl, rfl, (Frame.refl ..).svc _⟩

/-- The slots of a sequence number. -/
def State.seqSlots (s : State) (seq : Nat) : List Nat := (s.validSlots (fun r => r.kind = 1 && r.seq = seq)).map (·.1)

theorem seekSeq_found {s : State} {j n : Nat} (h : s.firstSlot (s.seqSlots (s.srcOf j).seekSeq) = some n) :
    s.seekSeq j = s.placeCursor j n := by
  unfold State.seekSeq
  unfold State.seqSlots at h
  rw [h]

theorem seekSeq_missed {s : State} {j : Nat} (h : s.seqSlots (s.srcOf j).seekSeq = []) :
    s.seekSeq j = s.setSrc j { s.srcOf j with logResult := 3 } := by
  unfold State.seekSeq
  unfold State.seqSlots at h
  rw [h]
  rfl

/-! ### Reports (R490) -/

theorem svcReportCmd_cmdReg : CmdReg Reg.svcReportCmd ⟨0x41, .u8, .cmd, .volatile, 0, 0, .any, false⟩ := ⟨rfl, by decide, rfl, rfl⟩

/-- A report has begun. -/
def State.reportBegun (s : State) (j v : Nat) : State :=
  { (s.wr Reg.svcReportCmd 1) with
    rep := { kind := v, src := j, locked := !s.unlocked j, cyc := s.clk.cyc
             lanes := (((List.range 4).filter s.laneIn).map (fun p => bitIf true p)).sum } }

theorem doReport_busy {s : State} {j v : Nat} (h : s.rep.kind ≠ 0) : s.doReport j v = .abort s 0x04050000 0 := if_pos h

theorem doReport_atOnce {s : State} {j v : Nat} (hnone : s.rep.kind = 0) (hv : v = 1 ∨ v = 2) (htaken : s.taken = true) :
    s.doReport j v = .ok (s.reportBegun j v).finishReport := by
  have hv' : (decide (v = 1) || decide (v = 2)) = true := by simpa using hv
  exact (if_neg (by simp [hnone])).trans ((if_pos hv').trans (if_pos htaken))

theorem doReport_washdown {s : State} {j : Nat} (hnone : s.rep.kind = 0) (hphase : s.phase = .guard) (hclosed : s.anyOpen = false) :
    s.doReport j 3 = .ok (s.reportBegun j 3) := by
  unfold State.doReport
  simp only [hnone, hphase, hclosed]
  rfl

theorem reportBegun_spec (s : State) (j v : Nat) : (s.reportBegun j v).rd Reg.svcReportCmd = 1 ∧ (s.reportBegun j v).rep.kind = v ∧
    (s.reportBegun j v).rep.cyc = s.clk.cyc ∧ (s.reportBegun j v).rep.src = j ∧ Frame [Reg.svcReportCmd] [] s (s.reportBegun j v) := by
  refine ⟨?_, rfl, rfl, rfl, ((Frame.refl ..).wr _ 1 (by simp)).rep _⟩
  have hrd : (s.reportBegun j v).rd Reg.svcReportCmd = (s.wr Reg.svcReportCmd 1).rd Reg.svcReportCmd := State.rd_congr (by dsimp only [State.reportBegun]) _
  rw [hrd, rd_wr_of_lt _ (by decide)]

/-- What a report says. -/
def State.reportWritten (s : State) : State :=
  (((s.wr Reg.svcReport (leValue s.repBytes)).wr Reg.svcSummary (leValue (s.repBytes.take 4))).bump Reg.svcReports).wr Reg.svcReportCmd 2

theorem finishReport_eq (s : State) : s.finishReport = { s.reportWritten with rep := {} } := rfl

theorem finishReport_spec (s : State) : s.finishReport.rd Reg.svcReportCmd = 2 ∧ Counts Reg.svcReports s s.finishReport ∧
    s.finishReport.rep.kind = 0 ∧ Frame [Reg.svcReport, Reg.svcReportCmd, Reg.svcReports, Reg.svcSummary] [] s s.finishReport := by
  have hrd : ∀ k, s.finishReport.rd k = s.reportWritten.rd k := State.rd_congr (by rw [finishReport_eq])
  have hframe : Frame [Reg.svcReport, Reg.svcReportCmd, Reg.svcReports, Reg.svcSummary] [] s s.reportWritten :=
    ((((Frame.refl ..).wr _ _ (by simp)).wr _ _ (by simp)).bump _ (by simp)).wr _ _ (by simp)
  refine ⟨?_, ?_, by rw [finishReport_eq], by rw [finishReport_eq]; exact hframe.rep _⟩
  · rw [hrd, State.reportWritten, rd_wr_of_lt _ (by decide)]
  · rw [Counts, hrd, State.reportWritten, State.rd_wr_ne _ _ (by decide), State.bump, State.rd_wr_same, State.rd_wr_ne _ _ (by decide),
      State.rd_wr_ne _ _ (by decide)]
    rfl

/-! ### The link report (R490) -/

/-- The lanes of the width, as a mask. -/
def laneMask (f : Nat → Bool) : Nat := (((List.range 4).filter f).map (fun p => bitIf true p)).sum

theorem testBit_laneMask {f : Nat → Bool} (p : Lane) (hp : f p = true) : (laneMask f).testBit p = true := by
  have hfin : ∀ g : Lane → Bool, ∀ q : Lane, g q = true →
      (((List.finRange 4).filter g).map (fun p : Lane => bitIf true p)).sum.testBit q = true := by decide
  have hrange : List.range 4 = (List.finRange 4).map (fun p : Lane => p.val) := rfl
  have h := hfin (fun q => f q) p hp
  rw [laneMask, hrange, List.filter_map, List.map_map]
  exact h

/-- The lanes that a link report scans. -/
def State.lanesIn (s : State) : List Nat := (List.range 4).filter s.laneIn

theorem doReport_link {s : State} {j : Nat} (hnone : s.rep.kind = 0) (hphase : s.phase = .guard) (hup : s.rd Reg.linkUp = 1)
    (hfree : ∀ q : Lane, s.laneIn q = true → s.rd (Reg.eyeCmd q) ≠ 1 ∧ s.lanePoints q ≤ 1024) :
    s.doReport j 4 = .ok ((s.reportBegun j 4).each s.lanesIn (fun p s => s.scanLane p)).reportScans := by
  have hlanes : ∀ p ∈ s.lanesIn, s.rd (Reg.eyeCmd p) ≠ 1 ∧ s.lanePoints p ≤ 1024 := fun p hp => by
    obtain ⟨hrange, hin⟩ := List.mem_filter.mp hp
    exact hfree ⟨p, List.mem_range.mp hrange⟩ hin
  have hany : s.lanesIn.any (fun p => s.rd (Reg.eyeCmd p) = 1) = false :=
    List.any_eq_false.mpr fun p hp => by simp [(hlanes p hp).1]
  have hfind : s.lanesIn.find? (fun p => decide (1024 < s.lanePoints p)) = none :=
    List.find?_eq_none.mpr fun p hp => by simp [(hlanes p hp).2]
  unfold State.lanesIn at hany hfind
  unfold State.doReport
  dsimp only
  rw [if_neg (by simp [hnone]), if_neg (by decide), if_neg (by decide), if_pos rfl, if_neg (by simp [hphase]), if_neg (by simp [hup]), hany,
    if_neg (by decide), hfind]
  rfl

/-- The scan that a lane's settings ask for. -/
def State.scanSet (s : State) (p : Nat) : State :=
  s.startScan p (s.rd (Reg.eyeType p)) (s.rd (Reg.eyeHStep p)) (s.rd (Reg.eyeVStep p)) (s.rd (Reg.eyeDwell p))

theorem scanLane_of_free {s : State} {p : Lane} (h : s.bitOf Reg.idleHold 10 = false) : s.scanLane p = s.scanSet p := by
  have hne : ∀ p : Lane, Reg.idleHold ∉ [Reg.eyeCmd p, Reg.eyeDone p, Reg.eyePoints p] := by decide
  obtain ⟨_, _, _, _, _, hstart⟩ := startScan_spec s p (s.rd (Reg.eyeType p)) (s.rd (Reg.eyeHStep p)) (s.rd (Reg.eyeVStep p))
    (s.rd (Reg.eyeDwell p))
  have hhold : (s.scanSet p).bitOf Reg.idleHold 10 = false := (bitOf_of_rd 10 (hstart.rd (hne p))).trans h
  exact if_neg (ne_true_of_eq_false hhold)

/-- The registers of the lanes' scans. -/
def scanKeys : List Nat := allLanes.flatMap (fun q => [Reg.eyeCmd q, Reg.eyeDone q, Reg.eyePoints q])

theorem scanSet_spec (s : State) (p : Lane) : (s.scanSet p).rd (Reg.eyeCmd p) = 1 ∧ (s.scanSet p).rep = s.rep ∧
    Frame [Reg.eyeCmd p, Reg.eyeDone p, Reg.eyePoints p] [] s (s.scanSet p) := by
  obtain ⟨hcmd, _, _, _, _, hframe⟩ := startScan_spec s p (s.rd (Reg.eyeType p)) (s.rd (Reg.eyeHStep p)) (s.rd (Reg.eyeVStep p))
    (s.rd (Reg.eyeDwell p))
  refine ⟨hcmd, ?_, hframe⟩
  obtain ⟨e, _, _, heq⟩ := startScan_eq s p (s.rd (Reg.eyeType p)) (s.rd (Reg.eyeHStep p)) (s.rd (Reg.eyeVStep p)) (s.rd (Reg.eyeDwell p))
  rw [State.scanSet, heq]
  rfl

/-- What the scans of a link report leave while they are begun. -/
def Scanning (s t : State) : Prop := Frame scanKeys [] s t ∧ t.rep = s.rep

theorem Scanning.scanLane {s t : State} (p : Lane) (hfree : s.bitOf Reg.idleHold 10 = false) (h : Scanning s t) :
    Scanning s (t.scanLane p) ∧ (t.scanLane p).rd (Reg.eyeCmd p) = 1 ∧
    ∀ q : Lane, t.rd (Reg.eyeCmd q) = 1 → (t.scanLane p).rd (Reg.eyeCmd q) = 1 := by
  have hmem : ∀ p : Lane, [Reg.eyeCmd p, Reg.eyeDone p, Reg.eyePoints p] ⊆ scanKeys := by decide
  have hother : ∀ p q : Lane, q ≠ p → Reg.eyeCmd q ∉ [Reg.eyeCmd p, Reg.eyeDone p, Reg.eyePoints p] := by decide
  obtain ⟨hframe, hrep⟩ := h
  obtain ⟨hcmd, hrep', hframe'⟩ := scanSet_spec t p
  rw [scanLane_of_free ((bitOf_of_rd 10 (hframe.rd (by decide))).trans hfree)]
  refine ⟨⟨hframe.trans (hframe'.mono (hmem p) fun _ h => h), hrep'.trans hrep⟩, hcmd, fun q hq => ?_⟩
  by_cases h : q = p
  · rw [h]
    exact hcmd
  · exact (hframe'.rd (hother p q h)).trans hq

/-- Every lane of a link report is scanned, and the report waits for them. -/
theorem linkReport_spec {s : State} {j : Nat} (p : Lane) (hin : s.laneIn p = true) (hfree : s.bitOf Reg.idleHold 10 = false) :
    ((s.reportBegun j 4).each s.lanesIn (fun p s => s.scanLane p)).reportScans.rd (Reg.eyeCmd p) = 1 ∧
    Scanning (s.reportBegun j 4) ((s.reportBegun j 4).each s.lanesIn (fun p s => s.scanLane p)).reportScans := by
  have hlane : ∀ q ∈ s.lanesIn, q < 4 := fun q hq => List.mem_range.mp (List.mem_filter.mp hq).1
  obtain ⟨_, hkind, _, _, hbegun⟩ := reportBegun_spec s j 4
  have hfree' : (s.reportBegun j 4).bitOf Reg.idleHold 10 = false := (bitOf_of_rd 10 (hbegun.rd (by decide))).trans hfree
  have hstep : ∀ q ∈ s.lanesIn, ∀ u, Scanning (s.reportBegun j 4) u → Scanning (s.reportBegun j 4) (u.scanLane q) ∧
      (u.scanLane q).rd (Reg.eyeCmd q) = 1 ∧ ∀ q' : Lane, u.rd (Reg.eyeCmd q') = 1 → (u.scanLane q).rd (Reg.eyeCmd q') = 1 :=
    fun q hq u hu => hu.scanLane ⟨q, hlane q hq⟩ hfree'
  have hall : Scanning (s.reportBegun j 4) ((s.reportBegun j 4).each s.lanesIn (fun p s => s.scanLane p)) :=
    each_keeps _ _ (fun q hq u hu => (hstep q hq u hu).1) ⟨.refl .., rfl⟩
  have hcmd := each_stands (P := Scanning (s.reportBegun j 4)) (fun q u => ∀ q' : Lane, q'.val = q → u.rd (Reg.eyeCmd q') = 1)
    s.lanesIn (fun p s => s.scanLane p) (fun q hq u hu => (hstep q hq u hu).1)
    (fun q hq u hu q' hq' => by
      rw [hq']
      exact (hstep q hq u hu).2.1)
    (fun q hq _ u hu hb q' hq' => (hstep q hq u hu).2.2 q' (hb q' hq')) ⟨.refl .., rfl⟩ p.val
    (List.mem_filter.mpr ⟨List.mem_range.mpr p.isLt, hin⟩) p rfl
  generalize (s.reportBegun j 4).each s.lanesIn (fun p s => s.scanLane p) = u at hall hcmd
  have hwaits : u.reportScans = u := by
    have hmask : u.rep.lanes.testBit p = true := by
      rw [hall.2]
      exact testBit_laneMask p hin
    have hrun : u.repLanes.all (fun q => u.rd (Reg.eyeCmd q) ≠ 1) = false :=
      List.all_eq_false.mpr ⟨p.val, List.mem_filter.mpr ⟨List.mem_range.mpr p.isLt, hmask⟩, by simp [hcmd]⟩
    unfold State.reportScans
    rw [hrun, if_neg (by simp)]
  rw [hwaits]
  exact ⟨hcmd, hall⟩

theorem shakeAbandon_cmdReg : CmdReg Reg.shakeAbandon ⟨0x22, .u8, .cmd, .volatile, 0, 0, .any, false⟩ := ⟨rfl, by decide, rfl, rfl⟩

theorem doCmd_shakeAbandon {s : State} {j : Nat} (tag : Nat) (hunlocked : s.unlocked j = true) (hlow : 1 ≤ s.rd Reg.shakeState)
    (hhigh : s.rd Reg.shakeState ≤ 4) : s.doCmd j tag Reg.shakeAbandon 1 = .ok ((s.confirmShake true).wr Reg.shakeAbandon 1) := by
  have hdo : s.doCmd j tag Reg.shakeAbandon 1 = s.doAbandon j := rfl
  have hstate : (decide (s.rd Reg.shakeState = 0) || decide (4 < s.rd Reg.shakeState)) = false := by
    simp
    omega
  rw [hdo, State.doAbandon, hunlocked, if_neg (by decide), hstate, if_neg (by decide)]

/-- A report that is made at once. -/
theorem report_atOnce {c : Instr} {s u : State} {src : Src} {tag : Byte} {v : Nat} (hl : s.lets src tag Reg.svcReportCmd v = some u)
    (hv : v = 1 ∨ v = 2) (hexec : exec c s = .next (s.writeReq src tag Reg.svcReportCmd v)) (hnone : s.rep.kind = 0) (htaken : s.taken = true) :
    Answers c src tag Reg.svcReportCmd s fun t =>
      t.rd Reg.svcReportCmd = 2 ∧ Counts Reg.svcReports s t ∧ t.rep.kind = 0 ∧
      Frame [Reg.svcReport, Reg.svcReportCmd, Reg.svcReports, Reg.svcSummary] [] s t := by
  have hfit : v < 256 ^ sizeAt Reg.svcReportCmd := lt_of_lt_of_eq (show v < 256 by omega) (by decide)
  obtain ⟨hsvc, _⟩ := writeReq_of_lets svcReportCmd_cmdReg hfit hl
  have hdo : u.doCmd src.val tag.toNat Reg.svcReportCmd v = .ok (u.reportBegun src.val v).finishReport :=
    doReport_atOnce (by rw [hsvc]; exact hnone) hv (by rw [hsvc]; exact htaken)
  obtain ⟨_, _, _, _, hbegun⟩ := reportBegun_spec u src.val v
  obtain ⟨hcmd, hcount, hkind, hframe⟩ := finishReport_spec (u.reportBegun src.val v)
  refine answers_of_ok svcReportCmd_cmdReg hfit hl hexec hdo fun _ => ⟨hcmd, ?_, hkind, ?_⟩
  · rw [Counts, hcount, hbegun.rd (by decide), hsvc.rd]
  · exact ((hsvc.frame ..).trans (hbegun.mono (by simp) fun _ h => h)).trans hframe

/-- Settles O49: a shakeout ends by `confirmShake_spec`, a distribution's start is `distNext_here` or `distNext_done`, a cursor is placed by
`placeCursor_spec`, a report is `finishReport_spec` or waits for its scans (`linkReport_spec`). -/
theorem reportsLogAndDistributionAreCommanded : Obligations.ReportsLogAndDistributionAreCommanded := by
  refine ⟨fun s u src tag hl hunlocked hlow hhigh => ?abandon,
    fun s u src tag k hl hunlocked hnone hphase hstate hvalid h0 hbit hbelow hhere => ?distHere,
    fun s u src tag hl hunlocked hnone hphase hstate hvalid hclear => ?distNone,
    fun s u src tag d hl hunlocked hdist hlow hhigh => ?distStop, fun s u src tag hl hfree => ?oldest, fun s u src tag n hl hfree hfound => ?seq,
    fun s u src tag hl hfree hmissed => ?missed, fun s u src tag hl hfree => ?newest, fun s u src tag hl => ?close,
    fun s u src tag hl hnone htaken => ?health, fun s u src tag hl hnone htaken => ?panel, fun s u src tag hl hnone hphase hclosed => ?washdown,
    fun s u src tag p hl hnone hphase hup hin hhold hfree => ?link, fun s u src tag hl hbusy => ?busy⟩
  case abandon =>
    obtain ⟨hsvc, _⟩ := writeReq_of_lets shakeAbandon_cmdReg (by decide) hl
    have hdo := doCmd_shakeAbandon (s := u) tag.toNat hunlocked (by rwa [hsvc.rd]) (by rwa [hsvc.rd])
    obtain ⟨hstate, hreleased, hshake, hconfirm, _, hframe⟩ := confirmShake_spec u true
    refine answers_of_ok shakeAbandon_cmdReg (by decide) hl rfl hdo fun _ => ?_
    rw [State.wr_shake, State.wr_shk, hshake, hconfirm]
    refine ⟨rd_wr_of_lt _ (by decide), ?_, ?_, rfl, rfl, ?_⟩
    · rw [State.rd_wr_ne _ _ (by decide), hstate]
    · rw [State.rd_wr_ne _ _ (by decide), hreleased]
    · exact ((hsvc.frame ..).trans (hframe.mono (by decide) fun _ h => h)).wr _ _ (by decide)
  case distHere =>
    have hin := lets_intake fwDist_cmdReg hl
    have hsvc := svcOnly_intake hin
    obtain ⟨rest, htodo⟩ := addressed_of_first (s := u) k.isLt h0 (by rwa [hsvc.rd]) (by rwa [hsvc.rd])
    obtain ⟨hbegun, hresults, hdist, hmember, hframe⟩ := distBegun_spec u u.addressed
    obtain ⟨hnone', hphase', hstate', hvalid'⟩ := hsvc.distStart hnone hphase hstate hvalid
    have hhere' : (u.distBegun u.addressed).memberHere (k.val + 1 - 1) = true := by
      rw [hmember, Nat.add_sub_cancel, memberHere_of_intake hin]
      exact hhere
    have hdo : u.doCmd src.val tag.toNat Reg.fwDist 1 = .ok ((u.distBegun u.addressed).distServes (k.val + 1) rest) := by
      rw [doCmd_fwDist, doDist_start hunlocked hnone' hphase' hstate' hvalid', distNext_here 64 hdist htodo hhere']
    obtain ⟨hnode, hother, hserved, hframe'⟩ := distServes_spec (u.distBegun u.addressed) (k.val + 1) rest (by omega)
    refine answers_of_ok fwDist_cmdReg (by decide) hl rfl hdo fun _ => ⟨(hother _ (by decide)).trans hbegun, hnode, fun i hi => ?_,
      by rw [hserved]; rfl, (((hsvc.frame ..).trans hframe).trans (hframe'.mono (by decide) fun _ h => h))⟩
    obtain ⟨_, hne⟩ := fwDistResult_ne i
    exact (hother _ hne).trans (hresults i (List.mem_range.mpr hi))
  case distNone =>
    obtain ⟨hsvc, _⟩ := writeReq_of_lets fwDist_cmdReg (by decide) hl
    obtain ⟨hnone', hphase', hstate', hvalid'⟩ := hsvc.distStart hnone hphase hstate hvalid
    have htodo : u.addressed = [] := addressed_of_none fun i hi h => by
      rw [hsvc.rd]
      exact hclear i hi h
    obtain ⟨_, _, hdist, _, hframe⟩ := distBegun_spec u u.addressed
    obtain ⟨hread, hnode, hgone, hframe'⟩ := distDone_spec (u.distBegun u.addressed)
    have hdo : u.doCmd src.val tag.toNat Reg.fwDist 1 = .ok (u.distBegun u.addressed).distDone := by
      rw [doCmd_fwDist, doDist_start hunlocked hnone' hphase' hstate' hvalid', distNext_done 64 hdist htodo]
    exact answers_of_ok fwDist_cmdReg (by decide) hl rfl hdo fun _ =>
      ⟨hread, hnode, hgone, ((hsvc.frame ..).trans hframe).trans (hframe'.mono (by decide) fun _ h => h)⟩
  case distStop =>
    obtain ⟨hsvc, _⟩ := writeReq_of_lets fwDist_cmdReg (by decide) hl
    have hdo : u.doCmd src.val tag.toNat Reg.fwDist 2 = .ok (u.distOver ((d.node - 1) % 64) 8 4) := by
      rw [doCmd_fwDist, doDist_stop hunlocked, stopDist_eq (by rw [hsvc]; exact hdist) (by omega)]
    obtain ⟨hgone, hread, hnode, hresult, hframe⟩ := distOver_spec u (k := (d.node - 1) % 64) (result := 8) (reading := 4)
      (Nat.mod_lt _ (by decide)) (by decide) (by decide)
    rw [Nat.mod_eq_of_lt (show d.node - 1 < 64 by omega)] at hdo hgone hread hnode hresult hframe
    exact answers_of_ok fwDist_cmdReg (by decide) hl rfl hdo fun _ => ⟨hread, hnode, hresult, hgone, (hsvc.frame ..).trans hframe⟩
  case oldest =>
    obtain ⟨hsvc, _⟩ := writeReq_of_lets logCmd_cmdReg (by decide) hl
    obtain ⟨hold, _⟩ := doLog_of_free hfree
    obtain ⟨hcursor, hresult, htorn, hframe⟩ := placeCursor_spec u src.val (u.oldestSlot.getD u.log.head)
    refine answers_of_ok logCmd_cmdReg (by decide) hl rfl hold fun _ => ⟨hcursor.trans ?_, hresult, htorn, (hsvc.frame ..).trans hframe⟩
    rw [hsvc]
    rfl
  case seq =>
    have hin := lets_intake logCmd_cmdReg hl
    have hsvc := svcOnly_intake hin
    obtain ⟨_, hseq⟩ := intake_srcs hin src.val
    obtain ⟨_, hdo, _⟩ := doLog_of_free hfree
    obtain ⟨hcursor, hresult, _, hframe⟩ := placeCursor_spec u src.val n
    rw [seekSeq_found (n := n) ?_] at hdo
    · exact answers_of_ok logCmd_cmdReg (by decide) hl rfl hdo fun _ => ⟨hcursor, hresult, (hsvc.frame ..).trans hframe⟩
    · rw [hseq, hsvc]
      exact hfound
  case missed =>
    have hin := lets_intake logCmd_cmdReg hl
    have hsvc := svcOnly_intake hin
    obtain ⟨_, hseq⟩ := intake_srcs hin src.val
    obtain ⟨_, hdo, _⟩ := doLog_of_free hfree
    rw [seekSeq_missed ?_] at hdo
    · refine answers_of_ok logCmd_cmdReg (by decide) hl rfl hdo fun _ => ?_
      rw [srcOf_setSrc, if_pos rfl]
      exact ⟨rfl, rfl, (hsvc.frame ..).svc _⟩
    · rw [hseq, hsvc]
      exact congrArg (List.map Prod.fst) hmissed
  case newest =>
    obtain ⟨hsvc, _⟩ := writeReq_of_lets logCmd_cmdReg (by decide) hl
    obtain ⟨_, _, hdo⟩ := doLog_of_free hfree
    obtain ⟨hcursor, hresult, _, hframe⟩ := placeCursor_spec u src.val (u.newestSlot.getD u.log.head)
    refine answers_of_ok logCmd_cmdReg (by decide) hl rfl hdo fun _ => ⟨hcursor.trans ?_, hresult, (hsvc.frame ..).trans hframe⟩
    rw [hsvc]
    rfl
  case close =>
    obtain ⟨hsvc, _⟩ := writeReq_of_lets logCmd_cmdReg (by decide) hl
    obtain ⟨hcursor, hresult, hframe⟩ := closeCursor_spec u src.val
    exact answers_of_ok (t := u.closeCursor src.val) logCmd_cmdReg (by decide) hl rfl rfl fun _ =>
      ⟨hcursor, hresult, (hsvc.frame ..).trans hframe⟩
  case health => exact report_atOnce hl (.inl rfl) rfl hnone htaken
  case panel => exact report_atOnce hl (.inr rfl) rfl hnone htaken
  case washdown =>
    obtain ⟨hsvc, _⟩ := writeReq_of_lets svcReportCmd_cmdReg (by decide) hl
    obtain ⟨hcmd, hkind, hcyc, hsrc, hframe⟩ := reportBegun_spec u src.val 3
    have hclosed' : u.anyOpen = false := by
      rw [hsvc]
      exact hclosed
    have hdo : u.doCmd src.val tag.toNat Reg.svcReportCmd 3 = .ok (u.reportBegun src.val 3) :=
      doReport_washdown (by rw [hsvc]; exact hnone) (by rw [hsvc]; exact hphase) hclosed'
    refine answers_of_ok svcReportCmd_cmdReg (by decide) hl rfl hdo fun _ => ⟨hcmd, hkind, hcyc.trans ?_, hsrc, (hsvc.frame ..).trans hframe⟩
    rw [hsvc]
  case link =>
    obtain ⟨hsvc, _⟩ := writeReq_of_lets svcReportCmd_cmdReg (by decide) hl
    have hdo := doReport_link (s := u) (j := src.val) (by rw [hsvc]; exact hnone) (by rw [hsvc]; exact hphase) (by rwa [hsvc.rd]) fun q hq => by
      obtain ⟨_, hlane, hpoints⟩ := hsvc.eyes q
      rw [hlane] at hq
      rw [hsvc.rd, hpoints]
      exact hfree q hq
    obtain ⟨_, hlane, _⟩ := hsvc.eyes p
    obtain ⟨hcmd, hkind, _, _, hbegun⟩ := reportBegun_spec u src.val 4
    obtain ⟨heye, hscans, hrep⟩ := linkReport_spec (s := u) (j := src.val) p (by rwa [hlane]) ((bitOf_of_rd 10 (hsvc.rd _)).trans hhold)
    refine answers_of_ok svcReportCmd_cmdReg (by decide) hl rfl hdo fun _ => ⟨(hscans.rd (by decide)).trans hcmd, ?_, heye, ?_⟩
    · rw [hrep, hkind]
    · exact (((hsvc.frame ..).trans hbegun).mono (by decide) fun _ h => h).trans (hscans.mono (by decide) fun _ h => h)
  case busy =>
    exact refuses_of_abort svcReportCmd_cmdReg (by decide) hl rfl (doReport_busy (by
      obtain ⟨hsvc, _⟩ := writeReq_of_lets svcReportCmd_cmdReg (by decide) hl
      rw [hsvc]
      exact hbusy)) (by decide) fun _ => rfl

end Sys2Proof.Machine
end

section
/-! SUPPORT. What placing records into pages and starting the dies may touch (spec/15_image_store.md R377-R385, R390). -/
namespace Sys2Proof.Machine

/-- What placement and the dies may touch: registers of a list, and of the store its pages, its row, what waits, what the crucible
notes of pages, and the dies' reads. -/
def StoreOnly (K : List Nat) (s t : State) : Prop :=
  ∃ reg pages row todo crucible marker reads sinceRead, t = { s with reg := reg, sto := { s.sto with
    pages := pages, row := row, todo := todo, crucible := crucible, marker := marker, reads := reads, sinceRead := sinceRead } } ∧
    ∀ k, k ∉ K → t.rd k = s.rd k

theorem StoreOnly.refl (K : List Nat) (s) : StoreOnly K s s := ⟨_, _, _, _, _, _, _, _, rfl, fun _ _ => rfl⟩

theorem StoreOnly.trans {K s t u} (h1 : StoreOnly K s t) (h2 : StoreOnly K t u) : StoreOnly K s u := by
  obtain ⟨_, _, _, _, _, _, _, _, rfl, hrd1⟩ := h1
  obtain ⟨_, _, _, _, _, _, _, _, rfl, hrd2⟩ := h2
  exact ⟨_, _, _, _, _, _, _, _, rfl, fun k hk => (hrd2 k hk).trans (hrd1 k hk)⟩

theorem StoreOnly.mono {K L s t} (h : StoreOnly K s t) (hK : K ⊆ L) : StoreOnly L s t := by
  obtain ⟨_, _, _, _, _, _, _, _, rfl, hrd⟩ := h
  exact ⟨_, _, _, _, _, _, _, _, rfl, fun k hk => hrd k fun hin => hk (hK hin)⟩

theorem StoreOnly.rd {K s t} (h : StoreOnly K s t) {k} (hk : k ∉ K) : t.rd k = s.rd k := by
  obtain ⟨_, _, _, _, _, _, _, _, _, hrd⟩ := h
  exact hrd k hk

theorem StoreOnly.wr {K s t} (k v) (h : StoreOnly K s t) (hk : k ∈ K) : StoreOnly K s (t.wr k v) :=
  h.trans ⟨_, _, _, _, _, _, _, _, rfl, fun _ hq => State.rd_wr_ne _ _ (ne_of_mem_of_not_mem hk hq).symm⟩

theorem StoreOnly.bump {K s t} (k) (h : StoreOnly K s t) (hk : k ∈ K) : StoreOnly K s (t.bump k) := h.wr k _ hk

/-- Its part of the store is replaced. -/
theorem StoreOnly.sto {K s t} (pages row todo crucible marker reads sinceRead) (h : StoreOnly K s t) :
    StoreOnly K s { t with sto := { t.sto with pages := pages, row := row, todo := todo, crucible := crucible, marker := marker,
                                               reads := reads, sinceRead := sinceRead } } :=
  h.trans ⟨_, _, _, _, _, _, _, _, rfl, fun _ _ => rfl⟩

theorem StoreOnly.editPages {K s t} (c f) (h : StoreOnly K s t) : StoreOnly K s (t.editPages c f) := h.sto _ _ _ _ _ _ _

theorem StoreOnly.frame {K K' H s t u} (h : StoreOnly K t u) (hK : K ⊆ K') (hf : Frame K' H s t) : Frame K' H s u := by
  obtain ⟨_, _, _, _, _, _, _, _, rfl, hrd⟩ := h
  exact hf.trans ⟨⟨fun k hk => hrd k fun hin => hk (hK hin), fun _ _ => rfl⟩, fun _ => rfl, rfl, rfl, rfl, rfl, rfl, .of_eq rfl⟩

/-! ### Rows and pages (R377-R380, R390) -/

theorem StoreOnly.openRow {s t} (h : StoreOnly pumpKeys s t) : StoreOnly pumpKeys s t.openRow := by
  unfold State.openRow
  dsimp only
  split
  · exact h
  · exact (((h.wr _ _ (by decide)).wr _ _ (by decide)).bump _ (by decide)).sto _ _ _ _ _ _ _

theorem StoreOnly.closeRow {s t} (h : StoreOnly pumpKeys s t) : StoreOnly pumpKeys s t.closeRow := by
  unfold State.closeRow
  split
  · exact h.openRow
  · dsimp only
    split
    · exact ((h.wr _ _ (by decide)).sto _ _ _ _ _ _ _).openRow
    · exact h

theorem StoreOnly.newPage {s t} (kind) (h : StoreOnly pumpKeys s t) : StoreOnly pumpKeys s (t.newPage kind) := by
  unfold State.newPage
  split
  · exact h
  · dsimp only
    split
    · exact h.sto _ _ _ _ _ _ _
    · exact (h.wr _ _ (by decide)).sto _ _ _ _ _ _ _

/-- The page that takes the next slots, where one has to be opened. -/
theorem StoreOnly.pageFor {s t} (c : Bool) (kind) (h : StoreOnly pumpKeys s t) :
    StoreOnly pumpKeys s (if c = true then t else t.newPage kind) := by
  split
  · exact h
  · exact h.newPage kind

theorem StoreOnly.padOpen {K s t} (h : StoreOnly K s t) : StoreOnly K s t.padOpen := h.editPages _ _

theorem storeOnly_placeStep {s t : State} (h : s.placeStep = some t) : StoreOnly pumpKeys s t := by
  unfold State.placeStep at h
  split at h
  · exact absurd h (by simp)
  · split at h
    · dsimp only at h
      split at h
      · exact absurd h (by simp)
      · rw [← Option.some.inj h]
        exact (((StoreOnly.refl _ s).padOpen.newPage 2).editPages _ _).sto _ _ _ _ _ _ _
    · split at h
      · rw [← Option.some.inj h]
        exact (StoreOnly.refl _ s).sto _ _ _ _ _ _ _
      · dsimp only at h
        split at h
        · exact absurd h (by simp)
        · rw [← Option.some.inj h]
          exact (((StoreOnly.refl _ s).pageFor _ 1).editPages _ _).sto _ _ _ _ _ _ _
    all_goals
      dsimp only at h
      split at h
      · exact absurd h (by simp)
      · rw [← Option.some.inj h]
        exact (((StoreOnly.refl _ s).pageFor _ 1).editPages _ _).sto _ _ _ _ _ _ _

theorem StoreOnly.placeAll {s t} (n : Nat) (h : StoreOnly pumpKeys s t) : StoreOnly pumpKeys s (t.placeAll n) := by
  induction n generalizing t with
  | zero => exact h
  | succ n ih =>
    unfold State.placeAll
    split
    · next hstep => exact ih (h.trans (storeOnly_placeStep hstep))
    · exact h

/-! ### Dies (R384, R385) -/

theorem StoreOnly.refreshDie {K s t} (d) (h : StoreOnly K s t) (hd : Reg.dieState d ∈ K) : StoreOnly K s (t.refreshDie d) := by
  unfold State.refreshDie
  split
  · exact h
  · exact h.wr _ _ hd

theorem StoreOnly.startDie {K s t} (d) (h : StoreOnly K s t) (hd : Reg.dieState d ∈ K) : StoreOnly K s (t.startDie d) := by
  unfold State.startDie
  split
  · exact h.refreshDie d hd
  · split
    · exact h.refreshDie d hd
    · exact (h.sto _ _ _ _ _ _ _).refreshDie d hd
    · split
      · exact (h.sto _ _ _ _ _ _ _).refreshDie d hd
      · exact ((h.editPages _ _).sto _ _ _ _ _ _ _).refreshDie d hd

/-- The registers that show what the dies do. -/
def dieKeys : List Nat := (List.range 4).map Reg.dieState

theorem StoreOnly.startDies {K s t} (h : StoreOnly K s t) (hK : dieKeys ⊆ K) : StoreOnly K s t.startDies :=
  each_keeps (P := StoreOnly K s) [0, 1, 2, 3] _ (fun d hd _ hu => hu.startDie d (hK (List.mem_map_of_mem (f := Reg.dieState) hd))) h

theorem StoreOnly.pump {s t} (h : StoreOnly pumpKeys s t) : StoreOnly pumpKeys s t.pump := by
  have hplaced := h.closeRow.placeAll (8 * t.closeRow.sto.todo.length + 8)
  unfold State.pump
  split
  · exact h
  · dsimp only
    split
    · exact hplaced.padOpen.startDies (by decide)
    · exact hplaced.startDies (by decide)

theorem storeOnly_pump (s : State) : StoreOnly pumpKeys s s.pump := (StoreOnly.refl _ s).pump

end Sys2Proof.Machine
end

section
/-! SUPPORT. Shakeout: what a read of the next record, its marks and its dies may touch; the summary ring's next record
(spec/14_pour_and_shakeout.md R367-R371; spec/15_image_store.md R401; spec/16_onchip_flash.md R415-R418). -/
namespace Sys2Proof.Machine

/-! ### Records, reads and streams -/

theorem takeRx_spec {s u : State} {c : RxFrame → Bool} {f : RxFrame} (h : s.takeRx c = some (f, u)) :
    u = { s with ll := { s.ll with rxq := s.ll.rxq.erase f } } := by
  unfold State.takeRx at h
  split at h
  · split at h
    · obtain ⟨rfl, rfl⟩ := Prod.mk.inj (Option.some.inj h)
      rfl
    · exact absurd h (by simp)
  · exact absurd h (by simp)

theorem takeRx_rd {s u : State} {c : RxFrame → Bool} {f : RxFrame} (h : s.takeRx c = some (f, u)) (k : Nat) : u.rd k = s.rd k := by
  rw [takeRx_spec h]
  rfl

theorem takeRx_keeps {s u : State} {c : RxFrame → Bool} {f : RxFrame} (h : s.takeRx c = some (f, u)) : u.shk = s.shk ∧ u.sto = s.sto := by
  rw [takeRx_spec h]
  exact ⟨rfl, rfl⟩

theorem takeRx_frame {s u : State} {c : RxFrame → Bool} {f : RxFrame} (K H : List Nat) (h : s.takeRx c = some (f, u)) : Frame K H s u := by
  rw [takeRx_spec h]
  exact (Frame.refl ..).ll _

theorem recDies_of_nand {s t : State} (h : t.sto.nand = s.sto.nand) (st seq : Nat) : t.recDies st seq = s.recDies st seq := by
  unfold State.recDies State.logPages
  rw [h]

theorem shakeOf_of_shk {s t : State} (h : t.shk = s.shk) (st : Nat) : t.shakeOf st = s.shakeOf st := by
  rw [State.shakeOf, h, State.shakeOf]

theorem shakeOf_setShake (s : State) (st : Nat) (x : ShakeStream) (i : Nat) :
    (s.setShake st x).shakeOf i = if i = st then x else s.shakeOf i := tget_tset ..

theorem shakeOf_setShake_same (s : State) (st : Nat) (x : ShakeStream) : (s.setShake st x).shakeOf st = x := tget_tset_same ..

theorem Frame.setShake {K H s t} (st x) (h : Frame K H s t) : Frame K H s (t.setShake st x) := h.shk _

theorem unreadableEpoch_ne {i j : Nat} (h : i ≠ j) : Reg.unreadableEpoch i ≠ Reg.unreadableEpoch j := by
  simp only [Reg.unreadableEpoch, rkey]
  omega

/-! ### An unreadable record (R401) -/

/-- The registers that tell of unreadable records. -/
def unreadKeys : List Nat := eventKeys ++ [Reg.isFlags, Reg.unreadableRecs] ++ allStreams.map Reg.unreadableEpoch

theorem unreadableEpoch_apart : ∀ st ∈ allStreams, Reg.unreadableEpoch st ∉ eventKeys ∧ Reg.unreadableEpoch st ≠ Reg.isFlags ∧
    Reg.unreadableEpoch st ≠ Reg.unreadableRecs := by decide

/-- The stream ends before the record. -/
def State.streamStopped (s : State) (st : Nat) : State :=
  s.setShake st { s.shakeOf st with stop := some (s.shakeOf st).next, read := 0, tries := 0 }

/-- The record is counted and named. -/
def State.recLost (s : State) (st : Nat) (r : Rec) : State :=
  (((s.streamStopped st).wr (Reg.unreadableEpoch st) r.epoch).bump Reg.unreadableRecs).flag Reg.isFlags 5

theorem unreadable_eq (s : State) (st : Nat) (r : Rec) : s.unreadable st r = (s.recLost st r).event 0x4108 st 0 r.epoch r.seq := rfl

theorem unreadable_spec (s : State) {st : Nat} (r : Rec) (hst : st ∈ allStreams) :
    (s.unreadable st r).shk = (s.streamStopped st).shk ∧
    (s.unreadable st r).rd (Reg.unreadableEpoch st) = fit (Reg.unreadableEpoch st) r.epoch ∧
    (s.unreadable st r).bitOf Reg.isFlags 5 = true ∧
    (∀ i ∈ allStreams, i ≠ st → (s.unreadable st r).rd (Reg.unreadableEpoch i) = s.rd (Reg.unreadableEpoch i)) ∧
    Frame unreadKeys [] s (s.unreadable st r) := by
  have hevent := logOnly_event (s.recLost st r) 0x4108 st 0 r.epoch r.seq
  have hrd : ∀ i ∈ allStreams, (s.unreadable st r).rd (Reg.unreadableEpoch i) =
      ((s.streamStopped st).wr (Reg.unreadableEpoch st) r.epoch).rd (Reg.unreadableEpoch i) := fun i hi => by
    obtain ⟨hevents, hflags, hrecs⟩ := unreadableEpoch_apart i hi
    rw [unreadable_eq, hevent.rd hevents, State.recLost, rd_flag_ne _ _ hflags, rd_bump_ne _ hrecs]
  rw [← unreadable_eq] at hevent
  refine ⟨?_, ?_, ?_, fun i hi hne => ?_, ?_⟩
  · rw [unreadable_eq, State.event_shk]
    rfl
  · rw [hrd st hst]
    exact State.rd_wr_same ..
  · rw [bitOf_of_rd 5 (hevent.rd (by decide))]
    exact bitOf_flag _ (by decide)
  · rw [hrd i hi, State.rd_wr_ne _ _ (unreadableEpoch_ne hne)]
    rfl
  · have hkey : Reg.unreadableEpoch st ∈ unreadKeys := List.mem_append_right _ (mem_map_streams _ hst)
    exact hevent.frame (List.subset_append_of_subset_left _ (List.subset_append_left ..))
      ((((Frame.refl ..).setShake _ _).wr _ _ hkey).bump _ (by decide) |>.flag _ _ (by decide))

/-! ### What a shakeout does by itself -/

/-- The registers it may change. -/
def shakenKeys : List Nat := eventKeys ++ sendKeys ++ [Reg.isFlags, Reg.unreadableRecs] ++ allStreams.map Reg.unreadableEpoch ++ dieKeys

/-- What it leaves as it is: how far each stream has come, and the end of a stream that has come to it. -/
structure Shaken (s t : State) : Prop where
  frame : Frame shakenKeys [] s t
  fixed : t.shk.fixed = s.shk.fixed
  next : ∀ i ∈ allStreams, (t.shakeOf i).next = (s.shakeOf i).next
  recs : ∀ i ∈ allStreams, (t.shakeOf i).recs = (s.shakeOf i).recs
  ended : ∀ i ∈ allStreams, (s.shakeOf i).limit ≤ (s.shakeOf i).next →
    (t.shakeOf i).stop = (s.shakeOf i).stop ∧ t.rd (Reg.unreadableEpoch i) = s.rd (Reg.unreadableEpoch i)
  flag : s.bitOf Reg.isFlags 5 = true → t.bitOf Reg.isFlags 5 = true

theorem Shaken.trans {s t u} (h1 : Shaken s t) (h2 : Shaken t u) : Shaken s u := by
  refine ⟨h1.frame.trans h2.frame, h2.fixed.trans h1.fixed, fun i hi => (h2.next i hi).trans (h1.next i hi),
    fun i hi => (h2.recs i hi).trans (h1.recs i hi), fun i hi hend => ?_, fun hf => h2.flag (h1.flag hf)⟩
  obtain ⟨hstop, hepoch⟩ := h1.ended i hi hend
  have hlimit : (t.shakeOf i).limit ≤ (t.shakeOf i).next := by
    rw [ShakeStream.limit, hstop, h1.recs i hi, h1.next i hi]
    exact hend
  obtain ⟨hstop2, hepoch2⟩ := h2.ended i hi hlimit
  exact ⟨hstop2.trans hstop, hepoch2.trans hepoch⟩

/-- Frames, dies and events leave every stream as it is. -/
theorem shaken_of_frame {s t : State} {K : List Nat} (hframe : Frame K [] s t) (hK : K ⊆ eventKeys ++ sendKeys ++ dieKeys)
    (hshk : t.shk = s.shk) : Shaken s t := by
  have hwide := hframe.mono hK fun _ h => h
  have hout : ∀ i ∈ allStreams, Reg.unreadableEpoch i ∉ eventKeys ++ sendKeys ++ dieKeys := by decide
  exact ⟨hwide.mono (by decide) fun _ h => h, by rw [hshk], fun i _ => by rw [shakeOf_of_shk hshk],
    fun i _ => by rw [shakeOf_of_shk hshk], fun i hi _ => ⟨by rw [shakeOf_of_shk hshk], hwide.rd (hout i hi)⟩,
    fun hf => by rw [bitOf_of_rd 5 (hwide.rd (by decide))]; exact hf⟩

theorem Shaken.refl (s) : Shaken s s := shaken_of_frame (K := []) (.refl ..) (by simp) rfl

theorem shaken_send (s : State) (f : TxFrame) : Shaken s (s.send f) :=
  shaken_of_frame (.send f (.refl ..) fun _ h => h) (by decide) (by obtain ⟨_, _, h, _⟩ := sendOnly_send s f; rw [h])

theorem shaken_startDies (s : State) : Shaken s s.startDies := by
  have hdies := (StoreOnly.refl dieKeys s).startDies fun _ h => h
  refine shaken_of_frame (hdies.frame (fun _ h => h) (.refl ..)) (by decide) ?_
  obtain ⟨_, _, _, _, _, _, _, _, h, _⟩ := hdies
  rw [h]

/-- A note about a stream that leaves its place. -/
theorem shaken_setShake (s : State) (st : Nat) {x : ShakeStream} (hnext : x.next = (s.shakeOf st).next)
    (hrecs : x.recs = (s.shakeOf st).recs) (hstop : x.stop = (s.shakeOf st).stop) : Shaken s (s.setShake st x) := by
  have hkeeps : ∀ i, ((s.setShake st x).shakeOf i).next = (s.shakeOf i).next ∧ ((s.setShake st x).shakeOf i).recs = (s.shakeOf i).recs ∧
      ((s.setShake st x).shakeOf i).stop = (s.shakeOf i).stop := fun i => by
    rw [shakeOf_setShake]
    split
    · next h => rw [h]; exact ⟨hnext, hrecs, hstop⟩
    · exact ⟨rfl, rfl, rfl⟩
  exact ⟨(Frame.refl ..).setShake st x, rfl, fun i _ => (hkeeps i).1, fun i _ => (hkeeps i).2.1, fun i _ _ => ⟨(hkeeps i).2.2, rfl⟩, id⟩

/-- An unreadable record ends a stream that had not come to its end. -/
theorem shaken_unreadable {s : State} {st : Nat} (r : Rec) (hst : st ∈ allStreams) (hopen : (s.shakeOf st).next < (s.shakeOf st).limit) :
    Shaken s (s.unreadable st r) := by
  obtain ⟨hshk, _, hflag, hother, hframe⟩ := unreadable_spec s r hst
  have hof : ∀ i, (s.unreadable st r).shakeOf i = (s.streamStopped st).shakeOf i := shakeOf_of_shk hshk
  have hkeeps : ∀ i, ((s.streamStopped st).shakeOf i).next = (s.shakeOf i).next ∧
      ((s.streamStopped st).shakeOf i).recs = (s.shakeOf i).recs := fun i => by
    rw [State.streamStopped, shakeOf_setShake]
    split
    · next h => rw [h]; exact ⟨rfl, rfl⟩
    · exact ⟨rfl, rfl⟩
  refine ⟨hframe.mono (by decide) fun _ h => h, by rw [hshk]; rfl, fun i _ => by rw [hof]; exact (hkeeps i).1,
    fun i _ => by rw [hof]; exact (hkeeps i).2, fun i hi hend => ?_, fun _ => hflag⟩
  have hne : i ≠ st := fun he => absurd hopen (Nat.not_lt.mpr (he ▸ hend))
  refine ⟨?_, hother i hi hne⟩
  rw [hof, State.streamStopped, shakeOf_setShake, if_neg hne]

/-! ### The steps of a stream (R370) -/

/-- A stream's dross is told first. -/
def State.drossTold (s : State) (st : Nat) : State :=
  if (s.shakeOf st).drossSent then s
  else (s.setShake st { s.shakeOf st with drossSent := true }).iff (s.rd (Reg.drossRecs st) ≠ 0)
    (fun s => s.shakeMark st 2 (s.rd (Reg.drossEpoch st)) (s.rd (Reg.drossRecs st)))

/-- A record whose pages have left the log cannot be read. -/
def State.leftTold (s : State) (st : Nat) : State :=
  match s.shakeNext st with
  | some r => if (s.recDies st r.seq).isEmpty then s.unreadable st r else s
  | none => s

/-- A stream's end is told last. -/
def State.endTold (s : State) (st : Nat) : State :=
  if (s.shakeOf st).limit ≤ (s.shakeOf st).next && !(s.shakeOf st).markSent then
    (s.setShake st { s.shakeOf st with markSent := true }).shakeMark st 1 (s.completeMark st).1 (s.completeMark st).2
  else s

theorem shakeStep_eq (st : Nat) (s : State) : State.shakeStep st s =
    if s.rd Reg.shakeState ≠ 2 || s.bitOf Reg.shakeReleased st then s else ((s.drossTold st).leftTold st).endTold st := rfl

theorem shaken_drossTold (s : State) (st : Nat) : Shaken s (s.drossTold st) := by
  have hset := shaken_setShake s st (x := { s.shakeOf st with drossSent := true }) rfl rfl rfl
  unfold State.drossTold State.iff
  split
  · exact .refl s
  · split
    · exact hset.trans (shaken_send ..)
    · exact hset

theorem shakeNext_limit {s : State} {st : Nat} {r : Rec} (h : s.shakeNext st = some r) : (s.shakeOf st).next < (s.shakeOf st).limit := by
  unfold State.shakeNext at h
  obtain ⟨hcond, _⟩ := Option.ite_none_right_eq_some.mp h
  exact of_decide_eq_true (Bool.and_eq_true_iff.mp hcond).2

theorem shaken_leftTold (s : State) {st : Nat} (hst : st ∈ allStreams) : Shaken s (s.leftTold st) := by
  unfold State.leftTold
  split
  · next r hnext =>
    split
    · exact shaken_unreadable r hst (shakeNext_limit hnext)
    · exact .refl s
  · exact .refl s

theorem shaken_endTold (s : State) (st : Nat) : Shaken s (s.endTold st) := by
  unfold State.endTold
  split
  · exact (shaken_setShake s st (x := { s.shakeOf st with markSent := true }) rfl rfl rfl).trans (shaken_send ..)
  · exact .refl s

theorem shaken_shakeStep (s : State) {st : Nat} (hst : st ∈ allStreams) : Shaken s (State.shakeStep st s) := by
  rw [shakeStep_eq]
  split
  · exact .refl s
  · exact ((shaken_drossTold s st).trans (shaken_leftTold _ hst)).trans (shaken_endTold ..)

theorem shaken_shakePump (s : State) : Shaken s s.shakePump := by
  unfold State.shakePump
  split
  · exact (each_keeps (P := Shaken s) allStreams State.shakeStep (fun _ hst u hu => hu.trans (shaken_shakeStep u hst)) (.refl s)).trans
      (shaken_startDies _)
  · exact .refl s

/-! ### The summary ring (R415-R418) -/

/-- The registers that follow the summary ring. -/
def sumKeys : List Nat := [Reg.wordsProgrammed, Reg.castPending, Reg.sumSeqLast, Reg.sumValid]

/-- The record stands in its slot. -/
def State.sumPut (s : State) (slot : Nat) (r : SumRec) : State :=
  { s with fla := { s.fla with sums := tput s.fla.sums slot (some { r with seq := s.sumSeqNext }) } }.bumpBy Reg.wordsProgrammed 32

theorem refreshSums_rd (s : State) {k : Nat} (hk : k ∉ [Reg.castPending, Reg.sumSeqLast, Reg.sumValid]) : s.refreshSums.rd k = s.rd k := by
  have hframe : Frame [Reg.castPending, Reg.sumSeqLast, Reg.sumValid] [] s s.refreshSums :=
    (((Frame.refl ..).wr _ _ (by decide)).wr _ _ (by decide)).wr _ _ (by decide)
  exact hframe.rd hk

/-- The sectors that wait to be erased are those of a list. -/
def State.waitErase (s : State) (queue : List (Nat × Nat)) : State := { s with fla := { s.fla with queue := queue } }

/-- A record that a half takes stands in the slot with the next SUMMARY_SEQ; the sector after it may wait to be erased. -/
theorem writeSum_eq {s : State} {r : SumRec} {h i : Nat} (hhalf : s.sumHalf = some h) (hslot : s.sumSlot h = some i) :
    ∃ queue, s.writeSum r = some ((s.sumPut (64 * h + i) r).waitErase queue).refreshSums := by
  have hwrite : s.writeSum r = some ((s.sumPut (64 * h + i) r).iff ((s.sumPut (64 * h + i) r).fla.sums.any (fun e =>
      e.1 / 64 = h && e.1 % 64 / 8 = (i / 8 + 1) % 8)) (·.queueErase h (32 + (i / 8 + 1) % 8))).refreshSums := by
    unfold State.writeSum
    rw [hhalf]
    dsimp only
    rw [hslot]
    rfl
  rw [hwrite, State.iff]
  split
  · obtain ⟨queue, hq⟩ := queueErase_eq (s.sumPut (64 * h + i) r) h (32 + (i / 8 + 1) % 8)
    exact ⟨queue, by rw [hq, State.waitErase]⟩
  · exact ⟨(s.sumPut (64 * h + i) r).fla.queue, rfl⟩

theorem refreshSums_only (s : State) : s.refreshSums = { s with reg := s.refreshSums.reg } := rfl

theorem waitErase_rd (s : State) (queue : List (Nat × Nat)) (k : Nat) : (s.waitErase queue).rd k = s.rd k := rfl

theorem sumPut_only (s : State) (slot : Nat) (r : SumRec) : s.sumPut slot r = { s with
    reg := (s.sumPut slot r).reg, fla := { s.fla with sums := tput s.fla.sums slot (some { r with seq := s.sumSeqNext }) } } := rfl

theorem sumPut_rd (s : State) (slot : Nat) (r : SumRec) :
    (s.sumPut slot r).rd Reg.wordsProgrammed = fit Reg.wordsProgrammed (s.rd Reg.wordsProgrammed + 32) ∧
    ∀ k, k ≠ Reg.wordsProgrammed → (s.sumPut slot r).rd k = s.rd k :=
  ⟨State.rd_wr_same .., fun _ hk => State.rd_wr_ne _ _ hk⟩

theorem writeSum_spec {s : State} {r : SumRec} {h i : Nat} (hhalf : s.sumHalf = some h) (hslot : s.sumSlot h = some i) :
    ∃ v reg queue, s.writeSum r = some v ∧
      v = { s with reg := reg, fla := { s.fla with sums := tput s.fla.sums (64 * h + i) (some { r with seq := s.sumSeqNext }), queue := queue } } ∧
      v.rd Reg.wordsProgrammed = fit Reg.wordsProgrammed (s.rd Reg.wordsProgrammed + 32) ∧ ∀ k, k ∉ sumKeys → v.rd k = s.rd k := by
  obtain ⟨queue, hwrite⟩ := writeSum_eq (r := r) hhalf hslot
  obtain ⟨hwords, hkeep⟩ := sumPut_rd s (64 * h + i) r
  refine ⟨((s.sumPut (64 * h + i) r).waitErase queue).refreshSums, ((s.sumPut (64 * h + i) r).waitErase queue).refreshSums.reg, queue,
    hwrite, ?_, ?_, fun k hk => ?_⟩
  · rw [refreshSums_only, State.waitErase, sumPut_only]
  · rw [refreshSums_rd _ (by decide), waitErase_rd, hwords]
  · rw [refreshSums_rd _ fun hin => hk (List.mem_cons_of_mem _ hin), waitErase_rd, hkeep k fun he => hk (he ▸ List.mem_cons_self)]

end Sys2Proof.Machine
end

section
/-! PROOF. Shakeout's commands, its reads and its confirmation record (spec/14_pour_and_shakeout.md R368, R371;
spec/15_image_store.md R401). -/
namespace Sys2Proof.Machine

/-! ### Commands (R368) -/

theorem exec_shakeStart {s u : State} {f : RxFrame}
    (htake : s.takeRx (fun g => g.ty = 0x15 && g.payload.getD 4 0 ≠ 2 && g.payload.getD 4 0 ≠ 3) = some (f, u)) :
    exec .shakeStart s = .next (u.shakeCtl f.payload (fun s =>
      if f.payload.getD 4 0 = 1 then s.shakeStart f.payload else s.llViolation Vc.order)) := by
  show execShakeStart s = _
  unfold execShakeStart
  rw [htake]

theorem exec_shakePause {s u : State} {f : RxFrame} (htake : s.takeRx (fun g => g.ty = 0x15 && g.payload.getD 4 0 = 2) = some (f, u)) :
    exec .shakePause s = .next (u.shakeCtl f.payload (fun s =>
      if s.rd Reg.shakeState = 2 then s.wr Reg.shakeState 3 else s.llViolation Vc.order)) := by
  show execShakePause s = _
  unfold execShakePause
  rw [htake]

theorem exec_shakeConfirm {s u : State} {f : RxFrame} (htake : s.takeRx (fun g => g.ty = 0x15 && g.payload.getD 4 0 = 3) = some (f, u)) :
    exec .shakeConfirm s = .next (u.shakeCtl f.payload (fun s => s.confirmShake false)) := by
  show execShakeConfirm s = _
  unfold execShakeConfirm
  rw [htake]

theorem shakeCtl_taken {s : State} {p : List Nat} {f : State → State} (hruns : s.rd Reg.shakeState ≠ 0)
    (hheat : field p 0 4 = s.rd Reg.shakeHeat) : s.shakeCtl p f = f s := if_neg (by simp [hruns, hheat])

theorem shakeCtl_other {s : State} {p : List Nat} {f : State → State} (hheat : field p 0 4 ≠ s.rd Reg.shakeHeat) :
    s.shakeCtl p f = s.llViolation Vc.order := if_pos (by simp [hheat])

/-- What changes notes about streams only. -/
def ShakeOnly (s t : State) : Prop := ∃ shk, t = { s with shk := shk }

theorem each_setShake (l : List Nat) (x : Nat → State → ShakeStream) (s : State) : ShakeOnly s (s.each l (fun i u => u.setShake i (x i u))) :=
  each_keeps (P := ShakeOnly s) l _ (fun i _ u hu => by obtain ⟨_, rfl⟩ := hu; exact ⟨_, rfl⟩) ⟨s.shk, rfl⟩

/-- A run after the first counts as a resume. -/
def State.resumed (s : State) : State := s.iff s.shk.fixed (·.bump Reg.shakeResumes)

/-- The sets are fixed, no die reads, what waits for the link is as it is now. -/
def State.shakeBegun (s : State) (shk : Shake) (ll : LinkLayer) : State :=
  { s.resumed with shk := { shk with fixed := true }, sto := { s.resumed.sto with reads := [] }, ll := ll }

theorem shakeStart_fromFirst {s : State} {p : List Nat} (hmask : p.getD 5 0 = 0)
    (hstate : s.rd Reg.shakeState = 1 ∨ s.rd Reg.shakeState = 2 ∨ s.rd Reg.shakeState = 3) :
    ∃ shk ll, s.shakeStart p = ((s.shakeBegun shk ll).wr Reg.shakeState 2).shakePump := by
  unfold State.shakeStart
  extract_lets st recsOf mask named held s1 s2 ll sto shk s3
  have hgo : ¬((!(st = 1 || st = 2 || st = 3) || held.any (fun i => mask.testBit i && (named i).isNone)) = true) := by
    have hnone : ∀ i, mask.testBit i = false := fun i => by rw [show mask = 0 from hmask, Nat.zero_testBit]
    have hst : st = 1 ∨ st = 2 ∨ st = 3 := hstate
    rcases hst with h | h | h <;> simp [h, hnone]
  have hshake : ShakeOnly s.resumed s2 := each_setShake ..
  obtain ⟨notes, hnotes⟩ := hshake
  have hbegun : s3 = s.shakeBegun notes s3.ll := by
    dsimp only [s3, shk, sto, ll]
    rw [hnotes, State.shakeBegun]
  exact ⟨notes, s3.ll, by rw [if_neg hgo, ← hbegun]⟩

theorem resumed_spec (s : State) : Frame [Reg.shakeResumes] [] s s.resumed ∧ (s.shk.fixed = true → Counts Reg.shakeResumes s s.resumed) := by
  refine ⟨.iff _ _ (fun h => h.bump _ (by simp)) (.refl ..), fun hfixed => ?_⟩
  rw [State.resumed, hfixed]
  exact counts_bump ..

theorem shakeBegun_spec (s : State) (shk : Shake) (ll : LinkLayer) : (s.shakeBegun shk ll).shk.fixed = true ∧
    (∀ k, (s.shakeBegun shk ll).rd k = s.resumed.rd k) ∧ Frame [Reg.shakeResumes] [] s (s.shakeBegun shk ll) :=
  ⟨rfl, fun _ => rfl, (resumed_spec s).1.of_eq rfl rfl ⟨fun _ => rfl, rfl, rfl, rfl, rfl, rfl, .of_eq rfl⟩⟩

/-- A shakeout is sent from its first record. -/
theorem shakeStart_spec {s : State} {p : List Nat} (hmask : p.getD 5 0 = 0)
    (hstate : s.rd Reg.shakeState = 1 ∨ s.rd Reg.shakeState = 2 ∨ s.rd Reg.shakeState = 3) :
    (s.shakeStart p).rd Reg.shakeState = 2 ∧ (s.shakeStart p).shk.fixed = true ∧
    (s.shk.fixed = true → Counts Reg.shakeResumes s (s.shakeStart p)) ∧
    Frame (Reg.shakeState :: Reg.shakeResumes :: shakenKeys) [] s (s.shakeStart p) := by
  obtain ⟨shk, ll, heq⟩ := shakeStart_fromFirst hmask hstate
  obtain ⟨hfixed, hrd, hbegun⟩ := shakeBegun_spec s shk ll
  have hpump := shaken_shakePump ((s.shakeBegun shk ll).wr Reg.shakeState 2)
  rw [heq]
  refine ⟨?_, ?_, fun h => ?_, ?_⟩
  · rw [hpump.frame.rd (by decide)]
    exact rd_wr_of_lt _ (by decide)
  · rw [hpump.fixed, State.wr_shk, hfixed]
  · rw [Counts, hpump.frame.rd (by decide), State.rd_wr_ne _ _ (by decide), hrd]
    exact (resumed_spec s).2 h
  · exact ((hbegun.mono (by decide) fun _ h => h).wr _ _ (by decide)).trans (hpump.frame.mono (by decide) fun _ h => h)

/-! ### Reads (R401) -/

/-- The die has read. -/
def State.readEnded (s : State) (d : Nat) : State := { s with sto := { s.sto with reads := terase s.sto.reads d } }

theorem Frame.readEnded {K H s t} (d) (h : Frame K H s t) : Frame K H s (t.readEnded d) :=
  h.of_eq rfl rfl ⟨fun _ => rfl, rfl, rfl, rfl, rfl, rfl, .of_eq rfl⟩

/-- The page has read. -/
def State.pageRead (s : State) (d bits tries : Nat) : State :=
  ((s.corrected d bits).iff (tries ≠ 0) (·.bump Reg.readRetriesOk)).readEnded d

theorem exec_shakeoutReadDone_last {s : State} {d : Die} {bits st : Nat} {r : Rec} (hreads : tget 0 s.sto.reads d ≠ 0)
    (hst : st = (tget 0 s.sto.reads d - 1) % 8) (hrec : (s.shakeOf st).recs[(s.shakeOf st).next]? = some r) (hbits : bits ≤ 40)
    (hstate : (s.pageRead d bits (s.shakeOf st).tries).rd Reg.shakeState = 2)
    (hlast : ((s.pageRead d bits (s.shakeOf st).tries).recDies st r.seq).length ≤ (s.shakeOf st).read + 1) :
    exec (.shakeoutReadDone d bits true) s = .next (((s.pageRead d bits (s.shakeOf st).tries).setShake st
      { s.shakeOf st with next := (s.shakeOf st).next + 1, read := 0, tries := 0 }).shakeRec r).shakePump := by
  show execShakeoutReadDone d bits true s = _
  unfold execShakeoutReadDone
  dsimp only
  rw [if_neg hreads, ← hst, hrec]
  dsimp only
  rw [if_pos hbits]
  refine (if_neg (not_not.mpr hstate)).trans ((if_neg (by simp)).trans (if_pos hlast))

theorem exec_shakeoutReadDone_again {s : State} {d : Die} {bits st : Nat} (ok : Bool) {r : Rec} (hreads : tget 0 s.sto.reads d ≠ 0)
    (hst : st = (tget 0 s.sto.reads d - 1) % 8) (hrec : (s.shakeOf st).recs[(s.shakeOf st).next]? = some r) (hbits : 40 < bits)
    (htries : (s.shakeOf st).tries < s.rd Reg.readRetries) :
    exec (.shakeoutReadDone d bits ok) s = .next (s.setShake st { s.shakeOf st with tries := (s.shakeOf st).tries + 1 }) := by
  show execShakeoutReadDone d bits ok s = _
  unfold execShakeoutReadDone
  dsimp only
  rw [if_neg hreads, ← hst, hrec]
  exact (if_neg (by omega)).trans (if_pos htries)

theorem exec_shakeoutReadDone_lost {s : State} {d : Die} {bits st : Nat} (ok : Bool) {r : Rec} (hreads : tget 0 s.sto.reads d ≠ 0)
    (hst : st = (tget 0 s.sto.reads d - 1) % 8) (hrec : (s.shakeOf st).recs[(s.shakeOf st).next]? = some r) (hbits : 40 < bits)
    (htries : s.rd Reg.readRetries ≤ (s.shakeOf st).tries) :
    exec (.shakeoutReadDone d bits ok) s = .next (((s.readEnded d).unreadable st r).shakePump) := by
  show execShakeoutReadDone d bits ok s = _
  unfold execShakeoutReadDone
  dsimp only
  rw [if_neg hreads, ← hst, hrec]
  exact (if_neg (by omega)).trans (if_neg (by omega))

theorem corrected_frame (s : State) (d bits : Nat) : Frame (eventKeys ++ [Reg.maxCorrected d, Reg.isFlags]) [] s (s.corrected d bits) := by
  have hmax : Frame (eventKeys ++ [Reg.maxCorrected d, Reg.isFlags]) [] s (s.wr (Reg.maxCorrected d) (max bits (s.rd (Reg.maxCorrected d)))) :=
    (Frame.refl ..).wr _ _ (by simp)
  unfold State.corrected
  exact .ite (fun _ => (hmax.flag _ _ (by simp)).event _ _ _ _ _ (List.subset_append_left ..)) fun _ => hmax

theorem corrected_keeps (s : State) (d bits : Nat) : (s.corrected d bits).sto = s.sto ∧ (s.corrected d bits).shk = s.shk ∧
    (s.corrected d bits).phase = s.phase := by
  unfold State.corrected
  dsimp only
  split
  · exact ⟨State.event_sto .., State.event_shk .., State.event_phase ..⟩
  · exact ⟨rfl, rfl, rfl⟩

theorem pageRead_spec (s : State) (d bits tries : Nat) :
    Frame (eventKeys ++ [Reg.maxCorrected d, Reg.isFlags, Reg.readRetriesOk]) [] s (s.pageRead d bits tries) ∧
    (s.pageRead d bits tries).sto.nand = s.sto.nand := by
  refine ⟨.readEnded _ (.iff _ _ (fun h => h.bump _ (by simp)) ?_), ?_⟩
  · exact (corrected_frame s d bits).mono (by simp) fun _ h => h
  · obtain ⟨hsto, _, _⟩ := corrected_keeps s d bits
    show ((s.corrected d bits).iff (tries ≠ 0) (·.bump Reg.readRetriesOk)).sto.nand = _
    unfold State.iff
    split
    · rw [State.bump_sto, hsto]
    · rw [hsto]

/-! ### The confirmation record (R371) -/

/-- No confirmation waits; the casting of its heat is confirmed. -/
def State.castConfirmed (s : State) (heat : Nat) : State :=
  { s with shk := { s.shk with confirm := none }
           sto := { s.sto with unconfirmed := s.sto.unconfirmed && !decide (s.sto.cast.map (·.heat) = some heat) } }

/-- The confirmation is stamped and counted. -/
def State.confirmStamped (s : State) (heat : Nat) : State := ((s.castConfirmed heat).wr Reg.shakeStamp s.stamp).bump Reg.confirms

theorem exec_confirmationWritten {s v : State} {r : SumRec} (hrec : s.shk.confirm = some r)
    (hwrite : s.writeSum { r with stamp := s.stamp } = some v) :
    exec .confirmationWritten s = .next (v.confirmStamped r.heat).statusIfChanged := by
  show execConfirmationWritten s = _
  unfold execConfirmationWritten
  rw [hrec]
  dsimp only
  rw [hwrite]
  rfl

theorem confirmStamped_spec (s : State) (heat : Nat) : (s.confirmStamped heat).shk.confirm = none ∧
    (s.confirmStamped heat).rd Reg.shakeStamp = fit Reg.shakeStamp s.stamp ∧ Counts Reg.confirms s (s.confirmStamped heat) ∧
    (s.sto.cast.map (·.heat) = some heat → (s.confirmStamped heat).sto.unconfirmed = false) ∧
    Frame [Reg.shakeStamp, Reg.confirms] [] s (s.confirmStamped heat) := by
  have hframe : Frame [Reg.shakeStamp, Reg.confirms] [] s (s.castConfirmed heat) :=
    (Frame.refl ..).of_eq rfl rfl ⟨fun _ => rfl, rfl, rfl, rfl, rfl, rfl, .of_eq rfl⟩
  refine ⟨rfl, ?_, ?_, fun hmine => ?_, (hframe.wr _ _ (by simp)).bump _ (by simp)⟩
  · rw [State.confirmStamped, rd_bump_ne _ (by decide)]
    exact State.rd_wr_same ..
  · rw [Counts, State.confirmStamped, rd_bump, State.rd_wr_ne _ _ (by decide)]
    rfl
  · show (s.sto.unconfirmed && !decide (s.sto.cast.map (·.heat) = some heat)) = false
    simp [hmine]

theorem shaken_shakeRec (s : State) (r : Rec) : Shaken s (s.shakeRec r) := shaken_send ..

theorem shakeState_apart : ∀ d : Die, Reg.shakeState ∉ eventKeys ++ [Reg.maxCorrected d, Reg.isFlags, Reg.readRetriesOk] := by decide

/-- The registers that a read which ends well may change. -/
def readKeys (d : Die) : List Nat :=
  eventKeys ++ sendKeys ++ [Reg.maxCorrected d, Reg.isFlags, Reg.readRetriesOk, Reg.unreadableRecs] ++ allStreams.map Reg.unreadableEpoch ++
    dieKeys

theorem shakenKeys_subset_read : ∀ d : Die, eventKeys ++ [Reg.maxCorrected d, Reg.isFlags, Reg.readRetriesOk] ⊆ readKeys d ∧
    shakenKeys ⊆ readKeys d := by decide

/-- Settles O29: each command acts as its part of the protocol says on the state its frame was taken from; a read that ends moves its
stream on, tries again, or ends the stream, and what the shakeout then does by itself leaves that standing. -/
theorem shakeoutIsCommandedAndReads : Obligations.ShakeoutIsCommandedAndReads := by
  unfold Obligations.ShakeoutIsCommandedAndReads
  refine ⟨fun s u f htake hcmd hmask hheat hstate => ?_, fun s u f htake hheat => ?_, fun s u f htake hheat hstate => ?_,
    fun s u f htake hheat hruns => ?_, fun s r h i hrec hhalf hslot => ?_, fun s d bits st r hreads hst hrec hbits hstate hlast => ?_,
    fun s d bits st ok r hreads hst hrec hbits htries => ⟨_, exec_shakeoutReadDone_again ok hreads hst hrec hbits htries, rfl⟩,
    fun s d bits st ok r hreads hst hrec hbits htries => ?_⟩
  case refine_1 =>
    have hexec := exec_shakeStart htake
    have hrd := takeRx_rd htake
    rw [← hrd] at hheat hstate
    rw [shakeCtl_taken (by omega) hheat, if_pos hcmd] at hexec
    obtain ⟨hsent, hfixed, hresumes, hframe⟩ := shakeStart_spec hmask hstate
    rw [(takeRx_keeps htake).1] at hresumes
    exact ⟨_, hexec, hsent, hfixed, fun h => (hresumes h).since (hrd _), (takeRx_frame _ _ htake).trans (hframe.mono (by decide) fun _ h => h)⟩
  case refine_2 =>
    have hexec := exec_shakeStart htake
    have hrd := takeRx_rd htake
    rw [← hrd] at hheat
    rw [shakeCtl_other hheat] at hexec
    obtain ⟨hviol, _, hframe, _⟩ := llViolation_spec u (cls := Vc.order) (by decide)
    exact ⟨_, hexec, hviol.since (hrd _) (hrd _), (hframe.rd (by decide)).trans (hrd _), (takeRx_frame _ _ htake).trans hframe⟩
  case refine_3 =>
    have hexec := exec_shakePause htake
    rw [← takeRx_rd htake] at hheat hstate
    rw [shakeCtl_taken (by omega) hheat, if_pos hstate] at hexec
    exact ⟨_, hexec, rd_wr_of_lt _ (by decide), rfl, (takeRx_frame _ _ htake).wr _ _ (by simp)⟩
  case refine_4 =>
    have hexec := exec_shakeConfirm htake
    have hrd := takeRx_rd htake
    rw [← hrd] at hheat hruns
    rw [shakeCtl_taken hruns hheat] at hexec
    obtain ⟨hended, hreleased, hshake, hconfirm, hunconfirmed, hframe⟩ := confirmShake_spec u false
    refine ⟨_, hexec, hended, hreleased, hshake, hunconfirmed.trans (by rw [(takeRx_keeps htake).2]), ?_, (takeRx_frame _ _ htake).trans hframe⟩
    rw [hconfirm, ← hrd]
    rfl
  case refine_5 =>
    obtain ⟨v, reg, queue, hwrite, heq, _, hrd⟩ := writeSum_spec (r := { r with stamp := s.stamp }) hhalf hslot
    obtain ⟨hconfirm, hstamp, hcounts, hmine, hframe⟩ := confirmStamped_spec v r.heat
    have hsend : Frame sendKeys [] _ (v.confirmStamped r.heat).statusIfChanged := .statusIfChanged (.refl ..) fun _ h => h
    obtain ⟨_, _, hstatus, _⟩ := sendOnly_statusIfChanged (v.confirmStamped r.heat)
    have hquiet : Quiet sumKeys [] s v := ⟨hrd, fun _ _ => by rw [heq]; rfl⟩
    have hall := hframe.mono (K' := [Reg.shakeStamp, Reg.confirms] ++ sendKeys) (List.subset_append_left ..) (fun _ h => h) |>.trans
      (hsend.mono (List.subset_append_right ..) fun _ h => h)
    obtain ⟨hkeys, hcode, _, hnand, hcope, hdrag, hsums, hring⟩ := hall
    have hsto : v.sto = s.sto := by rw [heq]
    refine ⟨_, exec_confirmationWritten hrec hwrite, by rw [hstatus]; exact hconfirm, ?_, ?_, ?_, fun h => ?_, ?_, fun a => ?_, ?_, ?_, ?_, ?_⟩
    · rw [hsums, heq]
    · rw [hsend.rd (by decide), hstamp, heq]
      rfl
    · rw [Counts, hsend.rd (by decide)]
      exact hcounts.since (hrd _ (by decide))
    · rw [hstatus]
      exact hmine (by rw [hsto]; exact h)
    · exact (hquiet.mono (by decide) fun _ h => h).trans (hkeys.mono (by decide) fun _ h => h)
    · rw [hcode, State.codeByte, heq, State.codeByte]
    · rw [hnand, hsto]
    · rw [hcope, heq]
    · rw [hdrag, heq]
    · exact (RingKept.of_eq (by rw [heq])).trans hring
  case refine_6 =>
    obtain ⟨hpage, hnand⟩ := pageRead_spec s d bits (s.shakeOf st).tries
    have hin : st ∈ allStreams := List.mem_range.mpr (by omega)
    have hsent : (s.pageRead d bits (s.shakeOf st).tries).rd Reg.shakeState = 2 := by rw [hpage.rd (shakeState_apart d), hstate]
    rw [← recDies_of_nand hnand] at hlast
    have hexec := exec_shakeoutReadDone_last hreads hst hrec hbits hsent hlast
    have hmoved := ((Frame.refl [] [] (s.pageRead d bits (s.shakeOf st).tries)).setShake st
      { s.shakeOf st with next := (s.shakeOf st).next + 1, read := 0, tries := 0 })
    have hqueued := shaken_shakeRec ((s.pageRead d bits (s.shakeOf st).tries).setShake st
      { s.shakeOf st with next := (s.shakeOf st).next + 1, read := 0, tries := 0 }) r
    have hafter := hqueued.trans (shaken_shakePump _)
    refine ⟨_, hexec, ?_, ?_, ?_⟩
    · exact (hafter.next st hin).trans (by rw [shakeOf_setShake_same])
    · exact (hafter.frame.rd (by decide)).trans hsent
    · have hkeys := shakenKeys_subset_read d
      exact (hpage.mono hkeys.1 fun _ h => h).trans ((hmoved.mono (by simp) fun _ h => h).trans (hafter.frame.mono hkeys.2 fun _ h => h))
  case refine_7 =>
    have hexec := exec_shakeoutReadDone_lost ok hreads hst hrec hbits htries
    have hin : st ∈ allStreams := List.mem_range.mpr (by omega)
    obtain ⟨hshk, hepoch, hflag, _, hframe⟩ := unreadable_spec (s.readEnded d) r hin
    have hpump := shaken_shakePump ((s.readEnded d).unreadable st r)
    have hof : ((s.readEnded d).unreadable st r).shakeOf st =
        { s.shakeOf st with stop := some (s.shakeOf st).next, read := 0, tries := 0 } :=
      (shakeOf_of_shk hshk st).trans (shakeOf_setShake_same ..)
    obtain ⟨hstop, hkept⟩ := hpump.ended st hin (by rw [hof]; exact Nat.le_refl _)
    refine ⟨_, hexec, ?_, hpump.flag hflag, hkept.trans hepoch, ?_⟩
    · rw [hstop, hof]
    · exact ((Frame.refl ..).readEnded d).trans
        ((hframe.mono (by decide) fun _ h => h).trans (hpump.frame.mono (by decide) fun _ h => h))

end Sys2Proof.Machine
end

section
/-! SUPPORT. The dies' blocks: what a page that lands, an erase that ends and a block grown bad leave
(spec/15_image_store.md R382, R386-R389, R392-R395). -/
namespace Sys2Proof.Machine

/-! ### All but the blocks -/

/-- Every register outside a list and every store but the blocks and the summary slots are as before. -/
def Aside (K : List Nat) (s t : State) : Prop :=
  Quiet K [] s t ∧ (∀ a, t.codeByte a = s.codeByte a) ∧ t.fw.record = s.fw.record ∧ t.fla.cope = s.fla.cope ∧ t.fla.drag = s.fla.drag ∧
  RingKept s t

theorem Frame.aside {K s t} (h : Frame K [] s t) : Aside K s t := by
  obtain ⟨hquiet, hcode, hrecord, _, hcope, hdrag, _, hring⟩ := h
  exact ⟨hquiet, hcode, hrecord, hcope, hdrag, hring⟩

theorem Aside.trans {K s t u} (h1 : Aside K s t) (h2 : Aside K t u) : Aside K s u := by
  obtain ⟨a1, a2, a3, a4, a5, a6⟩ := h1
  obtain ⟨b1, b2, b3, b4, b5, b6⟩ := h2
  exact ⟨a1.trans b1, fun a => (b2 a).trans (a2 a), b3.trans a3, b4.trans a4, b5.trans a5, a6.trans b6⟩

theorem Aside.mono {K L s t} (h : Aside K s t) (hK : K ⊆ L) : Aside L s t := ⟨h.1.mono hK fun _ h => h, h.2⟩

theorem Aside.rd {K s t} (h : Aside K s t) {k} (hk : k ∉ K) : t.rd k = s.rd k := h.1.1 k hk

theorem Aside.frame {K s t u} (h : Aside K s t) (hf : Frame K [] t u) : Aside K s u := h.trans hf.aside

theorem Aside.setBlk {K s t} (k b) (h : Aside K s t) : Aside K s (t.setBlk k b) :=
  h.trans ⟨⟨fun _ _ => rfl, fun _ _ => rfl⟩, fun _ => rfl, rfl, rfl, rfl, .of_eq rfl⟩

theorem Frame.nand {K H s t} (h : Frame K H s t) : t.sto.nand = s.sto.nand := by
  obtain ⟨_, _, _, hnand, _⟩ := h
  exact hnand

theorem Frame.sums {K H s t} (h : Frame K H s t) : t.fla.sums = s.fla.sums := by
  obtain ⟨_, _, _, _, _, _, hsums, _⟩ := h
  exact hsums

/-! ### Blocks -/

theorem blk_setBlk (s : State) (k : Nat) (b : Blk) (j : Nat) : (s.setBlk k b).blk j = if j = k then b else s.blk j := tget_tset ..

theorem blk_of_nand {s t : State} (h : t.sto.nand = s.sto.nand) (k : Nat) : t.blk k = s.blk k := by rw [State.blk, h, State.blk]

theorem isBad_of_marks {s t : State} (hbad : t.sto.bad = s.sto.bad) (hmade : t.sto.factory = s.sto.factory)
    (hheld : t.sto.badHeld = s.sto.badHeld) (k : Nat) : t.isBad k = s.isBad k := by
  rw [State.isBad, hbad, hmade, hheld, State.isBad]

theorem StoreOnly.isBad {K s t} (h : StoreOnly K s t) (k) : t.isBad k = s.isBad k := by
  obtain ⟨_, _, _, _, _, _, _, _, rfl, _⟩ := h
  rfl

/-! ### Map pages and grown bad blocks (R382, R389) -/

/-- Queueing a plane's map page leaves a page or an erase that waits. -/
theorem queueMap_only (s : State) (pos : Nat) :
    ∃ pages queue, s.queueMap pos = { s with sto := { s.sto with pages := pages, eraseQueue := queue } } := by
  unfold State.queueMap
  split
  · exact ⟨_, _, rfl⟩
  · dsimp only
    split
    · split
      · exact ⟨_, _, rfl⟩
      · exact ⟨_, _, rfl⟩
    · exact ⟨_, _, rfl⟩

theorem Frame.queueMap {K H s t} (pos) (h : Frame K H s t) : Frame K H s (t.queueMap pos) := by
  obtain ⟨_, _, hmap⟩ := queueMap_only t pos
  rw [hmap]
  exact h.of_eq rfl rfl ⟨fun _ => rfl, rfl, rfl, rfl, rfl, rfl, .of_eq rfl⟩

theorem queueMap_isBad (s : State) (pos k : Nat) : (s.queueMap pos).isBad k = s.isBad k := by
  obtain ⟨_, _, hmap⟩ := queueMap_only s pos
  rw [hmap]
  rfl

theorem wornCheck_frame {K H s t} (h : Frame K H s t) (hK : eventKeys ⊆ K) (hflags : Reg.isFlags ∈ K) : Frame K H s t.wornCheck := by
  unfold State.wornCheck
  exact .ite (fun _ => (h.flag _ _ hflags).event _ _ _ _ _ hK) fun _ => h

theorem wornCheck_sto (s : State) : s.wornCheck.sto = s.sto := by
  unfold State.wornCheck
  dsimp only
  split
  · rw [State.event_sto, State.flag_sto]
  · rfl

/-- Flags that are set stay set as others are. -/
def FlagsKept (s t : State) : Prop := ∀ i, i < 8 * sizeAt Reg.isFlags → s.bitOf Reg.isFlags i = true → t.bitOf Reg.isFlags i = true

theorem FlagsKept.trans {s t u} (h1 : FlagsKept s t) (h2 : FlagsKept t u) : FlagsKept s u := fun i hi h => h2 i hi (h1 i hi h)

theorem flagsKept_of_rd {s t : State} (h : t.rd Reg.isFlags = s.rd Reg.isFlags) : FlagsKept s t := fun i _ hi => by
  rw [bitOf_of_rd i h]
  exact hi

theorem flagsKept_flag (s : State) (j : Nat) : FlagsKept s (s.flag Reg.isFlags j) := fun _ hi h => bitOf_flag_of_bitOf j hi h

theorem flagsKept_event (s : State) (code obj detail a b : Nat) : FlagsKept s (s.event code obj detail a b) :=
  flagsKept_of_rd (State.rd_event s code obj detail a b (by decide))

theorem flagsKept_wornCheck (s : State) : FlagsKept s s.wornCheck := by
  unfold State.wornCheck
  dsimp only
  split
  · exact (flagsKept_flag s 7).trans (flagsKept_event _ _ _ _ _ _)
  · exact fun _ _ h => h

theorem flagsKept_queueMap (s : State) (pos : Nat) : FlagsKept s (s.queueMap pos) := by
  obtain ⟨_, _, hmap⟩ := queueMap_only s pos
  rw [hmap]
  exact fun _ _ h => h

/-- The registers that follow a block grown bad. -/
def badKeys : List Nat := eventKeys ++ [Reg.isFlags, Reg.grownBadCount]

/-- The block's mark is held. -/
def State.markHeld (s : State) (k : Nat) : State := { s with sto := { s.sto with badHeld := s.sto.badHeld ++ [k] } }

/-- The block is counted and told. -/
def State.badMarked (s : State) (k : Nat) : State :=
  (((s.markHeld k).flag Reg.isFlags 3).bump Reg.grownBadCount).event 0x4104 (dieOf (k / 1024)) (planeOf (k / 1024)) (k % 1024)

theorem growBad_eq (s : State) (k : Nat) :
    s.growBad k = if s.isBad k then s else (s.badMarked k).wornCheck.queueMap (k / 1024) := rfl

theorem markHeld_frame (s : State) (k : Nat) : Frame [] [] s (s.markHeld k) :=
  (Frame.refl ..).of_eq rfl rfl ⟨fun _ => rfl, rfl, rfl, rfl, rfl, rfl, .of_eq rfl⟩

theorem badMarked_spec (s : State) (k : Nat) : (s.badMarked k).isBad k = true ∧ FlagsKept s (s.badMarked k) ∧
    Frame badKeys [] s (s.badMarked k) := by
  have hheld := markHeld_frame s k
  have hflag := flagsKept_flag (s.markHeld k) 3
  have hcount : FlagsKept ((s.markHeld k).flag Reg.isFlags 3) (((s.markHeld k).flag Reg.isFlags 3).bump Reg.grownBadCount) :=
    flagsKept_of_rd (rd_bump_ne _ (by decide))
  refine ⟨?_, ?_, ?_⟩
  · have hsto : (s.badMarked k).sto = (s.markHeld k).sto := by
      rw [State.badMarked, State.event_sto, State.bump_sto, State.flag_sto]
    have hbad : (s.markHeld k).isBad k = true := by simp [State.isBad, State.markHeld]
    exact (isBad_of_marks (s := s.markHeld k) (by rw [hsto]) (by rw [hsto]) (by rw [hsto]) k).trans hbad
  · exact (((flagsKept_of_rd (hheld.rd (by simp))).trans hflag).trans hcount).trans (flagsKept_event _ _ _ _ _ _)
  · exact (((hheld.mono (by simp) fun _ h => h).flag _ _ (by decide)).bump _ (by decide)).event _ _ _ _ _ (List.subset_append_left ..)

theorem growBad_spec (s : State) (k : Nat) : (s.growBad k).isBad k = true ∧ FlagsKept s (s.growBad k) ∧ Frame badKeys [] s (s.growBad k) := by
  rw [growBad_eq]
  split
  · next hbad => exact ⟨hbad, fun _ _ h => h, .refl ..⟩
  · obtain ⟨hbad, hflags, hframe⟩ := badMarked_spec s k
    have hsto := wornCheck_sto (s.badMarked k)
    refine ⟨?_, (hflags.trans (flagsKept_wornCheck _)).trans (flagsKept_queueMap _ _), ?_⟩
    · exact (queueMap_isBad ..).trans ((isBad_of_marks (s := s.badMarked k) (by rw [hsto]) (by rw [hsto]) (by rw [hsto]) k).trans hbad)
    · exact (wornCheck_frame hframe (List.subset_append_left ..) (by decide)).queueMap _

/-! ### Erases that end (R392) -/

theorem eraseCompletion_only (s : State) (k count reason outcome row : Nat) : LogOnly s (s.eraseCompletion k count reason outcome row) :=
  logOnly_eventSev _ _ _ _ _ _ _ (.refl s)

/-- The erase is counted and its end recorded. -/
def State.eraseNoted (s : State) (k count reason outcome : Nat) : State :=
  (s.bump Reg.erases).eraseCompletion k count reason outcome (s.blk k).lastRow

theorem eraseNoted_spec (s : State) (k count reason outcome : Nat) : Counts Reg.erases s (s.eraseNoted k count reason outcome) ∧
    (s.eraseNoted k count reason outcome).sto = s.sto ∧
    Frame (Reg.erases :: eventKeys) [] s (s.eraseNoted k count reason outcome) := by
  have honly := eraseCompletion_only (s.bump Reg.erases) k count reason outcome (s.blk k).lastRow
  refine ⟨?_, ?_, honly.frame (List.subset_cons_self ..) ((Frame.refl ..).bump _ (by simp))⟩
  · exact (honly.rd (by decide)).trans (rd_bump ..)
  · obtain ⟨_, _, _, _, _, h, _⟩ := honly
    rw [State.eraseNoted, h]
    rfl

theorem settleErase_pass (s : State) (k count reason : Nat) : s.settleErase k count reason 0 =
    (s.eraseNoted k count reason 0).setBlk k { s.blk k with erases := count, pages := [], garbage := false } := rfl

/-- The block keeps what a failed erase left of it. -/
def State.eraseSpoilt (s : State) (k count reason outcome : Nat) : State :=
  (s.eraseNoted k count reason outcome).setBlk k { s.blk k with erases := count, garbage := true }

theorem settleErase_fail {s : State} {outcome : Nat} (k count reason : Nat) (h : outcome ≠ 0) : s.settleErase k count reason outcome =
    (((s.eraseSpoilt k count reason outcome).bump Reg.eraseFails).flag Reg.isFlags 2).growBad k := if_neg h

end Sys2Proof.Machine
end

section
/-! PROOF. Erases of the dies' blocks: intent, end, suspension (spec/15_image_store.md R392-R395). -/
namespace Sys2Proof.Machine

/-! ### The intent record (R392, R471) -/

theorem enqueue_waits {s : State} (r : LogRec) (h : s.log.queue ≠ []) : (s.enqueue r).log.queue ≠ [] := by
  unfold State.enqueue
  split
  · simp
  · rw [dropRecord_eq]
    exact h

theorem enqueue_takes {s : State} {r : LogRec} (h : s.queueTakes r.sev = true) : (s.enqueue r).log.queue ≠ [] := by
  unfold State.enqueue
  rw [if_pos h]
  simp

theorem sendEvent_waits {s : State} (r : LogRec) (h : s.log.queue ≠ []) : (s.sendEvent r).log.queue ≠ [] := by
  unfold State.sendEvent
  dsimp only
  split
  · exact h
  · split
    · exact h
    · split
      · exact enqueue_waits _ h
      · exact h

/-- What is owed is queued as soon as the queue has room. -/
theorem payOwed_waits {s : State} (howed : s.log.owed = true) (hloaded : s.loaded = true) (hroom : s.log.queue.length < 112) :
    s.payOwed.log.queue ≠ [] := by
  unfold State.payOwed
  rw [if_pos (by simp [howed, hloaded, hroom])]
  have htakes : ∀ u : State, u.loaded = s.loaded → u.log.queue = s.log.queue → u.queueTakes 1 = true := fun u hl hq => by
    simp [State.queueTakes, hl, hq, hloaded, hroom]
  exact sendEvent_waits _ (enqueue_takes (htakes _ rfl rfl))

/-- The queue has been written as far as the head allows. -/
def State.drained (s : State) : State :=
  { s.drain s.log.queue with log := { (s.drain s.log.queue).log with wanted := !(s.drain s.log.queue).log.queue.isEmpty } }

theorem flushLog_eq (s : State) : s.flushLog = s.drained.payOwed := rfl

theorem payOwed_loaded (s : State) : s.payOwed.loaded = s.loaded := by
  obtain ⟨_, _, _, _, _, h, _⟩ := logOnly_payOwed (LogOnly.refl s)
  rw [h]

theorem payOwed_idle {s : State} (h : ¬((s.log.owed && s.loaded && s.log.queue.length < 112) = true)) : s.payOwed = s := if_neg h

/-- A queue that the log has taken whole, with nothing owed to it, is left empty. -/
theorem flushLog_settled {s : State} (hqueue : s.flushLog.log.queue = []) (hloaded : s.flushLog.loaded = true) : s.flushLog.log.owed = false := by
  rw [flushLog_eq] at hqueue hloaded ⊢
  rw [payOwed_loaded] at hloaded
  by_cases hpay : (s.drained.log.owed && s.drained.loaded && s.drained.log.queue.length < 112) = true
  · simp only [Bool.and_eq_true, decide_eq_true_eq] at hpay
    exact absurd hqueue (payOwed_waits hpay.1.1 hpay.1.2 hpay.2)
  · rw [payOwed_idle hpay] at hqueue ⊢
    simpa [hqueue, hloaded] using hpay

theorem flushLog_of_empty {s : State} (hqueue : s.log.queue = []) (howed : s.log.owed = false) :
    s.flushLog = { s with log := { s.log with queue := [], wanted := false } } := by
  unfold State.flushLog
  rw [hqueue]
  dsimp only [State.drain]
  unfold State.payOwed
  exact if_neg (by simp [howed])

theorem slot_putRecord (s : State) (r : LogRec) : (s.putRecord r).slot s.log.head = .valid r s.log.index := by
  have hring : (s.recordPut r).log.ring = tset .blank s.log.ring s.log.head (.valid r s.log.index) := rfl
  obtain ⟨_, h⟩ := putRecord_eq s r
  rw [h, State.slot]
  dsimp only
  rw [hring, tget_tset_same]

/-- A record that the log can take at once stands in the head's slot. -/
theorem sendPut_slot (s : State) (r q : LogRec) (mark : Bool) :
    ({ s.putRecord r with log := { (s.putRecord r).log with mark := mark } }.sendEvent q).slot s.log.head = .valid r s.log.index := by
  have hput : ({ s.putRecord r with log := { (s.putRecord r).log with mark := mark } } : State).slot s.log.head = .valid r s.log.index :=
    slot_putRecord s r
  have hkept := (logOnly_sendEvent q (.refl ({ s.putRecord r with log := { (s.putRecord r).log with mark := mark } } : State))).ringKept
  rw [hkept _ (by rw [hput]; simp), hput]

/-- An erase intent that the log can take at once stands in the head's slot (R392, R471). -/
theorem eraseIntent_slot {s : State} (k count reason row : Nat) (hcold : s.coldRead = false) (hqueue : s.log.queue = [])
    (howed : s.log.owed = false) (hwrite : s.canWrite = true) :
    ∃ r i, (s.eraseIntent k count reason row).slot s.log.head = .valid r i ∧ r.code = 0x4101 ∧
      r.ext = eraseExt (k / 1024) (k % 1024) count reason 0xFF row := by
  unfold State.eraseIntent State.eventSev
  extract_lets seq s1 s2 r s3 s4 s5
  have hs2 : s2 = s1 := if_neg (by decide)
  have hat : r.atOnce = true := rfl
  have hs3 : s3 = { s1 with log := { s1.log with queue := [], wanted := false } } := by
    dsimp only [s3]
    rw [hs2]
    exact flushLog_of_empty hqueue howed
  have hnow : (s3.log.queue.isEmpty && s3.canWrite) = true := by
    rw [hs3]
    exact hwrite
  have hhead : s3.log.head = s.log.head := by rw [hs3]; rfl
  refine ⟨{ r with dropped := s3.log.mark }, s3.log.index, ?_, rfl, rfl⟩
  rw [if_neg (by simp [hcold]), if_neg (by rw [hs2]; exact ne_true_of_eq_false hcold), if_pos hat, if_pos hnow, ← hhead]
  exact sendPut_slot s3 _ r false

/-! ### A block's erase begins (R392) -/

theorem notMem_dieState {k : Nat} (d : Nat) (h : k % 256 ≠ 1) : k ∉ [Reg.dieState d] := by
  simp only [Reg.dieState, rkey, List.mem_singleton]
  omega

theorem StoreOnly.erase {K s t} (h : StoreOnly K s t) : t.sto.erase = s.sto.erase ∧ t.log = s.log := by
  obtain ⟨_, _, _, _, _, _, _, _, rfl, _⟩ := h
  exact ⟨rfl, rfl⟩

theorem storeOnly_refreshDie (s : State) (d : Nat) : StoreOnly [Reg.dieState d] s (s.refreshDie d) := (StoreOnly.refl _ s).refreshDie d (by simp)

theorem storeOnly_startDie (s : State) (d : Nat) : StoreOnly [Reg.dieState d] s (s.startDie d) := (StoreOnly.refl _ s).startDie d (by simp)

/-- The erase of a block. -/
def eraseOf (k reason : Nat) : BlkErase := { die := dieOf (k / 1024), plane := planeOf (k / 1024), block := k % 1024, reason := reason }

/-- The block's erase runs and waits no more. -/
def State.eraseTaken (s : State) (k reason : Nat) : State :=
  { s with sto := { s.sto with eraseQueue := s.sto.eraseQueue.filter (fun e => e.1 ≠ k), erase := some (eraseOf k reason) } }

/-- A running erase and its block are shown. -/
def State.eraseShown (s : State) (v : Nat) : State := (s.wr Reg.eraseState 1).wr Reg.eraseBlock v

def State.eraseBegun (s : State) (k reason : Nat) : State :=
  (s.eraseTaken k reason).eraseShown (dieOf (k / 1024) * 2 ^ 24 + planeOf (k / 1024) * 65536 + k % 1024)

theorem exec_eraseStart {s : State} {k reason : Nat} (hnext : s.nextErase = some (k, reason)) (hphase : s.phase = .guard)
    (hstate : s.rd Reg.isState = 2) (hnone : s.sto.erase = none) (hruns : s.storeRuns = true)
    (hbusy : s.dieBusy (dieOf (k / 1024)) = false) (hreads : s.dieReading (dieOf (k / 1024)) = false)
    (hqueue : s.flushLog.log.queue.isEmpty = true) (hwrite : s.flushLog.canWrite = true) :
    exec .eraseStart s = .next (((s.flushLog.eraseIntent k ((s.blk k).erases + 1) reason (s.blk k).lastRow).eraseBegun k reason).refreshDie
      (dieOf (k / 1024))) := by
  show execEraseStart s = _
  unfold execEraseStart
  rw [hnext]
  exact if_neg (by simp [hphase, hstate, hnone, hruns, hbusy, hreads, hqueue, hwrite])

theorem eraseTaken_frame (s : State) (k reason : Nat) : Frame [] [] s (s.eraseTaken k reason) :=
  (Frame.refl ..).of_eq rfl rfl ⟨fun _ => rfl, rfl, rfl, rfl, rfl, rfl, .of_eq rfl⟩

theorem eraseShown_spec (s : State) (v : Nat) : (s.eraseShown v).sto = s.sto ∧ (s.eraseShown v).rd Reg.eraseState = 1 ∧
    (s.eraseShown v).log = s.log ∧ Frame [Reg.eraseState, Reg.eraseBlock] [] s (s.eraseShown v) :=
  ⟨rfl, (State.rd_wr_ne _ _ (by decide)).trans (rd_wr_of_lt _ (by decide)), rfl, ((Frame.refl ..).wr _ _ (by simp)).wr _ _ (by simp)⟩

theorem eraseBegun_spec (s : State) (k reason : Nat) : (s.eraseBegun k reason).sto.erase = some (eraseOf k reason) ∧
    (s.eraseBegun k reason).rd Reg.eraseState = 1 ∧ (s.eraseBegun k reason).log = s.log ∧
    Frame [Reg.eraseState, Reg.eraseBlock] [] s (s.eraseBegun k reason) := by
  unfold State.eraseBegun
  generalize dieOf (k / 1024) * 2 ^ 24 + planeOf (k / 1024) * 65536 + k % 1024 = v
  obtain ⟨hsto, hshown, hlog, hframe⟩ := eraseShown_spec (s.eraseTaken k reason) v
  exact ⟨by rw [hsto]; rfl, hshown, hlog, ((eraseTaken_frame s k reason).mono (by simp) fun _ h => h).trans hframe⟩

/-! ### Suspension (R393, R394) -/

/-- The running or suspended erase goes on as `e`. -/
def State.eraseNow (s : State) (e : BlkErase) : State := { s with sto := { s.sto with erase := some e } }.wr Reg.eraseState e.state

theorem eraseNow_spec (s : State) (e : BlkErase) (hstate : e.state < 256) : (s.eraseNow e).sto.erase = some e ∧
    (s.eraseNow e).rd Reg.eraseState = e.state ∧ Frame [Reg.eraseState] [] s (s.eraseNow e) := by
  have hframe : Frame [Reg.eraseState] [] s { s with sto := { s.sto with erase := some e } } :=
    (Frame.refl ..).of_eq rfl rfl ⟨fun _ => rfl, rfl, rfl, rfl, rfl, rfl, .of_eq rfl⟩
  exact ⟨rfl, rd_wr_of_lt _ hstate, hframe.wr _ _ (by simp)⟩

theorem exec_eraseSuspend {s : State} {e : BlkErase} (herase : s.sto.erase = some e) (hruns : e.state = 1)
    (hgo : s.phase = .pour ∨ (s.dieWaits e.die = true ∧ e.suspends < s.rd Reg.eraseSuspendMax)) :
    exec .eraseSuspend s = .next (((s.eraseNow { e with
      state := if s.phase = .pour then 3 else 2, suspends := e.suspends + 1 }).bump Reg.eraseSuspends).startDie e.die) := by
  show execEraseSuspend s = _
  unfold execEraseSuspend
  rw [herase]
  exact if_pos (by simpa [hruns] using hgo)

/-- Suspending the erase counts it and lets its die go on. -/
theorem suspended_spec (s : State) (e : BlkErase) (d : Nat) (hstate : e.state < 256) :
    (((s.eraseNow e).bump Reg.eraseSuspends).startDie d).sto.erase = some e ∧
    (((s.eraseNow e).bump Reg.eraseSuspends).startDie d).rd Reg.eraseState = e.state ∧
    Counts Reg.eraseSuspends s (((s.eraseNow e).bump Reg.eraseSuspends).startDie d) ∧
    Frame [Reg.eraseState, Reg.eraseSuspends, Reg.dieState d] [] s (((s.eraseNow e).bump Reg.eraseSuspends).startDie d) := by
  obtain ⟨herase, hshown, hframe⟩ := eraseNow_spec s e hstate
  have hdie := storeOnly_startDie ((s.eraseNow e).bump Reg.eraseSuspends) d
  refine ⟨?_, ?_, ?_, hdie.frame (by simp) ((hframe.mono (by simp) fun _ h => h).bump _ (by simp))⟩
  · rw [hdie.erase.1, State.bump_sto, herase]
  · rw [hdie.rd (notMem_dieState d (by decide)), rd_bump_ne _ (by decide), hshown]
  · rw [Counts, hdie.rd (notMem_dieState d (by decide)), rd_bump, hframe.rd (by decide)]

theorem exec_eraseResume {s : State} {e : BlkErase} (herase : s.sto.erase = some e) (hstate : e.state = 2) (hphase : s.phase = .guard)
    (hwaits : s.dieWaits e.die = false) (hbusy : s.dieBusy e.die = false) :
    exec .eraseResume s = .next ((s.eraseNow { e with state := 1 }).refreshDie e.die) := by
  show execEraseResume s = _
  unfold execEraseResume
  rw [herase]
  exact if_pos (by simp [hstate, hphase, hwaits, hbusy])

/-! ### An erase ends (R392) -/

/-- No erase runs. -/
def State.eraseOver (s : State) : State := { s with sto := { s.sto with erase := none } }.wr Reg.eraseState 0

/-- The plane's map page is queued, the die is free, waiting pages go on, and what may be fettled is shown. -/
def State.dieFreed (s : State) (pos d : Nat) : State := ((s.queueMap pos).refreshDie d).pump.refreshFettle

theorem exec_eraseDone {s : State} {e : BlkErase} {k n : Nat} {outcome : Fin 3} (herase : s.sto.erase = some e) (hruns : e.state = 1)
    (hk : k = blkKey (4 * e.plane + e.die) e.block) (hn : n = outcome.val) : exec (.eraseDone outcome) s =
      .next ((s.eraseOver.settleErase k ((s.eraseOver.blk k).erases + 1) e.reason n).dieFreed (4 * e.plane + e.die) e.die) := by
  subst hk hn
  show execEraseDone outcome s = _
  unfold execEraseDone
  rw [herase]
  exact if_neg (not_not.mpr hruns)

theorem eraseOver_spec (s : State) : s.eraseOver.sto.erase = none ∧ s.eraseOver.rd Reg.eraseState = 0 ∧
    Frame [Reg.eraseState] [] s s.eraseOver := by
  have hframe : Frame [Reg.eraseState] [] s { s with sto := { s.sto with erase := none } } :=
    (Frame.refl ..).of_eq rfl rfl ⟨fun _ => rfl, rfl, rfl, rfl, rfl, rfl, .of_eq rfl⟩
  exact ⟨rfl, rd_wr_of_lt _ (by decide), hframe.wr _ _ (by simp)⟩

/-- The registers that follow a freed die. -/
def freedKeys (d : Nat) : List Nat := pumpKeys ++ [Reg.fettleEligible, Reg.dieState d]

theorem notMem_freedKeys {k : Nat} (d : Nat) (h : k % 256 ≠ 1) (hk : k ∉ Reg.fettleEligible :: pumpKeys) : k ∉ freedKeys d := by
  have hdie := notMem_dieState d h
  simp only [freedKeys, List.mem_append, List.mem_cons, not_or] at hk hdie ⊢
  exact ⟨hk.2, hk.1, hdie⟩

theorem refreshFettle_frame {K H s t} (h : Frame K H s t) (hk : Reg.fettleEligible ∈ K) : Frame K H s t.refreshFettle :=
  (h.wr _ _ hk).of_eq rfl rfl ⟨fun _ => rfl, rfl, rfl, rfl, rfl, rfl, .of_eq rfl⟩

theorem refreshFettle_sto (s : State) : s.refreshFettle.sto = s.sto := rfl

theorem refreshFettle_isBad (s : State) (k : Nat) : s.refreshFettle.isBad k = s.isBad k := rfl

theorem dieFreed_spec (s : State) (pos d : Nat) : (s.dieFreed pos d).sto.erase = s.sto.erase ∧
    (∀ k, (s.dieFreed pos d).isBad k = s.isBad k) ∧ Frame (freedKeys d) [] s (s.dieFreed pos d) := by
  have hdie := storeOnly_refreshDie (s.queueMap pos) d
  have hpump := storeOnly_pump ((s.queueMap pos).refreshDie d)
  refine ⟨?_, fun k => ?_, ?_⟩
  · obtain ⟨_, _, hmap⟩ := queueMap_only s pos
    rw [State.dieFreed, refreshFettle_sto, hpump.erase.1, hdie.erase.1, hmap]
  · rw [State.dieFreed, refreshFettle_isBad, hpump.isBad, hdie.isBad, queueMap_isBad]
  · exact refreshFettle_frame (hpump.frame (List.subset_append_left ..) (hdie.frame (by simp [freedKeys]) ((Frame.refl ..).queueMap pos)))
      (by simp [freedKeys])

end Sys2Proof.Machine
end

section
/-! PROOF. Erases of the dies' blocks: what an erase that ends leaves, and what each command leaves (spec/15_image_store.md R392-R395). -/
namespace Sys2Proof.Machine

theorem eraseNoted_blk (s : State) (k count reason outcome j : Nat) : (s.eraseNoted k count reason outcome).blk j = s.blk j :=
  blk_of_nand (by rw [(eraseNoted_spec s k count reason outcome).2.1]) j

theorem eraseOver_blk (s : State) (j : Nat) : s.eraseOver.blk j = s.blk j := rfl

/-- What an erase's end leaves, whichever way it went. -/
structure EraseEnds (K : List Nat) (s t : State) : Prop where
  none : t.sto.erase = none
  shown : t.rd Reg.eraseState = 0
  counted : Counts Reg.erases s t
  sums : t.fla.sums = s.fla.sums
  aside : Aside K s t

theorem EraseEnds.frame {K L : List Nat} {s t u : State} (h : EraseEnds K s t) (hf : Frame L [] t u) (herase : u.sto.erase = t.sto.erase)
    (hstate : Reg.eraseState ∉ L) (hcount : Reg.erases ∉ L) : EraseEnds (K ++ L) s u := by
  obtain ⟨hnone, hshown, hcounted, hsums, haside⟩ := h
  exact ⟨herase.trans hnone, (hf.rd hstate).trans hshown, (hf.rd hcount).trans hcounted, hf.sums.trans hsums,
    (haside.mono (List.subset_append_left ..)).frame (hf.mono (List.subset_append_right ..) fun _ h => h)⟩

/-- The registers that an erase's end and its record change. -/
def endKeys : List Nat := eventKeys ++ [Reg.eraseState, Reg.erases]

/-- The erase is over and recorded; its block is as `b`. -/
theorem eraseNoted_ends (s : State) (k count reason outcome : Nat) (b : Blk) :
    EraseEnds endKeys s ((s.eraseOver.eraseNoted k count reason outcome).setBlk k b) := by
  obtain ⟨hnone, hzero, hover⟩ := eraseOver_spec s
  obtain ⟨hcount, hsto, hnote⟩ := eraseNoted_spec s.eraseOver k count reason outcome
  have hall : Frame endKeys [] s (s.eraseOver.eraseNoted k count reason outcome) :=
    (hover.mono (by decide) fun _ h => h).trans (hnote.mono (by decide) fun _ h => h)
  refine ⟨?_, (hnote.rd (by decide)).trans hzero, hcount.since (hover.rd (by decide)), hall.sums, hall.aside.setBlk k b⟩
  show (s.eraseOver.eraseNoted k count reason outcome).sto.erase = none
  rw [hsto, hnone]

theorem setNoted_blk (s : State) (k count reason outcome : Nat) (b : Blk) (j : Nat) :
    ((s.eraseOver.eraseNoted k count reason outcome).setBlk k b).blk j = if j = k then b else s.blk j := by
  rw [blk_setBlk, eraseNoted_blk, eraseOver_blk]

/-- An erase that passed (R392). -/
theorem passed_spec (s : State) (k reason : Nat) :
    EraseEnds endKeys s (s.eraseOver.settleErase k ((s.eraseOver.blk k).erases + 1) reason 0) ∧
    (∀ j, (s.eraseOver.settleErase k ((s.eraseOver.blk k).erases + 1) reason 0).blk j =
      if j = k then { s.blk k with erases := (s.blk k).erases + 1, pages := [], garbage := false } else s.blk j) := by
  rw [settleErase_pass, eraseOver_blk]
  exact ⟨eraseNoted_ends .., setNoted_blk s k _ reason 0 _⟩

/-- The failed erase is counted and flagged. -/
def State.failShown (s : State) : State := (s.bump Reg.eraseFails).flag Reg.isFlags 2

theorem failShown_spec (s : State) : Counts Reg.eraseFails s s.failShown ∧ s.failShown.bitOf Reg.isFlags 2 = true ∧
    s.failShown.sto = s.sto ∧ Frame [Reg.eraseFails, Reg.isFlags] [] s s.failShown :=
  ⟨(rd_flag_ne _ _ (by decide)).trans (rd_bump ..), bitOf_flag _ (by decide), rfl,
    ((Frame.refl ..).bump _ (by simp)).flag _ _ (by simp)⟩

theorem growBad_erase (s : State) (k : Nat) : (s.growBad k).sto.erase = s.sto.erase := by
  rw [growBad_eq]
  split
  · rfl
  · obtain ⟨_, _, hmap⟩ := queueMap_only (s.badMarked k).wornCheck (k / 1024)
    rw [hmap]
    dsimp only
    rw [wornCheck_sto, State.badMarked, State.event_sto, State.bump_sto, State.flag_sto]
    rfl

/-- An erase that failed: its block is grown bad (R389, R392). -/
theorem failed_spec (s : State) (k reason : Nat) {outcome : Nat} (h : outcome ≠ 0) :
    EraseEnds (endKeys ++ [Reg.eraseFails, Reg.isFlags] ++ badKeys) s
      (s.eraseOver.settleErase k ((s.eraseOver.blk k).erases + 1) reason outcome) ∧
    Counts Reg.eraseFails s (s.eraseOver.settleErase k ((s.eraseOver.blk k).erases + 1) reason outcome) ∧
    (s.eraseOver.settleErase k ((s.eraseOver.blk k).erases + 1) reason outcome).bitOf Reg.isFlags 2 = true ∧
    (s.eraseOver.settleErase k ((s.eraseOver.blk k).erases + 1) reason outcome).isBad k = true ∧
    (∀ j, (s.eraseOver.settleErase k ((s.eraseOver.blk k).erases + 1) reason outcome).blk j =
      if j = k then { s.blk k with erases := (s.blk k).erases + 1, garbage := true } else s.blk j) := by
  have hspoilt := eraseNoted_ends s k ((s.eraseOver.blk k).erases + 1) reason outcome
    { s.eraseOver.blk k with erases := (s.eraseOver.blk k).erases + 1, garbage := true }
  have hblk := setNoted_blk s k ((s.eraseOver.blk k).erases + 1) reason outcome
    { s.eraseOver.blk k with erases := (s.eraseOver.blk k).erases + 1, garbage := true }
  rw [settleErase_fail _ _ _ h, State.eraseSpoilt]
  generalize (s.eraseOver.eraseNoted k ((s.eraseOver.blk k).erases + 1) reason outcome).setBlk k
    { s.eraseOver.blk k with erases := (s.eraseOver.blk k).erases + 1, garbage := true } = v at hspoilt hblk ⊢
  show EraseEnds _ s (v.failShown.growBad k) ∧ Counts _ s (v.failShown.growBad k) ∧ (v.failShown.growBad k).bitOf _ 2 = true ∧
    (v.failShown.growBad k).isBad k = true ∧ ∀ j, (v.failShown.growBad k).blk j = _
  obtain ⟨hfails, hflag, hsto, hfail⟩ := failShown_spec v
  obtain ⟨hbad, hflags, hgrow⟩ := growBad_spec v.failShown k
  refine ⟨?_, ?_, hflags 2 (by decide) hflag, hbad, fun j => ?_⟩
  · exact (hspoilt.frame hfail (by rw [hsto]) (by decide) (by decide)).frame hgrow (growBad_erase ..) (by decide) (by decide)
  · exact ((hgrow.rd (by decide)).trans hfails).trans (by rw [hspoilt.aside.rd (by decide)])
  · rw [blk_of_nand hgrow.nand, blk_of_nand hfail.nand, hblk, eraseOver_blk]

/-- The die is free again after an erase's end. -/
theorem EraseEnds.freed {K : List Nat} {s t : State} (h : EraseEnds K s t) (pos d : Nat) : EraseEnds (K ++ freedKeys d) s (t.dieFreed pos d) := by
  obtain ⟨herase, _, hfreed⟩ := dieFreed_spec t pos d
  exact h.frame hfreed herase (notMem_freedKeys d (by decide) (by decide)) (notMem_freedKeys d (by decide) (by decide))

theorem dieFreed_blk (s : State) (pos d j : Nat) : (s.dieFreed pos d).blk j = s.blk j :=
  blk_of_nand (dieFreed_spec s pos d).2.2.nand j

/-- Settles O27: the intent stands where the log's head was, the erase and its state are shown; an erase that ends leaves its block by
its outcome, and what the freed die goes on with touches no block. -/
theorem blocksAreErased : Obligations.BlocksAreErased := by
  unfold Obligations.BlocksAreErased
  refine ⟨fun s k reason hnext hphase hstate hnone hruns hbusy hreads hcold hqueue hwrite => ?_, fun s e k herase hruns hk => ?_,
    fun s e k herase hruns hk => ?_, fun s e herase hruns hphase => ?_, fun s e herase hruns hphase hwaits hmax => ?_,
    fun s e herase hstate hphase hwaits hbusy => ?_⟩
  case refine_1 =>
    have hflush := logOnly_flushLog (LogOnly.refl s)
    have hempty : s.flushLog.log.queue = [] := List.isEmpty_iff.mp hqueue
    have hloaded : s.flushLog.loaded = true := by
      simp only [State.canWrite, Bool.and_eq_true] at hwrite
      exact hwrite.1.1
    have hcold' : s.flushLog.coldRead = false := by
      obtain ⟨_, _, _, _, _, h, _⟩ := hflush
      rw [h]
      exact hcold
    obtain ⟨r, i, hslot, hcode, hext⟩ := eraseIntent_slot k ((s.blk k).erases + 1) reason (s.blk k).lastRow hcold' hempty
      (flushLog_settled hempty hloaded) hwrite
    have hintent : LogOnly s (s.flushLog.eraseIntent k ((s.blk k).erases + 1) reason (s.blk k).lastRow) := logOnly_eventSev _ _ _ _ _ _ _ hflush
    obtain ⟨hset, hshown, hlog, hbegun⟩ := eraseBegun_spec (s.flushLog.eraseIntent k ((s.blk k).erases + 1) reason (s.blk k).lastRow) k reason
    have hdie := storeOnly_refreshDie ((s.flushLog.eraseIntent k ((s.blk k).erases + 1) reason (s.blk k).lastRow).eraseBegun k reason)
      (dieOf (k / 1024))
    have hin : Reg.dieState (dieOf (k / 1024)) ∈ (List.range 4).map Reg.dieState :=
      List.mem_map_of_mem (List.mem_range.mpr (Nat.mod_lt _ (by decide)))
    refine ⟨_, exec_eraseStart hnext hphase hstate hnone hruns hbusy hreads hqueue hwrite, ?_, ?_, ⟨r, i, ?_, hcode, hext⟩, ?_⟩
    · rw [hdie.erase.1, hset, eraseOf]
    · rw [hdie.rd (notMem_dieState _ (by decide)), hshown]
    · rw [State.slot, hdie.erase.2, hlog]
      exact hslot
    · exact hdie.frame (List.cons_subset.mpr ⟨List.mem_append_right _ hin, List.nil_subset _⟩)
        ((hintent.frame (List.subset_append_of_subset_left _ (List.subset_append_left ..)) (.refl ..)).trans
          (hbegun.mono (List.subset_append_of_subset_left _ (List.subset_append_right ..)) fun _ h => h))
  case refine_2 =>
    have hexec := exec_eraseDone (n := 0) (outcome := 0) herase hruns hk rfl
    have hpassed := passed_spec s k e.reason
    generalize s.eraseOver.settleErase k ((s.eraseOver.blk k).erases + 1) e.reason 0 = w at hexec hpassed
    obtain ⟨hends, hblk⟩ := hpassed
    obtain ⟨hover, hshown, hcounted, hsums, hquiet, hcode, _, hcope, hdrag, hring⟩ := hends.freed (4 * e.plane + e.die) e.die
    refine ⟨_, hexec, hover, hshown, hcounted, ?_, fun j hj => ?_, hquiet.mono ?_ fun _ h => h, hcode, hcope, hdrag, hsums, hring⟩
    · rw [dieFreed_blk, hblk, if_pos rfl]
    · rw [dieFreed_blk, hblk, if_neg hj]
    · intro q hq
      simp only [endKeys, freedKeys, List.mem_append, List.mem_cons] at hq ⊢
      grind
  case refine_3 =>
    have hexec := exec_eraseDone (n := 1) (outcome := 1) herase hruns hk rfl
    have hfailed := failed_spec s k e.reason (outcome := 1) (by decide)
    generalize s.eraseOver.settleErase k ((s.eraseOver.blk k).erases + 1) e.reason 1 = w at hexec hfailed
    obtain ⟨hends, hfails, hflag, hbad, hblk⟩ := hfailed
    obtain ⟨_, hkept, hfreed⟩ := dieFreed_spec w (4 * e.plane + e.die) e.die
    obtain ⟨hover, hshown, hcounted, hsums, hquiet, hcode, _, hcope, hdrag, hring⟩ := hends.freed (4 * e.plane + e.die) e.die
    refine ⟨_, hexec, hover, hshown, hcounted, ?_, ?_, ?_, ?_, fun j hj => ?_, hquiet.mono ?_ fun _ h => h, hcode, hcope, hdrag, hsums, hring⟩
    · exact (hfreed.rd (notMem_freedKeys _ (by decide) (by decide))).trans hfails
    · exact (bitOf_of_rd 2 (hfreed.rd (notMem_freedKeys _ (by decide) (by decide)))).trans hflag
    · rw [hkept, hbad]
    · rw [dieFreed_blk, hblk, if_pos rfl]
    · rw [dieFreed_blk, hblk, if_neg hj]
    · intro q hq
      simp only [endKeys, badKeys, freedKeys, List.mem_append, List.mem_cons] at hq ⊢
      grind
  case refine_4 =>
    have hexec := exec_eraseSuspend herase hruns (.inl hphase)
    rw [if_pos hphase] at hexec
    obtain ⟨hset, hshown, hcounted, hframe⟩ := suspended_spec s { e with state := 3, suspends := e.suspends + 1 } e.die (show 3 < 256 from by decide)
    exact ⟨_, hexec, hset, hshown, hcounted, hframe⟩
  case refine_5 =>
    have hexec := exec_eraseSuspend herase hruns (.inr ⟨hwaits, hmax⟩)
    rw [if_neg hphase] at hexec
    obtain ⟨hset, hshown, hcounted, hframe⟩ := suspended_spec s { e with state := 2, suspends := e.suspends + 1 } e.die (show 2 < 256 from by decide)
    exact ⟨_, hexec, hset, hshown, hcounted, hframe⟩
  case refine_6 =>
    obtain ⟨hset, hshown, hframe⟩ := eraseNow_spec s { e with state := 1 } (show 1 < 256 from by decide)
    have hdie := storeOnly_refreshDie (s.eraseNow { e with state := 1 }) e.die
    refine ⟨_, exec_eraseResume herase hstate hphase hwaits hbusy, ?_, ?_, hdie.frame (by simp) (hframe.mono (by simp) fun _ h => h)⟩
    · rw [hdie.erase.1, hset]
    · rw [hdie.rd (notMem_dieState _ (by decide)), hshown]

end Sys2Proof.Machine
end

section
/-! PROOF. Pages that program, fail, or wait too long (spec/15_image_store.md R384-R388; the seal spec/14_pour_and_shakeout.md R356). -/
namespace Sys2Proof.Machine

/-! ### A page in its block (R384) -/

/-- The page as its block holds it. -/
def Page.landed (p : Page) (torn : Bool) : Page := { p with busy := false, torn := torn, image := if torn then [] else p.bytes }

/-- A page stands in a block, every other block is as before, and all but the blocks but for registers of a list. -/
structure Lands (K : List Nat) (k : Nat) (q : Page) (s t : State) : Prop where
  pages : (t.blk k).pages = (s.blk k).pages ++ [q]
  others : ∀ j, j ≠ k → t.blk j = s.blk j
  sums : t.fla.sums = s.fla.sums
  aside : Aside K s t

theorem Lands.frame {K L : List Nat} {k : Nat} {q : Page} {s t u : State} (h : Lands K k q s t) (hf : Frame L [] t u) : Lands (K ++ L) k q s u := by
  obtain ⟨hpages, hothers, hsums, haside⟩ := h
  have hblk := blk_of_nand hf.nand
  exact ⟨by rw [hblk, hpages], fun j hj => by rw [hblk, hothers j hj], by rw [hf.sums, hsums],
    (haside.mono (List.subset_append_left ..)).frame (hf.mono (List.subset_append_right ..) fun _ h => h)⟩

theorem Lands.after {K L : List Nat} {k : Nat} {q : Page} {s t u : State} (hf : Frame L [] s t) (h : Lands K k q t u) : Lands (L ++ K) k q s u := by
  obtain ⟨hpages, hothers, hsums, haside⟩ := h
  have hblk := blk_of_nand hf.nand
  exact ⟨by rw [hpages, hblk], fun j hj => by rw [hothers j hj, hblk], by rw [hsums, hf.sums],
    ((hf.mono (List.subset_append_left ..) fun _ h => h).aside).trans (haside.mono (List.subset_append_right ..))⟩

theorem Lands.mono {K L : List Nat} {k : Nat} {q : Page} {s t : State} (h : Lands K k q s t) (hK : K ⊆ L) : Lands L k q s t :=
  ⟨h.pages, h.others, h.sums, h.aside.mono hK⟩

theorem lands_landPage (s : State) {p : Page} (torn : Bool) (hkind : p.kind ≠ 5) :
    Lands [] (blkKey p.pos p.block) (p.landed torn) s (s.landPage p torn) := by
  unfold State.landPage
  dsimp only
  refine ⟨?_, fun j hj => ?_, rfl, (Frame.refl ..).aside.setBlk _ _⟩
  · rw [blk_setBlk, if_pos rfl, Page.landed]
    cases torn
    · simp [hkind]
    · simp
  · rw [blk_setBlk, if_neg hj]

/-! ### A page that programmed (R386) -/

/-- The page waits no more. -/
def State.pageGone (s : State) (p : Page) : State :=
  { s with sto := { s.sto with pages := s.sto.pages.filter (fun q => !(q.seq = p.seq && q.kind = p.kind && q.pos = p.pos)) } }

theorem storeOnly_pageGone (s : State) (p : Page) : StoreOnly [] s (s.pageGone p) := (StoreOnly.refl _ s).sto _ _ _ _ _ _ _

/-- The page has programmed and is counted. -/
def State.pageCounted (s : State) (p : Page) : State := ((s.landPage p false).bump Reg.pagesProgrammed).pageGone p

/-- Its retirement marks are durable. -/
def State.pageMarked (s : State) (p : Page) : State :=
  (s.pageCounted p).each (p.ents.filter (fun e => e.kind = 3)) (fun e s => s.markDurable (e.stream % 8) e.epoch)

theorem pageDone_data {s : State} {p : Page} (hkind : p.kind ≠ 5) (hcast : p.cast = none) : s.pageDone p = s.pageMarked p := by
  unfold State.pageDone
  rw [hcast]
  exact if_neg hkind

theorem pageDone_seal {s : State} {p : Page} {x : Seal} (hkind : p.kind ≠ 5) (hcast : p.cast = some x) :
    s.pageDone p = (s.pageMarked p).sealDurable x p.seq := by
  unfold State.pageDone
  rw [hcast]
  exact if_neg hkind

/-- The registers that durable retirements show in. -/
def markKeys : List Nat := allStreams.map Reg.retireDurable

theorem markDurable_frame {K H s t} (st ep : Nat) (h : Frame K H s t) (hk : Reg.retireDurable st ∈ K) : Frame K H s (t.markDurable st ep) := by
  unfold State.markDurable
  split
  · exact h
  · exact (h.wr _ _ hk).of_eq rfl rfl ⟨fun _ => rfl, rfl, rfl, rfl, rfl, rfl, .of_eq rfl⟩

theorem markDurable_clk (s : State) (st ep : Nat) : (s.markDurable st ep).clk = s.clk := by
  unfold State.markDurable
  split <;> rfl

theorem pageMarked_frame (s : State) (p : Page) : Frame markKeys [] (s.pageCounted p) (s.pageMarked p) :=
  .each _ _ (fun e _ hu => markDurable_frame _ _ hu (mem_map_streams _ (List.mem_range.mpr (Nat.mod_lt _ (by decide))))) (.refl ..)

theorem pageMarked_clk (s : State) (p : Page) : (s.pageMarked p).clk = s.clk :=
  each_keeps (P := fun u => u.clk = s.clk) _ _ (fun _ _ u hu => (markDurable_clk u _ _).trans hu) rfl

theorem pageMarked_spec (s : State) {p : Page} (hkind : p.kind ≠ 5) :
    Lands (Reg.pagesProgrammed :: markKeys) (blkKey p.pos p.block) (p.landed false) s (s.pageMarked p) ∧
    Counts Reg.pagesProgrammed s (s.pageMarked p) := by
  have hcounted : Frame [Reg.pagesProgrammed] [] (s.landPage p false) (s.pageCounted p) :=
    (storeOnly_pageGone _ p).frame (by simp) ((Frame.refl ..).bump _ (by simp))
  have hmarked := pageMarked_frame s p
  refine ⟨((lands_landPage s false hkind).frame hcounted).frame hmarked, (hmarked.rd (by decide)).trans ?_⟩
  exact rd_bump (s.landPage p false) Reg.pagesProgrammed

/-! ### The seal's page (R356) -/

/-- The newest casting is that of the seal; nothing has been accepted since. -/
def State.castNow (s : State) (x : Seal) : State :=
  { s with sto := { s.sto with cast := some x, unconfirmed := true, since := false, marker := none }, pour := { s.pour with sealing := none } }

/-- The seal is stamped and counted. -/
def State.sealNoted (s : State) (page : Nat) : State := ((s.wr Reg.sealStamp s.stamp).bump Reg.seals).wr Reg.lastSealPage page

/-- The casting is sealed. -/
def State.castSealed (s : State) (x : Seal) (page : Nat) : State := ((s.sealNoted page).castNow x).wr Reg.pourState Ps.summary

theorem sealDurable_eq {s : State} (x : Seal) (page : Nat) (h : s.rd Reg.pourState = Ps.sealing) : s.sealDurable x page =
    ((s.castSealed x page).event 0x4004 0xFF (if x.localHeat then 1 else 0) x.heat ((x.rows.map (fun r => r.2.2.1)).sum)).statusIfChanged :=
  if_neg (not_not.mpr h)

/-- The registers of a seal. -/
def sealKeys : List Nat := [Reg.sealStamp, Reg.seals, Reg.lastSealPage, Reg.pourState]

theorem castNow_frame (s : State) (x : Seal) : Frame [] [] s (s.castNow x) :=
  (Frame.refl ..).of_eq rfl rfl ⟨fun _ => rfl, rfl, rfl, rfl, rfl, rfl, .of_eq rfl⟩

theorem castSealed_spec (s : State) (x : Seal) (page : Nat) : (s.castSealed x page).rd Reg.pourState = Ps.summary ∧
    Counts Reg.seals s (s.castSealed x page) ∧ (s.castSealed x page).rd Reg.sealStamp = fit Reg.sealStamp s.stamp ∧
    (s.castSealed x page).rd Reg.lastSealPage = fit Reg.lastSealPage page ∧ Frame sealKeys [] s (s.castSealed x page) := by
  have hnoted : ∀ k, k ≠ Reg.pourState → (s.castSealed x page).rd k = (s.sealNoted page).rd k := fun k hk => by
    rw [State.castSealed, State.rd_wr_ne _ _ hk, (castNow_frame _ x).rd (by simp)]
  refine ⟨rd_wr_of_lt _ (by decide), ?_, ?_, ?_, ?_⟩
  · rw [Counts, hnoted _ (by decide), State.sealNoted, State.rd_wr_ne _ _ (by decide), rd_bump, State.rd_wr_ne _ _ (by decide)]
  · rw [hnoted _ (by decide), State.sealNoted, State.rd_wr_ne _ _ (by decide), rd_bump_ne _ (by decide)]
    exact State.rd_wr_same ..
  · rw [hnoted _ (by decide), State.sealNoted]
    exact State.rd_wr_same ..
  · have hframe : Frame sealKeys [] s (s.sealNoted page) :=
      (((Frame.refl ..).wr _ _ (by decide)).bump _ (by decide)).wr _ _ (by decide)
    exact (hframe.trans ((castNow_frame _ x).mono (by simp) fun _ h => h)).wr _ _ (by decide)

theorem sealDurable_spec {s : State} (x : Seal) (page : Nat) (h : s.rd Reg.pourState = Ps.sealing) :
    (s.sealDurable x page).rd Reg.pourState = Ps.summary ∧ Counts Reg.seals s (s.sealDurable x page) ∧
    (s.sealDurable x page).rd Reg.sealStamp = fit Reg.sealStamp s.stamp ∧
    (s.sealDurable x page).rd Reg.lastSealPage = fit Reg.lastSealPage page ∧ (s.sealDurable x page).sto.cast = some x ∧
    (s.sealDurable x page).sto.unconfirmed = true ∧ Frame (eventKeys ++ sendKeys ++ sealKeys) [] s (s.sealDurable x page) := by
  rw [sealDurable_eq x page h]
  obtain ⟨hpour, hseals, hstamp, hpage, hsealed⟩ := castSealed_spec s x page
  have hsto : (s.castSealed x page).sto.cast = some x ∧ (s.castSealed x page).sto.unconfirmed = true := ⟨rfl, rfl⟩
  generalize s.castSealed x page = v at *
  generalize (x.rows.map (fun r => r.2.2.1)).sum = d
  have hevent := logOnly_event v 0x4004 0xFF (if x.localHeat then 1 else 0) x.heat d
  have hsto' := State.event_sto v 0x4004 0xFF (if x.localHeat then 1 else 0) x.heat d
  generalize v.event 0x4004 0xFF (if x.localHeat then 1 else 0) x.heat d = w at *
  have hsend := sendOnly_statusIfChanged w
  have hrd : ∀ k ∈ sealKeys, w.statusIfChanged.rd k = v.rd k := fun k hk => by
    have hout : ∀ k ∈ sealKeys, k ∉ eventKeys ∧ k ∉ sendKeys := by decide
    rw [hsend.rd (hout k hk).2, hevent.rd (hout k hk).1]
  refine ⟨(hrd _ (by decide)).trans hpour, (hrd _ (by decide)).trans hseals, (hrd _ (by decide)).trans hstamp, (hrd _ (by decide)).trans hpage,
    ?_, ?_, ?_⟩
  · obtain ⟨_, _, h, _⟩ := hsend
    rw [h, hsto']
    exact hsto.1
  · obtain ⟨_, _, h, _⟩ := hsend
    rw [h, hsto']
    exact hsto.2
  · exact hsend.frame (by decide) (hevent.frame (by decide) (hsealed.mono (by decide) fun _ h => h))

/-! ### The die goes on -/

/-- The die has ended what it did, and waiting pages go on. -/
def State.dieGoesOn (s : State) (d : Nat) : State := (s.refreshDie d).pump

theorem storeOnly_dieGoesOn (s : State) (d : Die) : StoreOnly pumpKeys s (s.dieGoesOn d) := by
  have hin : ∀ d : Die, Reg.dieState d ∈ pumpKeys := by decide
  exact ((StoreOnly.refl _ s).refreshDie d (hin d)).pump

/-- The worst correction of pages that are read back is noted. -/
def State.readNoted (s : State) (p : Page) (d bits : Nat) : State := s.iff (p.readBack && bits ≤ 40) (·.corrected d bits)

theorem readNoted_spec (s : State) (p : Page) (d bits : Nat) : Frame (eventKeys ++ [Reg.maxCorrected d, Reg.isFlags]) [] s (s.readNoted p d bits) ∧
    (s.readNoted p d bits).clk = s.clk := by
  refine ⟨.iff _ _ (fun _ => corrected_frame s d bits) (.refl ..), ?_⟩
  unfold State.readNoted State.iff
  split
  · unfold State.corrected
    dsimp only
    split
    · rw [State.event_clk, State.flag_clk, State.wr_clk]
    · rfl
  · rfl

theorem exec_pageProgramDone {s : State} {d : Die} {bits : Nat} {p : Page} (hstate : s.rd Reg.isState = 2)
    (hpages : s.sto.pages.filter (fun q => q.busy && dieOf q.pos = d.val) = [p])
    (hgood : p.readBack = true → bits ≤ s.rd Reg.verifyBits) :
    exec (.pageProgramDone d bits) s = .next (((s.readNoted p d bits).pageDone p).dieGoesOn d) := by
  have hverify : (s.readNoted p d bits).rd Reg.verifyBits = s.rd Reg.verifyBits := by
    have hout : ∀ d : Die, Reg.verifyBits ∉ eventKeys ++ [Reg.maxCorrected d, Reg.isFlags] := by decide
    exact (readNoted_spec s p d bits).1.rd (hout d)
  have hwell : ¬((p.readBack && decide ((s.readNoted p d bits).rd Reg.verifyBits < bits)) = true) := by
    rw [hverify]
    simpa using hgood
  have hany : [p].any Page.readBack = p.readBack := by simp
  show execPageProgramDone d bits s = _
  unfold execPageProgramDone
  rw [hpages]
  dsimp only
  rw [if_neg (by simp [hstate]), hany]
  exact congrArg (fun u : State => Host.Outcome.next ((u.refreshDie d).pump)) (if_neg hwell)

/-! ### A page that failed (R388) -/

/-- The failure is counted, flagged and told. -/
def State.failTold (s : State) (p : Page) : State :=
  ((s.bump Reg.progFails).flag Reg.isFlags 1).event 0x4103 (dieOf p.pos) (planeOf p.pos) p.block

theorem failTold_spec (s : State) (p : Page) : Counts Reg.progFails s (s.failTold p) ∧ (s.failTold p).bitOf Reg.isFlags 1 = true ∧
    Frame (eventKeys ++ [Reg.progFails, Reg.isFlags]) [] s (s.failTold p) := by
  have hevent := logOnly_event ((s.bump Reg.progFails).flag Reg.isFlags 1) 0x4103 (dieOf p.pos) (planeOf p.pos) p.block 0
  refine ⟨(hevent.rd (by decide)).trans ((rd_flag_ne _ _ (by decide)).trans (rd_bump ..)), ?_, ?_⟩
  · exact (bitOf_of_rd 1 (hevent.rd (by decide))).trans (bitOf_flag _ (by decide))
  · exact hevent.frame (by decide) (((Frame.refl ..).bump _ (by decide)).flag _ _ (by decide))

/-- What the page held is placed again, its position leaves the row, and its block is grown bad. -/
theorem pageFailed_eq (s : State) {p : Page} (hkind : p.kind ≠ 5) :
    ∃ u, StoreOnly [Reg.openRowMask] ((s.failTold p).landPage p true) u ∧ s.pageFailed p = u.growBad (blkKey p.pos p.block) := by
  unfold State.pageFailed
  refine ⟨_, ?_, if_neg hkind⟩
  exact (((StoreOnly.refl _ _).sto _ _ _ _ _ _ _).sto _ _ _ _ _ _ _).wr _ _ (by simp)

/-- The registers that a failed page changes. -/
def pageFailKeys : List Nat := eventKeys ++ [Reg.progFails, Reg.isFlags] ++ [Reg.openRowMask] ++ badKeys

theorem pageFailed_spec (s : State) {p : Page} (hkind : p.kind ≠ 5) :
    Lands pageFailKeys (blkKey p.pos p.block) (p.landed true) s (s.pageFailed p) ∧
    Counts Reg.progFails s (s.pageFailed p) ∧ (s.pageFailed p).bitOf Reg.isFlags 1 = true ∧
    (s.pageFailed p).isBad (blkKey p.pos p.block) = true := by
  obtain ⟨u, hplaced, heq⟩ := pageFailed_eq s hkind
  obtain ⟨hfails, hflag, htold⟩ := failTold_spec s p
  obtain ⟨hbad, hflags, hgrown⟩ := growBad_spec u (blkKey p.pos p.block)
  have hland := lands_landPage (s.failTold p) true hkind
  have hkept : ∀ k, k ≠ Reg.openRowMask → u.rd k = (s.failTold p).rd k := fun k hk =>
    (hplaced.rd (by simpa using hk)).trans (hland.aside.rd (by simp))
  rw [heq]
  refine ⟨((hland.frame (hplaced.frame (fun _ h => h) (.refl ..))).after htold |>.frame hgrown).mono (by decide), ?_, ?_, hbad⟩
  · exact ((hgrown.rd (by decide)).trans (hkept _ (by decide))).trans hfails
  · exact hflags 1 (by decide) ((bitOf_of_rd 1 (hkept _ (by decide))).trans hflag)

theorem exec_programFail {s : State} {d : Die} {q : Plane} {p : Page}
    (hpage : s.sto.pages.find? (fun x => x.busy && x.pos = 4 * q.val + d.val) = some p) :
    exec (.programFail d q) s = .next ((s.pageFailed p).dieGoesOn d) := by
  show execProgramFail d q s = _
  unfold execProgramFail
  rw [hpage]
  rfl

/-! ### A page that waited too long (R384) -/

/-- Every page that waits is ready to be programmed. -/
def State.allReady (s : State) : Prop := ∀ p ∈ s.sto.pages, p.ready = true

theorem curPage_of_allReady {s : State} (h : s.allReady) : s.curPage = none :=
  List.find?_eq_none.mpr fun p hp => by simp [h p hp]

theorem pad_ready (p : Page) : p.pad.ready = true := by
  unfold Page.pad
  split <;> rfl

theorem allReady_padOpen (s : State) : s.padOpen.allReady := by
  intro p hp
  obtain ⟨q, _, rfl⟩ := List.mem_map.mp hp
  split
  · exact pad_ready q
  · next h => simpa using h

/-- An edit that makes no page unready. -/
theorem allReady_editPages {s : State} (c : Page → Bool) (f : Page → Page) (hf : ∀ p, (f p).ready = p.ready) (h : s.allReady) :
    (s.editPages c f).allReady := by
  intro p hp
  obtain ⟨q, hq, rfl⟩ := List.mem_map.mp hp
  split
  · rw [hf, h q hq]
  · exact h q hq

theorem openRow_waits (s : State) : s.openRow.sto.pages = s.sto.pages ∧ s.openRow.sto.todo = s.sto.todo := by
  unfold State.openRow
  dsimp only
  split <;> exact ⟨rfl, rfl⟩

/-- Closing a row queues summary pages, which are ready. -/
theorem closeRow_waits (s : State) : (s.allReady → s.closeRow.allReady) ∧ s.closeRow.sto.todo = s.sto.todo := by
  unfold State.closeRow State.allReady
  split
  · obtain ⟨hpages, htodo⟩ := openRow_waits s
    rw [hpages]
    exact ⟨id, htodo⟩
  · dsimp only
    split
    · rw [(openRow_waits _).1, (openRow_waits _).2]
      refine ⟨fun h p hp => ?_, rfl⟩
      rcases List.mem_append.mp hp with hp | hp
      · exact h p hp
      · obtain ⟨n, hn, rfl⟩ := List.mem_mapIdx.mp hp
        rfl
    · exact ⟨id, rfl⟩

theorem placeAll_idle {s : State} (n : Nat) (h : s.sto.todo = []) : s.placeAll n = s := by
  cases n with
  | zero => rfl
  | succ n =>
    have hnone : s.placeStep = none := by
      unfold State.placeStep
      rw [h]
    rw [State.placeAll, hnone]

theorem refreshDie_sto (s : State) (d : Nat) : (s.refreshDie d).sto = s.sto := by
  unfold State.refreshDie
  split <;> rfl

theorem allReady_of_pages {s t : State} (h : s.allReady) (hpages : t.sto.pages = s.sto.pages) : t.allReady := by
  unfold State.allReady
  rw [hpages]
  exact h

theorem allReady_refreshDie {s : State} (d : Nat) (h : s.allReady) : (s.refreshDie d).allReady :=
  allReady_of_pages h (by rw [refreshDie_sto])

theorem allReady_startDie {s : State} (d : Nat) (h : s.allReady) : (s.startDie d).allReady := by
  unfold State.startDie
  split
  · exact allReady_refreshDie d h
  · split
    · exact allReady_refreshDie d h
    · exact allReady_refreshDie d h
    · split
      · exact allReady_refreshDie d h
      · exact allReady_refreshDie d (allReady_editPages (s := s) _ _ (fun _ => rfl) h)

theorem allReady_startDies {s : State} (h : s.allReady) : s.startDies.allReady :=
  each_keeps (P := State.allReady) [0, 1, 2, 3] _ (fun d _ _ hu => allReady_startDie d hu) h

/-- Where nothing waits for a place, no page is opened. -/
theorem allReady_pump {s : State} (htodo : s.sto.todo = []) (h : s.allReady) : s.pump.allReady := by
  obtain ⟨hready, hsame⟩ := closeRow_waits s
  unfold State.pump
  split
  · exact h
  · dsimp only
    rw [placeAll_idle _ (hsame.trans htodo)]
    split
    · exact allReady_startDies (allReady_padOpen _)
    · exact allReady_startDies (hready h)

theorem exec_pageWaitExpiry {s : State} {p : Page} (hstate : s.rd Reg.isState = 2) (hpage : s.curPage = some p) :
    exec .pageWaitExpiry s = .next s.padOpen.pump := if_pos (by simp [hstate, hpage])

theorem readBack_of_data {p : Page} (hkind : p.kind ≠ 5) (hsum : p.kind ≠ 4) (hcast : p.cast = none) : p.readBack = false := by
  simp [Page.readBack, hkind, hsum, hcast]

theorem readKeys_apart : ∀ d : Die, Reg.pourState ∉ eventKeys ++ [Reg.maxCorrected d, Reg.isFlags] ∧
    Reg.seals ∉ eventKeys ++ [Reg.maxCorrected d, Reg.isFlags] ∧
    eventKeys ++ [Reg.maxCorrected d, Reg.isFlags] ++ (Reg.pagesProgrammed :: markKeys) ++ (eventKeys ++ sendKeys ++ sealKeys) ++ pumpKeys ⊆
      eventKeys ++ sendKeys ++ pumpKeys ++ [Reg.pagesProgrammed, Reg.maxCorrected d, Reg.isFlags, Reg.sealStamp, Reg.seals, Reg.lastSealPage,
        Reg.pourState] ++ allStreams.map Reg.retireDurable := by decide

/-- Settles O26: a page that programmed or failed stands in its block, every other block as before; a seal that is durable is the newest
casting; what the die goes on with touches no block, and pads leave no page being assigned. -/
theorem pagesAreProgrammed : Obligations.PagesAreProgrammed := by
  unfold Obligations.PagesAreProgrammed
  refine ⟨fun s d bits p hstate hpages hkind hsum hcast => ?_, fun s d bits p x hstate hpages hkind hcast hpour hbits => ?_,
    fun s d q p hstate hpage hkind => ?_, fun s p hstate hpage htodo => ?_⟩
  case refine_1 =>
    have hback := readBack_of_data hkind hsum hcast
    have hexec := exec_pageProgramDone (bits := bits) hstate hpages (fun h => absurd h (by simp [hback]))
    have hread : s.readNoted p d bits = s := State.iff_of_false _ _ (by simp [hback])
    rw [hread, pageDone_data hkind hcast] at hexec
    obtain ⟨hlands, hcount⟩ := pageMarked_spec s hkind
    have hgoes := (storeOnly_dieGoesOn (s.pageMarked p) d).frame (fun _ h => h) (Frame.refl (H := []) ..)
    obtain ⟨hblk, hothers, hsums, hquiet, hcode, _, hcope, hdrag, hring⟩ := hlands.frame hgoes
    refine ⟨_, hexec, hblk, hothers, (hgoes.rd (by decide)).trans hcount, hquiet.mono (by decide) fun _ h => h, hcode, hcope, hdrag, hsums, hring⟩
  case refine_2 =>
    have hexec := exec_pageProgramDone (bits := bits) hstate hpages (fun _ => hbits)
    rw [pageDone_seal hkind hcast] at hexec
    obtain ⟨hread, hclk⟩ := readNoted_spec s p d bits
    obtain ⟨hlands, hcount⟩ := pageMarked_spec (s.readNoted p d bits) hkind
    obtain ⟨hpourRead, hsealsRead, hblkKeys⟩ := readKeys_apart d
    have hpour' : ((s.readNoted p d bits).pageMarked p).rd Reg.pourState = Ps.sealing :=
      (hlands.aside.rd (by decide)).trans ((hread.rd hpourRead).trans hpour)
    have hstamp : ((s.readNoted p d bits).pageMarked p).stamp = s.stamp := by
      rw [State.stamp, pageMarked_clk, hclk, State.stamp]
    obtain ⟨hsummary, hseals, hstamped, hpage, hset, hunconfirmed, hsealed⟩ := sealDurable_spec x p.seq hpour'
    have hstore := storeOnly_dieGoesOn (((s.readNoted p d bits).pageMarked p).sealDurable x p.seq) d
    have hgoes := hstore.frame (fun _ h => h) (Frame.refl (H := []) ..)
    have hall := ((hlands.after hread).frame hsealed).frame hgoes
    have hcast' : ((((s.readNoted p d bits).pageMarked p).sealDurable x p.seq).dieGoesOn d).sto.cast = some x ∧
        ((((s.readNoted p d bits).pageMarked p).sealDurable x p.seq).dieGoesOn d).sto.unconfirmed = true := by
      obtain ⟨_, _, _, _, _, _, _, _, h, _⟩ := hstore
      rw [h]
      exact ⟨hset, hunconfirmed⟩
    refine ⟨_, hexec, (hgoes.rd (by decide)).trans hsummary, (hgoes.rd (by decide)).trans (hseals.since ?_), ?_, (hgoes.rd (by decide)).trans hpage,
      hcast'.1, hcast'.2, hall.pages, hall.aside.1.mono hblkKeys fun _ h => h⟩
    · exact (hlands.aside.rd (by decide)).trans (hread.rd hsealsRead)
    · rw [hgoes.rd (by decide), hstamped, hstamp]
  case refine_3 =>
    obtain ⟨hlands, hfails, hflag, hbad⟩ := pageFailed_spec s hkind
    have hstore := storeOnly_dieGoesOn (s.pageFailed p) d
    have hgoes := hstore.frame (fun _ h => h) (Frame.refl (H := []) ..)
    obtain ⟨hblk, hothers, hsums, hquiet, hcode, _, hcope, hdrag, hring⟩ := hlands.frame hgoes
    refine ⟨_, exec_programFail hpage, (hgoes.rd (by decide)).trans hfails, (bitOf_of_rd 1 (hgoes.rd (by decide))).trans hflag,
      (hstore.isBad _).trans hbad, hblk, hothers, hquiet.mono (by decide) fun _ h => h, hcode, hcope, hdrag, hsums, hring⟩
  case refine_4 =>
    have hopen : s.padOpen.sto.todo = [] := htodo
    exact ⟨_, exec_pageWaitExpiry hstate hpage, curPage_of_allReady (allReady_pump hopen (allReady_padOpen s)),
      (StoreOnly.padOpen (.refl _ s)).pump.frame (fun _ h => h) (.refl ..)⟩

end Sys2Proof.Machine
end

section
/-! PROOF. The pour's ways through drain, flush, seal, off-slots and rest (spec/14_pour_and_shakeout.md R351-R365). -/
namespace Sys2Proof.Machine

/-! ### What waits in the crucible -/

/-- The crucible's records are as before; of their pages nothing is said. -/
def CruKept (s t : State) : Prop := t.sto.crucible.map (·.r) = s.sto.crucible.map (·.r)

theorem CruKept.of_sto {s t u : State} (h : CruKept s t) (hsto : u.sto.crucible = t.sto.crucible) : CruKept s u := by
  rw [CruKept, hsto]
  exact h

theorem CruKept.map {s t u : State} (h : CruKept s t) (f : CruRec → CruRec) (hf : ∀ c, (f c).r = c.r)
    (hu : u.sto.crucible = t.sto.crucible.map f) : CruKept s u := by
  have hcomp : ((fun c : CruRec => c.r) ∘ f) = fun c => c.r := funext hf
  rw [CruKept, hu, List.map_map, hcomp]
  exact h

theorem CruKept.nonempty {s t : State} (h : CruKept s t) (hs : s.sto.crucible ≠ []) : t.sto.crucible ≠ [] := by
  intro ht
  rw [CruKept, ht] at h
  exact hs (List.map_eq_nil_iff.mp h.symm)

theorem openRow_crucible (s : State) : s.openRow.sto.crucible = s.sto.crucible := by
  unfold State.openRow
  dsimp only
  split <;> rfl

theorem closeRow_crucible (s : State) : s.closeRow.sto.crucible = s.sto.crucible := by
  unfold State.closeRow
  split
  · exact openRow_crucible s
  · dsimp only
    split
    · exact openRow_crucible _
    · rfl

theorem newPage_crucible (s : State) (kind : Nat) : (s.newPage kind).sto.crucible = s.sto.crucible := by
  unfold State.newPage
  split
  · rfl
  · dsimp only
    split <;> rfl

theorem pageFor_crucible (s : State) (c : Bool) (kind : Nat) : (if c = true then s else s.newPage kind).sto.crucible = s.sto.crucible := by
  split
  · rfl
  · exact newPage_crucible s kind

theorem placeStep_crucible {s t : State} (h : s.placeStep = some t) : CruKept s t := by
  unfold State.placeStep at h
  split at h
  · exact absurd h (by simp)
  · split at h
    · dsimp only at h
      split at h
      · exact absurd h (by simp)
      · rw [← Option.some.inj h]
        exact CruKept.of_sto (t := s) rfl (newPage_crucible s.padOpen 2)
    · split at h
      · rw [← Option.some.inj h]
        exact rfl
      · dsimp only at h
        split at h
        · exact absurd h (by simp)
        · rw [← Option.some.inj h]
          have hsame : CruKept s (if s.curPage.isSome = true then s else s.newPage 1) := CruKept.of_sto (t := s) rfl (pageFor_crucible s _ 1)
          refine hsame.map _ (fun c => ?_) rfl
          split <;> rfl
    all_goals
      dsimp only at h
      split at h
      · exact absurd h (by simp)
      · rw [← Option.some.inj h]
        exact CruKept.of_sto (t := s) rfl (pageFor_crucible s _ 1)

theorem CruKept.trans {s t u : State} (h1 : CruKept s t) (h2 : CruKept t u) : CruKept s u := Eq.trans h2 h1

theorem placeAll_crucible (n : Nat) (s : State) : CruKept s (s.placeAll n) := by
  induction n generalizing s with
  | zero => exact rfl
  | succ n ih =>
    unfold State.placeAll
    split
    · next hstep => exact (placeStep_crucible hstep).trans (ih _)
    · exact rfl

theorem refreshDie_crucible (s : State) (d : Nat) : (s.refreshDie d).sto.crucible = s.sto.crucible := by rw [refreshDie_sto]

theorem startDie_crucible (s : State) (d : Nat) : (s.startDie d).sto.crucible = s.sto.crucible := by
  unfold State.startDie
  split
  · exact refreshDie_crucible s d
  · split
    · exact refreshDie_crucible s d
    · exact refreshDie_crucible _ d
    · split
      · exact refreshDie_crucible _ d
      · refine (refreshDie_crucible _ d).trans ?_
        rfl

theorem startDies_crucible (s : State) : s.startDies.sto.crucible = s.sto.crucible :=
  each_keeps (P := fun u => u.sto.crucible = s.sto.crucible) [0, 1, 2, 3] _ (fun d _ u hu => (startDie_crucible u d).trans hu) rfl

/-- Placing records into pages keeps them in the crucible. -/
theorem pump_crucible (s : State) : CruKept s s.pump := by
  have hclose : CruKept s s.closeRow := CruKept.of_sto (t := s) rfl (closeRow_crucible s)
  have hplaced := hclose.trans (placeAll_crucible (8 * s.closeRow.sto.todo.length + 8) s.closeRow)
  unfold State.pump
  split
  · exact rfl
  · dsimp only
    split
    · exact hplaced.of_sto (startDies_crucible _)
    · exact hplaced.of_sto (startDies_crucible _)

/-! ### The drain ends (R351, R352) -/

/-- The drain's end is named; where a watchdog ended it, that is told. -/
def State.drainNamed (s : State) (code : Nat) : State :=
  if code = 3 then ((s.wr Reg.drainEnd code).flag Reg.pourFlags 2).event 0x4006 0xFF 1 else s.wr Reg.drainEnd code

/-- The drain's end is told. -/
def State.drainNoted (s : State) (code : Nat) : State :=
  (s.drainNamed code).event 0x4003 0xFF code ((s.drainNamed code).rd Reg.pourRx) ((s.drainNamed code).rd Reg.pourAllow)

/-- The flush begins. -/
def State.flushBegun (s : State) : State := (s.wr Reg.pourState Ps.flush).refreshOpen.pump.flushCheck

theorem endDrain_eq {s : State} {code : Nat} (hpour : s.rd Reg.pourState = Ps.drain) (hcode : code ≠ 4) :
    s.endDrain code = ((s.drainNoted code).drainReset code).flushBegun := by
  unfold State.endDrain
  rw [if_neg (not_not.mpr (show s.pourSt = Ps.drain from hpour))]
  exact if_neg hcode

/-- The registers of a drain's end. -/
def drainKeys : List Nat := eventKeys ++ [Reg.drainEnd, Reg.pourFlags, Reg.hostResets]

theorem bitOf_event {k i : Nat} (s : State) (code obj detail a b : Nat) (hk : k ∉ eventKeys) (h : s.bitOf k i = true) :
    (s.event code obj detail a b).bitOf k i = true := (bitOf_of_rd i (State.rd_event s code obj detail a b hk)).trans h

theorem drainNamed_spec (s : State) {code : Nat} (hcode : code < 256) : (s.drainNamed code).rd Reg.drainEnd = code ∧
    (code = 3 → (s.drainNamed code).bitOf Reg.pourFlags 2 = true) ∧ (s.drainNamed code).sto = s.sto ∧ (s.drainNamed code).phase = s.phase ∧
    Frame drainKeys [] s (s.drainNamed code) := by
  have hnamed : Frame drainKeys [] s (s.wr Reg.drainEnd code) := (Frame.refl ..).wr _ _ (by decide)
  unfold State.drainNamed
  split
  · refine ⟨?_, fun _ => bitOf_event _ _ _ _ _ _ (by decide) (bitOf_flag _ (by decide)), ?_, ?_, ?_⟩
    · rw [State.rd_event _ _ _ _ _ _ (by decide), rd_flag_ne _ _ (by decide)]
      exact rd_wr_of_lt _ hcode
    · rw [State.event_sto, State.flag_sto, State.wr_sto]
    · rw [State.event_phase, State.flag_phase, State.wr_phase]
    · exact (hnamed.flag _ _ (by decide)).event _ _ _ _ _ (by decide)
  · next h => exact ⟨rd_wr_of_lt _ hcode, fun h3 => absurd h3 h, rfl, rfl, hnamed⟩

/-- HOST_RST# is low for the drain's end. -/
def State.drainHeld (s : State) : State := { s.hostResetLow with pads := { s.hostResetLow.pads with hostDrain := true } }

/-- The host's reset is counted and told. -/
def State.resetAsked (s : State) (pol : Nat) : State := ((s.drainHeld.flag Reg.pourFlags 5).bump Reg.hostResets).event 0x4007 0xFF pol

theorem drainReset_cases (s : State) (code : Nat) : s.drainReset code = s ∨ ∃ pol, s.drainReset code = s.resetAsked pol := by
  unfold State.drainReset
  dsimp only
  split
  · exact .inr ⟨_, rfl⟩
  · exact .inl rfl

theorem drainHeld_spec (s : State) : s.drainHeld.sto = s.sto ∧ s.drainHeld.phase = s.phase ∧
    s.drainHeld.rd Reg.pourFlags = s.rd Reg.pourFlags ∧ Frame (eventKeys ++ [Reg.pourFlags, Reg.hostResets]) [] s s.drainHeld :=
  ⟨rfl, rfl, rfl, (Frame.refl ..).pads _⟩

theorem resetAsked_spec (s : State) (pol : Nat) : (s.resetAsked pol).sto = s.sto ∧ (s.resetAsked pol).phase = s.phase ∧
    (∀ i, i < 8 * sizeAt Reg.pourFlags → s.bitOf Reg.pourFlags i = true → (s.resetAsked pol).bitOf Reg.pourFlags i = true) ∧
    Frame (eventKeys ++ [Reg.pourFlags, Reg.hostResets]) [] s (s.resetAsked pol) := by
  obtain ⟨hsto, hphase, hrd, hframe⟩ := drainHeld_spec s
  unfold State.resetAsked
  generalize s.drainHeld = u at *
  refine ⟨?_, ?_, fun i hi h => ?_, ?_⟩
  · rw [State.event_sto, State.bump_sto, State.flag_sto, hsto]
  · rw [State.event_phase, State.bump_phase, State.flag_phase, hphase]
  · refine bitOf_event _ _ _ _ _ _ (by decide) ((bitOf_of_rd i (rd_bump_ne _ (by decide))).trans ?_)
    exact bitOf_flag_of_bitOf 5 hi ((bitOf_of_rd i hrd).trans h)
  · exact ((hframe.flag _ _ (by decide)).bump _ (by decide)).event _ _ _ _ _ (List.subset_append_left ..)

theorem drainReset_spec (s : State) (code : Nat) : (s.drainReset code).sto = s.sto ∧ (s.drainReset code).phase = s.phase ∧
    (∀ i, i < 8 * sizeAt Reg.pourFlags → s.bitOf Reg.pourFlags i = true → (s.drainReset code).bitOf Reg.pourFlags i = true) ∧
    Frame (eventKeys ++ [Reg.pourFlags, Reg.hostResets]) [] s (s.drainReset code) := by
  rcases drainReset_cases s code with h | ⟨pol, h⟩
  · rw [h]
    exact ⟨rfl, rfl, fun _ _ h => h, .refl ..⟩
  · rw [h]
    exact resetAsked_spec s pol

/-- The drain's end, named and told. -/
theorem drainEnded_spec (s : State) {code : Nat} (hcode : code < 256) :
    ((s.drainNoted code).drainReset code).rd Reg.drainEnd = code ∧
    (code = 3 → ((s.drainNoted code).drainReset code).bitOf Reg.pourFlags 2 = true) ∧
    ((s.drainNoted code).drainReset code).sto = s.sto ∧ ((s.drainNoted code).drainReset code).phase = s.phase ∧
    Frame drainKeys [] s ((s.drainNoted code).drainReset code) := by
  obtain ⟨hend, hflag, hsto, hphase, hframe⟩ := drainNamed_spec s hcode
  obtain ⟨hsto', hphase', hkeep, hframe'⟩ := drainReset_spec (s.drainNoted code) code
  have hnoted : Frame drainKeys [] s (s.drainNoted code) := hframe.event _ _ _ _ _ (by decide)
  refine ⟨?_, fun h => hkeep 2 (by decide) (bitOf_event _ _ _ _ _ _ (by decide) (hflag h)), ?_, ?_, hnoted.trans (hframe'.mono (by decide) fun _ h => h)⟩
  · rw [hframe'.rd (by decide), State.drainNoted, State.rd_event _ _ _ _ _ _ (by decide), hend]
  · rw [hsto', State.drainNoted, State.event_sto, hsto]
  · rw [hphase', State.drainNoted, State.event_phase, hphase]

theorem StoreOnly.phase {K s t} (h : StoreOnly K s t) : t.phase = s.phase ∧ t.pour = s.pour := by
  obtain ⟨_, _, _, _, _, _, _, _, rfl, _⟩ := h
  exact ⟨rfl, rfl⟩

theorem refreshOpen_phase (s : State) : s.refreshOpen.phase = s.phase ∧ s.refreshOpen.pour = s.pour := by
  obtain ⟨_, _, h⟩ := refreshOpen_only s
  rw [h]
  exact ⟨rfl, rfl⟩

theorem flushCheck_idle {s : State} (h : s.sto.crucible ≠ []) : s.flushCheck = s := if_neg (by simp [h])

/-- What is in the crucible keeps the flush from ending (R353). -/
theorem flushBegun_spec {s : State} (hcru : s.sto.crucible ≠ []) : s.flushBegun.rd Reg.pourState = Ps.flush ∧ s.flushBegun.phase = s.phase ∧
    Frame (Reg.pourState :: openKeys ++ pumpKeys) [] s s.flushBegun := by
  have hopen := refreshOpen_frame (Frame.refl openKeys [] (s.wr Reg.pourState Ps.flush)) fun _ h => h
  have hshown := (refreshOpen_keeps (s.wr Reg.pourState Ps.flush)).2.2
  have hphase := (refreshOpen_phase (s.wr Reg.pourState Ps.flush)).1
  unfold State.flushBegun
  generalize (s.wr Reg.pourState Ps.flush).refreshOpen = u at *
  have hpump := storeOnly_pump u
  rw [flushCheck_idle ((pump_crucible u).nonempty (by rw [hshown, State.wr_sto]; exact hcru))]
  refine ⟨?_, ?_, ?_⟩
  · rw [hpump.rd (by decide), hopen.rd (by decide)]
    exact rd_wr_of_lt _ (by decide)
  · rw [hpump.phase.1, hphase, State.wr_phase]
  · exact hpump.frame (List.subset_append_right ..)
      (((Frame.refl ..).wr _ _ (by simp)).trans (hopen.mono (List.subset_append_of_subset_left _ (List.subset_cons_self ..)) fun _ h => h))

theorem exec_drainWindowExpiry {s : State} (hrun : s.sup.running = true) (hpour : s.rd Reg.pourState = Ps.drain)
    (hwindow : s.rd Reg.drainWindow ≤ s.tick - s.pour.at_) : exec .drainWindowExpiry s = .next (s.endDrain 1) :=
  if_pos (by simp [hrun, hwindow, State.pourSt, hpour])

theorem exec_pwdDrainExpiry {s : State} (hrun : s.sup.running = true) (hpour : s.rd Reg.pourState = Ps.drain) :
    exec .pwdDrainExpiry s = .next (s.endDrain 3) := if_pos (by simp [hrun, State.pourSt, hpour])

/-- A drain that ends with records in the crucible leads to the flush. -/
theorem endDrain_spec {s : State} {code : Nat} (hpour : s.rd Reg.pourState = Ps.drain) (hcode : code < 256) (hnot : code ≠ 4)
    (hcru : s.sto.crucible ≠ []) : (s.endDrain code).rd Reg.pourState = Ps.flush ∧ (s.endDrain code).rd Reg.drainEnd = code ∧
    (code = 3 → (s.endDrain code).bitOf Reg.pourFlags 2 = true) ∧ (s.endDrain code).phase = s.phase ∧
    Frame (drainKeys ++ (Reg.pourState :: openKeys ++ pumpKeys)) [] s (s.endDrain code) := by
  obtain ⟨hend, hflag, hsto, hphase, hframe⟩ := drainEnded_spec s hcode
  rw [endDrain_eq hpour hnot]
  obtain ⟨hflush, hphase', hbegun⟩ := flushBegun_spec (s := (s.drainNoted code).drainReset code) (by rw [hsto]; exact hcru)
  exact ⟨hflush, (hbegun.rd (by decide)).trans hend, fun h => (bitOf_of_rd 2 (hbegun.rd (by decide))).trans (hflag h), hphase'.trans hphase,
    (hframe.mono (List.subset_append_left ..) fun _ h => h).trans (hbegun.mono (List.subset_append_right ..) fun _ h => h)⟩

end Sys2Proof.Machine
end

section
/-! PROOF. The seal begins, the summary is written, the off-slots are released, rest ends (spec/14_pour_and_shakeout.md R353-R365). -/
namespace Sys2Proof.Machine

/-! ### The seal begins (R354, R357) -/

/-- The registers that a stream's dross shows in. -/
def drossKeys (st : Nat) : List Nat := [Reg.drossTotal, Reg.pourFlags, Reg.drossRecs st, Reg.drossEpoch st, Reg.epochState st]

theorem drossKeys_apart : ∀ st ∈ allStreams, Reg.pourFlags ∉ [Reg.drossRecs st, Reg.drossEpoch st, Reg.epochState st, Reg.drossTotal] := by
  decide

/-- The counts of a stream's dross. -/
def State.drossShown (s : State) (st : Nat) : State := (s.wr (Reg.drossRecs st) (s.drossOf st).1).wr (Reg.drossEpoch st) (s.drossOf st).2

/-- The stream's dross is counted and flagged, the stream closed. -/
def State.drossCounted (s : State) (st n : Nat) : State :=
  ((s.bumpBy Reg.drossTotal n).flag Reg.pourFlags 8).wr (Reg.epochState st) 2

/-- The stream's dross is gone. -/
def State.drossGone (s : State) (st n e : Nat) : State :=
  let has := s.bitOf (Reg.streamHas st) 1
  let last := s.rd (Reg.lastComplete st)
  { s.drossCounted st n with
    sto := { s.sto with
      crucible := s.sto.crucible.filter (fun c => c.r.stream ≠ st)
      todo := s.sto.todo.filter (fun it => match it with | .record a _ _ => a ≠ st | _ => true)
      unret := s.sto.unret.filter (fun u => u.1 ≠ st || (has && atOrBefore u.2.1 last))
      lastClosed := tput s.sto.lastClosed st (e + 1)
      tail := tset (0, 0) s.sto.tail st (0, 0) } }

theorem dropDross_eq (s : State) (st : Nat) : s.dropDross st =
    if (s.drossOf st).1 = 0 then s.drossShown st else (s.drossShown st).drossGone st (s.drossOf st).1 (s.drossOf st).2 := rfl

theorem drossGone_reg (s : State) (st n e : Nat) : (s.drossGone st n e).reg = (s.drossCounted st n).reg := rfl

theorem drossGone_frame {K H s t} (st n e : Nat) (h : Frame K H s t) (hK : drossKeys st ⊆ K) : Frame K H s (t.drossGone st n e) := by
  have hkeys : ∀ k ∈ drossKeys st, k ∈ K := fun k hk => hK hk
  have hgone : Frame K H s (t.drossCounted st n) :=
    ((h.bumpBy _ _ (hkeys _ (by simp [drossKeys]))).flag _ _ (hkeys _ (by simp [drossKeys]))).wr _ _ (hkeys _ (by simp [drossKeys]))
  exact hgone.of_eq rfl rfl ⟨fun _ => rfl, rfl, rfl, rfl, rfl, rfl, .of_eq rfl⟩

theorem dropDross_frame {K H s t} (st : Nat) (h : Frame K H s t) (hK : drossKeys st ⊆ K) : Frame K H s (t.dropDross st) := by
  have hkeys : ∀ k ∈ drossKeys st, k ∈ K := fun k hk => hK hk
  have hshown : Frame K H s (t.drossShown st) := (h.wr _ _ (hkeys _ (by simp [drossKeys]))).wr _ _ (hkeys _ (by simp [drossKeys]))
  rw [dropDross_eq]
  split
  · exact hshown
  · exact drossGone_frame _ _ _ hshown hK

theorem dropDross_flag {s : State} {st i : Nat} (hst : st ∈ allStreams) (hi : i < 8 * sizeAt Reg.pourFlags) (h : s.bitOf Reg.pourFlags i = true) :
    (s.dropDross st).bitOf Reg.pourFlags i = true := by
  have hne := drossKeys_apart st hst
  simp only [List.mem_cons, List.not_mem_nil, or_false, not_or] at hne
  obtain ⟨hrecs, hepoch, hstate, htotal⟩ := hne
  have hshown : (s.drossShown st).bitOf Reg.pourFlags i = true := bitOf_wr_ne _ hepoch (bitOf_wr_ne _ hrecs h)
  rw [dropDross_eq]
  split
  · exact hshown
  · rw [bitOf_of_rd i (State.rd_congr (drossGone_reg ..) _), State.drossCounted]
    exact bitOf_wr_ne _ hstate (bitOf_flag_of_bitOf 8 hi (bitOf_wr_ne _ htotal hshown))

/-- The registers that the heat shows in. -/
def heatKeys : List Nat := eventKeys ++ [Reg.heatLast, Reg.heatLocal, Reg.heatRx]

theorem takeHeat_frame {K H s t} (h : Frame K H s t) (hK : heatKeys ⊆ K) : Frame K H s t.takeHeat := by
  have hlocal : ∀ {u : State} (v w : Nat), Frame K H s u → Frame K H s ((u.wr Reg.heatLast v).wr Reg.heatLocal w) := fun v w hu =>
    (hu.wr _ _ (hK (by decide))).wr _ _ (hK (by decide))
  unfold State.takeHeat
  dsimp only
  split
  · have hrx : Frame K H s (if t.node = 1 then t else t.bump Reg.heatRx) := .ite (fun _ => h) fun _ => h.bump _ (hK (by decide))
    exact .ite (fun _ => hlocal _ _ hrx) fun _ => hlocal _ _ hrx
  · exact .ite (fun _ => hlocal _ _ h) fun _ => ((hlocal _ _ h).flag _ _ (hK (by decide))).event _ _ _ _ _ fun _ hk => hK (List.mem_append_left _ hk)

/-- The registers of what the crucible and the mirror hold. -/
def fillKeys : List Nat := [Reg.crucibleFill, Reg.mirrored] ++ allStreams.map Reg.crucibleUnits ++ allStreams.map Reg.mirroredUnits

theorem refreshFill_frame {K H s t} (h : Frame K H s t) (hK : fillKeys ⊆ K) : Frame K H s t.refreshFill :=
  .each_mem _ _ (fun st hst _ hu => hu.wr _ _ (hK (List.mem_append_left _ (List.mem_append_right _ (mem_map_streams _ hst)))))
    (h.wr _ _ (hK (by decide)))

theorem refreshMirrored_frame {K H s t} (h : Frame K H s t) (hK : fillKeys ⊆ K) : Frame K H s t.refreshMirrored :=
  .each_mem _ _ (fun st hst _ hu => hu.wr _ _ (hK (List.mem_append_right _ (mem_map_streams _ hst)))) (h.wr _ _ (hK (by decide)))

/-- The dross of all streams leaves. -/
def State.drossLeft (s : State) : State := (s.wr Reg.pourState Ps.sealing).each allStreams (fun st s => s.dropDross st)

/-- The seal waits for its page. -/
def State.sealWaits (s : State) : State :=
  { s with pour := { s.pour with sealing := some s.makeSeal }, sto := { s.sto with todo := s.sto.todo ++ [Item.closing s.makeSeal] } }

theorem beginSeal_eq (s : State) : s.beginSeal = s.drossLeft.refreshFill.refreshMirrored.takeHeat.sealWaits.pump := by
  unfold State.beginSeal State.sealWaits State.drossLeft
  rfl

/-- The registers of a seal that begins. -/
def beginKeys : List Nat :=
  Reg.pourState :: heatKeys ++ fillKeys ++ [Reg.drossTotal, Reg.pourFlags] ++
    allStreams.flatMap (fun st => [Reg.drossRecs st, Reg.drossEpoch st, Reg.epochState st])

theorem drossKeys_subset : ∀ st ∈ allStreams, drossKeys st ⊆ beginKeys := by decide

theorem drossLeft_spec {s : State} {i : Nat} (hi : i < 8 * sizeAt Reg.pourFlags) (h : s.bitOf Reg.pourFlags i = true) :
    s.drossLeft.rd Reg.pourState = Ps.sealing ∧ s.drossLeft.bitOf Reg.pourFlags i = true ∧ Frame beginKeys [] s s.drossLeft := by
  have hstart : Frame beginKeys [] s (s.wr Reg.pourState Ps.sealing) := (Frame.refl ..).wr _ _ (by decide)
  have hpour : ∀ st ∈ allStreams, Reg.pourState ∉ drossKeys st := by decide
  refine ⟨?_, ?_, .each_mem _ _ (fun st hst _ hu => dropDross_frame st hu (drossKeys_subset st hst)) hstart⟩
  · refine each_keeps (P := fun u => u.rd Reg.pourState = Ps.sealing) allStreams _ (fun st hst u hu => ?_) (rd_wr_of_lt _ (by decide))
    rw [(dropDross_frame (K := drossKeys st) (H := []) st (.refl _ _ u) fun _ hk => hk).rd (hpour st hst), hu]
  · exact each_keeps (P := fun u => u.bitOf Reg.pourFlags i = true) allStreams _ (fun st hst u hu => dropDross_flag hst hi hu)
      (bitOf_wr_ne _ (by decide) h)

theorem beginSeal_spec {s : State} {i : Nat} (hi : i < 8 * sizeAt Reg.pourFlags) (h : s.bitOf Reg.pourFlags i = true) :
    s.beginSeal.rd Reg.pourState = Ps.sealing ∧ s.beginSeal.bitOf Reg.pourFlags i = true ∧ s.beginSeal.pour.sealing.isSome = true ∧
    Frame (beginKeys ++ pumpKeys) [] s s.beginSeal := by
  obtain ⟨hpour, hflag, hleft⟩ := drossLeft_spec hi h
  have hheat : Frame (heatKeys ++ fillKeys) [] s.drossLeft s.drossLeft.refreshFill.refreshMirrored.takeHeat :=
    takeHeat_frame (refreshMirrored_frame (refreshFill_frame (.refl ..) (List.subset_append_right ..)) (List.subset_append_right ..))
      (List.subset_append_left ..)
  rw [beginSeal_eq]
  generalize s.drossLeft.refreshFill.refreshMirrored.takeHeat = v at *
  have hwaits : Frame (heatKeys ++ fillKeys) [] s.drossLeft v.sealWaits :=
    hheat.of_eq rfl rfl ⟨fun _ => rfl, rfl, rfl, rfl, rfl, rfl, .of_eq rfl⟩
  have hpump := storeOnly_pump v.sealWaits
  have hrd : ∀ k, k ∉ pumpKeys → k ∉ heatKeys ++ fillKeys → v.sealWaits.pump.rd k = s.drossLeft.rd k := fun k h1 h2 =>
    (hpump.rd h1).trans (hwaits.rd h2)
  refine ⟨(hrd _ (by decide) (by decide)).trans hpour, (bitOf_of_rd i (hrd _ (by decide) (by decide))).trans hflag, ?_, ?_⟩
  · rw [hpump.phase.2]
    rfl
  · exact hpump.frame (List.subset_append_right ..) ((hleft.trans (hwaits.mono (by decide) fun _ h => h)).mono (List.subset_append_left ..) fun _ h => h)

theorem exec_pwdSealExpiry {s : State} (hrun : s.sup.running = true) (hpour : s.rd Reg.pourState = Ps.flush) :
    exec .pwdSealExpiry s = .next ((s.flag Reg.pourFlags 3).event 0x4006 0xFF 2).beginSeal := if_pos (by simp [hrun, State.pourSt, hpour])

/-! ### The off release (R250, R358, R360) -/

/-- The off release is given in this tick. -/
theorem offRelease_first {s : State} (h : s.seq.offRel = none) : s.offRelease = { s with seq := { s.seq with offRel := some s.tick } } :=
  if_pos (by simp [h])

theorem offRelease_spec {s : State} (h : s.seq.offRel = none) : s.offRelease.seq.offRel = some s.tick ∧ s.offRelease.pour = s.pour ∧
    (∀ k, s.offRelease.rd k = s.rd k) ∧ s.offRelease.log = s.log ∧ s.offRelease.fla = s.fla ∧ s.offRelease.fw = s.fw ∧ s.offRelease.sto = s.sto ∧
    s.offRelease.hv = s.hv := by
  rw [offRelease_first h]
  exact ⟨rfl, rfl, fun _ => rfl, rfl, rfl, rfl, rfl, rfl⟩

theorem Frame.offRelease {K H s t} (h : Frame K H s t) (hrel : t.seq.offRel = none) : Frame K H s t.offRelease := by
  rw [offRelease_first hrel]
  exact h.seq _

theorem exec_summaryWritten_well {s v : State} {x : Seal} (hrun : s.sup.running = true) (hpour : s.rd Reg.pourState = Ps.summary)
    (hcast : s.sto.cast = some x) (hwrite : s.writeSum (s.summaryRec x) = some v) :
    exec (.summaryWritten true) s = .next (v.wr Reg.pourState Ps.offSlots).offRelease := by
  show execSummaryWritten true s = _
  unfold execSummaryWritten
  rw [if_neg (by simp [hrun, State.pourSt, hpour]), hcast]
  dsimp only
  rw [if_pos rfl, hwrite]
  rfl

theorem exec_summaryWritten_failed {s : State} (hrun : s.sup.running = true) (hpour : s.rd Reg.pourState = Ps.summary) :
    exec (.summaryWritten false) s = .next (s.summaryFailed.wr Reg.pourState Ps.offSlots).offRelease := by
  show execSummaryWritten false s = _
  unfold execSummaryWritten
  rw [if_neg (by simp [hrun, State.pourSt, hpour])]
  cases s.sto.cast <;> rfl

/-- The watchdog of the off release is noted. -/
def State.offForced (s : State) : State := ((s.flag Reg.pourFlags 4).bump Reg.pwdFires).event 0x4006 0xFF 3

/-- The watchdog's step up to the off release. -/
def State.forcedOff (s : State) : State := (s.offForced.abandonSeal.wr Reg.pourState Ps.offSlots).refreshOpen

theorem exec_pwdOffExpiry {s : State} (hrun : s.sup.running = true) (hphase : s.phase = .pour) (hrel : s.seq.offRel = none) :
    exec .pwdOffExpiry s = .next s.forcedOff.offRelease :=
  if_pos (by simp [hrun, hphase, hrel])

theorem offForced_spec (s : State) : s.offForced.bitOf Reg.pourFlags 4 = true ∧ Counts Reg.pwdFires s s.offForced ∧
    s.offForced.rd Reg.pourState = s.rd Reg.pourState ∧ s.offForced.seq = s.seq ∧ s.offForced.clk = s.clk ∧
    Frame (eventKeys ++ [Reg.pourFlags, Reg.pwdFires]) [] s s.offForced := by
  have hevent := logOnly_event ((s.flag Reg.pourFlags 4).bump Reg.pwdFires) 0x4006 0xFF 3 0 0
  refine ⟨?_, ?_, ?_, ?_, ?_, ?_⟩
  · exact bitOf_event _ _ _ _ _ _ (by decide) ((bitOf_of_rd 4 (rd_bump_ne _ (by decide))).trans (bitOf_flag _ (by decide)))
  · exact (hevent.rd (by decide)).trans ((rd_bump ..).trans (by rw [rd_flag_ne _ _ (by decide)]))
  · exact (hevent.rd (by decide)).trans ((rd_bump_ne _ (by decide)).trans (rd_flag_ne _ _ (by decide)))
  · rw [State.offForced, State.event_seq, State.bump_seq, State.flag_seq]
  · rw [State.offForced, State.event_clk, State.bump_clk, State.flag_clk]
  · exact hevent.frame (by decide) (((Frame.refl ..).flag _ _ (by decide)).bump _ (by decide))

theorem abandonSeal_spec (s : State) : (∀ i, i < 8 * sizeAt Reg.pourFlags → s.bitOf Reg.pourFlags i = true → s.abandonSeal.bitOf Reg.pourFlags i = true) ∧
    (s.rd Reg.pourState = Ps.drain ∨ s.rd Reg.pourState = Ps.flush ∨ s.rd Reg.pourState = Ps.sealing →
      s.abandonSeal.bitOf Reg.pourFlags 9 = true ∧ s.abandonSeal.pour.sealing = none) ∧
    s.abandonSeal.seq = s.seq ∧ s.abandonSeal.clk = s.clk ∧ Frame [Reg.pourFlags] [] s s.abandonSeal := by
  unfold State.abandonSeal
  dsimp only
  split
  · have hframe : Frame [Reg.pourFlags] [] s (s.flag Reg.pourFlags 9) := (Frame.refl ..).flag _ _ (by simp)
    exact ⟨fun i hi h => bitOf_flag_of_bitOf 9 hi h, fun _ => ⟨bitOf_flag _ (by decide), rfl⟩, rfl, rfl,
      hframe.of_eq rfl rfl ⟨fun _ => rfl, rfl, rfl, rfl, rfl, rfl, .of_eq rfl⟩⟩
  · next hnot =>
    refine ⟨fun _ _ h => h, fun h => absurd ?_ hnot, rfl, rfl, .refl ..⟩
    simp only [Bool.or_eq_true, decide_eq_true_eq]
    exact or_assoc.mpr h

theorem summaryFailed_spec (s : State) : s.summaryFailed.bitOf Reg.pourFlags 7 = true ∧ s.summaryFailed.seq = s.seq ∧
    s.summaryFailed.clk = s.clk ∧ Frame (eventKeys ++ [Reg.pourFlags]) [] s s.summaryFailed := by
  refine ⟨bitOf_event _ _ _ _ _ _ (by decide) (bitOf_flag _ (by decide)), ?_, ?_, ?_⟩
  · rw [State.summaryFailed, State.event_seq, State.flag_seq]
  · rw [State.summaryFailed, State.event_clk, State.flag_clk]
  · exact ((Frame.refl ..).flag _ _ (by decide)).event _ _ _ _ _ (List.subset_append_left ..)

theorem tick_of_clk {s t : State} (h : t.clk = s.clk) : t.tick = s.tick := by rw [State.tick, h, State.tick]

/-! ### The end of rest (R365) -/

/-- The end of rest is counted and told. -/
def State.restEnded (s : State) : State := (s.bump Reg.restExits).event 0x4009 0xFF 2

theorem exec_restSupplyPresent {s : State} (hphase : s.phase = .rest) (hrun : s.sup.running = true) (hsupply : s.rd Reg.restReturn ≤ s.pour.supplyRun) :
    exec .restSupplyPresent s = .next (s.restEnded.warmReset 5 false) :=
  (if_pos (by simp [hphase, hrun, hsupply])).trans (congrArg Host.Outcome.next (if_pos (by simp [hphase, hrun])))

end Sys2Proof.Machine
end

section
/-! PROOF. The pour drains, seals, turns off and rests (spec/14_pour_and_shakeout.md R351-R365). -/
namespace Sys2Proof.Machine

/-- What an event leaves of the clock and of what lives through a warm reset. -/
theorem restEnded_only (s : State) : ∃ u, s.restEnded.warmReset 5 false = u.resetLogic true 5 false ∧ LogOnly (s.bump Reg.restExits) u :=
  ⟨s.restEnded.flushLog, rfl, logOnly_flushLog (logOnly_event ..)⟩

theorem restEnd_spec {s : State} (hb : s.pads.b4 = false) (hsource : s.sup.source ≠ .off) (hfw : s.rd Reg.fwState ≠ 1)
    (herase : s.fla.erase = none) (hcommit : s.svc.commit = none) (hdie : s.sto.erase = none) (hpages : ∀ p ∈ s.sto.pages, p.busy = false) :
    Renewed false s (s.restEnded.warmReset 5 false) ∧ (s.restEnded.warmReset 5 false).sup.bootDue = true ∧
    (s.restEnded.warmReset 5 false).sup.coldBoot = false ∧ (s.restEnded.warmReset 5 false).clk.count = s.clk.count ∧
    (s.restEnded.warmReset 5 false).rd Reg.seqLatch = fit Reg.seqLatch (s.rd Reg.seqLatch) ∧
    StoresKept s (s.restEnded.warmReset 5 false) := by
  have honly : LogOnly (s.bump Reg.restExits) s.restEnded := logOnly_event ..
  obtain ⟨hhv, hpads, hsup, hfwPart, hsvc, hsto, hflaErase, hcope, hdrag, hsums⟩ := honly.outside
  have hb' : s.restEnded.pads.b4 = false := by rw [hpads, State.bump_pads, hb]
  obtain ⟨u, heq, hu⟩ := restEnded_only s
  obtain ⟨_, hupads, husup, _⟩ := hu.outside
  have hub : u.pads.b4 = false := by rw [hupads, State.bump_pads, hb]
  have hstores := warmReset_keeps_stores (s := s.restEnded) 5 false hb' (by rw [hflaErase, State.bump_fla, herase])
    (by rw [honly.rd (by decide), rd_bump_ne _ (by decide)]; exact hfw) (by rw [hsvc, State.bump_svc, hcommit])
    (by rw [hsto, State.bump_sto, hdie]) (by rw [hsto, State.bump_sto]; exact hpages)
  refine ⟨(warmReset_renewed 5 false hb').of_hv (by rw [hhv, State.bump_hv]), ?_, ?_, ?_, ?_, ?_⟩
  · rw [warmReset_sup 5 false hb', hsup, State.bump_sup]
    simp [hsource]
  · rw [heq, resetLogic_coldBoot]
    rfl
  · rw [heq, resetLogic_count true 5 false hub, if_pos rfl]
    obtain ⟨_, _, _, _, _, h, _⟩ := hu
    rw [h, State.bump_clk]
  · rw [heq, rd_resetLogic_seqLatch true 5 false hub, if_pos rfl, hu.rd (by decide), rd_bump_ne _ (by decide)]
  · obtain ⟨kcode, krecord, knand, kcope, kdrag, ksums, kring⟩ := hstores
    have hring : RingKept s s.restEnded := honly.ringKept
    exact ⟨kcode.of_fw (by rw [hfwPart, State.bump_fw]), by rw [krecord, hfwPart, State.bump_fw], by rw [knand, hsto, State.bump_sto],
      by rw [kcope, hcope, State.bump_fla], by rw [kdrag, hdrag, State.bump_fla], by rw [ksums, hsums, State.bump_fla], hring.trans kring⟩

/-- The registers of the watchdog of the off release. -/
def offKeys : List Nat :=
  eventKeys ++ sendKeys ++ [Reg.pourState, Reg.pourFlags, Reg.pwdFires] ++ allStreams.map Reg.streamOpen

theorem forcedOff_spec {s : State} (hrel : s.seq.offRel = none) :
    s.forcedOff.offRelease.rd Reg.pourState = Ps.offSlots ∧ s.forcedOff.offRelease.seq.offRel = some s.tick ∧
    s.forcedOff.offRelease.bitOf Reg.pourFlags 4 = true ∧ Counts Reg.pwdFires s s.forcedOff.offRelease ∧
    (s.rd Reg.pourState = Ps.drain ∨ s.rd Reg.pourState = Ps.flush ∨ s.rd Reg.pourState = Ps.sealing →
      s.forcedOff.offRelease.bitOf Reg.pourFlags 9 = true ∧ s.forcedOff.offRelease.pour.sealing = none) ∧
    Frame offKeys [] s s.forcedOff.offRelease := by
  obtain ⟨hflag4, hcount, hstate, hseq, hclk, hforced⟩ := offForced_spec s
  obtain ⟨hkeep, habandoned, hseq', hclk', hleft⟩ := abandonSeal_spec s.offForced
  have hopen : Frame openKeys [] (s.offForced.abandonSeal.wr Reg.pourState Ps.offSlots) s.forcedOff := refreshOpen_frame (.refl ..) fun _ h => h
  obtain ⟨_, _, honly⟩ := refreshOpen_only (s.offForced.abandonSeal.wr Reg.pourState Ps.offSlots)
  have hclk4 : s.forcedOff.clk = s.clk := by rw [State.forcedOff, honly, State.wr_clk, hclk', hclk]
  have hrel4 : s.forcedOff.seq.offRel = none := by rw [State.forcedOff, honly, State.wr_seq, hseq', hseq, hrel]
  have hsealing : s.forcedOff.pour.sealing = s.offForced.abandonSeal.pour.sealing := by rw [State.forcedOff, honly, State.wr_pour]
  obtain ⟨hgiven, hpour, hrd, _⟩ := offRelease_spec hrel4
  have hflags : ∀ i, s.offForced.abandonSeal.bitOf Reg.pourFlags i = true → s.forcedOff.offRelease.bitOf Reg.pourFlags i = true := fun i h =>
    (bitOf_of_rd i ((hrd _).trans (hopen.rd (by decide)))).trans (bitOf_wr_ne _ (by decide) h)
  refine ⟨?_, by rw [hgiven, tick_of_clk hclk4], hflags _ (hkeep 4 (by decide) hflag4), ?_, fun h => ?_, ?_⟩
  · exact (hrd _).trans ((hopen.rd (by decide)).trans (rd_wr_of_lt _ (by decide)))
  · exact (hrd _).trans ((hopen.rd (by decide)).trans ((State.rd_wr_ne _ _ (by decide)).trans ((hleft.rd (by decide)).trans hcount)))
  · obtain ⟨hflag9, hnone⟩ := habandoned (by rw [hstate]; exact h)
    exact ⟨hflags _ hflag9, by rw [hpour, hsealing, hnone]⟩
  · have hwritten : Frame offKeys [] s (s.offForced.abandonSeal.wr Reg.pourState Ps.offSlots) :=
      ((hforced.mono (by decide) fun _ h => h).trans (hleft.mono (by decide) fun _ h => h)).wr _ _ (by decide)
    exact (hwritten.trans (hopen.mono (by decide) fun _ h => h)).offRelease hrel4

/-- Settles O25: each end of the drain leads to the flush while the crucible holds records; the seal begins, the summary and the watchdog
release the off-slots in that tick; the end of rest is a warm reset of cause 5. -/
theorem thePourDrainsSealsAndRests : Obligations.ThePourDrainsSealsAndRests := by
  unfold Obligations.ThePourDrainsSealsAndRests
  refine ⟨fun s hrun hpour hwindow hcru => ?_, fun s hrun hpour hcru => ?_, fun s hrun hpour => ?_,
    fun s x h i hrun hpour hcast hhalf hslot hrel => ?_, fun s hrun hpour hrel => ?_, fun s hrun hphase hrel => ?_,
    fun s hphase hrun hsupply hsource hb hfw herase hcommit hdie hpages => ?_⟩
  case refine_1 =>
    obtain ⟨hflush, hend, _, hphase, hframe⟩ := endDrain_spec (code := 1) hpour (by decide) (by decide) hcru
    exact ⟨_, exec_drainWindowExpiry hrun hpour hwindow, hflush, hend, hphase, hframe.mono (by decide) fun _ h => h⟩
  case refine_2 =>
    obtain ⟨hflush, hend, hflag, hphase, hframe⟩ := endDrain_spec (code := 3) hpour (by decide) (by decide) hcru
    exact ⟨_, exec_pwdDrainExpiry hrun hpour, hflush, hend, hflag rfl, hphase, hframe.mono (by decide) fun _ h => h⟩
  case refine_3 =>
    have htold : Frame (eventKeys ++ [Reg.pourFlags]) [] s ((s.flag Reg.pourFlags 3).event 0x4006 0xFF 2) :=
      ((Frame.refl ..).flag _ _ (by decide)).event _ _ _ _ _ (List.subset_append_left ..)
    obtain ⟨hsealing, hflag, hseal, hframe⟩ := beginSeal_spec (s := (s.flag Reg.pourFlags 3).event 0x4006 0xFF 2) (i := 3) (by decide)
      (bitOf_event _ _ _ _ _ _ (by decide) (bitOf_flag _ (by decide)))
    exact ⟨_, exec_pwdSealExpiry hrun hpour, hsealing, hflag, hseal, (htold.mono (by decide) fun _ h => h).trans (hframe.mono (by decide) fun _ h => h)⟩
  case refine_4 =>
    obtain ⟨v, reg, queue, hwrite, heq, hwords, hrd⟩ := writeSum_spec (r := s.summaryRec x) hhalf hslot
    have hv : v.seq.offRel = none ∧ v.clk = s.clk := by rw [heq]; exact ⟨hrel, rfl⟩
    obtain ⟨hgiven, _, hrd', hlog, hfla, hfw, hsto, hhv⟩ := offRelease_spec (s := v.wr Reg.pourState Ps.offSlots) hv.1
    have hquiet : Quiet (Reg.pourState :: sumKeys) [] s v := ⟨fun k hk => hrd k fun h => hk (List.mem_cons_of_mem _ h), fun k _ => by rw [heq]; rfl⟩
    refine ⟨_, exec_summaryWritten_well hrun hpour hcast hwrite, ?_, ?_, ?_, ?_, ⟨fun k hk => ?_, fun k _ => ?_⟩, fun a => ?_, ?_, ?_, ?_, ?_, ?_⟩
    · rw [hrd']
      exact rd_wr_of_lt _ (by decide)
    · rw [hgiven, tick_of_clk (s := s) (by rw [State.wr_clk]; exact hv.2)]
    · rw [hfla, State.wr_fla, heq]
    · rw [hrd', State.rd_wr_ne _ _ (by decide), hwords]
    · rw [hrd']
      exact (hquiet.wr Reg.pourState Ps.offSlots (by decide)).1 k hk
    · rw [State.hrd_congr hhv, State.hrd_wr, State.hrd_congr (s := s) (by rw [heq])]
    · rw [State.codeByte, hfw, State.wr_fw, heq]
      rfl
    · rw [hfw, State.wr_fw, heq]
    · rw [hsto, State.wr_sto, heq]
    · rw [hfla, State.wr_fla, heq]
    · rw [hfla, State.wr_fla, heq]
    · exact .of_eq (by rw [hlog, State.wr_log, heq])
  case refine_5 =>
    obtain ⟨hflag, hseq, hclk, hframe⟩ := summaryFailed_spec s
    have hrel' : (s.summaryFailed.wr Reg.pourState Ps.offSlots).seq.offRel = none := by rw [State.wr_seq, hseq, hrel]
    obtain ⟨hgiven, _, hrd, _⟩ := offRelease_spec hrel'
    refine ⟨_, exec_summaryWritten_failed hrun hpour, ?_, ?_, ?_, ?_⟩
    · rw [hrd]
      exact rd_wr_of_lt _ (by decide)
    · rw [hgiven, tick_of_clk (s := s) (by rw [State.wr_clk, hclk])]
    · exact (bitOf_of_rd 7 (hrd _)).trans (bitOf_wr_ne _ (by decide) hflag)
    · exact ((hframe.mono (by decide) fun _ h => h).wr _ _ (by decide)).offRelease hrel'
  case refine_6 =>
    obtain ⟨hpour, hrel', hflag, hcount, hseal, hframe⟩ := forcedOff_spec hrel
    exact ⟨_, exec_pwdOffExpiry hrun hphase hrel, hpour, hrel', hflag, hcount, hseal, hframe.mono (List.Subset.refl _) fun _ h => h⟩
  case refine_7 =>
    obtain ⟨hnew, hdue, hcold, hcount, hlatch, hstores⟩ := restEnd_spec hb hsource hfw herase hcommit hdie hpages
    exact ⟨_, exec_restSupplyPresent hphase hrun hsupply, warmReset_cause .., hdue, hcold, hnew.running, hnew.phase, hcount, hlatch, hnew.hv,
      hnew.registers, hstores⟩

end Sys2Proof.Machine
end

section
/-! SUPPORT. The start-up scan: what settling blocks, closing rows, rebuilding the streams and the recovered seal may touch
(spec/15_image_store.md R396-R400). -/
namespace Sys2Proof.Machine

/-! ### What the scan's steps leave -/

/-- The registers that the scan's steps may change. -/
def foundKeys : List Nat :=
  eventKeys ++ pumpKeys ++ [Reg.castPending, Reg.eraseFails, Reg.erases, Reg.grownBadCount, Reg.halfErased, Reg.heatLast, Reg.heatLocal,
    Reg.isFlags, Reg.lastSealPage, Reg.mirrored, Reg.pagesProgrammed, Reg.recoveredSeals, Reg.reerases, Reg.rowsClosedAtStart,
    Reg.sumSeqLast, Reg.sumValid] ++ allStreams.flatMap (fun st => [Reg.drossEpoch st, Reg.drossRecs st, Reg.epochState st,
      Reg.lastCommit st, Reg.lastComplete st, Reg.lastRetired st, Reg.nextRec st, Reg.openEpoch st, Reg.retireDurable st,
      Reg.streamHas st, Reg.mirroredUnits st])

/-- The phase is as before, and all but the blocks but for registers of a list. -/
structure Scanned (K : List Nat) (s t : State) : Prop where
  aside : Aside K s t
  phase : t.phase = s.phase

section
variable {K L : List Nat} {s t u : State}

theorem Scanned.refl (K : List Nat) (s) : Scanned K s s := ⟨(Frame.refl ..).aside, rfl⟩

theorem Scanned.trans (h1 : Scanned K s t) (h2 : Scanned K t u) : Scanned K s u := ⟨h1.aside.trans h2.aside, h2.phase.trans h1.phase⟩

theorem Scanned.mono (h : Scanned K s t) (hK : K ⊆ L) : Scanned L s t := ⟨h.aside.mono hK, h.phase⟩

theorem Scanned.rd (h : Scanned K s t) {k} (hk : k ∉ K) : t.rd k = s.rd k := h.aside.rd hk

theorem Scanned.frame (h : Scanned K s t) (hf : Frame K [] t u) (hphase : u.phase = t.phase) : Scanned K s u :=
  h.trans ⟨hf.aside, hphase⟩

theorem Scanned.wr (k v) (h : Scanned K s t) (hk : k ∈ K) : Scanned K s (t.wr k v) := h.frame ((Frame.refl ..).wr _ _ hk) rfl

theorem Scanned.bump (k) (h : Scanned K s t) (hk : k ∈ K) : Scanned K s (t.bump k) := h.wr k _ hk

theorem Scanned.flag (k i) (h : Scanned K s t) (hk : k ∈ K) : Scanned K s (t.flag k i) :=
  h.frame ((Frame.refl ..).flag _ _ hk) (State.flag_phase ..)

theorem Scanned.logOnly (h : Scanned K s t) (hlog : LogOnly t u) (hK : eventKeys ⊆ K) : Scanned K s u := by
  refine h.frame (hlog.frame hK (.refl ..)) ?_
  obtain ⟨_, _, _, _, _, heq, _⟩ := hlog
  rw [heq]

theorem Scanned.event (code obj detail a b) (h : Scanned K s t) (hK : eventKeys ⊆ K) : Scanned K s (t.event code obj detail a b) :=
  h.logOnly (logOnly_event ..) hK

theorem Scanned.setBlk (k b) (h : Scanned K s t) : Scanned K s (t.setBlk k b) := ⟨h.aside.setBlk k b, h.phase⟩

/-- The store is replaced. -/
theorem Scanned.sto (x) (h : Scanned K s t) : Scanned K s { t with sto := x } :=
  ⟨h.aside.trans ⟨⟨fun _ _ => rfl, fun _ _ => rfl⟩, fun _ => rfl, rfl, rfl, rfl, .of_eq rfl⟩, h.phase⟩

/-- The store and the link layer's part are replaced. -/
theorem Scanned.stoLl (x y) (h : Scanned K s t) : Scanned K s { t with sto := x, ll := y } :=
  ⟨h.aside.trans ⟨⟨fun _ _ => rfl, fun _ _ => rfl⟩, fun _ => rfl, rfl, rfl, rfl, .of_eq rfl⟩, h.phase⟩

theorem Scanned.storeOnly (h : Scanned K s t) (hstore : StoreOnly L t u) (hK : L ⊆ K) : Scanned K s u :=
  h.frame (hstore.frame hK (.refl ..)) hstore.phase.1

theorem Scanned.each {α : Type} (l : List α) (f : α → State → State) (hf : ∀ a ∈ l, ∀ u, Scanned K s u → Scanned K s (f a u))
    (h : Scanned K s t) : Scanned K s (t.each l f) := each_keeps (P := Scanned K s) l f hf h

end

/-! ### Blocks settled (R392, R397) -/

theorem badMarked_phase (s : State) (k : Nat) : (s.badMarked k).phase = s.phase := by
  rw [State.badMarked, State.event_phase, State.bump_phase, State.flag_phase]
  rfl

theorem queueMap_phase (s : State) (pos : Nat) : (s.queueMap pos).phase = s.phase := by
  obtain ⟨_, _, hmap⟩ := queueMap_only s pos
  rw [hmap]

theorem wornCheck_phase (s : State) : s.wornCheck.phase = s.phase := by
  unfold State.wornCheck
  dsimp only
  split
  · rw [State.event_phase, State.flag_phase]
  · rfl

theorem growBad_phase (s : State) (k : Nat) : (s.growBad k).phase = s.phase := by
  rw [growBad_eq]
  split
  · rfl
  · rw [queueMap_phase, wornCheck_phase, badMarked_phase]

theorem scanned_settleErase {s t : State} (k count reason outcome : Nat) (h : Scanned foundKeys s t) :
    Scanned foundKeys s (t.settleErase k count reason outcome) := by
  have hnoted : Scanned foundKeys s (t.eraseNoted k count reason outcome) :=
    (h.bump Reg.erases (by decide)).logOnly (eraseCompletion_only ..) (by decide)
  by_cases hpass : outcome = 0
  · subst hpass
    rw [settleErase_pass]
    exact hnoted.setBlk _ _
  · rw [settleErase_fail _ _ _ hpass]
    obtain ⟨_, _, hgrown⟩ := growBad_spec (((t.eraseSpoilt k count reason outcome).bump Reg.eraseFails).flag Reg.isFlags 2) k
    have hspoilt : Scanned foundKeys s (t.eraseSpoilt k count reason outcome) := hnoted.setBlk _ _
    exact ((hspoilt.bump _ (by decide)).flag _ _ (by decide)).frame (hgrown.mono (by decide) fun _ h => h) (growBad_phase ..)

theorem scanned_reErase {s t : State} (half : Bool) (outcome k count : Nat) (h : Scanned foundKeys s t) :
    Scanned foundKeys s (t.reErase half outcome k count) := by
  have hhalf : Scanned foundKeys s (t.iff half (·.bump Reg.halfErased)) := by
    unfold State.iff
    split
    · exact h.bump _ (by decide)
    · exact h
  unfold State.reErase
  exact scanned_settleErase _ _ _ _ (((hhalf.bump _ (by decide)).flag _ _ (by decide)).event _ _ _ _ _ (by decide))

theorem scanned_prepareOne {s t : State} (outcome pos : Nat) (h : Scanned foundKeys s t) : Scanned foundKeys s (t.prepareOne outcome pos) := by
  unfold State.prepareOne
  split
  · exact h
  · dsimp only
    split
    · exact h
    · exact scanned_settleErase _ _ _ _ (h.logOnly (logOnly_eventSev _ _ _ _ _ _ _ (.refl t)) (by decide))

/-! ### Rows and the newest casting (R396, R398) -/

theorem scanned_scanPage {s t : State} (p : Page) (h : Scanned foundKeys s t) : Scanned foundKeys s (t.scanPage p) := by
  have hland : Scanned foundKeys s (t.landPage { p with seq := t.rd Reg.pageSeqNext } false) := h.setBlk _ _
  exact (hland.wr _ _ (by decide)).bump _ (by decide)

theorem scanned_closeFound {s t : State} (row : Nat) (h : Scanned foundKeys s t) : Scanned foundKeys s (t.closeFound row) := by
  unfold State.closeFound
  dsimp only
  split
  · exact h
  · refine (Scanned.each _ _ (fun k _ u hu => scanned_scanPage _ hu) ?_).bump _ (by decide)
    refine Scanned.each _ _ (fun i _ u hu => Scanned.each _ _ (fun k _ v hv => ?_) hu) h
    split
    · exact hv
    · exact scanned_scanPage _ hv

theorem scanned_loadSeqs {s t : State} (h : Scanned foundKeys s t) : Scanned foundKeys s t.loadSeqs :=
  (h.wr _ _ (by decide)).wr _ _ (by decide)

theorem streamKeys_subset : ∀ st ∈ allStreams, [Reg.drossEpoch st, Reg.drossRecs st, Reg.epochState st, Reg.lastCommit st, Reg.lastComplete st,
    Reg.lastRetired st, Reg.nextRec st, Reg.openEpoch st, Reg.retireDurable st, Reg.streamHas st, Reg.mirroredUnits st] ⊆ foundKeys :=
  fun _ hst _ hk => List.mem_append_right _ (List.mem_flatMap.mpr ⟨_, hst, hk⟩)

theorem scanned_loadCast {s t : State} (h : Scanned foundKeys s t) : Scanned foundKeys s t.loadCast := by
  unfold State.loadCast
  split
  · exact h
  · next page x _ =>
    dsimp only
    have hlast : Scanned foundKeys s (if later32 (t.rd Reg.heatLast) x.heat then t.wr Reg.heatLast x.heat else t) := by
      split
      · exact h.wr _ _ (by decide)
      · exact h
    refine Scanned.sto _ (Scanned.each _ _ (fun st hst u hu => ?_) ((hlast.wr _ _ (by decide)).wr _ _ (by decide)))
    have hkeys := streamKeys_subset st hst
    exact (hu.wr _ _ (hkeys (by simp))).wr _ _ (hkeys (by simp))

theorem scanned_loadStream {s t : State} {st : Nat} (f : Found) (dross : Option Nat) (hst : st ∈ allStreams) (h : Scanned foundKeys s t) :
    Scanned foundKeys s (t.loadStream st f dross) := by
  have hkeys := streamKeys_subset st hst
  unfold State.loadStream
  extract_lets ret opened has s1 s2 s3 live link store s4 closedAt
  have h1 : Scanned foundKeys s s1 := ((h.wr _ _ (hkeys (by simp))).wr _ _ (hkeys (by simp))).wr _ _ (hkeys (by simp))
  have h2 : Scanned foundKeys s s2 := (h1.wr _ _ (hkeys (by simp))).wr _ _ (hkeys (by simp))
  have h3 : Scanned foundKeys s s3 := h2.wr _ _ (hkeys (by simp))
  have h4 : Scanned foundKeys s s4 := h3.stoLl _ _
  have hclosed : ∀ (u : State) (e : Nat), Scanned foundKeys s u → Scanned foundKeys s (closedAt u e) := fun u e hu =>
    (hu.wr (Reg.epochState st) 2 (hkeys (by simp))).sto _
  split
  · exact hclosed _ _ h4
  · split
    · exact hclosed _ _ h4
    · exact (h4.wr _ _ (hkeys (by simp))).wr _ _ (hkeys (by simp))
  · exact hclosed _ _ h4
  · exact h4.wr _ _ (hkeys (by simp))

theorem scanned_refreshMirrored {s t : State} (h : Scanned foundKeys s t) : Scanned foundKeys s t.refreshMirrored :=
  .each _ _ (fun st hst _ hu => hu.wr _ _ (streamKeys_subset st hst (by simp))) (h.wr _ _ (by decide))

theorem scanned_rebuild {s t : State} (h : Scanned foundKeys s t) : Scanned foundKeys s t.rebuild := by
  unfold State.rebuild
  exact scanned_refreshMirrored (.sto _ (.each _ _ (fun st hst u hu => scanned_loadStream _ _ hst hu) (h.sto _)))

/-! ### The recovered seal (R399) -/

theorem scanned_writeSum {s t v : State} {r : SumRec} (hwrite : t.writeSum r = some v) (h : Scanned foundKeys s t) : Scanned foundKeys s v := by
  have hplace : ∃ half i, t.sumHalf = some half ∧ t.sumSlot half = some i := by
    unfold State.writeSum at hwrite
    split at hwrite
    · exact absurd hwrite (by simp)
    · next half hhalf =>
      dsimp only at hwrite
      split at hwrite
      · exact absurd hwrite (by simp)
      · next i hslot => exact ⟨half, i, hhalf, hslot⟩
  obtain ⟨half, i, hhalf, hslot⟩ := hplace
  obtain ⟨w, reg, queue, hw, heq, _, hrd⟩ := writeSum_spec (r := r) hhalf hslot
  obtain rfl := Option.some.inj (hwrite.symm.trans hw)
  have hsub : sumKeys ⊆ foundKeys := by decide
  have hquiet : Quiet foundKeys [] t v := ⟨fun k hk => hrd k fun hin => hk (hsub hin), fun _ _ => by rw [heq]; rfl⟩
  exact h.trans ⟨⟨hquiet, fun _ => by rw [heq]; rfl, by rw [heq], by rw [heq], by rw [heq], .of_eq (by rw [heq])⟩, by rw [heq]⟩

theorem scanned_recoverSeal {s t : State} (h : Scanned foundKeys s t) : Scanned foundKeys s t.recoverSeal := by
  unfold State.recoverSeal
  split
  · exact h
  · extract_lets rows heat x u
    have hu : Scanned foundKeys s u := ((h.wr _ _ (by decide)).wr _ _ (by decide)).storeOnly ((StoreOnly.refl ..).newPage 2) (by decide)
    split
    · exact hu
    · next p _ =>
      extract_lets padded page v w y
      have hv : Scanned foundKeys s v := hu.sto _
      have hw : Scanned foundKeys s w :=
        (Scanned.bump (t := v.landPage page false) _ (hv.setBlk _ _) (by decide)).wr _ _ (by decide)
      have hy : Scanned foundKeys s y := ((hw.bump _ (by decide)).flag _ _ (by decide)).event _ _ _ _ _ (by decide)
      split
      · next hwrite => exact scanned_writeSum hwrite hy
      · exact hy

end Sys2Proof.Machine
end

section
/-! PROOF. The start-up scan ends (spec/15_image_store.md R396-R400; the stop of start spec/06_start_up.md R173). -/
namespace Sys2Proof.Machine

/-! ### The steps of the scan's end -/

/-- What the dies answered and how long the scan took. -/
def State.scanMet (s : State) (dies us : Nat) : State :=
  (s.wr Reg.scanTime us).each [0, 1, 2, 3] (fun d s => s.wr (Reg.dieState d) (if dies.testBit d then 1 else 6))

/-- Every unsettled block is settled. -/
def State.scanSettled (s : State) (half : Bool) (outcome : Nat) : State :=
  s.each s.unsettled (fun e s => s.reErase half outcome e.1 e.2)

/-- The log's sequences are loaded, damaged blocks queued. -/
def State.scanLoaded (s : State) : State := s.loadSeqs.queueGarbage

/-- Every row found is closed. -/
def State.scanClosed (s : State) : State := s.each s.rowsFound (fun r s => s.closeFound r)

/-- Nothing waits for a page. -/
def State.waitsDropped (s : State) : State := { s with sto := { s.sto with pages := [], row := none, todo := [] } }

/-- Every plane has a prepared block where it can. -/
def State.scanPrepared (s : State) (outcome : Nat) : State := s.each allPos (fun p s => s.prepareOne outcome p)

/-- The streams are rebuilt. -/
def State.scanRebuilt (s : State) : State := (if s.needsSeal then s.recoverSeal else s).loadCast.rebuild

/-- The store runs. -/
def State.scanRun (s : State) : State :=
  ((((s.wr Reg.scanResult 1).wr Reg.isState 2).wornCheck).each allPos (fun p s => s.queueMap p)).pump

/-- The scan's steps up to the new row. -/
def State.scanOpened (s : State) (half : Bool) (outcome : Nat) : State :=
  (((s.scanSettled half outcome).scanLoaded.scanClosed.loadCast.waitsDropped).scanPrepared outcome).openRow

/-- The scan's end of a store whose every die answers and whose every plane has a map. -/
def State.scanMapped (s : State) (half : Bool) (outcome : Nat) : State :=
  if (s.scanOpened half outcome).sto.row.isNone then (s.scanOpened half outcome).unusable 3
  else (s.scanOpened half outcome).scanRebuilt.scanRun

theorem scanEnd_eq (s : State) (dies : Nat) (maps half : Bool) (outcome us : Nat) : s.scanEnd dies maps half outcome us =
    if dies % 16 ≠ 15 then (s.scanMet dies us).unusable 4
    else if !maps then (s.scanMet dies us).unusable 2
    else (s.scanMet dies us).scanMapped half outcome := by
  unfold State.scanEnd
  extract_lets timed met settled loaded closed store cleared opened rebuilt runs
  have hopened : met.scanOpened half outcome = opened := by
    have hclosed : (met.scanSettled half outcome).scanLoaded.scanClosed.loadCast = closed := rfl
    have hcleared : closed.waitsDropped = cleared := rfl
    rw [State.scanOpened, hclosed, hcleared]
    rfl
  have hmapped : met.scanMapped half outcome =
      if opened.sto.row.isNone then opened.unusable 3 else (runs.each allPos (fun p s => s.queueMap p)).pump := by
    rw [State.scanMapped, hopened]
    rfl
  have hmet : s.scanMet dies us = met := rfl
  rw [hmet, hmapped]

theorem scanEnd_unmapped (s : State) (half : Bool) (outcome us : Nat) :
    s.scanEnd 15 false half outcome us = (s.scanMet 15 us).unusable 2 :=
  (scanEnd_eq ..).trans ((if_neg (by decide)).trans (if_pos rfl))

theorem scanEnd_mapped (s : State) (half : Bool) (outcome us : Nat) :
    s.scanEnd 15 true half outcome us = (s.scanMet 15 us).scanMapped half outcome :=
  (scanEnd_eq ..).trans ((if_neg (by decide)).trans (if_neg (by decide)))

theorem exec_scanDone {s : State} {dies : BitVec 4} {maps half : Bool} {outcome : Fin 3} {us : Nat} (hphase : s.phase = .start)
    (htaken : s.taken = true) (hruns : s.storeRuns = true) (hstate : s.rd Reg.isState = 1) :
    exec (.scanDone dies maps half outcome us) s = .next (s.scanEnd dies.toNat maps half outcome us) :=
  if_pos (by simp [hphase, htaken, hruns, hstate])

/-- The registers of what the dies answered. -/
def metKeys : List Nat := Reg.scanTime :: (List.range 4).map Reg.dieState

theorem scanMet_spec (s : State) (dies us : Nat) : RegOnly s (s.scanMet dies us) ∧
    (s.scanMet dies us).rd Reg.scanTime = fit Reg.scanTime us ∧ Frame metKeys [] s (s.scanMet dies us) := by
  have hkeys : ∀ d ∈ [0, 1, 2, 3], Reg.dieState d ∈ metKeys ∧ Reg.scanTime ≠ Reg.dieState d := by decide
  refine ⟨RegOnly.each _ _ (fun _ _ hu => hu.wr _ _) ((RegOnly.refl s).wr _ _), ?_, ?_⟩
  · exact each_keeps (P := fun u => u.rd Reg.scanTime = fit Reg.scanTime us) [0, 1, 2, 3] _
      (fun d hd u hu => (State.rd_wr_ne _ _ (hkeys d hd).2).trans hu) (State.rd_wr_same ..)
  · exact .each_mem _ _ (fun d hd _ hu => hu.wr _ _ (hkeys d hd).1) ((Frame.refl ..).wr _ _ (by decide))

/-! ### An unusable store (R400, R173) -/

/-- The result and the state of a store that cannot be used are told. -/
def State.unusableTold (s : State) (result : Nat) : State :=
  ((s.wr Reg.scanResult result).wr Reg.isState 3).event 0x410A 0xFF result

theorem unusable_eq (s : State) (result : Nat) : s.unusable result = (s.unusableTold result).stopStart 4 := rfl

theorem unusableTold_spec (s : State) {result : Nat} (hresult : result < 256) :
    (s.unusableTold result).rd Reg.isState = 3 ∧ (s.unusableTold result).rd Reg.scanResult = result ∧
    (s.unusableTold result).phase = s.phase ∧ (s.unusableTold result).stopAt = s.stopAt ∧
    Frame (eventKeys ++ [Reg.isState, Reg.scanResult]) [] s (s.unusableTold result) := by
  have hevent := logOnly_event ((s.wr Reg.scanResult result).wr Reg.isState 3) 0x410A 0xFF result 0 0
  refine ⟨(hevent.rd (by decide)).trans (rd_wr_of_lt _ (by decide)), ?_, by rw [State.unusableTold, State.event_phase]; rfl,
    by rw [State.unusableTold, State.event_stopAt]; rfl, ?_⟩
  · exact (hevent.rd (by decide)).trans ((State.rd_wr_ne _ _ (by decide)).trans (rd_wr_of_lt _ hresult))
  · exact hevent.frame (by decide) (((Frame.refl ..).wr _ _ (by decide)).wr _ _ (by decide))

theorem unusable_stops {s : State} {result : Nat} (hresult : result < 256) (hphase : s.phase = .start)
    (hstep : s.rd Reg.startStep ≠ Step.stopped) :
    (s.unusable result).rd Reg.isState = 3 ∧ (s.unusable result).rd Reg.scanResult = result ∧
    (s.unusable result).rd Reg.startStep = Step.stopped ∧ (s.unusable result).rd Reg.startStop = 4 ∧
    (s.unusable result).stopAt = s.rd Reg.startStep ∧
    Frame (eventKeys ++ [Reg.isState, Reg.scanResult, Reg.startStep, Reg.startStop]) [] s (s.unusable result) := by
  obtain ⟨hstate, htold, hphase', _, hframe⟩ := unusableTold_spec s hresult
  have hstart : (s.unusableTold result).phase = .start := by rw [hphase', hphase]
  have hsame : (s.unusableTold result).rd Reg.startStep = s.rd Reg.startStep := hframe.rd (by decide)
  have hrun : (s.unusableTold result).rd Reg.startStep ≠ Step.stopped := by rw [hsame]; exact hstep
  rw [unusable_eq]
  refine ⟨(rd_stopStart 4 hstart hrun (by decide) (by decide)).trans hstate, (rd_stopStart 4 hstart hrun (by decide) (by decide)).trans htold,
    ?_, stopStart_startStop hstart hrun (by decide), (stopStart_stopAt 4 hstart hrun).trans hsame, ?_⟩
  · rw [stopStart_of_running 4 hstart hrun, State.rd_event _ _ _ _ _ _ (by decide), stoppedBy_startStep]
  · rw [stopStart_of_running 4 hstart hrun]
    have hstopped : Frame [Reg.startStep, Reg.startStop] [] (s.unusableTold result) ((s.unusableTold result).stoppedBy 4) :=
      ⟨⟨fun _ hk => rd_stoppedBy _ 4 hk, fun _ _ => rfl⟩, fun _ => rfl, rfl, rfl, rfl, rfl, rfl, .of_eq rfl⟩
    exact ((hframe.mono (by decide) fun _ h => h).trans (hstopped.mono (by decide) fun _ h => h)).event _ _ _ _ _ (List.subset_append_left ..)

theorem unusable_stopped {s : State} {result : Nat} (hresult : result < 256) (hstep : s.rd Reg.startStep = Step.stopped) :
    (s.unusable result).rd Reg.isState = 3 ∧ (s.unusable result).rd Reg.scanResult = result ∧ (s.unusable result).stopAt = s.stopAt ∧
    Frame (eventKeys ++ [Reg.isState, Reg.scanResult]) [] s (s.unusable result) := by
  obtain ⟨hstate, htold, _, hstop, hframe⟩ := unusableTold_spec s hresult
  have hsame : (s.unusableTold result).rd Reg.startStep = s.rd Reg.startStep := hframe.rd (by decide)
  have hidle : (s.unusableTold result).stopStart 4 = s.unusableTold result := if_neg (by simp [hsame, hstep])
  rw [unusable_eq, hidle]
  exact ⟨hstate, htold, hstop, hframe⟩

/-! ### The steps up to the new row -/

theorem scanned_scanSettled {s t : State} (half : Bool) (outcome : Nat) (h : Scanned foundKeys s t) :
    Scanned foundKeys s (t.scanSettled half outcome) := .each _ _ (fun _ _ _ hu => scanned_reErase _ _ _ _ hu) h

theorem scanned_scanLoaded {s t : State} (h : Scanned foundKeys s t) : Scanned foundKeys s t.scanLoaded := (scanned_loadSeqs h).sto _

theorem scanned_scanClosed {s t : State} (h : Scanned foundKeys s t) : Scanned foundKeys s t.scanClosed :=
  .each _ _ (fun _ _ _ hu => scanned_closeFound _ hu) h

theorem scanned_scanPrepared {s t : State} (outcome : Nat) (h : Scanned foundKeys s t) : Scanned foundKeys s (t.scanPrepared outcome) :=
  .each _ _ (fun _ _ _ hu => scanned_prepareOne _ _ hu) h

theorem scanned_waitsDropped {s t : State} (h : Scanned foundKeys s t) : Scanned foundKeys s t.waitsDropped := h.sto _

theorem scanned_openRow {s t : State} (h : Scanned foundKeys s t) : Scanned foundKeys s t.openRow :=
  h.storeOnly (StoreOnly.refl ..).openRow (by decide)

theorem scanned_scanRebuilt {s t : State} (h : Scanned foundKeys s t) : Scanned foundKeys s t.scanRebuilt := by
  unfold State.scanRebuilt
  split
  · exact scanned_rebuild (scanned_loadCast (scanned_recoverSeal h))
  · exact scanned_rebuild (scanned_loadCast h)

theorem scanMet_scanned (s : State) (dies us : Nat) : Scanned metKeys s (s.scanMet dies us) := by
  obtain ⟨⟨_, heq⟩, _, hframe⟩ := scanMet_spec s dies us
  exact ⟨hframe.aside, by rw [heq]⟩

theorem scanOpened_scanned (s : State) (half : Bool) (outcome : Nat) :
    Scanned foundKeys s (s.scanOpened half outcome) := by
  unfold State.scanOpened
  have hloaded := scanned_loadCast (scanned_scanClosed (scanned_scanLoaded (scanned_scanSettled half outcome (.refl foundKeys s))))
  exact scanned_openRow (scanned_scanPrepared outcome (scanned_waitsDropped hloaded))

/-! ### The store runs (R396 step 7) -/

/-- The registers of a store that begins to run, but for its result and its state. -/
def runKeys : List Nat := eventKeys ++ pumpKeys ++ [Reg.isFlags]

theorem scanRun_spec (s : State) : s.scanRun.rd Reg.scanResult = 1 ∧ s.scanRun.rd Reg.isState = 2 ∧
    Scanned (runKeys ++ [Reg.scanResult, Reg.isState]) s s.scanRun := by
  have hset : Scanned [Reg.scanResult, Reg.isState] s ((s.wr Reg.scanResult 1).wr Reg.isState 2) :=
    ((Scanned.refl ..).wr _ _ (by decide)).wr _ _ (by decide)
  have hresult : ((s.wr Reg.scanResult 1).wr Reg.isState 2).rd Reg.scanResult = 1 :=
    (State.rd_wr_ne _ _ (by decide)).trans (rd_wr_of_lt _ (by decide))
  have hstate : ((s.wr Reg.scanResult 1).wr Reg.isState 2).rd Reg.isState = 2 := rd_wr_of_lt _ (by decide)
  unfold State.scanRun
  generalize (s.wr Reg.scanResult 1).wr Reg.isState 2 = v at *
  have hworn : Scanned runKeys v v.wornCheck := (Scanned.refl ..).frame (wornCheck_frame (.refl ..) (by decide) (by decide)) (wornCheck_phase v)
  have hmaps : Scanned runKeys v (v.wornCheck.each allPos (fun p s => s.queueMap p)) :=
    .each _ _ (fun p _ u hu => hu.frame ((Frame.refl ..).queueMap p) (queueMap_phase u p)) hworn
  have hrun := hmaps.storeOnly (storeOnly_pump _) (by decide)
  exact ⟨(hrun.rd (by decide)).trans hresult, (hrun.rd (by decide)).trans hstate,
    (hset.mono (List.subset_append_right ..)).trans (hrun.mono (List.subset_append_left ..))⟩

/-! ### A scan that finds every block as it was -/

/-- The blocks, their marks and the open row are as before. -/
structure SameBlocks (s t : State) : Prop where
  nand : t.sto.nand = s.sto.nand
  bad : t.sto.bad = s.sto.bad
  factory : t.sto.factory = s.sto.factory
  held : t.sto.badHeld = s.sto.badHeld
  row : t.sto.row = s.sto.row

theorem SameBlocks.refl (s) : SameBlocks s s := ⟨rfl, rfl, rfl, rfl, rfl⟩

theorem SameBlocks.trans {s t u} (h1 : SameBlocks s t) (h2 : SameBlocks t u) : SameBlocks s u :=
  ⟨h2.nand.trans h1.nand, h2.bad.trans h1.bad, h2.factory.trans h1.factory, h2.held.trans h1.held, h2.row.trans h1.row⟩

theorem SameBlocks.of_sto {s t : State} (h : t.sto = s.sto) : SameBlocks s t := by
  constructor <;> rw [h]

theorem SameBlocks.isBad {s t} (h : SameBlocks s t) (k) : t.isBad k = s.isBad k := isBad_of_marks h.bad h.factory h.held k

theorem SameBlocks.inRow {s t} (h : SameBlocks s t) (k) : t.inRow k = s.inRow k := by rw [State.inRow, h.row, State.inRow]

theorem SameBlocks.freshFrom {s t} (h : SameBlocks s t) (pos n b) : t.freshFrom pos n b = s.freshFrom pos n b := by
  induction n generalizing b with
  | zero => rfl
  | succ n ih => rw [State.freshFrom, State.freshFrom, h.nand, h.isBad, h.inRow, ih]

theorem SameBlocks.pickBlock {s t} (h : SameBlocks s t) (pos) : t.pickBlock pos = s.pickBlock pos := by
  unfold State.pickBlock
  simp only [h.nand, h.isBad, h.inRow, h.freshFrom]

theorem SameBlocks.rowsFound {s t} (h : SameBlocks s t) : t.rowsFound = s.rowsFound := by
  unfold State.rowsFound State.logPages
  rw [h.nand]

theorem SameBlocks.rowBlocks {s t} (h : SameBlocks s t) (row) : t.rowBlocks row = s.rowBlocks row := by
  unfold State.rowBlocks
  simp only [h.nand, h.isBad]

theorem each_of_idle {α : Type} (s : State) (l : List α) (f : α → State → State) (h : ∀ a ∈ l, f a s = s) : s.each l f = s :=
  each_keeps (P := fun u => u = s) l f (fun a ha u hu => by rw [hu, h a ha]) rfl

/-- A row whose every block has its summary page is left as it is. -/
theorem closeFound_of_closed {s : State} {row : Nat} (h : ∀ k ∈ s.rowBlocks row, (s.blk k).hasPage 63 = true) : s.closeFound row = s := by
  have hnone : (s.rowBlocks row).filter (fun k => !(s.blk k).hasPage 63) = [] :=
    List.filter_eq_nil_iff.mpr fun k hk => by simp [h k hk]
  unfold State.closeFound
  rw [hnone]
  rfl

theorem scanClosed_of_closed {s : State} (h : ∀ r ∈ s.rowsFound, ∀ k ∈ s.rowBlocks r, (s.blk k).hasPage 63 = true) : s.scanClosed = s :=
  each_of_idle _ _ _ fun r hr => closeFound_of_closed (h r hr)

theorem scanPrepared_of_picks {s : State} (outcome : Nat) (h : ∀ p ∈ allPos, (s.pickBlock p).isSome = true) : s.scanPrepared outcome = s :=
  each_of_idle _ _ _ fun p hp => if_pos (h p hp)

theorem scanSettled_of_settled {s : State} (half : Bool) (outcome : Nat) (h : s.unsettled = []) : s.scanSettled half outcome = s := by
  rw [State.scanSettled, h]
  rfl

theorem sameBlocks_loadCast (s : State) : SameBlocks s s.loadCast := by
  unfold State.loadCast
  split
  · exact .refl s
  · next page x _ =>
    dsimp only
    have hlast : SameBlocks s (if later32 (s.rd Reg.heatLast) x.heat then s.wr Reg.heatLast x.heat else s) := by
      split
      · exact .of_sto rfl
      · exact .refl s
    generalize (if later32 (s.rd Reg.heatLast) x.heat then s.wr Reg.heatLast x.heat else s) = v at *
    have hnoted : SameBlocks s ((v.wr Reg.heatLocal (if x.localHeat then 1 else 0)).wr Reg.lastSealPage page) := hlast.trans (.of_sto rfl)
    have heach := each_keeps (P := SameBlocks s) allStreams
      (fun st s => (s.wr (Reg.drossRecs st) (x.drossRecs st)).wr (Reg.drossEpoch st) (x.drossEpoch st))
      (fun _ _ _ hu => hu.trans (.of_sto rfl)) hnoted
    exact heach.trans ⟨rfl, rfl, rfl, rfl, rfl⟩

theorem openRow_opens {s : State} (hrow : s.sto.row = none) (hpicks : ∀ p ∈ allPos, (s.pickBlock p).isSome = true) :
    s.openRow.sto.row.isSome = true := by
  have hall : (allPos.map (fun p => s.pickBlock p)).any Option.isNone = false := by
    simp only [List.any_map, List.any_eq_false, Function.comp_apply, Option.isNone_iff_eq_none]
    intro p hp hnone
    have hsome := hpicks p hp
    rw [hnone] at hsome
    simp at hsome
  unfold State.openRow
  dsimp only
  rw [if_neg (by rw [hall, hrow]; simp)]
  rfl

theorem scanOpened_row {s : State} (half : Bool) (outcome : Nat) (hsettled : s.unsettled = [])
    (hclosed : ∀ r ∈ s.rowsFound, ∀ k ∈ s.rowBlocks r, (s.blk k).hasPage 63 = true)
    (hpicks : ∀ p ∈ allPos, (s.pickBlock p).isSome = true) (hrow : s.sto.row = none) : (s.scanOpened half outcome).sto.row.isSome = true := by
  have hload : SameBlocks s s.scanLoaded := ⟨rfl, rfl, rfl, rfl, rfl⟩
  have hrows : s.scanLoaded.scanClosed = s.scanLoaded := scanClosed_of_closed fun r hr k hk => by
    rw [blk_of_nand hload.nand]
    exact hclosed r (by rwa [hload.rowsFound] at hr) k (by rwa [hload.rowBlocks] at hk)
  have hcast := hload.trans (sameBlocks_loadCast s.scanLoaded)
  have hclear : SameBlocks s s.scanLoaded.loadCast.waitsDropped := ⟨hcast.nand, hcast.bad, hcast.factory, hcast.held, hrow.symm⟩
  have hready : ∀ p ∈ allPos, (s.scanLoaded.loadCast.waitsDropped.pickBlock p).isSome = true := fun p hp => by
    rw [hclear.pickBlock]
    exact hpicks p hp
  rw [State.scanOpened, scanSettled_of_settled half outcome hsettled, hrows, scanPrepared_of_picks outcome hready]
  exact openRow_opens (hclear.row.trans hrow) hready

/-! ### The end -/

theorem eventKeys_subset_foundKeys : eventKeys ⊆ foundKeys := by decide

/-- A store that begins to run changes what the scan's steps may change. -/
theorem runKeys_subset : runKeys ⊆ foundKeys :=
  List.append_subset.mpr ⟨fun _ hk => List.mem_append_left _ (List.mem_append_left _ hk), by decide⟩

/-- The registers of a scan that ends, as the obligation lists them. -/
def scanEndKeys : List Nat :=
  eventKeys ++ pumpKeys ++ [Reg.isState, Reg.scanResult, Reg.scanTime, Reg.startStep, Reg.startStop, Reg.castPending, Reg.eraseFails,
    Reg.erases, Reg.grownBadCount, Reg.halfErased, Reg.heatLast, Reg.heatLocal, Reg.isFlags, Reg.lastSealPage, Reg.mirrored,
    Reg.pagesProgrammed, Reg.recoveredSeals, Reg.reerases, Reg.rowsClosedAtStart, Reg.sumSeqLast, Reg.sumValid] ++
    allStreams.flatMap (fun st => [Reg.drossEpoch st, Reg.drossRecs st, Reg.epochState st, Reg.lastCommit st, Reg.lastComplete st,
      Reg.lastRetired st, Reg.nextRec st, Reg.openEpoch st, Reg.retireDurable st, Reg.streamHas st, Reg.mirroredUnits st])

theorem scanEndKeys_covers :
    metKeys ++ (foundKeys ++ [Reg.isState, Reg.scanResult, Reg.startStep, Reg.startStop]) ⊆ scanEndKeys := by
  have hfound : foundKeys ⊆ scanEndKeys := List.append_subset.mpr ⟨List.append_subset.mpr
    ⟨fun _ hk => List.mem_append_left _ (List.mem_append_left _ hk), by decide⟩, List.subset_append_right ..⟩
  exact List.append_subset.mpr ⟨by decide, List.append_subset.mpr ⟨hfound, by decide⟩⟩

theorem scanMapped_stopped {s : State} (half : Bool) (outcome : Nat) (h : (s.scanOpened half outcome).sto.row.isNone = true) :
    s.scanMapped half outcome = (s.scanOpened half outcome).unusable 3 := if_pos h

theorem scanMapped_runs {s : State} (half : Bool) (outcome : Nat) (h : (s.scanOpened half outcome).sto.row.isSome = true) :
    s.scanMapped half outcome = (s.scanOpened half outcome).scanRebuilt.scanRun := by
  refine if_neg ?_
  rw [Option.isNone_eq_false_iff.mpr h]
  decide

/-- A scan that gets its row. -/
theorem scanMapped_runs_spec {s : State} (half : Bool) (outcome : Nat) (h : (s.scanOpened half outcome).sto.row.isSome = true) :
    (s.scanMapped half outcome).rd Reg.isState = 2 ∧ (s.scanMapped half outcome).rd Reg.scanResult = 1 ∧
    Scanned (foundKeys ++ [Reg.scanResult, Reg.isState]) s (s.scanMapped half outcome) := by
  have hbuilt := scanned_scanRebuilt (scanOpened_scanned s half outcome)
  rw [scanMapped_runs half outcome h]
  obtain ⟨hresult, hstate, hrun⟩ := scanRun_spec (s.scanOpened half outcome).scanRebuilt
  exact ⟨hstate, hresult, (hbuilt.mono (List.subset_append_left ..)).trans (hrun.mono (List.append_subset.mpr
    ⟨fun _ hk => List.mem_append_left _ (runKeys_subset hk), List.subset_append_right ..⟩))⟩

/-- A scan that gets none. -/
theorem scanMapped_stopped_spec {s : State} (half : Bool) (outcome : Nat) (hphase : s.phase = .start)
    (hstep : s.rd Reg.startStep ≠ Step.stopped) (h : (s.scanOpened half outcome).sto.row.isNone = true) :
    (s.scanMapped half outcome).rd Reg.isState = 3 ∧ (s.scanMapped half outcome).rd Reg.scanResult = 3 ∧
    (s.scanMapped half outcome).rd Reg.startStep = Step.stopped ∧ (s.scanMapped half outcome).rd Reg.startStop = 4 ∧
    Aside (foundKeys ++ [Reg.isState, Reg.scanResult, Reg.startStep, Reg.startStop]) s (s.scanMapped half outcome) := by
  have hopened := scanOpened_scanned s half outcome
  have hsame : (s.scanOpened half outcome).rd Reg.startStep = s.rd Reg.startStep := hopened.rd (by decide)
  rw [scanMapped_stopped half outcome h]
  obtain ⟨hstate, hresult, hstopped, hstop, _, hframe⟩ :=
    unusable_stops (result := 3) (by decide) (hopened.phase.trans hphase) (by rw [hsame]; exact hstep)
  exact ⟨hstate, hresult, hstopped, hstop,
    (hopened.aside.mono (List.subset_append_left ..)).frame (hframe.mono (List.append_subset.mpr
      ⟨fun _ hk => List.mem_append_left _ (eventKeys_subset_foundKeys hk), List.subset_append_right ..⟩) fun _ h => h)⟩

theorem scanMapped_spec {s : State} (half : Bool) (outcome : Nat) (hphase : s.phase = .start) (hstep : s.rd Reg.startStep ≠ Step.stopped) :
    (((s.scanMapped half outcome).rd Reg.isState = 2 ∧ (s.scanMapped half outcome).rd Reg.scanResult = 1) ∨
      ((s.scanMapped half outcome).rd Reg.isState = 3 ∧ (s.scanMapped half outcome).rd Reg.scanResult = 3 ∧
        (s.scanMapped half outcome).rd Reg.startStep = Step.stopped ∧ (s.scanMapped half outcome).rd Reg.startStop = 4)) ∧
    Aside (foundKeys ++ [Reg.isState, Reg.scanResult, Reg.startStep, Reg.startStop]) s (s.scanMapped half outcome) := by
  by_cases hrow : (s.scanOpened half outcome).sto.row.isSome = true
  · obtain ⟨hstate, hresult, hscanned⟩ := scanMapped_runs_spec half outcome hrow
    have hresults : [Reg.scanResult, Reg.isState] ⊆ [Reg.isState, Reg.scanResult, Reg.startStep, Reg.startStop] := by decide
    exact ⟨.inl ⟨hstate, hresult⟩, hscanned.aside.mono (List.append_subset.mpr
      ⟨List.subset_append_left .., fun _ hk => List.mem_append_right _ (hresults hk)⟩)⟩
  · have hnone : (s.scanOpened half outcome).sto.row.isNone = true := by simpa using hrow
    obtain ⟨hstate, hresult, hstopped, hstop, haside⟩ := scanMapped_stopped_spec half outcome hphase hstep hnone
    exact ⟨.inr ⟨hstate, hresult, hstopped, hstop⟩, haside⟩

/-- Settles O28: a die that does not answer, a missing map and a plane without a block leave the store unusable, and start stops where it
runs; a scan that gets its row has its store run; no step touches the other stores. -/
theorem theScanEnds : Obligations.TheScanEnds := by
  unfold Obligations.TheScanEnds
  have hdies : ∀ d : BitVec 4, d ≠ 15 → d.toNat % 16 ≠ 15 := by decide
  refine ⟨fun s h o us hphase htaken hruns hstate hsettled hclosed hrow hpicks => ?_,
    fun s dies m h o us hphase htaken hruns hstate hdie hstep => ?_, fun s dies m h o us hphase htaken hruns hstate hdie hstep => ?_,
    fun s h o us hphase htaken hruns hstate hstep => ?_, fun s h o us hphase htaken hruns hstate hstep => ?_⟩
  case refine_1 =>
    have hend : s.scanEnd 15 true h o us = (s.scanMet 15 us).scanMapped h o := scanEnd_mapped ..
    obtain ⟨⟨reg, hreg⟩, htime, _⟩ := scanMet_spec s 15 us
    have hmet := scanMet_scanned s 15 us
    have hblocks : SameBlocks s (s.scanMet 15 us) := .of_sto (by rw [hreg])
    have hopen : ((s.scanMet 15 us).scanOpened h o).sto.row.isSome = true := by
      refine scanOpened_row h o ?_ (fun r hr k hk => ?_) (fun p hp => ?_) ?_
      · rw [hreg]
        exact hsettled
      · rw [blk_of_nand hblocks.nand]
        exact hclosed r (by rwa [hblocks.rowsFound] at hr) k (by rwa [hblocks.rowBlocks] at hk)
      · rw [hblocks.pickBlock]
        exact hpicks p hp
      · exact hblocks.row.trans hrow
    obtain ⟨hstate', hresult, hscanned⟩ := scanMapped_runs_spec h o hopen
    have hrd : ∀ k ∈ [Reg.startStep, Reg.startStop], ((s.scanMet 15 us).scanMapped h o).rd k = s.rd k := fun k hk => by
      have hout : ∀ k ∈ [Reg.startStep, Reg.startStop], k ∉ foundKeys ++ [Reg.scanResult, Reg.isState] ∧ k ∉ metKeys := by decide
      exact (hscanned.rd (hout k hk).1).trans (hmet.rd (hout k hk).2)
    obtain ⟨_, hcode, hrecord, hcope, hdrag, hring⟩ :=
      (hmet.aside.mono (List.subset_append_left ..)).trans (hscanned.aside.mono (List.subset_append_right ..))
    exact ⟨_, (exec_scanDone hphase htaken hruns hstate).trans (congrArg _ hend), hstate', hresult, (hscanned.rd (by decide)).trans htime,
      hrd _ (by simp), hrd _ (by simp), hscanned.phase.trans (hmet.phase.trans hphase), hcode, hrecord, hcope, hdrag, hring⟩
  case refine_2 =>
    have hend : s.scanEnd dies.toNat m h o us = (s.scanMet dies.toNat us).unusable 4 := (scanEnd_eq ..).trans (if_pos (hdies dies hdie))
    have hmet := scanMet_scanned s dies.toNat us
    obtain ⟨_, htime, hframe⟩ := scanMet_spec s dies.toNat us
    have hsame : (s.scanMet dies.toNat us).rd Reg.startStep = s.rd Reg.startStep := hframe.rd (by decide)
    obtain ⟨hstate', hresult, hstopped, hstop, hat, hended⟩ :=
      unusable_stops (result := 4) (by decide) (hmet.phase.trans hphase) (by rw [hsame]; exact hstep)
    exact ⟨_, (exec_scanDone hphase htaken hruns hstate).trans (congrArg _ hend), hstate', hresult, hstopped, hstop, hat.trans hsame,
      (hended.rd (by decide)).trans htime, (hframe.mono (by decide) fun _ h => h).trans (hended.mono (by decide) fun _ h => h)⟩
  case refine_3 =>
    have hend : s.scanEnd dies.toNat m h o us = (s.scanMet dies.toNat us).unusable 4 := (scanEnd_eq ..).trans (if_pos (hdies dies hdie))
    obtain ⟨⟨reg, hreg⟩, _, hframe⟩ := scanMet_spec s dies.toNat us
    have hsame : (s.scanMet dies.toNat us).rd Reg.startStep = s.rd Reg.startStep := hframe.rd (by decide)
    obtain ⟨hstate', hresult, hat, hended⟩ := unusable_stopped (result := 4) (by decide) (hsame.trans hstep)
    exact ⟨_, (exec_scanDone hphase htaken hruns hstate).trans (congrArg _ hend), hstate', hresult,
      (hended.rd (by decide)).trans (hframe.rd (by decide)), hat.trans (by rw [hreg]),
      (hframe.mono (by decide) fun _ h => h).trans (hended.mono (by decide) fun _ h => h)⟩
  case refine_4 =>
    have hend : s.scanEnd 15 false h o us = (s.scanMet 15 us).unusable 2 := scanEnd_unmapped ..
    have hmet := scanMet_scanned s 15 us
    obtain ⟨_, _, hframe⟩ := scanMet_spec s 15 us
    have hsame : (s.scanMet 15 us).rd Reg.startStep = s.rd Reg.startStep := hframe.rd (by decide)
    obtain ⟨hstate', hresult, hstopped, hstop, _, hended⟩ :=
      unusable_stops (result := 2) (by decide) (hmet.phase.trans hphase) (by rw [hsame]; exact hstep)
    exact ⟨_, (exec_scanDone hphase htaken hruns hstate).trans (congrArg _ hend), hstate', hresult, hstopped, hstop,
      (hframe.mono (by decide) fun _ h => h).trans (hended.mono (by decide) fun _ h => h)⟩
  case refine_5 =>
    have hend : s.scanEnd 15 true h o us = (s.scanMet 15 us).scanMapped h o := scanEnd_mapped ..
    have hmet := scanMet_scanned s 15 us
    obtain ⟨_, htime, hframe⟩ := scanMet_spec s 15 us
    have hsame : (s.scanMet 15 us).rd Reg.startStep = s.rd Reg.startStep := hframe.rd (by decide)
    obtain ⟨hresults, haside⟩ := scanMapped_spec h o (hmet.phase.trans hphase) (by rw [hsame]; exact hstep)
    obtain ⟨hquiet, hcode, hrecord, hcope, hdrag, hring⟩ :=
      (hmet.aside.mono (List.subset_append_left ..)).trans (haside.mono (List.subset_append_right ..))
    exact ⟨_, (exec_scanDone hphase htaken hruns hstate).trans (congrArg _ hend), hresults, (haside.rd (by decide)).trans htime,
      hquiet.mono scanEndKeys_covers fun _ h => h, hcode, hrecord, hcope, hdrag, hring⟩

end Sys2Proof.Machine
end

section
/-! PROOF. Records enter the crucible or are refused (spec/12_link_layer.md R317-R320; spec/13_mirror_and_admission.md R328-R333). -/
namespace Sys2Proof.Machine

/-! ### COMMIT frames (R322) -/

/-- What a commit frame that is due leaves of the link layer: what it received, the credit that lapsed. -/
theorem commitSoon_spec (s : State) : SendOnly s s.commitSoon ∧ s.commitSoon.ll.rxq = s.ll.rxq ∧ s.commitSoon.ll.lapsed = s.ll.lapsed := by
  have hsent : ∀ f : TxFrame, ({ s with ll := { s.ll with commitDue := false, gapRuns := true } }.send f).ll.rxq = s.ll.rxq ∧
      ({ s with ll := { s.ll with commitDue := false, gapRuns := true } }.send f).ll.lapsed = s.ll.lapsed := fun f => by
    obtain ⟨_, _, _, _, h⟩ := sendsOnly_send { s with ll := { s.ll with commitDue := false, gapRuns := true } } f
    rw [h]
    exact ⟨rfl, rfl⟩
  unfold State.commitSoon
  split
  · exact ⟨.refl s, rfl, rfl⟩
  · split
    · exact ⟨(SendOnly.refl s).ll _, rfl, rfl⟩
    · exact ⟨((SendOnly.refl s).ll _).trans (sendOnly_send _ _), hsent _⟩

theorem SendOnly.sto {s t} (h : SendOnly s t) : t.sto = s.sto := by
  obtain ⟨_, _, rfl, _⟩ := h
  rfl

/-! ### Counts of the crucible (R328, R340) -/

theorem regOnly_refreshFill (s : State) : RegOnly s s.refreshFill := RegOnly.each _ _ (fun _ _ hu => hu.wr _ _) ((RegOnly.refl s).wr _ _)

theorem regOnly_refreshMirrored (s : State) : RegOnly s s.refreshMirrored :=
  RegOnly.each _ _ (fun _ _ hu => hu.wr _ _) ((RegOnly.refl s).wr _ _)

theorem RegOnly.sto {s t} (h : RegOnly s t) : t.sto = s.sto ∧ t.ll = s.ll := by
  obtain ⟨_, rfl⟩ := h
  exact ⟨rfl, rfl⟩

theorem refreshFill_fill (s : State) : s.refreshFill.rd Reg.crucibleFill = fit Reg.crucibleFill ((s.sto.crucible.map (fun c => c.r.slots)).sum) := by
  have hne : ∀ st ∈ allStreams, Reg.crucibleFill ≠ Reg.crucibleUnits st := by decide
  exact each_keeps (P := fun u => u.rd Reg.crucibleFill = fit Reg.crucibleFill ((s.sto.crucible.map (fun c => c.r.slots)).sum)) allStreams _
    (fun st hst u hu => (State.rd_wr_ne _ _ (hne st hst)).trans hu) (State.rd_wr_same ..)

/-! ### A record is accepted (R318, R328, R333) -/

/-- The record waits in the crucible for its place. -/
def State.recTaken (s : State) (r : Rec) (session : Nat) : State :=
  { s with
    sto := { s.sto with
      crucible := s.sto.crucible ++ [CruRec.mk r session []]
      todo := s.sto.todo ++ [Item.record r.stream r.seq 0]
      unret := addUnits r.stream r.epoch r.slots s.sto.unret
      since := true }
    ll := { s.ll with expect := s.ll.expect ||| 2 ^ r.stream } }

/-- The record is counted. -/
def State.recCounted (s : State) (r : Rec) : State :=
  (((s.wr (Reg.nextRec r.stream) ((r.seq + 1) % 2 ^ 32)).bump Reg.recordsAccepted).bumpBy Reg.rxSinceDecl r.slots).iff (s.phase = Phase.pour)
    (·.bumpBy Reg.pourRx r.slots)

/-- A stall of the stream ends. -/
def State.stallEnded (s : State) (st : Nat) : State :=
  if s.bitOf Reg.stalled st then (s.clearBits Reg.stalled (2 ^ st)).event 0x3103 st 0 (s.rd (Reg.nextRec st)) else s

/-- What the crucible and the mirror hold is shown, waiting records are placed, a commit may be due. -/
def State.recFollowed (s : State) : State := (s.refreshFill.refreshMirrored.pump).commitSoon

theorem acceptRec_eq (s : State) (r : Rec) (session : Nat) :
    s.acceptRec r session = ((((s.recTaken r session).stepEpoch r).recCounted r).stallEnded r.stream).recFollowed := rfl

theorem recTaken_frame (s : State) (r : Rec) (session : Nat) : Frame [] [] s (s.recTaken r session) :=
  (Frame.refl ..).of_eq rfl rfl ⟨fun _ => rfl, rfl, rfl, rfl, rfl, rfl, .of_eq rfl⟩

/-- The registers of a stream's epoch that a record changes. -/
def epochKeys (r : Rec) : List Nat := Reg.epochState r.stream :: if r.closes then [] else [Reg.openEpoch r.stream]

/-- The registers of a record that is counted. -/
def countKeys (st : Nat) : List Nat := [Reg.nextRec st, Reg.recordsAccepted, Reg.rxSinceDecl, Reg.pourRx]

theorem countKeys_apart : ∀ st ∈ allStreams, Reg.nextRec st ∉ [Reg.recordsAccepted, Reg.rxSinceDecl, Reg.pourRx] ∧
    Reg.epochState st ∉ countKeys st ∧ Reg.rxunits st ∉ countKeys st ∧ sizeAt (Reg.nextRec st) = 4 ∧ sizeAt (Reg.epochState st) = 1 := by decide

theorem openEpoch_ne (st : Nat) : Reg.epochState st ≠ Reg.openEpoch st := by
  simp only [Reg.epochState, Reg.openEpoch, rkey]
  omega

theorem stepEpoch_spec (s : State) (r : Rec) (hst : r.stream ∈ allStreams) :
    (s.stepEpoch r).rd (Reg.epochState r.stream) = (if r.closes then 2 else 1) ∧
    (r.closes = true → tget 0 (s.stepEpoch r).sto.lastClosed r.stream = r.epoch + 1) ∧
    (s.stepEpoch r).sto.crucible = s.sto.crucible ∧ (s.stepEpoch r).sto.since = s.sto.since ∧ (s.stepEpoch r).ll = s.ll ∧
    Frame (epochKeys r) [] s (s.stepEpoch r) := by
  obtain ⟨_, _, _, _, hsize⟩ := countKeys_apart r.stream hst
  have hfits : 2 < 256 ^ sizeAt (Reg.epochState r.stream) := by rw [hsize]; decide
  unfold State.stepEpoch epochKeys
  by_cases hcloses : r.closes = true
  · rw [if_pos hcloses, if_pos hcloses, if_pos hcloses]
    have hwr : Frame [Reg.epochState r.stream] [] s (s.wr (Reg.epochState r.stream) 2) := (Frame.refl ..).wr _ _ (by simp)
    exact ⟨rd_wr_of_lt _ hfits, fun _ => (tget_tput ..).trans (if_pos rfl), rfl, rfl, rfl,
      hwr.of_eq rfl rfl ⟨fun _ => rfl, rfl, rfl, rfl, rfl, rfl, .of_eq rfl⟩⟩
  · rw [if_neg hcloses, if_neg hcloses, if_neg hcloses]
    refine ⟨?_, fun h => absurd h hcloses, rfl, rfl, rfl, ((Frame.refl ..).wr _ _ (by simp)).wr _ _ (by simp)⟩
    exact (State.rd_wr_ne _ _ (openEpoch_ne _)).trans (rd_wr_of_lt _ (by omega))

theorem recCounted_spec (s : State) (r : Rec) (hst : r.stream ∈ allStreams) :
    (s.recCounted r).rd (Reg.nextRec r.stream) = (r.seq + 1) % 2 ^ 32 ∧ Counts Reg.recordsAccepted s (s.recCounted r) ∧
    (s.recCounted r).sto = s.sto ∧ (s.recCounted r).ll = s.ll ∧ Frame (countKeys r.stream) [] s (s.recCounted r) := by
  obtain ⟨hnext, _, _, hsize, _⟩ := countKeys_apart r.stream hst
  have hmem : Reg.nextRec r.stream ∈ countKeys r.stream := List.mem_cons_self
  have hrest : [Reg.recordsAccepted, Reg.rxSinceDecl, Reg.pourRx] ⊆ countKeys r.stream := List.subset_cons_self ..
  have hset : (s.wr (Reg.nextRec r.stream) ((r.seq + 1) % 2 ^ 32)).rd (Reg.nextRec r.stream) = (r.seq + 1) % 2 ^ 32 :=
    rd_wr_of_lt _ (by rw [hsize]; exact Nat.mod_lt _ (by decide))
  have hsame : (s.wr (Reg.nextRec r.stream) ((r.seq + 1) % 2 ^ 32)).rd Reg.recordsAccepted = s.rd Reg.recordsAccepted :=
    State.rd_wr_ne _ _ fun h => hnext (h ▸ List.mem_cons_self)
  have hwr : Frame (countKeys r.stream) [] s (s.wr (Reg.nextRec r.stream) ((r.seq + 1) % 2 ^ 32)) := (Frame.refl ..).wr _ _ hmem
  have hkeep : (s.recCounted r).sto = s.sto ∧ (s.recCounted r).ll = s.ll := by
    unfold State.recCounted State.iff
    split <;> exact ⟨rfl, rfl⟩
  unfold State.recCounted at *
  generalize s.wr (Reg.nextRec r.stream) ((r.seq + 1) % 2 ^ 32) = v at *
  have hdecl : Frame [Reg.rxSinceDecl, Reg.pourRx] [] (v.bump Reg.recordsAccepted)
      (((v.bump Reg.recordsAccepted).bumpBy Reg.rxSinceDecl r.slots).iff (s.phase = Phase.pour) (·.bumpBy Reg.pourRx r.slots)) :=
    .iff _ _ (fun h => h.bumpBy _ _ (by simp)) ((Frame.refl ..).bumpBy _ _ (by simp))
  have hcount : Frame [Reg.recordsAccepted, Reg.rxSinceDecl, Reg.pourRx] [] v
      (((v.bump Reg.recordsAccepted).bumpBy Reg.rxSinceDecl r.slots).iff (s.phase = Phase.pour) (·.bumpBy Reg.pourRx r.slots)) :=
    ((Frame.refl ..).bump _ (by simp)).trans (hdecl.mono (by simp) fun _ h => h)
  refine ⟨(hcount.rd hnext).trans hset, ?_, hkeep.1, hkeep.2, hwr.trans (hcount.mono hrest fun _ h => h)⟩
  exact (hdecl.rd (by decide)).trans ((rd_bump ..).trans (by rw [hsame]))

theorem stallEnded_spec (s : State) (st : Nat) : (s.stallEnded st).bitOf Reg.stalled st = false ∧ (s.stallEnded st).sto = s.sto ∧
    (s.stallEnded st).ll = s.ll ∧ Frame (eventKeys ++ [Reg.stalled]) [] s (s.stallEnded st) := by
  unfold State.stallEnded
  split
  · have hevent := logOnly_event (s.clearBits Reg.stalled (2 ^ st)) 0x3103 st 0 (s.rd (Reg.nextRec st)) 0
    refine ⟨(bitOf_of_rd st (hevent.rd (by decide))).trans (bitOf_clearBits ..), ?_, ?_, ?_⟩
    · rw [State.event_sto]
      rfl
    · rw [State.event_ll]
      rfl
    · exact hevent.frame (List.subset_append_left ..) ((Frame.refl ..).clearBits _ _ (by simp))
  · next h => exact ⟨by simpa using h, rfl, rfl, .refl ..⟩

/-- The registers of what follows a record. -/
def followKeys : List Nat := sendKeys ++ pumpKeys ++ fillKeys

theorem recFollowed_spec (s : State) :
    s.recFollowed.rd Reg.crucibleFill = fit Reg.crucibleFill ((s.sto.crucible.map (fun c => c.r.slots)).sum) ∧
    s.recFollowed.sto.since = s.sto.since ∧ s.recFollowed.sto.lastClosed = s.sto.lastClosed ∧ s.recFollowed.ll.rxq = s.ll.rxq ∧
    s.recFollowed.ll.lapsed = s.ll.lapsed ∧ Frame followKeys [] s s.recFollowed := by
  obtain ⟨hsto, hll⟩ := (regOnly_refreshFill s).sto
  obtain ⟨hsto', hll'⟩ := (regOnly_refreshMirrored s.refreshFill).sto
  have hmirror : Frame ([Reg.mirrored] ++ allStreams.map Reg.mirroredUnits) [] s.refreshFill s.refreshFill.refreshMirrored :=
    .each_mem _ _ (fun st hst _ hu => hu.wr _ _ (List.mem_append_right _ (mem_map_streams _ hst))) ((Frame.refl ..).wr _ _ (by simp))
  have hfill := (hmirror.rd (by decide)).trans (refreshFill_fill s)
  have hfills : Frame fillKeys [] s s.refreshFill.refreshMirrored := refreshMirrored_frame (refreshFill_frame (.refl ..) fun _ h => h) fun _ h => h
  rw [hsto] at hsto'
  rw [hll] at hll'
  unfold State.recFollowed
  generalize s.refreshFill.refreshMirrored = v at *
  have hpump := storeOnly_pump v
  obtain ⟨hsend, hrxq, hlapsed⟩ := commitSoon_spec v.pump
  have hpumped : v.pump.sto.since = s.sto.since ∧ v.pump.sto.lastClosed = s.sto.lastClosed ∧ v.pump.ll = s.ll := by
    obtain ⟨_, _, _, _, _, _, _, _, heq, _⟩ := hpump
    rw [heq]
    exact ⟨by rw [hsto'], by rw [hsto'], hll'⟩
  obtain ⟨hsince, hclosed, hpumpll⟩ := hpumped
  refine ⟨(hsend.rd (by decide)).trans ((hpump.rd (by decide)).trans hfill), by rw [hsend.sto, hsince], by rw [hsend.sto, hclosed],
    by rw [hrxq, hpumpll], by rw [hlapsed, hpumpll], ?_⟩
  exact hsend.frame (by decide) (hpump.frame (by decide) (hfills.mono (List.subset_append_right ..) fun _ h => h))

end Sys2Proof.Machine
end

section
/-! PROOF. DATA_RX and CLOSE_RX: contents in order, repeated, without credit, of a session that has ended
(spec/12_link_layer.md R316-R320; spec/13_mirror_and_admission.md R333). -/
namespace Sys2Proof.Machine

/-! ### Acceptance -/

theorem Frame.append {K L H : List Nat} {s t u : State} (h1 : Frame K H s t) (h2 : Frame L H t u) : Frame (K ++ L) H s u :=
  (h1.mono (List.subset_append_left ..) fun _ h => h).trans (h2.mono (List.subset_append_right ..) fun _ h => h)

/-- The registers of a record that is accepted. -/
def acceptKeys (r : Rec) : List Nat :=
  epochKeys r ++ countKeys r.stream ++ (eventKeys ++ [Reg.stalled]) ++ followKeys

/-- The same of a stream, whether or not its epoch closes. -/
def acceptKeysOf (st : Nat) : List Nat :=
  [Reg.epochState st, Reg.openEpoch st] ++ countKeys st ++ (eventKeys ++ [Reg.stalled]) ++ followKeys

theorem acceptKeys_apart : ∀ st ∈ allStreams, ∀ k ∈ [Reg.nextRec st, Reg.recordsAccepted, Reg.epochState st],
    k ∉ eventKeys ++ [Reg.stalled] ∧ k ∉ followKeys := by decide

theorem epochKeys_apart : ∀ st ∈ allStreams, Reg.recordsAccepted ≠ Reg.epochState st ∧ Reg.recordsAccepted ≠ Reg.openEpoch st := by decide

theorem acceptRec_spec (s : State) (r : Rec) (session : Nat) (hst : r.stream ∈ allStreams) :
    (s.acceptRec r session).rd (Reg.nextRec r.stream) = (r.seq + 1) % 2 ^ 32 ∧ Counts Reg.recordsAccepted s (s.acceptRec r session) ∧
    (s.acceptRec r session).rd Reg.crucibleFill = fit Reg.crucibleFill ((s.sto.crucible.map (fun c => c.r.slots)).sum + r.slots) ∧
    (s.acceptRec r session).rd (Reg.epochState r.stream) = (if r.closes then 2 else 1) ∧
    (s.acceptRec r session).bitOf Reg.stalled r.stream = false ∧ (s.acceptRec r session).sto.since = true ∧
    (s.acceptRec r session).ll.rxq = s.ll.rxq ∧ (s.acceptRec r session).ll.lapsed = s.ll.lapsed ∧
    (r.closes = true → tget 0 (s.acceptRec r session).sto.lastClosed r.stream = r.epoch + 1) ∧
    Frame (acceptKeys r) [] s (s.acceptRec r session) := by
  have htaken := recTaken_frame s r session
  have hunits : ((s.recTaken r session).sto.crucible.map (fun c => c.r.slots)).sum = (s.sto.crucible.map (fun c => c.r.slots)).sum + r.slots := by
    simp [State.recTaken]
  have hsame : (s.recTaken r session).sto.since = true ∧ (s.recTaken r session).ll.rxq = s.ll.rxq ∧
      (s.recTaken r session).ll.lapsed = s.ll.lapsed := ⟨rfl, rfl, rfl⟩
  obtain ⟨hsince, hrxq, hlapsed⟩ := hsame
  rw [acceptRec_eq]
  generalize s.recTaken r session = v1 at *
  obtain ⟨hepoch, hclosed, hcru2, hsince2, hll2, hframe2⟩ := stepEpoch_spec v1 r hst
  obtain ⟨hrecs, hopen⟩ := epochKeys_apart r.stream hst
  have hrecs2 : (v1.stepEpoch r).rd Reg.recordsAccepted = s.rd Reg.recordsAccepted := by
    refine (hframe2.rd fun h => ?_).trans (htaken.rd (by simp))
    unfold epochKeys at h
    split at h
    · simp [hrecs] at h
    · simp [hrecs, hopen] at h
  generalize v1.stepEpoch r = v2 at *
  obtain ⟨hnext, hcount, hsto3, hll3, hframe3⟩ := recCounted_spec v2 r hst
  obtain ⟨_, hepochOut, _, _, _⟩ := countKeys_apart r.stream hst
  have hepoch3 := (hframe3.rd hepochOut).trans hepoch
  generalize v2.recCounted r = v3 at *
  obtain ⟨hstall, hsto4, hll4, hframe4⟩ := stallEnded_spec v3 r.stream
  generalize v3.stallEnded r.stream = v4 at *
  obtain ⟨hfill, hsince5, hclosed5, hrxq5, hlapsed5, hframe5⟩ := recFollowed_spec v4
  have hrd : ∀ k ∈ [Reg.nextRec r.stream, Reg.recordsAccepted, Reg.epochState r.stream], v4.recFollowed.rd k = v3.rd k := fun k hk => by
    obtain ⟨hstalls, hfollows⟩ := acceptKeys_apart r.stream hst k hk
    exact (hframe5.rd hfollows).trans (hframe4.rd hstalls)
  refine ⟨(hrd _ (by simp)).trans hnext, ?_, ?_, (hrd _ (by simp)).trans hepoch3, ?_, ?_, ?_, ?_, fun h => ?_, ?_⟩
  · exact (hrd _ (by simp)).trans (hcount.since hrecs2)
  · rw [hfill, hsto4, hsto3, hcru2, hunits]
  · exact (bitOf_of_rd r.stream (hframe5.rd (by decide))).trans hstall
  · rw [hsince5, hsto4, hsto3, hsince2, hsince]
  · rw [hrxq5, hll4, hll3, hll2, hrxq]
  · rw [hlapsed5, hll4, hll3, hll2, hlapsed]
  · rw [hclosed5, hsto4, hsto3, hclosed h]
  · exact (((htaken.append hframe2).append hframe3).append hframe4).append hframe5

/-! ### What becomes of a record (R316, R318-R320) -/

/-- The record belongs to a session that has ended. -/
def State.recOld (s : State) (session : Nat) : Bool := s.rd Reg.llState = 0 || session ≠ s.rd Reg.session

/-- It has no credit. -/
def State.RecLacks (s : State) (r : Rec) (session : Nat) : Prop :=
  if s.recOld session then tget 0 s.ll.lapsed r.stream < r.slots else (s.outOf r.stream < r.slots || s.rd Reg.llState ≠ 2) = true

/-- Its units consume what credit its session left. -/
def State.creditLapsed (s : State) (r : Rec) : State :=
  { s with ll := { s.ll with lapsed := tset 0 s.ll.lapsed r.stream (tget 0 s.ll.lapsed r.stream - r.slots) } }

/-- Its units are counted in the session that runs. -/
def State.unitsCounted (s : State) (r : Rec) : State := s.wr (Reg.rxunits r.stream) (s.rd (Reg.rxunits r.stream) + r.slots)

/-- Its units consume the credit of its session. -/
def State.unitsTaken (s : State) (r : Rec) (session : Nat) : State :=
  if s.recOld session then s.creditLapsed r else s.unitsCounted r

theorem creditLapsed_lapsed (s : State) (r : Rec) :
    tget 0 (s.creditLapsed r).ll.lapsed r.stream = tget 0 s.ll.lapsed r.stream - r.slots := tget_tset_same ..

/-- A record with credit is applied. -/
def State.recJudged (s : State) (r : Rec) (session : Nat) : State :=
  if s.ll.expect.testBit r.stream && r.seq ≠ s.rd (Reg.nextRec r.stream) then
    if later32 r.seq (s.rd (Reg.nextRec r.stream)) then s.bump Reg.recDups else s.refuseRec r.stream Vc.order
  else if s.rd (Reg.streamOpen r.stream) = 0 then s.refuseRec r.stream Vc.order
  else if !s.epochOk r.stream r.epoch then (s.flag Reg.mrFlags 2).refuseRec r.stream Vc.order
  else s.acceptRec r session

theorem applyRec_lacking {s : State} {r : Rec} {session : Nat} (h : s.RecLacks r session) :
    s.applyRec r session = (s.unitsTaken r session).refuseRec r.stream Vc.credit := if_pos h

theorem applyRec_credited {s : State} {r : Rec} {session : Nat} (h : ¬s.RecLacks r session) :
    s.applyRec r session = (s.unitsTaken r session).recJudged r session := if_neg h

theorem recOld_of_live {s : State} {session : Nat} (hsession : session = s.rd Reg.session) (hup : s.rd Reg.llState ≠ 0) :
    s.recOld session = false := by
  simp [State.recOld, hsession, hup]

theorem recOld_of_ended {s : State} {session : Nat} (hsession : session ≠ s.rd Reg.session) : s.recOld session = true := by
  simp [State.recOld, hsession]

theorem unitsTaken_live {s : State} {r : Rec} {session : Nat} (h : s.recOld session = false) :
    s.unitsTaken r session = s.unitsCounted r := by
  rw [State.unitsTaken, h]
  rfl

/-- A record of the session that runs has credit. -/
theorem credited_live {s : State} {r : Rec} {session : Nat} (hold : s.recOld session = false) (hcredit : r.slots ≤ s.outOf r.stream)
    (hstate : s.rd Reg.llState = 2) : ¬s.RecLacks r session := by
  simp [State.RecLacks, hold, hstate, hcredit]

theorem lacking_live {s : State} {r : Rec} {session : Nat} (hold : s.recOld session = false) (hcredit : s.outOf r.stream < r.slots) :
    s.RecLacks r session := by
  simp [State.RecLacks, hold, hcredit]

/-- A record of a session that has ended has credit left there. -/
theorem credited_ended {s : State} {r : Rec} {session : Nat} (hold : s.recOld session = true)
    (hcredit : r.slots ≤ tget 0 s.ll.lapsed r.stream) : ¬s.RecLacks r session := by
  simp [State.RecLacks, hold, hcredit]

theorem recJudged_accepts {s : State} {r : Rec} {session : Nat}
    (hnext : s.ll.expect.testBit r.stream = true → r.seq = s.rd (Reg.nextRec r.stream))
    (hopen : s.rd (Reg.streamOpen r.stream) = 1) (hepoch : s.epochOk r.stream r.epoch = true) :
    s.recJudged r session = s.acceptRec r session := by
  have hinOrder : ¬((s.ll.expect.testBit r.stream && decide (r.seq ≠ s.rd (Reg.nextRec r.stream))) = true) := by
    simpa using hnext
  rw [State.recJudged, if_neg hinOrder, if_neg (by rw [hopen]; decide), if_neg (by rw [hepoch]; decide)]

theorem recJudged_repeats {s : State} {r : Rec} {session : Nat} (hexpect : s.ll.expect.testBit r.stream = true)
    (hseq : r.seq ≠ s.rd (Reg.nextRec r.stream)) (hlater : later32 r.seq (s.rd (Reg.nextRec r.stream)) = true) :
    s.recJudged r session = s.bump Reg.recDups := by
  rw [State.recJudged, if_pos (by simp [hexpect, hseq]), if_pos hlater]

/-- The registers that judging a record reads are as they were before its units were counted. -/
theorem rxunits_apart : ∀ st ∈ allStreams, Reg.rxunits st ∉ acceptKeysOf st ∧
    Reg.rxunits st ∉ [Reg.nextRec st, Reg.streamOpen st, Reg.epochState st, Reg.openEpoch st, Reg.recDups, Reg.recordsAccepted] ∧
    Reg.rxunits st ∉ violKeys 0 ++ [Reg.stalled] := by
  decide

theorem epochOk_of_rd {s t : State} {st : Nat} (ep : Nat) (hstate : t.rd (Reg.epochState st) = s.rd (Reg.epochState st))
    (hopen : t.rd (Reg.openEpoch st) = s.rd (Reg.openEpoch st)) (hclosed : t.sto.lastClosed = s.sto.lastClosed) :
    t.epochOk st ep = s.epochOk st ep := by
  rw [State.epochOk, hstate, hopen, hclosed, State.epochOk]

theorem acceptKeys_subset (r : Rec) : acceptKeys r ⊆ acceptKeysOf r.stream := by
  have hepoch : epochKeys r ⊆ [Reg.epochState r.stream, Reg.openEpoch r.stream] := by
    unfold epochKeys
    split <;> simp
  intro k hk
  simp only [acceptKeys, acceptKeysOf, List.mem_append] at hk ⊢
  exact hk.imp_left (Or.imp_left (Or.imp_left (@hepoch k)))

theorem unitsCounted_spec (s : State) (r : Rec) (hst : r.stream ∈ allStreams) :
    (s.unitsCounted r).rd (Reg.rxunits r.stream) = fit (Reg.rxunits r.stream) (s.rd (Reg.rxunits r.stream) + r.slots) ∧
    (∀ k ∈ [Reg.nextRec r.stream, Reg.streamOpen r.stream, Reg.epochState r.stream, Reg.openEpoch r.stream, Reg.recDups,
      Reg.recordsAccepted], (s.unitsCounted r).rd k = s.rd k) ∧
    Frame [Reg.rxunits r.stream] [] s (s.unitsCounted r) := by
  obtain ⟨_, hout, _⟩ := rxunits_apart r.stream hst
  exact ⟨State.rd_wr_same .., fun k hk => State.rd_wr_ne _ _ fun h => hout (h ▸ hk), (Frame.refl ..).wr _ _ (by simp)⟩

/-- A record in order, of the session that runs, with credit and an open stream (R318). -/
theorem applyRec_accepts {s : State} {r : Rec} {session : Nat} (hst : r.stream ∈ allStreams) (hold : s.recOld session = false)
    (hcredit : r.slots ≤ s.outOf r.stream) (hstate : s.rd Reg.llState = 2)
    (hnext : s.ll.expect.testBit r.stream = true → r.seq = s.rd (Reg.nextRec r.stream)) (hopen : s.rd (Reg.streamOpen r.stream) = 1)
    (hepoch : s.epochOk r.stream r.epoch = true) : s.applyRec r session = (s.unitsCounted r).acceptRec r session := by
  obtain ⟨_, hsame, _⟩ := unitsCounted_spec s r hst
  have hok : (s.unitsCounted r).epochOk r.stream r.epoch = s.epochOk r.stream r.epoch :=
    epochOk_of_rd _ (hsame _ (by simp)) (hsame _ (by simp)) rfl
  rw [applyRec_credited (credited_live hold hcredit hstate), unitsTaken_live hold]
  exact recJudged_accepts (s := s.unitsCounted r) (fun h => (hnext h).trans (hsame _ (by simp)).symm) ((hsame _ (by simp)).trans hopen)
    (hok.trans hepoch)

/-- A record in order of a session that has ended, with the credit it has left there (R316). -/
theorem applyRec_accepts_ended {s : State} {r : Rec} {session : Nat} (hold : s.recOld session = true)
    (hcredit : r.slots ≤ tget 0 s.ll.lapsed r.stream) (hnext : s.ll.expect.testBit r.stream = true → r.seq = s.rd (Reg.nextRec r.stream))
    (hopen : s.rd (Reg.streamOpen r.stream) = 1) (hepoch : s.epochOk r.stream r.epoch = true) :
    s.applyRec r session = (s.creditLapsed r).acceptRec r session := by
  have htaken : s.unitsTaken r session = s.creditLapsed r := if_pos hold
  rw [applyRec_credited (credited_ended hold hcredit), htaken]
  exact recJudged_accepts (s := s.creditLapsed r) hnext hopen hepoch

/-- A record that came before (R318). -/
theorem applyRec_repeats {s : State} {r : Rec} {session : Nat} (hst : r.stream ∈ allStreams) (hold : s.recOld session = false)
    (hcredit : r.slots ≤ s.outOf r.stream) (hstate : s.rd Reg.llState = 2) (hexpect : s.ll.expect.testBit r.stream = true)
    (hseq : r.seq ≠ s.rd (Reg.nextRec r.stream)) (hlater : later32 r.seq (s.rd (Reg.nextRec r.stream)) = true) :
    s.applyRec r session = (s.unitsCounted r).bump Reg.recDups := by
  obtain ⟨_, hsame, _⟩ := unitsCounted_spec s r hst
  have hnext : (s.unitsCounted r).rd (Reg.nextRec r.stream) = s.rd (Reg.nextRec r.stream) := hsame _ (by simp)
  rw [applyRec_credited (credited_live hold hcredit hstate), unitsTaken_live hold]
  exact recJudged_repeats (s := s.unitsCounted r) hexpect (by rw [hnext]; exact hseq) (by rw [hnext]; exact hlater)

/-! ### A refusal (R319) -/

/-- A bit of LL_FLAGS that is set stays set as the link's source is quarantined. -/
theorem llFlag_quarantine {s : State} {i : Nat} (hi : i < 8 * sizeAt Reg.llFlags) (h : s.bitOf Reg.llFlags i = true) :
    (s.quarantine 0).bitOf Reg.llFlags i = true := by
  have hnoted : ((s.silenced 0).quarantineNoted 0).bitOf Reg.llFlags i = true := by
    unfold State.quarantineNoted
    dsimp only
    rw [if_pos rfl]
    exact bitOf_wr_ne _ (by decide) (bitOf_flag_of_bitOf 4 hi (bitOf_event _ _ _ _ _ _ (by decide)
      (bitOf_flag_ne 3 (by decide) (bitOf_wr_ne (s := s.silenced 0) _ (by decide) h))))
  have hreply : Frame answerKeys [] ((s.silenced 0).quarantineNoted 0) (((s.silenced 0).quarantineNoted 0).reply (quarantineNotice 0)) :=
    (Frame.refl ..).reply _ fun _ h => h
  rw [quarantine_eq]
  exact (bitOf_of_rd i ((Frame.iff _ _ (fun h => h.statusIfChanged (by decide)) hreply).rd (by decide))).trans hnoted

theorem llFlag_llViolation {s : State} (cls : Nat) {i : Nat} (hi : i < 8 * sizeAt Reg.llFlags) (h : s.bitOf Reg.llFlags i = true) :
    (s.llViolation cls).bitOf Reg.llFlags i = true := by
  have hflag : ((s.bump Reg.llViolations).flag Reg.llFlags 3).bitOf Reg.llFlags i = true :=
    bitOf_flag_of_bitOf 3 hi (bitOf_wr_ne _ (by decide) h)
  unfold State.llViolation State.violation
  generalize (s.bump Reg.llViolations).flag Reg.llFlags 3 = v at *
  have hcounted : (v.violCounted 0 cls).bitOf Reg.llFlags i = true := by
    have hviol : Reg.llFlags ≠ Reg.viol 0 (cls - 1) := by
      simp only [Reg.llFlags, Reg.viol, rkey]
      omega
    have hbumped : ((v.bump (Reg.viol 0 (cls - 1))).bump (Reg.violTotal 0)).bitOf Reg.llFlags i = true :=
      bitOf_wr_ne _ (by decide) (bitOf_wr_ne _ hviol hflag)
    unfold State.violCounted
    dsimp only
    split
    · exact bitOf_event _ _ _ _ _ _ (by decide) hbumped
    · exact hbumped
  rw [violate_eq]
  split
  · exact hcounted
  · unfold State.violWeighed
    dsimp only
    split
    · exact llFlag_quarantine hi hcounted
    · exact hcounted

/-- The stream stalls, and a stall that begins is told. -/
def State.stallBegun (s : State) (st : Nat) : State :=
  if !s.bitOf Reg.stalled st then
    (((s.flag Reg.stalled st).flag Reg.llFlags 5).event 0x3103 st 1 (((s.flag Reg.stalled st).flag Reg.llFlags 5).rd (Reg.nextRec st))).commitSoon
  else (s.flag Reg.stalled st).flag Reg.llFlags 5

theorem refuseRec_eq (s : State) (st cls : Nat) : s.refuseRec st cls = (s.stallBegun st).llViolation cls := rfl

theorem stallBegun_spec (s : State) {st : Nat} (hst : st ∈ allStreams) : (s.stallBegun st).bitOf Reg.stalled st = true ∧
    (s.stallBegun st).bitOf Reg.llFlags 5 = true ∧ (s.stallBegun st).sto = s.sto ∧
    Frame (eventKeys ++ sendKeys ++ [Reg.stalled, Reg.llFlags]) [] s (s.stallBegun st) := by
  have hsize : ∀ st ∈ allStreams, st < 8 * sizeAt Reg.stalled := by decide
  have hstall : ((s.flag Reg.stalled st).flag Reg.llFlags 5).bitOf Reg.stalled st = true :=
    bitOf_flag_ne 5 (by decide) (bitOf_flag _ (hsize st hst))
  have hflag : ((s.flag Reg.stalled st).flag Reg.llFlags 5).bitOf Reg.llFlags 5 = true := bitOf_flag _ (by decide)
  have hframe : Frame [Reg.stalled, Reg.llFlags] [] s ((s.flag Reg.stalled st).flag Reg.llFlags 5) :=
    ((Frame.refl ..).flag _ _ (by simp)).flag _ _ (by simp)
  have hsto : ((s.flag Reg.stalled st).flag Reg.llFlags 5).sto = s.sto := rfl
  unfold State.stallBegun
  generalize (s.flag Reg.stalled st).flag Reg.llFlags 5 = v at *
  split
  · have hevent := logOnly_event v 0x3103 st 1 (v.rd (Reg.nextRec st)) 0
    obtain ⟨hsend, _⟩ := commitSoon_spec (v.event 0x3103 st 1 (v.rd (Reg.nextRec st)))
    have hrd : ∀ k ∈ [Reg.stalled, Reg.llFlags], (v.event 0x3103 st 1 (v.rd (Reg.nextRec st))).commitSoon.rd k = v.rd k := fun k hk => by
      have hout : ∀ k ∈ [Reg.stalled, Reg.llFlags], k ∉ sendKeys ∧ k ∉ eventKeys := by decide
      exact (hsend.rd (hout k hk).1).trans (hevent.rd (hout k hk).2)
    refine ⟨(bitOf_of_rd st (hrd _ (by simp))).trans hstall, (bitOf_of_rd 5 (hrd _ (by simp))).trans hflag, ?_, ?_⟩
    · rw [hsend.sto, State.event_sto, hsto]
    · exact hsend.frame (by decide) (hevent.frame (by decide) (hframe.mono (List.subset_append_right ..) fun _ h => h))
  · exact ⟨hstall, hflag, hsto, hframe.mono (List.subset_append_right ..) fun _ h => h⟩

theorem ViolOnly.sto {s t} (h : ViolOnly s t) : t.sto = s.sto := by
  obtain ⟨_, _, _, _, _, _, _, rfl⟩ := h
  rfl

/-- A refused record stalls its stream and is a violation of the link. -/
theorem refuseRec_spec (s : State) {st cls : Nat} (hst : st ∈ allStreams) (hcls : cls - 1 < 15) :
    (s.refuseRec st cls).bitOf Reg.stalled st = true ∧ (s.refuseRec st cls).bitOf Reg.llFlags 5 = true ∧
    Violates 0 cls s (s.refuseRec st cls) ∧ Counts Reg.llViolations s (s.refuseRec st cls) ∧ (s.refuseRec st cls).sto = s.sto ∧
    Frame (violKeys 0 ++ [Reg.stalled]) [] s (s.refuseRec st cls) := by
  obtain ⟨hstall, hflag, hsto, hbegun⟩ := stallBegun_spec s hst
  obtain ⟨hviol, hcount, hframe, honly⟩ := llViolation_spec (s.stallBegun st) hcls
  have hout : ∀ i < 15, Reg.viol 0 i ∉ eventKeys ++ sendKeys ++ [Reg.stalled, Reg.llFlags] := by decide
  rw [refuseRec_eq]
  refine ⟨(bitOf_of_rd st (hframe.rd (by decide))).trans hstall, llFlag_llViolation cls (by decide) hflag,
    hviol.since (hbegun.rd (hout _ hcls)) (hbegun.rd (by decide)), hcount.since (hbegun.rd (by decide)), honly.sto.trans hsto, ?_⟩
  exact (hbegun.mono (by decide) fun _ h => h).trans (hframe.mono (List.subset_append_left ..) fun _ h => h)

end Sys2Proof.Machine
end

section
/-! PROOF. Records enter the crucible or are refused: the obligation (spec/12_link_layer.md R316-R320; spec/13_mirror_and_admission.md
R328-R333). -/
namespace Sys2Proof.Machine

theorem exec_dataRx {s u : State} {f : RxFrame} (h : s.takeRx (fun g => g.ty = 0x10) = some (f, u)) :
    exec .dataRx s = .next (u.applyRec f.record f.session) := by
  show execDataRx s = _
  unfold execDataRx
  rw [h]

theorem exec_closeRx {s u : State} {f : RxFrame} (h : s.takeRx (fun g => g.ty = 0x11) = some (f, u)) :
    exec .closeRx s = .next (u.applyRec f.record f.session) := by
  show execCloseRx s = _
  unfold execCloseRx
  rw [h]

theorem record_stream (f : RxFrame) : f.record.stream ∈ allStreams := List.mem_range.mpr (Nat.mod_lt _ (by decide))

theorem record_closes {f : RxFrame} (h : f.ty = 0x11) : f.record.closes = true := by
  simp [RxFrame.record, h]

/-! ### The state after the frame is taken -/

/-- What judging a record reads is as it was before its frame was taken. -/
structure RxTaken (s u : State) : Prop where
  rd : ∀ k, u.rd k = s.rd k
  sto : u.sto = s.sto
  expect : u.ll.expect = s.ll.expect
  lapsed : u.ll.lapsed = s.ll.lapsed
  outOf : ∀ st, u.outOf st = s.outOf st
  epochOk : ∀ st ep, u.epochOk st ep = s.epochOk st ep

theorem rxTaken_takeRx {s u : State} {c : RxFrame → Bool} {f : RxFrame} (h : s.takeRx c = some (f, u)) : RxTaken s u := by
  have hrd := takeRx_rd h
  obtain ⟨_, hsto⟩ := takeRx_keeps h
  refine ⟨hrd, hsto, ?_, ?_, fun st => ?_, fun st ep => epochOk_of_rd ep (hrd _) (hrd _) (by rw [hsto])⟩
  · rw [takeRx_spec h]
  · rw [takeRx_spec h]
  · rw [State.outOf, hrd, hrd, State.outOf]

/-! ### The registers named -/

/-- The registers of a record that is accepted in its session, as the obligation lists them. -/
def dataKeys (st : Nat) : List Nat :=
  eventKeys ++ sendKeys ++ pumpKeys ++ [Reg.nextRec st, Reg.recordsAccepted, Reg.rxunits st, Reg.epochState st, Reg.openEpoch st,
    Reg.stalled, Reg.rxSinceDecl, Reg.pourRx, Reg.crucibleFill, Reg.mirrored] ++ allStreams.map Reg.crucibleUnits ++
    allStreams.map Reg.mirroredUnits

theorem acceptKeysOf_subset (st : Nat) : acceptKeysOf st ⊆ dataKeys st := by
  intro k hk
  simp only [acceptKeysOf, countKeys, followKeys, fillKeys, dataKeys, List.mem_append, List.mem_cons, List.not_mem_nil, or_false] at hk ⊢
  grind

/-- The same of a record that closes its epoch. -/
def closeKeys (st : Nat) : List Nat :=
  eventKeys ++ sendKeys ++ pumpKeys ++ [Reg.nextRec st, Reg.recordsAccepted, Reg.rxunits st, Reg.epochState st, Reg.stalled, Reg.rxSinceDecl,
    Reg.pourRx, Reg.crucibleFill, Reg.mirrored] ++ allStreams.map Reg.crucibleUnits ++ allStreams.map Reg.mirroredUnits

theorem acceptKeys_subset_close {r : Rec} (h : r.closes = true) : acceptKeys r ⊆ closeKeys r.stream := by
  intro k hk
  simp only [acceptKeys, epochKeys, h, if_true, countKeys, followKeys, fillKeys, closeKeys, List.mem_append, List.mem_cons, List.not_mem_nil,
    or_false] at hk ⊢
  grind

/-- What an accepted record leaves, its units counted in its session. -/
theorem accepted_spec {s u : State} {r : Rec} (session : Nat) (htaken : RxTaken s u) (hst : r.stream ∈ allStreams) :
    ((u.unitsCounted r).acceptRec r session).rd (Reg.nextRec r.stream) = (r.seq + 1) % 2 ^ 32 ∧
    Counts Reg.recordsAccepted s ((u.unitsCounted r).acceptRec r session) ∧
    ((u.unitsCounted r).acceptRec r session).rd (Reg.rxunits r.stream) = fit (Reg.rxunits r.stream) (s.rd (Reg.rxunits r.stream) + r.slots) ∧
    ((u.unitsCounted r).acceptRec r session).rd Reg.crucibleFill =
      fit Reg.crucibleFill ((s.sto.crucible.map (fun c => c.r.slots)).sum + r.slots) := by
  obtain ⟨hnext, hcount, hfill, _, _, _, _, _, _, hframe⟩ := acceptRec_spec (u.unitsCounted r) r session hst
  obtain ⟨hunits, hsame, _⟩ := unitsCounted_spec u r hst
  obtain ⟨hout, _, _⟩ := rxunits_apart r.stream hst
  have hsto : (u.unitsCounted r).sto = s.sto := htaken.sto
  refine ⟨hnext, hcount.since ((hsame _ (by simp)).trans (htaken.rd _)), ?_, by rw [hfill, hsto]⟩
  rw [hframe.rd fun h => hout (acceptKeys_subset r h), hunits, htaken.rd]

/-- Settles O23: a record in order with credit enters the crucible, in its session or with what credit lapsed; a repeated one is only
counted, one without credit stalls its stream and is a violation. -/
theorem recordsAreAcceptedAndRefused : Obligations.RecordsAreAcceptedAndRefused := by
  unfold Obligations.RecordsAreAcceptedAndRefused
  refine ⟨fun s u f r htake hr hsession hcredit hstate hexpect hseq hopen hepoch => ?_,
    fun s u f r htake hr hsession hcredit hstate hexpect hseq hlater => ?_, fun s u f r htake hr hsession hup hcredit => ?_,
    fun s u f r htake hr hsession hcredit hexpect hseq hopen hepoch => ?_,
    fun s u f r htake hr hty hsession hcredit hstate hexpect hopen hepoch => ?_⟩
  case refine_1 =>
    have hst : r.stream ∈ allStreams := hr ▸ record_stream f
    have htaken := rxTaken_takeRx htake
    have hexec := exec_dataRx htake
    rw [← hr] at hexec
    rw [← htaken.rd] at hsession hstate hseq hopen
    rw [← htaken.outOf] at hcredit
    rw [← htaken.epochOk] at hepoch
    have hold : u.recOld f.session = false := recOld_of_live hsession (by rw [hstate]; decide)
    rw [applyRec_accepts hst hold hcredit hstate (fun _ => hseq) hopen hepoch] at hexec
    obtain ⟨_, _, _, hstep, hstall, hsince, hrxq, _, _, hframe⟩ := acceptRec_spec (u.unitsCounted r) r f.session hst
    obtain ⟨hnext, hcount, hunits, hfill⟩ := accepted_spec f.session htaken hst
    obtain ⟨_, _, hunitsFrame⟩ := unitsCounted_spec u r hst
    refine ⟨_, hexec, hnext, hcount, hunits, hfill, hstep, hstall, hsince, hrxq, ?_⟩
    have hkey : [Reg.rxunits r.stream] ⊆ dataKeys r.stream := by simp [dataKeys]
    exact ((takeRx_frame _ _ htake).trans (hunitsFrame.mono hkey fun _ h => h)).trans
      (hframe.mono (fun _ h => acceptKeysOf_subset _ (acceptKeys_subset r h)) fun _ h => h)
  case refine_2 =>
    have hst : r.stream ∈ allStreams := hr ▸ record_stream f
    have htaken := rxTaken_takeRx htake
    have hexec := exec_dataRx htake
    rw [← hr] at hexec
    rw [← htaken.rd] at hsession hstate hseq hlater
    rw [← htaken.outOf] at hcredit
    rw [← htaken.expect] at hexpect
    have hold : u.recOld f.session = false := recOld_of_live hsession (by rw [hstate]; decide)
    rw [applyRec_repeats hst hold hcredit hstate hexpect hseq hlater] at hexec
    obtain ⟨hunits, hsame, hunitsFrame⟩ := unitsCounted_spec u r hst
    obtain ⟨_, hout, _⟩ := rxunits_apart r.stream hst
    refine ⟨_, hexec, ?_, ?_, ?_, ?_⟩
    · exact (rd_bump ..).trans (by rw [hsame _ (by simp), htaken.rd])
    · rw [rd_bump_ne _ fun h => hout (by rw [h]; simp), hunits, htaken.rd]
    · show u.sto.crucible = s.sto.crucible
      rw [htaken.sto]
    · exact ((takeRx_frame _ _ htake).trans (hunitsFrame.mono (by simp) fun _ h => h)).bump _ (by simp)
  case refine_3 =>
    have hst : r.stream ∈ allStreams := hr ▸ record_stream f
    have htaken := rxTaken_takeRx htake
    have hexec := exec_dataRx htake
    rw [← hr] at hexec
    rw [← htaken.rd] at hsession hup
    rw [← htaken.outOf] at hcredit
    have hold : u.recOld f.session = false := recOld_of_live hsession hup
    rw [applyRec_lacking (lacking_live hold hcredit), unitsTaken_live hold] at hexec
    obtain ⟨_, _, hunitsFrame⟩ := unitsCounted_spec u r hst
    obtain ⟨_, _, hout⟩ := rxunits_apart r.stream hst
    obtain ⟨hstall, hflag, hviol, hcount, hsto, hframe⟩ := refuseRec_spec (u.unitsCounted r) (cls := Vc.credit) hst (by decide)
    have hsame : ∀ k ∈ violKeys 0, (u.unitsCounted r).rd k = s.rd k := fun k hk =>
      (hunitsFrame.rd fun h => hout (List.mem_append_left _ (List.mem_singleton.mp h ▸ hk))).trans (htaken.rd k)
    refine ⟨_, hexec, hstall, hflag, hviol.since (hsame _ (by decide)) (hsame _ (by decide)), hcount.since (hsame _ (by decide)), ?_, ?_⟩
    · rw [hsto]
      show u.sto.crucible = s.sto.crucible
      rw [htaken.sto]
    · exact ((takeRx_frame _ _ htake).trans (hunitsFrame.mono (by simp) fun _ h => h)).trans (hframe.mono (by simp) fun _ h => h)
  case refine_4 =>
    have hst : r.stream ∈ allStreams := hr ▸ record_stream f
    have htaken := rxTaken_takeRx htake
    have hexec := exec_dataRx htake
    rw [← hr] at hexec
    rw [← htaken.rd] at hsession hseq hopen
    rw [← htaken.lapsed] at hcredit
    rw [← htaken.epochOk] at hepoch
    have hold : u.recOld f.session = true := recOld_of_ended hsession
    rw [applyRec_accepts_ended hold hcredit (fun _ => hseq) hopen hepoch] at hexec
    obtain ⟨hnext, hcount, _, _, _, _, _, hlapsed, _, hframe⟩ := acceptRec_spec (u.creditLapsed r) r f.session hst
    obtain ⟨hout, _, _⟩ := rxunits_apart r.stream hst
    refine ⟨_, hexec, hnext, hcount.since (htaken.rd _), ?_, ?_⟩
    · exact (hframe.rd fun h => hout (acceptKeys_subset r h)).trans (htaken.rd _)
    · rw [hlapsed, creditLapsed_lapsed, htaken.lapsed]
  case refine_5 =>
    have hst : r.stream ∈ allStreams := hr ▸ record_stream f
    have hcloses : r.closes = true := hr ▸ record_closes hty
    have htaken := rxTaken_takeRx htake
    have hexec := exec_closeRx htake
    rw [← hr] at hexec
    rw [← htaken.rd] at hsession hstate hopen
    rw [← htaken.outOf] at hcredit
    rw [← htaken.expect] at hexpect
    rw [← htaken.epochOk] at hepoch
    have hold : u.recOld f.session = false := recOld_of_live hsession (by rw [hstate]; decide)
    rw [applyRec_accepts hst hold hcredit hstate (fun h => absurd (h.symm.trans hexpect) (by simp)) hopen hepoch] at hexec
    obtain ⟨_, _, _, hstep, _, _, _, _, hclosed, hframe⟩ := acceptRec_spec (u.unitsCounted r) r f.session hst
    obtain ⟨hnext, hcount, _, _⟩ := accepted_spec f.session htaken hst
    obtain ⟨_, _, hunitsFrame⟩ := unitsCounted_spec u r hst
    refine ⟨_, hexec, hstep.trans (if_pos hcloses), hclosed hcloses, hnext, hcount, ?_⟩
    have hkey : [Reg.rxunits r.stream] ⊆ closeKeys r.stream := by simp [closeKeys]
    exact ((takeRx_frame _ _ htake).trans (hunitsFrame.mono hkey fun _ h => h)).trans
      (hframe.mono (acceptKeys_subset_close hcloses) fun _ h => h)

end Sys2Proof.Machine
end
